-- ==== Sys2Proof/Word.lean ====
section
/-! DEFINITION. The word types of the block and the two container types that State is built from: a byte list and a
sparse table kept as a list of pairs with strictly rising keys. -/
namespace Sys2Proof

/-- One byte, as a register, a memory cell or a message holds it. -/
abbrev Byte := BitVec 8
/-- One 32-bit register word (R62). -/
abbrev W32 := BitVec 32
/-- One 64-bit word: an address or a counter pair. -/
abbrev W64 := BitVec 64

/-- A sparse table: pairs of a key and a value, keys strictly rising; a key that is not listed holds the
table's default. The operations on it are in Machine/Ops.lean. -/
abbrev Smap (α : Type) := List (Nat × α)

/-- Bytes that host software placed in its own memory before it rang the device: an address and the bytes there. -/
abbrev HostWrites := List (Nat × List Byte)

end Sys2Proof
end

