-- ==== Sys2Proof/Machine/Store/Twill.lean ====
section
/-! DEFINITION. The state of the Twill ports, router and requests (14_twill_fabric) and of compositions and tokens (15_composition_ownership). -/
namespace Sys2Proof.Machine

/-- Training states of a port (R407). -/
inductive PortSt where
  | disabled | detect | cal | txeq | align | param | active | down | draining
  deriving DecidableEq, Repr

/-- A packet (R432): header fields by name, payload as sent. -/
structure Packet where
  /-- TYPE | 4 | 14_twill_fabric R432 | reset none -/
  typ : Nat
  /-- VC | 3 | 14_twill_fabric R432 | reset none -/
  vc : Nat
  /-- DCLASS | 1 | 14_twill_fabric R421 R432 | reset none -/
  dclass : Bool
  /-- DST | 17 | 14_twill_fabric R432 | reset none -/
  dst : Nat
  /-- SRC | 17 | 14_twill_fabric R432 | reset none -/
  src : Nat
  /-- PART | 6 | 14_twill_fabric R432 | reset none -/
  part : Nat
  /-- HOPS | 5 | 14_twill_fabric R427 R432 | reset none -/
  hops : Nat
  /-- ENC | 1 | 14_twill_fabric R436 | reset none -/
  enc : Bool
  /-- LAST | 1 | 14_twill_fabric R432 | reset none -/
  last : Bool
  /-- RETRY | 1 | 14_twill_fabric R438 | reset none -/
  retry : Bool
  /-- REQ_ID | 48 | 14_twill_fabric R437 | reset none -/
  reqId : Nat
  /-- MAPGEN | 16 | 14_twill_fabric R432 | reset none -/
  mapgen : Nat
  /-- ADDR, or the type-specific argument ARG | 47 | 14_twill_fabric R432 | reset none -/
  addr : Nat
  /-- SEQ | 15 | 14_twill_fabric R432 | reset none -/
  seq : Nat
  /-- EPOCH | 48 | 14_twill_fabric R432 | reset none -/
  epoch : Nat
  /-- INDEX | 6 | 14_twill_fabric R432 | reset none -/
  index : Nat
  /-- STATUS | 8 | 14_twill_fabric R432 | reset none -/
  status : Nat
  /-- payload before encryption, or as sent where the trailer is kept | LEN * 16 bytes | 14_twill_fabric R432 R436 | reset none -/
  payload : List Byte
  /-- trailer as it arrived, of a packet on its way to another node; none for a packet of this node | 64 | 14_twill_fabric R432 R434 | reset none -/
  trailer : Option Nat
  deriving DecidableEq, Repr

/-- A DATA or LCTRL flit that waits in the replay buffer: its sequence number and stream bytes (R413). -/
structure Flit where
  /-- FSEQ | 12 | 14_twill_fabric R413 | reset none -/
  fseq : Nat
  /-- LCTRL rather than DATA | 1 | 14_twill_fabric R413 | reset none -/
  lctrl : Bool
  /-- stream bytes | 243 | 14_twill_fabric R413 | reset none -/
  stream : List Byte
  /-- PSTART | 8 | 14_twill_fabric R413 | reset none -/
  pstart : Nat
  /-- times it was resent in a row | 4 | 14_twill_fabric R414 | reset none -/
  resent : Nat
  deriving DecidableEq, Repr

/-- A Twill port. -/
structure Port where
  /-- LTSTATE | 4 | 14_twill_fabric R407 | reset DETECT -/
  st : PortSt
  /-- consecutive training failures | 2 | 14_twill_fabric R407 | reset 0 -/
  fails : Nat
  /-- DISABLE was commanded and ENABLE not written as 1 since | 1 | 14_twill_fabric TWL_P_CMD | reset false -/
  cmdOff : Bool
  /-- receive physical lane of logical lanes 0 to 3 | 3 each | 14_twill_fabric TWL_P_LMAP | reset 0 1 2 3 -/
  rx : List Nat
  /-- transmit physical lane of logical lanes 0 to 3 | 3 each | 14_twill_fabric TWL_P_LMAP | reset 0 1 2 3 -/
  tx : List Nat
  /-- active lanes: 0, 2 or 4 | 3 | 14_twill_fabric TWL_P_STATE | reset 0 -/
  width : Nat
  /-- rate in force since the port last entered DETECT: 106.25 GBd | 1 | 14_twill_fabric R405 TWL_P_CFG | reset 0 -/
  rate : Bool
  /-- sender's physical lane on each receive lane, from the frames of ALIGN | 3 each | 14_twill_fabric R406 R407 | reset none -/
  seen : Smap Nat
  /-- fenced physical lanes | 5 | 14_twill_fabric R418 | reset none -/
  failed : List Nat
  /-- swap that this node's receiver has asked for: logical lane | 2 | 14_twill_fabric R418 | reset none -/
  swapRx : Option Nat
  /-- logical lane that this node's transmitter mirrors | 2 | 14_twill_fabric R418 | reset none -/
  mirror : Option Nat
  /-- peer node, port, and rate from the training frames | 22 | 14_twill_fabric R409 | reset none -/
  peer : Option (Nat × Nat × Bool)
  /-- PARAM has completed since DETECT | 1 | 14_twill_fabric TWL_P_PEER | reset false -/
  peerValid : Bool
  /-- PARAM waits for a matching TWL_P_EXPECT | 1 | 14_twill_fabric R409 | reset false -/
  mismatch : Bool
  /-- RX_READY of this end | 1 | 14_twill_fabric R407 R408 | reset false -/
  rxReady : Bool
  /-- RX_READY of the peer | 1 | 14_twill_fabric R407 R408 | reset false -/
  peerReady : Bool
  /-- transmitter taps of the five lanes, key 4 * lane + tap | integer each | 14_twill_fabric R408 | reset 0 (DESIGN CHOICE 0, log entry 3) -/
  taps : Smap Int
  /-- EQ_STS of each lane: answer to the peer's latest request, 0 not updated, 1 updated | 2 each | 14_twill_fabric R408 | reset 0 -/
  eqSts : Smap Nat
  /-- next FSEQ to send | 12 | 14_twill_fabric R413 | reset 1 -/
  txSeq : Nat
  /-- ACKSEQ: last flit received in order | 12 | 14_twill_fabric R413 | reset 0 -/
  ackSeq : Nat
  /-- replay buffer: flits not yet acknowledged, oldest first | at most 2048 | 14_twill_fabric R415 | reset empty -/
  replay : List Flit
  /-- a NAK has been sent and none may follow yet | 1 | 14_twill_fabric R414 | reset false -/
  nakHold : Bool
  /-- flits accepted since the last acknowledgement was sent | 6 | 14_twill_fabric R415 | reset 0 -/
  unacked : Nat
  /-- transmit credits of each channel and class, key 2 * VC + class | 13 each | 14_twill_fabric R422 | reset 0 until PARAM -/
  credits : Smap Nat
  /-- credits to return to the peer | 13 each | 14_twill_fabric R422 | reset 0 -/
  owed : Smap Nat
  /-- stream bytes received of a packet not yet whole | bytes | 14_twill_fabric R413 | reset empty -/
  partialIn : List Byte
  /-- link control messages received and not yet acted on: code and lane, oldest first | list | 14_twill_fabric R413 R418 | reset none -/
  lctrlIn : List (Nat × Nat)
  /-- packets queued for transmission, oldest first | Packet each | 14_twill_fabric R423 R430 | reset empty -/
  outq : List Packet
  /-- header of the latest flit sent | 72 | 14_twill_fabric R413 | reset 0 -/
  lastHdr : Nat
  /-- flits of the FEC group that is being filled, oldest first | 256 bytes each | 14_twill_fabric R411 | reset none -/
  filling : List (List Byte)
  /-- GROUP of the next FEC group | 16 | 14_twill_fabric R412 | reset 0 -/
  group : Nat
  /-- symbols of the latest FEC group on each active logical lane | 10 each | 14_twill_fabric R411 | reset none -/
  sent : List (List Nat)
  /-- deficit of each channel in bytes | integer each | 14_twill_fabric R423 | reset 0 -/
  deficit : Smap Nat
  /-- channel whose turn it is, 1 to 5 | 3 | 14_twill_fabric R423 | reset 1 -/
  turn : Nat
  /-- class of the packet that each channel sent last | 1 each | 14_twill_fabric R423 | reset 1, so that class 0 goes first -/
  lastClass : Smap Nat
  deriving DecidableEq, Repr

/-- The kinds of request a node sends (R433). -/
inductive ReqKind where
  | read | write | score | expand | query
  deriving DecidableEq, Repr

/-- A request outstanding from this node (R437, R438). -/
structure OutReq where
  /-- kind | 3 | 14_twill_fabric R433 | reset none -/
  kind : ReqKind
  /-- the packets sent | Packet each | 14_twill_fabric R438 | reset none -/
  pkts : List Packet
  /-- sent a second time | 1 | 14_twill_fabric R438 | reset none -/
  resent : Bool
  /-- forwards so far | 2 | 15_composition_ownership R460 | reset none -/
  forwards : Nat
  /-- answered STALE_MAP once | 1 | 15_composition_ownership R460 | reset none -/
  staleOnce : Bool
  /-- query (walk) number that the request serves | 32 | 14_twill_fabric R437 | reset none -/
  query : Nat
  /-- response packets so far, by SEQ | Packet each | 14_twill_fabric R437 | reset none -/
  got : Smap Packet
  /-- slots the request asks about | 32 each | 06_search_walk R172 | reset none -/
  slots : List Nat
  deriving DecidableEq, Repr

/-- A request that this node holds under R456. -/
structure Held where
  /-- the request | Packet | 15_composition_ownership R456 | reset none -/
  pkt : Packet
  /-- held for a newer generation rather than for the token | 1 | 15_composition_ownership R456 | reset none -/
  forGen : Bool
  deriving DecidableEq, Repr

/-- A SCORE or EXPAND that this node serves from the holder's structures, which it reads as TF (R453). -/
structure Serve where
  /-- the request | Packet | 15_composition_ownership R453 | reset none -/
  pkt : Packet
  /-- READ requests that have not been answered: REQ_ID, address read | list | 15_composition_ownership R453 | reset none -/
  wait : List (Nat × Nat)
  /-- lines of the holder's memory read so far, by address div 64 | 64 bytes each | 15_composition_ownership R453 | reset none -/
  lines : Smap (List Byte)
  deriving DecidableEq, Repr

/-- Token states (R461). -/
inductive Token where
  | none | held | offered | accepted | confirmed | claiming
  deriving DecidableEq, Repr

/-- What follows once a node's requests in service for a segment are complete (R463, R468, R470). -/
inductive CeaseFor where
  /-- CONFIRM to the peer (R463 step 3) -/
  | confirm
  /-- REVOKE_ACK to the claiming node (R468 step 2) -/
  | revoke
  /-- the TSET to CONFIRMED of a segment table entry completes (R470) -/
  | tset (target : Nat)
  deriving DecidableEq, Repr

/-- A node that completes its requests in service for a segment and starts no new one. -/
structure Ceasing where
  /-- what follows | CeaseFor | 15_composition_ownership R463 R468 R470 | reset none -/
  kind : CeaseFor
  /-- peer; none reads 0x1_FFFF | 17 | 15_composition_ownership R463 R468 | reset none -/
  node : Option Nat
  /-- token generation | 32 | 15_composition_ownership R463 R468 | reset none -/
  gen : Nat
  deriving DecidableEq, Repr

/-- A ledger entry of a segment (R461). -/
structure LedgerEnt where
  /-- state | 3 | 15_composition_ownership R461 | reset NONE -/
  st : Token
  /-- TGEN | 32 | 15_composition_ownership R461 | reset 0 -/
  tgen : Nat
  /-- peer; none reads 0x1_FFFF | 17 | 15_composition_ownership R461 | reset none -/
  peer : Option Nat
  /-- state, TGEN and peer before a claim | LedgerEnt fields | 15_composition_ownership R468 | reset none -/
  before : Option (Token × Nat × Option Nat)
  /-- peers of a claim that have not acknowledged | list | 15_composition_ownership R468 | reset none -/
  waitAck : List Nat
  /-- an offer timed out, and the node offers again after a further HTIMEOUT | 1 | 15_composition_ownership R464 | reset false -/
  again : Bool
  /-- requests in service are being completed, and what follows | Ceasing | 15_composition_ownership R463 R468 R470 | reset none -/
  ceasing : Option Ceasing
  deriving DecidableEq, Repr

/-- A composition generation as MAP_APPLY put it in force (R447, R448): the eight record words and the entries. -/
structure MapGen where
  /-- record words 0 to 5 | 32 each | 15_composition_ownership R445 | reset none -/
  words : List Nat
  /-- segment table entries | 64 each | 15_composition_ownership R446 | reset none -/
  entries : List Nat
  deriving DecidableEq, Repr

/-- A composition on this node. -/
structure Comp where
  /-- generation in force | MapGen | 15_composition_ownership R448 | reset none -/
  now : MapGen
  /-- the generation before it | MapGen | 15_composition_ownership R448 | reset none -/
  prev : Option MapGen
  /-- the drain timer of the previous generation runs | 1 | 15_composition_ownership R458 | reset false -/
  draining : Bool
  /-- BOUND | 48 | 15_composition_ownership R450 | reset 0 -/
  bound : Nat
  /-- local epoch of the bound composition epochs, by the first of a run bound to one local epoch; zero once discarded | 48 each | 15_composition_ownership R450 | reset none -/
  binding : Smap Nat
  deriving DecidableEq, Repr

/-- Twill: ports, router, requests. -/
structure Twill where
  /-- ports not at their reset state | Port each | 14_twill_fabric R404 | reset as Port.reset -/
  ports : Smap Port
  /-- requests outstanding, by REQ_ID | OutReq each | 14_twill_fabric R437 | reset none -/
  out : Smap OutReq
  /-- REQ_ID counter | 48 | 14_twill_fabric R437 | reset 0 -/
  nextReq : Nat
  /-- WRITE records: requesting node * 2^48 + REQ_ID | list | 14_twill_fabric R439 | reset none -/
  writes : List Nat
  /-- QUERY messages running here: requesting node * 2^48 + REQ_ID, with the walk number | list | 14_twill_fabric R442 | reset none -/
  serving : Smap Nat
  /-- parts of a QUERY, LIST or READ_RSP message received so far, by key and SEQ | Packet each | 14_twill_fabric R437 | reset none -/
  asm : Smap (Smap Packet)
  /-- QUERY messages that wait for their stamp to be bound | Packet lists | 15_composition_ownership R451 | reset none -/
  queryWait : List (List Packet)
  /-- requests that this node serves and whose reads are not all in | Serve each | 15_composition_ownership R453 | reset none -/
  serves : List Serve
  /-- packets for other nodes, with the port each arrived on, not yet forwarded: oldest first | list | 14_twill_fabric R425 R426 | reset none -/
  transit : List (Nat × Packet)
  /-- packets delivered to the local engines and not yet taken: CTRL messages for host software or the agent | Packet each | 14_twill_fabric R425 | reset none -/
  inbox : List Packet
  deriving DecidableEq, Repr

/-- Compositions and tokens. -/
structure OwnState where
  /-- staged composition record words, key 8 * composition + word | 32 each | 15_composition_ownership R447 | reset 0 -/
  stageRec : Smap W32
  /-- staged segment table words, key 2 * entry + word | 32 each | 15_composition_ownership R447 | reset 0 -/
  stageSeg : Smap W32
  /-- compositions in force | Comp each | 15_composition_ownership R448 | reset none -/
  comps : Smap Comp
  /-- ledger, key 2^25 * composition + 2^17 * segment + holder | LedgerEnt each | 15_composition_ownership R461 | reset NONE -/
  ledger : Smap LedgerEnt
  /-- requests held | Held each | 15_composition_ownership R456 | reset none -/
  held : List Held
  /-- nodes marked unreachable | 17 each | 15_composition_ownership R471 | reset none -/
  unreachable : List Nat
  /-- OWN_CMD_STATUS | 20 | 15_composition_ownership OWN_CMD_STATUS | reset 0 -/
  cmdStatus : Nat
  /-- segments reported unresolved whose ledger state stays unchanged, by ledger key: requests completed with OWNERSHIP_UNRESOLVED since the last event | 32 each | 20_usnea_management R636 | reset none -/
  unresolved : Smap Nat
  deriving DecidableEq, Repr

/-- A port at reset. -/
def Port.reset : Port :=
  { st := .detect, fails := 0, cmdOff := false, rx := [0, 1, 2, 3], tx := [0, 1, 2, 3], width := 0,
    rate := false, seen := [], failed := [], swapRx := none, mirror := none, peer := none, peerValid := false,
    mismatch := false, rxReady := false, peerReady := false, taps := [], eqSts := [], txSeq := 1, ackSeq := 0, replay := [],
    nakHold := false, unacked := 0, credits := [], owed := [], partialIn := [], lctrlIn := [], outq := [],
    lastHdr := 0, filling := [], group := 0, sent := [], deficit := [], turn := 1, lastClass := [] }

/-- Twill at reset. -/
def Twill.reset : Twill :=
  { ports := [], out := [], nextReq := 0, writes := [], serving := [], asm := [],
    queryWait := [], serves := [], transit := [], inbox := [] }

/-- Compositions and tokens at reset. -/
def OwnState.reset : OwnState :=
  { stageRec := [], stageSeg := [], comps := [], ledger := [], held := [], unreachable := [], cmdStatus := 0,
    unresolved := [] }

/-- A ledger entry that nothing has touched. -/
def LedgerEnt.initial : LedgerEnt :=
  { st := .none, tgen := 0, peer := none, before := none, waitAck := [], again := false, ceasing := none }

end Sys2Proof.Machine
end

