-- ==== Sys2Proof/Machine/Store/Regs.lean ====
section
/-! DEFINITION. The state behind the BAR0 registers (03_register_conventions, 23_register_map): copies in force,
shadows, held values, event registers, per-requester copies, and the strobe machinery. A register and unit not
listed holds the reset value of the register table (Machine/RegTable.lean). -/
namespace Sys2Proof.Machine

/-- One stored copy of an RW or SH register: its bits and the odd-parity bit of each byte (R80). -/
structure RegCopy where
  /-- stored bits | 32 | 03_register_conventions R80 | reset as the register table gives -/
  val : W32
  /-- parity bit of each byte | 4 | 03_register_conventions R80 | reset the odd parity of the reset bits -/
  par : BitVec 4
  deriving DecidableEq, Repr

/-- A sequence-clear register: event bits, their stamps and the sequence number (R84). -/
structure SqcCell where
  /-- event bits | 24 | 03_register_conventions R84 | reset 0 -/
  ev : BitVec 24
  /-- SEQ | 8 | 03_register_conventions R84 | reset 0x00 -/
  seq : BitVec 8
  /-- stamp of each event bit | 8 each | 03_register_conventions R84 | reset 0 -/
  stamps : Smap (BitVec 8)
  deriving DecidableEq, Repr

/-- What a requester's xxx_WERR_INFO latched (R67). -/
structure WerrInfo where
  /-- block offset of the first failing write | 18 | 03_register_conventions R67 | reset 0 -/
  offset : Nat
  /-- alias of the write | 2 | 03_register_conventions R67 | reset 0 -/
  alias_ : Nat
  /-- cause | 4 | 03_register_conventions R67 | reset 0 -/
  cause : Nat
  /-- requester | 7 | 03_register_conventions R67 | reset 0 -/
  fn : Nat
  deriving DecidableEq, Repr

/-- The register file. Keys are built by the functions of Machine/Registers.lean. -/
structure RegFile where
  /-- copies in force of RW, SH and latched RO registers | 32 + 4 parity each | 03_register_conventions R71 R80 | reset per register table -/
  force : Smap RegCopy
  /-- shadow copies written since the last strobe | 32 + 4 parity each | 03_register_conventions R71 | reset equal to the copy in force -/
  shadow : Smap RegCopy
  /-- shadow contents that PREPARE staged for the next epoch | 32 + 4 parity each | 23_register_map R689 | reset none -/
  staged : Smap RegCopy
  /-- values held for the next image apply | 32 + 4 parity each | 02_structure_images R56, 03_register_conventions R80 | reset none -/
  held : Smap RegCopy
  /-- sequence-clear registers | SqcCell each | 03_register_conventions R84 | reset no event, SEQ 0 -/
  sqc : Smap SqcCell
  /-- counters and latched status words | 32 each | 23_register_map R687 | reset 0 unless the register table gives another -/
  ro : Smap W32
  /-- each requester's xxx_WERR of each block | SqcCell each | 23_register_map R686 | reset no event, SEQ 0 -/
  werr : Smap SqcCell
  /-- each requester's xxx_WERR_INFO of each block | 32 each | 23_register_map R686 | reset 0 -/
  werrInfo : Smap WerrInfo
  /-- xxx_HI value that a requester's read of xxx_LO latched | 32 each | 03_register_conventions R66 | reset none -/
  hiLatch : Smap W32
  /-- blocks fenced by register parity | 18 | 03_register_conventions R83 | reset none -/
  fencedBlocks : List Nat
  /-- register units fenced by register parity: block * 65536 + unit | list | 03_register_conventions R83 | reset none -/
  fencedUnits : List Nat
  /-- xxx_PARITY_INFO of each block | 32 each | 03_register_conventions R67 R82 | reset UNIT 0xFFF -/
  parityInfo : Smap W32
  /-- bits that an upset changed in a copy, key 2 * register key + 1 for a shadow copy: the bits before it and after it | 2 of 32 each | 03_register_conventions R81 R82 | reset none -/
  good : Smap (W32 × W32)
  /-- copies whose upset has been found, keys as of good: they raise no second fault | list | 03_register_conventions R82 | reset none -/
  found : List Nat
  /-- copies in force that the latest epoch strobe replaced, until its acknowledgements are in | 32 + 4 parity each | 02_structure_images R54, 09_epochs_updates R258 | reset none -/
  replaced : List (Nat × Option RegCopy)
  /-- copy that a clock domain still runs of a block-wide register of which each unit's domain has its own, key 2^40 * domain + register key, where the domain missed the strobe | 32 + 4 parity each | 03_register_conventions R78 | reset none -/
  lagging : Smap RegCopy
  /-- groups of the update strobe that is in progress | 32 | 03_register_conventions R76 | reset none -/
  updNow : Option W32
  /-- shadow contents that the update strobe in progress carries | 32 + 4 parity each | 03_register_conventions R76 | reset none -/
  issued : Smap RegCopy
  /-- groups merged into one further update strobe | 32 | 03_register_conventions R76 | reset none -/
  updNext : Option W32
  /-- groups of the update strobe merged into the epoch strobe | 32 | 03_register_conventions R77 | reset none -/
  updEpoch : Option W32
  /-- clock domains that missed the last update strobe | list | 03_register_conventions R78 | reset none -/
  updMissed : List Nat
  /-- registers whose strobed shadow a missed domain or a fenced block still has to take | list | 03_register_conventions R78, 19_faults_recovery R584 R593 | reset none -/
  updPending : List Nat
  /-- value that the last register read returned to its requester | 64 | 03_register_conventions R65 | reset 0 -/
  readData : Smap W64
  deriving DecidableEq, Repr

/-- The register file at reset. -/
def RegFile.reset : RegFile :=
  { force := [], shadow := [], staged := [], held := [], sqc := [], ro := [], 
    werr := [], werrInfo := [], hiLatch := [], fencedBlocks := [], fencedUnits := [], parityInfo := [],
    good := [], found := [], replaced := [], lagging := [], updNow := none, issued := [], updNext := none, updEpoch := none, updMissed := [], updPending := [], readData := [] }

end Sys2Proof.Machine
end

