-- ==== Sys2Proof/Machine/Store/Usnea.lean ====
section
/-! DEFINITION. The state of Usnea: firmware, SPI NOR, messages, sessions, events, logs, sensors and board interfaces (20_usnea_management). -/
namespace Sys2Proof.Machine

/-- One copy of the NOR directory (R612), without its fixed fields. -/
structure NorDir where
  /-- DSEQ | 32 | 20_usnea_management R612 | reset kept -/
  dseq : Nat
  /-- BOOT: network boot | 1 | 20_usnea_management R612 | reset kept -/
  netboot : Bool
  /-- ACTIVE: copy B | 1 | 20_usnea_management R612 | reset kept -/
  activeB : Bool
  /-- TRIAL | 1 | 20_usnea_management R612 | reset kept -/
  trial : Bool
  /-- SMBUS_ADDR | 7 | 20_usnea_management R612 | reset kept -/
  smbus : Nat
  /-- NOR_CYCLES | 32 | 20_usnea_management R612 | reset kept -/
  cycles : Nat
  /-- UDP_PORT | 16 | 20_usnea_management R612 | reset kept -/
  udp : Nat
  /-- region entries: TYPE, OFFSET, SIZE | 16 bytes each | 20_usnea_management R612 R613 | reset kept -/
  regions : List (Nat × Nat × Nat)
  deriving DecidableEq, Repr

/-- A record of the persistent event log (R621). -/
structure LogRec where
  /-- LOGSEQ | 64 | 20_usnea_management R621 | reset kept -/
  seq : Nat
  /-- real-time counter | 64 | 20_usnea_management R621 | reset kept -/
  rtc : Nat
  /-- KIND | 8 | 20_usnea_management R621 | reset kept -/
  kind : Nat
  /-- partition | 8 | 20_usnea_management R621 | reset kept -/
  part : Nat
  /-- function-local queue pair | 16 | 20_usnea_management R621 | reset kept -/
  qp : Nat
  /-- body | 32 bytes | 20_usnea_management R621 | reset kept -/
  body : List Byte
  deriving DecidableEq, Repr

/-- What the receive area holds (R617, R631). -/
inductive RecvUse where
  | free | image | firmware | boot
  deriving DecidableEq, Repr

/-- A transport over which a management message comes (The management message protocol). -/
inductive Transport where
  | mailbox | i3c | smbus | udp
  deriving DecidableEq, Repr

/-- A management request that Usnea has taken (R628). -/
structure MgmtReq where
  /-- transport it came over | 2 | 20_usnea_management R628 | reset none -/
  via : Transport
  /-- the requester's address, in the form of an event destination | bytes | 20_usnea_management R634 | reset none -/
  src : List Byte
  /-- TYPE | 16 | 20_usnea_management R628 | reset none -/
  typ : Nat
  /-- TAG | 32 | 20_usnea_management R628 | reset none -/
  tag : Nat
  /-- session in which it was sealed | 16 | 20_usnea_management R630 | reset none -/
  session : Option Nat
  deriving DecidableEq, Repr

/-- A management session (R630). -/
structure Session where
  /-- operator key slot | 2 | 20_usnea_management R630 | reset no session -/
  slot : Nat
  /-- session key | 32 bytes | 20_usnea_management R630 | reset no session -/
  key : List Byte
  /-- counter of the last message accepted | 64 | 20_usnea_management R630 | reset no session -/
  rx : Nat
  /-- counter of the last message sent | 64 | 20_usnea_management R630 | reset no session -/
  tx : Nat
  /-- real-time counter at the last message | 64 | 20_usnea_management R630 | reset no session -/
  last : Nat
  deriving DecidableEq, Repr

/-- An event not yet acknowledged (R635). -/
structure Event where
  /-- EVSEQ | 32 | 20_usnea_management R635 | reset none -/
  seq : Nat
  /-- mask bit of the event | 4 | 20_usnea_management R635 | reset none -/
  bit : Nat
  /-- body | bytes | 20_usnea_management R635 R636 | reset none -/
  body : List Byte
  /-- times sent | 4 | 20_usnea_management R635 | reset none -/
  sent : Nat
  deriving DecidableEq, Repr

/-- A subscription (R635). -/
structure Sub where
  /-- destination: address and port, or MCTP endpoint | bytes | 20_usnea_management R635 | reset none -/
  dest : List Byte
  /-- event mask | 9 | 20_usnea_management R635 | reset none -/
  mask : Nat
  /-- EVSEQ of the next event | 32 | 20_usnea_management R635 | reset none -/
  next : Nat
  /-- unacknowledged events, oldest first | at most 1024 | 20_usnea_management R635 | reset none -/
  events : List Event
  /-- events dropped since the last EVENT sent | 32 | 20_usnea_management R635 | reset none -/
  dropped : Nat
  deriving DecidableEq, Repr

/-- JTAG instructions that R627 names, and every other debug instruction. -/
inductive JtagInstr where
  | bypass | idcode | sample | extest | debug
  deriving DecidableEq, Repr

/-- Usnea. -/
structure UsneaState where
  /-- runtime components run | 1 | 20_usnea_management MGT_STATUS | reset 0 -/
  running : Bool
  /-- Usnea restarts: cores halted or first stage reloading | 1 | 20_usnea_management R608 R606 | reset false -/
  restarting : Bool
  /-- cause of a halt whose restart has not begun: 1 lockstep, 2 watchdog, 3 component faults, 4 activation, 5 another |
      3 | 20_usnea_management R608 R610 R618 R623 | reset none -/
  haltCause : Option Nat
  /-- the firewall is closed | 1 | 20_usnea_management R608 | reset false -/
  closed : Bool
  /-- MGT_STATUS.RESTARTS | 8 | 20_usnea_management MGT_STATUS | reset 0x00 -/
  restarts : BitVec 8
  /-- started by network boot | 1 | 20_usnea_management MGT_STATUS | reset 0 -/
  netbooted : Bool
  /-- running copy is copy B | 1 | 20_usnea_management MGT_STATUS | reset 0 -/
  copyB : Bool
  /-- RGMII link up with an address | 1 | 20_usnea_management R624 MGT_STATUS | reset 0 -/
  netUp : Bool
  /-- network boot waits for a verified image | 1 | 20_usnea_management R616 | reset false -/
  netTrying : Bool
  /-- faults of each component: real-time counter values within 10 minutes | list each | 20_usnea_management R610 | reset none -/
  compFaults : Smap (List Nat)
  /-- NOR directory copy 0 | NorDir | 20_usnea_management R612 | reset kept (DESIGN CHOICE as manufactured, log entry 5) -/
  dir0 : NorDir
  /-- NOR directory copy 1 | NorDir | 20_usnea_management R612 | reset kept (DESIGN CHOICE as manufactured, log entry 5) -/
  dir1 : NorDir
  /-- NOR region FW_A | up to 1 MiB | 20_usnea_management R613 | reset kept (DESIGN CHOICE empty at manufacture, log entry 5) -/
  fwA : List Byte
  /-- NOR region FW_B | up to 1 MiB | 20_usnea_management R613 | reset kept (DESIGN CHOICE empty at manufacture, log entry 5) -/
  fwB : List Byte
  /-- NOR region IMAGE | up to 16 MiB | 20_usnea_management R613 | reset kept (DESIGN CHOICE empty at manufacture, log entry 5) -/
  imageRegion : List Byte
  /-- NOR region MEDIA, by byte offset | 8 each | 20_usnea_management R613 | reset kept (DESIGN CHOICE unwritten bytes read 0xFF, log entry 5) -/
  media : Smap Byte
  /-- NOR region CERTS: the certificate chain | bytes | 16_isolation_security R499 | reset kept (DESIGN CHOICE empty at manufacture, log entry 5) -/
  certs : List Byte
  /-- NOR region LOG | LogRec each, oldest first | 20_usnea_management R621 | reset kept (DESIGN CHOICE empty at manufacture, log entry 5) -/
  log : List LogRec
  /-- LOGSEQ of the next log record | 64 | 20_usnea_management MGT_LOG_NEXT | reset kept -/
  logNext : Nat
  /-- erases of each LOG sector | 24 each | 20_usnea_management R622 | reset kept -/
  erases : Smap Nat
  /-- firmware image in force, as the T3 reserve or the receive area keeps it | up to 1 MiB | 20_usnea_management R617 | reset empty -/
  fwImage : List Byte
  /-- VERSION of the running image | 32 | 20_usnea_management R614 | reset 0 -/
  fwVersion : W32
  /-- SVN of the running image | 32 | 20_usnea_management R614 | reset 0 -/
  fwSvn : W32
  /-- the firmware image has been copied to the T3 reserve | 1 | 20_usnea_management R617 | reset false -/
  fwInT3 : Bool
  /-- the firmware now running was activated on trial, and the other copy is the previous one | 1 | 20_usnea_management R619 | reset false -/
  trialRun : Bool
  /-- use of the receive area | 2 | 20_usnea_management R617 R631 | reset free -/
  recvUse : RecvUse
  /-- bytes of the receive area, by offset | 2 MiB | 20_usnea_management R631 | reset empty -/
  recv : Smap Byte
  /-- sessions by session number | at most 16 | 20_usnea_management R630 | reset none -/
  sessions : Smap Session
  /-- subscriptions | at most 8 | 20_usnea_management R635 | reset none -/
  subs : List Sub
  /-- kept responses, newest first: transport and address of the requester, TAG, status byte and payload | at most 256 of each
      requester | 20_usnea_management R634 | reset none -/
  tags : List (Transport × List Byte × Nat × List Byte)
  /-- MGT_MBX_REQ words | 1024 of 32 + 4 parity | 20_usnea_management MGT_MBX_REQ, 03_register_conventions R80 | reset 0 -/
  mbxReq : Smap RegCopy
  /-- MGT_MBX_RSP words | 1024 of 32 | 20_usnea_management MGT_MBX_RSP | reset 0 -/
  mbxRsp : Smap W32
  /-- MGT_MBX_STATUS.BUSY | 1 | 20_usnea_management R632 | reset 0 -/
  mbxBusy : Bool
  /-- messages sent to I3C, SMBus and UDP, newest first: transport, destination, bytes | list | 20_usnea_management R628 R635 | reset none -/
  sent : List (Transport × List Byte × List Byte)
  /-- commands that ADMIN messages run: command number and request | list | 20_usnea_management R629 | reset none -/
  admins : List (Nat × MgmtReq)
  /-- admin commands that wait for Usnea to come back | command numbers | 19_faults_recovery R606 | reset none -/
  waitCmds : List Nat
  /-- black-box ring records, newest first | at most 8192 of 32 bytes | 20_usnea_management R623 | reset empty -/
  blackbox : List (List Byte)
  /-- write index of the black-box ring | 13 | 20_usnea_management R623 | reset 0 -/
  bbNext : Nat
  /-- BLACKBOX_SAVE: write index, real-time counter, records | 320 KiB | 20_usnea_management R623 | reset kept (DESIGN CHOICE none at manufacture, log entry 5) -/
  bbSaved : Option (Nat × Nat × List (List Byte))
  /-- MGT_S_VALUE of each sensor that has been read | 16 each | 20_usnea_management R620 | reset none -/
  sensors : Smap (BitVec 16)
  /-- MGT_PTM_SEQ | 32 | 20_usnea_management R637 | reset 0 -/
  ptmSeq : W32
  /-- real-time counter of the published pair | 64 | 20_usnea_management R637 | reset 0 -/
  ptmRtc : W64
  /-- host PTM time of the published pair, ns | 64 | 20_usnea_management R637 | reset 0 -/
  ptmNs : W64
  /-- I3C dynamic address, once assigned | 7 | 20_usnea_management R625 | reset none -/
  i3cAddr : Option Nat
  /-- MCTP endpoint ID on I3C and on SMBus | 8 each | 20_usnea_management R625 | reset 0 -/
  eid : Nat × Nat
  /-- MCTP control answers sent, newest first | bytes | 20_usnea_management R625 | reset none -/
  mctpSent : List (List Byte)
  /-- JTAG instruction register | instruction | 20_usnea_management R627 | reset IDCODE (PRESUMED IDCODE, as IEEE 1149.1 resets, log entry 6) -/
  jtag : JtagInstr
  deriving DecidableEq, Repr

/-- The NOR directory of a part as manufactured: the reference layout of R613. -/
def NorDir.reference : NorDir :=
  { dseq := 0, netboot := false, activeB := false, trial := false, smbus := 0, cycles := 100000, udp := 0,
    regions := [(0x01, 0x00020000, 0x00100000), (0x02, 0x00120000, 0x00100000), (0x03, 0x00220000, 0x01000000),
      (0x04, 0x01220000, 0x00010000), (0x05, 0x01230000, 0x00040000), (0x06, 0x01270000, 0x00010000),
      (0x07, 0x01280000, 0x00010000), (0x08, 0x01290000, 0x00010000), (0x09, 0x012A0000, 0x00010000),
      (0x0A, 0x012B0000, 0x00050000), (0x0B, 0x01300000, 0x02D00000)] }

/-- Usnea at reset. -/
def UsneaState.reset : UsneaState :=
  { running := false, restarting := false, haltCause := none, closed := false, restarts := 0, netbooted := false, copyB := false,
    netUp := false, netTrying := false, compFaults := [], dir0 := NorDir.reference, dir1 := NorDir.reference,
    fwA := [], fwB := [], imageRegion := [], media := [], certs := [], log := [], logNext := 0, erases := [],
    fwImage := [], fwVersion := 0, fwSvn := 0, fwInT3 := false, trialRun := false, recvUse := .free, recv := [],
    sessions := [], subs := [], tags := [], mbxReq := [], mbxRsp := [], mbxBusy := false, sent := [], admins := [],
    waitCmds := [], blackbox := [], bbNext := 0, bbSaved := none, sensors := [], ptmSeq := 0, ptmRtc := 0, ptmNs := 0,
    i3cAddr := none, eid := (0, 0), mctpSent := [], jtag := .idcode }

end Sys2Proof.Machine
end

