-- ==== Sys2Proof/Machine/Store/Inputs.lean ====
section
/-! DEFINITION. What the surroundings hand to a command beside plain numbers: which host access failed, what a memory
line or a codeword read gave, which damaged data was met, a management message. -/
namespace Sys2Proof.Machine

/-- A read of BAR0: its address, and whether it is of 8 bytes instead of 4 (R65). -/
structure BarRead where
  addr : Nat
  wide : Bool
  deriving DecidableEq, Repr

/-- Which access to host memory is meant (R346, R512, R535). -/
inductive T4Use where
  | entries (qp : Nat)
  | input (cmd : Nat)
  | result (cmd : Nat)
  | completion (cmd : Nat)
  deriving DecidableEq, Repr

/-- Damaged data that a reader met (R594). -/
inductive DamagedData where
  | slotRecord (part index slot : Nat)
  | attrWord (part index slot : Nat)
  | adjacency (part index slot : Nat)
  | idMapBucket (part index bucket : Nat)
  | norm (part index slot : Nat)
  | hotAdjacency (part index slot : Nat)
  | crcShadow (win rg : Nat)
  | latent (part index slot : Nat)
  | weights (model swatch : Nat)
  | workArea (query : Nat)
  | feltMap
  | descriptor (part index : Nat)
  | ledger (part lseq : Nat)
  deriving DecidableEq, Repr

/-- What a patrol read of a DDR line gave (R359, R360); for a corrected error, its row and whether the device has a spare
row left. -/
inductive LineRead where
  | clean | corrected (row : Nat) (spare : Bool) | uncorrectable
  deriving DecidableEq, Repr

/-- How far a codeword read climbed before it decoded, with the bits corrected (R378). -/
inductive LadderStep where
  | hard (corrected : Nat) | retry (corrected : Nat) | soft (corrected : Nat) | parity | failed
  deriving DecidableEq, Repr

/-- How the start-up stage in progress ended (R656). -/
inductive StageOutcome where
  | done
  | failed (cause : Nat)
  deriving DecidableEq, Repr

/-- A management message as it arrived (R628): transport, address or endpoint of the requester, bytes. -/
structure MgmtMsg where
  via : Transport
  src : List Byte
  bytes : List Byte
  deriving DecidableEq, Repr

end Sys2Proof.Machine
end

