-- ==== Sys2Proof/Syntax.lean ====
section
/-! DEFINITION. The commands of the block: one constructor per row of spec/opcode_table.json. Operands are what the
sender of the command supplies: register values, requester numbers, packets and messages, and what the surroundings
brought about. -/
namespace Sys2Proof
open Sys2Proof.Machine

/-- One command. Constructors stand in the order of the table; each names its row's rule. -/
inductive Instr where
  /-- SQ_DOORBELL (R522): A submission doorbell write sets a new tail for a queue pair; an invalid value makes the queue pair FAILED. -/
  | sqDoorbell (fn q : Nat) (v : W32) (host : HostWrites)
  /-- CQ_DOORBELL (R523): A completion doorbell write releases completion slots up to the new head; an invalid value makes the queue pair FAILED. -/
  | cqDoorbell (fn q : Nat) (v : W32)
  /-- ENTRY_FETCH (R525): The Octeo reads exposed submission entries from host memory, up to 4 entries ahead. -/
  | entryFetch (qp : Nat)
  /-- ADMISSION_SLOT (R527): Each 1 GHz scheduler cycle is the admission slot of one partition and admits at most one of its commands. -/
  | admissionSlot
  /-- CREDIT_TICK (R529): Every µs each queue pair with a waiting entry gains rate credit up to CAP. -/
  | creditTick
  /-- COMPLETION_WRITE (R518): When a command ends, its result data and then its 32-byte completion entry with phase bit are written to the ring. -/
  | completionWrite (cmd : Nat)
  /-- AGG_TIME_EXPIRY (R531): The oldest pending completion reaching AGG_TIME µs signals the queue's vector. -/
  | aggTimeExpiry (qp : Nat)
  /-- EVENT_GAP_EXPIRY (R533): At the end of the 10 µs event signalling gap, an event that fell inside it is signalled. -/
  | eventGapExpiry (fn : Nat)
  /-- QP_ENABLE (R508): Writing HQ_QP_CTRL.ENABLE as 1 makes a DISABLED queue pair ACTIVE or FAILED, or sets REENABLE_PENDING while STOPPING. -/
  | qpEnable (req fn q : Nat)
  /-- QP_DISABLE (R508): Writing HQ_QP_CTRL.ENABLE as 0 moves an ACTIVE or FAILED queue pair to STOPPING. -/
  | qpDisable (req fn q : Nat)
  /-- QP_DRAIN_END (R508): A STOPPING queue pair whose fetched entries and admitted completions are all done becomes DISABLED, or ACTIVE again if re-enable is pending. -/
  | qpDrainEnd (qp : Nat)
  /-- TELEMETRY_SAMPLE (R530): Every 10 µs all queue pairs are sampled for waiting entries, outstanding commands and delay. -/
  | telemetrySample
  /-- FUNCTION_LEVEL_RESET (R534): A function-level reset stops the function's queue pairs, discards unadmitted entries and sends later completions to the ledger. -/
  | functionLevelReset (fn : Nat)
  /-- D3HOT_ENTRY (R534): Entry to D3hot acts on a function as a function-level reset does. -/
  | d3hotEntry (fn : Nat)
  /-- HOST_PORT_RESET (R534): A hot reset or link-down of the host port acts as a function-level reset of every function. -/
  | hostPortReset
  /-- VF_DISABLE (R61): Disabling a virtual function keeps its partition ACTIVE and sends its in-flight completions to the fault ledger. -/
  | vfDisable (vf : Nat)
  /-- T4_READ_TIMEOUT (R535): A host memory read without completion for 10 ms is treated as a failed T4 access. -/
  | t4ReadTimeout (use : T4Use)
  /-- T4_ACCESS_ERROR (R346): A host access ending in unsupported request, completer abort or poison is counted and ends the command's use of that buffer. -/
  | t4AccessError (use : T4Use)
  /-- LINK_CHANGE (R501): The PCIe link trains or retrains at some rate, width and mode, and EV_LINK is set. -/
  | linkChange (rate width : Nat) (flit cxl : Bool)
  /-- PERST_N_DEASSERT (R657): Deassertion of PERST_N after MAIN_PWROK starts host link training. -/
  | perstNDeassert
  /-- CXL_MEM_REQUEST (R349): A CXL.mem request reaches the CXL.mem window under partition 0's T3 regulator and key. -/
  | cxlMemRequest (hpa : W64) (data : Option (List Byte))
  /-- BAR4_ACCESS (R505): A BAR4 access reaches the CXL.mem window, or reads zero beyond it. -/
  | bar4Access (off len : Nat) (data : Option (List Byte))
  /-- HDM_DECODER_COMMIT (R506): The host commits the HDM decoder and MEM_CXL.DECODED reads 1. -/
  | hdmDecoderCommit (base : W64)
  /-- SEARCH (R544): A SEARCH is checked, planned, walked or swept, rescored and merged into a top-k result. -/
  | search (cmd : Nat)
  /-- SWEEP (R545): A SWEEP runs the sweep path without the planner and then rescores as a SEARCH does. -/
  | sweep (cmd : Nat)
  /-- INSERT (R553): An INSERT batch places each entry's journal record, reserving a slot and ring sequence number. -/
  | insert (cmd : Nat)
  /-- UPSERT (R267): An UPSERT batch inserts each item in a new slot and marks the ID's old slot deleted. -/
  | upsert (cmd : Nat)
  /-- DELETE (R267): A DELETE batch journals each deletion and removes the ID map entry at placement. -/
  | delete (cmd : Nat)
  /-- ATTR_SET (R552): An ATTR_SET batch journals masked attribute changes, written as attribute versions at acceptance. -/
  | attrSet (cmd : Nat)
  /-- EMBED (R558): EMBED runs the named encoder over documents and returns pooled fp32 vectors. -/
  | embed (cmd : Nat)
  /-- EMBED_INSERT (R557): EMBED_INSERT embeds each document and inserts the result as an update batch. -/
  | embedInsert (cmd : Nat)
  /-- RERANK (R696): RERANK scores candidates with the reranker against their stored latents. -/
  | rerank (cmd : Nat)
  /-- EPOCH_FENCE (R263): EPOCH_FENCE completes when every earlier accepted update of its queue pair is visible, and linked if LINKED is set. -/
  | epochFence (cmd : Nat)
  /-- EPOCH_PIN (R251): EPOCH_PIN adds a reference to a retained epoch. -/
  | epochPin (cmd : Nat)
  /-- EPOCH_UNPIN (R251): EPOCH_UNPIN removes a reference from a pinned epoch. -/
  | epochUnpin (cmd : Nat)
  /-- INDEX_CREATE (R564): INDEX_CREATE checks the numeric record and parameters and creates a BUILDING shard. -/
  | indexCreate (cmd : Nat)
  /-- INDEX_DESCRIBE (R565): INDEX_DESCRIBE writes the shard descriptor, or zeros when no shard exists. -/
  | indexDescribe (cmd : Nat)
  /-- INDEX_RETIRE (R566): INDEX_RETIRE moves a shard to RETIRING and frees it once no command reads it. -/
  | indexRetire (cmd : Nat)
  /-- INDEX_RELOCATE (R567): INDEX_RELOCATE copies one window of a shard to another and switches at a boundary. -/
  | indexRelocate (cmd : Nat)
  /-- BULK_LOAD (R568): BULK_LOAD atomically loads items into consecutive slots of a BUILDING shard. -/
  | bulkLoad (cmd : Nat)
  /-- SEAL (R569): SEAL links the loaded items, fixes the entry list and makes the shard SERVING at a boundary. -/
  | seal (cmd : Nat)
  /-- HIST_LOAD (R570): HIST_LOAD supplies a host histogram for a future epoch. -/
  | histLoad (cmd : Nat)
  /-- LINK_SUPPLY (R571): LINK_SUPPLY carries LINK, REPLACE and RELEASE entries in host-assisted linking mode. -/
  | linkSupply (cmd : Nat)
  /-- ZONE_OPEN (R392): ZONE OPEN opens an EMPTY zone for a VECTOR or CHECKPOINT role. -/
  | zoneOpen (cmd : Nat)
  /-- ZONE_APPEND (R393): ZONE APPEND copies named slots' vectors or checkpoint codewords into an OPEN zone. -/
  | zoneAppend (cmd : Nat)
  /-- ZONE_FINISH (R392): ZONE FINISH makes a zone FULL. -/
  | zoneFinish (cmd : Nat)
  /-- ZONE_RESET (R395): ZONE RESET erases a zone with no mapped codewords. -/
  | zoneReset (cmd : Nat)
  /-- ZONE_REPORT (R572): ZONE REPORT writes zone state records. -/
  | zoneReport (cmd : Nat)
  /-- ZONE_RESET_ERASE (R395): A deferred zone reset erases once the outstanding read completes, and the command completes. -/
  | zoneResetErase (part zone : Nat)
  /-- MODEL_STORE (R306): MODEL_STORE verifies a model image and writes it into the model store. -/
  | modelStore (cmd : Nat)
  /-- MODEL_REMOVE (R573): MODEL_STORE with ARG0[0] set removes a stored model image not named by a binding in force. -/
  | modelRemove (cmd : Nat)
  /-- MODEL_GROUP (R325): MODEL_GROUP forms a split-model group that comes into force at a target boundary. -/
  | modelGroup (cmd : Nat)
  /-- KEY_PROVISION (R484): KEY_PROVISION verifies a signed message and stores a slot's key-encryption key sealed in the SPI NOR. -/
  | keyProvision (cmd : Nat)
  /-- FUSE_PROVISION (R496): SECURITY_FUSE PROVISION fuses a new operator key slot digest. -/
  | fuseProvision (cmd : Nat)
  /-- FUSE_REVOKE (R496): SECURITY_FUSE REVOKE revokes an operator key slot. -/
  | fuseRevoke (cmd : Nat)
  /-- FUSE_RAISE_SVN (R496): SECURITY_FUSE RAISE_SVN raises a fused minimum security version. -/
  | fuseRaiseSvn (cmd : Nat)
  /-- ATTEST (R576): ATTEST writes a signed attestation report for the device or the requester's partition. -/
  | attest (cmd : Nat)
  /-- CERTIFICATE (R576): CERTIFICATE writes the attestation certificate chain. -/
  | certificate (cmd : Nat)
  /-- HEALTH_LOG (R577): HEALTH_LOG writes the device and die health records. -/
  | healthLog (cmd : Nat)
  /-- LEDGER_READ (R578): LEDGER_READ returns a partition's fault ledger records from a given LSEQ. -/
  | ledgerRead (cmd : Nat)
  /-- WALK_START (R162): A waiting walk obtains a walker context and walk area and begins. -/
  | walkStart (query tile : Nat)
  /-- WALK_ROUND_RETURN (R168): When every fetch and score of a round has returned, the walk classifies new slots, trims the queue and expands the next beam. -/
  | walkRoundReturn (query : Nat)
  /-- SWEEP_BATCH_START (R173): A sweep batch starts when 32 queries wait or its oldest has waited SWEEP_GATHER µs. -/
  | sweepBatchStart (part index : Nat) (fresh : Bool)
  /-- SWEEP_RESULT_RECORD (R174): A walker takes a sweep result record and applies visibility and the full filter. -/
  | sweepResultRecord (bank : Nat)
  /-- LIST_ENTRY_ARRIVE (R231): A candidate arrives at a Muslin list and is stored or dropped against the bound. -/
  | listEntryArrive (query : Nat)
  /-- RESCORE_READ_DONE (R186): An exact vector read completes and the walker computes the exact key and disagreement check. -/
  | rescoreReadDone (query : Nat)
  /-- DISAGREE_CRC_CHECK (R223): Within 100 µs of a disagreement report, the row group's CRC is checked and the code recomputed. -/
  | disagreeCrcCheck (win rg : Nat)
  /-- DEADLINE_EXPIRY (R189): At the deadline a query stops new rounds, steps and reads and rescores what it holds. -/
  | deadlineExpiry (query : Nat)
  /-- DEADLINE_GRACE_EXPIRY (R189): 150 µs after the deadline uncomputed entries are left out, and the query completes DEADLINE_TRUNCATED. -/
  | deadlineGraceExpiry (query : Nat)
  /-- GATHER (R203): A bank command scoring up to eight codes of one bank against one query. -/
  | gather (stack : Nat) (hdr : W64) (payload : List Byte) (tag : Nat)
  /-- SLOT_LOAD (R198): A broadcast bank command loading a query slot record. -/
  | slotLoad (stack : Nat) (hdr : W64) (payload : List Byte)
  /-- SLOT_THRESH (R209): A broadcast bank command setting a slot's threshold at the next step boundary. -/
  | slotThresh (stack : Nat) (hdr : W64) (payload : List Byte)
  /-- SLOT_FREE (R198): A broadcast bank command clearing a query slot's VALID flag. -/
  | slotFree (stack : Nat) (hdr : W64) (payload : List Byte)
  /-- SWEEP_STEP (R207): A broadcast bank command streaming a tag row group or code row groups and scoring them for the named slots. -/
  | sweepStep (stack : Nat) (hdr : W64) (payload : List Byte) (flips : List (Nat × Nat))
  /-- FILL (R214): A bank command writing a pattern over rows in whole 32-byte segments. -/
  | fill (stack : Nat) (hdr : W64) (payload : List Byte)
  /-- SCRUB (R221): A broadcast bank command checking a row group's CRC, with optional write-back. -/
  | scrub (stack : Nat) (hdr : W64) (payload : List Byte) (flips : List (Nat × Nat))
  /-- REPAIR (R225): A bank command writing a rebuilt row group, with its CRC update in the same gap. -/
  | repair (stack : Nat) (hdr : W64) (payload : List Byte)
  /-- SWEEP_STEP_END (R210): When a step has ended in every bank, banks open gaps and the sequencer issues the next step. -/
  | sweepStepEnd (stack : Nat)
  /-- GAP_MAX_EXPIRY (R211): GAP_MAX ns after a gap opens, requests that arrived during it wait for the next gap. -/
  | gapMaxExpiry (stack bank : Nat)
  /-- BANK_REQUEST (R211): An ordinary read or write reaches a bank and is served or queued behind a step. -/
  | bankRequest (bank tag addr len : Nat) (data : List Byte)
  /-- SCRUB_TICK (R221): The scrubber schedules checks so each bare row group is checked within PERIOD. -/
  | scrubTick (stack : Nat) (late : Bool)
  /-- ROW_GROUP_REBUILD (R225): A damaged row group is rebuilt from T5 and slot records, then returns CLEAN or enters FAILED. -/
  | rowGroupRebuild (stack win rg : Nat) (ok : Bool)
  /-- PREPARE (R255): PREP_LEAD µs before a boundary the sequencer sends PREPARE and stops acceptance and link recording. -/
  | prepare
  /-- DOMAIN_READY (R255): A domain that has staged its configuration and finished its epoch writes replies READY. -/
  | domainReady (domain : Nat)
  /-- EPOCH_STROBE (R254): At the boundary the counter advances and visibility, versions, histograms, configuration and images take effect. -/
  | epochStrobe
  /-- STROBE_ACK (R257): A domain acknowledges the strobe with the epoch bits it took. -/
  | strobeAck (domain : Nat) (epochBits : Nat)
  /-- ACK_TIMEOUT (R258): At B + 1 µs domains without valid acknowledgement are recorded as having missed the boundary. -/
  | ackTimeout
  /-- PARTITION_SCRUB_STEP (R367): A released partition's keys, Sheet units, T2 windows and T3 allotment are zeroed in order. -/
  | partitionScrubStep (part : Nat)
  /-- PIN_EXPIRY (R252): PIN_MAX seconds after an epoch's first reference its references are dropped. -/
  | pinExpiry (part epoch : Nat)
  /-- FULL_WAIT_EXPIRY (R268): An entry still blocked by a full ring, slot, map, overlay or journal after FULL_WAIT completes QUOTA_EXCEEDED with later entries skipped. -/
  | fullWaitExpiry (cmd : Nat)
  /-- JOURNAL_PAGE_CLOSE (R384): A journal page closes when full or JCOALESCE µs after its first record, and is programmed twice. -/
  | journalPageClose (part : Nat)
  /-- JOURNAL_PROGRAM_DONE (R384): A journal page copy programs; records become durable once both copies of it and earlier pages have programmed. -/
  | journalProgramDone (part jseq copy : Nat)
  /-- INSERT_WALK_START (R270): In hardware linking mode an insert walk starts for the next FRESH item in ring order. -/
  | insertWalkStart (part index tile : Nat)
  /-- BACK_LINK (R271): A back-link version is computed for a neighbour once its exact vectors are read. -/
  | backLink (part index slot : Nat)
  /-- VECTOR_STORE_WRITE_DONE (R269): Felt reports an item's exact vector durable in the vector store. -/
  | vectorStoreWriteDone (part index slot : Nat)
  /-- SETTLER_SETTLE (R137): The settler sets LINK_SETTLED or DEL_SETTLED once the oldest epoch in use allows. -/
  | settlerSettle (part index : Nat)
  /-- SETTLER_FOLD (R151): The settler folds a version into the primary copy and unlinks it. -/
  | settlerFold (part index : Nat)
  /-- REPAIR_WALK (R273): Repair walks read adjacency records in slot order and replace records that name ghosts. -/
  | repairWalk (part index : Nat)
  /-- CHECKPOINT_START (R277): Within CKPT_MIN minutes a checkpoint of a SERVING shard begins. -/
  | checkpointStart (part index : Nat)
  /-- CHECKPOINT_DONE (R277): A checkpoint completes, EV_CKPT_DONE is set and journal pages before the replay point are released. -/
  | checkpointDone (part index : Nat)
  /-- SHARD_REBUILD (R278): After a reset losing T2 or T3 a shard is rebuilt from its checkpoint and replayed journal. -/
  | shardRebuild (part index : Nat)
  /-- IMG_STAGE (R50): IMG_CTRL.STAGE copies an image into a staging slot and verification begins. -/
  | imgStage (req : Nat) (v : W32) (host : HostWrites)
  /-- IMG_ABORT (R51): IMG_CTRL.ABORT discards the latest pending image. -/
  | imgAbort (req : Nat) (v : W32)
  /-- IMAGE_VERIFY_DONE (R48): Verification of a staged image ends with the image pending or rejected with a reason. -/
  | imageVerifyDone (slot : Nat)
  /-- REGISTER_WRITE (R91): A BAR0 write to a register without its own row takes effect, is held, or sets a write-error event. -/
  | registerWrite (req addr : Nat) (wide : Bool) (be : BitVec 8) (data : W64)
  /-- SQC_WRITE (R85): A write to a sequence-clear register clears the masked events stamped at or before its SEQ. -/
  | sqcWrite (req addr : Nat) (v : W32)
  /-- IND_DATA_ACCESS (R88): An access to an indirect data register acts on the addressed unit register and advances the address. -/
  | indDataAccess (req addr : Nat) (v : Option W32)
  /-- LO_REGISTER_READ (R66): A read of an xxx_LO register latches xxx_HI for the requester. -/
  | loRegisterRead (req : Nat) (addr : BarRead)
  /-- UPD_STROBE (R75): A GLB_UPD_STROBE write issues an update strobe of the named tuning-class groups. -/
  | updStrobe (req : Nat) (v : W32)
  /-- UPDATE_STROBE_DONE (R76): An update strobe has reached every named domain and EV_DONE is set; a merged next strobe may issue. -/
  | updateStrobeDone (missed : List Nat)
  /-- PARITY_SCAN (R81): Each block's scanner checks parity of every RW and SH register copy at least every 100 µs. -/
  | parityScan (block : Nat) (upsets : List (Nat × Nat))
  /-- TRAINING_STATE_TIMEOUT (R407): A Twill training state that exceeds its bound returns the port to DETECT, or DOWN after three failures. -/
  | trainingStateTimeout (port : Nat)
  /-- DOWN_RETRY (R407): A DOWN port starts again from DETECT every 1 s. -/
  | downRetry (port : Nat)
  /-- TRAINING_FRAME (R408): A training frame is received and drives equalization, alignment and parameter exchange. -/
  | trainingFrame (port lane : Nat) (bytes : List Byte)
  /-- FLIT_RECEIVE (R414): A flit is accepted in order or discarded with a NAK; acknowledgements and credits are taken. -/
  | flitReceive (port : Nat) (bytes : List Byte)
  /-- NAK_HOLD_EXPIRY (R414): 2 µs after a NAK without the expected flit, a further NAK may be sent. -/
  | nakHoldExpiry (port : Nat)
  /-- LANE_FAILING (R417): A receiver declares a lane failing on lock loss, group loss or symbol error rate. -/
  | laneFailing (port lane : Nat)
  /-- SWAP_REQ (R418): An LCTRL SWAP_REQ makes the peer mirror the named logical lane onto the spare. -/
  | swapReq (port lane : Nat)
  /-- MIRRORED_GROUPS_DECODED (R418): After four mirrored groups decode, the receiver moves the lane to the spare and sends NAK and SWAP_DONE. -/
  | mirroredGroupsDecoded (port : Nat)
  /-- SWAP_DONE (R418): An LCTRL SWAP_DONE makes the transmitter adopt the new lane map and resend. -/
  | swapDone (port : Nat)
  /-- RETRAIN_REQ (R410): An LCTRL RETRAIN_REQ from the peer makes an ACTIVE port retrain from CAL. -/
  | retrainReq (port : Nat)
  /-- PORT_RETRAIN (R410): TWL_P_CMD RETRAIN retrains an ACTIVE port from CAL. -/
  | portRetrain (req port : Nat)
  /-- PORT_RETARGET (R431): TWL_P_CMD RETARGET moves a port to DRAINING. -/
  | portRetarget (req port : Nat)
  /-- PORT_DISABLE (R407): TWL_P_CMD DISABLE disables a port until ENABLE is next written as 1. -/
  | portDisable (req port : Nat)
  /-- PORT_SWAP (R417): TWL_P_CMD SWAP declares the named lane failing at once. -/
  | portSwap (req port lane : Nat)
  /-- RETARGET_DRAIN_END (R431): A DRAINING port whose queue is empty or after 100 µs reroutes leftovers and enters DETECT. -/
  | retargetDrainEnd (port : Nat)
  /-- PORT_DOWN (R430): A port without a correct flit for 20 µs enters DOWN and traffic is rerouted. -/
  | portDown (port : Nat)
  /-- PACKET_FORWARD (R426): A packet for another node is routed by hash over the entry's active ports, or dropped with UNDELIVERED. -/
  | packetForward (pkt : Packet)
  /-- READ_REQUEST (R433): A Twill READ is served at the destination after its fences and answered by READ_RSP. -/
  | readRequest (pkt : Packet)
  /-- READ_RSP (R437): A READ response is matched by REQ_ID and its packets placed by SEQ. -/
  | readRsp (pkt : Packet)
  /-- WRITE_REQUEST (R439): A Twill WRITE is applied once per requester and REQ_ID and acknowledged. -/
  | writeRequest (pkt : Packet)
  /-- WRITE_ACK (R437): A WRITE_ACK completes the matching outstanding write. -/
  | writeAck (pkt : Packet)
  /-- SCORE_REQUEST (R456): A SCORE is served, held, forwarded or refused according to its map generation and token state. -/
  | scoreRequest (pkt : Packet)
  /-- SCORE_RSP (R433): A SCORE response returns outcomes and keys, a status, or a held marker. -/
  | scoreRsp (pkt : Packet)
  /-- EXPAND_REQUEST (R456): An EXPAND is served under the same ownership rules as SCORE. -/
  | expandRequest (pkt : Packet)
  /-- EXPAND_RSP (R433): An EXPAND response returns the adjacency records as the epoch reads them. -/
  | expandRsp (pkt : Packet)
  /-- QUERY_MESSAGE (R441): A holder receives a QUERY, checks the record CRC and runs its part of the search. -/
  | queryMessage (pkt : Packet)
  /-- LIST_MESSAGE (R442): A node list or progress LIST packet arrives at the admitting node's merge unit. -/
  | listMessage (pkt : Packet)
  /-- COLLECTIVE (R327): A COLLECTIVE packet delivers a split model's partial sums. -/
  | collective (pkt : Packet)
  /-- UNDELIVERED (R438): An UNDELIVERED packet causes a resend of the first sending or NODE_UNREACHABLE. -/
  | undelivered (pkt : Packet)
  /-- REQUEST_RESEND_TIMER (R438): A request unanswered for LINK_TIMEOUT ÷ 2 µs is sent once more with RETRY. -/
  | requestResendTimer (reqId : Nat)
  /-- REQUEST_TIMEOUT (R438): A request unanswered for LINK_TIMEOUT µs ends in NODE_UNREACHABLE. -/
  | requestTimeout (reqId : Nat)
  /-- LIST_PROGRESS_TIMER (R442): Every LINK_TIMEOUT ÷ 4 µs a node serving a QUERY sends a progress LIST packet. -/
  | listProgressTimer (node reqId : Nat)
  /-- MAP_APPLY (R447): OWN_CMD MAP_APPLY checks and puts a staged composition map generation in force. -/
  | mapApply (req : Nat) (v : W32)
  /-- CLAIM (R468): OWN_CMD CLAIM forces a token claim at a higher generation by REVOKE to peers. -/
  | claim (req : Nat) (v : W32)
  /-- TSET (R470): OWN_CMD TSET sets a ledger state in host-assisted composition agent mode. -/
  | tset (req : Nat) (v : W32)
  /-- OWN_ABORT (R468): OWN_CMD ABORT returns a CLAIMING node to its previous state. -/
  | ownAbort (req : Nat) (v : W32)
  /-- OFFER (R463): A token OFFER makes the receiver ACCEPTED and reply ACCEPT. -/
  | offer (pkt : Packet)
  /-- ACCEPT (R463): A token ACCEPT makes an OFFERED giver finish its requests and send CONFIRM. -/
  | accept (pkt : Packet)
  /-- CONFIRM (R463): A token CONFIRM makes the receiver HELD and reply TAKEN. -/
  | confirm (pkt : Packet)
  /-- TAKEN (R463): A token TAKEN moves the giver to NONE and sets EV_HANDOVER_DONE. -/
  | taken (pkt : Packet)
  /-- WITHDRAW (R465): A token WITHDRAW moves an ACCEPTED node to NONE. -/
  | withdraw (pkt : Packet)
  /-- REVOKE (R468): A REVOKE moves a peer with a lower token generation to NONE, or is refused. -/
  | revoke (pkt : Packet)
  /-- REVOKE_ACK (R468): A REVOKE_ACK lets a CLAIMING node reach HELD or fail the claim. -/
  | revokeAck (pkt : Packet)
  /-- ANNOUNCE (R450): An ANNOUNCE binds composition epochs up to its value to the member's current epoch. -/
  | announce (pkt : Packet)
  /-- DRAIN_TIMER_EXPIRY (R458): A generation's drain timer ends; old-generation requests now meet STALE_MAP and offers start. -/
  | drainTimerExpiry (comp : Nat)
  /-- TOKEN_RESEND (R464): Every HTIMEOUT ÷ 4 a node in a transient token state resends its message. -/
  | tokenResend (seg : Nat)
  /-- HANDOVER_TIMEOUT (R464): HTIMEOUT after entering a transient token state the state times out as the table gives. -/
  | handoverTimeout (seg : Nat)
  /-- ANCHOR_SILENT (R450): Without ANNOUNCE for EPOCH_LEN + LINK_TIMEOUT µs a member binds the next composition epoch itself. -/
  | anchorSilent (comp : Nat)
  /-- HELD_RESPONSE_TIMER (R457): Every LINK_TIMEOUT ÷ 4 µs a node holding a request sends a held response. -/
  | heldResponseTimer (node reqId : Nat)
  /-- HOLD_DRAIN_EXPIRY (R456): A request held for a newer generation is answered STALE_MAP after DRAIN µs. -/
  | holdDrainExpiry (node reqId : Nat)
  /-- UNREACHABLE_EXPIRY (R471): 8 × LINK_TIMEOUT µs after a node is marked unreachable, requests to it are sent again. -/
  | unreachableExpiry (node : Nat)
  /-- REKEY_SWATCH (R487): The re-encryption sweep rewrites one T3 swatch under the new key and advances the watermark. -/
  | rekeySwatch (part : Nat)
  /-- RAS_DRAIN (R582): RAS_CMD DRAIN stops new work to a unit and lets it finish held work. -/
  | rasDrain (req : Nat) (v : W32)
  /-- RAS_FENCE (R582): RAS_CMD FENCE takes a unit OUT as a fault would. -/
  | rasFence (req : Nat) (v : W32)
  /-- RAS_RESTORE (R582): RAS_CMD RESTORE starts a unit's return, or sets REENABLE_PENDING while draining. -/
  | rasRestore (req : Nat) (v : W32)
  /-- RAS_RETIRE (R582): RAS_CMD RETIRE takes a unit OUT and RETIRED. -/
  | rasRetire (req : Nat) (v : W32)
  /-- UNIT_FAULT (R580): A detected fault fences its unit within 1 µs and its work is restarted, rerouted or ended. -/
  | unitFault (kind unit cls : Nat) (addr : Nat)
  /-- DRAIN_COMPLETE (R582): A DRAINING unit's last held work ends and it becomes OUT, or RETURNING if re-enable is pending. -/
  | drainComplete (kind unit : Nat)
  /-- RETURN_WORK_DONE (R584): A unit's return work passes and it waits for readmission, or fails and it goes OUT or RETIRED. -/
  | returnWorkDone (kind unit : Nat) (ok : Bool)
  /-- POISONED_DATA_READ (R594): A reader meets poisoned or uncorrectable data and acts and restores as the table gives. -/
  | poisonedDataRead (reader : Nat) (data : DamagedData)
  /-- MODEL_REFETCH_DONE (R595): Poisoned weight swatches are refetched from the golden copy and the batch runs once more. -/
  | modelRefetchDone (model : Nat) (ok again : Bool)
  /-- PERSISTENT_LOG_COPY (R604): Usnea firmware copies FAULT and COMPLETION records to the SPI NOR log at up to LOG_RATE. -/
  | persistentLogCopy
  /-- USNEA_RESTART (R606): Usnea restarts from its verified runtime image while the data path continues. -/
  | usneaRestart
  /-- ADMIN_WAIT_TIMEOUT (R606): A Usnea-served admin command still waiting after 2 s completes FAULTED_NONE. -/
  | adminWaitTimeout (cmd : Nat)
  /-- SWATCH_MOVE (R341): A DMA engine moves a 4 KiB swatch and the destination checks its CRC, retrying once. -/
  | swatchMove (src dst cmd : Nat) (crcOk : Bool)
  /-- REGULATOR_REFILL (R364): Every µs each partition's bucket on each tier gains E units up to its depth. -/
  | regulatorRefill
  /-- DDR_TRAINING (R355): DDR channels are trained, retried up to three times, or start-up halts. -/
  | ddrTraining (ch : Nat) (ok : Bool) (org : Nat)
  /-- DQS_OSC_TICK (R357): Every 100 ms each channel measures its DQS oscillators and adjusts timing. -/
  | dqsOscTick (temps : List Nat)
  /-- DDR_PATROL_READ (R361): The patrol scrubber reads lines and corrects or poisons what it finds. -/
  | ddrPatrolRead (ch line : Nat) (result : LineRead)
  /-- NAND_TRAINING (R371): NAND dies are identified and channels trained, retrying at lower rates or fencing. -/
  | nandTraining (ch : Nat) (ok : Bool) (ids : List (Nat × Nat × List Nat))
  /-- CODEWORD_READ (R378): A codeword read climbs the retry, soft-decode and parity ladder until it decodes or fails. -/
  | codewordRead (laddr : Nat) (step : LadderStep)
  /-- NAND_PROGRAM_FAIL (R399): A failed program is rewritten elsewhere and the block's data moved and the block retired. -/
  | nandProgramFail (block : Nat)
  /-- NAND_ERASE_FAIL (R398): A block whose erase fails is retired and replaced by a spare. -/
  | nandEraseFail (block : Nat)
  /-- DIE_FENCE (R400): A die failing polls or reads for 10 ms is fenced and its data rebuilt elsewhere. -/
  | dieFence (die : Nat)
  /-- GARBAGE_COLLECTION (R389): Felt copies a block's mapped codewords to new stripes and erases it. -/
  | garbageCollection (block dest : Nat)
  /-- WEAR_LEVEL_MOVE (R389): Felt moves the data of a block worn far below the mean. -/
  | wearLevelMove (block dest : Nat)
  /-- BLOCK_REFRESH (R389): Felt moves a block's data after heavy correction, read limit or patrol finding. -/
  | blockRefresh (block dest : Nat)
  /-- FAST_CELL_FOLD (R381): Data in the fast-cell buffer is folded into dense blocks. -/
  | fastCellFold (block dest : Nat)
  /-- FLASH_PATROL (R397): Felt reads every programmed page within PATROL_DAYS days. -/
  | flashPatrol (block corrected : Nat)
  /-- MAP_CHECKPOINT (R390): Felt writes a map checkpoint at least every 60 s. -/
  | mapCheckpoint
  /-- MAP_REBUILD (R390): After a reset Felt rebuilds its map from the latest map checkpoint and codeword metadata. -/
  | mapRebuild
  /-- DIE_TEMP_READ (R403): Once a second each die's temperature is read and programs held above TEMP_MAX. -/
  | dieTempRead (temps : List (Nat × Int))
  /-- HEALTH_RECORD_WRITE (R402): Felt writes its health record to device space at least every 10 minutes. -/
  | healthRecordWrite
  /-- MODEL_COPY_DONE (R307): A bound model's weights finish copying from flash into USE 0x5 windows. -/
  | modelCopyDone (model : Nat) (ok : Bool)
  /-- BATCH_CLOSE (R313): A batch closes when full or when its oldest sequence has waited 20 µs or 200 µs. -/
  | batchClose (batch : Nat)
  /-- STREAM_ROUND_START (R311): A free lane starts a stream round and free clusters each take a waiting batch. -/
  | streamRoundStart (lane : Nat)
  /-- LANE_HALF_REFILL (R310): A lane half released by every cluster is refilled with the next weight swatches. -/
  | laneHalfRefill (lane half : Nat)
  /-- COLLECTIVE_TIMEOUT (R328): A group member whose partial is late ends the batch with MODEL_UNAVAILABLE. -/
  | collectiveTimeout (batch : Nat)
  /-- DOMAIN_IDLE_GATE (R641): A domain idle for PWR_D_IDLE µs gates its clock. -/
  | domainIdleGate (domain : Nat)
  /-- DOMAIN_WAKE (R642): A request to a gated domain wakes it within 2 µs. -/
  | domainWake (domain : Nat)
  /-- POWER_ESTIMATE (R645): Every 10 µs package power is estimated and clocks lowered to hold the limit. -/
  | powerEstimate (watts : List (Nat × Nat))
  /-- POWER_CALIBRATE (R645): Every 1 ms the estimate is calibrated, the Adedan row chosen, and clocks raised or lowered. -/
  | powerCalibrate (meanW inputW : Nat)
  /-- TEMP_SAMPLE (R650): Every 10 µs temperature comparators are sampled and clocks throttled at 105 °C. -/
  | tempSample (temps : List Int)
  /-- OVERVOLTAGE (R649): A rail above its fused threshold for 10 µs drops its clocks to 100 MHz. -/
  | overvoltage (monitor : Nat) (above : Bool)
  /-- VOLTAGE_DROOP (R648): A droop below the required voltage stretches and lowers the clock. -/
  | voltageDroop (domain mhz : Nat)
  /-- REGULATOR_POLL (R653): Every 1 ms Usnea reads each regulator's telemetry and status. -/
  | regulatorPoll (replies : List (Option (List Nat)))
  /-- WARM_RESET (R655): A warm reset restarts the boot ROM and loses T0 to T3 while keeping the always-on domain. -/
  | warmReset (req : Nat) (pin : Bool)
  /-- COLD_RESET (R654): AON_PWROK low or RESET_N held 100 ms resets the whole device. -/
  | coldReset (aonLow : Bool)
  /-- AON_PWROK_RISE (R663): AON_PWROK rising starts the always-on domain and start-up. -/
  | aonPwrokRise
  /-- MAIN_PWROK_RISE (R663): MAIN_PWROK rising lets PLLs lock and the data path be released. -/
  | mainPwrokRise
  /-- MAIN_PWROK_FALL (R666): MAIN_PWROK falling with MAIN_EN asserted drops MAIN_EN and stops start-up. -/
  | mainPwrokFall (aonToo : Bool)
  /-- CLOCK_LOSS (R670): No 50 MHz edge for 10 µs holds the Octeo in cold reset. -/
  | clockLoss
  /-- RTC_OSC_STOP (R640): The 32.768 kHz oscillator stops and the counter runs on the 50 MHz clock. -/
  | rtcOscStop
  /-- STARTUP_STAGE (R656): A start-up stage completes and the next begins, or start-up halts with a cause. -/
  | startupStage (outcome : StageOutcome)
  /-- FIRST_STROBE (R659): Once shards are rebuilt the first strobe applies the start-up image and begins epoch E0. -/
  | firstStrobe
  /-- LOCKSTEP_MISMATCH (R608): A Usnea core disagreement closes the firewall and restarts Usnea. -/
  | lockstepMismatch
  /-- USNEA_WATCHDOG (R608): Expiry of the Usnea watchdog closes the firewall and restarts Usnea. -/
  | usneaWatchdog
  /-- COMPONENT_FAULT (R610): A runtime component that breaks protection or misses its 100 ms watchdog is reloaded alone. -/
  | componentFault (comp : Nat)
  /-- NETBOOT_RETRY (R616): Network boot retries every 4 s until a verified image arrives. -/
  | netbootRetry (image : Option (List Byte))
  /-- FW_TRIAL_CONFIRM (R619): New firmware running 60 s without restart clears TRIAL. -/
  | fwTrialConfirm
  /-- SENSOR_READ (R620): Usnea reads temperature and voltage sensors and raises alarms. -/
  | sensorRead (values : List (Nat × BitVec 16))
  /-- MBX_DOORBELL (R632): MGT_MBX_DOORBELL sends the mailbox request to Usnea. -/
  | mbxDoorbell (req : Nat) (v : W32)
  /-- IDENTIFY (R629): IDENTIFY returns device identity and firmware state. -/
  | identify (msg : MgmtMsg)
  /-- SENSORS (R629): SENSORS returns sensor values. -/
  | sensors (msg : MgmtMsg)
  /-- LOG_READ (R629): LOG_READ returns persistent log records. -/
  | logRead (msg : MgmtMsg)
  /-- BLACKBOX_READ (R629): BLACKBOX_READ returns live or saved black-box records. -/
  | blackboxRead (msg : MgmtMsg)
  /-- MGMT_ATTEST (R629): The management ATTEST message returns an attestation report. -/
  | mgmtAttest (msg : MgmtMsg)
  /-- MGMT_CERTIFICATE (R629): The management CERTIFICATE message returns part of the certificate chain. -/
  | mgmtCertificate (msg : MgmtMsg)
  /-- MGMT_LEDGER_READ (R629): The management LEDGER_READ message returns a partition's ledger records. -/
  | mgmtLedgerRead (msg : MgmtMsg)
  /-- RAS_COMMAND (R634): RAS_COMMAND writes RAS_CMD once per requester and TAG. -/
  | rasCommand (msg : MgmtMsg)
  /-- REG_WRITE (R633): REG_WRITE makes Usnea write a register field, serialized with its own writes. -/
  | regWrite (msg : MgmtMsg)
  /-- ADMIN (R629): ADMIN runs an admin command on Usnea's mailbox and returns its completion. -/
  | admin (msg : MgmtMsg)
  /-- IMAGE_CHUNK (R631): IMAGE_CHUNK writes part of a Kelpin image to the receive area or IMAGE region. -/
  | imageChunk (msg : MgmtMsg)
  /-- IMAGE_STAGE (R631): IMAGE_STAGE stages a received image from SRAM or the NOR. -/
  | imageStage (msg : MgmtMsg)
  /-- FW_CHUNK (R618): FW_CHUNK writes part of a firmware image to the receive area. -/
  | fwChunk (msg : MgmtMsg)
  /-- FW_ACTIVATE (R618): FW_ACTIVATE makes the new copy ACTIVE on trial and restarts Usnea into it. -/
  | fwActivate (msg : MgmtMsg)
  /-- NOR_WRITE (R629): NOR_WRITE writes bytes into the MEDIA region. -/
  | norWrite (msg : MgmtMsg)
  /-- SESSION_OPEN (R630): SESSION_OPEN authenticates a key slot and derives a session key. -/
  | sessionOpen (msg : MgmtMsg)
  /-- SESSION_CLOSE (R630): SESSION_CLOSE ends a session. -/
  | sessionClose (msg : MgmtMsg)
  /-- SUBSCRIBE (R635): SUBSCRIBE sets an event destination and mask. -/
  | subscribe (msg : MgmtMsg)
  /-- EVENT_ACK (R635): EVENT_ACK stops resending of the named event. -/
  | eventAck (msg : MgmtMsg)
  /-- EVENT_RESEND (R635): Every 100 ms an unacknowledged event is resent, up to 10 times. -/
  | eventResend (sub seq : Nat)
  /-- UNRESOLVED_EVENT_REPEAT (R636): Every 1 s an unchanged unresolved segment is reported again. -/
  | unresolvedEventRepeat (seg : Nat)
  /-- PTM_INFO (R637): PTM_INFO returns the published counter and PTM time pair. -/
  | ptmInfo (msg : MgmtMsg)
  /-- PTM_PUBLISH (R637): Every 1 s Usnea publishes a real-time counter and PTM time pair. -/
  | ptmPublish (ns : W64)
  /-- SESSION_IDLE_EXPIRY (R630): A session without a message for 10 minutes ends. -/
  | sessionIdleExpiry (session : Nat)
  /-- RECEIVE_AREA_TIMEOUT (R631): 60 s after the last chunk the receive area is freed for the other image kind. -/
  | receiveAreaTimeout
  /-- SIGNAL_DETECTED (R407): A port in DETECT finds signal on at least four receive lanes and enters CAL. -/
  | signalDetected (port : Nat) (lanes : List Nat)
  /-- RECEIVER_ADAPTATION_DONE (R407): Clock recovery and equalizer adaptation end on every lane with signal, and the port moves from CAL to TXEQ. -/
  | receiverAdaptationDone (port : Nat)
  /-- MSIX_VECTOR_UNMASK (R531): Host software unmasks an MSI-X vector whose pending bit is set, and the pending message is sent. -/
  | msixVectorUnmask (fn vector : Nat)
  /-- VF_ENABLE (R61): Host software enables a disabled virtual function again, and its partition's commands can be admitted again. -/
  | vfEnable (vf : Nat)
  /-- RTC_EDGE (R640): An edge of the 32.768 kHz oscillator advances the real-time counter to the next multiple of 2,048 units. -/
  | rtcEdge
  /-- ALWAYS_ON_CLOCK_RETURN (R670): The 50 MHz clock returns and meets its accuracy for 1 ms, and the Octeo leaves the cold reset that its loss imposed. -/
  | alwaysOnClockReturn
  /-- T5_REKEY_REWRITE (R487): Felt rewrites a partition's codewords under an older key generation with the new T5 key, and EV_REKEY_DONE follows when both sweeps have ended. -/
  | t5RekeyRewrite (part laddr : Nat)
  /-- WRITE_RECORD_EXPIRY (R439): 2 × LINK_TIMEOUT µs after a WRITE was applied, its requester and REQ_ID record is discarded. -/
  | writeRecordExpiry (node reqId : Nat)
  /-- D2D_LANE_SWAP (R587): A failing die-to-die lane is replaced by one of its link's four spare lanes within 10 µs, without loss. -/
  | d2dLaneSwap (link lane : Nat)
  /-- USNEA_RESTART_COMPLETE (R606): The first stage has reloaded Usnea's runtime components, management traffic resumes, EV_RESTART is set, and waiting admin commands and staging proceed. -/
  | usneaRestartComplete
  /-- MGMT_LINK_CHANGE (R624): The RGMII link to the board PHY comes up with an address, or goes down, and MGT_STATUS.NET_UP follows it. -/
  | mgmtLinkChange (up : Bool)
  /-- MCTP_CONTROL_MESSAGE (R625): An MCTP control message arrives over I3C or SMBus, and Usnea answers it. -/
  | mctpControlMessage (via : Transport) (bytes : List Byte)
  /-- I3C_DYNAMIC_ADDRESS (R625): The I3C controller runs dynamic address assignment, and Usnea takes a dynamic address on the bus. -/
  | i3cDynamicAddress (addr : Nat)
  /-- JTAG_INSTRUCTION (R627): An instruction loaded into the TAP is executed, with only BYPASS, IDCODE, SAMPLE/PRELOAD and EXTEST accepted on a fused part, EXTEST only during cold reset. -/
  | jtagInstruction (instr : JtagInstr)
  deriving DecidableEq, Repr

end Sys2Proof
end

