-- ==== Sys2Proof/Config.lean ====
section
/-! DEFINITION. What the spec leaves open, what a part's fuses hold, and what the spec takes from another standard
(cryptography): constants and functions without a body, so that no statement can rest on a value of them. -/
namespace Sys2Proof

/-! ### Fused per part (R683, R493) -/

/-- DEVICE_UID, fused (R683). -/
opaque Config.deviceUid : BitVec 64
/-- Device seed, fused (R483). -/
opaque Config.deviceSeed : List Byte

/-- Digest of the boot ROM version and the fuse configuration, the seed excepted: by the configuration, as slot states and
digests, minimum SVNs, rows used and the JTAG fuse (R495). -/
opaque Config.bootDigest : List Byte → List Byte
/-- SHA-384 of the Wynkoson firmware key, as fused (R493). -/
opaque Config.firmwareKeyDigest : List Byte
/-- Fused voltage in mV of each AVS rail for its maximum clocks (R653). -/
opaque Config.fusedAvs : Nat → Nat
/-- Bits [27:0] of the JTAG IDCODE, given in the supplier's BSDL file (R627). -/
opaque Config.idcodeLow : BitVec 28
/-- Layout of a black-box record is open (R623): what happened, with its data. -/
opaque Config.boxRecord : Nat → List Byte → List Byte

/-! ### Cryptography, by the standards the spec names -/

/-- SHA-384 of a byte string (R33, R495). -/
opaque Config.sha384 : List Byte → List Byte
/-- ECDSA P-384 verification: x, y, r, s, digest (R33, R48). -/
opaque Config.ecdsaVerify : List Byte → List Byte → List Byte → List Byte → List Byte → Bool
/-- ECDSA P-384 signature: the key's private bytes, digest; r and s, 96 bytes (R497). -/
opaque Config.ecdsaSign : List Byte → List Byte → List Byte
/-- AES key unwrap: key-encryption key, wrapped key; none on an integrity failure (R46). -/
opaque Config.keyUnwrap : List Byte → List Byte → Option (List Byte)
/-- AES-256-XTS encryption: key pair, tweak, plaintext (R479). -/
opaque Config.xtsEncrypt : List Byte → List Byte → List Byte → List Byte
/-- AES-256-XTS decryption: key pair, tweak, ciphertext (R479). -/
opaque Config.xtsDecrypt : List Byte → List Byte → List Byte → List Byte
/-- The 16 check bytes of a 64-byte burst of a subchannel, with x8 devices where the first argument says so: the spec
bounds what the code corrects and detects and gives no code (R358). -/
opaque Config.ddrCheck : Bool → List Byte → List Byte
/-- The 480 bytes of LDPC parity over a codeword's data and metadata: the spec gives no code (R374). -/
opaque Config.ldpcParity : List Byte → List Byte
/-- Data bytes of a logical codeword whose content has no layout in the spec: LADDR, WSEQ (R390). -/
opaque Config.codewordBytes : Nat → Nat → List Byte
/-- HKDF-SHA-384: input key material, salt, info, output length (R483, R630). -/
opaque Config.hkdf : List Byte → List Byte → List Byte → Nat → List Byte
/-- ECDH P-384 secret: private scalar, peer's public key (R484, R630). -/
opaque Config.ecdh : List Byte → List Byte → List Byte
/-- P-384 public key, x and y, of a private scalar (R483). -/
opaque Config.publicKey : List Byte → List Byte
/-- AES-256-GCM opening: key, nonce, associated data, ciphertext and tag; none when the tag fails (R484, R630). -/
opaque Config.gcmOpen : List Byte → List Byte → List Byte → List Byte → Option (List Byte)
/-- AES-256-GCM sealing: key, nonce, associated data, plaintext; ciphertext and tag (R630). -/
opaque Config.gcmSeal : List Byte → List Byte → List Byte → List Byte → List Byte

/-! ### Free values: the counter of State.free chooses one -/

/-- Free bytes of a given length (nonces, ephemeral keys). -/
opaque Config.freeBytes : Nat → Nat → List Byte
/-- Where the device places a structure: kind of structure, its number. -/
opaque Config.place : Nat → Nat → Nat
/-- Spare blocks that Felt sets aside, by the number of good blocks (R402 gives no number). -/
opaque Config.spareBlocks : Nat → Nat
/-- Where a model image keeps position rows, and whether it does, is open (R293): image, position. -/
opaque Config.positionRow : List Byte → Nat → Option (List W32)
/-- How an int8 activation enters a product with bf16 weights is open (R283, R293): code, scale, zero point. -/
opaque Config.bf16Input : Int → W32 → Int → W32
/-- Output of a split LINEAR with bf16 weights, whose sum over the ranks the spec does not give (R326): this rank's own product. -/
opaque Config.splitReal : W32 → W32
/-- Message in which the leader of a split model's batch sends the token sequences and the closure, whose layout is open (R328). -/
opaque Config.batchMsg : List (List Nat) → List Byte
/-- Token sequences that such a message carries; none for a message of partial sums. -/
opaque Config.readBatch : List Byte → Option (List (List Nat))
/-- Bytes of the GID index of the latent store, by the number of records (R321 gives no size). -/
opaque Config.latentIndex : Nat → Nat
/-- Counts of time or of what no command drives (busy and idle cycles, cache hits, symbol errors): register key. -/
opaque Config.timingCount : Nat → Nat → Nat
/-- What a six-bit field of SEC_FUSE shows while all 64 rows of a kind are left. -/
opaque Config.allRowsLeft : Nat → Nat
/-- MCTP control answers, whose contents another standard gives (R625): request. -/
opaque Config.mctpAnswer : List Byte → List Byte
/-- Endpoint ID that an MCTP control message assigns, by the same standard (R625): request. -/
opaque Config.mctpEid : List Byte → Option Nat
/-- Address of the descriptor of another node's shard: how a server learns it is open (R126, R453): node, partition, index. -/
opaque Config.descriptorAddr : Nat → Nat → Nat → Nat
/-- A free number. -/
opaque Config.freeNat : Nat → Nat

end Sys2Proof
end

