-- ==== Sys2Proof/Machine/Store/Index.lean ====
section
/-! DEFINITION. The state of an index shard on its tiers (05_index_layout, 06_search_walk histograms, 09_epochs_updates). -/
namespace Sys2Proof.Machine

/-- STATE of a shard descriptor (R126). -/
inductive ShardPhase where
  | building | sealing | serving | retiring
  deriving DecidableEq, Repr

/-- An epoch record of the descriptor (R129). -/
structure EpochRec where
  /-- epoch number, zero when unused | 48 | 05_index_layout R129 | reset 0 -/
  epoch : Nat
  /-- fresh ring head | 64 | 05_index_layout R129 | reset 0 -/
  head : Nat
  /-- fresh ring tail | 64 | 05_index_layout R129 | reset 0 -/
  tail : Nat
  deriving DecidableEq, Repr

/-- A version record of the overlay region (R148). The list of a shard's versions is kept newest first, so PREV is the
next older version of the slot in the list. -/
structure Version where
  /-- place in the overlay region, in 32-byte units | 31 | 05_index_layout R149 | reset no version -/
  off : Nat
  /-- local slot ID | 32 | 05_index_layout R148 | reset no version -/
  slot : Nat
  /-- KIND 0x02 (attributes) rather than 0x01 (adjacency) | 1 | 05_index_layout R148 | reset no version -/
  isAttr : Bool
  /-- PUB: first epoch that reads the version | 48 | 05_index_layout R148 | reset no version -/
  pub : Nat
  /-- adjacency body: used entries | 32 each | 05_index_layout R142 R148 | reset no version -/
  adj : List Nat
  /-- attribute body | 64 | 05_index_layout R145 R148 | reset no version -/
  attr : Nat
  deriving DecidableEq, Repr

/-- A selectivity histogram (R178). -/
structure Hist where
  /-- SOURCE: 1 host | 1 | 06_search_walk R178 | reset 0 -/
  host : Bool
  /-- REUSED | 1 | 06_search_walk R178 | reset 0 -/
  reused : Bool
  /-- N_LIVE | 32 | 06_search_walk R178 | reset 0 -/
  nLive : Nat
  /-- words 4 to 2307, BIN and BITS, by word number | 32 each | 06_search_walk R178 | reset 0 -/
  words : Smap Nat
  deriving DecidableEq, Repr

/-- The four parts of linking of one ring entry (R269). -/
structure LinkParts where
  /-- part 1: adjacency record written as a version | 1 | 09_epochs_updates R269 | reset false -/
  recDone : Bool
  /-- part 2: back-link versions written | 1 | 09_epochs_updates R269 | reset false -/
  backDone : Bool
  /-- part 3: code and tag in the code region | 1 | 09_epochs_updates R269 | reset false -/
  codeDone : Bool
  /-- part 4: exact vector durable in the vector store | 1 | 09_epochs_updates R269 | reset false -/
  vecDone : Bool
  /-- the item was recorded as linked | 1 | 09_epochs_updates R256 R269 | reset false -/
  linked : Bool
  /-- its insert walk has started | 1 | 09_epochs_updates R270 | reset false -/
  walked : Bool
  /-- empty entry of a withdrawn update | 1 | 09_epochs_updates R266 | reset false -/
  empty : Bool
  deriving DecidableEq, Repr

/-- The host-visible fixed part of a shard descriptor (R126) and the index numeric record it names (R98). -/
structure ShardDesc where
  /-- DEGREE | 8 | 05_index_layout R126 | reset no shard -/
  degree : Nat
  /-- NTAG | 8 | 05_index_layout R126 | reset no shard -/
  ntag : Nat
  /-- NCOL | 8 | 05_index_layout R126 | reset no shard -/
  ncol : Nat
  /-- SLOT_LIMIT | 32 | 05_index_layout R124 R126 | reset no shard -/
  slotLimit : Nat
  /-- HOT_SLOTS | 32 | 05_index_layout R126 | reset no shard -/
  hotSlots : Nat
  /-- OVL_SIZE in MiB | 32 | 05_index_layout R126 | reset no shard -/
  ovlSize : Nat
  /-- FRESH_ENTRIES | 32 | 05_index_layout R126 | reset no shard -/
  freshEntries : Nat
  /-- code windows in shard order | 16 each | 05_index_layout R126 R130 | reset no shard -/
  codeList : List Nat
  /-- norm windows | 16 each | 05_index_layout R126 | reset no shard -/
  normList : List Nat
  /-- FRESH_WIN | 16 | 05_index_layout R126 R139 | reset no shard -/
  freshWin : Nat
  /-- window of the hot adjacency copy | 16 | 05_index_layout R126 R144 | reset no shard -/
  hotWin : Nat
  /-- ATTR_SCHEMA | 8 entries of 16 | 05_index_layout R126 R145 | reset no shard -/
  schema : List Nat
  /-- TAG_RULES | 14 entries of 64 | 05_index_layout R126 R146 | reset no shard -/
  tagRules : List Nat
  /-- ENTRY: the entry list, null slots left out | at most 16 of 32 | 05_index_layout R126 R128 | reset no shard -/
  entry : List Nat
  /-- index numeric record, byte for byte | up to 2118336 bytes | 04_vector_formats R98 | reset no shard -/
  numrec : List Byte
  deriving DecidableEq, Repr

/-- A complete checkpoint of a shard (R277): what epoch C reads. -/
structure Checkpoint where
  /-- epoch C of the checkpoint | 48 | 09_epochs_updates R277 | reset none -/
  epoch : Nat
  /-- shard descriptor with the entry list | ShardDesc | 09_epochs_updates R277 | reset none -/
  desc : ShardDesc
  /-- slot records | 128 each | 09_epochs_updates R277 | reset none -/
  slots : Smap Nat
  /-- adjacency records | 32 per entry | 09_epochs_updates R277 | reset none -/
  adj : Smap (List Nat)
  /-- attribute words | 64 each | 09_epochs_updates R277 | reset none -/
  attrs : Smap Nat
  /-- FRESH items of C, in ring order: slot and exact vector | list | 09_epochs_updates R277 | reset none -/
  fresh : List (Nat × List Byte)
  /-- high-water mark of the slots | 32 | 09_epochs_updates R277 | reset none -/
  highWater : Nat
  /-- replay point: JSEQ and byte offset of the first journal record accepted at C or later | 64, 16 | 09_epochs_updates R277 | reset none -/
  replay : Nat × Nat
  deriving DecidableEq, Repr

/-- One shard. -/
structure Shard where
  /-- partition | 6 | 05_index_layout R121 | reset no shard -/
  part : Nat
  /-- index handle | 6 | 05_index_layout R121 | reset no shard -/
  index : Nat
  /-- STATE | 8 | 05_index_layout R126 | reset no shard -/
  phase : ShardPhase
  /-- descriptor fields and numeric record | ShardDesc | 05_index_layout R126 | reset no shard -/
  desc : ShardDesc
  /-- local addresses of the shard's T3 structures: NUMREC_ADDR, SLOT_BASE, IDMAP_BASE, ADJ_BASE, ATTR_BASE, TOMB_BASE, OVLMAP_BASE,
      OVL_BASE, CODE_LIST, NORM_LIST, FRESH_SLOTS, and the descriptor itself | 47 each | 05_index_layout R126 | reset no shard -/
  t3 : List Nat
  /-- EPOCH_TABLE, sixteen positions | 32 bytes each | 05_index_layout R129 | reset no shard -/
  epochTable : List EpochRec
  /-- head and tail of every epoch in use that the table no longer holds | EpochRec each | 05_index_layout R129 | reset no shard -/
  inUse : List EpochRec
  /-- high-water mark of slot allocation | 32 | 05_index_layout R124 | reset 0 -/
  highWater : Nat
  /-- free list | 32 each | 05_index_layout R124 R125 | reset empty -/
  free : List Nat
  /-- slot records | 128 each | 05_index_layout R134 | reset 0 -/
  slots : Smap Nat
  /-- primary adjacency records: used entries (the hot copy stands in the stack window, R144) | 32 per entry | 05_index_layout R142 | reset all null -/
  adj : Smap (List Nat)
  /-- attribute words | 64 each | 05_index_layout R145 | reset 0 -/
  attrs : Smap Nat
  /-- tombstone bits that are set | 1 each | 05_index_layout R138 | reset 0 -/
  tomb : List Nat
  /-- version records, newest first; a slot's overlay bit is set when one names it | Version each | 05_index_layout R148 R149 | reset none -/
  versions : List Version
  /-- directory of the overlay region: the slot that each position in use names | 32 each | 05_index_layout R149 | reset none -/
  dir : Smap Nat
  /-- ID map entries, key 8 * bucket + position | 64 each | 05_index_layout R154 | reset all null -/
  idmap : Smap Nat
  /-- FRESH_SLOTS, by ring index | 32 each | 05_index_layout R139 | reset null -/
  freshSlots : Smap Nat
  /-- next fresh ring sequence number to reserve | 64 | 09_epochs_updates R266 | reset 0 -/
  ringNext : Nat
  /-- one past the highest sequence number accepted | 64 | 09_epochs_updates R266 | reset 0 -/
  ringHead : Nat
  /-- end of the run of linked entries | 64 | 05_index_layout R140 | reset 0 -/
  ringTail : Nat
  /-- linking parts of ring entries, by sequence number | 7 each | 09_epochs_updates R269 | reset none -/
  links : Smap LinkParts
  /-- sequence number up to which the settler has settled ring entries | 64 | 05_index_layout R137 R141 | reset 0 -/
  settled : Nat
  /-- back-links of the current epoch: target slot, then the slots that requested them and are served | list | 09_epochs_updates R271 R272 | reset none -/
  backReq : Smap (List Nat)
  /-- back-link requests not served yet: target slot, then requesting slots | list | 09_epochs_updates R271 | reset none -/
  backPend : Smap (List Nat)
  /-- items whose linking finished between PREPARE and the strobe, by sequence number | list | 09_epochs_updates R256 | reset none -/
  linkedLate : List Nat
  /-- epoch record fixed at PREPARE for the next epoch | EpochRec | 09_epochs_updates R256 | reset none -/
  nextRec : Option EpochRec
  /-- running histogram | Hist | 06_search_walk R180 | reset empty -/
  running : Hist
  /-- frozen histograms by epoch | Hist each | 06_search_walk R178 | reset none -/
  frozen : Smap Hist
  /-- host histograms accepted for epochs not yet begun | Hist each | 06_search_walk R181 | reset none -/
  hostHist : Smap Hist
  /-- first SERVING epoch | 48 | 05_index_layout R159, 06_search_walk R178 | reset 0 -/
  firstServing : Nat
  /-- queue pair whose bulk loads are accepted | 14 | 05_index_layout R157 | reset none -/
  loadQp : Option Nat
  /-- every bulk-loaded item so far carried its adjacency record | 1 | 05_index_layout R158 | reset true -/
  hostAdj : Bool
  /-- command that waits for the seal's boundary | 32 | 18_command_set R569 | reset none -/
  sealCmd : Option Nat
  /-- command that retires the index, and the boundary at which the shard entered RETIRING, zero before it | 2 numbers | 18_command_set R566 | reset none -/
  retire : Option (Nat × Nat)
  /-- relocation under way: command, source window, target window | 3 numbers | 05_index_layout R156 | reset none -/
  reloc : Option (Nat × Nat × Nat)
  /-- next slot of the repair pass | 32 | 09_epochs_updates R273 | reset 0 -/
  repairPos : Nat
  /-- deleted slots whose DEL_SETTLED was set before the pass began | list | 09_epochs_updates R273 | reset none -/
  repairOld : List Nat
  /-- slots reported free of references, waiting for older versions to settle | list | 05_index_layout R125, 09_epochs_updates R273 | reset none -/
  unref : List Nat
  /-- REPLACE entries accepted whose versions have not settled: slot and PUB | list of pairs | 09_epochs_updates R275 | reset none -/
  replaces : List (Nat × Nat)
  /-- RELEASE entries accepted: slot, and the REPLACE versions accepted before that have to settle first | list | 09_epochs_updates R275 | reset none -/
  released : List (Nat × List (Nat × Nat))
  /-- exact vectors durable in the vector store, by slot | D elements | 09_epochs_updates R269, 13_felt_flash R387 | reset none -/
  vectors : Smap (List Byte)
  /-- exact vectors that the journal holds for FRESH items, by slot | D elements | 06_search_walk R186 | reset none -/
  jvectors : Smap (List Byte)
  /-- where the latent records of items lie in T2, by slot: window * 2^30 + offset, and bytes | spans | 11_model_execution R321 | reset none -/
  latents : Smap (List (Nat × Nat))
  /-- latest complete checkpoint | Checkpoint | 09_epochs_updates R277 | reset none -/
  ckpt : Option Checkpoint
  /-- checkpoint being written | Checkpoint | 09_epochs_updates R277 | reset none -/
  ckptNow : Option Checkpoint
  /-- previous complete checkpoint, kept until the next is complete | Checkpoint | 09_epochs_updates R277 | reset none -/
  ckptPrev : Option Checkpoint
  /-- T2 and T3 structures were lost and the shard awaits its rebuild | 1 | 09_epochs_updates R278 | reset false -/
  lost : Bool
  deriving DecidableEq, Repr

end Sys2Proof.Machine
end

