-- ==== Sys2Proof/Machine/Store/Epoch.lean ====
section
/-! DEFINITION. The state of the epoch sequencer, of the pins and of the update journal (09_epochs_updates, 13_felt_flash). -/
namespace Sys2Proof.Machine

/-- A journal record (R264). -/
structure JRec where
  /-- number of the record in its partition's journal, from 0 | 64 | 09_epochs_updates R264 | reset none -/
  num : Nat
  /-- TYPE: 1 INSERT, 2 UPSERT, 3 DELETE, 4 ATTR_SET, 5 EPOCH_MARK | 8 | 09_epochs_updates R264 | reset none -/
  typ : Nat
  /-- INDEX | 8 | 09_epochs_updates R264 | reset none -/
  index : Nat
  /-- EPOCH | 48 | 09_epochs_updates R264 | reset none -/
  epoch : Nat
  /-- GID | 64 | 09_epochs_updates R264 | reset none -/
  gid : Nat
  /-- SLOT | 32 | 09_epochs_updates R264 | reset none -/
  slot : Nat
  /-- OLD_SLOT | 32 | 09_epochs_updates R264 | reset none -/
  oldSlot : Nat
  /-- RSEQ | 64 | 09_epochs_updates R264 | reset none -/
  rseq : Nat
  /-- ATTR | 64 | 09_epochs_updates R264 | reset none -/
  attr : Nat
  /-- NORM | 16 | 09_epochs_updates R264 | reset none -/
  norm : Nat
  /-- CODE | 64 bytes | 09_epochs_updates R264 | reset none -/
  code : List Byte
  /-- EXACT | DIM elements | 09_epochs_updates R264 | reset none -/
  exact : List Byte
  /-- number of the command the entry belongs to, and the entry's place in it; none for EPOCH_MARK and replay | 2 numbers | 18_command_set R553 | reset none -/
  src : Option (Nat × Nat)
  deriving DecidableEq, Repr

/-- A journal page (R383, R384). -/
structure JPage where
  /-- JSEQ | 64 | 13_felt_flash R383 | reset none -/
  jseq : Nat
  /-- records, in order of placement | JRec each | 13_felt_flash R383 | reset none -/
  recs : List JRec
  /-- the page is closed | 1 | 13_felt_flash R384 | reset none -/
  closed : Bool
  /-- copy 0 has programmed | 1 | 13_felt_flash R384 | reset none -/
  copy0 : Bool
  /-- copy 1 has programmed | 1 | 13_felt_flash R384 | reset none -/
  copy1 : Bool
  /-- data area of copy 0 as programmed, before encryption; empty until then | PAGE bytes | 13_felt_flash R383 | reset none -/
  image0 : List Byte
  /-- data area of copy 1 as programmed, before encryption; empty until then | PAGE bytes | 13_felt_flash R383 | reset none -/
  image1 : List Byte
  /-- die pair of the page: first die | 10 | 13_felt_flash R382 | reset none -/
  die : Nat
  /-- KEY_GEN of the page's header | 32 | 13_felt_flash R383, 16_isolation_security R487 | reset none -/
  keyGen : Nat
  deriving DecidableEq, Repr

/-- A partition's journal. -/
structure Journal where
  /-- pages not yet durable, oldest first | JPage each | 13_felt_flash R384 | reset none -/
  pages : List JPage
  /-- pages that are durable and not released, oldest first | JPage each | 09_epochs_updates R261 R277 | reset none -/
  durable : List JPage
  /-- number of the next record to place | 64 | 13_felt_flash R384 | reset 0 -/
  next : Nat
  /-- JSEQ of the next page | 64 | 13_felt_flash R383 | reset 0 -/
  nextPage : Nat
  /-- pages released | 64 | 13_felt_flash R386 | reset 0 -/
  released : Nat
  /-- number of the first record not yet accepted | 64 | 09_epochs_updates R261 R384 | reset 0 -/
  accepted : Nat
  /-- number of the first record accepted in the current epoch: the replay point of a checkpoint of it | 64 | 09_epochs_updates R277 | reset 0 -/
  mark : Nat
  /-- bytes of page data area in use | 64 | 13_felt_flash R382 R386 | reset 0 -/
  used : Nat
  deriving DecidableEq, Repr

/-- The epoch sequencer, the pins and the journals. -/
structure EpochState where
  /-- epoch counter; zero until the first epoch begins | 48 | 09_epochs_updates R248 | reset 0 -/
  cur : Nat
  /-- first epoch since the last start; no earlier one is retained | 48 | 09_epochs_updates R278, 21_power_clocks_startup R659 | reset 0 -/
  first : Nat
  /-- epoch length in force, µs | 32 | 09_epochs_updates R248, 02_structure_images R36 | reset 0 -/
  len : Nat
  /-- PREPARE has been sent for the next boundary | 1 | 09_epochs_updates R255 | reset false -/
  prepared : Bool
  /-- domains that have replied READY | list | 09_epochs_updates R255 | reset none -/
  ready : List Nat
  /-- domains that have acknowledged the strobe with the right epoch bits | list | 09_epochs_updates R257 | reset none -/
  acked : List Nat
  /-- domains that have missed the latest boundary | list | 09_epochs_updates R258 | reset none -/
  missed : List Nat
  /-- the strobe awaits its acknowledgements | 1 | 09_epochs_updates R258 | reset false -/
  awaiting : Bool
  /-- the latest boundary applied an image | 1 | 09_epochs_updates R258 | reset false -/
  appliedNow : Bool
  /-- pinned epochs of each partition, key 2^48 * partition + epoch: references | 16 each | 09_epochs_updates R251 | reset none -/
  pins : Smap Nat
  /-- epoch-class copies in force of each retained epoch, key 2^32 * epoch + register key; a value equal to none listed is the reset value | 32 each | 09_epochs_updates R253 | reset none -/
  pastCfg : Smap W32
  /-- epochs for which pastCfg was recorded | list | 09_epochs_updates R253 | reset none -/
  pastEpochs : List Nat
  /-- journals of the partitions | Journal each | 13_felt_flash R382 | reset empty -/
  journals : Smap Journal
  /-- records durable since PREPARE, in order of durability: partition and record | list | 09_epochs_updates R256 | reset none -/
  deferred : List (Nat × JRec)
  /-- partitions that accepted a record since their last EPOCH_MARK | list | 09_epochs_updates R265 | reset none -/
  markDue : List Nat
  /-- EPOCH_FENCE commands that wait: command number | list | 09_epochs_updates R263 | reset none -/
  fences : List Nat
  /-- largest epoch found in any EPOCH_MARK or checkpoint, kept in flash | 48 | 09_epochs_updates R278 | reset 0 -/
  largest : Nat
  deriving DecidableEq, Repr

/-- The sequencer at reset. -/
def EpochState.reset : EpochState :=
  { cur := 0, first := 0, len := 0, prepared := false, ready := [], acked := [], missed := [], awaiting := false,
    appliedNow := false, pins := [], pastCfg := [], pastEpochs := [], journals := [], deferred := [], markDue := [],
    fences := [], largest := 0 }

/-- A journal that holds nothing. -/
def Journal.empty : Journal :=
  { pages := [], durable := [], next := 0, nextPage := 0, released := 0, accepted := 0, mark := 0, used := 0 }

end Sys2Proof.Machine
end

