-- ==== Sys2Proof/Machine/Store/Felt.lean ====
section
/-! DEFINITION. The state of Felt: media, map, blocks, zones and health (13_felt_flash). -/
namespace Sys2Proof.Machine

/-- The interface standard of a part (R372 IFACE). -/
inductive Iface where
  | onfi | toggle
  deriving DecidableEq, Repr

/-- Where one logical codeword lies, and its metadata (R375). -/
structure Codeword where
  /-- block that holds it | 32 | 13_felt_flash R388 | reset none -/
  block : Nat
  /-- WSEQ | 64 | 13_felt_flash R375 | reset none -/
  wseq : Nat
  /-- KEY_GEN | 32 | 13_felt_flash R375 | reset none -/
  keyGen : Nat
  /-- KIND | 8 | 13_felt_flash R375 | reset none -/
  kind : Nat
  /-- codeword position in the block | 16 | 13_felt_flash R374 R377 | reset none -/
  pos : Nat
  deriving DecidableEq, Repr

/-- A physical block; block b lies on die b div (PLANES * BPP). A block not listed is erased and new. -/
structure Block where
  /-- program-erase cycles | 16 | 13_felt_flash R402 | reset 0 (kept in flash) -/
  pe : Nat
  /-- run in fast-cell mode | 1 | 13_felt_flash R381 | reset false (kept in flash) -/
  fast : Bool
  /-- erased and not programmed since | 1 | 13_felt_flash R389 | reset true (kept in flash) -/
  erased : Bool
  /-- retired: in the grown bad block table | 1 | 13_felt_flash R398 R401 | reset false (kept in flash) -/
  retired : Bool
  /-- reads since it was programmed | 32 | 13_felt_flash R389 | reset 0 -/
  reads : Nat
  /-- refresh wanted | 1 | 13_felt_flash R389 | reset false -/
  refresh : Bool
  /-- codeword position that is programmed next | 16 | 13_felt_flash R374 | reset 0 (kept in flash) -/
  next : Nat
  /-- group of 16 blocks over which its stripes run, 0 none | 32 | 13_felt_flash R377 | reset 0 (kept in flash) -/
  group : Nat
  deriving DecidableEq, Repr

/-- The states of a zone (R392). -/
inductive ZoneSt where
  | empty | opened | full | offline
  deriving DecidableEq, Repr

/-- A zone of a partition (R391, R392). -/
structure Zone where
  /-- state | 2 | 13_felt_flash R392 | reset EMPTY -/
  st : ZoneSt
  /-- role: CHECKPOINT rather than VECTOR | 1 | 13_felt_flash R392 | reset none -/
  ckpt : Bool
  /-- index handle of a VECTOR zone | 6 | 13_felt_flash R392 | reset none -/
  index : Nat
  /-- codewords written | 32 | 13_felt_flash R392 | reset 0 -/
  written : Nat
  /-- logical codewords mapped into it | list | 13_felt_flash R395 | reset none -/
  mapped : List Nat
  /-- command whose RESET waits for the reads outstanding and the erase | 32 | 13_felt_flash R395 | reset none -/
  resetCmd : Option Nat
  deriving DecidableEq, Repr

/-- A die (R369, R400, R403). -/
structure Die where
  /-- in use | 1 | 13_felt_flash FLT_D_STATE | reset 0 -/
  used : Bool
  /-- programs held for temperature | 1 | 13_felt_flash R403 | reset 0 -/
  hot : Bool
  /-- current temperature | 8, signed | 13_felt_flash R403 | reset 0 -/
  temp : Int
  /-- highest temperature | 8, signed | 13_felt_flash R402 | reset 0 -/
  maxTemp : Int
  /-- real-time counter at the highest temperature | 64 | 13_felt_flash R402 | reset 0 -/
  maxAt : Nat
  deriving DecidableEq, Repr

/-- Felt. -/
structure FeltState where
  /-- training and map rebuild are complete | 1 | 13_felt_flash FLT_STATE | reset 0 -/
  ready : Bool
  /-- the media descriptor in use | 256 bytes | 13_felt_flash R370 R372 | reset none -/
  desc : List Byte
  /-- interface in force | 1 | 13_felt_flash R368 | reset 0 -/
  iface : Iface
  /-- rate code in force | 2 | 13_felt_flash R368 | reset 0 -/
  rate : Nat
  /-- attempts of each channel at the present rate | 2 each | 13_felt_flash R371 | reset 0 -/
  tries : Smap Nat
  /-- rate code at which each channel trained | 2 each | 13_felt_flash R371 | reset none -/
  trained : Smap Nat
  /-- ID bytes of each die that READ ID found, with its factory-bad blocks | 64 and a list | 13_felt_flash R370 R380 | reset none -/
  ids : Smap (Nat × List Nat)
  /-- channels that were fenced in training | list | 13_felt_flash R371 | reset none -/
  dead : List Nat
  /-- bytes moved over each channel, FLT_C_BYTES in kilobytes | 64 each | 13_felt_flash FLT_C_BYTES | reset 0 -/
  chBytes : Smap Nat
  /-- dies | Die each | 13_felt_flash R369 | reset none -/
  dies : Smap Die
  /-- blocks | Block each | 13_felt_flash R389 | reset none -/
  blocks : Smap Block
  /-- map of logical codewords, by LADDR | Codeword each | 13_felt_flash R375 R388 | reset none -/
  map : Smap Codeword
  /-- latest map checkpoint, in flash | Codeword each | 13_felt_flash R390 | reset none -/
  mapCkpt : Smap Codeword
  /-- codeword metadata written since the map checkpoint, newest last, in flash: LADDR and codeword | list | 13_felt_flash R390 | reset none -/
  sinceCkpt : List (Nat × Codeword)
  /-- next WSEQ | 64 | 13_felt_flash R375 | reset 0 -/
  wseq : Nat
  /-- good data area at start-up, bytes | 64 | 13_felt_flash R380 | reset 0 -/
  good : Nat
  /-- initial spare blocks | 32 | 13_felt_flash R402 | reset 0 -/
  spare0 : Nat
  /-- spare blocks left | 32 | 13_felt_flash R402 FLT_SPARE | reset 0 -/
  spare : Nat
  /-- no spare block is left | 1 | 13_felt_flash R401 | reset 0 -/
  limited : Bool
  /-- zones, key 2^24 * partition + zone | Zone each | 13_felt_flash R391 | reset EMPTY -/
  zones : Smap Zone
  /-- blocks retired with no spare block to take their place | list | 13_felt_flash R392 R401 | reset none (kept in flash) -/
  bare : List Nat
  /-- stripe parity codewords, key 2^16 * group + position: block | 32 each | 13_felt_flash R377 | reset none (kept in flash) -/
  parity : Smap Nat
  /-- device writes that wait for an OPEN zone, key partition: count | 32 each | 13_felt_flash R394 | reset none -/
  zoneWait : Smap Nat
  /-- position of the patrol: next block | 32 | 13_felt_flash R397 | reset 0 -/
  patrol : Nat
  /-- health record as last written to device space: counters by register key | 32 each | 13_felt_flash R402 | reset none (kept in flash) -/
  health : Smap W32
  /-- health record as last written to device space: highest temperature of each die and its counter value | 8 signed and 64 each | 13_felt_flash R402 | reset none (kept in flash) -/
  healthTemps : Smap (Int × Nat)
  /-- numeric-record, vector and checkpoint locators in use | list of partition * 64 + index | 13_felt_flash R387 | reset none -/
  locators : List Nat
  deriving DecidableEq, Repr

/-- Felt at reset, with no media identified yet. -/
def FeltState.reset : FeltState :=
  { ready := false, desc := [], iface := .onfi, rate := 0, tries := [], trained := [], ids := [], dead := [], chBytes := [], dies := [],
    blocks := [], map := [], mapCkpt := [], sinceCkpt := [], wseq := 0, good := 0, spare0 := 0, spare := 0, limited := false,
    zones := [], bare := [], parity := [], zoneWait := [], patrol := 0, health := [], healthTemps := [], locators := [] }

end Sys2Proof.Machine
end

