-- ==== Sys2Proof/Machine/Store/Host.lean ====
section
/-! DEFINITION. The state of queue pairs, functions, admitted commands, queries, walks and lists
(17_host_queues, 18_command_set, 06_search_walk, 08_muslin_selection). -/
namespace Sys2Proof.Machine

/-- States of a queue pair (R508). -/
inductive QpSt where
  | disabled | active | stopping | failed
  deriving DecidableEq, Repr

/-- A queue pair (R507, R508). -/
structure Qp where
  /-- STATE | 2 | 17_host_queues R508 | reset DISABLED -/
  st : QpSt
  /-- REENABLE_PENDING | 1 | 17_host_queues R509 | reset 0 -/
  reenable : Bool
  /-- CAUSE | 4 | 17_host_queues R512 | reset 0x0 -/
  cause : Nat
  /-- SQ_HEAD: fetch head | 16 | 17_host_queues R525 | reset 0 -/
  sqHead : Nat
  /-- SQ_TAIL | 16 | 17_host_queues R522 | reset 0 -/
  sqTail : Nat
  /-- CQ_TAIL | 16 | 17_host_queues R518 | reset 0 -/
  cqTail : Nat
  /-- CQ_HEAD | 16 | 17_host_queues R523 | reset 0 -/
  cqHead : Nat
  /-- PHASE of the next completion entry | 1 | 17_host_queues R518 | reset 1 -/
  phase : Bool
  /-- entries fetched and not admitted, oldest first, with the counter value of their doorbell | 64 bytes each | 17_host_queues R525 R530 | reset none -/
  fetched : List (List Byte × Nat)
  /-- counter value of the doorbell that exposed each waiting entry not fetched yet, oldest first | 64 each | 17_host_queues R530 | reset none -/
  exposedAt : List Nat
  /-- deficit | integer | 17_host_queues R528 | reset 0 -/
  deficit : Nat
  /-- rate credit | integer | 17_host_queues R529 | reset 0 -/
  credit : Int
  /-- commands admitted whose completions are not yet consumed | 32 | 17_host_queues R520 | reset 0 -/
  unconsumed : Nat
  /-- commands admitted and not yet completed | 32 | 17_host_queues R521 R530 | reset 0 -/
  running : Nat
  /-- completion entries pending since the last signal | 16 | 17_host_queues R531 | reset 0 -/
  pendingInt : Nat
  /-- a pending completion entry has a STATUS of 0x10 or above | 1 | 17_host_queues R531 | reset false -/
  pendErr : Bool
  /-- HQ_QP_DEPTH_SAMPLE | 32 | 17_host_queues R530 | reset 0 -/
  depthSample : W32
  /-- HQ_QP_DELAY_SAMPLE | 24 | 17_host_queues R530 | reset 0 -/
  delaySample : Nat
  /-- HQ_QP_ADMITTED | 32 | 17_host_queues HQ_QP_ADMITTED | reset 0 -/
  admitted : W32
  /-- HQ_QP_COMPLETED | 32 | 17_host_queues HQ_QP_COMPLETED | reset 0 -/
  completed : W32
  /-- a completion entry write has failed since enable | 1 | 17_host_queues R508 R512 | reset false -/
  cqBad : Bool
  /-- partition that owned the queue pair when an image apply took it away, until its drain ends | 6 | 17_host_queues R511 | reset none -/
  leaving : Option Nat
  /-- update commands of the queue pair with an accepted entry: number, and the first epoch in which those entries are visible; older ones stay while an EPOCH_FENCE may cover them | list | 09_epochs_updates R263 | reset none -/
  vis : List (Nat × Nat)
  /-- inserted items of the queue pair not yet GRAPH: command number, shard as 64 * partition + index, ring sequence number | list | 09_epochs_updates R263 | reset none -/
  inserted : List (Nat × Nat × Nat)
  deriving DecidableEq, Repr

/-- A PCIe function. -/
structure Fn where
  /-- MSI-X table: vectors whose mask bit is clear | list | 17_host_queues R503 R531 | reset all masked -/
  unmasked : List Nat
  /-- MSI-X pending bits | list | 17_host_queues R503 R531 | reset 0 -/
  pba : List Nat
  /-- the 10 µs event gap runs | 1 | 17_host_queues R533 | reset false -/
  gap : Bool
  /-- an event fell inside the gap | 1 | 17_host_queues R533 | reset false -/
  inGap : Bool
  /-- no request is sent under the function's requester ID since a function-level reset | 1 | 17_host_queues R534 | reset false -/
  quiet : Bool
  /-- a function-level reset waits for the drain of the queue pairs | 1 | 17_host_queues R534 | reset false -/
  flr : Bool
  deriving DecidableEq, Repr

/-- Where an admitted command stands. -/
inductive CmdPhase where
  | admitted | running | done
  deriving DecidableEq, Repr

/-- Outcome of one update entry (R554). -/
structure EntryOut where
  /-- STATUS | 8 | 18_command_set R554 | reset none -/
  status : Nat
  /-- STATE of the entry | 8 | 18_command_set R554 | reset none -/
  state : Nat
  /-- slot | 32 | 18_command_set R554 | reset none -/
  slot : Nat
  /-- epoch of acceptance | 48 | 18_command_set R554 | reset none -/
  epoch : Nat
  /-- flags: 1 ABSENT, 2 NO_LATENT, 4 REPLACED, 8 SKIPPED | 4 | 18_command_set R554 | reset none -/
  flags : Nat
  /-- GID | 64 | 18_command_set R554 | reset none -/
  gid : Nat
  /-- OLD_SLOT | 32 | 18_command_set R554 | reset none -/
  old : Nat
  deriving DecidableEq, Repr

/-- An admitted command. -/
structure Cmd where
  /-- device queue pair, or none for a management ADMIN message | 14 | 17_host_queues R526 | reset none -/
  qp : Option Nat
  /-- function | 6 | 16_isolation_security R478 | reset none -/
  fn : Nat
  /-- partition | 6 | 02_structure_images R37 | reset none -/
  part : Nat
  /-- submission entry | 64 bytes | 17_host_queues R513 | reset none -/
  entry : List Byte
  /-- phase | 2 | 17_host_queues R526 | reset none -/
  phase : CmdPhase
  /-- epoch stamp | 48 | 17_host_queues R517 | reset none -/
  epoch : Nat
  /-- local epoch of the stamp | 48 | 15_composition_ownership R451 | reset none -/
  local_ : Nat
  /-- composition, when the index is in one | 8 | 15_composition_ownership R449 | reset none -/
  comp : Option Nat
  /-- map generation, zero when none | 16 | 15_composition_ownership R449 | reset none -/
  mapgen : Nat
  /-- the epoch the entry names, where it names one, was retained at admission | 1 | 09_epochs_updates R250 | reset none -/
  kept : Bool
  /-- PLN_PCFG of the stamp's epoch | 32 | 09_epochs_updates R253 | reset none -/
  pcfg : W32
  /-- function modes byte of the partition, and of the device, at admission | 8 each | 02_structure_images R55 | reset none -/
  modes : Nat × Nat
  /-- numeric profile | 8 | 10_bracken_engine R297 | reset none -/
  profile : Nat
  /-- current epoch at admission | 48 | 17_host_queues R526 | reset none -/
  adm : Nat
  /-- digests of the models that the command runs | 48 bytes each | 11_model_execution R308 | reset none -/
  uses : List (List Byte)
  /-- SEQ of the image in force at admission | 64 | 02_structure_images R55 | reset none -/
  imgSeq : Nat
  /-- real-time counter at admission | 64 | 17_host_queues R517 | reset none -/
  at_ : Nat
  /-- STATUS, once done | 8 | 18_command_set R538 | reset none -/
  status : Nat
  /-- PROGRESS | 32 | 18_command_set R540 | reset none -/
  progress : Nat
  /-- CFLAGS | 16 | 17_host_queues R517 | reset none -/
  cflags : Nat
  /-- result data still to be written: offset in the result buffer, bytes | list | 12_memory_tiers R347 | reset none -/
  result : List (Nat × List Byte)
  /-- outcomes of the entries of an update batch, in order | EntryOut each | 18_command_set R554 | reset none -/
  outs : List EntryOut
  /-- number of entries of the batch | 13 | 18_command_set R553 | reset none -/
  total : Nat
  /-- global item IDs of the entries of the batch | 64 each | 18_command_set R554 | reset none -/
  gids : List Nat
  /-- next entry to place | 16 | 18_command_set R553 | reset none -/
  next : Nat
  /-- the batch waits under FULL_WAIT: EPC_PEVENT bit of the cause | 3 | 09_epochs_updates R268 | reset none -/
  fullWait : Option Nat
  /-- T4 access for the command has failed | 1 | 12_memory_tiers R346 | reset none -/
  t4Failed : Bool
  /-- what model sequences brought: pooled vector under the entry, hidden states under 4096 + entry, a mark under 8192 + entry where the model failed | fp32 list each | 18_command_set R558 R560 | reset none -/
  outputs : Smap (List W32)
  deriving DecidableEq, Repr

/-- A candidate in a walk's queue (R166). -/
structure QEnt where
  /-- sketch key | 32 | 06_search_walk R166 | reset none -/
  key : Nat
  /-- global item ID | 64 | 06_search_walk R166 | reset none -/
  gid : Nat
  /-- local slot ID | 32 | 06_search_walk R166 | reset none -/
  slot : Nat
  /-- expanded flag | 1 | 06_search_walk R166 | reset none -/
  expanded : Bool
  /-- routing-only flag | 1 | 06_search_walk R166 | reset none -/
  routing : Bool
  deriving DecidableEq, Repr

/-- A list entry (R230), with the two flags of a result entry (R243). -/
structure LEnt where
  /-- KEY | 32 | 08_muslin_selection R230 | reset none -/
  key : Nat
  /-- SLOT | 32 | 08_muslin_selection R230 | reset none -/
  slot : Nat
  /-- GID | 64 | 08_muslin_selection R230 | reset none -/
  gid : Nat
  /-- FRESH | 1 | 08_muslin_selection R243 | reset none -/
  fresh : Bool
  /-- SUSPECT | 1 | 08_muslin_selection R243 | reset none -/
  suspect : Bool
  /-- A, for the disagreement check | 32 | 04_vector_formats R117 | reset none -/
  a : Int
  deriving DecidableEq, Repr

/-- A Muslin list (R231). -/
structure MList where
  /-- capacity k | 17 | 08_muslin_selection R228 | reset none -/
  k : Nat
  /-- stored entries, at most 2k | LEnt each | 08_muslin_selection R231 | reset none -/
  ents : List LEnt
  /-- bound: V of the k-th entry of the last compaction that left k entries | 96 | 08_muslin_selection R231 | reset none -/
  bound : Option Nat
  deriving DecidableEq, Repr

/-- What a query is for. -/
inductive WalkKind where
  | search | insert | served
  deriving DecidableEq, Repr

/-- A query or an insert walk in progress. -/
structure Query where
  /-- kind: a command's query, an insert walk, a QUERY served for another node | 2 | 06_search_walk R168 R191, 14_twill_fabric R441 | reset none -/
  kind : WalkKind
  /-- command number, or ring sequence number of an insert walk, or requester key of a served QUERY | 64 | 06_search_walk R162 | reset none -/
  owner : Nat
  /-- partition | 6 | 06_search_walk R162 | reset none -/
  part : Nat
  /-- index handle | 6 | 06_search_walk R162 | reset none -/
  index : Nat
  /-- local epoch F | 48 | 06_search_walk R168 | reset none -/
  epoch : Nat
  /-- head(F) captured at admission | 64 | 05_index_layout R129 | reset none -/
  head : Nat
  /-- tail(F) captured at admission | 64 | 05_index_layout R129 | reset none -/
  tail : Nat
  /-- fp32 query vector | DIM words | 04_vector_formats R110 | reset none -/
  q : List W32
  /-- query sketch record | 160 bytes | 04_vector_formats R110 | reset none -/
  sketch : List Byte
  /-- filter terms | 64 each | 05_index_layout R146 | reset none -/
  filter : List Nat
  /-- TOPK | 17 | 06_search_walk R160 | reset none -/
  topk : Nat
  /-- LIST | 13 | 06_search_walk R160 | reset none -/
  list : Nat
  /-- BEAM | 4 | 06_search_walk R160 | reset none -/
  beam : Nat
  /-- RESCORE | 17 | 06_search_walk R160 | reset none -/
  rescore : Nat
  /-- MAX_ROUNDS, zero for none | 16 | 06_search_walk R160 | reset none -/
  maxRounds : Nat
  /-- DEADLINE in µs, zero for none | 20 | 06_search_walk R160 R189 | reset none -/
  deadline : Nat
  /-- the plan is SWEEP | 1 | 06_search_walk R183 | reset none -/
  sweep : Bool
  /-- sweep mask | 14 | 06_search_walk R184 | reset none -/
  mask : Nat
  /-- tile of its walker context | 6 | 06_search_walk R162 | reset none -/
  tile : Option Nat
  /-- number of its walker context on the tile | 15 | 06_search_walk R163, 07_lichen_units R198 | reset none -/
  ctx : Nat
  /-- tile-side Muslin unit that holds its lists | 4 | 08_muslin_selection R229 R247 | reset none -/
  unit : Nat
  /-- the context is one of a shared-pool tile | 1 | 02_structure_images R38 | reset none -/
  pool : Bool
  /-- its plan is made | 1 | 06_search_walk R162 R183 | reset none -/
  planned : Bool
  /-- the walk, or the code sweep, has ended | 1 | 06_search_walk R175 | reset none -/
  walkDone : Bool
  /-- the fresh-ring sweep has ended | 1 | 06_search_walk R175 | reset none -/
  freshDone : Bool
  /-- candidate queue | QEnt each | 06_search_walk R166 | reset none -/
  queue : List QEnt
  /-- visited filter: bits that are set | 262144 bits | 06_search_walk R167 | reset none -/
  visited : List Nat
  /-- frontier of the round in progress | 32 each | 06_search_walk R168 | reset none -/
  frontier : List Nat
  /-- rounds run | 16 | 06_search_walk R168 | reset none -/
  round : Nat
  /-- sketch key of the stream list's bound at the start of the round | 32 | 06_search_walk R170 | reset none -/
  listLast : Option Nat
  /-- remote slots of the round that have not returned: REQ_IDs | 48 each | 06_search_walk R172 | reset none -/
  remote : List Nat
  /-- remote answers of the round: slot, outcome, key, GID | list | 06_search_walk R172 | reset none -/
  answers : List (Nat × Nat × Nat × Nat)
  /-- candidates on their way to the stream list | LEnt each | 08_muslin_selection R231 | reset none -/
  arrivals : List LEnt
  /-- stream list | MList | 08_muslin_selection R228 | reset none -/
  stream : MList
  /-- node list | MList | 08_muslin_selection R228 | reset none -/
  node : MList
  /-- rescoring has begun: candidates whose exact vector is still to be read | LEnt each | 06_search_walk R186 | reset none -/
  reads : Option (List LEnt)
  /-- candidates whose read has completed | 17 | 06_search_walk R189 | reset none -/
  done : Nat
  /-- slots whose attribute word this query met damaged: they fail its filter | 32 each | 19_faults_recovery R594 | reset none -/
  noAttr : List Nat
  /-- slots whose adjacency record this query met damaged: they hold no used entry for it | 32 each | 19_faults_recovery R594 | reset none -/
  noAdj : List Nat
  /-- deadline passed | 1 | 06_search_walk R189 | reset none -/
  late : Bool
  /-- sketch-suspect | 1 | 07_lichen_units R226 | reset none -/
  suspect : Bool
  /-- a disagreement check failed | 1 | 04_vector_formats R118 | reset none -/
  disagree : Bool
  /-- a candidate was left out as unreadable | 1 | 06_search_walk R187 | reset none -/
  partial_ : Bool
  /-- status that another node or a fence has given, zero for none | 8 | 06_search_walk R172, 18_command_set R549 | reset none -/
  status : Nat
  /-- slot of an insert walk's item | 32 | 06_search_walk R191 | reset none -/
  slot : Nat
  /-- map generation that its requests carry | 16 | 15_composition_ownership R449 R460 | reset none -/
  mapgen : Nat
  /-- segments that no server answers for | list | 15_composition_ownership R471 | reset none -/
  deadSegs : List Nat
  deriving DecidableEq, Repr

/-- A cross-node merge (R238, R239). -/
structure Merge where
  /-- command number | 32 | 08_muslin_selection R239 | reset none -/
  cmd : Nat
  /-- merge Muslin unit | 2 | 08_muslin_selection R238 | reset none -/
  unit : Nat
  /-- nodes whose list is awaited | 17 each | 08_muslin_selection R239 | reset none -/
  wait : List Nat
  /-- lists that have arrived: node, status, entries | list | 08_muslin_selection R238 | reset none -/
  lists : List (Nat × Nat × List LEnt)
  /-- any node list is sketch-suspect | 1 | 08_muslin_selection R239 | reset none -/
  suspect : Bool
  deriving DecidableEq, Repr

/-- A chained or plain rerank in progress (R324, R547, R560). -/
structure Rerank where
  /-- command number | 32 | 18_command_set R560 | reset none -/
  cmd : Nat
  /-- candidates in input order: GID, slot or the null slot | 64 + 32 each | 18_command_set R560 | reset none -/
  cands : List LEnt
  /-- scores that have come back, by place | fp32 each | 11_model_execution R324 | reset none -/
  scores : Smap W32
  /-- query tokens | 32 each | 18_command_set R559 | reset none -/
  tokens : List Nat
  deriving DecidableEq, Repr

/-- Host interface, commands and queries. -/
structure HostState where
  /-- host memory as the device reads and writes it, T4, sorted by address | 8 per address | 12_memory_tiers R345 | reset 0 (DESIGN CHOICE 0, log entry 2) -/
  mem : Smap Byte
  /-- queue pairs not at their reset state, by device number | Qp each | 17_host_queues R507 | reset as Qp.reset -/
  qps : Smap Qp
  /-- functions not at their reset state | Fn each | 17_host_queues R503 | reset as Fn.reset -/
  fns : Smap Fn
  /-- MSI-X messages sent, newest first: function and vector | list | 17_host_queues R531 R533 | reset none -/
  msix : List (Nat × Nat)
  /-- admitted commands, by number | Cmd each | 17_host_queues R526 | reset none -/
  cmds : Smap Cmd
  /-- number of the next command | 32 | 17_host_queues R526 | reset 0 -/
  nextCmd : Nat
  /-- queries and insert walks, by number | Query each | 06_search_walk R162 | reset none -/
  queries : Smap Query
  /-- number of the next query | 32 | 06_search_walk R162 | reset 0 -/
  nextQuery : Nat
  /-- merges in progress | Merge each | 08_muslin_selection R238 | reset none -/
  merges : List Merge
  /-- reranks in progress | Rerank each | 11_model_execution R324 | reset none -/
  reranks : List Rerank
  /-- queries that wait for the next sweep batch: query number, of the code windows | list | 06_search_walk R173 | reset none -/
  sweepWait : List Nat
  /-- queries that wait for the next fresh-ring batch | list | 06_search_walk R175 | reset none -/
  freshWait : List Nat
  /-- HQ_LINK | 32 | 17_host_queues R501 | reset 0 -/
  link : W32
  /-- partition whose admission slot comes next | 6 | 17_host_queues R527 | reset 0 -/
  slotNext : Nat
  /-- doorbells kept while block HQ is OUT, oldest first: function, queue pair, completion doorbell, value | list | 19_faults_recovery R593 | reset none -/
  kept : List (Nat × Nat × Bool × W32)
  deriving DecidableEq, Repr

/-- A queue pair at reset. -/
def Qp.reset : Qp :=
  { st := .disabled, reenable := false, cause := 0, sqHead := 0, sqTail := 0, cqTail := 0, cqHead := 0, phase := true, fetched := [],
    exposedAt := [], deficit := 0, credit := 0, unconsumed := 0, running := 0, pendingInt := 0, pendErr := false, depthSample := 0,
    delaySample := 0, admitted := 0, completed := 0, cqBad := false, leaving := none, vis := [], inserted := [] }

/-- A function at reset. -/
def Fn.reset : Fn :=
  { unmasked := [], pba := [], gap := false, inGap := false, quiet := false, flr := false }

/-- Host interface at reset. -/
def HostState.reset : HostState :=
  { mem := [], qps := [], fns := [], msix := [], cmds := [], nextCmd := 0, queries := [],
    nextQuery := 0, merges := [], reranks := [], sweepWait := [], freshWait := [], link := 0, slotNext := 0, kept := [] }

end Sys2Proof.Machine
end

