-- ==== Sys2Proof/Machine/Store/Security.lean ====
section
/-! DEFINITION. The state of keys, fuses, measurements and re-encryption (16_isolation_security). -/
namespace Sys2Proof.Machine

/-- One key generation of a partition in the crypto engines: three AES-256-XTS key pairs of 64 bytes (R46, R486). -/
structure KeySet where
  /-- KEY_GEN | 32 | 16_isolation_security R486 | reset none -/
  gen : Nat
  /-- T3 key pair | 64 bytes | 16_isolation_security R483 | reset none -/
  t3 : List Byte
  /-- T5 key pair | 64 bytes | 16_isolation_security R483 | reset none -/
  t5 : List Byte
  /-- Twill key pair | 64 bytes | 16_isolation_security R483 | reset none -/
  twill : List Byte
  deriving DecidableEq, Repr

/-- The re-encryption of a partition (R487). -/
structure Rekey where
  /-- T3 sweep runs | 1 | 16_isolation_security SEC_P_REKEY | reset none -/
  t3Active : Bool
  /-- T3 watermark | 47 | 16_isolation_security R487 | reset none -/
  mark : Nat
  /-- end of the T3 allotment | 47 | 16_isolation_security R487 | reset none -/
  last : Nat
  /-- Felt still rewrites codewords under the older generation | 1 | 16_isolation_security R487 | reset none -/
  t5Active : Bool
  deriving DecidableEq, Repr

/-- State of an operator key slot's fuses (R496). -/
inductive SlotFuse where
  | unprovisioned | provisioned | revoked
  deriving DecidableEq, Repr

/-- Keys, fuses and measurements. -/
structure SecState where
  /-- keys of each partition: the generation in force | KeySet each | 16_isolation_security R486 | reset none -/
  keys : Smap KeySet
  /-- the generation before it, during re-encryption | KeySet each | 16_isolation_security R486 | reset none -/
  oldKeys : Smap KeySet
  /-- re-encryption of each partition | Rekey each | 16_isolation_security R487 | reset none -/
  rekey : Smap Rekey
  /-- operator key slots 0 to 3: state fuses | 2 each | 16_isolation_security R496 | reset as fused (DESIGN CHOICE unprovisioned, log entry 5) -/
  slots : Smap SlotFuse
  /-- operator key slots: fused key digest | 48 bytes each | 16_isolation_security R496 | reset as fused (DESIGN CHOICE none, log entry 5) -/
  digests : Smap (List Byte)
  /-- fused minimum SVN of images, models, firmware | 32 each | 16_isolation_security R496 | reset as fused (DESIGN CHOICE 0, log entry 5) -/
  svn : Smap Nat
  /-- fuse rows used of each kind | 7 each | 16_isolation_security R496 | reset as fused (DESIGN CHOICE 0, log entry 5) -/
  rows : Smap Nat
  /-- JTAG is fused off | 1 | 16_isolation_security R494 | reset as fused (DESIGN CHOICE true, log entry 5) -/
  jtagOff : Bool
  /-- key-encryption keys sealed in the SPI NOR, by slot | 32 bytes each | 16_isolation_security R484 | reset none (kept in the SPI NOR) -/
  kek : Smap (List Byte)
  /-- provisioning counter of each slot | 64 each | 16_isolation_security R484 | reset 0 (kept in the SPI NOR) -/
  counter : Smap Nat
  /-- M0 to M7 | 48 bytes each | 16_isolation_security R495 | reset 48 zero bytes -/
  meas : Smap (List Byte)
  /-- SEC_VIOL_INFO as latched | 32 | 16_isolation_security SEC_VIOL_INFO | reset 0 -/
  violInfo : W32
  deriving DecidableEq, Repr

/-- Security at reset. -/
def SecState.reset : SecState :=
  { keys := [], oldKeys := [], rekey := [], slots := [], digests := [], svn := [], rows := [], jtagOff := true,
    kek := [], counter := [], meas := [], violInfo := 0 }

end Sys2Proof.Machine
end

