-- ==== Sys2Proof/Machine/Store/Image.lean ====
section
/-! DEFINITION. The state of the image loader, of the configuration in force and of the partitions (02_structure_images). -/
namespace Sys2Proof.Machine

/-- The lifecycle states of a partition (R58), as IMG_PART_IND_DATA.STATE encodes them. -/
inductive PState where
  | absent | active | draining | drained | scrubbing
  deriving DecidableEq, Repr

/-- Where a staging slot stands (R51). -/
inductive SlotPhase where
  | verifying | pending
  deriving DecidableEq, Repr

/-- A whole configuration, as the records of an image give it: for each section type t and record index i the
record's little-endian value, under the key 65536 * t + i. A record not listed has its empty value (R35). -/
structure ImgCfg where
  /-- section records in force | record value each | 02_structure_images R34 R35 | reset none -/
  recs : Smap Nat
  deriving DecidableEq, Repr

/-- One of the two 16 MiB staging slots (R50, R51). -/
structure ImgSlot where
  /-- phase of the slot | verifying or pending | 02_structure_images R51 | reset slot empty -/
  phase : SlotPhase
  /-- the staged copy of the image | at most 16 MiB | 02_structure_images R50 | reset slot empty -/
  bytes : List Byte
  /-- SEQ of the image | 64 | 02_structure_images R32 | reset slot empty -/
  seq : Nat
  /-- target epoch T of the image | 48 | 02_structure_images R52 | reset slot empty -/
  target : Nat
  /-- configuration that the image leaves, once verified | as ImgCfg | 02_structure_images R49 | reset slot empty -/
  cfg : ImgCfg
  /-- the record keys that the image carries, for R56 | list | 02_structure_images R35 R56 | reset slot empty -/
  carried : List Nat
  /-- keys that verification unwrapped, by partition | KeySet each | 02_structure_images R46, 16_isolation_security R485 | reset slot empty -/
  keys : Smap KeySet
  /-- number of the stage request, for IMG_STATUS.STATE | 32 | 02_structure_images IMG_STATUS | reset slot empty -/
  req : Nat
  deriving DecidableEq, Repr

/-- The image loader and the partitions' lifecycle. -/
structure ImgState where
  /-- configuration in force | as ImgCfg | 02_structure_images R29 | reset empty -/
  cfg : ImgCfg
  /-- SEQ of the active image | 64 | 02_structure_images R49 | reset 0 -/
  activeSeq : Nat
  /-- an image has been applied | 1 | 02_structure_images R53, 21_power_clocks_startup R659 | reset false -/
  applied : Bool
  /-- staging slot 0 | ImgSlot | 02_structure_images R51 | reset empty -/
  slot0 : Option ImgSlot
  /-- staging slot 1 | ImgSlot | 02_structure_images R51 | reset empty -/
  slot1 : Option ImgSlot
  /-- number of the newest stage or abort request | 32 | 02_structure_images IMG_STATUS | reset 0 -/
  newest : Nat
  /-- IMG_STATUS.STATE | 4 | 02_structure_images IMG_STATUS | reset 0x0 -/
  reqState : Nat
  /-- IMG_MISSED_DOMAINS.COUNT | 8 | 02_structure_images IMG_MISSED_DOMAINS | reset 0x00 -/
  missedCount : Nat
  /-- state of each partition, ABSENT when not listed | 3 each | 02_structure_images R58 | reset ABSENT -/
  parts : Smap PState
  /-- virtual functions that are not enabled | 1 each | 02_structure_images R61 | reset all (PRESUMED disabled, as SR-IOV VF Enable resets, log entry 9) -/
  vfOff : List Nat
  /-- first epoch of each ACTIVE partition's present life | 48 each | 02_structure_images R58 | reset none -/
  firstEpoch : Smap Nat
  /-- windows still being scrubbed, with their former owner | list | 02_structure_images R58 R59 R60 | reset none -/
  scrubWin : Smap Nat
  /-- T3 ranges in GiB still being scrubbed: former owner, then base and size | list | 02_structure_images R58 R59 | reset none -/
  scrubDdr : Smap (Nat × Nat)
  /-- Sheet units still being scrubbed, with their former owner | list | 02_structure_images R58 R59 | reset none -/
  scrubSheet : Smap Nat
  /-- next step of each partition scrub, in the order of R367 | 3 each | 12_memory_tiers R367 | reset none -/
  scrubStep : Smap Nat
  /-- epochs of the last image under which each admitted command runs: old configurations still in use, by SEQ |
      as ImgCfg | 02_structure_images R55 | reset none -/
  oldCfgs : Smap ImgCfg
  deriving DecidableEq, Repr

/-- The image loader at reset. -/
def ImgState.reset : ImgState :=
  { cfg := ⟨[]⟩, activeSeq := 0, applied := false, slot0 := none, slot1 := none, newest := 0, reqState := 0, missedCount := 0, parts := [], vfOff := (List.range 64).drop 1,
    firstEpoch := [], scrubWin := [], scrubDdr := [], scrubSheet := [], scrubStep := [], oldCfgs := [] }

end Sys2Proof.Machine
end

