-- ==== Sys2Proof/Machine/Store/Lichen.lean ====
section
/-! DEFINITION. The state of the Lichen units, the stack sequencers and the scrubber (07_lichen_units). -/
namespace Sys2Proof.Machine

/-- A bank command (R202): its 8-byte header and its payload. -/
structure BankCmd where
  /-- header | 64 | 07_lichen_units R202 | reset none -/
  hdr : W64
  /-- payload | bytes | 07_lichen_units R202 | reset none -/
  payload : List Byte
  deriving DecidableEq, Repr

/-- An ordinary access or a GATHER that waits at a bank (R211). -/
structure BankReq where
  /-- number by which the requester knows the request | 32 | 07_lichen_units R211 | reset none -/
  tag : Nat
  /-- GATHER command, or none for an ordinary access | BankCmd | 07_lichen_units R203 | reset none -/
  gather : Option BankCmd
  /-- byte address in the package's windows, 2^30 * window + offset | 39 | 07_lichen_units R194 | reset none -/
  addr : Nat
  /-- bytes to read, zero for a write | 32 | 07_lichen_units R211 | reset none -/
  len : Nat
  /-- bytes to write | bytes | 07_lichen_units R211 | reset none -/
  wdata : List Byte
  deriving DecidableEq, Repr

/-- A row group outside CLEAN (R224). -/
inductive RgState where
  | suspect | repairing | failed
  deriving DecidableEq, Repr

/-- What a stack tracks of one damaged row group (R224, R226). -/
structure Damage where
  /-- window | 9 | 07_lichen_units R224 | reset none -/
  win : Nat
  /-- row group within the window | 18 | 07_lichen_units R224 | reset none -/
  rg : Nat
  /-- state | 2 | 07_lichen_units R224 | reset none -/
  st : RgState
  /-- number of its error record | 6 | 07_lichen_units R226 | reset none -/
  record : Nat
  deriving DecidableEq, Repr

/-- A result record of a sweep step (R205) in a bank's FIFO. -/
structure SweepRec where
  /-- SLOT_ID: slot or ring index | 32 | 07_lichen_units R205 | reset none -/
  slotId : Nat
  /-- A | 32 | 07_lichen_units R205 | reset none -/
  a : W32
  /-- QSLOT | 5 | 07_lichen_units R205 | reset none -/
  qslot : Nat
  /-- CTX of the query slot when the code passed: the walker context that takes the record | 21 | 07_lichen_units R198 | reset none -/
  ctx : Nat
  /-- UNSETTLED | 1 | 07_lichen_units R205 | reset none -/
  unsettled : Bool
  /-- FRESH | 1 | 07_lichen_units R205 | reset none -/
  fresh : Bool
  /-- SUSPECT | 1 | 07_lichen_units R205 | reset none -/
  suspect : Bool
  deriving DecidableEq, Repr

/-- A sweep batch in a stack's sequencer (R173, R175, R206). -/
structure SweepBatch where
  /-- partition | 6 | 06_search_walk R173 | reset none -/
  part : Nat
  /-- index handle | 6 | 06_search_walk R173 | reset none -/
  index : Nat
  /-- the batch sweeps the fresh ring | 1 | 06_search_walk R175 | reset none -/
  fresh : Bool
  /-- its queries, by query slot | list of query numbers | 06_search_walk R173 | reset none -/
  queries : List Nat
  /-- steps still to issue: window, its position in CODE_LIST, bank stripe, step kind | list | 07_lichen_units R206 | reset none -/
  todo : List (Nat × Nat × Nat × Nat)
  /-- row groups of the step at the front that each bank has streamed, where a step ended early | 4 each | 07_lichen_units R207 | reset none -/
  done : Smap Nat
  /-- ring range of a FRESH batch: LO and HI | 32 each | 07_lichen_units R204 | reset none -/
  range : Nat × Nat
  deriving DecidableEq, Repr

/-- One stack (R206 to R211). -/
structure Stack where
  /-- step in progress | BankCmd | 07_lichen_units R208 | reset none -/
  step : Option BankCmd
  /-- progress of the banks that have run their part of the step | 4 each | 07_lichen_units R207 R210 | reset none -/
  ran : Smap Nat
  /-- the step is one of the sequencer's own, for the first batch | 1 | 07_lichen_units R208 | reset false -/
  own : Bool
  /-- bank commands that wait for the step to end, oldest first | BankCmd each | 07_lichen_units R208 | reset none -/
  later : List BankCmd
  /-- banks whose gap is open | list | 07_lichen_units R210 R211 | reset none -/
  gapOpen : List Nat
  /-- threshold updates held until the step boundary: slot, the query it is for (none: whatever the slot holds), THRESH | list | 07_lichen_units R209 | reset none -/
  thresh : List (Nat × Option Nat × W32)
  /-- active batches, the next one to take a step first | list | 07_lichen_units R208 | reset none -/
  batches : List SweepBatch
  /-- row groups outside CLEAN | at most 64 | 07_lichen_units R224 | reset none -/
  damage : List Damage
  /-- next window and row group of the scrub pass | 2 numbers | 07_lichen_units R221 | reset 0 -/
  scrubPos : Nat
  deriving DecidableEq, Repr

/-- All Lichen stacks. -/
structure Lichen where
  /-- stored bits of T2, as 64-byte lines keyed by address div 64 | 512 each | 07_lichen_units R194, 12_memory_tiers R332 | reset 0 (DESIGN CHOICE 0, log entry 4) -/
  t2 : Smap Nat
  /-- CRC shadow table, key 2^18 * window + row group | 32 each | 07_lichen_units R219 | reset CRC of a zero row group (DESIGN CHOICE 0x98F94189, log entry 4) -/
  shadow : Smap Nat
  /-- guarded 32-byte segments that hold poison, by address div 32 | 1 each | 12_memory_tiers R360 | reset none -/
  t2poison : List Nat
  /-- query slots, key 32 * stack + slot | 144 bytes each | 07_lichen_units R198 | reset not VALID -/
  qslots : Smap (List Byte)
  /-- tag buffer of each bank, key 1024 * stack + bank: number of the stripe it holds, and its bytes | 4096 bytes each | 07_lichen_units R207 | reset empty -/
  tagBuf : Smap (Nat × List Byte)
  /-- result FIFO of each bank | 4096 records | 07_lichen_units R205 | reset empty -/
  fifo : Smap (List SweepRec)
  /-- the six stacks | Stack each | 07_lichen_units R206 | reset idle -/
  stk : Smap Stack
  /-- requests waiting at each bank, oldest first | BankReq each | 07_lichen_units R211 | reset none -/
  queue : Smap (List BankReq)
  /-- answers the banks returned: request tag, bytes | list | 07_lichen_units R203 R211 | reset none -/
  answers : Smap (List Byte)
  /-- real-time counter at each row group's last clean check, key 2^18 * window + row group | 64 each | 07_lichen_units R226 | reset 0 -/
  lastClean : Smap Nat
  /-- disagreement reports not yet checked: row group as 2^18 * window + row group, shard as 64 * partition + index, slot | list | 07_lichen_units R223 | reset none -/
  reports : List (Nat × Nat × Nat)
  /-- error records, 64 of 8 words, key 8 * record + word | 32 each | 07_lichen_units LCH_ERR_IND_DATA | reset 0 -/
  errRing : Smap W32
  /-- next error record to write | 6 | 07_lichen_units LCH_ERR_IND_ADDR | reset 0 -/
  errNext : Nat
  deriving DecidableEq, Repr

/-- An idle stack. -/
def Stack.idle : Stack :=
  { step := none, ran := [], own := false, later := [], gapOpen := [], thresh := [], batches := [], damage := [], scrubPos := 0 }

/-- The Lichen stacks at reset. -/
def Lichen.reset : Lichen :=
  { t2 := [], shadow := [], t2poison := [], qslots := [], tagBuf := [], fifo := [], stk := [], queue := [],
    answers := [], lastClean := [], reports := [], errRing := [], errNext := 0 }

end Sys2Proof.Machine
end

