-- ==== Sys2Proof/Machine/Store/Memory.lean ====
section
/-! DEFINITION. The state of Sheet memory, DDR5, the regulators, the swatch engines and the CXL.mem window (12_memory_tiers). -/
namespace Sys2Proof.Machine

/-- USE of a Sheet unit (MEM_S_UNIT.USE). -/
inductive SheetUse where
  | shared | weight | cache | scratch
  deriving DecidableEq, Repr

/-- A Sheet unit that is not device-shared cache (R336). -/
structure SheetUnit where
  /-- USE | 2 | 12_memory_tiers R336 | reset 0b00 -/
  use : SheetUse
  /-- OWNER | 7 | 12_memory_tiers R336 | reset 0x7E -/
  owner : Nat
  deriving DecidableEq, Repr

/-- A line in a Sheet cache unit (R338). -/
structure CacheLine where
  /-- unit | 7 | 12_memory_tiers R338 | reset none -/
  unit : Nat
  /-- way | 4 | 12_memory_tiers R338 | reset none -/
  way : Nat
  /-- written since it was last written back | 1 | 12_memory_tiers R338 | reset none -/
  dirty : Bool
  /-- pinned: a line of a SERVING shard's descriptor | 1 | 12_memory_tiers R339 | reset none -/
  pinned : Bool
  deriving DecidableEq, Repr

/-- A swatch move that is being repeated after a CRC mismatch (R341). -/
structure Move where
  /-- source local address | 47 | 12_memory_tiers R341 | reset none -/
  src : Nat
  /-- destination local address | 47 | 12_memory_tiers R341 | reset none -/
  dst : Nat
  /-- command that needs it; a number no command has stands for the device | 32 | 12_memory_tiers R341 | reset none -/
  cmd : Nat
  /-- partition whose command needs it, 0x7E for the device | 7 | 12_memory_tiers R341 | reset none -/
  part : Nat
  deriving DecidableEq, Repr

/-- Memory tiers outside the Lichen stacks and the flash. -/
structure MemState where
  /-- Sheet units that are not device-shared cache | SheetUnit each | 12_memory_tiers R336 | reset device-shared cache -/
  sheet : Smap SheetUnit
  /-- lines held in the cache units, by local address div 64 | CacheLine each | 12_memory_tiers R338 | reset none -/
  lines : Smap CacheLine
  /-- T3 outside the index structures, as its owner reads it (log entry 30), as 64-byte lines keyed by address div 64 | 512 each | 12_memory_tiers R332 | reset 0 (DESIGN CHOICE 0, log entry 4) -/
  t3 : Smap Nat
  /-- stored bits of Sheet memory, as 64-byte lines keyed by offset div 64 | 512 each | 12_memory_tiers R332 | reset 0 (DESIGN CHOICE 0, log entry 4) -/
  t1 : Smap Nat
  /-- poisoned T3 lines, by address div 64 | 1 each | 12_memory_tiers R360 | reset none -/
  t3poison : List Nat
  /-- bucket of each partition and tier, key 6 * partition + tier | integer each | 12_memory_tiers R364 | reset 0 -/
  bucket : Smap Int
  /-- effective rate E of each partition and tier | 24 each | 12_memory_tiers R363 | reset 0 -/
  rate : Smap Nat
  /-- partitions and tiers for which a transfer waits for tokens | list | 12_memory_tiers R364 | reset none -/
  waiting : List Nat
  /-- swatch moves being repeated | Move each | 12_memory_tiers R341 | reset none -/
  moves : List Move
  /-- installed DDR in GiB, once trained | 12 | 12_memory_tiers R352 | reset 0 -/
  ddrGib : Nat
  /-- training attempts of each channel | 2 each | 12_memory_tiers R356 | reset 0 -/
  trainTries : Smap Nat
  /-- corrected errors of each row within the patrol pass, key 2^32 * channel + row | 4 each | 12_memory_tiers R359 | reset 0 -/
  rowCe : Smap Nat
  /-- rows recorded for a hard repair at the next cold start, key as rowCe | list | 12_memory_tiers R359 | reset none (kept by Usnea in the SPI NOR) -/
  hardPpr : List Nat
  /-- position of each channel's patrol pass | 32 each | 12_memory_tiers R361 | reset 0 -/
  patrol : Smap Nat
  /-- stored training results are present in the SPI NOR | 1 | 12_memory_tiers R355 | reset false -/
  trainStored : Bool
  /-- CXL.mem window size in GiB in force | 9 | 12_memory_tiers R349 | reset 0 -/
  cxlGib : Nat
  /-- the host has committed a decoder for the window | 1 | 12_memory_tiers MEM_CXL, 17_host_queues R506 | reset false -/
  cxlDecoded : Bool
  /-- base host address of the committed decoder | 64 | 17_host_queues R506 | reset 0 -/
  hdmBase : Nat
  /-- host accesses of the window that wait for the regulator: address, bytes to read, write data or none | list | 12_memory_tiers R351 | reset none -/
  cxlWait : List (Nat × Nat × List Byte)
  /-- answer of the latest CXL.mem or BAR4 read: bytes, and poison | bytes | 12_memory_tiers R360 | reset none -/
  cxlData : List Byte × Bool
  deriving DecidableEq, Repr

/-- Memory tiers at reset. -/
def MemState.reset : MemState :=
  { sheet := [], lines := [], t3 := [], t1 := [], t3poison := [], bucket := [],
    rate := [], waiting := [], moves := [], ddrGib := 0, trainTries := [], rowCe := [],
    hardPpr := [], patrol := [], trainStored := false, cxlGib := 0, cxlDecoded := false, hdmBase := 0, cxlWait := [],
    cxlData := ([], false) }

end Sys2Proof.Machine
end

