-- ==== Sys2Proof/Machine/Store/Model.lean ====
section
/-! DEFINITION. The state of the model store, the stream lanes, the batches and the model groups (10_bracken_engine, 11_model_execution). -/
namespace Sys2Proof.Machine

/-- The three roles a model can be bound in (R47). -/
inductive Role where
  | doc | query | rerank
  deriving DecidableEq, Repr

/-- A binding in force in an epoch (R47): the record named it and its image was present and verified at the boundary. -/
structure InForce where
  /-- partition | 6 | 02_structure_images R47 | reset none -/
  part : Nat
  /-- ROLE | 8 | 02_structure_images R47 | reset none -/
  role : Nat
  /-- PROFILE | 8 | 10_bracken_engine R297 | reset none -/
  profile : Nat
  /-- DIGEST | 48 bytes | 02_structure_images R47 | reset none -/
  digest : List Byte
  deriving DecidableEq, Repr

/-- A copy of a model's weights in USE 0x5 windows (R307). -/
structure Resident where
  /-- DIGEST of the image | 48 bytes | 11_model_execution R305 | reset none -/
  digest : List Byte
  /-- the copy is complete | 1 | 11_model_execution R307 | reset none -/
  done : Bool
  /-- where the copy lies in T2, in order: window * 2^30 + offset, and bytes; none while no window holds it | 39, 31 each | 11_model_execution R307 | reset none -/
  spans : List (Nat × Nat)
  /-- weight swatches that hold poison | list | 19_faults_recovery R595 | reset none -/
  poison : List Nat
  /-- released after a failed refetch | 1 | 19_faults_recovery R596 | reset none -/
  lost : Bool
  deriving DecidableEq, Repr

/-- One sequence that waits for a batch or is in one. -/
structure Seqn where
  /-- command, and the entry of the command it belongs to | 2 numbers | 11_model_execution R313 | reset none -/
  src : Nat × Nat
  /-- tokens | 32 each | 11_model_execution R315 | reset none -/
  tokens : List Nat
  /-- slot of the paired candidate of a rerank | 32 | 11_model_execution R324 | reset none -/
  slot : Nat
  deriving DecidableEq, Repr

/-- A batch (R313). -/
structure Batch where
  /-- batch number | 32 | 11_model_execution R313 | reset none -/
  num : Nat
  /-- DIGEST of its model | 48 bytes | 11_model_execution R313 | reset none -/
  digest : List Byte
  /-- role | 2 | 11_model_execution R313 | reset none -/
  role : Role
  /-- partition | 6 | 11_model_execution R313 | reset none -/
  part : Nat
  /-- sequences, oldest first | at most 16 | 11_model_execution R313 | reset none -/
  seqs : List Seqn
  /-- the batch is closed | 1 | 11_model_execution R313 | reset none -/
  closed : Bool
  /-- cluster that runs it | 4 | 11_model_execution R311 | reset none -/
  cluster : Option Nat
  /-- lane whose round it takes part in | 8 | 11_model_execution R311 | reset none -/
  lane : Option Nat
  /-- it has been run again from refetched weights | 1 | 19_faults_recovery R595 | reset none -/
  rerun : Bool
  /-- node that leads the batch of a split model, where another member does | 17 | 11_model_execution R328 | reset none -/
  lead : Option Nat
  /-- bytes of partial sums sent to each rank so far | 64 each | 11_model_execution R327 | reset none -/
  sent : List Nat
  deriving DecidableEq, Repr

/-- A stream lane (R309, R310). -/
structure Lane where
  /-- DIGEST of the model that streams, none when free | 48 bytes | 11_model_execution R309 | reset none -/
  digest : Option (List Byte)
  /-- halves that every cluster of the round has released | 32 | 11_model_execution R310 | reset none -/
  pos : Nat
  /-- bytes of the model that the clusters have not released yet | 64 | 11_model_execution R310 | reset none -/
  left : Nat
  deriving DecidableEq, Repr

/-- A split-model group (R325). -/
structure Group where
  /-- MODEL_ID | 64 | 11_model_execution R325 | reset none -/
  modelId : Nat
  /-- member nodes in rank order | 17 each | 11_model_execution R325 | reset none -/
  nodes : List Nat
  /-- target epoch | 48 | 11_model_execution R325 | reset none -/
  target : Nat
  /-- MODEL_GROUP command that waits for the target boundary | 32 | 18_command_set R574 | reset none -/
  cmd : Option Nat
  deriving DecidableEq, Repr

/-- Partial sums delivered by a member (R326 to R328). -/
structure Partial where
  /-- group | 32 | 11_model_execution R327 | reset none -/
  group : Nat
  /-- rank that sent them | 3 | 11_model_execution R327 | reset none -/
  rank : Nat
  /-- REQ_ID of the message | 48 | 14_twill_fabric R432 | reset none -/
  req : Nat
  /-- payload | bytes | 11_model_execution R327 | reset none -/
  payload : List Byte
  deriving DecidableEq, Repr

/-- Models, batches, lanes and groups. -/
structure ModelState where
  /-- model store in flash: verified images | bytes each | 11_model_execution R306, 13_felt_flash R387 | reset none (kept in flash over resets) -/
  store : List (List Byte)
  /-- bindings in force, by epoch in use | InForce lists | 02_structure_images R47, 11_model_execution R308 | reset none -/
  bound : Smap (List InForce)
  /-- copies in T2 | Resident each | 11_model_execution R307 | reset none -/
  resident : List Resident
  /-- bindings that are unavailable, with the recorded cause, key 4 * partition + role | 8 each | 11_model_execution R307 | reset none -/
  unavail : Smap Nat
  /-- batches forming, waiting or running | Batch each | 11_model_execution R313 | reset none -/
  batches : List Batch
  /-- next batch number | 32 | 11_model_execution R313 | reset 0 -/
  nextBatch : Nat
  /-- stream lanes | Lane each | 11_model_execution R309 | reset free -/
  lanes : Smap Lane
  /-- model groups in force | Group each | 11_model_execution R325 | reset none -/
  groups : Smap Group
  /-- model groups that wait for their target epoch, in order of their commands: group and its record | list | 11_model_execution R325 | reset none -/
  forming : List (Nat × Group)
  /-- partial sums received and not yet used | Partial each | 11_model_execution R327 | reset none -/
  partials : List Partial
  /-- models released after a failed refetch: digests | 48 bytes each | 19_faults_recovery R596 | reset none -/
  lost : List (List Byte)
  deriving DecidableEq, Repr

/-- Models at reset. -/
def ModelState.reset : ModelState :=
  { store := [], bound := [], resident := [], unavail := [], batches := [], nextBatch := 0, lanes := [],
    groups := [], forming := [], partials := [], lost := [] }

end Sys2Proof.Machine
end

