-- ==== Sys2Proof/Machine/Store/Power.lean ====
section
/-! DEFINITION. The state of the always-on domain: start-up, pins, the real-time counter, clock domains and the power
controller (21_power_clocks_startup, 22_electrical_package). -/
namespace Sys2Proof.Machine

/-- Start-up stages (R656). -/
inductive Stage where
  | aon | rom | firstStage | runtime | mainPower | memory | media | imageWait | rebuild | running | halted
  deriving DecidableEq, Repr

/-- The kinds of the latest reset (PWR_BOOT.LAST_RESET). -/
inductive ResetKind where
  | cold | warm | warmTrip
  deriving DecidableEq, Repr

/-- Power states of a domain (R641). -/
inductive PwrSt where
  | run | gated | off
  deriving DecidableEq, Repr

/-- A clock domain (R638, R641). A domain not listed runs at its maximum. -/
structure Domain where
  /-- power state | 2 | 21_power_clocks_startup R641 | reset RUN -/
  st : PwrSt
  /-- MHz by which the power controller holds the clock down | 12 | 21_power_clocks_startup R645 R646 | reset 0 -/
  cutPower : Nat
  /-- MHz by which a hot sensor holds the clock down | 12 | 21_power_clocks_startup R650 | reset 0 -/
  cutTemp : Nat
  /-- clock cap of a rail fault: droop or overvoltage | 12 | 21_power_clocks_startup R648 R649 | reset none -/
  railCap : Option Nat
  /-- PWR_D_WAKES | 32 | 21_power_clocks_startup PWR_D_WAKES | reset 0 -/
  wakes : W32
  deriving DecidableEq, Repr

/-- The always-on domain. -/
structure PowerState where
  /-- start-up stage | 4 | 21_power_clocks_startup R656 | reset AON -/
  stage : Stage
  /-- halt cause | 4 | 21_power_clocks_startup R656 | reset 0x0 -/
  halt : Nat
  /-- kind of the latest reset | 2 | 21_power_clocks_startup PWR_BOOT | reset cold -/
  lastReset : ResetKind
  /-- AON_PWROK is high | 1 | 22_electrical_package R672 | reset true: the state is that of a device whose always-on domain has started -/
  aonOk : Bool
  /-- the device is held in cold reset: AON_PWROK low, RESET_N low, or 50 MHz clock lost | 1 | 22_electrical_package R670 | reset false -/
  held : Bool
  /-- the 50 MHz clock is lost | 1 | 22_electrical_package R670 | reset false -/
  clockLost : Bool
  /-- MAIN_EN | 1 | 22_electrical_package R672 | reset low -/
  mainEn : Bool
  /-- MAIN_PWROK | 1 | 22_electrical_package R672 | reset low -/
  mainOk : Bool
  /-- PERST_N is deasserted | 1 | 22_electrical_package R672 | reset asserted -/
  perst : Bool
  /-- THERMTRIP_N is asserted | 1 | 22_electrical_package R672 | reset released -/
  thermtrip : Bool
  /-- host link training has started | 1 | 21_power_clocks_startup R657 | reset false -/
  linkTrains : Bool
  /-- real-time counter when the latest trip happened | 64 | 21_power_clocks_startup R651 | reset none -/
  tripAt : Option Nat
  /-- main rails have stopped after MAIN_PWROK fell: start-up waits for a reset | 1 | 22_electrical_package R666 | reset false -/
  stopped : Bool
  /-- real-time counter at the last 32.768 kHz edge: V | 64 | 21_power_clocks_startup R640 | reset 0 -/
  rtcBase : Nat
  /-- 50 MHz cycles since that edge: k | 64 | 21_power_clocks_startup R640 | reset 0 -/
  rtcCycles : Nat
  /-- the 32.768 kHz oscillator has stopped | 1 | 21_power_clocks_startup R640 | reset false -/
  oscStopped : Bool
  /-- domains not running at their maximum or that have been gated | Domain each | 21_power_clocks_startup R638 R641 | reset as Domain.initial -/
  domains : Smap Domain
  /-- mean package power over the latest 1 ms, W | 10 | 21_power_clocks_startup PWR_STATUS | reset 0 -/
  powerW : Nat
  /-- ratio of regulator input power to estimate, per 1024, from the latest calibration | 16 | 21_power_clocks_startup R645 | reset 1024 (DESIGN CHOICE 1024, log entry 7) -/
  scale : Nat
  /-- Adedan-form row in force: power limit and clock cap percent | 10 and 7 | 21_power_clocks_startup R652 | reset none -/
  adedan : Option (Nat × Nat)
  /-- hottest sensor, 1/16 °C | 16, signed | 21_power_clocks_startup PWR_STATUS | reset 0 -/
  hottest : Int
  /-- sensors at or above 105 °C that have not fallen below 103 °C | list | 21_power_clocks_startup R650 | reset none -/
  hot : List Nat
  /-- samples of the temperature comparators since reset, from which the 100 µs and the 1 ms are counted | 64 | 21_power_clocks_startup R650 | reset 0 -/
  samples : Nat
  /-- consecutive samples at or above 115 °C of each sensor | 2 each | 21_power_clocks_startup R651 | reset 0 -/
  tripCount : Smap Nat
  /-- rails above their overvoltage threshold | list | 21_power_clocks_startup R649 | reset none -/
  overvolt : List Nat
  /-- rail voltages as set, mV, by the row of R653: AVSBus rails 0 to 2, PMBus-controlled rails 3 to 6 | 11 each | 21_power_clocks_startup R649 R653, 22_electrical_package R660 | reset none set -/
  avs : Smap Nat
  /-- regulators that fault or do not answer | list | 21_power_clocks_startup R653 | reset none -/
  badRegs : List Nat
  /-- telemetry of each regulator as last read: VIN IIN VOUT IOUT PIN TEMP STATUS | words each | 21_power_clocks_startup R653 | reset none -/
  telemetry : Smap (List Nat)
  /-- tiles and clusters in deep sleep, by domain | list | 21_power_clocks_startup R643 | reset none -/
  deep : List Nat
  /-- parts of stage MEMORY that are complete: 0 DDR, 1 stack PHYs, 2 NAND | list | 21_power_clocks_startup R656 | reset none -/
  memDone : List Nat
  /-- a full image has been staged to the domains and its keys loaded for start-up: its slot | 1 | 21_power_clocks_startup R659 | reset none -/
  startSlot : Option Nat
  deriving DecidableEq, Repr

/-- A domain that runs at its maximum. -/
def Domain.initial : Domain := { st := .run, cutPower := 0, cutTemp := 0, railCap := none, wakes := 0 }

/-- The always-on domain at reset: AON_PWROK has risen and stage AON begins. -/
def PowerState.reset : PowerState :=
  { stage := .aon, halt := 0, lastReset := .cold, aonOk := true, held := false, clockLost := false, mainEn := false,
    mainOk := false, perst := false, thermtrip := false, linkTrains := false, tripAt := none, stopped := false,
    rtcBase := 0, rtcCycles := 0, oscStopped := false, domains := [], powerW := 0, scale := 1024, adedan := none,
    hottest := 0, hot := [], samples := 0, tripCount := [], overvolt := [], avs := [], badRegs := [], telemetry := [], deep := [],
    memDone := [], startSlot := none }

end Sys2Proof.Machine
end

