-- ==== Sys2Proof/Machine/Store/Ras.lean ====
section
/-! DEFINITION. The state of the RAS block: service states of units, the fault ring and the fault ledgers (19_faults_recovery). -/
namespace Sys2Proof.Machine

/-- The service states of a unit (R582). -/
inductive SvcSt where
  | inService | draining | out | returning | waiting | retired
  deriving DecidableEq, Repr

/-- What the RAS block keeps of one unit (R581 to R583, R586). -/
structure UnitRec where
  /-- service state | 3 | 19_faults_recovery R582 | reset IN_SERVICE, or RETIRED when the retired table names the unit -/
  st : SvcSt
  /-- REENABLE_PENDING | 1 | 19_faults_recovery R583 | reset 0 -/
  reenable : Bool
  /-- TRIES: failed returns | 2 | 19_faults_recovery R582 | reset 0 -/
  tries : Nat
  /-- validity generation | 32 | 19_faults_recovery R581 | reset 0 at manufacture; no reset sets it back -/
  vgen : W32
  /-- faults since start-up, saturating | 32 | 19_faults_recovery RAS_U_FAULTS | reset 0 -/
  faults : Nat
  /-- class of the latest fault | 8 | 19_faults_recovery RAS_U_STATE | reset 0x00 -/
  lastClass : Nat
  /-- spare that stands in for the unit | 13 | 19_faults_recovery R586 | reset none -/
  standin : Option Nat
  /-- the unit entered OUT by a fault or a failed return, so AUTO_RETURN applies | 1 | 19_faults_recovery R582 | reset false -/
  auto : Bool
  /-- the PREPARE of the next boundary found the unit WAITING | 1 | 19_faults_recovery R582 R584 | reset false -/
  joins : Bool
  deriving DecidableEq, Repr

/-- A record of a fault ledger or of the device fault ring (R600). -/
structure LRec where
  /-- LSEQ | 64 | 19_faults_recovery R600 | reset none -/
  lseq : Nat
  /-- TYPE: 1 COMPLETION, 2 OUTCOME, 3 FAULT | 8 | 19_faults_recovery R600 | reset none -/
  typ : Nat
  /-- CAUSE | 8 | 19_faults_recovery R599 R600 | reset none -/
  cause : Nat
  /-- FUNCTION | 8 | 19_faults_recovery R600 | reset none -/
  fn : Nat
  /-- QP | 16 | 19_faults_recovery R600 | reset none -/
  qp : Nat
  /-- ENTRY | 16 | 19_faults_recovery R600 | reset none -/
  entry : Nat
  /-- RTC | 64 | 19_faults_recovery R600 | reset none -/
  rtc : Nat
  /-- REF | 64 | 19_faults_recovery R600 | reset none -/
  ref : Nat
  /-- BODY | 32 bytes | 19_faults_recovery R600 | reset none -/
  body : List Byte
  /-- a LEDGER_READ has returned the record | 1 | 19_faults_recovery R603 | reset none -/
  read : Bool
  /-- index handle of an OUTCOME record's entry, for the rewriting of STATE | 6 | 19_faults_recovery R602 | reset none -/
  index : Option Nat
  deriving DecidableEq, Repr

/-- A partition's fault ledger (R600, R603). -/
structure Ledger where
  /-- LSEQ the next record takes | 64 | 19_faults_recovery R600 | reset 0 -/
  next : Nat
  /-- records in the ring, oldest first | at most 16384 of 64 bytes | 19_faults_recovery R600 | reset none -/
  recs : List LRec
  deriving DecidableEq, Repr

/-- The RAS block. -/
structure RasState where
  /-- units not at their initial record, key 8192 * kind + unit | UnitRec each | 19_faults_recovery R582 R587 | reset as UnitRec.initial -/
  units : Smap UnitRec
  /-- table of RETIRED units in the SPI NOR, keys as units | list | 19_faults_recovery R585 | reset kept (DESIGN CHOICE empty at manufacture, log entry 5) -/
  retired : List Nat
  /-- device fault ring, oldest overwritten, by record number | 256 of 64 bytes | 19_faults_recovery RAS_FLT_IND_ADDR | reset 0 -/
  ring : Smap LRec
  /-- device fault records written so far; the next goes to place ringNext mod 256 | 64 | 19_faults_recovery RAS_FLT_IND_ADDR | reset 0 -/
  ringNext : Nat
  /-- fault ledgers by partition | Ledger each | 19_faults_recovery R600 | reset empty -/
  ledgers : Smap Ledger
  /-- faults that a running command has met: command number, partition, LSEQ of the FAULT record | list | 19_faults_recovery R600 | reset none -/
  cmdFaults : List (Nat × Nat × Nat)
  /-- RAS_CMD_STATUS.RESULT | 2 | 19_faults_recovery RAS_CMD_STATUS | reset 0b00 -/
  result : Nat
  /-- KIND of the latest command | 5 | 19_faults_recovery RAS_CMD_STATUS | reset 0 -/
  kind : Nat
  /-- UNIT of the latest command | 13 | 19_faults_recovery RAS_CMD_STATUS | reset 0 -/
  unit : Nat
  /-- CMD of the latest command, from which BUSY follows | 3 | 19_faults_recovery RAS_CMD_STATUS | reset 0 -/
  cmd : Nat
  /-- spares drawn at PREPARE that begin to serve at the boundary: faulted unit key, spare index | list | 19_faults_recovery R586 | reset none -/
  drawn : List (Nat × Nat)
  /-- records that wait for the persistent log: partition, record | at most 65536 | 19_faults_recovery R604 R606 | reset none -/
  logWait : List (Nat × LRec)
  /-- records at the front of those that waited through a restart of Usnea | 17 | 19_faults_recovery R606 | reset 0 -/
  logHeld : Nat
  /-- lanes of each die-to-die link that a spare has replaced | at most 4 each | 19_faults_recovery R587 | reset none -/
  d2d : Smap (List Nat)
  deriving DecidableEq, Repr

/-- A unit that nothing has touched. -/
def UnitRec.initial : UnitRec :=
  { st := .inService, reenable := false, tries := 0, vgen := 0, faults := 0, lastClass := 0, standin := none,
    auto := false, joins := false }

/-- An empty ledger. -/
def Ledger.empty : Ledger := { next := 0, recs := [] }

/-- The RAS block at reset. -/
def RasState.reset : RasState :=
  { units := [], retired := [], ring := [], ringNext := 0, ledgers := [], cmdFaults := [], result := 0,
    kind := 0, unit := 0, cmd := 0, drawn := [], logWait := [], logHeld := 0, d2d := [] }

end Sys2Proof.Machine
end

