-- ==== Sys2Proof/Machine/State.lean ====
section
/-! DEFINITION. The state of the block, its reset value, and the ways a step can stop. -/
namespace Sys2Proof.Machine

/-- Ways in which a step faults. The spec gives every command of the block an effect, and what is wrong with a command
it reports in the state (a completion status, an event bit, a write error), so no fault exists. -/
inductive Fault where
  deriving DecidableEq, Repr

/-- Ways in which the model refuses a command. -/
inductive Refusal where
  /-- Raised by the dispatch alone, for a command that has no meaning yet, named by its row. Safe. -/
  | notModelled (mnemonic : String)
  deriving DecidableEq, Repr

/-- The whole state of the Octeo and of the host memory it works on. -/
structure State where
  /-- registers and their write-error, event and strobe machinery | RegFile | 03_register_conventions R62 R71 R80 R84 | reset RegFile.reset -/
  regs : RegFile
  /-- image loader and partitions | ImgState | 02_structure_images R29 R58 | reset ImgState.reset -/
  img : ImgState
  /-- host interface, commands and queries | HostState | 17_host_queues R507 | reset HostState.reset -/
  host : HostState
  /-- index shards, key 64 * partition + index handle | Shard each | 05_index_layout R121 | reset none -/
  shards : Smap Shard
  /-- Lichen stacks | Lichen | 07_lichen_units R194 | reset Lichen.reset -/
  lichen : Lichen
  /-- epoch sequencer, pins, journals | EpochState | 09_epochs_updates R248 | reset EpochState.reset -/
  epoch : EpochState
  /-- models, batches, lanes, groups | ModelState | 11_model_execution R305 | reset ModelState.reset -/
  model : ModelState
  /-- Sheet memory, DDR5, regulators | MemState | 12_memory_tiers R332 | reset MemState.reset -/
  mem : MemState
  /-- flash | FeltState | 13_felt_flash R369 | reset FeltState.reset -/
  felt : FeltState
  /-- Twill ports, router, requests | Twill | 14_twill_fabric R404 | reset Twill.reset -/
  twill : Twill
  /-- compositions and tokens | OwnState | 15_composition_ownership R445 R461 | reset OwnState.reset -/
  own : OwnState
  /-- keys, fuses, measurements | SecState | 16_isolation_security R483 R495 | reset SecState.reset -/
  sec : SecState
  /-- service states, fault ring, ledgers | RasState | 19_faults_recovery R582 R600 | reset RasState.reset -/
  ras : RasState
  /-- Usnea | UsneaState | 20_usnea_management R607 | reset UsneaState.reset -/
  usnea : UsneaState
  /-- always-on domain, clocks, power | PowerState | 21_power_clocks_startup R638 R640 | reset PowerState.reset -/
  power : PowerState
  /-- the model's own field: how many free values have been drawn | counter | not in the spec | reset 0 (DESIGN CHOICE 0, log entry 8) -/
  free : Nat
  /-- the model's own field: commands that wait, first in first out | list | not in the spec | reset empty -/
  pending : List Instr
  deriving DecidableEq, Repr

/-- The device right after a cold reset, with AON_PWROK high: stage AON begins (R656, R691). -/
def State.reset : State :=
  { regs := .reset, img := .reset, host := .reset, shards := [], lichen := .reset, epoch := .reset, model := .reset,
    mem := .reset, felt := .reset, twill := .reset, own := .reset, sec := .reset, ras := .reset, usnea := .reset,
    power := .reset, free := 0, pending := [] }

end Sys2Proof.Machine
end

