-- ==== Sys2Proof/Machine/Ops.lean ====
section
/-! DEFINITION. The named operations on sparse tables, bit fields, byte strings, host memory and the real-time counter. -/
namespace Sys2Proof

/-! ### Sparse tables -/

/-- Entry of a table under a key. -/
def Smap.get {α : Type} : Smap α → Nat → Option α
  | [], _ => none
  | (k, v) :: t, i => if i = k then some v else if i < k then none else Smap.get t i

/-- Entry of a table under a key, or the default. -/
def Smap.getD {α : Type} (m : Smap α) (i : Nat) (d : α) : α := (m.get i).getD d

/-- The table with an entry written. -/
def Smap.put {α : Type} : Smap α → Nat → α → Smap α
  | [], i, x => [(i, x)]
  | (k, v) :: t, i, x =>
    if i = k then (k, x) :: t else if i < k then (i, x) :: (k, v) :: t else (k, v) :: Smap.put t i x

/-- The table with an entry removed. -/
def Smap.del {α : Type} : Smap α → Nat → Smap α
  | [], _ => []
  | (k, v) :: t, i => if i = k then t else if i < k then (k, v) :: t else (k, v) :: Smap.del t i

/-- The table with one value written under rising keys, in one pass; the count bounds its steps. -/
def Smap.putRun {α : Type} (x : α) : Nat → List Nat → Smap α → Smap α
  | 0, _, m => m
  | _ + 1, [], m => m
  | n + 1, i :: l, [] => (i, x) :: Smap.putRun x n l []
  | n + 1, i :: l, (k, v) :: t =>
    if i < k then (i, x) :: Smap.putRun x n l ((k, v) :: t)
    else if i = k then (i, x) :: Smap.putRun x n l t
    else (k, v) :: Smap.putRun x n (i :: l) t

/-- A list of keys cut where it does not rise. -/
def risingRuns : List Nat → List (List Nat)
  | [] => []
  | i :: l => match risingRuns l with
    | (j :: r) :: t => if i < j then (i :: j :: r) :: t else [i] :: (j :: r) :: t
    | t => [i] :: t

/-- The table with one value written under many keys. -/
def Smap.putAll {α : Type} (m : Smap α) (l : List Nat) (x : α) : Smap α :=
  (risingRuns l).foldl (fun m r => Smap.putRun x (r.length + m.length) r m) m

/-- Canonical write: an entry equal to the default is not kept. -/
def Smap.store {α : Type} [DecidableEq α] (d : α) (m : Smap α) (i : Nat) (x : α) : Smap α :=
  if x = d then m.del i else m.put i x

/-- The table with one entry changed; an entry not listed starts from the default. -/
def Smap.adj {α : Type} (m : Smap α) (i : Nat) (d : α) (f : α → α) : Smap α := m.put i (f (m.getD i d))

/-- Change of an entry that is listed. -/
def Smap.upd {α : Type} (m : Smap α) (i : Nat) (f : α → α) : Smap α :=
  match m.get i with
  | some x => m.put i (f x)
  | none => m

/-- The table has an entry under the key. -/
def Smap.has {α : Type} (m : Smap α) (i : Nat) : Bool := (m.get i).isSome

/-- Keys strictly rise. -/
def Smap.wf {α : Type} : Smap α → Bool
  | [] => true
  | [_] => true
  | (k, _) :: (k', v') :: t => decide (k < k') && Smap.wf ((k', v') :: t)

end Sys2Proof

namespace Sys2Proof.Machine
open Sys2Proof

/-- Memory in canonical form: keys strictly rise and no entry equals what an unlisted address reads as. -/
def memWf {α : Type} [DecidableEq α] (d : α) (m : Smap α) : Bool := m.wf && m.all (fun e => decide (e.2 ≠ d))

/-! ### Updates of the parts of the state -/

/-- The state with its `regs` part changed. -/
def State.mapRegs (s : State) (f : RegFile → RegFile) : State := { s with regs := f s.regs }
/-- The state with its `img` part changed. -/
def State.mapImg (s : State) (f : ImgState → ImgState) : State := { s with img := f s.img }
/-- The state with its `host` part changed. -/
def State.mapHost (s : State) (f : HostState → HostState) : State := { s with host := f s.host }
/-- The state with its `lichen` part changed. -/
def State.mapLichen (s : State) (f : Lichen → Lichen) : State := { s with lichen := f s.lichen }
/-- The state with its `epoch` part changed. -/
def State.mapEpoch (s : State) (f : EpochState → EpochState) : State := { s with epoch := f s.epoch }
/-- The state with its `model` part changed. -/
def State.mapModel (s : State) (f : ModelState → ModelState) : State := { s with model := f s.model }
/-- The state with its `mem` part changed. -/
def State.mapMem (s : State) (f : MemState → MemState) : State := { s with mem := f s.mem }
/-- The state with its `felt` part changed. -/
def State.mapFelt (s : State) (f : FeltState → FeltState) : State := { s with felt := f s.felt }
/-- The state with its `twill` part changed. -/
def State.mapTwill (s : State) (f : Twill → Twill) : State := { s with twill := f s.twill }
/-- The state with its `own` part changed. -/
def State.mapOwn (s : State) (f : OwnState → OwnState) : State := { s with own := f s.own }
/-- The state with its `sec` part changed. -/
def State.mapSec (s : State) (f : SecState → SecState) : State := { s with sec := f s.sec }
/-- The state with its `ras` part changed. -/
def State.mapRas (s : State) (f : RasState → RasState) : State := { s with ras := f s.ras }
/-- The state with its `usnea` part changed. -/
def State.mapUsnea (s : State) (f : UsneaState → UsneaState) : State := { s with usnea := f s.usnea }
/-- The state with its `power` part changed. -/
def State.mapPower (s : State) (f : PowerState → PowerState) : State := { s with power := f s.power }
/-- The state with its shards changed. -/
def State.mapShards (s : State) (f : Smap Shard → Smap Shard) : State := { s with shards := f s.shards }

/-! ### Bit fields and bytes (R5) -/

/-- Bits `lo` to `lo + w - 1` of a number. -/
def bits (v lo w : Nat) : Nat := v / 2 ^ lo % 2 ^ w

/-- One bit of a number. -/
def bit (v i : Nat) : Bool := v / 2 ^ i % 2 == 1

/-- A number with bits `lo` to `lo + w - 1` replaced. -/
def setBits (v lo w x : Nat) : Nat := v - bits v lo w * 2 ^ lo + x % 2 ^ w * 2 ^ lo

/-- 1 for true. -/
def b2n (b : Bool) : Nat := if b then 1 else 0

/-- Two's complement value of a `w`-bit number. -/
def toSigned (w v : Nat) : Int := if v % 2 ^ w < 2 ^ (w - 1) then (v % 2 ^ w : Nat) else (v % 2 ^ w : Nat) - (2 ^ w : Nat)

/-- `w`-bit two's complement of an integer. -/
def ofSigned (w : Nat) (i : Int) : Nat := (i % (2 ^ w : Nat)).toNat

/-- Little-endian value of bytes (R5). -/
def leNat : List Byte → Nat
  | [] => 0
  | b :: t => b.toNat + 256 * leNat t

/-- `n` little-endian bytes of a number. -/
def natLe : Nat → Nat → List Byte
  | 0, _ => []
  | n + 1, v => BitVec.ofNat 8 v :: natLe n (v / 256)

/-- `n` bytes of a byte string from an offset, zero past its end. -/
def slice (b : List Byte) (off n : Nat) : List Byte :=
  let t := (b.drop off).take n
  t ++ List.replicate (n - t.length) 0

/-- The `n`-byte little-endian field at an offset. -/
def field (b : List Byte) (off n : Nat) : Nat := leNat (slice b off n)

/-- Every byte of a range is zero. -/
def zeroAt (b : List Byte) (off n : Nat) : Bool := (slice b off n).all (· == 0)

/-- A byte string with the bytes from an offset replaced. -/
def patch (b : List Byte) (off : Nat) (x : List Byte) : List Byte :=
  b.take off ++ List.replicate (off - b.length) 0 ++ x ++ b.drop (off + x.length)

/-- One step of the reflected CRC-32C register. -/
def crcBit (c : Nat) : Nat := if c % 2 = 1 then (c / 2) ^^^ 0x82F63B78 else c / 2

/-- CRC-32C register after a byte. -/
def crcByte (c : Nat) (b : Byte) : Nat :=
  crcBit (crcBit (crcBit (crcBit (crcBit (crcBit (crcBit (crcBit (c ^^^ b.toNat))))))))

/-- CRC-32C of a byte string (Castagnoli polynomial, reflected, all-ones start and final inversion). -/
def crc32c (b : List Byte) : Nat := b.foldl crcByte 0xFFFFFFFF ^^^ 0xFFFFFFFF

/-- One step of CRC-8, polynomial 0x07, most significant bit first. -/
def crc8Bit (c : Nat) : Nat := if c ≥ 128 then ((c * 2) % 256) ^^^ 0x07 else c * 2

/-- CRC-8 of a byte string, start value zero. -/
def crc8 (b : List Byte) : Nat :=
  b.foldl (fun c x => crc8Bit (crc8Bit (crc8Bit (crc8Bit (crc8Bit (crc8Bit (crc8Bit (crc8Bit (c ^^^ x.toNat))))))))) 0

/-- Quotient rounded up. -/
def ceilDiv (a b : Nat) : Nat := (a + b - 1) / b

/-- First index of a list at which a test holds. -/
def indexOf? {α : Type} (p : α → Bool) : List α → Option Nat
  | [] => none
  | x :: t => if p x then some 0 else (indexOf? p t).map (· + 1)

/-- A list with one occurrence of the first element that passes the test removed. -/
def dropFirst {α : Type} (p : α → Bool) : List α → List α
  | [] => []
  | x :: t => if p x then t else x :: dropFirst p t

/-- A list as a set: the element is added unless present. -/
def addSet (l : List Nat) (x : Nat) : List Nat := if l.contains x then l else l ++ [x]

/-- A list as a set: the element is removed. -/
def delSet (l : List Nat) (x : Nat) : List Nat := l.filter (· != x)

/-- Pieces of a byte string. -/
def chunks (w : Nat) : Nat → List Byte → List (List Byte)
  | 0, _ => []
  | n + 1, b => b.take w :: chunks w n (b.drop w)

/-! ### Stored bits of a tier, as 64-byte lines keyed by address div 64 -/

/-- `n` bytes of a tier. -/
def tierRead (m : Smap Nat) (a n : Nat) : List Byte :=
  (((List.range (ceilDiv (a % 64 + n) 64)).flatMap fun i => natLe 64 (m.getD (a / 64 + i) 0)).drop (a % 64)).take n

/-- Lines written from a line number on; a zero line is not listed. -/
def tierLines (m : Smap Nat) : Nat → List (List Byte) → Smap Nat
  | _, [] => m
  | l, b :: t => tierLines (m.store 0 l (leNat b)) (l + 1) t

/-- A tier with bytes written. -/
def tierWrite (m : Smap Nat) (a : Nat) (b : List Byte) : Smap Nat :=
  if b.isEmpty then m else
  let e := a + b.length
  let all := (natLe 64 (m.getD (a / 64) 0)).take (a % 64) ++ b ++
    (if e % 64 = 0 then [] else (natLe 64 (m.getD (e / 64) 0)).drop (e % 64))
  tierLines m (a / 64) (chunks 64 (all.length / 64) all)

/-! ### Host memory, tier T4 (R345) -/

/-- `n` bytes of host memory. -/
def hostRead (s : State) (a n : Nat) : List Byte := (List.range n).map (fun i => s.host.mem.getD (a + i) 0)

/-- Host memory with bytes written. -/
def memWrite (m : Smap Byte) (a : Nat) (b : List Byte) : Smap Byte :=
  match b with
  | [] => m
  | x :: t => memWrite (m.store 0 a x) (a + 1) t

/-- Bytes written into host memory. -/
def hostWrite (s : State) (a : Nat) (b : List Byte) : State :=
  { s with host := { s.host with mem := memWrite s.host.mem a b } }

/-- Host software's own writes, in order (R516). -/
def hostWrites (s : State) (w : HostWrites) : State := w.foldl (fun t p => hostWrite t p.1 p.2) s

/-! ### Real-time counter (R640) -/

/-- Value of the real-time counter. -/
def rtc (s : State) : Nat :=
  let k := s.power.rtcCycles * 67108864 / 50000000
  (s.power.rtcBase + (if s.power.oscStopped then k else min k 2047)) % 2 ^ 64

/-- One 50 MHz cycle of the always-on clock, unless the device is held in cold reset (log entry 1). -/
def tickAlwaysOn (s : State) : State :=
  if s.power.held then s else { s with power := { s.power with rtcCycles := s.power.rtcCycles + 1 } }

/-- Microseconds between two counter values. -/
def rtcMicros (t0 t1 : Nat) : Nat := (t1 - t0) * 1000000 / 67108864

/-! ### The SPI NOR (R612) -/

/-- The copy of the NOR directory in force: the one whose DSEQ is larger. -/
def norDir (s : State) : NorDir := if s.usnea.dir0.dseq ≥ s.usnea.dir1.dseq then s.usnea.dir0 else s.usnea.dir1

/-- Offset and size of a NOR region. -/
def norRegion (s : State) (typ : Nat) : Option (Nat × Nat) := ((norDir s).regions.find? fun r => r.1 == typ).map (·.2)

/-! ### Free values -/

/-- The state with the counter of free values advanced; the value drawn is a function of the counter before it. -/
def State.drawn (s : State) : State := { s with free := s.free + 1 }

/-! ### Sorting -/

/-- Insertion into a list in ascending order of a number; equal numbers keep their order. -/
def insertAsc {α : Type} (v : α → Nat) (x : α) : List α → List α
  | [] => [x]
  | y :: t => if v x < v y then x :: y :: t else y :: insertAsc v x t

/-- A list in ascending order of a number. -/
def sortAsc {α : Type} (v : α → Nat) (l : List α) : List α := l.foldl (fun a x => insertAsc v x a) []

end Sys2Proof.Machine
end

