-- ==== Sys2Proof/Machine/Operands.lean ====
section
/-! DEFINITION. Operand forms: the records of a Kelpin image (02_structure_images) and the fields of a submission entry
(17_host_queues R513), read out of their bytes. -/
namespace Sys2Proof.Machine
open Sys2Proof

/-! ### Section types (R34) -/

/-- Record of section `t` and index `i`; an absent record has its empty value (R35). -/
def cfgRec (c : ImgCfg) (t i : Nat) : Nat := c.recs.getD (65536 * t + i) 0

/-- The records of a section that are present, with their indices. -/
def cfgRecs (c : ImgCfg) (t : Nat) : List (Nat × Nat) :=
  (c.recs.filter (fun e => e.1 / 65536 == t)).map (fun e => (e.1 % 65536, e.2))

/-- DEVICE.NODE_ID. -/
def cfgNodeId (c : ImgCfg) : Nat := bits (cfgRec c 1 0) 0 17
/-- DEVICE.EPOCH_LEN in µs. -/
def cfgEpochLen (c : ImgCfg) : Nat := bits (cfgRec c 1 0) 32 32
/-- DEVICE.POWER_LIMIT in W. -/
def cfgPowerLimit (c : ImgCfg) : Nat := bits (cfgRec c 1 0) 64 16
/-- DEVICE.CXL_WINDOW in GiB. -/
def cfgCxlWindow (c : ImgCfg) : Nat := bits (cfgRec c 1 0) 80 16
/-- DEVICE.WEIGHT_WINDOW in Sheet units. -/
def cfgWeightWindow (c : ImgCfg) : Nat := bits (cfgRec c 1 0) 96 8

/-- PARTITIONS.STATE of a partition. -/
def cfgPartState (c : ImgCfg) (p : Nat) : Nat := bits (cfgRec c 2 p) 0 8
/-- PARTITIONS.RETAIN, with 0 meaning 4 (R37). -/
def cfgRetain (c : ImgCfg) (p : Nat) : Nat :=
  let r := bits (cfgRec c 2 p) 8 8
  if r = 0 then 4 else r
/-- PARTITIONS.PROFILE. -/
def cfgProfile (c : ImgCfg) (p : Nat) : Nat := bits (cfgRec c 2 p) 16 8
/-- PARTITIONS.FRESH_CAP in units of 1,024 items. -/
def cfgFreshCap (c : ImgCfg) (p : Nat) : Nat := bits (cfgRec c 2 p) 32 32
/-- PARTITIONS.POOL_CTX. -/
def cfgPoolCtx (c : ImgCfg) (p : Nat) : Nat := bits (cfgRec c 2 p) 64 32

/-- TILE_MAP owner of a tile (0 to 63) or cluster (64 to 79). -/
def cfgTileOwner (c : ImgCfg) (t : Nat) : Nat := bits (cfgRec c 3 t) 0 7
/-- TILE_MAP role of a tile or cluster. -/
def cfgTileRole (c : ImgCfg) (t : Nat) : Nat := bits (cfgRec c 3 t) 8 2

/-- MEMORY_MAP owner of a window. -/
def cfgWinOwner (c : ImgCfg) (w : Nat) : Nat := bits (cfgRec c 4 w) 0 7
/-- MEMORY_MAP BARE bit of a window. -/
def cfgWinBare (c : ImgCfg) (w : Nat) : Bool := bit (cfgRec c 4 w) 7
/-- MEMORY_MAP use of a window. -/
def cfgWinUse (c : ImgCfg) (w : Nat) : Nat := bits (cfgRec c 4 w) 8 4

/-- ALLOTMENTS.DDR_BASE and DDR_SIZE in GiB. -/
def cfgDdr (c : ImgCfg) (p : Nat) : Nat × Nat := (bits (cfgRec c 5 p) 0 32, bits (cfgRec c 5 p) 32 32)
/-- ALLOTMENTS.SHEET_CACHE. -/
def cfgSheetCache (c : ImgCfg) (p : Nat) : Nat := bits (cfgRec c 5 p) 64 8
/-- ALLOTMENTS.SHEET_SCRATCH. -/
def cfgSheetScratch (c : ImgCfg) (p : Nat) : Nat := bits (cfgRec c 5 p) 72 8
/-- ALLOTMENTS.FLASH_GIB. -/
def cfgFlashGib (c : ImgCfg) (p : Nat) : Nat := bits (cfgRec c 5 p) 96 32
/-- ALLOTMENTS.JOURNAL in units of 64 MiB. -/
def cfgJournal (c : ImgCfg) (p : Nat) : Nat := bits (cfgRec c 5 p) 128 16

/-- A range of the queue map (R42). -/
structure QRange where
  first : Nat
  count : Nat
  part : Nat
  quantum : Nat
  deriving DecidableEq, Repr

/-- A QUEUE_MAP record as a range. -/
def qRange (v : Nat) : QRange := ⟨bits v 0 14, bits v 14 15, bits v 29 6, bits v 35 16⟩

/-- Insertion of a range in ascending order of FIRST. -/
def insRange (r : QRange) : List QRange → List QRange
  | [] => [r]
  | x :: t => if r.first < x.first then r :: x :: t else x :: insRange r t

/-- The queue ranges of the map, in ascending order. -/
def cfgQueues (c : ImgCfg) : List QRange :=
  ((cfgRecs c 6).map (fun e => qRange e.2)).foldl (fun l r => if r.count = 0 then l else insRange r l) []

/-- The queue ranges of a partition, in ascending order. -/
def partQueues (c : ImgCfg) (p : Nat) : List QRange := (cfgQueues c).filter (fun r => r.part == p)

/-- Number of queue pairs that a partition owns. -/
def nqp (c : ImgCfg) (p : Nat) : Nat := (partQueues c p).foldl (fun n r => n + r.count) 0

/-- Device queue pair of place `q` in a list of ranges. -/
def nthQueue : List QRange → Nat → Option Nat
  | [], _ => none
  | r :: t, q => if q < r.count then some (r.first + q) else nthQueue t (q - r.count)

/-- Place of a device queue pair in a list of ranges. -/
def queuePlace : List QRange → Nat → Option Nat
  | [], _ => none
  | r :: t, d => if r.first ≤ d ∧ d < r.first + r.count then some (d - r.first) else (queuePlace t d).map (· + r.count)

/-- The range that holds a device queue pair. -/
def queueRange (c : ImgCfg) (d : Nat) : Option QRange :=
  (cfgQueues c).find? (fun r => decide (r.first ≤ d) && decide (d < r.first + r.count))

/-- REGULATORS of a partition and tier code: GUARANTEED, CEILING, DEPTH. -/
def cfgRegulator (c : ImgCfg) (p t : Nat) : Nat × Nat × Nat :=
  let v := cfgRec c 7 (6 * p + t)
  (bits v 0 24, bits v 24 24, bits v 48 16)

/-- The epoch-bound mask; group 0 always belongs to it (STROBE_GROUPS). -/
def cfgEpochMask (c : ImgCfg) : Nat := if bit (cfgRec c 8 0) 0 then cfgRec c 8 0 else cfgRec c 8 0 + 1

/-- The strobe group of a register of a block, block-wide or of one unit (R44). -/
def cfgGroup (c : ImgCfg) (block : Nat) (unit : Option Nat) : Nat :=
  let as := ((cfgRecs c 8).filter (fun e => e.1 != 0)).map (·.2)
  let at_ (u : Nat) := as.find? (fun v => bits v 0 5 == block && bits v 5 8 == u)
  match unit.bind (fun u => if u < 0xFF then at_ u else none) with
  | some v => bits v 13 5
  | none => match at_ 0xFF with
    | some v => bits v 13 5
    | none => 0

/-- FUNCTION_MODES byte of a partition. -/
def cfgModes (c : ImgCfg) (p : Nat) : Nat := cfgRec c 9 p % 256
/-- FUNCTION_MODES byte of the device. -/
def cfgDevModes (c : ImgCfg) : Nat := cfgRec c 9 64 % 256

/-- A route (R45): NODE_LO, NODE_HI, PORTS. -/
def routeOf (v : Nat) : Nat × Nat × Nat := (bits v 0 17, bits v 17 17, bits v 34 12)

/-- KEY_GEN of a WRAPPED_KEYS record. -/
def cfgKeyGen (c : ImgCfg) (p : Nat) : Nat := bits (cfgRec c 11 p) 0 32

/-- A model binding (R47). -/
structure Binding where
  part : Nat
  role : Nat
  profile : Nat
  modelId : Nat
  digest : List Byte
  deriving DecidableEq, Repr

/-- A MODEL_BINDINGS record. -/
def bindingOf (v : Nat) : Binding :=
  ⟨bits v 0 8, bits v 8 8, bits v 16 8, bits v 64 64, natLe 48 (bits v 128 384)⟩

/-- The bindings of a configuration. -/
def cfgBindings (c : ImgCfg) : List Binding :=
  ((cfgRecs c 12).map (fun e => bindingOf e.2)).filter (fun b => b.role != 0)

/-- The binding of a role in a partition. -/
def cfgBinding (c : ImgCfg) (p role : Nat) : Option Binding :=
  (cfgBindings c).find? (fun b => b.part == p && b.role == role)

/-! ### Partitions and functions (R37, R58) -/

/-- State of a partition. -/
def partState (s : State) (p : Nat) : PState := s.img.parts.getD p .absent

/-- IMG_PART_IND_DATA.STATE of a partition. -/
def partCode (s : State) (p : Nat) : Nat :=
  match partState s p with
  | .absent => 0 | .active => 1 | .draining => 2 | .drained => 3 | .scrubbing => 4

/-- Device number of function-local queue pair `q`, leaving queue pairs after the owned ones (R42, R511). -/
def deviceQp (s : State) (fn q : Nat) : Option Nat :=
  let n := nqp s.img.cfg fn
  if q < n then nthQueue (partQueues s.img.cfg fn) q
  else ((s.host.qps.filter (fun e => e.2.leaving == some fn)).map (·.1))[q - n]?

/-- Partition in whose slots and view a device queue pair stands: a leaving one still with the partition that loses it. -/
def qpPart (s : State) (d : Nat) : Option Nat :=
  match (s.host.qps.getD d Qp.reset).leaving with
  | some p => some p
  | none => (queueRange s.img.cfg d).map (·.part)

/-- Function-local number of a device queue pair (R42, R511). -/
def localQp (s : State) (d : Nat) : Nat :=
  match (s.host.qps.getD d Qp.reset).leaving with
  | some p =>
    nqp s.img.cfg p +
      (indexOf? (· == d) ((s.host.qps.filter (fun e => e.2.leaving == some p)).map (·.1))).getD 0
  | none => match queueRange s.img.cfg d with
    | some r => (queuePlace (partQueues s.img.cfg r.part) d).getD 0
    | none => 0

/-! ### Submission entries (R513) -/

/-- OPCODE. -/
def eOpcode (e : List Byte) : Nat := field e 0x00 1
/-- EPOCH_VALID. -/
def eEpochValid (e : List Byte) : Bool := bit (field e 0x01 1) 0
/-- PROFILE_VALID. -/
def eProfileValid (e : List Byte) : Bool := bit (field e 0x01 1) 1
/-- BARRIER. -/
def eBarrier (e : List Byte) : Bool := bit (field e 0x01 1) 2
/-- DATA_LIST. -/
def eDataList (e : List Byte) : Bool := bit (field e 0x01 1) 3
/-- RESULT_LIST. -/
def eResultList (e : List Byte) : Bool := bit (field e 0x01 1) 4
/-- CID. -/
def eCid (e : List Byte) : Nat := field e 0x02 2
/-- INDEX. -/
def eIndex (e : List Byte) : Nat := bits (field e 0x04 1) 0 6
/-- PROFILE. -/
def eProfile (e : List Byte) : Nat := field e 0x05 1
/-- EPOCH. -/
def eEpoch (e : List Byte) : Nat := field e 0x08 6
/-- PB_ADDR. -/
def ePbAddr (e : List Byte) : Nat := field e 0x10 8
/-- PB_LEN. -/
def ePbLen (e : List Byte) : Nat := field e 0x18 4
/-- DATA_LEN. -/
def eDataLen (e : List Byte) : Nat := field e 0x1C 4
/-- DATA_ADDR. -/
def eDataAddr (e : List Byte) : Nat := field e 0x20 8
/-- RESULT_ADDR. -/
def eResultAddr (e : List Byte) : Nat := field e 0x28 8
/-- RESULT_LEN. -/
def eResultLen (e : List Byte) : Nat := field e 0x30 4
/-- ARG0. -/
def eArg0 (e : List Byte) : Nat := field e 0x34 4
/-- ARG1. -/
def eArg1 (e : List Byte) : Nat := field e 0x38 8

/-- Extents of an extent list at an address, until their lengths reach `len` (R514): none where the list breaks the
rule. -/
def extents (s : State) (a len : Nat) : Nat → Option (List (Nat × Nat))
  | 0 => if len = 0 then some [] else none
  | n + 1 =>
    if len = 0 then some [] else
    let e := hostRead s a 16
    let x := field e 0 8
    let l := field e 8 4
    if x % 64 ≠ 0 ∨ l = 0 ∨ !zeroAt e 12 4 ∨ (l < len ∧ l % 64 ≠ 0) then none
    else (extents s (a + 16) (len - min l len) n).map ((x, min l len) :: ·)

/-- An entry of an ADMIN message carries its parameter block and its input data behind its 64 bytes (R629). -/
def eInline (e : List Byte) : Bool := decide (e.length > 64)

/-- Extents of the input data of an entry. -/
def dataExtents (s : State) (e : List Byte) : Option (List (Nat × Nat)) :=
  if eDataLen e = 0 ∨ eInline e then some []
  else if eDataList e then extents s (eDataAddr e) (eDataLen e) 4096
  else some [(eDataAddr e, eDataLen e)]

/-- Extents of the result buffer of an entry. -/
def resultExtents (s : State) (e : List Byte) : Option (List (Nat × Nat)) :=
  if eResultLen e = 0 then some []
  else if eResultList e then extents s (eResultAddr e) (eResultLen e) 4096
  else some [(eResultAddr e, eResultLen e)]

/-- Input data of an entry. -/
def inputData (s : State) (e : List Byte) : List Byte :=
  if eInline e then slice e (64 + ePbLen e) (eDataLen e)
  else ((dataExtents s e).getD []).flatMap (fun x => hostRead s x.1 x.2)

/-- Parameter block of an entry. -/
def paramBlock (s : State) (e : List Byte) : List Byte :=
  if eInline e then slice e 64 (ePbLen e) else hostRead s (ePbAddr e) (ePbLen e)

/-- Result bytes written at an offset of a result buffer given by its extents. -/
def writeExtents (s : State) : List (Nat × Nat) → Nat → List Byte → State
  | [], _, _ => s
  | (a, l) :: t, off, b =>
    if b.isEmpty then s
    else if l ≤ off then writeExtents s t (off - l) b
    else writeExtents (hostWrite s (a + off) (b.take (l - off))) t 0 (b.drop (l - off))

end Sys2Proof.Machine
end

