-- ==== Sys2Proof/Machine/RegTable.lean ====
section
/-! DEFINITION. The register table (R687, R688): every BAR0 register with its block, offset, access, fields and reset value. -/
namespace Sys2Proof.Machine

/-- Access of a register's writable fields (Scope and Conventions, access codes). -/
inductive Acc where
  | ro | rw | sh | sqc | wo | ind
  deriving DecidableEq, Repr

/-- Class of a shadowed register (R73, R688); `image` for the image-owned registers that are held (R56). -/
inductive RegClass where
  | none | tuning | epoch | image
  deriving DecidableEq, Repr

/-- How a register shows in a virtual function's view (R64). -/
inductive VfView where
  | absent | present | own
  deriving DecidableEq, Repr

/-- A register's row: block index, block offset (of the indirect data register for a unit register), REG number behind
an indirect window, access, class, number of instances, virtual function view, writable or event bits, reset value, and
the fields that have reserved values as (lowest bit, width, least, greatest). -/
structure RegRow where
  block : Nat
  offset : Nat
  sub : Option Nat
  acc : Acc
  cls : RegClass
  units : Nat
  view : VfView
  mask : W32
  reset : W32
  fields : List (Nat × Nat × Nat × Nat)
  deriving DecidableEq, Repr

/-- The registers of BAR0 other than the common ones of R67, by name. -/
inductive Reg where
  | glbId | glbUidLo | glbUidHi | glbPart | glbEpochLo | glbEpochHi | glbStatus | glbUpdStrobe | glbUpdStatus
  | glbEventSum | glbFaultSum | glbWerrSum | imgCtrl | imgStageAddrLo | imgStageAddrHi | imgStageLen
  | imgStatus | imgActiveSeqLo | imgActiveSeqHi | imgPend0EpochLo | imgPend0EpochHi | imgPend1EpochLo
  | imgPend1EpochHi | imgReject | imgMissedDomains | imgPartIndAddr | imgPartIndData | plnPartIndAddr
  | plnPcfg | plnWalks | plnSweeps | plnPevent | plnHistIndAddr | plnHistIndData | wlkCfg | wlkPartIndAddr
  | wlkLinkCfg | wlkActive | wlkDisagree | wlkDisagreeCount | wlkTruncCount | wlkTileIndAddr | wlkTState
  | wlkTRounds | wlkTIdle | lchSweepStepLimit | lchSweepCfg | lchScrubCfg | lchEvent | lchErrIndAddr
  | lchErrIndData | lchStackIndAddr | lchSState | lchSSteps | lchSPasses | lchSCrcErrs | lchBankIndAddr
  | lchBState | lchBWaitMax | mslCfg | mslEvent | mslPartIndAddr | mslPLists | mslPShort | mslPDups
  | mslPPasses | mslUnitIndAddr | mslUState | mslUEntries | mslUPasses | mslUSorts | epcCfg | epcEvent
  | epcEpochLo | epcEpochHi | epcBoundaryRtcLo | epcBoundaryRtcHi | epcLen | epcMissed | epcPartIndAddr
  | epcPcfg | epcPcfg2 | epcPevent | epcPCurLo | epcPCurHi | epcPOldestLo | epcPOldestHi | epcPRetain
  | epcPFresh | epcPAccepted | epcPLinked | brkEvent | brkClIndAddr | brkCState | brkCFencedCores | brkCBusy
  | brkCLayers | brkCSat | brkCNonfinite | memEvent | memReserve | memCxl | memSheetIndAddr | memSUnit
  | memPartIndAddr | memPGuar | memPCeil | memPDepth | memPRate | memPUnits | memPWait | memPSheet | memPHits
  | memPMisses | memPT4Err | ddrCfg | ddrEvent | ddrOrg | ddrChIndAddr | ddrCState | ddrCCe | ddrCUe
  | ddrCErrLo | ddrCErrHi | ddrCPpr | ddrCScrub | fltCfg | fltCfg2 | fltEvent | fltState | fltCapGib
  | fltFastGib | fltSpare | fltWear | fltChIndAddr | fltCState | fltCBytes | fltDieIndAddr | fltDState
  | fltDPe | fltDTemp | fltDThist | fltDCorr | fltDRetry | fltDSoft | fltDRebuild | fltDUncorr | fltDPfail
  | fltDEfail | fltDRetired | fltPartIndAddr | fltPevent | fltPUsedGib | fltPJournal | fltPZones | fltPReads
  | fltPWrites | twlCfg | twlVcWeight | twlEvent | twlNode | twlRtIndAddr | twlRtWord | twlRtCount
  | twlPortIndAddr | twlPCfg | twlPExpect | twlPCmd | twlPState | twlPPeer | twlPLmap | twlPCorr | twlPUncorr
  | twlPReplay | twlPSwaps | twlPTxflits | twlPRxflits | twlPLerr | twlReqOut | twlTimeouts | ownCfg
  | ownEvent | ownArg0 | ownArg1 | ownArg2 | ownCmd | ownCmdStatus | ownCompIndAddr | ownCompIndData
  | ownSegIndAddr | ownSegIndData | ownUnresolved | secEvent | secViolInfo | secFuse | secSvnImage
  | secSvnModel | secSvnFw | secMeasIndAddr | secMeasIndData | secPartIndAddr | secPKeygen | secPRekey
  | secPRekeyAddrLo | secPRekeyAddrHi | secPViol | hqEvent | hqFnInfo | hqFnEventVec | hqQpIndAddr
  | hqQpSqBaseLo | hqQpSqBaseHi | hqQpCqBaseLo | hqQpCqBaseHi | hqQpSize | hqQpInt | hqQpCtrl | hqQpState
  | hqQpSqptrs | hqQpCqptrs | hqQpImg | hqQpDepthSample | hqQpDelaySample | hqQpDelayMax | hqQpCredit
  | hqQpAdmitted | hqQpCompleted | hqFnOutstanding | hqRcCfg | hqLink | rasCfg | rasEvent | rasCmd
  | rasCmdStatus | rasFltIndAddr | rasFltIndData | rasUnitIndAddr | rasUState | rasUVgen | rasUFaults
  | rasDomIndAddr | rasDState | rasPartIndAddr | rasPevent | rasPLedgerNextLo | rasPLedgerNextHi
  | rasPLedgerOldestLo | rasPLedgerOldestHi | rasPLedgerLost | rasPFaulted | pwrCfg | pwrEvent | pwrStatus
  | pwrBoot | pwrReset | pwrRtcLo | pwrRtcHi | pwrHwLimit | pwrDeepTileLo | pwrDeepTileHi | pwrDeepCl
  | pwrAdedanIndAddr | pwrAdedanRow | pwrDomIndAddr | pwrDState | pwrDCap | pwrDBudget | pwrDIdle | pwrDWakes
  | mgtStatus | mgtEvent | mgtFwVersion | mgtFwSvn | mgtMbxDoorbell | mgtMbxStatus | mgtPtmSeq | mgtPtmRtcLo
  | mgtPtmRtcHi | mgtPtmNsLo | mgtPtmNsHi | mgtLogNextLo | mgtLogNextHi | mgtLogWear | mgtSensIndAddr
  | mgtSValue | mgtSMax | mgtSAlarm
  | blkFault
  deriving DecidableEq, Repr

/-- The row of each register (R687, R688, and the field tables of the defining chapters). `blkFault` stands for the
xxx_FAULT register of block b as unit b (R67). -/
def Reg.row : Reg → RegRow
  | .glbId => ⟨0, 0x0, none, .ro, .none, 1, .present, 0x0, 0x0, []⟩
  | .glbUidLo => ⟨0, 0x4, none, .ro, .none, 1, .present, 0x0, 0x0, []⟩
  | .glbUidHi => ⟨0, 0x8, none, .ro, .none, 1, .present, 0x0, 0x0, []⟩
  | .glbPart => ⟨0, 0xC, none, .ro, .none, 1, .present, 0x0, 0x0, []⟩
  | .glbEpochLo => ⟨0, 0x10, none, .ro, .none, 1, .present, 0x0, 0x0, []⟩
  | .glbEpochHi => ⟨0, 0x14, none, .ro, .none, 1, .present, 0x0, 0x0, []⟩
  | .glbStatus => ⟨0, 0x18, none, .ro, .none, 1, .present, 0x0, 0x0, []⟩
  | .glbUpdStrobe => ⟨0, 0x40, none, .wo, .none, 1, .present, 0xFFFFFFFF, 0x0, []⟩
  | .glbUpdStatus => ⟨0, 0x44, none, .sqc, .none, 1, .present, 0x6, 0x0, []⟩
  | .glbEventSum => ⟨0, 0x50, none, .ro, .none, 1, .present, 0x0, 0x0, []⟩
  | .glbFaultSum => ⟨0, 0x54, none, .ro, .none, 1, .present, 0x0, 0x0, []⟩
  | .glbWerrSum => ⟨0, 0x58, none, .ro, .none, 1, .present, 0x0, 0x0, []⟩
  | .imgCtrl => ⟨1, 0x0, none, .wo, .none, 1, .absent, 0xF, 0x0, [(2, 2, 0, 2)]⟩
  | .imgStageAddrLo => ⟨1, 0x4, none, .rw, .none, 1, .absent, 0xFFFFFFFF, 0x0, []⟩
  | .imgStageAddrHi => ⟨1, 0x8, none, .rw, .none, 1, .absent, 0xFFFFFFFF, 0x0, []⟩
  | .imgStageLen => ⟨1, 0xC, none, .rw, .none, 1, .absent, 0xFFFFFFFF, 0x0, []⟩
  | .imgStatus => ⟨1, 0x10, none, .sqc, .none, 1, .absent, 0x3F, 0x0, []⟩
  | .imgActiveSeqLo => ⟨1, 0x14, none, .ro, .none, 1, .absent, 0x0, 0x0, []⟩
  | .imgActiveSeqHi => ⟨1, 0x18, none, .ro, .none, 1, .absent, 0x0, 0x0, []⟩
  | .imgPend0EpochLo => ⟨1, 0x1C, none, .ro, .none, 1, .absent, 0x0, 0x0, []⟩
  | .imgPend0EpochHi => ⟨1, 0x20, none, .ro, .none, 1, .absent, 0x0, 0x0, []⟩
  | .imgPend1EpochLo => ⟨1, 0x24, none, .ro, .none, 1, .absent, 0x0, 0x0, []⟩
  | .imgPend1EpochHi => ⟨1, 0x28, none, .ro, .none, 1, .absent, 0x0, 0x0, []⟩
  | .imgReject => ⟨1, 0x2C, none, .ro, .none, 1, .absent, 0x0, 0x0, []⟩
  | .imgMissedDomains => ⟨1, 0x30, none, .ro, .none, 1, .absent, 0x0, 0x0, []⟩
  | .imgPartIndAddr => ⟨1, 0x34, none, .rw, .none, 128, .absent, 0x7F, 0x0, []⟩
  | .imgPartIndData => ⟨1, 0x38, none, .ind, .none, 64, .absent, 0x0, 0x0, []⟩
  | .plnPartIndAddr => ⟨3, 0x0, none, .rw, .none, 128, .present, 0x7FFFFFF, 0x0, [(24, 3, 0, 3)]⟩
  | .plnPcfg => ⟨3, 0x4, some 0, .sh, .epoch, 64, .own, 0x3FFFFF, 0x100808, [(0, 5, 0, 24), (5, 13, 16, 4096), (18, 4, 1, 8)]⟩
  | .plnWalks => ⟨3, 0x4, some 1, .ro, .none, 64, .own, 0x0, 0x0, []⟩
  | .plnSweeps => ⟨3, 0x4, some 2, .ro, .none, 64, .own, 0x0, 0x0, []⟩
  | .plnPevent => ⟨3, 0x4, some 3, .sqc, .none, 64, .own, 0x3, 0x0, []⟩
  | .plnHistIndAddr => ⟨3, 0x8, none, .rw, .none, 128, .present, 0x1FFFFFFF, 0x0, []⟩
  | .plnHistIndData => ⟨3, 0xC, none, .ind, .none, 1, .present, 0x0, 0x0, []⟩
  | .wlkCfg => ⟨4, 0x0, none, .sh, .tuning, 1, .absent, 0xFFF, 0xC8, [(0, 12, 1, 4095)]⟩
  | .wlkPartIndAddr => ⟨4, 0x4, none, .rw, .none, 128, .present, 0x7FFFFFF, 0x0, [(24, 3, 0, 3)]⟩
  | .wlkLinkCfg => ⟨4, 0x8, some 0, .sh, .epoch, 64, .own, 0x1FFFF, 0x8040, [(0, 13, 16, 4096), (13, 4, 1, 8)]⟩
  | .wlkActive => ⟨4, 0x8, some 1, .ro, .none, 64, .own, 0x0, 0x0, []⟩
  | .wlkDisagree => ⟨4, 0x8, some 2, .sqc, .none, 64, .own, 0x1, 0x0, []⟩
  | .wlkDisagreeCount => ⟨4, 0x8, some 3, .ro, .none, 64, .own, 0x0, 0x0, []⟩
  | .wlkTruncCount => ⟨4, 0x8, some 4, .ro, .none, 64, .own, 0x0, 0x0, []⟩
  | .wlkTileIndAddr => ⟨4, 0xC, none, .rw, .none, 128, .absent, 0x7FFFFFF, 0x0, [(24, 3, 0, 3)]⟩
  | .wlkTState => ⟨4, 0x10, some 0, .ro, .none, 64, .absent, 0x0, 0x0, []⟩
  | .wlkTRounds => ⟨4, 0x10, some 1, .ro, .none, 64, .absent, 0x0, 0x0, []⟩
  | .wlkTIdle => ⟨4, 0x10, some 2, .ro, .none, 64, .absent, 0x0, 0x0, []⟩
  | .lchSweepStepLimit => ⟨5, 0x0, none, .sh, .tuning, 1, .absent, 0x3, 0x0, []⟩
  | .lchSweepCfg => ⟨5, 0x4, none, .sh, .tuning, 1, .absent, 0xFFF, 0x7D0, [(0, 12, 100, 4000)]⟩
  | .lchScrubCfg => ⟨5, 0x8, none, .sh, .tuning, 1, .absent, 0x3FFFF, 0x303E8, [(0, 16, 100, 60000)]⟩
  | .lchEvent => ⟨5, 0xC, none, .sqc, .none, 1, .absent, 0x7F, 0x0, []⟩
  | .lchErrIndAddr => ⟨5, 0x10, none, .rw, .none, 128, .absent, 0x3FF, 0x0, []⟩
  | .lchErrIndData => ⟨5, 0x14, none, .ind, .none, 1, .absent, 0x0, 0x0, []⟩
  | .lchStackIndAddr => ⟨5, 0x18, none, .rw, .none, 128, .absent, 0x7FFFFFF, 0x0, [(24, 3, 0, 3)]⟩
  | .lchSState => ⟨5, 0x1C, some 0, .ro, .none, 6, .absent, 0x0, 0x0, []⟩
  | .lchSSteps => ⟨5, 0x1C, some 1, .ro, .none, 6, .absent, 0x0, 0x0, []⟩
  | .lchSPasses => ⟨5, 0x1C, some 2, .ro, .none, 6, .absent, 0x0, 0x0, []⟩
  | .lchSCrcErrs => ⟨5, 0x1C, some 3, .ro, .none, 6, .absent, 0x0, 0x0, []⟩
  | .lchBankIndAddr => ⟨5, 0x20, none, .rw, .none, 128, .absent, 0xFFFF, 0x0, [(13, 2, 0, 1)]⟩
  | .lchBState => ⟨5, 0x24, some 0, .ro, .none, 6144, .absent, 0x0, 0x0, []⟩
  | .lchBWaitMax => ⟨5, 0x24, some 1, .rw, .none, 6144, .absent, 0xFFFF, 0x0, []⟩
  | .mslCfg => ⟨6, 0x0, none, .sh, .tuning, 1, .absent, 0x1FF, 0x100, [(0, 9, 2, 256)]⟩
  | .mslEvent => ⟨6, 0x4, none, .sqc, .none, 1, .present, 0x7, 0x0, []⟩
  | .mslPartIndAddr => ⟨6, 0x8, none, .rw, .none, 128, .present, 0x7FFFFFF, 0x0, [(24, 3, 0, 3)]⟩
  | .mslPLists => ⟨6, 0xC, some 0, .ro, .none, 64, .own, 0x0, 0x0, []⟩
  | .mslPShort => ⟨6, 0xC, some 1, .ro, .none, 64, .own, 0x0, 0x0, []⟩
  | .mslPDups => ⟨6, 0xC, some 2, .ro, .none, 64, .own, 0x0, 0x0, []⟩
  | .mslPPasses => ⟨6, 0xC, some 3, .ro, .none, 64, .own, 0x0, 0x0, []⟩
  | .mslUnitIndAddr => ⟨6, 0x10, none, .rw, .none, 128, .absent, 0x7FFFFFF, 0x0, [(24, 3, 0, 3)]⟩
  | .mslUState => ⟨6, 0x14, some 0, .ro, .none, 20, .absent, 0x0, 0x0, []⟩
  | .mslUEntries => ⟨6, 0x14, some 1, .ro, .none, 20, .absent, 0x0, 0x0, []⟩
  | .mslUPasses => ⟨6, 0x14, some 2, .ro, .none, 20, .absent, 0x0, 0x0, []⟩
  | .mslUSorts => ⟨6, 0x14, some 3, .ro, .none, 20, .absent, 0x0, 0x0, []⟩
  | .epcCfg => ⟨7, 0x0, none, .sh, .tuning, 1, .absent, 0x7F, 0x14, [(0, 7, 10, 100)]⟩
  | .epcEvent => ⟨7, 0x4, none, .sqc, .none, 1, .absent, 0x7, 0x0, []⟩
  | .epcEpochLo => ⟨7, 0x8, none, .ro, .none, 1, .absent, 0x0, 0x0, []⟩
  | .epcEpochHi => ⟨7, 0xC, none, .ro, .none, 1, .absent, 0x0, 0x0, []⟩
  | .epcBoundaryRtcLo => ⟨7, 0x10, none, .ro, .none, 1, .absent, 0x0, 0x0, []⟩
  | .epcBoundaryRtcHi => ⟨7, 0x14, none, .ro, .none, 1, .absent, 0x0, 0x0, []⟩
  | .epcLen => ⟨7, 0x18, none, .ro, .none, 1, .absent, 0x0, 0x0, []⟩
  | .epcMissed => ⟨7, 0x1C, none, .ro, .none, 1, .absent, 0x0, 0x0, []⟩
  | .epcPartIndAddr => ⟨7, 0x20, none, .rw, .none, 128, .present, 0x7FFFFFF, 0x0, [(24, 3, 0, 3)]⟩
  | .epcPcfg => ⟨7, 0x24, some 0, .sh, .epoch, 64, .own, 0x3FFFFFFF, 0x3C0A03C, [(0, 12, 1, 3600), (12, 10, 0, 1000), (22, 8, 1, 240)]⟩
  | .epcPcfg2 => ⟨7, 0x24, some 1, .sh, .tuning, 64, .own, 0xFFF, 0x40, []⟩
  | .epcPevent => ⟨7, 0x24, some 2, .sqc, .none, 64, .own, 0x3F, 0x0, []⟩
  | .epcPCurLo => ⟨7, 0x24, some 3, .ro, .none, 64, .own, 0x0, 0x0, []⟩
  | .epcPCurHi => ⟨7, 0x24, some 4, .ro, .none, 64, .own, 0x0, 0x0, []⟩
  | .epcPOldestLo => ⟨7, 0x24, some 5, .ro, .none, 64, .own, 0x0, 0x0, []⟩
  | .epcPOldestHi => ⟨7, 0x24, some 6, .ro, .none, 64, .own, 0x0, 0x0, []⟩
  | .epcPRetain => ⟨7, 0x24, some 7, .ro, .none, 64, .own, 0x0, 0x0, []⟩
  | .epcPFresh => ⟨7, 0x24, some 8, .ro, .none, 64, .own, 0x0, 0x0, []⟩
  | .epcPAccepted => ⟨7, 0x24, some 9, .ro, .none, 64, .own, 0x0, 0x0, []⟩
  | .epcPLinked => ⟨7, 0x24, some 10, .ro, .none, 64, .own, 0x0, 0x0, []⟩
  | .brkEvent => ⟨8, 0x0, none, .sqc, .none, 1, .absent, 0x1F, 0x0, []⟩
  | .brkClIndAddr => ⟨8, 0x4, none, .rw, .none, 128, .absent, 0x7FFFFFF, 0x0, [(24, 3, 0, 3)]⟩
  | .brkCState => ⟨8, 0x8, some 0, .ro, .none, 16, .absent, 0x0, 0x0, []⟩
  | .brkCFencedCores => ⟨8, 0x8, some 1, .ro, .none, 16, .absent, 0x0, 0x0, []⟩
  | .brkCBusy => ⟨8, 0x8, some 2, .ro, .none, 16, .absent, 0x0, 0x0, []⟩
  | .brkCLayers => ⟨8, 0x8, some 3, .ro, .none, 16, .absent, 0x0, 0x0, []⟩
  | .brkCSat => ⟨8, 0x8, some 4, .ro, .none, 16, .absent, 0x0, 0x0, []⟩
  | .brkCNonfinite => ⟨8, 0x8, some 5, .ro, .none, 16, .absent, 0x0, 0x0, []⟩
  | .memEvent => ⟨9, 0x0, none, .sqc, .none, 1, .absent, 0x3F, 0x0, []⟩
  | .memReserve => ⟨9, 0x4, none, .ro, .none, 1, .absent, 0x0, 0x0, []⟩
  | .memCxl => ⟨9, 0x8, none, .ro, .none, 1, .absent, 0x0, 0x0, []⟩
  | .memSheetIndAddr => ⟨9, 0xC, none, .rw, .none, 128, .absent, 0x7FFFFFF, 0x0, [(24, 3, 0, 3)]⟩
  | .memSUnit => ⟨9, 0x10, some 0, .ro, .none, 72, .absent, 0x0, 0x0, []⟩
  | .memPartIndAddr => ⟨9, 0x14, none, .rw, .none, 128, .present, 0x7FFFFFF, 0x0, [(24, 3, 0, 3)]⟩
  | .memPGuar => ⟨9, 0x18, some 0, .sh, .image, 512, .own, 0xFFFFFF, 0x0, []⟩
  | .memPCeil => ⟨9, 0x18, some 1, .sh, .image, 512, .own, 0xFFFFFF, 0x0, []⟩
  | .memPDepth => ⟨9, 0x18, some 2, .sh, .image, 512, .own, 0xFFFF, 0x0, []⟩
  | .memPRate => ⟨9, 0x18, some 3, .ro, .none, 512, .own, 0x0, 0x0, []⟩
  | .memPUnits => ⟨9, 0x18, some 4, .ro, .none, 512, .own, 0x0, 0x0, []⟩
  | .memPWait => ⟨9, 0x18, some 5, .ro, .none, 512, .own, 0x0, 0x0, []⟩
  | .memPSheet => ⟨9, 0x18, some 48, .ro, .none, 64, .own, 0x0, 0x0, []⟩
  | .memPHits => ⟨9, 0x18, some 49, .ro, .none, 64, .own, 0x0, 0x0, []⟩
  | .memPMisses => ⟨9, 0x18, some 50, .ro, .none, 64, .own, 0x0, 0x0, []⟩
  | .memPT4Err => ⟨9, 0x18, some 51, .ro, .none, 64, .own, 0x0, 0x0, []⟩
  | .ddrCfg => ⟨10, 0x0, none, .sh, .tuning, 1, .absent, 0x3FFF, 0x1418, [(0, 8, 1, 168), (8, 4, 1, 15)]⟩
  | .ddrEvent => ⟨10, 0x4, none, .sqc, .none, 1, .absent, 0x7F, 0x0, []⟩
  | .ddrOrg => ⟨10, 0x8, none, .ro, .none, 1, .absent, 0x0, 0x0, []⟩
  | .ddrChIndAddr => ⟨10, 0xC, none, .rw, .none, 128, .absent, 0x7FFFFFF, 0x0, [(24, 3, 0, 3)]⟩
  | .ddrCState => ⟨10, 0x10, some 0, .ro, .none, 16, .absent, 0x0, 0x0, []⟩
  | .ddrCCe => ⟨10, 0x10, some 1, .ro, .none, 16, .absent, 0x0, 0x0, []⟩
  | .ddrCUe => ⟨10, 0x10, some 2, .ro, .none, 16, .absent, 0x0, 0x0, []⟩
  | .ddrCErrLo => ⟨10, 0x10, some 3, .ro, .none, 16, .absent, 0x0, 0x0, []⟩
  | .ddrCErrHi => ⟨10, 0x10, some 4, .ro, .none, 16, .absent, 0x0, 0x0, []⟩
  | .ddrCPpr => ⟨10, 0x10, some 5, .ro, .none, 16, .absent, 0x0, 0x0, []⟩
  | .ddrCScrub => ⟨10, 0x10, some 6, .ro, .none, 16, .absent, 0x0, 0x0, []⟩
  | .fltCfg => ⟨11, 0x0, none, .sh, .tuning, 1, .absent, 0xFFFFFFF, 0x2000714, [(0, 8, 5, 200), (8, 8, 1, 90)]⟩
  | .fltCfg2 => ⟨11, 0x4, none, .sh, .tuning, 1, .absent, 0x1FF, 0x60, [(0, 9, 1, 400)]⟩
  | .fltEvent => ⟨11, 0x8, none, .sqc, .none, 1, .absent, 0xFF, 0x0, []⟩
  | .fltState => ⟨11, 0xC, none, .ro, .none, 1, .absent, 0x0, 0x0, []⟩
  | .fltCapGib => ⟨11, 0x10, none, .ro, .none, 1, .absent, 0x0, 0x0, []⟩
  | .fltFastGib => ⟨11, 0x14, none, .ro, .none, 1, .absent, 0x0, 0x0, []⟩
  | .fltSpare => ⟨11, 0x18, none, .ro, .none, 1, .absent, 0x0, 0x0, []⟩
  | .fltWear => ⟨11, 0x1C, none, .ro, .none, 1, .absent, 0x0, 0x0, []⟩
  | .fltChIndAddr => ⟨11, 0x20, none, .rw, .none, 128, .absent, 0x7FFFFFF, 0x0, [(24, 3, 0, 3)]⟩
  | .fltCState => ⟨11, 0x24, some 0, .ro, .none, 32, .absent, 0x0, 0x0, []⟩
  | .fltCBytes => ⟨11, 0x24, some 1, .ro, .none, 32, .absent, 0x0, 0x0, []⟩
  | .fltDieIndAddr => ⟨11, 0x28, none, .rw, .none, 128, .absent, 0x7FFFFFF, 0x0, [(24, 3, 0, 3)]⟩
  | .fltDState => ⟨11, 0x2C, some 0, .ro, .none, 1024, .absent, 0x0, 0x0, []⟩
  | .fltDPe => ⟨11, 0x2C, some 1, .ro, .none, 1024, .absent, 0x0, 0x0, []⟩
  | .fltDTemp => ⟨11, 0x2C, some 2, .ro, .none, 1024, .absent, 0x0, 0x0, []⟩
  | .fltDThist => ⟨11, 0x2C, some 3, .ro, .none, 8192, .absent, 0x0, 0x0, []⟩
  | .fltDCorr => ⟨11, 0x2C, some 11, .ro, .none, 1024, .absent, 0x0, 0x0, []⟩
  | .fltDRetry => ⟨11, 0x2C, some 12, .ro, .none, 1024, .absent, 0x0, 0x0, []⟩
  | .fltDSoft => ⟨11, 0x2C, some 13, .ro, .none, 1024, .absent, 0x0, 0x0, []⟩
  | .fltDRebuild => ⟨11, 0x2C, some 14, .ro, .none, 1024, .absent, 0x0, 0x0, []⟩
  | .fltDUncorr => ⟨11, 0x2C, some 15, .ro, .none, 1024, .absent, 0x0, 0x0, []⟩
  | .fltDPfail => ⟨11, 0x2C, some 16, .ro, .none, 1024, .absent, 0x0, 0x0, []⟩
  | .fltDEfail => ⟨11, 0x2C, some 17, .ro, .none, 1024, .absent, 0x0, 0x0, []⟩
  | .fltDRetired => ⟨11, 0x2C, some 18, .ro, .none, 1024, .absent, 0x0, 0x0, []⟩
  | .fltPartIndAddr => ⟨11, 0x30, none, .rw, .none, 128, .present, 0x7FFFFFF, 0x0, [(24, 3, 0, 3)]⟩
  | .fltPevent => ⟨11, 0x34, some 0, .sqc, .none, 64, .own, 0x7, 0x0, []⟩
  | .fltPUsedGib => ⟨11, 0x34, some 1, .ro, .none, 64, .own, 0x0, 0x0, []⟩
  | .fltPJournal => ⟨11, 0x34, some 2, .ro, .none, 64, .own, 0x0, 0x0, []⟩
  | .fltPZones => ⟨11, 0x34, some 3, .ro, .none, 64, .own, 0x0, 0x0, []⟩
  | .fltPReads => ⟨11, 0x34, some 4, .ro, .none, 64, .own, 0x0, 0x0, []⟩
  | .fltPWrites => ⟨11, 0x34, some 5, .ro, .none, 64, .own, 0x0, 0x0, []⟩
  | .twlCfg => ⟨12, 0x0, none, .sh, .tuning, 1, .absent, 0x7FFFF, 0x201F4, [(0, 14, 50, 10000), (14, 5, 1, 31)]⟩
  | .twlVcWeight => ⟨12, 0x4, none, .sh, .tuning, 1, .absent, 0xFFFFF, 0x22444, [(0, 4, 1, 15), (4, 4, 1, 15), (8, 4, 1, 15), (12, 4, 1, 15), (16, 4, 1, 15)]⟩
  | .twlEvent => ⟨12, 0x8, none, .sqc, .none, 1, .absent, 0x7FF, 0x0, []⟩
  | .twlNode => ⟨12, 0xC, none, .ro, .none, 1, .absent, 0x0, 0x0, []⟩
  | .twlRtIndAddr => ⟨12, 0x10, none, .rw, .none, 128, .absent, 0x3FFF, 0x0, []⟩
  | .twlRtWord => ⟨12, 0x14, some 0, .sh, .tuning, 8192, .absent, 0xFFFFFFFF, 0x0, []⟩
  | .twlRtCount => ⟨12, 0x18, none, .ro, .none, 1, .absent, 0x0, 0x0, []⟩
  | .twlPortIndAddr => ⟨12, 0x1C, none, .rw, .none, 128, .absent, 0x7FFFFFF, 0x0, [(24, 3, 0, 3)]⟩
  | .twlPCfg => ⟨12, 0x20, some 0, .sh, .tuning, 12, .absent, 0x1FF, 0x61, [(3, 5, 8, 20)]⟩
  | .twlPExpect => ⟨12, 0x20, some 1, .sh, .tuning, 12, .absent, 0x1FFFFF, 0x0, [(17, 4, 0, 11)]⟩
  | .twlPCmd => ⟨12, 0x20, some 2, .wo, .none, 12, .absent, 0x3F, 0x0, []⟩
  | .twlPState => ⟨12, 0x20, some 3, .ro, .none, 12, .absent, 0x0, 0x0, []⟩
  | .twlPPeer => ⟨12, 0x20, some 4, .ro, .none, 12, .absent, 0x0, 0x0, []⟩
  | .twlPLmap => ⟨12, 0x20, some 5, .ro, .none, 12, .absent, 0x0, 0x0, []⟩
  | .twlPCorr => ⟨12, 0x20, some 6, .ro, .none, 12, .absent, 0x0, 0x0, []⟩
  | .twlPUncorr => ⟨12, 0x20, some 7, .ro, .none, 12, .absent, 0x0, 0x0, []⟩
  | .twlPReplay => ⟨12, 0x20, some 8, .ro, .none, 12, .absent, 0x0, 0x0, []⟩
  | .twlPSwaps => ⟨12, 0x20, some 9, .ro, .none, 12, .absent, 0x0, 0x0, []⟩
  | .twlPTxflits => ⟨12, 0x20, some 10, .ro, .none, 12, .absent, 0x0, 0x0, []⟩
  | .twlPRxflits => ⟨12, 0x20, some 11, .ro, .none, 12, .absent, 0x0, 0x0, []⟩
  | .twlPLerr => ⟨12, 0x20, some 12, .ro, .none, 96, .absent, 0x0, 0x0, []⟩
  | .twlReqOut => ⟨12, 0x24, none, .ro, .none, 1, .absent, 0x0, 0x0, []⟩
  | .twlTimeouts => ⟨12, 0x28, none, .ro, .none, 1, .absent, 0x0, 0x0, []⟩
  | .ownCfg => ⟨13, 0x0, none, .sh, .tuning, 1, .absent, 0xFFFFFF, 0x3207D0, [(0, 14, 100, 16000), (14, 10, 10, 1000)]⟩
  | .ownEvent => ⟨13, 0x4, none, .sqc, .none, 1, .absent, 0xFFF, 0x0, []⟩
  | .ownArg0 => ⟨13, 0x8, none, .rw, .none, 1, .absent, 0xFFFFFFFF, 0x0, []⟩
  | .ownArg1 => ⟨13, 0xC, none, .rw, .none, 1, .absent, 0xFFFFFFFF, 0x0, []⟩
  | .ownArg2 => ⟨13, 0x10, none, .rw, .none, 1, .absent, 0xFFFFFFFF, 0x0, []⟩
  | .ownCmd => ⟨13, 0x14, none, .wo, .none, 1, .absent, 0xFFFFF, 0x0, []⟩
  | .ownCmdStatus => ⟨13, 0x18, none, .ro, .none, 1, .absent, 0x0, 0x0, []⟩
  | .ownCompIndAddr => ⟨13, 0x1C, none, .rw, .none, 128, .absent, 0x1FFF, 0x0, []⟩
  | .ownCompIndData => ⟨13, 0x20, none, .ind, .none, 1, .absent, 0x0, 0x0, []⟩
  | .ownSegIndAddr => ⟨13, 0x24, none, .rw, .none, 128, .absent, 0xFFFFF, 0x0, []⟩
  | .ownSegIndData => ⟨13, 0x28, none, .ind, .none, 1, .absent, 0x0, 0x0, []⟩
  | .ownUnresolved => ⟨13, 0x2C, none, .ro, .none, 1, .absent, 0x0, 0x0, []⟩
  | .secEvent => ⟨14, 0x0, none, .sqc, .none, 1, .absent, 0x7F, 0x0, []⟩
  | .secViolInfo => ⟨14, 0x4, none, .ro, .none, 1, .absent, 0x0, 0x0, []⟩
  | .secFuse => ⟨14, 0x8, none, .ro, .none, 1, .absent, 0x0, 0x0, []⟩
  | .secSvnImage => ⟨14, 0xC, none, .ro, .none, 1, .absent, 0x0, 0x0, []⟩
  | .secSvnModel => ⟨14, 0x10, none, .ro, .none, 1, .absent, 0x0, 0x0, []⟩
  | .secSvnFw => ⟨14, 0x14, none, .ro, .none, 1, .absent, 0x0, 0x0, []⟩
  | .secMeasIndAddr => ⟨14, 0x18, none, .rw, .none, 128, .absent, 0xFF, 0x0, [(3, 4, 0, 11)]⟩
  | .secMeasIndData => ⟨14, 0x1C, none, .ind, .none, 1, .absent, 0x0, 0x0, []⟩
  | .secPartIndAddr => ⟨14, 0x20, none, .rw, .none, 128, .absent, 0x7FFFFFF, 0x0, [(24, 3, 0, 3)]⟩
  | .secPKeygen => ⟨14, 0x24, some 0, .ro, .none, 64, .absent, 0x0, 0x0, []⟩
  | .secPRekey => ⟨14, 0x24, some 1, .ro, .none, 64, .absent, 0x0, 0x0, []⟩
  | .secPRekeyAddrLo => ⟨14, 0x24, some 2, .ro, .none, 64, .absent, 0x0, 0x0, []⟩
  | .secPRekeyAddrHi => ⟨14, 0x24, some 3, .ro, .none, 64, .absent, 0x0, 0x0, []⟩
  | .secPViol => ⟨14, 0x24, some 4, .ro, .none, 64, .absent, 0x0, 0x0, []⟩
  | .hqEvent => ⟨2, 0x0, none, .sqc, .none, 64, .present, 0x1F, 0x0, []⟩
  | .hqFnInfo => ⟨2, 0x4, none, .ro, .none, 64, .present, 0x0, 0x0, []⟩
  | .hqFnEventVec => ⟨2, 0x8, none, .rw, .none, 64, .present, 0xFFF, 0x0, []⟩
  | .hqQpIndAddr => ⟨2, 0xC, none, .rw, .none, 128, .present, 0x3FFFFFF, 0x0, [(0, 5, 0, 16)]⟩
  | .hqQpSqBaseLo => ⟨2, 0x10, some 0, .rw, .none, 16384, .own, 0xFFFFFFFF, 0x0, []⟩
  | .hqQpSqBaseHi => ⟨2, 0x10, some 1, .rw, .none, 16384, .own, 0xFFFFFFFF, 0x0, []⟩
  | .hqQpCqBaseLo => ⟨2, 0x10, some 2, .rw, .none, 16384, .own, 0xFFFFFFFF, 0x0, []⟩
  | .hqQpCqBaseHi => ⟨2, 0x10, some 3, .rw, .none, 16384, .own, 0xFFFFFFFF, 0x0, []⟩
  | .hqQpSize => ⟨2, 0x10, some 4, .rw, .none, 16384, .own, 0x3FF, 0x0, []⟩
  | .hqQpInt => ⟨2, 0x10, some 5, .rw, .none, 16384, .own, 0xFFFFFFFF, 0x0, []⟩
  | .hqQpCtrl => ⟨2, 0x10, some 6, .rw, .none, 16384, .own, 0x1, 0x0, []⟩
  | .hqQpState => ⟨2, 0x10, some 7, .ro, .none, 16384, .own, 0x0, 0x0, []⟩
  | .hqQpSqptrs => ⟨2, 0x10, some 8, .ro, .none, 16384, .own, 0x0, 0x0, []⟩
  | .hqQpCqptrs => ⟨2, 0x10, some 9, .ro, .none, 16384, .own, 0x0, 0x0, []⟩
  | .hqQpImg => ⟨2, 0x10, some 10, .ro, .none, 16384, .own, 0x0, 0x0, []⟩
  | .hqQpDepthSample => ⟨2, 0x10, some 11, .ro, .none, 16384, .own, 0x0, 0x0, []⟩
  | .hqQpDelaySample => ⟨2, 0x10, some 12, .ro, .none, 16384, .own, 0x0, 0x0, []⟩
  | .hqQpDelayMax => ⟨2, 0x10, some 13, .rw, .none, 16384, .own, 0xFFFFFF, 0x0, []⟩
  | .hqQpCredit => ⟨2, 0x10, some 14, .ro, .none, 16384, .own, 0x0, 0x0, []⟩
  | .hqQpAdmitted => ⟨2, 0x10, some 15, .ro, .none, 16384, .own, 0x0, 0x0, []⟩
  | .hqQpCompleted => ⟨2, 0x10, some 16, .ro, .none, 16384, .own, 0x0, 0x0, []⟩
  | .hqFnOutstanding => ⟨2, 0x14, none, .ro, .none, 64, .present, 0x0, 0x0, []⟩
  | .hqRcCfg => ⟨2, 0x40, none, .sh, .tuning, 1, .absent, 0xFFFFFFFF, 0x10000010, []⟩
  | .hqLink => ⟨2, 0x44, none, .ro, .none, 1, .absent, 0x0, 0x0, []⟩
  | .rasCfg => ⟨15, 0x0, none, .sh, .tuning, 1, .absent, 0xFFF, 0xFA3, [(2, 10, 1, 1023)]⟩
  | .rasEvent => ⟨15, 0x4, none, .sqc, .none, 1, .absent, 0x7FF, 0x0, []⟩
  | .rasCmd => ⟨15, 0x8, none, .wo, .none, 1, .absent, 0x1FFFFF, 0x0, []⟩
  | .rasCmdStatus => ⟨15, 0xC, none, .ro, .none, 1, .absent, 0x0, 0x0, []⟩
  | .rasFltIndAddr => ⟨15, 0x10, none, .rw, .none, 128, .absent, 0x1FFF, 0x0, []⟩
  | .rasFltIndData => ⟨15, 0x14, none, .ind, .none, 1, .absent, 0x0, 0x0, []⟩
  | .rasUnitIndAddr => ⟨15, 0x18, none, .rw, .none, 128, .absent, 0x1FFFFF, 0x0, [(18, 2, 0, 2)]⟩
  | .rasUState => ⟨15, 0x1C, some 0, .ro, .none, 262144, .absent, 0x0, 0x0, []⟩
  | .rasUVgen => ⟨15, 0x1C, some 1, .ro, .none, 262144, .absent, 0x0, 0x0, []⟩
  | .rasUFaults => ⟨15, 0x1C, some 2, .ro, .none, 262144, .absent, 0x0, 0x0, []⟩
  | .rasDomIndAddr => ⟨15, 0x20, none, .rw, .none, 128, .absent, 0x7FFFFFF, 0x0, [(24, 3, 0, 3)]⟩
  | .rasDState => ⟨15, 0x24, some 0, .ro, .none, 236, .absent, 0x0, 0x0, []⟩
  | .rasPartIndAddr => ⟨15, 0x28, none, .rw, .none, 128, .present, 0x7FFFFFF, 0x0, [(24, 3, 0, 3)]⟩
  | .rasPevent => ⟨15, 0x2C, some 0, .sqc, .none, 64, .own, 0x1F, 0x0, []⟩
  | .rasPLedgerNextLo => ⟨15, 0x2C, some 1, .ro, .none, 64, .own, 0x0, 0x0, []⟩
  | .rasPLedgerNextHi => ⟨15, 0x2C, some 2, .ro, .none, 64, .own, 0x0, 0x0, []⟩
  | .rasPLedgerOldestLo => ⟨15, 0x2C, some 3, .ro, .none, 64, .own, 0x0, 0x0, []⟩
  | .rasPLedgerOldestHi => ⟨15, 0x2C, some 4, .ro, .none, 64, .own, 0x0, 0x0, []⟩
  | .rasPLedgerLost => ⟨15, 0x2C, some 5, .ro, .none, 64, .own, 0x0, 0x0, []⟩
  | .rasPFaulted => ⟨15, 0x2C, some 6, .ro, .none, 64, .own, 0x0, 0x0, []⟩
  | .pwrCfg => ⟨16, 0x0, none, .sh, .tuning, 1, .absent, 0x3, 0x2, []⟩
  | .pwrEvent => ⟨16, 0x4, none, .sqc, .none, 1, .absent, 0xFF, 0x0, []⟩
  | .pwrStatus => ⟨16, 0x8, none, .ro, .none, 1, .absent, 0x0, 0x0, []⟩
  | .pwrBoot => ⟨16, 0xC, none, .ro, .none, 1, .absent, 0x0, 0x0, []⟩
  | .pwrReset => ⟨16, 0x10, none, .wo, .none, 1, .absent, 0x1, 0x0, []⟩
  | .pwrRtcLo => ⟨16, 0x14, none, .ro, .none, 1, .absent, 0x0, 0x0, []⟩
  | .pwrRtcHi => ⟨16, 0x18, none, .ro, .none, 1, .absent, 0x0, 0x0, []⟩
  | .pwrHwLimit => ⟨16, 0x1C, none, .ro, .none, 1, .absent, 0x0, 0x0, []⟩
  | .pwrDeepTileLo => ⟨16, 0x20, none, .sh, .tuning, 1, .absent, 0xFFFFFFFF, 0x0, []⟩
  | .pwrDeepTileHi => ⟨16, 0x24, none, .sh, .tuning, 1, .absent, 0xFFFFFFFF, 0x0, []⟩
  | .pwrDeepCl => ⟨16, 0x28, none, .sh, .tuning, 1, .absent, 0xFFFF, 0x0, []⟩
  | .pwrAdedanIndAddr => ⟨16, 0x2C, none, .rw, .none, 128, .absent, 0xF, 0x0, []⟩
  | .pwrAdedanRow => ⟨16, 0x30, some 0, .sh, .tuning, 8, .absent, 0x1FFFFFF, 0x0, []⟩
  | .pwrDomIndAddr => ⟨16, 0x34, none, .rw, .none, 128, .absent, 0x7FFFFFF, 0x0, [(24, 3, 0, 3)]⟩
  | .pwrDState => ⟨16, 0x38, some 0, .ro, .none, 236, .absent, 0x0, 0x0, []⟩
  | .pwrDCap => ⟨16, 0x38, some 1, .sh, .tuning, 236, .absent, 0xFFF, 0x0, []⟩
  | .pwrDBudget => ⟨16, 0x38, some 2, .sh, .tuning, 236, .absent, 0x3FF, 0x0, []⟩
  | .pwrDIdle => ⟨16, 0x38, some 3, .sh, .tuning, 236, .absent, 0xFFFF, 0x0, []⟩
  | .pwrDWakes => ⟨16, 0x38, some 4, .ro, .none, 236, .absent, 0x0, 0x0, []⟩
  | .mgtStatus => ⟨17, 0x0, none, .ro, .none, 1, .absent, 0x0, 0x0, []⟩
  | .mgtEvent => ⟨17, 0x4, none, .sqc, .none, 1, .absent, 0x1FF, 0x0, []⟩
  | .mgtFwVersion => ⟨17, 0x8, none, .ro, .none, 1, .absent, 0x0, 0x0, []⟩
  | .mgtFwSvn => ⟨17, 0xC, none, .ro, .none, 1, .absent, 0x0, 0x0, []⟩
  | .mgtMbxDoorbell => ⟨17, 0x10, none, .wo, .none, 1, .absent, 0x1, 0x0, []⟩
  | .mgtMbxStatus => ⟨17, 0x14, none, .ro, .none, 1, .absent, 0x0, 0x0, []⟩
  | .mgtPtmSeq => ⟨17, 0x18, none, .ro, .none, 1, .absent, 0x0, 0x0, []⟩
  | .mgtPtmRtcLo => ⟨17, 0x1C, none, .ro, .none, 1, .absent, 0x0, 0x0, []⟩
  | .mgtPtmRtcHi => ⟨17, 0x20, none, .ro, .none, 1, .absent, 0x0, 0x0, []⟩
  | .mgtPtmNsLo => ⟨17, 0x24, none, .ro, .none, 1, .absent, 0x0, 0x0, []⟩
  | .mgtPtmNsHi => ⟨17, 0x28, none, .ro, .none, 1, .absent, 0x0, 0x0, []⟩
  | .mgtLogNextLo => ⟨17, 0x2C, none, .ro, .none, 1, .absent, 0x0, 0x0, []⟩
  | .mgtLogNextHi => ⟨17, 0x30, none, .ro, .none, 1, .absent, 0x0, 0x0, []⟩
  | .mgtLogWear => ⟨17, 0x34, none, .ro, .none, 1, .absent, 0x0, 0x0, []⟩
  | .mgtSensIndAddr => ⟨17, 0x38, none, .rw, .none, 128, .absent, 0x7FFFFFF, 0x0, [(24, 3, 0, 3)]⟩
  | .mgtSValue => ⟨17, 0x3C, some 0, .ro, .none, 120, .absent, 0x0, 0x0, []⟩
  | .mgtSMax => ⟨17, 0x3C, some 1, .rw, .none, 120, .absent, 0xFFFF, 0x0, []⟩
  | .mgtSAlarm => ⟨17, 0x3C, some 2, .rw, .none, 120, .absent, 0xFFFF, 0x7FFF, []⟩
  | .blkFault => ⟨0, 0x3FF0C, none, .sqc, .none, 18, .present, 0x1, 0x0, []⟩

/-- Registers of BAR0 by place, part A. -/
def regListA : List Reg :=
  [.glbId, .glbUidLo, .glbUidHi, .glbPart, .glbEpochLo, .glbEpochHi, .glbStatus, .glbUpdStrobe,
   .glbUpdStatus, .glbEventSum, .glbFaultSum, .glbWerrSum, .imgCtrl, .imgStageAddrLo, .imgStageAddrHi,
   .imgStageLen, .imgStatus, .imgActiveSeqLo, .imgActiveSeqHi, .imgPend0EpochLo, .imgPend0EpochHi,
   .imgPend1EpochLo, .imgPend1EpochHi, .imgReject, .imgMissedDomains, .imgPartIndAddr, .imgPartIndData,
   .plnPartIndAddr, .plnPcfg, .plnWalks, .plnSweeps, .plnPevent, .plnHistIndAddr, .plnHistIndData,
   .wlkCfg, .wlkPartIndAddr, .wlkLinkCfg, .wlkActive, .wlkDisagree, .wlkDisagreeCount, .wlkTruncCount,
   .wlkTileIndAddr, .wlkTState, .wlkTRounds, .wlkTIdle, .lchSweepStepLimit, .lchSweepCfg, .lchScrubCfg,
   .lchEvent, .lchErrIndAddr, .lchErrIndData, .lchStackIndAddr, .lchSState, .lchSSteps, .lchSPasses,
   .lchSCrcErrs, .lchBankIndAddr, .lchBState, .lchBWaitMax, .hqEvent, .hqFnInfo, .hqFnEventVec,
   .hqQpIndAddr, .hqQpSqBaseLo, .hqQpSqBaseHi, .hqQpCqBaseLo, .hqQpCqBaseHi, .hqQpSize, .hqQpInt,
   .hqQpCtrl, .hqQpState, .hqQpSqptrs, .hqQpCqptrs, .hqQpImg, .hqQpDepthSample, .hqQpDelaySample,
   .hqQpDelayMax, .hqQpCredit, .hqQpAdmitted, .hqQpCompleted, .hqFnOutstanding, .hqRcCfg, .hqLink]

/-- Registers of BAR0 by place, part B. -/
def regListB : List Reg :=
  [.mslCfg, .mslEvent, .mslPartIndAddr, .mslPLists, .mslPShort, .mslPDups, .mslPPasses, .mslUnitIndAddr,
   .mslUState, .mslUEntries, .mslUPasses, .mslUSorts, .epcCfg, .epcEvent, .epcEpochLo, .epcEpochHi,
   .epcBoundaryRtcLo, .epcBoundaryRtcHi, .epcLen, .epcMissed, .epcPartIndAddr, .epcPcfg, .epcPcfg2,
   .epcPevent, .epcPCurLo, .epcPCurHi, .epcPOldestLo, .epcPOldestHi, .epcPRetain, .epcPFresh,
   .epcPAccepted, .epcPLinked, .brkEvent, .brkClIndAddr, .brkCState, .brkCFencedCores, .brkCBusy,
   .brkCLayers, .brkCSat, .brkCNonfinite, .memEvent, .memReserve, .memCxl, .memSheetIndAddr, .memSUnit,
   .memPartIndAddr, .memPGuar, .memPCeil, .memPDepth, .memPRate, .memPUnits, .memPWait, .memPSheet,
   .memPHits, .memPMisses, .memPT4Err, .ddrCfg, .ddrEvent, .ddrOrg, .ddrChIndAddr, .ddrCState, .ddrCCe,
   .ddrCUe, .ddrCErrLo, .ddrCErrHi, .ddrCPpr, .ddrCScrub]

/-- Registers of BAR0 by place, part C. -/
def regListC : List Reg :=
  [.fltCfg, .fltCfg2, .fltEvent, .fltState, .fltCapGib, .fltFastGib, .fltSpare, .fltWear, .fltChIndAddr,
   .fltCState, .fltCBytes, .fltDieIndAddr, .fltDState, .fltDPe, .fltDTemp, .fltDThist, .fltDCorr,
   .fltDRetry, .fltDSoft, .fltDRebuild, .fltDUncorr, .fltDPfail, .fltDEfail, .fltDRetired,
   .fltPartIndAddr, .fltPevent, .fltPUsedGib, .fltPJournal, .fltPZones, .fltPReads, .fltPWrites, .twlCfg,
   .twlVcWeight, .twlEvent, .twlNode, .twlRtIndAddr, .twlRtWord, .twlRtCount, .twlPortIndAddr, .twlPCfg,
   .twlPExpect, .twlPCmd, .twlPState, .twlPPeer, .twlPLmap, .twlPCorr, .twlPUncorr, .twlPReplay,
   .twlPSwaps, .twlPTxflits, .twlPRxflits, .twlPLerr, .twlReqOut, .twlTimeouts, .ownCfg, .ownEvent,
   .ownArg0, .ownArg1, .ownArg2, .ownCmd, .ownCmdStatus, .ownCompIndAddr, .ownCompIndData, .ownSegIndAddr,
   .ownSegIndData, .ownUnresolved, .secEvent, .secViolInfo, .secFuse, .secSvnImage, .secSvnModel,
   .secSvnFw, .secMeasIndAddr, .secMeasIndData, .secPartIndAddr, .secPKeygen, .secPRekey,
   .secPRekeyAddrLo, .secPRekeyAddrHi, .secPViol]

/-- Registers of BAR0 by place, part D. -/
def regListD : List Reg :=
  [.rasCfg, .rasEvent, .rasCmd, .rasCmdStatus, .rasFltIndAddr, .rasFltIndData, .rasUnitIndAddr,
   .rasUState, .rasUVgen, .rasUFaults, .rasDomIndAddr, .rasDState, .rasPartIndAddr, .rasPevent,
   .rasPLedgerNextLo, .rasPLedgerNextHi, .rasPLedgerOldestLo, .rasPLedgerOldestHi, .rasPLedgerLost,
   .rasPFaulted, .pwrCfg, .pwrEvent, .pwrStatus, .pwrBoot, .pwrReset, .pwrRtcLo, .pwrRtcHi, .pwrHwLimit,
   .pwrDeepTileLo, .pwrDeepTileHi, .pwrDeepCl, .pwrAdedanIndAddr, .pwrAdedanRow, .pwrDomIndAddr,
   .pwrDState, .pwrDCap, .pwrDBudget, .pwrDIdle, .pwrDWakes, .mgtStatus, .mgtEvent, .mgtFwVersion,
   .mgtFwSvn, .mgtMbxDoorbell, .mgtMbxStatus, .mgtPtmSeq, .mgtPtmRtcLo, .mgtPtmRtcHi, .mgtPtmNsLo,
   .mgtPtmNsHi, .mgtLogNextLo, .mgtLogNextHi, .mgtLogWear, .mgtSensIndAddr, .mgtSValue, .mgtSMax,
   .mgtSAlarm]

/-- Every register but xxx_FAULT. -/
def regAll : List Reg := regListA ++ regListB ++ regListC ++ regListD

end Sys2Proof.Machine
end

