-- ==== Sys2Proof/Machine/Flags.lean ====
section
/-! DEFINITION. Register copies, event bits, write errors, interrupts and violations: every flag computation of
03_register_conventions, 17_host_queues R531 and R533, and 16_isolation_security R476 and R491. -/
namespace Sys2Proof.Machine
open Sys2Proof

/-! ### Register copies (R71, R80) -/

/-- Key of a register instance in the register file. -/
def regKey (r : Reg) (u : Nat) : Nat := r.ctorIdx * 262144 + u

/-- Odd parity of one byte: the bit that makes the number of ones odd (R80). -/
def parityBit (b : Nat) : Bool :=
  !(((((((bit b 0 ^^ bit b 1) ^^ bit b 2) ^^ bit b 3) ^^ bit b 4) ^^ bit b 5) ^^ bit b 6) ^^ bit b 7)

/-- Parity bits of the four bytes of a word. -/
def parityOf (v : W32) : BitVec 4 :=
  let n := v.toNat
  BitVec.ofNat 4 (b2n (parityBit (bits n 0 8)) + 2 * b2n (parityBit (bits n 8 8)) + 4 * b2n (parityBit (bits n 16 8)) +
    8 * b2n (parityBit (bits n 24 8)))

/-- A copy as the register write path stores it. -/
def regCopy (v : W32) : RegCopy := ⟨v, parityOf v⟩

/-- PWR_D_IDLE at reset of each clock domain, µs (R638). -/
def idleReset (d : Nat) : Nat :=
  if d < 64 then 20 else if d < 80 then 50 else if d < 96 then 20 else if d < 102 then 0 else if d < 108 then 10
  else if d < 124 then 100 else if d < 156 then 50 else if d < 185 then 0 else if d < 209 then 20
  else if d < 217 then 10 else if d < 223 then 0 else if d < 231 then 10 else 0

/-- Reset value of a register instance (R688, R691). -/
def regReset (r : Reg) (u : Nat) : W32 := if r = .pwrDIdle then BitVec.ofNat 32 (idleReset u) else r.row.reset

/-- The copy in force of a register instance. -/
def State.reg (s : State) (r : Reg) (u : Nat) : W32 := ((s.regs.force.get (regKey r u)).map RegCopy.val).getD (regReset r u)

/-- A field of a register in force. -/
def State.fld (s : State) (r : Reg) (u lo w : Nat) : Nat := bits (s.reg r u).toNat lo w

/-- The copy of a block-wide register that a clock domain runs: the one in force, or the older one of a domain that missed a
strobe (R78). -/
def State.regIn (s : State) (d : Nat) (r : Reg) (u : Nat) : W32 :=
  ((s.regs.lagging.get (2 ^ 40 * d + regKey r u)).map RegCopy.val).getD (s.reg r u)

/-- A word of the mailbox request. -/
def State.mbxWord (s : State) (i : Nat) : W32 := ((s.usnea.mbxReq.get i).map RegCopy.val).getD 0

/-- The shadow copy of a register instance: the copy in force until it is written (R71). -/
def State.shadow (s : State) (r : Reg) (u : Nat) : W32 :=
  ((s.regs.shadow.get (regKey r u)).map RegCopy.val).getD (s.reg r u)

/-- The copy in force written. -/
def State.setReg (s : State) (r : Reg) (u : Nat) (v : W32) : State :=
  { s with regs := { s.regs with force := s.regs.force.put (regKey r u) (regCopy v) } }

/-- The shadow copy written. -/
def State.setShadow (s : State) (r : Reg) (u : Nat) (v : W32) : State :=
  { s with regs := { s.regs with shadow := s.regs.shadow.put (regKey r u) (regCopy v) } }

/-- A counter or latched status word. -/
def State.ro (s : State) (r : Reg) (u : Nat) : W32 := s.regs.ro.getD (regKey r u) (regReset r u)

/-- A status word latched. -/
def State.setRo (s : State) (r : Reg) (u : Nat) (v : W32) : State :=
  { s with regs := { s.regs with ro := s.regs.ro.put (regKey r u) v } }

/-- A counter raised; it wraps at 2^32. -/
def State.bump (s : State) (r : Reg) (u n : Nat) : State := s.setRo r u (s.ro r u + BitVec.ofNat 32 n)

/-! ### Interrupts (R531, R533) -/

/-- An MSI-X message of a vector of a function; a masked vector sets its pending bit (R531). No request goes out under
the requester ID of a function that is quiet (R534). -/
def sendMsix (s : State) (fn v : Nat) : State :=
  let f := s.host.fns.getD fn Fn.reset
  if f.quiet || s.img.vfOff.contains fn then s
  else if f.unmasked.contains v then { s with host := { s.host with msix := (fn, v) :: s.host.msix } }
  else { s with host := { s.host with fns := s.host.fns.put fn { f with pba := addSet f.pba v } } }

/-- The event vector of a function signals, at most once per 10 µs (R533). -/
def signalFn (s : State) (fn : Nat) : State :=
  let vec := (s.reg .hqFnEventVec fn).toNat
  let f := s.host.fns.getD fn Fn.reset
  if !bit vec 11 then s
  else if f.gap then { s with host := { s.host with fns := s.host.fns.put fn { f with inGap := true } } }
  else
    let t := sendMsix s fn (bits vec 0 11)
    { t with host := { t.host with fns := t.host.fns.put fn { t.host.fns.getD fn Fn.reset with gap := true } } }

/-- Functions in whose BAR0 view an event bit of a register instance stands (R64, R533, R686). -/
def viewers (s : State) (r : Reg) (u : Nat) : List Nat :=
  if r = .hqEvent then [u]
  else if r = .blkFault then [0]
  else match r.row.view with
    | .absent => [0]
    | .present => 0 :: ((List.range 64).filter (fun v => v != 0 && !s.img.vfOff.contains v))
    | .own => if u = 0 then [0] else if s.img.vfOff.contains u then [0] else [0, u]

/-! ### Sequence-clear registers (R84 to R86) -/

/-- A sequence-clear register that has seen no event. -/
def SqcCell.clear : SqcCell := { ev := 0, seq := 0, stamps := [] }

/-- An event bit set: SEQ advances, the bit takes it as its stamp (R84). -/
def sqcSet (c : SqcCell) (b : Nat) : SqcCell :=
  { ev := c.ev ||| BitVec.ofNat 24 (2 ^ b), seq := c.seq + 1, stamps := c.stamps.put b (c.seq + 1) }

/-- The word that a sequence-clear register reads as, without its status fields. -/
def sqcWord (c : SqcCell) : W32 := (c.seq ++ c.ev : BitVec 32)

/-- Event bits whose stamp is at or before S, among those of a mask (R85). -/
def sqcClear (c : SqcCell) (mask : BitVec 24) (sq : BitVec 8) : SqcCell :=
  let hit (b : Nat) : Bool :=
    c.ev.getLsbD b && mask.getLsbD b && decide ((c.seq - c.stamps.getD b 0).toNat ≥ (c.seq - sq).toNat)
  { c with ev := BitVec.ofNat 24 (((List.range 24).filter (fun b => c.ev.getLsbD b && !hit b)).foldl (fun n b => n + 2 ^ b) 0) }

/-- The event register instance. -/
def State.sqc (s : State) (r : Reg) (u : Nat) : SqcCell := s.regs.sqc.getD (regKey r u) SqcCell.clear

/-- An event bit of a register instance is set, and every function that sees it rise is signalled (R84, R533). -/
def State.event (s : State) (r : Reg) (u b : Nat) : State :=
  let c := s.sqc r u
  let t := { s with regs := { s.regs with sqc := s.regs.sqc.put (regKey r u) (sqcSet c b) } }
  if c.ev.getLsbD b then t else (viewers s r u).foldl signalFn t

/-- The same event set so many times: its bit, and SEQ once for each (R84). -/
def State.events (s : State) (r : Reg) (u b : Nat) : Nat → State
  | 0 => s
  | n + 1 => (s.event r u b).events r u b n

/-- An event bit is set where a condition holds. -/
def State.eventIf (s : State) (c : Bool) (r : Reg) (u b : Nat) : State := if c then s.event r u b else s

/-! ### Write errors (R67, R686) -/

/-- Key of a requester's copy of a block's write-error registers; Usnea firmware shares the physical function's. -/
def werrKey (req block : Nat) : Nat := block * 64 + (if req ≥ 64 then 0 else req)

/-- A write error is recorded in the requester's copy (R67): the first latches xxx_WERR_INFO, a further one sets EV_LOST
(DEDUCED, log entry 10). -/
def writeError (s : State) (req block off al cause : Nat) : State :=
  let k := werrKey req block
  let c := s.regs.werr.getD k SqcCell.clear
  let fn := if req ≥ 64 then 0 else req
  if c.ev.getLsbD 0 then
    let t := { s with regs := { s.regs with werr := s.regs.werr.put k (sqcSet c 1) } }
    if c.ev.getLsbD 1 then t else signalFn t fn
  else
    signalFn
      { s with regs := { s.regs with
          werr := s.regs.werr.put k (sqcSet c 0),
          werrInfo := s.regs.werrInfo.put k { offset := off, alias_ := al, cause := cause, fn := req } } } fn

/-- Causes of a write error (R67). -/
def werrReserved : Nat := 1
def werrLocked : Nat := 2
def werrNotPermitted : Nat := 3
def werrAliasField : Nat := 4
def werrStaleSeq : Nat := 5
def werrIndRange : Nat := 6
def werrUnitFenced : Nat := 7
def werrPartial : Nat := 8
def werrEpochGroup : Nat := 9
def werrBlockFenced : Nat := 10
def werrUnmapped : Nat := 11

/-! ### Violations and fences (R476, R491) -/

/-- SEC_VIOL_INFO latches when EV_VIOLATION or EV_FENCE rises while neither is set. -/
def latchViol (s : State) (fn kind block detail : Nat) : State :=
  let c := s.sqc .secEvent 0
  if c.ev.getLsbD 0 || c.ev.getLsbD 1 then s
  else { s with sec := { s.sec with violInfo := BitVec.ofNat 32 (fn % 128 + kind * 128 + block % 32 * 2048 + detail % 65536 * 65536) } }

/-- A function violated its ownership (R491). -/
def violation (s : State) (fn kind block detail : Nat) : State :=
  ((latchViol s fn kind block detail).event .secEvent 0 0).bump .secPViol fn 1

/-- A fence refused an access that carries a partition tag (R476). -/
def fenceRefusal (s : State) (tag kind detail : Nat) : State :=
  let t := (latchViol s (if tag < 64 then tag else 0x7F) kind 0 detail).event .secEvent 0 1
  if tag < 64 then t.bump .secPViol tag 1 else t

/-- An access refused by a tier: MEM_EVENT.EV_REFUSED beside the fence (R333, R476). -/
def tierRefusal (s : State) (tag tier : Nat) : State := (fenceRefusal s tag 3 tier).event .memEvent 0 2

end Sys2Proof.Machine
end

