-- ==== Sys2Proof/Machine/Events.lean ====
section
/-! DEFINITION. Management messages as bytes, and the events that Usnea sends to its subscribers (20_usnea_management R628,
R635). -/
namespace Sys2Proof.Machine
open Sys2Proof

/-! ### Messages (R628) -/

/-- A management message: header and payload, with its CRC. -/
def mgmtBytes (typ tag status flags session : Nat) (payload : List Byte) : List Byte :=
  let h := natLe 2 typ ++ natLe 2 payload.length ++ natLe 4 tag ++ natLe 1 status ++ natLe 1 flags ++ natLe 2 session
  h ++ natLe 4 (crc32c (h ++ natLe 4 0 ++ payload)) ++ payload

/-! ### Events (R635) -/

/-- Transport of a subscription's destination: 0 and 1 a UDP port at an IPv4 or IPv6 address, 2 an MCTP endpoint on I3C, 3
one on SMBus (log entry 36). -/
def destVia (d : List Byte) : Transport :=
  match field d 0 1 with
  | 2 => .i3c | 3 => .smbus | _ => .udp

/-- An EVENT message: EVSEQ, events dropped before it, mask bit, body (log entry 36). -/
def eventBytes (e : Event) (dropped : Nat) : List Byte :=
  mgmtBytes 0x0013 0 0 4 0 (natLe 4 e.seq ++ natLe 4 dropped ++ natLe 4 e.bit ++ e.body)

/-- An event for one subscriber: it is held and sent, or dropped where 1,024 are held. -/
def Sub.push (b : Sub) (bit : Nat) (body : List Byte) : Sub × List (Transport × List Byte × List Byte) :=
  if b.events.length ≥ 1024 then ({ b with dropped := b.dropped + 1 }, [])
  else
    let e : Event := { seq := b.next, bit := bit, body := body, sent := 1 }
    ({ b with next := (b.next + 1) % 2 ^ 32, events := b.events ++ [e], dropped := 0 }, [(destVia b.dest, b.dest, eventBytes e b.dropped)])

/-- Usnea firmware runs and its writes pass the firewall. -/
def usneaUp (s : State) : Bool := s.usnea.running && !s.usnea.closed && !s.usnea.restarting

/-- An event of a mask bit goes to every subscriber that asked for it (R635). -/
def raiseEvent (s : State) (b : Nat) (body : List Byte) : State :=
  if !usneaUp s then s else
  let r := s.usnea.subs.map fun x => if bit x.mask b then x.push b body else (x, [])
  let lost := (s.usnea.subs.zip r).any fun x => decide (x.1.dropped < x.2.1.dropped)
  (s.mapUsnea fun u => { u with subs := r.map (·.1), sent := (r.flatMap (·.2)).reverse ++ u.sent }).eventIf lost .mgtEvent 0 7

end Sys2Proof.Machine
end

