-- ==== Sys2Proof/Machine/Faults.lean ====
section
/-! DEFINITION. Units and their service states, fault records and the fault ledgers: the operations that every family
shares (19_faults_recovery R579 to R604). -/
namespace Sys2Proof.Machine
open Sys2Proof

/-! ### Units (R582, R587) -/

/-- Key of a unit. -/
def unitKey (kind u : Nat) : Nat := 8192 * kind + u

/-- Number of units of each kind (R587). -/
def unitCount (kind : Nat) : Nat :=
  match kind with
  | 0x01 => 64 | 0x02 => 16 | 0x03 => 256 | 0x04 => 16 | 0x05 => 4 | 0x06 => 24 | 0x07 => 6144 | 0x08 => 6
  | 0x09 => 16 | 0x0A => 32 | 0x0B => 1024 | 0x0C => 12 | 0x0D => 8 | 0x0E => 4 | 0x0F => 4 | 0x10 => 2
  | 0x11 => 4 | 0x12 => 236 | 0x13 => 18 | _ => 0

/-- What the RAS block keeps of a unit. -/
def State.unit (s : State) (kind u : Nat) : UnitRec := s.ras.units.getD (unitKey kind u) UnitRec.initial

/-- A unit's record written. -/
def State.setUnit (s : State) (kind u : Nat) (r : UnitRec) : State :=
  s.mapRas fun x => { x with units := x.units.store UnitRec.initial (unitKey kind u) r }

/-- Clock domains that a unit runs in (R638). -/
def unitDoms (kind u : Nat) : List Nat :=
  match kind with
  | 0x01 => [u]
  | 0x02 => [64 + u]
  | 0x03 => [64 + u / 16]
  | 0x04 => [80 + u]
  | 0x05 => [180]
  | 0x06 => [185 + u]
  | 0x07 => [102 + u / 1024]
  | 0x08 => [96 + u]
  | 0x09 => [108 + u]
  | 0x0A => [124 + u]
  | 0x0C => [156 + 2 * u, 157 + 2 * u]
  | 0x0D => [209 + u]
  | 0x0E => [223 + u]
  | 0x0F => [227 + u]
  | 0x10 => [217 + u]
  | 0x11 => [219 + u]
  | _ => []

/-- A domain of the unit has missed the latest boundary: its epoch is not the one of the work's stamp, and it does none (R54,
R260). -/
def unitMissed (s : State) (kind u : Nat) : Bool := s.epoch.awaiting && (unitDoms kind u).any s.epoch.missed.contains

/-- The unit takes work. -/
def State.serves (s : State) (kind u : Nat) : Bool := (s.unit kind u).st == .inService && !unitMissed s kind u

/-- The unit is fenced: a fault, a drain or a retirement has taken it out, and it has not been readmitted. -/
def State.fencedUnit (s : State) (kind u : Nat) : Bool :=
  (s.unit kind u).st != .inService && (s.unit kind u).st != .draining

/-- The register block is OUT (R593). -/
def State.blockOut (s : State) (block : Nat) : Bool := (s.unit 0x13 block).st != .inService

/-- A register unit that parity has fenced takes no new work (R83). -/
def State.partOut (s : State) (block u : Nat) : Bool := s.regs.fencedUnits.contains (65536 * block + u)

/-- Code of a service state (R582). -/
def svcCode : SvcSt → Nat
  | .inService => 0 | .draining => 1 | .out => 2 | .returning => 3 | .waiting => 4 | .retired => 5

/-! ### Ledger records (R600 to R603) -/

/-- REF of a record that refers to none. -/
def noRef : Nat := 0xFFFFFFFFFFFFFFFF

/-- The 64 bytes of a record (R600). -/
def lrecBytes (r : LRec) : List Byte :=
  natLe 8 r.lseq ++ natLe 1 r.typ ++ natLe 1 r.cause ++ natLe 1 r.fn ++ natLe 1 0 ++ natLe 2 r.qp ++ natLe 2 r.entry ++
    natLe 8 r.rtc ++ natLe 8 r.ref ++ slice r.body 0 32

/-- BODY of a FAULT record (R600). -/
def faultBody (cls kind u vgen epoch affected addr : Nat) : List Byte :=
  natLe 32 (cls % 2 ^ 8 + kind % 2 ^ 5 * 2 ^ 8 + u % 2 ^ 13 * 2 ^ 13 + vgen % 2 ^ 32 * 2 ^ 32 + epoch % 2 ^ 48 * 2 ^ 64 +
    affected % 2 ^ 32 * 2 ^ 128 + addr % 2 ^ 47 * 2 ^ 160)

/-- The ledger of a partition. -/
def State.ledger (s : State) (p : Nat) : Ledger := s.ras.ledgers.getD p Ledger.empty

/-- A record for the persistent log (R604); it waits for Usnea's copying, and records beyond 65,536 are dropped while
Usnea restarts (R606). -/
def queueLog (s : State) (p : Nat) (r : LRec) : State :=
  if s.usnea.restarting && decide (s.ras.logWait.length ≥ 65536) then s.event .rasEvent 0 8
  else s.mapRas fun x => { x with logWait := x.logWait ++ [(p, r)] }

/-- A record written into a partition's ledger: it takes the next LSEQ and the present counter value, and overwrites
the oldest record of a full ring (R600, R603). -/
def ledgerAdd (s : State) (p : Nat) (r : LRec) : State :=
  let l := s.ledger p
  let r := { r with lseq := l.next, rtc := rtc s, read := false }
  let full := decide (l.recs.length ≥ 16384)
  let lost := full && (match l.recs with | [] => false | o :: _ => !o.read)
  let kept := if full then l.recs.drop 1 else l.recs
  let s := s.mapRas fun x => { x with ledgers := x.ledgers.put p { next := l.next + 1, recs := kept ++ [r] } }
  let s := if lost then raiseEvent ((s.bump .rasPLedgerLost p 1).event .rasPevent p 1) 7 (natLe 4 p) else s
  let s := s.event .rasPevent p 0
  if r.typ = 2 then s else queueLog s p r

/-- Change of the records of a partition's ledger. -/
def ledgerMap (s : State) (p : Nat) (f : LRec → LRec) : State :=
  s.mapRas fun x => { x with ledgers := x.ledgers.upd p fun l => { l with recs := l.recs.map f } }

/-- A FAULT record to be written; LSEQ and the counter value are set where it lands. -/
def faultRec (p : Nat) (body : List Byte) : LRec :=
  { lseq := 0, typ := 3, cause := 0, fn := p, qp := 0, entry := 0, rtc := 0, ref := noRef, body := body, read := false,
    index := none }

/-- A fault is recorded: in the device fault ring, in the ledger of each partition named, and against the commands
named, each of them in its own partition's ledger (R579, R600). -/
def faultRecord (s : State) (cls kind u addr : Nat) (parts cmds : List Nat) : State :=
  let body := faultBody cls kind u (s.unit kind u).vgen.toNat s.epoch.cur 0 addr
  let partOf (n : Nat) : Option Nat := (s.host.cmds.get n).map (·.part)
  let parts := (cmds.filterMap partOf).foldl addSet parts
  let ringRec := { faultRec 0 body with lseq := s.ras.ringNext, rtc := rtc s }
  let s := s.mapRas fun x => { x with ring := x.ring.put (x.ringNext % 256) ringRec, ringNext := x.ringNext + 1 }
  let s := s.event .rasEvent 0 0
  parts.foldl (fun s p =>
    let l := (s.ledger p).next
    let s := ledgerAdd s p (faultRec p body)
    s.mapRas fun x => { x with
      cmdFaults := x.cmdFaults ++ (cmds.filter fun n => partOf n == some p).map fun n => (n, p, l) }) s

/-- The fault of a command completed FAULTED_PARTIAL or FAULTED_NONE counts it in AFFECTED (R600). -/
def countAffected (s : State) (n : Nat) : State :=
  (s.ras.cmdFaults.filter fun f => f.1 == n).foldl (fun s f =>
    ledgerMap s f.2.1 fun r =>
      if r.lseq = f.2.2 ∧ r.typ = 3 then { r with body := patch r.body 16 (natLe 4 (field r.body 16 4 + 1)) } else r) s

/-- REF of a command's COMPLETION record: the lowest LSEQ among its faults (R600). -/
def faultRef (s : State) (n : Nat) : Nat :=
  ((s.ras.cmdFaults.filter fun f => f.1 == n).map (·.2.2)).foldl min noRef

/-! ### Measurements (R495) -/

/-- A measurement register. -/
def measOf (s : State) (m : Nat) : List Byte := s.sec.meas.getD m (List.replicate 48 0)

/-- A measurement register extended with a digest. -/
def extendMeas (s : State) (m : Nat) (d : List Byte) : State :=
  s.mapSec fun x => { x with meas := x.meas.put m (Config.sha384 (measOf s m ++ d)) }

/-- Two bits of each operator key slot, slot 0 lowest. -/
def slotStates (s : State) : Nat :=
  (List.range 4).foldl (fun n k => n + 4 ^ k * (match s.sec.slots.getD k .unprovisioned with
    | .unprovisioned => 0 | .provisioned => 1 | .revoked => 2)) 0

/-- The fuse configuration, the seed excepted. -/
def fuseBytes (s : State) : List Byte :=
  natLe 1 (slotStates s) ++ (List.range 4).flatMap (fun k => slice (s.sec.digests.getD k []) 0 48) ++
    (List.range 3).flatMap (fun k => natLe 4 (s.sec.svn.getD (k + 1) 0) ++ natLe 1 (s.sec.rows.getD (k + 1) 0)) ++ natLe 1 (b2n s.sec.jtagOff)

end Sys2Proof.Machine
end

