-- ==== Sys2Proof/Machine/Commands.lean ====
section
/-! DEFINITION. What every command of the command set shares: statuses, ending, results, regulator charges, epoch stamps
and retained sets (17_host_queues, 18_command_set, 09_epochs_updates R250 to R253, 12_memory_tiers R362 to R365). -/
namespace Sys2Proof.Machine
open Sys2Proof

/-- What a command's meaning answers. -/
abbrev Out := Host.Outcome State Fault Refusal

/-! ### Statuses (R538) -/

def stOk : Nat := 0x00
def stOkShort : Nat := 0x01
def stDeadline : Nat := 0x02
def stFaultedPartial : Nat := 0x10
def stFaultedNone : Nat := 0x11
def stStaleMap : Nat := 0x20
def stNotOwner : Nat := 0x21
def stUnresolved : Nat := 0x22
def stUnreachable : Nat := 0x23
def stModelUnavailable : Nat := 0x30
def stEpochExpired : Nat := 0x31
def stPartition : Nat := 0x40
def stQuota : Nat := 0x41
def stInvalid : Nat := 0x50

/-! ### Running commands -/

/-- Change of an admitted command. -/
def State.updCmd (s : State) (n : Nat) (f : Cmd → Cmd) : State := s.mapHost fun h => { h with cmds := h.cmds.upd n f }

/-- CTX of a query: the number of its walker context, none while it holds none (R163, R198). -/
def Query.ctxId (q : Query) : Option Nat := q.tile.map fun t => 32768 * t + q.ctx

/-- The query that holds a walker context. -/
def ctxQuery (s : State) (c : Nat) : Option Nat := (s.host.queries.find? fun e => e.2.ctxId == some c).map (·.1)

/-- A query leaves the sweep batches, their waiting lists, the query slots and the result FIFOs. -/
def dropSweeps (s : State) (n : Nat) : State :=
  let c := (s.host.queries.get n).bind Query.ctxId
  (s.mapHost fun h => { h with sweepWait := delSet h.sweepWait n, freshWait := delSet h.freshWait n }).mapLichen fun l =>
    { l with
      stk := l.stk.map fun e => (e.1, { e.2 with batches := e.2.batches.map fun b => { b with queries := delSet b.queries n } })
      qslots := l.qslots.map fun e => (e.1, if some (bits (field e.2 0x88 4) 0 21) = c then patch e.2 0x81 [0] else e.2)
      fifo := l.fifo.map fun e => (e.1, e.2.filter fun r => some r.ctx != c) }

/-- The requests that a query had outstanding are forgotten. -/
def dropRequests (s : State) (n : Nat) : State :=
  s.mapTwill fun t => { t with out := t.out.filter fun e => !(e.2.query == n && e.2.kind != .query) }

/-- A command ends with a status, a progress word and completion flags; what it still had running for it is dropped. A
command that has already ended stays as it is. -/
def finish (s : State) (n st pr cf : Nat) : State :=
  let s := s.updCmd n fun c => if c.phase = .done then c else { c with phase := .done, status := st, progress := pr, cflags := cf }
  let qs := (s.host.queries.filter fun e => e.2.kind == .search && e.2.owner == n).map (·.1)
  let s := qs.foldl (fun s q => dropRequests (dropSweeps s q) q) s
  s.mapHost fun h => { h with
    queries := h.queries.filter fun e => !(e.2.kind == .search && e.2.owner == n)
    merges := h.merges.filter fun m => m.cmd != n
    reranks := h.reranks.filter fun r => r.cmd != n }

/-- A command ends with a status alone. -/
def endWith (s : State) (n st : Nat) : State := finish s n st 0 0

/-- Result bytes put at an offset of a command's result buffer, to be written before its completion (R347). -/
def putResult (s : State) (n off : Nat) (b : List Byte) : State :=
  s.updCmd n fun c => { c with result := c.result ++ [(off, b)] }

/-- A meaning of a command row: it acts on a command that has been admitted and has the row's opcode, and on no other. -/
def onAdmitted (s : State) (n : Nat) (ops : List Nat) (f : Cmd → State) : State :=
  match s.host.cmds.get n with
  | some c => if c.phase = .admitted ∧ ops.contains (eOpcode c.entry) then f c else s
  | none => s

/-- The command is running. -/
def markRunning (s : State) (n : Nat) : State := s.updCmd n fun c => { c with phase := .running }

/-- The physical function, or Usnea firmware with its rights, issued the command (R537). -/
def Cmd.byPf (c : Cmd) : Bool := c.fn == 0

/-! ### Regulators (R362 to R365) -/

/-- Tier codes of REGULATORS. -/
def tT1 : Nat := 0
def tT2 : Nat := 1
def tT3 : Nat := 2
def tT4 : Nat := 3
def tT5 : Nat := 4
def tTF : Nat := 5

/-- A transfer of a partition on a tier takes its units from the bucket; one that starts on an empty bucket waits (R362,
R364). -/
def charge (s : State) (part tier bytes : Nat) : State :=
  if bytes = 0 then s else
  let k := 6 * part + tier
  let b := s.mem.bucket.getD k 0
  (s.mapMem fun m => { m with
    bucket := m.bucket.put k (b - (ceilDiv bytes 64 : Nat))
    waiting := if b < 1 then addSet m.waiting k else m.waiting }).bump .memPUnits (8 * part + tier) (ceilDiv bytes 64)

/-- The partition's effective rate on a tier is zero (R365). -/
def zeroRate (s : State) (part tier : Nat) : Bool := s.mem.rate.getD (6 * part + tier) 0 == 0

/-- A command whose transfer meets a tier of zero rate ends with QUOTA_EXCEEDED (R365). -/
def zeroRateEnd (s : State) (n : Nat) : State := endWith (s.event .memEvent 0 5) n stQuota

/-- A command whose transfers meet tiers: it goes on unless one of them has a zero rate (R365). -/
def onTiers (s : State) (n part : Nat) (tiers : List Nat) (f : State → State) : State :=
  if tiers.any (zeroRate s part) then zeroRateEnd s n else f s

/-! ### Nodes -/

/-- No node. -/
def noNode : Nat := 0x1FFFF

/-- Node ID in force (TWL_NODE). -/
def nodeId (s : State) : Nat := if s.img.applied then cfgNodeId s.img.cfg else noNode

/-! ### Epochs (R250, R251, R253) -/

/-- References that a partition holds on an epoch. -/
def pinRefs (s : State) (part e : Nat) : Nat := s.epoch.pins.getD (2 ^ 48 * part + e) 0

/-- Distinct pinned epochs of a partition, ascending. -/
def pinned (s : State) (part : Nat) : List Nat :=
  ((s.epoch.pins.filter fun e => e.1 / 2 ^ 48 == part && decide (e.2 > 0))).map fun e => e.1 % 2 ^ 48

/-- An epoch is in the retained set of a partition (R250). -/
def retained (s : State) (part e : Nat) : Bool :=
  (decide (e ≤ s.epoch.cur) && decide (s.epoch.cur < e + cfgRetain s.img.cfg part) && decide (0 < e) && decide (s.epoch.first ≤ e)) || decide (pinRefs s part e > 0)

/-- An epoch is in use: retained, or an admitted command stamped with it still runs (R250). -/
def inUse (s : State) (part e : Nat) : Bool :=
  retained s part e || s.host.cmds.any fun c => c.2.part == part && c.2.local_ == e

/-- Role codes of the models that an entry runs (R47, R542, R556, R560). -/
def entryRoles (s : State) (e : List Byte) : List Nat :=
  let b := paramBlock s e
  match eOpcode e with
  | 0x01 | 0x03 => (if bit (field b 0x0F 1) 0 then [2] else []) ++ if field b 0x14 2 > 0 then [3] else []
  | 0x20 => [if bits (eArg0 e) 0 2 = 2 then 2 else 1]
  | 0x21 => [1]
  | 0x22 => [3]
  | _ => []

/-- Digests of the models that an entry runs in an epoch of its partition (R308). -/
def entryModels (s : State) (part ep : Nat) (e : List Byte) : List (List Byte) :=
  ((s.model.bound.getD ep []).filter fun f => f.part == part && (entryRoles s e).contains f.role).map (·.digest)

/-- Oldest retained epoch of a partition. -/
def oldestRetained (s : State) (part : Nat) : Nat :=
  (pinned s part).foldl min (max (max 1 s.epoch.first) (s.epoch.cur + 1 - cfgRetain s.img.cfg part))

/-- Oldest epoch of a partition in use. -/
def oldestInUse (s : State) (part : Nat) : Nat :=
  (s.host.cmds.filter fun c => c.2.part == part).foldl (fun e c => min e c.2.local_) (oldestRetained s part)

/-- Copy in force of an epoch-class register in an epoch (R253). -/
def epochReg (s : State) (r : Reg) (u e : Nat) : W32 :=
  if e = s.epoch.cur then s.reg r u else s.epoch.pastCfg.getD (2 ^ 32 * e + regKey r u) (regReset r u)

/-! ### Compositions (R445, R449 to R451) -/

/-- Field of a composition record's words. -/
def compField (g : MapGen) (w lo n : Nat) : Nat := bits (g.words.getD w 0) lo n

/-- MAPGEN of a generation. -/
def genMapgen (g : MapGen) : Nat := compField g 0 0 16
/-- PART of a generation. -/
def genPart (g : MapGen) : Nat := compField g 0 16 6
/-- INDEX of a generation. -/
def genIndex (g : MapGen) : Nat := compField g 0 22 6
/-- ANCHOR of a generation. -/
def genAnchor (g : MapGen) : Nat := compField g 1 0 17
/-- FROM_EPOCH of a generation. -/
def genFrom (g : MapGen) : Nat := compField g 4 0 32 + compField g 5 0 16 * 2 ^ 32

/-- The composition of an index on this node: its number and state. -/
def compOf (s : State) (part index : Nat) : Option (Nat × Comp) :=
  s.own.comps.find? fun e => compField e.2.now 0 28 1 == 1 && genPart e.2.now == part && genIndex e.2.now == index

/-- The generation whose segment set a stamp takes: the newer of the two kept ones whose FROM_EPOCH is at or below it
(R449). -/
def genFor (c : Comp) (stamp : Nat) : Option MapGen :=
  if genFrom c.now ≤ stamp then some c.now
  else c.prev.bind fun g => if genFrom g ≤ stamp then some g else none

/-- Local epoch bound to a composition epoch (R450): that of the run of composition epochs it lies in, while the binding is
kept. -/
def boundEpoch (c : Comp) (stamp : Nat) : Option Nat :=
  if stamp > c.bound then none
  else (((c.binding.filter fun e => decide (e.1 ≤ stamp)).getLast?).map (·.2)).filter (· != 0)

/-! ### Shards -/

/-- The shard of an index of a partition on this node (R492). -/
def shardOf (s : State) (part index : Nat) : Option Shard := s.shards.get (64 * part + index)

/-- Change of a shard. -/
def State.updShard (s : State) (part index : Nat) (f : Shard → Shard) : State :=
  s.mapShards fun m => m.upd (64 * part + index) f

/-- The shard serves: no T2 or T3 structure of it is lost (R157, R590). -/
def serving (sh : Shard) : Bool := sh.phase == .serving

/-! ### Profiles and modes (R24, R297) -/

/-- Numeric profile that governs a command (R297). -/
def Cmd.prof (c : Cmd) : Nat := c.profile

end Sys2Proof.Machine
end

