-- ==== Sys2Proof/Machine/ImageLoader.lean ====
section
/-! DEFINITION. The image loader: staging, the eleven checks, the pending slots (02_structure_images R31 to R60). -/
namespace Sys2Proof.Machine
open Sys2Proof

/-! ### Reasons of IMG_REJECT -/

def rjFormat : Nat := 0x01
def rjLength : Nat := 0x02
def rjHeaderCrc : Nat := 0x03
def rjKeySlot : Nat := 0x04
def rjSignature : Nat := 0x05
def rjSvn : Nat := 0x06
def rjDevice : Nat := 0x07
def rjSectionCrc : Nat := 0x08
def rjReserved : Nat := 0x09
def rjRange : Nat := 0x0A
def rjSequence : Nat := 0x0B
def rjBase : Nat := 0x0C
def rjOverlap : Nat := 0x0D
def rjOvercommit : Nat := 0x0E
def rjMissing : Nat := 0x0F
def rjUnwrap : Nat := 0x10
def rjInUse : Nat := 0x11
def rjLate : Nat := 0x12
def rjPendingFull : Nat := 0x13

/-- A rejection: reason, directory entry, record. -/
abbrev Rej := Nat × Nat × Nat

/-- A rejection that lies in no section and no record. -/
def rejAt (reason : Nat) (dir : Nat := 0xF) (rec_ : Nat := 0xFFFF) : Rej := (reason, dir, rec_)

/-- The first rejection of a list of checks. -/
def firstRej (l : List (Option Rej)) : Option Rej := l.findSome? id

/-! ### Header and directory (R31 to R34) -/

/-- KIND is a full image. -/
def imgFull (b : List Byte) : Bool := field b 0x06 1 == 1
/-- SECTIONS. -/
def imgSections (b : List Byte) : Nat := field b 0x07 1
/-- SEQ. -/
def imgSeq (b : List Byte) : Nat := field b 0x08 8
/-- BASE_SEQ. -/
def imgBase (b : List Byte) : Nat := field b 0x10 8

/-- A directory entry: TYPE, OFFSET, SIZE, CRC, and whether its reserved bytes are zero. -/
structure DirEnt where
  typ : Nat
  off : Nat
  size : Nat
  crc : Nat
  clean : Bool
  deriving DecidableEq, Repr

/-- The directory entries. -/
def imgDir (b : List Byte) : List DirEnt :=
  (List.range (imgSections b)).map fun k =>
    let o := 0x40 + 16 * k
    ⟨field b o 1, field b (o + 4) 4, field b (o + 8) 4, field b (o + 12) 4, zeroAt b (o + 1) 3⟩

/-- First entry of the directory that stands in a relation to an earlier one. -/
def dirClash (p : DirEnt → DirEnt → Bool) (l : List DirEnt) : Option Nat :=
  l.zipIdx.findSome? fun x => if (l.take x.2).any (p x.1) then some x.2 else none

/-- The sections of two entries overlap. -/
def overlaps (e x : DirEnt) : Bool := e.size != 0 && x.size != 0 && decide (e.off < x.off + x.size) && decide (x.off < e.off + e.size)

/-- Check 1 (R31): the header, then a type named twice, then the place of each section. -/
def imgCheck1 (b : List Byte) : Option Rej :=
  let n := b.length
  let dir := imgDir b
  if n < 0x40 then some (rejAt rjLength)
  else if field b 0 4 ≠ 0x4B4C504E ∨ field b 4 2 ≠ 2 ∨ (field b 6 1 ≠ 1 ∧ field b 6 1 ≠ 2) ∨ imgSections b < 1 ∨ imgSections b > 12
  then some (rejAt rjFormat)
  else if n > 16777216 ∨ n % 64 ≠ 0 ∨ field b 0x28 4 ≠ n ∨ n < 0x40 + 16 * imgSections b + 256 then some (rejAt rjLength)
  else firstRej
    [ (dirClash (fun e x => e.typ == x.typ) dir).map fun k => rejAt rjFormat k,
      dir.zipIdx.findSome? fun x =>
        if x.1.off % 64 ≠ 0 ∨ x.1.off < 0x40 + 16 * imgSections b ∨ x.1.off + x.1.size > n - 256 then some (rejAt rjLength x.2) else none,
      (dirClash overlaps dir).map fun k => rejAt rjLength k ]

/-- Checks 2 to 7: header CRC, key slot, signature, security version, device, section CRCs. -/
def imgCheck27 (s : State) (b : List Byte) : Option Rej :=
  let sb := b.length - 256
  let slot := field b 0x24 1
  let x := slice b sb 48
  let y := slice b (sb + 48) 48
  let uid := field b 0x30 8
  if crc32c (slice b 0 0x2C ++ slice b 0x30 0x10) ≠ field b 0x2C 4 then some (rejAt rjHeaderCrc)
  else if slot > 3 ∨ s.sec.slots.getD slot .unprovisioned ≠ .provisioned ∨ s.sec.digests.get slot ≠ some (Config.sha384 (x ++ y))
  then some (rejAt rjKeySlot)
  else if !Config.ecdsaVerify x y (slice b (sb + 96) 48) (slice b (sb + 144) 48) (Config.sha384 (b.take sb))
  then some (rejAt rjSignature)
  else if field b 0x20 4 < s.sec.svn.getD 1 0 then some (rejAt rjSvn)
  else if uid ≠ 0 ∧ uid ≠ Config.deviceUid.toNat then some (rejAt rjDevice)
  else (imgDir b).zipIdx.findSome? fun e =>
    if crc32c (slice b e.1.off e.1.size) ≠ e.1.crc then some (rejAt rjSectionCrc e.2) else none

/-! ### Records (R34, R35, check 8) -/

/-- Record size of a section type, with the least and greatest number of records (R34). -/
def sectionForm (t : Nat) : Option (Nat × Nat × Nat) :=
  match t with
  | 1 => some (32, 1, 1) | 2 => some (16, 64, 64) | 3 => some (2, 80, 80) | 4 => some (2, 480, 480) | 5 => some (32, 64, 64)
  | 6 => some (8, 1, 1024) | 7 => some (8, 384, 384) | 8 => some (4, 1, 2049) | 9 => some (1, 65, 65) | 10 => some (8, 0, 4096)
  | 11 => some (224, 64, 64) | 12 => some (64, 0, 256) | _ => none

/-- Units of a block's shadowed per-unit registers (R688). -/
def strobeUnits (block : Nat) : Nat :=
  match block with
  | 3 => 64 | 4 => 64 | 7 => 64 | 12 => 12 | 16 => 236 | _ => 0

/-- What check 8 finds in one record: a reserved field or encoding, or a value out of range. -/
def recordFault (t i v : Nat) : Option Nat :=
  let res (c : Bool) : Option Nat := if c then some rjReserved else none
  let rng (c : Bool) : Option Nat := if c then some rjRange else none
  let pick (a b : Option Nat) : Option Nat := match a with | some x => some x | none => b
  match t with
  | 1 => pick (res (decide (bits v 17 15 ≠ 0) || decide (v / 2 ^ 104 ≠ 0)))
      (rng (bits v 0 17 == 0x1FFFF || decide (bits v 32 32 < 250) || decide (bits v 32 32 > 1000000) || decide (bits v 64 16 < 300) ||
        decide (bits v 64 16 > 800) || decide (bits v 80 16 > 256) || decide (bits v 96 8 < 2) || decide (bits v 96 8 > 16)))
  | 2 => pick (res (decide (bits v 0 8 > 2) || decide (bits v 19 5 ≠ 0) || decide (bits v 24 8 ≠ 0) || decide (v / 2 ^ 96 ≠ 0)))
      (rng (decide (bits v 8 8 > 16)))
  | 3 => res (bit v 7 || decide (bits v 10 6 ≠ 0) || (decide (0x40 ≤ bits v 0 7) && decide (bits v 0 7 ≤ 0x7C)) ||
        (decide (i < 64) && bits v 8 2 == 3))
  | 4 => res (decide (bits v 12 4 ≠ 0) || decide (bits v 8 4 > 8) ||
        (decide (bits v 0 7 > 63) && bits v 0 7 != 0x7E && bits v 0 7 != 0x7F))
  | 5 => res (decide (bits v 80 16 ≠ 0) || decide (v / 2 ^ 144 ≠ 0))
  | 6 => pick (res (decide (v / 2 ^ 51 ≠ 0)))
      (rng (bits v 14 15 == 0 || decide (bits v 14 15 > 16384) || decide (bits v 0 14 + bits v 14 15 > 16384) || bits v 35 16 == 0))
  | 7 => rng (decide (bits v 24 24 < bits v 0 24))
  | 8 => if i = 0 then none else
      pick (res (decide (bits v 18 14 ≠ 0) || decide (bits v 0 5 > 17)))
        (rng (bits v 5 8 != 0xFF && decide (bits v 5 8 ≥ strobeUnits (bits v 0 5))))
  | 9 => res (if i < 64 then decide (bits v 5 3 ≠ 0) else decide (bits v 2 6 ≠ 0))
  | 10 => pick (res (decide (v / 2 ^ 46 ≠ 0))) (rng (decide (bits v 17 17 < bits v 0 17) || bits v 34 12 == 0))
  | 11 => res (decide (bits v 32 32 ≠ 0))
  | 12 => pick (res (decide (bits v 19 5 ≠ 0) || decide (bits v 24 40 ≠ 0) || bits v 8 8 == 0 || decide (bits v 8 8 > 3)))
      (rng (decide (bits v 0 8 > 63)))
  | _ => none

/-- In these sections an empty record is absent (R35). -/
def emptyIsAbsent (t : Nat) : Bool := t == 6 || t == 8 || t == 10 || t == 12

/-- Records of a section of a full image: index and value. -/
def fullRecords (size : Nat) (body : List Byte) : List (Nat × Option Nat) :=
  (List.range (body.length / size)).map fun i => (i, some (field body (i * size) size))

/-- Records of a section of a delta; the fuel bounds their number. -/
def deltaRecords (k size hi : Nat) : Nat → List Byte → List (Nat × Option Nat) → Except Rej (List (Nat × Option Nat))
  | 0, b, acc => if b.isEmpty then .ok acc else .error (rejAt rjRange k)
  | n + 1, b, acc =>
    if b.isEmpty then .ok acc
    else if b.length < 4 then .error (rejAt rjRange k)
    else
      let h := field b 0 4
      let i := bits h 0 16
      if bits h 18 14 ≠ 0 ∨ bits h 16 2 > 1 then .error (rejAt rjReserved k i)
      else if i ≥ hi ∨ acc.any (fun x => x.1 == i) then .error (rejAt rjRange k i)
      else if bits h 16 2 = 1 then deltaRecords k size hi n (b.drop 4) (acc ++ [(i, none)])
      else if b.length < 4 + size then .error (rejAt rjRange k i)
      else deltaRecords k size hi n (b.drop (4 + size)) (acc ++ [(i, some (field b 4 size))])

/-- Records of one section, with check 8 applied to each. -/
def sectionRecords (full : Bool) (b : List Byte) (e : DirEnt) (k : Nat) : Except Rej (List (Nat × Option Nat)) :=
  match sectionForm e.typ with
  | none => .error (rejAt rjReserved k)
  | some (size, lo, hi) =>
    if !e.clean then .error (rejAt rjReserved k) else
    let body := slice b e.off e.size
    let recs :=
      if full then
        if body.length % size ≠ 0 ∨ body.length / size < lo ∨ body.length / size > hi then .error (rejAt rjRange k)
        else .ok (fullRecords size body)
      else deltaRecords k size hi (hi + 1) body []
    match recs with
    | .error r => .error r
    | .ok l =>
      match l.findSome? fun x =>
        match x.2 with
        | none => if emptyIsAbsent e.typ then none else (recordFault e.typ x.1 0).map fun r => rejAt r k x.1
        | some v => (recordFault e.typ x.1 v).map fun r => rejAt r k x.1 with
      | some r => .error r
      | none => .ok l

/-- Check 8: every record that the image carries, by key `65536 * type + index`. -/
def imgCheck8 (b : List Byte) : Except Rej (List (Nat × Option Nat)) :=
  let sb := b.length - 256
  if !zeroAt b 0x1E 2 ∨ !zeroAt b 0x25 3 ∨ !zeroAt b 0x38 8 ∨ !zeroAt b (sb + 192) 64 then .error (rejAt rjReserved)
  else if imgSeq b = 0 ∨ (imgFull b ∧ imgBase b ≠ 0) then .error (rejAt rjRange)
  else (imgDir b).zipIdx.foldl (fun acc e =>
    match acc with
    | .error r => .error r
    | .ok l => match sectionRecords (imgFull b) b e.1 e.2 with
      | .error r => .error r
      | .ok m => .ok (l ++ m.map fun x => (65536 * e.1.typ + x.1, x.2))) (.ok [])

/-! ### The resulting configuration (R49, check 10) -/

/-- The pending images, in the order of their SEQ. -/
def pendingSlots (s : State) : List ImgSlot :=
  let p := (s.img.slot0.toList ++ s.img.slot1.toList).filter fun x => x.phase == .pending
  match p with
  | [a, b] => if a.seq ≤ b.seq then [a, b] else [b, a]
  | l => l

/-- A configuration with records set or emptied. -/
def cfgWith (c : ImgCfg) (recs : List (Nat × Option Nat)) : ImgCfg :=
  ⟨recs.foldl (fun m x => match x.2 with | some v => m.put x.1 v | none => m.del x.1) c.recs⟩

/-- Regulable capacity of a tier, in 64-byte units per µs (R330). -/
def tierCapacity (t : Nat) : Nat :=
  match t with
  | 0 => 100000 | 1 => 122880 | 2 => 8960 | 3 => 3200 | 4 => 1400 | 5 => 30000 | _ => 0

/-- BPC of the media in use (R372). -/
def feltBpc (s : State) : Nat := field s.felt.desc 0x1A 1

/-- U of R380 in GiB: what Felt reports as its user capacity. -/
def fltUserGib (s : State) : Nat := s.felt.good * 15 * 92 / (16 * 100 * 2 ^ 30) - 64

/-- T3 allotments of a configuration: partition, base, end, in GiB. -/
def ddrSpans (c : ImgCfg) : List (Nat × Nat × Nat) :=
  ((List.range 64).map fun p => (p, (cfgDdr c p).1, (cfgDdr c p).1 + (cfgDdr c p).2)).filter fun x => decide (x.2.1 < x.2.2)

/-- Ranges that overlap an earlier one of a list: the index that each range carries. -/
def spanClash : List (Nat × Nat × Nat) → Option Nat
  | [] => none
  | (_, lo, hi) :: t =>
    match t.find? fun x => decide (x.2.1 < hi) && decide (lo < x.2.2) with
    | some x => some x.1
    | none => spanClash t

/-- Record index of the first repetition in a list of index and name. -/
def dupName : List (Nat × Nat) → Option Nat
  | [] => none
  | (_, n) :: t => match t.find? fun x => x.2 == n with
    | some x => some x.1
    | none => dupName t

/-- The partitions whose state in a configuration is ACTIVE or DRAINING. -/
def livePartsOf (c : ImgCfg) : List Nat := (List.range 64).filter fun p => cfgPartState c p == 1 || cfgPartState c p == 2

/-- Partition states that the pending images will leave, as IMG_PART_IND_DATA encodes them (R49). -/
def statesAfterPending (s : State) (p : Nat) : Nat :=
  (pendingSlots s).foldl (fun st x =>
    match cfgPartState x.cfg p, st with
    | 1, _ => 1
    | 2, 1 => 2
    | 0, 3 => 4
    | _, st => st) (partCode s p)

/-- Windows that a shard's codes, norms, fresh ring or latents keep in its partition (R60). -/
def liveWindows (s : State) : List (Nat × Nat) :=
  s.shards.flatMap fun e =>
    let d := e.2.desc
    let ws := d.codeList ++ d.normList ++ [d.freshWin] ++ (e.2.reloc.map fun r => r.2.2).toList ++
      (e.2.latents.flatMap fun l => l.2.map fun x => x.1 / 2 ^ 30)
    ws.map fun w => (e.2.part, w)

/-- An image gives a resource that is SCRUBBING to a partition: one other than its owner before the scrub, or that owner made
ACTIVE or DRAINING (R59). -/
def takesScrubbing (new : ImgCfg) (former newOwner : Nat) : Bool :=
  if newOwner = former then decide (cfgPartState new former ≠ 0) else decide (newOwner < 64)

/-- The keys of a WRAPPED_KEYS record, unwrapped with a key-encryption key (R46, R485). -/
def unwrapKeys (kek : Option (List Byte)) (v : Nat) : Option KeySet :=
  let b := natLe 224 v
  match kek with
  | none => none
  | some k => match Config.keyUnwrap k (slice b 8 72), Config.keyUnwrap k (slice b 0x50 72), Config.keyUnwrap k (slice b 0x98 72) with
    | some t3, some t5, some tw => some { gen := field b 0 4, t3 := t3, t5 := t5, twill := tw }
    | _, _, _ => none

/-- Keys already unwrapped for a partition: in force, or of a pending image. -/
def knownKeys (s : State) (p : Nat) : Option KeySet :=
  match (pendingSlots s).findSome? fun x => x.keys.get p with
  | some k => some k
  | none => s.sec.keys.get p

/-- Keys that an image brings, none where they do not unwrap: each ACTIVE partition's record that it carries, that nothing has
unwrapped yet, or that is missing; and each carried record that raises the KEY_GEN of a DRAINING partition (R46). -/
def imageKeys (s : State) (c : ImgCfg) (carried : List Nat) (slot : Nat) : List (Nat × Option KeySet) :=
  ((List.range 64).filter fun p =>
    let mine := carried.contains (65536 * 11 + p)
    (cfgPartState c p == 1 && (mine || (knownKeys s p).isNone || cfgRec c 11 p == 0)) ||
      (cfgPartState c p == 2 && mine && ((knownKeys s p).map fun k => decide (k.gen < cfgKeyGen c p)).getD false)).map
    fun p => (p, if cfgRec c 11 p = 0 then none else unwrapKeys (s.sec.kek.get slot) (cfgRec c 11 p))

/-- Check 10, first part: rules of the configuration itself, in the order of their chapter (R39 to R47, R337, R387). -/
def imgCheck10a (s : State) (c : ImgCfg) (dirOf : Nat → Nat) : Option Rej :=
  let rj (reason t : Nat) (i : Nat := 0xFFFF) : Option Rej := some (rejAt reason (dirOf t) i)
  let ps := List.range 64
  let active := ps.filter fun p => cfgPartState c p == 1
  let live := livePartsOf c
  let wins := List.range 480
  let badWin (w : Nat) : Bool :=
    let u := cfgWinUse c w
    (cfgWinBare c w && u != 1 && u != 2) || (u == 4 && cfgWinOwner c w != 0x7E)
  let bare := (wins.filter fun w => cfgWinBare c w).length
  let shadow := (wins.filter fun w => cfgWinUse c w == 4).length
  let spans := ddrSpans c
  let top := s.mem.ddrGib - 1 - cfgCxlWindow c
  let sheet := ps.foldl (fun n p => n + cfgSheetCache c p + cfgSheetScratch c p) (cfgWeightWindow c)
  let mib := ps.foldl (fun n p => n + cfgFlashGib c p * 1024 + cfgJournal c p * 64 * 2 * feltBpc s) 0
  let qrs := (cfgRecs c 6).map fun e => (e.1, (qRange e.2).first, (qRange e.2).first + (qRange e.2).count)
  let sums := (List.range 6).find? fun t => decide (live.foldl (fun n p => n + (cfgRegulator c p t).1) 0 > tierCapacity t)
  let assigns := ((cfgRecs c 8).filter fun e => e.1 != 0).map fun e => (e.1, e.2 % 2 ^ 13)
  let routes := (cfgRecs c 10).map fun e => (e.1, (routeOf e.2).1, (routeOf e.2).2.1 + 1)
  let binds := (cfgRecs c 12).map fun e => (e.1, bindingOf e.2)
  firstRej
    [ (wins.find? badWin).bind fun w => rj rjOverlap 4 w,
      if bare > 1024 * shadow then rj rjOvercommit 4 else none,
      (spanClash spans).bind fun p => rj rjOverlap 5 p,
      (spans.find? fun x => decide (x.2.2 > top)).bind fun x => rj rjOvercommit 5 x.1,
      if sheet > 72 then rj rjOvercommit 5 else none,
      if mib > fltUserGib s * 1024 then rj rjOvercommit 5 else none,
      (active.find? fun p => cfgSheetCache c p == 0 || cfgJournal c p == 0).bind fun p => rj rjRange 5 p,
      (live.find? fun p => decide ((cfgDdr c p).2 < ceilDiv (cfgFlashGib c p * 2) 1024 + 1)).bind fun p => rj rjOvercommit 5 p,
      (spanClash qrs).bind fun i => rj rjOverlap 6 i,
      if active.any fun p => (partQueues c p).isEmpty then rj rjRange 6 else none,
      sums.bind fun _ => rj rjOvercommit 7,
      (dupName assigns).bind fun i => rj rjOverlap 8 i,
      (spanClash routes).bind fun i => rj rjOverlap 10 i,
      (routes.find? fun x => decide (x.2.1 ≤ cfgNodeId c) && decide (cfgNodeId c < x.2.2)).bind fun x => rj rjOverlap 10 x.1,
      (dupName (binds.map fun e => (e.1, 256 * e.2.part + e.2.role))).bind fun i => rj rjOverlap 12 i,
      (binds.find? fun e => binds.any fun x => x.2.modelId == e.2.modelId && x.2.digest != e.2.digest && decide (x.1 < e.1)).bind
        fun e => rj rjOverlap 12 e.1 ]

/-- Check 10, second part: the configuration against what is in force (R46, R59, R60, R350, R485, R488, R694). -/
def imgCheck10b (s : State) (c : ImgCfg) (dirOf : Nat → Nat) (full : Bool) (carried : List Nat) (slot : Nat) : Option Rej :=
  let rj (reason t : Nat) (i : Nat := 0xFFFF) : Option Rej := some (rejAt reason (dirOf t) i)
  let ps := List.range 64
  let act := s.img.cfg
  let base := match (pendingSlots s).getLast? with | some x => x.cfg | none => act
  let st (p : Nat) : Nat := cfgPartState c p
  let scrubP := ps.filter fun p => partCode s p == 4
  let gives (t i : Nat) : Bool := full || carried.contains (65536 * t + i)
  let twillKey (g : ImgCfg) (p : Nat) : Nat := bits (cfgRec g 11 p) (0x98 * 8) 576
  firstRej
    [ if s.img.applied ∧ cfgCxlWindow c ≠ cfgCxlWindow act then rj rjInUse 1 0 else none,
      ps.findSome? fun p =>
        let cur := statesAfterPending s p
        if (st p = 0 ∧ (cur = 1 ∨ cur = 2)) ∨ ((st p = 1 ∨ st p = 2) ∧ cur = 4) then rj rjInUse 2 p
        else if st p = 2 ∧ cur = 0 then rj rjRange 2 p else none,
      ((List.range 80).find? fun u => gives 3 u &&
        scrubP.any fun p => cfgTileOwner act u == p && takesScrubbing c p (cfgTileOwner c u)).bind fun u => rj rjInUse 3 u,
      (s.img.scrubWin.find? fun e => gives 4 e.1 && takesScrubbing c e.2 (cfgWinOwner c e.1)).bind fun e => rj rjInUse 4 e.1,
      ((ddrSpans c).find? fun x => gives 5 x.1 && s.img.scrubDdr.any fun e =>
        decide (x.2.1 < e.2.1 + e.2.2) && decide (e.2.1 < x.2.2) && takesScrubbing c e.1 x.1).bind fun x => rj rjInUse 5 x.1,
      ((liveWindows s).find? fun x => decide (st x.1 ≠ 0) && cfgWinOwner c x.2 != x.1).bind fun x => rj rjInUse 4 x.2,
      ((imageKeys s c carried slot).find? fun x => x.2.isNone).bind fun x => rj rjUnwrap 11 x.1,
      (ps.find? fun p => decide (cfgKeyGen c p > cfgKeyGen base p) &&
        (s.sec.oldKeys.has p || (!(pendingSlots s).isEmpty && cfgKeyGen base p != cfgKeyGen act p))).bind fun p => rj rjInUse 11 p,
      (ps.find? fun p => twillKey c p != twillKey base p &&
        s.own.comps.any fun e => compField e.2.now 0 28 1 == 1 && genPart e.2.now == p).bind fun p => rj rjInUse 11 p ]

/-- What verification gives: a rejection, or the slot's contents (R48 to R53). -/
def verifyImage (s : State) (b : List Byte) (req : Nat) : Except Rej ImgSlot :=
  match firstRej [imgCheck1 b, if (imgCheck1 b).isSome then none else imgCheck27 s b] with
  | some r => .error r
  | none => match imgCheck8 b with
    | .error r => .error r
    | .ok recs =>
      let full := imgFull b
      let seq := imgSeq b
      let pend := pendingSlots s
      let dir := imgDir b
      let dirOf (t : Nat) : Nat := (indexOf? (fun e => e.typ == t) dir).getD 0xF
      let chk9 : Option Rej :=
        if full then
          if seq ≤ s.img.activeSeq ∨ pend.any fun x => decide (seq ≤ x.seq) then some (rejAt rjSequence) else none
        else if imgBase b ≠ ((pend.getLast?.map (·.seq)).getD s.img.activeSeq) then some (rejAt rjBase)
        else if seq ≤ imgBase b then some (rejAt rjSequence) else none
      match chk9 with
      | some r => .error r
      | none =>
        let base : ImgCfg := if full then ⟨[]⟩ else (pend.getLast?.map (·.cfg)).getD s.img.cfg
        let c := cfgWith base recs
        let carried := recs.map (·.1)
        let slot := field b 0x24 1
        let missing := full && !((List.range 9).all fun t => dir.any fun e => e.typ == t + 1)
        match firstRej [if missing then some (rejAt rjMissing) else none, imgCheck10a s c dirOf, imgCheck10b s c dirOf full carried slot] with
        | some r => .error r
        | none =>
          let cur := s.epoch.cur
          let t := if field b 0x18 6 = 0 then cur + 2 else field b 0x18 6
          let keys := (imageKeys s c carried slot).foldl (fun m x => match x.2 with | some k => Smap.put m x.1 k | none => m) ([] : Smap KeySet)
          let out (t : Nat) : ImgSlot :=
            { phase := .pending, bytes := b, seq := seq, target := t, cfg := c, carried := carried, keys := keys, req := req }
          if !s.img.applied then
            if full then .ok (out (s.epoch.largest + 1)) else .error (rejAt rjLate)
          else if t < cur + 2 ∨ pend.any fun x => decide (t ≤ x.target) then .error (rejAt rjLate)
          else .ok (out t)

/-! ### Staging, verifying, aborting (R50, R51, R659) -/

/-- IMG_STATUS.STATE of a request, shown when it is the newest. -/
def imgShow (s : State) (req code : Nat) : State :=
  s.mapImg fun i => if i.newest = req then { i with reqState := code } else i

/-- A rejection is reported (R48, R485). -/
def imgReject (s : State) (req : Nat) (r : Rej) : State :=
  let s := s.setRo .imgReject 0 (BitVec.ofNat 32 (r.1 % 256 + r.2.1 % 16 * 256 + r.2.2 % 65536 * 65536))
  raiseEvent ((imgShow (s.event .imgStatus 0 2) req 4).eventIf (r.1 == rjUnwrap) .secEvent 0 2) 3 (natLe 4 req ++ natLe 4 4)

/-- A stage request with the image's bytes: they are copied into a free slot and verification begins; with both slots
occupied the request is rejected before the copy (R51). -/
def imgStageBytes (s : State) (b : List Byte) : State :=
  let req := s.img.newest + 1
  let s := s.mapImg fun i => { i with newest := req }
  let slot : ImgSlot :=
    { phase := .verifying, bytes := b, seq := 0, target := 0, cfg := ⟨[]⟩, carried := [], keys := [], req := req }
  match s.img.slot0, s.img.slot1 with
  | none, _ => imgShow (s.mapImg fun i => { i with slot0 := some slot }) req 1
  | _, none => imgShow (s.mapImg fun i => { i with slot1 := some slot }) req 1
  | _, _ => imgReject s req (rejAt rjPendingFull)

/-- A slot written. -/
def setSlot (s : State) (k : Nat) (x : Option ImgSlot) : State :=
  s.mapImg fun i => if k = 0 then { i with slot0 := x } else { i with slot1 := x }

/-- A slot. -/
def getSlot (s : State) (k : Nat) : Option ImgSlot := if k = 0 then s.img.slot0 else if k = 1 then s.img.slot1 else none

/-- The slot of the latest pending image. -/
def latestPending (s : State) : Option Nat :=
  match (pendingSlots s).getLast? with
  | none => none
  | some x => if s.img.slot0 = some x then some 0 else some 1

/-- ABORT discards the latest pending image; one that start-up had staged to the domains takes its keys with it, and the
rebuild starts afresh (R51, R659). -/
def imgAbort (s : State) : State :=
  match latestPending s with
  | none => s
  | some k =>
    let req := s.img.newest + 1
    let s := (setSlot s k none).mapImg fun i => { i with newest := req }
    let s := raiseEvent (imgShow (s.event .imgStatus 0 3) req 5) 3 (natLe 4 req ++ natLe 4 5)
    if s.power.startSlot = some k then
      ((s.mapSec fun x => { x with keys := [] }).mapShards fun m => m.map fun e => (e.1, { e.2 with lost := true })).mapPower fun p =>
        { p with startSlot := none, stage := .imageWait }
    else s

/-- Bytes of the SPI NOR's IMAGE region from a NOR byte offset; bytes outside the region read 0xFF. -/
def norImageBytes (s : State) (off n : Nat) : List Byte :=
  let base := ((norRegion s 3).map (·.1)).getD 0
  (List.range n).map fun i => if base ≤ off + i then s.usnea.imageRegion.getD (off + i - base) 0xFF else 0xFF

/-- What IMG_CTRL does with a value that its writer may write (R30, R50, R51). -/
def imgCtrl (s : State) (req : Nat) (v : W32) : State :=
  let w := v.toNat
  let src := bits w 2 2
  if bit w 0 ∧ !((req == 0 && src == 0) || (decide (req ≥ 64) && (src == 1 || src == 2))) then
    writeError s req 1 0 0 werrNotPermitted
  else
    let s := if bit w 1 then imgAbort s else s
    if bit w 0 ∧ !s.blockOut 1 then
      let a := (s.reg .imgStageAddrLo 0).toNat + (s.reg .imgStageAddrHi 0).toNat * 2 ^ 32
      let n := (s.reg .imgStageLen 0).toNat
      imgStageBytes s (if n > 16777216 then [] else
        match src with
        | 0 => hostRead s a n
        | 1 => norImageBytes s a n
        | _ => (List.range n).map fun i => s.usnea.recv.getD (a + i) 0)
    else s

/-- Verification of a slot's copy ends (R48). -/
def imageVerifyDone (s : State) (k : Nat) : State :=
  match getSlot s k with
  | none => s
  | some x =>
    if x.phase ≠ .verifying ∨ s.blockOut 1 then s
    else match verifyImage s x.bytes x.req with
      | .error r => imgReject (setSlot s k none) x.req r
      | .ok y => raiseEvent (imgShow ((setSlot s k (some y)).event .imgStatus 0 0) x.req 2) 3 (natLe 4 x.req ++ natLe 4 2)

def execImageVerifyDone (slot : Nat) (s : State) : Out := .next (imageVerifyDone s slot)

end Sys2Proof.Machine
end

