-- ==== Sys2Proof/Machine/FecGroup.lean ====
section
/-! DEFINITION. FEC groups: the marker, the four RS(544,514) codewords of ten flits, and their symbols on the lanes
(14_twill_fabric R411, R412). The field, the generator and the order of bits in a symbol are those of IEEE 802.3 Clause 91
(PRESUMED, log entry 121). -/
namespace Sys2Proof.Machine
open Sys2Proof

/-! ### GF(2^10) and the code (R411) -/

/-- A field element times α, modulo x^10 + x^3 + 1. -/
def gfTwice (a : Nat) : Nat := if a < 512 then 2 * a else (2 * a) ^^^ 0x409

/-- Product of two field elements, from the bits of the second. -/
def gfMul (a b : Nat) : Nat :=
  ((List.range 10).foldl (fun (x : Nat × Nat) i => (if bit b i then x.1 ^^^ x.2 else x.1, gfTwice x.2)) (0, a)).1

/-- A polynomial, highest coefficient first, times x + c. -/
def gfTimesRoot (g : List Nat) (c : Nat) : List Nat := List.zipWith (· ^^^ ·) (g ++ [0]) (0 :: g.map (gfMul c))

/-- The generator, whose roots are α^0 to α^29, without its leading 1. -/
def rsGenerator : List Nat :=
  (((List.range 30).foldl (fun (x : List Nat × Nat) _ => (gfTimesRoot x.1 x.2, gfTwice x.2)) ([1], 1)).1).drop 1

/-- The 30 parity symbols of a message. -/
def rsParity (msg : List Nat) : List Nat :=
  msg.foldl (fun r m =>
    let f := m ^^^ r.headD 0
    List.zipWith (fun x g => x ^^^ gfMul f g) (r.drop 1 ++ [0]) rsGenerator) (List.replicate 30 0)

/-! ### The marker and the group (R411, R412) -/

/-- The 80-bit marker of a port's next group. -/
def groupMarker (p : Port) : Nat :=
  let lmap := ((List.range 4).map fun n => p.tx.getD n 0 * 2 ^ (48 + 3 * n)).sum
  let w := 0x54574347 + p.group % 2 ^ 16 * 2 ^ 32 + lmap + b2n p.mirror.isSome * 2 ^ 60 + p.mirror.getD 0 * 2 ^ 62
  w + crc8 (natLe 9 w) * 2 ^ 72

/-- Ten-bit symbols of bytes, the lowest bit first. -/
def symbolsOf (b : List Byte) : List Nat := (List.range (8 * b.length / 10)).map fun i => field (b.drop (10 * i / 8)) 0 3 / 2 ^ (10 * i % 8) % 1024

/-- The symbols of a group of ten flits: four codewords, message and parity. -/
def groupWords (p : Port) (flits : List (List Byte)) : List (List Nat) :=
  let m := symbolsOf (natLe 10 (groupMarker p) ++ flits.flatten)
  (List.range 4).map fun c => let w := (m.drop (514 * c)).take 514; w ++ rsParity w

/-- The symbols of each active lane: symbol i of a codeword goes to logical lane i mod W. -/
def laneSymbols (w : Nat) (words : List (List Nat)) : List (List Nat) :=
  (List.range w).map fun n => words.flatMap fun c => (c.zipIdx.filter fun x => x.2 % w == n).map (·.1)

/-- The bytes of a flit (R413). -/
def flitBytes (hdr : Nat) (stream : List Byte) : List Byte :=
  let b := natLe 9 hdr ++ slice stream 0 243
  b ++ natLe 4 (crc32c b)

/-- A flit goes out: the tenth of a group sends the group over the lanes. -/
def Port.putFlit (p : Port) (hdr : Nat) (stream : List Byte) : Port :=
  let l := p.filling ++ [flitBytes hdr stream]
  let p := { p with lastHdr := hdr }
  if l.length < 10 then { p with filling := l }
  else { p with filling := [], group := (p.group + 1) % 65536, sent := laneSymbols p.width (groupWords p l) }

end Sys2Proof.Machine
end

