-- ==== Sys2Proof/Machine/Cache.lean ====
section
/-! DEFINITION. The lines that the Sheet cache units hold (12_memory_tiers R334, R338, R339; 19_faults_recovery R588). A line's
bytes stand in `t3` and `t2` as its owner reads them, whether the unit has written them back or not (R331). -/
namespace Sys2Proof.Machine
open Sys2Proof

/-- Device-shared cache units that serve. -/
def sharedUnits (s : State) : List Nat :=
  (List.range 72).filter fun u => !s.mem.sheet.has u && !s.img.scrubSheet.has u && !s.fencedUnit 0x06 (u % 24)

/-- Cache units over which an owner's lines are spread: its own that serve, and the device-shared ones where it has none or is
the device. -/
def cacheUnits (s : State) (p : Nat) : List Nat :=
  let own := (s.mem.sheet.filter fun e => e.2.use == .cache && e.2.owner == p && !s.fencedUnit 0x06 (e.1 % 24)).map (·.1)
  if own.isEmpty then sharedUnits s else own

/-- A local byte address may be cached: T1, T3 outside the CXL.mem window, and guarded T2. -/
def cacheable (s : State) (a : Nat) : Bool :=
  if a < 2 ^ 41 then decide (a < (s.mem.ddrGib - s.mem.cxlGib) * 2 ^ 30)
  else if a < 0x030000000000 then decide ((a - 2 ^ 41) / 2 ^ 30 < 480) && !cfgWinBare s.img.cfg ((a - 2 ^ 41) / 2 ^ 30)
  else decide (a < 0x030000000000 + 72 * 2 ^ 22)

/-- Set of a line, and its place in the spread over the units (log entry 120). -/
def lineSet (line : Nat) : Nat := line % 4096
def lineSpread (line : Nat) : Nat := line / 4096

/-- Lines of a set of a unit. -/
def setLines (s : State) (u k : Nat) : List (Nat × CacheLine) := s.mem.lines.filter fun e => e.2.unit == u && lineSet e.1 == k

/-- A line enters a unit: in a way that is free, else in the way of a line that is not pinned. Which one leaves is open. -/
def lineFill (s : State) (p line : Nat) (dirty pinned : Bool) : State :=
  let us := cacheUnits s p
  match us[lineSpread line % max 1 us.length]? with
  | none => s
  | some u =>
    let l := setLines s u (lineSet line)
    let put (s : State) (w : Nat) : State := s.mapMem fun m => { m with lines := m.lines.put line { unit := u, way := w, dirty := dirty, pinned := pinned } }
    match (List.range 16).find? fun w => !(l.any fun e => e.2.way == w) with
    | some w => put s w
    | none =>
      let go := l.filter fun e => !e.2.pinned
      match go[Config.freeNat s.free % max 1 go.length]? with
      | none => s
      | some v => put ((s.mapMem fun m => { m with lines := m.lines.del v.1 }).drawn) v.2.way

/-- An engine reads or writes a line on behalf of an owner: a hit in the unit that holds it, or a miss that fills it. A line
stands in one unit at most. -/
def lineTouch (s : State) (p : Nat) (write : Bool) (line : Nat) : State :=
  if !cacheable s (64 * line) then s
  else match (s.mem.lines.get line).filter fun c => (cacheUnits s p).contains c.unit with
  | some c =>
    let s := if p < 64 then s.bump .memPHits p 1 else s
    if write ∧ !c.dirty then s.mapMem fun m => { m with lines := m.lines.put line { c with dirty := true } } else s
  | none => lineFill (if p < 64 then s.bump .memPMisses p 1 else s) p line write false

/-- An engine reads or writes a span of local memory. -/
def spanTouch (s : State) (p a n : Nat) (write : Bool) : State :=
  if n = 0 then s else ((List.range ((a + n - 1) / 64 + 1 - a / 64)).map (· + a / 64)).foldl (fun s l => lineTouch s p write l) s

/-- A line is pinned, in a way of its set of which the pinned lines take at most half (R339). -/
def linePin (s : State) (p line : Nat) : State :=
  match (s.mem.lines.get line).filter fun c => (cacheUnits s p).contains c.unit with
  | some c => s.mapMem fun m => { m with lines := m.lines.put line { c with pinned := true } }
  | none => lineFill s p line false true

/-- Lines of a 1 KiB descriptor at a local address. -/
def descLines (a : Nat) : List Nat := (List.range 16).map (· + a / 64)

/-- The descriptor of a shard is resident in its partition's cache units (R127, R339). -/
def pinDescriptor (s : State) (sh : Shard) : State :=
  match sh.t3[11]? with
  | some a => (descLines a).foldl (fun s l => linePin s sh.part l) s
  | none => s

/-- The descriptors of the shards that serve are resident. -/
def pinDescriptors (s : State) : State :=
  (s.shards.map (·.2)).foldl (fun s sh => if sh.phase = .serving ∧ !sh.lost then pinDescriptor s sh else s) s

/-- A shard that is gone leaves no pinned line. -/
def unpinDescriptor (s : State) (sh : Shard) : State :=
  match sh.t3[11]? with
  | some a => s.mapMem fun m => { m with lines := m.lines.filter fun e => !(descLines a).contains e.1 }
  | none => s

/-- Descriptors at local addresses fit the ways that may be pinned, with `n` cache units: 8 in every set (R339). -/
def pinsFit (n : Nat) (addrs : List Nat) : Bool :=
  let l := (addrs.flatMap descLines).map fun x => (lineSpread x % max 1 n, lineSet x)
  decide (n > 0) && l.all fun x => decide ((l.filter (· == x)).length ≤ 8)

/-- Lines of units that change hands, or of a partition that is scrubbed, leave without a trace. -/
def dropLines (s : State) (p : Nat → Bool) : State := s.mapMem fun m => { m with lines := m.lines.filter fun e => !p e.2.unit }

/-- A fenced slice writes back every dirty line that it can read, and poisons in T3 those that it cannot; which those are is
open (R588). -/
def sliceLines (s : State) (slice : Nat) : State :=
  let l := s.mem.lines.filter fun e => e.2.unit % 24 == slice
  let bad := ((l.filter fun e => e.2.dirty && decide (e.1 < 2 ^ 35)).zipIdx.filter fun x => Config.freeNat (s.free + x.2) % 2 == 1).map (·.1.1)
  (dropLines (s.mapMem fun m => { m with t3poison := bad.foldl addSet m.t3poison }) fun u => u % 24 == slice).drawn

end Sys2Proof.Machine
end

