-- ==== Sys2Proof/Machine/Arith.lean ====
section
/-! DEFINITION. Binary floating point, computed exactly and rounded once: IEEE 754 with round to nearest even, subnormals
kept (04_vector_formats R95, R96, R103, R104). -/
namespace Sys2Proof.Machine
open Sys2Proof

/-- A binary format: significand bits with the hidden one, exponent of the smallest subnormal, exponent bits. -/
structure FpFmt where
  p : Nat
  emin : Int
  ebits : Nat
  deriving DecidableEq, Repr

/-- binary32. -/
def fp32 : FpFmt := ⟨24, -149, 8⟩
/-- binary16. -/
def fp16 : FpFmt := ⟨11, -24, 5⟩
/-- bfloat16. -/
def bf16 : FpFmt := ⟨8, -133, 8⟩

/-- A floating-point datum: not a number, an infinity, or `m * 2 ^ e` with a sign. -/
inductive FpVal where
  | nan
  | inf (neg : Bool)
  | fin (neg : Bool) (m : Nat) (e : Int)
  deriving DecidableEq, Repr

/-- Width of a format less its sign bit. -/
def FpFmt.mag (f : FpFmt) : Nat := f.p - 1 + f.ebits

/-- The datum that bits stand for. -/
def fpDecode (f : FpFmt) (b : Nat) : FpVal :=
  let neg := bit b f.mag
  let frac := bits b 0 (f.p - 1)
  let ex := bits b (f.p - 1) f.ebits
  if ex = 2 ^ f.ebits - 1 then (if frac = 0 then .inf neg else .nan)
  else if ex = 0 then .fin neg frac f.emin
  else .fin neg (2 ^ (f.p - 1) + frac) (f.emin + (ex - 1 : Nat))

/-- Bits of an infinity. -/
def fpInf (f : FpFmt) (neg : Bool) : Nat := (2 ^ f.ebits - 1) * 2 ^ (f.p - 1) + b2n neg * 2 ^ f.mag

/-- Bits of the quiet NaN (log entry 11). -/
def fpNan (f : FpFmt) : Nat := (2 ^ f.ebits - 1) * 2 ^ (f.p - 1) + 2 ^ (f.p - 2)

/-- 2 to an integer power as a pair numerator, denominator. -/
def pow2 (e : Int) : Nat × Nat := (2 ^ e.toNat, 2 ^ (-e).toNat)

/-- The quotient of `num / den` by `2 ^ e`, rounded to nearest even. -/
def quotRne (num den : Nat) (e : Int) : Nat :=
  let n := num * (pow2 (-e)).1
  let d := den * (pow2 (-e)).2
  let q := n / d
  let r := n % d
  if 2 * r > d ∨ (2 * r = d ∧ q % 2 = 1) then q + 1 else q

/-- Bits of the value `num / den` with a sign, rounded to nearest even; `den` is positive. -/
def fpRound (f : FpFmt) (neg : Bool) (num den : Nat) : Nat :=
  let sign := b2n neg * 2 ^ f.mag
  if num = 0 then sign
  else
    let e0 : Int := (Nat.log2 num : Int) - (Nat.log2 den : Int) - (f.p : Int)
    let n := num * (pow2 (-e0)).1
    let d := den * (pow2 (-e0)).2
    let e1 := if n / d < 2 ^ f.p then e0 else e0 + 1
    let e := max e1 f.emin
    let b := (e - f.emin).toNat * 2 ^ (f.p - 1) + quotRne num den e
    if b ≥ (2 ^ f.ebits - 1) * 2 ^ (f.p - 1) then fpInf f neg else b + sign

/-- Bits of a datum in a format. -/
def fpEncode (f : FpFmt) : FpVal → Nat
  | .nan => fpNan f
  | .inf neg => fpInf f neg
  | .fin neg m e => fpRound f neg (m * (pow2 e).1) (pow2 e).2

/-- Signed significand of a finite datum at an exponent not above its own. -/
def fpAt (neg : Bool) (m : Nat) (e e' : Int) : Int :=
  let v : Int := (m * 2 ^ (e - e').toNat : Nat)
  if neg then -v else v

/-- Sum of two data, rounded to a format. -/
def fpAddV (f : FpFmt) : FpVal → FpVal → Nat
  | .nan, _ => fpNan f
  | _, .nan => fpNan f
  | .inf a, .inf b => if a = b then fpInf f a else fpNan f
  | .inf a, .fin _ _ _ => fpInf f a
  | .fin _ _ _, .inf b => fpInf f b
  | .fin a m e, .fin b n e' =>
    let k := min e e'
    let v := fpAt a m e k + fpAt b n e' k
    if v = 0 then b2n (a && b && m == 0 && n == 0) * 2 ^ f.mag
    else fpEncode f (.fin (decide (v < 0)) v.natAbs k)

/-- The datum with its sign changed. -/
def fpNegV : FpVal → FpVal
  | .nan => .nan
  | .inf a => .inf (!a)
  | .fin a m e => .fin (!a) m e

/-- Product of two data, rounded to a format. -/
def fpMulV (f : FpFmt) : FpVal → FpVal → Nat
  | .nan, _ => fpNan f
  | _, .nan => fpNan f
  | .inf a, .inf b => fpInf f (a != b)
  | .inf a, .fin b n _ => if n = 0 then fpNan f else fpInf f (a != b)
  | .fin a m _, .inf b => if m = 0 then fpNan f else fpInf f (a != b)
  | .fin a m e, .fin b n e' => fpEncode f (.fin (a != b) (m * n) (e + e'))

/-- Quotient of two data, rounded to a format. -/
def fpDivV (f : FpFmt) : FpVal → FpVal → Nat
  | .nan, _ => fpNan f
  | _, .nan => fpNan f
  | .inf _, .inf _ => fpNan f
  | .inf a, .fin b _ _ => fpInf f (a != b)
  | .fin a _ _, .inf b => b2n (a != b) * 2 ^ f.mag
  | .fin a m e, .fin b n e' =>
    if n = 0 then (if m = 0 then fpNan f else fpInf f (a != b))
    else fpRound f (a != b) (m * (pow2 (e - e')).1) (n * (pow2 (e - e')).2)

/-- Largest number whose square is at most `n`, built bit by bit from bit `k - 1` down. -/
def isqrtBits (n : Nat) : Nat → Nat → Nat
  | 0, r => r
  | k + 1, r => isqrtBits n k (if (r + 2 ^ k) * (r + 2 ^ k) ≤ n then r + 2 ^ k else r)

/-- Integer square root. -/
def isqrt (n : Nat) : Nat := isqrtBits n (Nat.log2 n / 2 + 1) 0

/-- Correctly rounded square root of a datum. -/
def fpSqrtV (f : FpFmt) : FpVal → Nat
  | .nan => fpNan f
  | .inf neg => if neg then fpNan f else fpInf f false
  | .fin neg m e =>
    if m = 0 then b2n neg * 2 ^ f.mag
    else if neg then fpNan f
    else
      let odd := decide (e % 2 ≠ 0)
      let m := if odd then m * 2 else m
      let e := if odd then e - 1 else e
      let n := m * 2 ^ 64
      let r := isqrt n
      fpEncode f (.fin false (2 * r + b2n (decide (r * r ≠ n))) (e / 2 - 33))

/-! ### binary32 on register words -/

/-- Datum of a binary32 word. -/
def fv (x : W32) : FpVal := fpDecode fp32 x.toNat
/-- A datum rounded to binary32. -/
def fOf (v : FpVal) : W32 := BitVec.ofNat 32 (fpEncode fp32 v)
/-- Sum. -/
def fAdd (x y : W32) : W32 := BitVec.ofNat 32 (fpAddV fp32 (fv x) (fv y))
/-- Difference. -/
def fSub (x y : W32) : W32 := BitVec.ofNat 32 (fpAddV fp32 (fv x) (fpNegV (fv y)))
/-- Product. -/
def fMul (x y : W32) : W32 := BitVec.ofNat 32 (fpMulV fp32 (fv x) (fv y))
/-- Quotient. -/
def fDiv (x y : W32) : W32 := BitVec.ofNat 32 (fpDivV fp32 (fv x) (fv y))
/-- Square root. -/
def fSqrt (x : W32) : W32 := BitVec.ofNat 32 (fpSqrtV fp32 (fv x))
/-- Absolute value. -/
def fAbs (x : W32) : W32 := x &&& 0x7FFFFFFF
/-- Opposite. -/
def fNeg (x : W32) : W32 := x ^^^ 0x80000000
/-- An integer in binary32. -/
def fInt (i : Int) : W32 := fOf (.fin (decide (i < 0)) i.natAbs 0)
/-- 2 to a power in binary32. -/
def fPow2 (e : Int) : W32 := fOf (.fin false 1 e)

/-- Not an infinity and not a NaN. -/
def fFinite (x : W32) : Bool := match fv x with | .fin _ _ _ => true | _ => false
/-- A NaN. -/
def fIsNan (x : W32) : Bool := fv x == .nan
/-- Positive and normal. -/
def fPosNormal (x : W32) : Bool := decide (0x00800000 ≤ x.toNat) && decide (x.toNat < 0x7F800000)

/-- Order of two finite data. -/
def fpLtV : FpVal → FpVal → Bool
  | .fin a m e, .fin b n e' => decide (fpAt a m e (min e e') < fpAt b n e' (min e e'))
  | .inf true, .fin _ _ _ => true
  | .inf true, .inf false => true
  | .fin _ _ _, .inf false => true
  | _, _ => false

/-- x < y; false where either is a NaN. -/
def fLt (x y : W32) : Bool := fpLtV (fv x) (fv y)
/-- x ≤ y; false where either is a NaN. -/
def fLe (x y : W32) : Bool := !fIsNan x && !fIsNan y && !fpLtV (fv y) (fv x)
/-- The smaller. -/
def fMin (x y : W32) : W32 := if fLt y x then y else x
/-- The larger. -/
def fMax (x y : W32) : W32 := if fLt x y then y else x

/-- Integer of a rational, ties away from zero (R4). -/
def roundAway (neg : Bool) (num den : Nat) : Int :=
  let q : Int := ((2 * num + den) / (2 * den) : Nat)
  if neg then -q else q

/-- clamp(round(x) + a, lo, hi) (R95). -/
def clampRound (x : W32) (a lo hi : Int) : Int :=
  match fv x with
  | .nan => lo
  | .inf neg => if neg then lo else hi
  | .fin neg m e => max lo (min hi (roundAway neg (m * (pow2 e).1) (pow2 e).2 + a))

/-- A word of another format read in binary32, exactly (R100, R104). -/
def fromFmt (f : FpFmt) (b : Nat) : W32 := fOf (fpDecode f b)

/-- A binary32 word rounded to another format (R103). -/
def toFmt (f : FpFmt) (x : W32) : Nat := fpEncode f (fv x)

/-! ### The fixed tree (R96) -/

/-- One level of the tree: neighbours added, a last odd element unchanged. -/
def pairSums : List W32 → List W32
  | x :: y :: t => fAdd x y :: pairSums t
  | l => l

/-- Levels of the tree until one element is left; the fuel bounds them. -/
def treeLevels : Nat → List W32 → W32
  | _, [] => 0
  | _, [x] => x
  | 0, x :: _ => x
  | n + 1, l => treeLevels n (pairSums l)

/-- The fixed-tree sum (R96): padded with +0 to whole blocks of 16, whose first four levels are the lanes' own. -/
def treeSum (l : List W32) : W32 :=
  treeLevels l.length (l ++ List.replicate (16 * ceilDiv l.length 16 - l.length) 0)

/-- Fixed-tree sum of products. -/
def treeDot (a b : List W32) : W32 := treeSum (List.zipWith fMul a b)

end Sys2Proof.Machine
end

