-- ==== Sys2Proof/Machine/Vectors.lean ====
section
/-! DEFINITION. Vectors, sketches, distances and keys (04_vector_formats R97 to R118). -/
namespace Sys2Proof.Machine
open Sys2Proof

/-! ### The index numeric record (R98, R99) -/

/-- `n` little-endian words of a byte string from an offset. -/
def wordsAt (b : List Byte) (off n : Nat) : List W32 :=
  let rec go : Nat → List Byte → List W32
    | 0, _ => []
    | k + 1, l => BitVec.ofNat 32 (leNat (l.take 4)) :: go k (l.drop 4)
  go n (b.drop off)

/-- METRIC. -/
def nrMetric (r : List Byte) : Nat := field r 0 1
/-- EXACT_FMT. -/
def nrFmt (r : List Byte) : Nat := field r 1 1
/-- DIM. -/
def nrDim (r : List Byte) : Nat := field r 2 2
/-- NORM_SCALE σ. -/
def nrSigma (r : List Byte) : W32 := BitVec.ofNat 32 (field r 4 4)
/-- TOL_ABS. -/
def nrTolAbs (r : List Byte) : W32 := BitVec.ofNat 32 (field r 8 4)
/-- TOL_REL. -/
def nrTolRel (r : List Byte) : W32 := BitVec.ofNat 32 (field r 12 4)
/-- PROJ_TAB. -/
def nrProj (r : List Byte) : Nat := field r 0x14 4
/-- LENGTH. -/
def nrLength (r : List Byte) : Nat := field r 0x18 4
/-- REC_CRC. -/
def nrCrc (r : List Byte) : Nat := field r 0x1C 4
/-- Sketch scales s. -/
def nrScale (r : List Byte) : List W32 := wordsAt r 0x40 128
/-- Sketch zero points z. -/
def nrZero (r : List Byte) : List Nat := (slice r 0x240 128).map (·.toNat)
/-- Exact scales u. -/
def nrExScale (r : List Byte) : List W32 := wordsAt r 0x2C0 (nrDim r)
/-- Exact zero points v. -/
def nrExZero (r : List Byte) : List Int := (slice r (0x2C0 + 4 * nrDim r) (nrDim r)).map fun x => toSigned 8 x.toNat
/-- The rows of P. -/
def nrRows (r : List Byte) : List (List W32) :=
  let d := nrDim r
  let all := wordsAt r (nrProj r) (128 * d)
  (List.range 128).map fun j => (all.drop (j * d)).take d

/-- Bytes of a stored exact vector's element. -/
def exactBytes (r : List Byte) : Nat := if nrFmt r = 3 then 1 else 2

/-- The record meets R98 and R99. -/
def numrecOk (r : List Byte) : Bool :=
  let d := nrDim r
  let int8 := nrFmt r == 3
  let proj := if int8 then 64 * ceilDiv (0x2C0 + 5 * d) 64 else 0x2C0
  let nonneg (x : W32) : Bool := fFinite x && decide (x.toNat < 0x80000000)
  decide (1 ≤ nrMetric r) && decide (nrMetric r ≤ 3) && decide (1 ≤ nrFmt r) && decide (nrFmt r ≤ 3) && decide (64 ≤ d) &&
    decide (d ≤ 4096) && fPosNormal (nrSigma r) && nonneg (nrTolAbs r) && nonneg (nrTolRel r) &&
    field r 0x10 4 == (if int8 then 0x2C0 else 0) && nrProj r == proj && nrLength r == proj + 512 * d &&
    r.length == nrLength r && nrCrc r == crc32c (patch r 0x1C [0, 0, 0, 0]) && zeroAt r 0x20 32 &&
    (nrScale r).all fPosNormal && (nrZero r).all (fun z => decide (z ≤ 15)) &&
    (!int8 || ((nrExScale r).all fPosNormal && zeroAt r (0x2C0 + 5 * d) (proj - (0x2C0 + 5 * d)))) &&
    (nrRows r).all (fun row => row.all fFinite)

/-! ### Input vectors (R100 to R104) -/

/-- Element size of VFMT. -/
def vfmtBytes (v : Nat) : Nat := if v = 0 then 4 else 2

/-- The elements of an input vector, converted to fp32 exactly (R100). -/
def inputVector (vfmt dim : Nat) (b : List Byte) : List W32 :=
  if vfmt = 0 then wordsAt b 0 dim
  else (List.range dim).map fun i => fromFmt (if vfmt = 1 then fp16 else bf16) (field b (2 * i) 2)

/-- Normalization under cosine (R102): none where the squared norm is zero or not finite. -/
def normalizeVec (metric : Nat) (x : List W32) : Option (List W32) :=
  if metric ≠ 2 then some x
  else
    let n2 := treeDot x x
    if !fFinite n2 ∨ n2.toNat % 0x80000000 = 0 then none
    else some (x.map fun e => fDiv e (fSqrt n2))

/-- One element in the exact format: its stored value (R103). -/
def exactElem (r : List Byte) (x u : W32) (v : Int) : Nat :=
  match nrFmt r with
  | 1 => toFmt fp16 x
  | 2 => toFmt bf16 x
  | _ => ofSigned 8 (clampRound (fDiv x u) v (-128) 127)

/-- A stored element read back in fp32 (R104). -/
def exactBack (r : List Byte) (g : Nat) (u : W32) (v : Int) : W32 :=
  match nrFmt r with
  | 1 => fromFmt fp16 g
  | 2 => fromFmt bf16 g
  | _ => fMul u (fInt (toSigned 8 g - v))

/-- Scales and zero points by element: those of the record under int8, and 1 and 0 otherwise. -/
def exactTabs (r : List Byte) : List (W32 × Int) :=
  if nrFmt r = 3 then (nrExScale r).zip (nrExZero r) else List.replicate (nrDim r) (0x3F800000, 0)

/-- A vector in the exact format. -/
def exactForm (r : List Byte) (x : List W32) : List Byte :=
  (List.zipWith (fun e t => natLe (exactBytes r) (exactElem r e t.1 t.2)) x (exactTabs r)).flatten

/-- x̄: a stored exact vector read back (R104). -/
def exactRead (r : List Byte) (b : List Byte) : List W32 :=
  let w := exactBytes r
  (exactTabs r).zipIdx.map fun t => exactBack r (field b (w * t.2) w) t.1.1 t.1.2

/-! ### Codes and norms (R105 to R108) -/

/-- The projected vector (R105). -/
def projectVec (r : List Byte) (x : List W32) : List W32 := (nrRows r).map fun row => treeDot row x

/-- The 128 code values (R106). -/
def codeValues (r : List Byte) (y : List W32) : List Nat :=
  (List.zipWith (fun e s => fDiv e s) y (nrScale r)).zip (nrZero r) |>.map fun e => (clampRound e.1 e.2 0 15).toNat

/-- Pairs packed into bytes, an even place in the low half (R107). -/
def packNibbles : List Nat → List Byte
  | a :: b :: t => BitVec.ofNat 8 (a + 16 * b) :: packNibbles t
  | [a] => [BitVec.ofNat 8 a]
  | [] => []

/-- The values of code bytes. -/
def unpackNibbles (b : List Byte) : List Nat := b.flatMap fun x => [x.toNat % 16, x.toNat / 16]

/-- Quantity N of an item (R108). -/
def normQuantity (r : List Byte) (xb y : List W32) : W32 :=
  if nrMetric r = 3 then treeDot xb xb
  else if nrDim r ≥ 128 then fSqrt (fMax (fSub (treeDot xb xb) (treeDot y y)) 0)
  else 0

/-- The norm correction of N (R108). -/
def normCorrection (r : List Byte) (n : W32) : Nat := (clampRound (fDiv n (nrSigma r)) 0 0 65535).toNat

/-! ### Query sketches (R109, R110, R112) -/

/-- Smallest power of two from 2^e on, for at most `k` doublings, that is not less than `g`. -/
def pow2Above (g : W32) : Nat → Int → W32
  | 0, e => fPow2 e
  | k + 1, e => if fLe g (fPow2 e) then fPow2 e else pow2Above g k (e + 1)

/-- The scale t of folded values (R109). -/
def sketchScale (w : List W32) : W32 :=
  let lo := w.foldl fMin (w.headD 0)
  let hi := w.foldl fMax (w.headD 0)
  if !fLt lo hi then 0x3F800000
  else
    let g := fDiv (fSub hi lo) (fInt 255)
    if fLt (fPow2 127) g then fPow2 127 else pow2Above g 276 (-149)

/-- The 160 bytes of the query sketch record (R110), with the fp32 values that R692 asks about: Y_q only from D = 128 up,
where R110 computes it (DEDUCED, log entry 106). -/
def querySketch (r : List Byte) (q : List W32) : List Byte × List W32 :=
  let y := projectVec r q
  let w := List.zipWith fMul y (nrScale r)
  let t := sketchScale w
  let lo := w.foldl fMin (w.headD 0)
  let b : Int := clampRound (fNeg (fDiv lo t)) (-128) (-128) 127
  let a := w.map fun e => clampRound (fDiv e t) b (-128) 127
  let k := treeSum (List.zipWith (fun e z => fMul e (fInt (z : Nat))) w (nrZero r))
  let m := if nrMetric r = 3 then (clampRound (fDiv (fMul (fInt 65536) (nrSigma r)) (fMul (fInt 2) t)) 0 0 4294967295).toNat else 0
  let q2 := treeDot q q
  let yq := treeDot y y
  let rho := if nrDim r ≥ 128 then fSqrt (fMax (fSub q2 yq) 0) else 0
  (a.map (fun i => BitVec.ofNat 8 (ofSigned 8 i)) ++ natLe 1 (ofSigned 8 b) ++ natLe 3 0 ++ natLe 4 t.toNat ++ natLe 4 k.toNat ++
    natLe 4 m ++ natLe 4 rho.toNat ++ natLe 4 q2.toNat ++ natLe 8 0,
   q ++ y ++ w ++ [k, q2] ++ if nrDim r ≥ 128 then [yq] else [])

/-- a of a query sketch record. -/
def skA (k : List Byte) : List Int := (slice k 0 128).map fun x => toSigned 8 x.toNat
/-- b. -/
def skB (k : List Byte) : Int := toSigned 8 (field k 0x80 1)
/-- t. -/
def skT (k : List Byte) : W32 := BitVec.ofNat 32 (field k 0x84 4)
/-- K. -/
def skK (k : List Byte) : W32 := BitVec.ofNat 32 (field k 0x88 4)
/-- M. -/
def skM (k : List Byte) : Nat := field k 0x8C 4
/-- RHO_Q. -/
def skRho (k : List Byte) : W32 := BitVec.ofNat 32 (field k 0x90 4)
/-- Q2. -/
def skQ2 (k : List Byte) : W32 := BitVec.ofNat 32 (field k 0x94 4)

/-- A prepared query: its normalized vector and its sketch record; none where R102 or R692 refuses it. -/
def prepareQuery (r : List Byte) (x : List W32) : Option (List W32 × List Byte) :=
  if !x.all fFinite then none
  else match normalizeVec (nrMetric r) x with
    | none => none
    | some q =>
      let k := querySketch r q
      if k.2.all fFinite then some (q, k.1) else none

/-- The stored forms of an item: exact vector, code, norm correction (R103 to R108). -/
structure ItemForms where
  exact : List Byte
  code : List Byte
  norm : Nat
  deriving DecidableEq, Repr

/-- Code and norm correction of a stored exact vector, and the values R692 asks about: X and Y of R108 only where the metric
and D have the chapter compute them (DEDUCED, log entry 106). -/
def formsOf (r : List Byte) (e : List Byte) : ItemForms × List W32 :=
  let xb := exactRead r e
  let y := projectVec r xb
  let w := List.zipWith fMul y (nrScale r)
  let k := treeSum (List.zipWith (fun a z => fMul a (fInt (z : Nat))) w (nrZero r))
  let n := normQuantity r xb y
  (⟨e, packNibbles (codeValues r y), normCorrection r n⟩, xb ++ y ++ w ++ [k, n] ++ if nrMetric r ≠ 3 ∧ nrDim r ≥ 128 then [treeDot xb xb, treeDot y y] else [])

/-- The forms of an input vector; none where R101, R102, R103 or R692 refuses it. -/
def prepareItem (r : List Byte) (x : List W32) : Option ItemForms :=
  if !x.all fFinite then none
  else match normalizeVec (nrMetric r) x with
    | none => none
    | some x =>
      let f := formsOf r (exactForm r x)
      if x.all fFinite ∧ f.2.all fFinite then some f.1 else none

/-! ### Distances and keys (R111 to R115, R117) -/

/-- The Lichen result A (R111). -/
def lichenA (code : List Byte) (sk : List Byte) : Int :=
  let c := unpackNibbles code
  (List.zipWith (fun (a : Int) (c : Nat) => a * (c : Int)) (skA sk) c).sum - skB sk * (c.sum : Int)

/-- The sketch distance δ (R112). -/
def sketchDelta (r : List Byte) (sk : List Byte) (a : Int) (n : Nat) : Int :=
  if nrMetric r = 3 then (n * skM sk / 65536 : Nat) - a else -a

/-- The sketch key (R113). -/
def sketchKey (d : Int) : Nat := (max 0 (min 0xFFFFFFFE (d + 2147483648))).toNat

/-- The exact distance d (R114). -/
def exactDist (r : List Byte) (xb q : List W32) : W32 :=
  if nrMetric r = 3 then
    treeSum (List.zipWith (fun a b => fMul (fSub a b) (fSub a b)) xb q)
  else treeDot xb q

/-- Order-preserving key of an fp32 value; −0 counts as +0, a NaN ranks with the worst (R115). -/
def orderKey (f : W32) : Nat :=
  if fIsNan f then 0xFFFFFFFE
  else
    let u := if f = 0x80000000 then 0 else f.toNat
    if u < 0x80000000 then u + 0x80000000 else 0xFFFFFFFF - u

/-- The exact score key of d (R115). -/
def exactKey (r : List Byte) (d : W32) : Nat := orderKey (if nrMetric r = 3 then d else fNeg d)

/-- The disagreement check passes (R117). -/
def disagreeOk (r : List Byte) (sk : List Byte) (a : Int) (n : Nat) (d : W32) : Bool :=
  let est := fSub (fMul (skT sk) (fInt a)) (skK sk)
  let sn := fMul (nrSigma r) (fInt (n : Nat))
  let euc := nrMetric r = 3
  let es := if euc then fAdd (fSub sn (fMul (fInt 2) est)) (skQ2 sk) else est
  let res := if euc then fMul (fMul (fInt 2) (fSqrt sn)) (skRho sk) else fMul sn (skRho sk)
  let th := fAdd (fAdd (nrTolAbs r) (fMul (nrTolRel r) (fAbs d))) res
  fLe (fAbs (fSub es d)) th

end Sys2Proof.Machine
end

