-- ==== Sys2Proof/Machine/IndexOps.lean ====
section
/-! DEFINITION. The structures of an index on their tiers, and the operations that search, updates and linking share
(05_index_layout, 06_search_walk R178 to R180, 07_lichen_units R219 and R220). -/
namespace Sys2Proof.Machine
open Sys2Proof

/-! ### T2: windows, row groups, the CRC shadow table (R194, R219, R220) -/

/-- The null slot. -/
def nullSlot : Nat := 0xFFFFFFFF
/-- CRC-32C of 4,096 zero bytes. -/
def zeroRgCrc : Nat := 0x98F94189

/-- The stack of a window serves. -/
def winUp (s : State) (w : Nat) : Bool := !s.fencedUnit 0x08 (w / 80)

/-- The configuration that lays memory out: the one in force, and before the first strobe the one that start-up has staged
(R659). -/
def layoutCfg (s : State) : ImgCfg :=
  let x := match s.power.startSlot with
    | some 0 => s.img.slot0
    | some _ => s.img.slot1
    | none => none
  if s.img.applied then s.img.cfg else (x.map (·.cfg)).getD s.img.cfg

/-- A window that may hold the CRC shadow table: device-owned, USE 0x4, in a stack that serves. -/
def shadowUse (s : State) (w : Nat) : Bool := cfgWinOwner (layoutCfg s) w == 0x7E && cfgWinUse (layoutCfg s) w == 4 && winUp s w

/-- The device-owned window that holds the CRC shadow table (R219, R589). -/
def shadowWin (s : State) : Option Nat := (List.range 480).find? (shadowUse s)

/-- The window holds the CRC shadow table. -/
def isShadow (s : State) (w : Nat) : Bool := shadowUse s w && shadowWin s == some w

/-- Shadow CRC of a row group, numbered 2^18 * window + row group. -/
def shadowCrc (s : State) (rg : Nat) : Nat := s.lichen.shadow.getD rg zeroRgCrc

/-- Bytes of T2 at window * 2^30 + offset; the shadow table's window reads as the table. -/
def t2Read (s : State) (a n : Nat) : List Byte :=
  if isShadow s (a / 2 ^ 30) then
    (List.range n).map fun i => let o := (a + i) % 2 ^ 30; BitVec.ofNat 8 (bits (shadowCrc s (o / 4)) (8 * (o % 4)) 8)
  else tierRead s.lichen.t2 a n

/-- A row group's 4,096 bytes as stored. -/
def rgBytes (s : State) (rg : Nat) : List Byte := tierRead s.lichen.t2 (4096 * rg) 4096

/-- CRC-32C of a row group as stored; one of which no line is listed holds zeros. -/
def rgCrc (s : State) (rg : Nat) : Nat :=
  if s.lichen.t2.any fun e => e.1 / 64 == rg then crc32c (rgBytes s rg) else zeroRgCrc

/-- Row groups that a write touches. -/
def rgsOf (a n : Nat) : List Nat := (List.range ((a + n - 1) / 4096 + 1 - a / 4096)).map (· + a / 4096)

/-- Bytes written to T2: a write to a bare row group updates its shadow CRC by the change alone (R220), a write of a whole
segment clears its poison (R360); a write to a fenced stack is lost. -/
def t2Write (s : State) (a : Nat) (b : List Byte) : State :=
  let w := a / 2 ^ 30
  if b.isEmpty ∨ !winUp s w then s
  else if isShadow s w then
    s.mapLichen fun l => { l with shadow := (b.zipIdx).foldl (fun m x =>
      let o := (a + x.2) % 2 ^ 30
      m.store zeroRgCrc (o / 4) (setBits (m.getD (o / 4) zeroRgCrc) (8 * (o % 4)) 8 x.1.toNat)) l.shadow }
  else
    let t := s.mapLichen fun l => { l with
      t2 := tierWrite l.t2 a b, t2poison := l.t2poison.filter fun g => !(decide (a ≤ 32 * g) && decide (32 * g + 32 ≤ a + b.length)) }
    if cfgWinBare (layoutCfg s) w then
      t.mapLichen fun l => { l with shadow := (rgsOf a b.length).foldl (fun m g =>
        m.store zeroRgCrc g ((m.getD g zeroRgCrc ^^^ crc32c (rgBytes s g)) ^^^ crc32c (rgBytes t g))) l.shadow }
    else t

/-! ### Addresses (R130, R139, Placement and sizing) -/

/-- Offset of the code of slot `x` in its window; the window is number `x / 2048 / 7943` of the list. -/
def codeOff (x : Nat) : Nat := (x / 2048 % 7943) * 135168 + x % 2048 / 64 * 4096 + x % 2048 % 64 * 64

/-- Address of the code of slot `x` in a window list. -/
def codeAddr (wins : List Nat) (x : Nat) : Option Nat := (wins[x / 2048 / 7943]?).map fun w => 2 ^ 30 * w + codeOff x

/-- Address of the sweep tag of slot `x` in a window list. -/
def tagAddr (wins : List Nat) (x : Nat) : Option Nat :=
  let g := x / 2048
  (wins[g / 7943]?).map fun w => 2 ^ 30 * w + (g % 7943) * 135168 + 131072 + x % 2048 * 2

/-- Address of the norm correction of slot `x`. -/
def normAddr (sh : Shard) (x : Nat) : Option Nat := (sh.desc.normList[x / 2 ^ 29]?).map fun w => 2 ^ 30 * w + 2 * (x % 2 ^ 29)

/-- Windows of the fresh ring, as a window list. -/
def ringWins (sh : Shard) : List Nat := [sh.desc.freshWin]

/-- Ring index of a sequence number (R139). -/
def ringIdx (sh : Shard) (q : Nat) : Nat := if sh.desc.freshEntries = 0 then 0 else q % sh.desc.freshEntries

/-- A write to a window of a shard also goes to the target of a relocation of it (R156). -/
def winWrite (s : State) (sh : Shard) (a : Nat) (b : List Byte) : State :=
  let s := t2Write s a b
  match sh.reloc with
  | some (_, src, dst) => if a / 2 ^ 30 = src then t2Write s (2 ^ 30 * dst + a % 2 ^ 30) b else s
  | none => s

/-- A write to an address that may not exist. -/
def winWrite? (s : State) (sh : Shard) (a : Option Nat) (b : List Byte) : State :=
  match a with
  | some a => winWrite s sh a b
  | none => s

/-- Bytes at an address of T2: none where the stack is fenced (R589). -/
def winRead? (s : State) (a : Option Nat) (n : Nat) : Option (List Byte) :=
  a.bind fun a => if winUp s (a / 2 ^ 30) then some (t2Read s a n) else none

/-- Code of a slot in the code region. -/
def slotCode (s : State) (sh : Shard) (x : Nat) : Option (List Byte) := winRead? s (codeAddr sh.desc.codeList x) 64
/-- Code of a ring index. -/
def ringCode (s : State) (sh : Shard) (i : Nat) : Option (List Byte) := winRead? s (codeAddr (ringWins sh) i) 64
/-- Norm correction of a slot. -/
def slotNorm (s : State) (sh : Shard) (x : Nat) : Option Nat := (winRead? s (normAddr sh x) 2).map leNat
/-- Sweep tag of a slot. -/
def slotTag (s : State) (sh : Shard) (x : Nat) : Nat := ((winRead? s (tagAddr sh.desc.codeList x) 2).map leNat).getD 0
/-- Sweep tag of a ring index. -/
def ringTag (s : State) (sh : Shard) (i : Nat) : Nat := ((winRead? s (tagAddr (ringWins sh) i) 2).map leNat).getD 0

/-- Bits of a sweep tag (R132). -/
def tagLive : Nat := 0x4000
def tagUnsettled : Nat := 0x8000

/-! ### Slot records and states (R134, R135, R138) -/

def srGid (r : Nat) : Nat := bits r 0 64
def srRseq (r : Nat) : Nat := bits r 64 24
def srDel (r : Nat) : Nat := bits r 88 20
def srOcc (r : Nat) : Bool := bit r 108
def srDeleted (r : Nat) : Bool := bit r 109
def srLinkSettled (r : Nat) : Bool := bit r 110
def srDelSettled (r : Nat) : Bool := bit r 111

/-- Slot record. -/
def slotRec (sh : Shard) (x : Nat) : Nat := sh.slots.getD x 0

/-- A slot record of a new item. -/
def newSlotRec (gid rseq : Nat) (settled : Bool) : Nat := gid + rseq % 2 ^ 24 * 2 ^ 64 + 2 ^ 108 + b2n settled * 2 ^ 110

/-- Whether slot states are absent, fresh, graph or ghost (R135). -/
inductive SlotSt where
  | absent | fresh | graph | ghost
  deriving DecidableEq, Repr

/-- State in epoch F, with its head and tail, of a slot with record `r` and tombstone bit `tomb`; the RSEQ difference is read
across half its range, as R17, R137 and R140 require (DEDUCED, log entry 14). -/
def recState (r : Nat) (tomb : Bool) (f head tail : Nat) : SlotSt :=
  let back := (head + 2 ^ 24 - srRseq r) % 2 ^ 24
  let gone := tomb && srDeleted r && (srDelSettled r || decide ((f + 2 ^ 20 - srDel r) % 2 ^ 20 < 2 ^ 19))
  if !srOcc r then .absent
  else if srLinkSettled r then (if gone then .ghost else .graph)
  else if back = 0 ∨ back > 2 ^ 23 then .absent
  else if head - back ≥ tail then (if gone then .absent else .fresh)
  else (if gone then .ghost else .graph)

/-- State of a slot of a shard in epoch F. -/
def slotState (sh : Shard) (x f head tail : Nat) : SlotSt := recState (slotRec sh x) (sh.tomb.contains x) f head tail

/-- The record of an epoch in use (R129). -/
def recordOf (sh : Shard) (f : Nat) : Option EpochRec := (sh.epochTable ++ sh.inUse).find? fun e => e.epoch == f && f != 0

/-- Head and tail of an epoch in use. -/
def headTail (sh : Shard) (f : Nat) : Nat × Nat :=
  match recordOf sh f with
  | some e => (e.head, e.tail)
  | none => (sh.ringHead, sh.ringTail)

/-! ### Versions (R148 to R152) -/

/-- The newest version of a kind that an epoch reads. -/
def versionFor (sh : Shard) (x : Nat) (isAttr : Bool) (f : Nat) : Option Version :=
  sh.versions.find? fun v => v.slot == x && v.isAttr == isAttr && decide (v.pub ≤ f)

/-- Adjacency of a slot in an epoch (R150). -/
def adjFor (sh : Shard) (x f : Nat) : List Nat := ((versionFor sh x false f).map (·.adj)).getD (sh.adj.getD x [])

/-- Attribute word of a slot in an epoch (R150). -/
def attrFor (sh : Shard) (x f : Nat) : Nat := ((versionFor sh x true f).map (·.attr)).getD (sh.attrs.getD x 0)

/-- Newest attribute word of a slot. -/
def attrNewest (sh : Shard) (x : Nat) : Nat :=
  (((sh.versions.find? fun v => v.slot == x && v.isAttr)).map (·.attr)).getD (sh.attrs.getD x 0)

/-- 32-byte units that a version record takes (R148). -/
def verUnits (sh : Shard) (isAttr : Bool) : Nat := 1 + (if isAttr then 1 else sh.desc.degree / 8)

/-- First place for so many units between spans that are sorted by their place; the count bounds the search. -/
def unitGap (top need : Nat) : List (Nat × Nat) → Nat → Option Nat
  | [], lo => if lo + need ≤ top then some lo else none
  | (a, n) :: t, lo => if lo + need ≤ a then some lo else unitGap top need t (max lo (a + n))

/-- Place for a new version record: the first eighth of the region is the directory (R149; the first place that fits: log
entry 113). -/
def ovlGap (sh : Shard) (isAttr : Bool) : Option Nat :=
  let units := sh.desc.ovlSize * 2 ^ 15
  unitGap units (verUnits sh isAttr) (sortAsc (·.1) (sh.versions.map fun v => (v.off, verUnits sh v.isAttr))) (units / 8)

/-- Position for a slot in the directory: its own, or the first one unused. -/
def dirGap (sh : Shard) (x : Nat) : Option Nat :=
  match sh.dir.find? fun e => e.2 == x with
  | some e => some e.1
  | none => (List.range (min (sh.dir.length + 1) (sh.desc.ovlSize * 2 ^ 14))).find? fun i => !sh.dir.has i

/-- A version of a slot and kind with the same PUB exists. -/
def sameVersion (v : Version) (x : Nat) (isAttr : Bool) (pub : Nat) : Bool := v.slot == x && v.isAttr == isAttr && v.pub == pub

/-- The overlay region has room for a version with PUB `pub`: one that exists is rewritten in place (R149, R152). -/
def overlayRoom (sh : Shard) (x : Nat) (isAttr : Bool) (pub : Nat) : Bool :=
  sh.versions.any (fun v => sameVersion v x isAttr pub) || ((ovlGap sh isAttr).isSome && (dirGap sh x).isSome)

/-- A version of an epoch's change written, or rewritten in place (R149). -/
def putVersion (sh : Shard) (x : Nat) (isAttr : Bool) (pub : Nat) (adj : List Nat) (attr : Nat) : Shard :=
  if sh.versions.any fun v => sameVersion v x isAttr pub then
    { sh with versions := sh.versions.map fun v => if sameVersion v x isAttr pub then { v with adj := adj, attr := attr } else v }
  else { sh with
    versions := { off := (ovlGap sh isAttr).getD 0, slot := x, isAttr := isAttr, pub := pub, adj := adj, attr := attr } :: sh.versions
    dir := sh.dir.put ((dirGap sh x).getD 0) x }

/-- Versions unlinked; a slot that no version names leaves the directory. -/
def dropVersions (sh : Shard) (gone : Version → Bool) : Shard :=
  let left := sh.versions.filter fun v => !gone v
  { sh with versions := left, dir := sh.dir.filter fun e => left.any fun v => v.slot == e.2 }

/-! ### The hot copy of adjacency (R144) -/

/-- Address in the stack windows of a slot's hot adjacency record. -/
def hotAddr (sh : Shard) (x : Nat) : Option Nat :=
  if x < sh.desc.hotSlots then some (2 ^ 30 * sh.desc.hotWin + 4 * sh.desc.degree * x) else none

/-- Bytes of an adjacency record: used entries first, then null slots (R142). -/
def adjBytes (degree : Nat) (l : List Nat) : List Byte := (List.range degree).flatMap fun i => natLe 4 (l.getD i nullSlot)

/-- A primary record has changed: its hot copy follows. -/
def hotWrite (s : State) (sh : Shard) (x : Nat) (l : List Nat) : State := winWrite? s sh (hotAddr sh x) (adjBytes sh.desc.degree l)

/-- A segment of a slot's hot record holds poison. -/
def hotDamaged (s : State) (sh : Shard) (x : Nat) : Bool :=
  ((hotAddr sh x).map fun a => s.lichen.t2poison.any fun g => decide (a / 32 ≤ g) && decide (32 * g < a + 4 * sh.desc.degree)).getD false

/-- Adjacency of a slot as a walker reads it in an epoch: a version, else the hot copy while its stack serves and it is whole,
else the primary record (R144, R150, R589, R594). -/
def adjRead (s : State) (sh : Shard) (x f : Nat) : List Nat :=
  match versionFor sh x false f with
  | some v => v.adj
  | none => match (winRead? s (hotAddr sh x) (4 * sh.desc.degree)).filter fun _ => !hotDamaged s sh x with
    | some b => ((List.range sh.desc.degree).map fun i => field b (4 * i) 4).takeWhile (· != nullSlot)
    | none => sh.adj.getD x []

/-- Tier that a walker's read of a slot's record goes to. -/
def adjTier (s : State) (sh : Shard) (x f : Nat) : Nat :=
  if (versionFor sh x false f).isNone ∧ ((hotAddr sh x).map fun a => winUp s (a / 2 ^ 30)).getD false then tT2 else tT3

/-- An engine reads or writes a part of structure `k` of a shard (R126, R127). -/
def structTouch (s : State) (sh : Shard) (k off n : Nat) (write : Bool) : State :=
  match sh.t3[k]? with
  | some a => spanTouch s sh.part (a + off) n write
  | none => s

/-- The record and the attribute word of a slot read or written. -/
def slotTouch (s : State) (sh : Shard) (x : Nat) (write : Bool) : State :=
  structTouch (structTouch s sh 1 (16 * x) 16 write) sh 4 (8 * x) 8 write

/-- The primary adjacency record of a slot read or written. -/
def primaryTouch (s : State) (sh : Shard) (x : Nat) (write : Bool) : State :=
  structTouch s sh 3 (4 * sh.desc.degree * x) (4 * sh.desc.degree) write

/-- The adjacency record that an epoch reads of a slot: a version, the hot copy or the primary. -/
def adjTouch (s : State) (sh : Shard) (x f : Nat) (write : Bool) : State :=
  match versionFor sh x false f, hotAddr sh x with
  | some v, _ => structTouch s sh 7 (32 * v.off) (32 + 4 * sh.desc.degree) write
  | none, some a => if winUp s (a / 2 ^ 30) then spanTouch s sh.part (2 ^ 41 + a) (4 * sh.desc.degree) write else primaryTouch s sh x write
  | none, none => primaryTouch s sh x write

/-- An adjacency record meets R143. -/
def adjOk (sh : Shard) (x : Nat) (l : List Nat) : Bool :=
  let used := l.takeWhile (· != nullSlot)
  used.all (fun y => y != x && decide (y < sh.desc.slotLimit)) && (l.drop used.length).all (· == nullSlot) &&
    decide (used.Nodup)

/-! ### Attributes, filters, tag rules (R145 to R147, R182) -/

/-- Width of a column entry. -/
def colWidth (c : Nat) : Nat := 8 * 2 ^ bits c 6 2
/-- Column value in an attribute word. -/
def colValue (c attr : Nat) : Nat := bits attr (bits c 0 6) (colWidth c)
/-- Order value of a column value (R179). -/
def orderValue (c v : Nat) : Nat := if bit c 8 then v ^^^ 2 ^ (colWidth c - 1) else v

/-- A schema entry meets R145. -/
def colOk (c : Nat) : Bool := decide (bits c 6 2 < 3) && decide (bits c 9 7 = 0) && decide (bits c 0 6 + colWidth c ≤ 64)

/-- Columns of a schema lie within the word and do not overlap. -/
def schemaOk (l : List Nat) : Bool :=
  l.all colOk && ((l.zipIdx).all fun a => (l.zipIdx).all fun b =>
    a.2 == b.2 || decide (bits a.1 0 6 + colWidth a.1 ≤ bits b.1 0 6) || decide (bits b.1 0 6 + colWidth b.1 ≤ bits a.1 0 6))

def termCol (t : Nat) : Nat := bits t 0 3
def termOp (t : Nat) : Nat := bits t 3 3
def termNeg (t : Nat) : Bool := bit t 6
def termConst (t : Nat) : Nat := bits t 32 32

/-- The fields of a term hold no reserved value or bit (R7, R8, R146). -/
def termFormOk (t : Nat) : Bool := decide (termOp t ≤ 4) && decide (bits t 7 25 = 0)

/-- A term or rule meets R146. -/
def termOk (schema : List Nat) (ncol t : Nat) : Bool :=
  let c := schema.getD (termCol t) 0
  let w := colWidth c
  let k := termConst t
  decide (termCol t < ncol) && termFormOk t &&
    (if bit c 8 then decide (-(2 ^ (w - 1) : Int) ≤ toSigned 32 k) && decide (toSigned 32 k ≤ (2 ^ (w - 1) : Int) - 1)
     else decide (k < 2 ^ w))

/-- Outcome of a term on an attribute word. -/
def termHolds (schema : List Nat) (attr t : Nat) : Bool :=
  let c := schema.getD (termCol t) 0
  let w := colWidth c
  let v := colValue c attr
  let k := termConst t
  let low := k % 2 ^ w
  let a : Int := if bit c 8 then toSigned w v else v
  let b : Int := if bit c 8 then toSigned 32 k else k
  let r := match termOp t with
    | 0 => decide (a = b) | 1 => decide (a < b) | 2 => decide (a ≤ b)
    | 3 => decide (v &&& low ≠ 0) | _ => decide (v &&& low = low)
  r != termNeg t

/-- The filter admits an attribute word. -/
def filterOk (sh : Shard) (terms : List Nat) (attr : Nat) : Bool := terms.all (termHolds sh.desc.schema attr)

/-- Tag rule bits of an attribute word (R132). -/
def ruleBits (sh : Shard) (attr : Nat) : Nat :=
  ((sh.desc.tagRules.take sh.desc.ntag).zipIdx).foldl (fun n x => n + b2n (termHolds sh.desc.schema attr x.1) * 2 ^ x.2) 0

/-! ### Histograms (R178 to R180) -/

/-- A histogram word changed. -/
def histAdd (h : Hist) (add : Bool) (i : Nat) : Hist :=
  let v := h.words.getD i 0
  { h with words := h.words.store 0 i (if add then v + 1 else v - 1) }

/-- Words of a histogram that an attribute word counts in. -/
def histWords (sh : Shard) (attr : Nat) : List Nat :=
  (sh.desc.schema.take sh.desc.ncol).zipIdx.flatMap fun x =>
    let v := colValue x.1 attr
    let w := colWidth x.1
    (4 + 288 * x.2 + orderValue x.1 v / 2 ^ (w - 8)) ::
      ((List.range w).filter (bit v)).map fun b => 260 + 288 * x.2 + b

/-- An item counted in, or out of, a histogram. -/
def histItem (sh : Shard) (h : Hist) (add : Bool) (attr : Nat) : Hist :=
  let h := (histWords sh attr).foldl (fun h i => histAdd h add i) h
  { h with nLive := if add then h.nLive + 1 else h.nLive - 1 }

/-- A change of an attribute word in a histogram. -/
def histChange (sh : Shard) (h : Hist) (old new : Nat) : Hist := histItem sh (histItem sh h false old) true new

/-! ### The ID map (R154, R155) -/

/-- CRC-32C register started from a given preset, over the 8 bytes of an ID. -/
def gidHash (preset gid : Nat) : Nat := (natLe 8 gid).foldl crcByte preset ^^^ 0xFFFFFFFF
/-- IDMAP_BUCKETS. -/
def idBuckets (sh : Shard) : Nat := ceilDiv sh.desc.slotLimit 7
/-- Fingerprint of an ID. -/
def gidFp (gid : Nat) : Nat := gidHash 0xFFFFFFFF gid
/-- First and second bucket of an ID. -/
def gidBuckets (sh : Shard) (gid : Nat) : Nat × Nat :=
  let n := max 1 (idBuckets sh)
  (gidFp gid % n, gidHash 0x9E3779B9 gid % n)

/-- Keys of the entries of a bucket. -/
def bucketKeys (b : Nat) : List Nat := (List.range 8).map (8 * b + ·)

/-- Records placed in a partition's journal and not yet accepted, oldest first. -/
def placedRecs (s : State) (p : Nat) : List JRec :=
  let j := s.epoch.journals.getD p Journal.empty
  ((s.epoch.deferred.filter (·.1 == p)).map (·.2)) ++ j.pages.flatMap (·.recs)

/-- Global item ID of the item that holds or has reserved a slot. -/
def gidOfSlot (s : State) (sh : Shard) (x : Nat) : Nat :=
  match (placedRecs s sh.part).find? fun r => r.index == sh.index && r.slot == x && (r.typ == 1 || r.typ == 2) with
  | some r => r.gid
  | none => srGid (slotRec sh x)

/-- Key of the map entry of an ID. -/
def idKey (s : State) (sh : Shard) (gid : Nat) : Option Nat :=
  let (a, b) := gidBuckets sh gid
  (bucketKeys a ++ bucketKeys b).find? fun k => match sh.idmap.get k with
    | some e => bits e 32 32 == gidFp gid && gidOfSlot s sh (bits e 0 32) == gid
    | none => false

/-- Slot that the map names for an ID. -/
def idSlot (s : State) (sh : Shard) (gid : Nat) : Option Nat := (idKey s sh gid).bind fun k => (sh.idmap.get k).map fun e => bits e 0 32

/-- Placing of an entry with cuckoo displacements; which entry is displaced is open, so a free value names it (log entry
15). -/
def cuckoo (s : State) (sh : Shard) : Nat → Nat → Nat → Nat → Option (Smap Nat)
  | left, gid, x, seed =>
    let (a, b) := gidBuckets sh gid
    match (bucketKeys a ++ bucketKeys b).find? fun k => !sh.idmap.has k with
    | some k => some (sh.idmap.put k (x + gidFp gid * 2 ^ 32))
    | none => match left with
      | 0 => none
      | n + 1 =>
        let f := Config.freeNat seed
        let k := 8 * (if f % 2 = 0 then a else b) + f / 2 % 8
        let y := bits (sh.idmap.getD k 0) 0 32
        cuckoo s { sh with idmap := sh.idmap.put k (x + gidFp gid * 2 ^ 32) } n (gidOfSlot s sh y) y (seed + 1)

/-- The map with an entry for a new ID: none where 64 displacements do not place it (R155). -/
def idInsert (s : State) (sh : Shard) (gid x : Nat) : Option Shard :=
  (cuckoo s sh 64 gid x s.free).map fun m => { sh with idmap := m }

/-- The map entry of an ID made to name another slot. -/
def idRename (s : State) (sh : Shard) (gid x : Nat) : Shard :=
  match idKey s sh gid with
  | some k => { sh with idmap := sh.idmap.put k (x + gidFp gid * 2 ^ 32) }
  | none => sh

/-- The map without an ID. -/
def idRemove (s : State) (sh : Shard) (gid : Nat) : Shard :=
  match idKey s sh gid with
  | some k => { sh with idmap := sh.idmap.del k }
  | none => sh

/-! ### Slots (R124, R125) -/

/-- The slot that the next item takes: from the high-water mark, and from the free list once that mark has reached
SLOT_LIMIT. -/
def takeSlot (sh : Shard) : Option (Nat × Shard) :=
  if sh.highWater < sh.desc.slotLimit then some (sh.highWater, { sh with highWater := sh.highWater + 1 })
  else match sh.free with
    | x :: t => some (x, { sh with free := t })
    | [] => none

/-- A slot returned to the free list: record, tombstone bit, code and tag cleared, latent freed (R125, R133, R321). -/
def freeSlot (s : State) (part index x : Nat) : State :=
  match shardOf s part index with
  | none => s
  | some sh =>
    let s := winWrite? s sh (codeAddr sh.desc.codeList x) (List.replicate 64 0)
    let s := hotWrite (winWrite? s sh (tagAddr sh.desc.codeList x) [0, 0]) sh x []
    s.updShard part index fun sh => { sh with
      free := sh.free ++ [x], slots := sh.slots.del x, tomb := delSet sh.tomb x, adj := sh.adj.del x, attrs := sh.attrs.del x
      vectors := sh.vectors.del x, jvectors := sh.jvectors.del x, latents := sh.latents.del x, unref := delSet sh.unref x
      released := sh.released.filter fun r => r.1 != x, repairOld := delSet sh.repairOld x }

/-! ### Exact vectors -/

/-- Exact vector of a slot: from the journal while the item is FRESH, from the vector store after (R186, R225). -/
def exactOf (sh : Shard) (x : Nat) : Option (List Byte) := (sh.vectors.get x).orElse fun _ => sh.jvectors.get x

/-- x̄ of a slot, read back in fp32. -/
def xbarOf (sh : Shard) (x : Nat) : List W32 := ((exactOf sh x).map (exactRead sh.desc.numrec)).getD []

end Sys2Proof.Machine
end

