-- ==== Sys2Proof/Machine/Journal.lean ====
section
/-! DEFINITION. The update journal: placement, durability, acceptance and withdrawal of update entries, and the end of an
update batch (09_epochs_updates R261 to R268, R695; 13_felt_flash R382 to R386; 18_command_set R551 to R555). -/
namespace Sys2Proof.Machine
open Sys2Proof

/-! ### Outcomes and the end of a batch (R540, R554, R555) -/

/-- An entry that has been placed and is neither accepted nor refused. -/
def EntryOut.open_ (o : EntryOut) : Bool := o.status == 0 && o.epoch == 0

/-- An outcome of a refused entry. -/
def refused (gid st : Nat) : EntryOut := { status := st, state := 0, slot := nullSlot, epoch := 0, flags := 0, gid := gid, old := nullSlot }

/-- STATE that an entry not placed yet has reached: 1 where its document is embedded (R16, R557). -/
def reached (c : Cmd) (i : Nat) : Nat := b2n (eOpcode c.entry == 0x21 && c.outputs.has i)

/-- An outcome of a refused entry, with the STATE it had reached (R598). -/
def refusedAt (c : Cmd) (i gid st : Nat) : EntryOut := { refused gid st with state := reached c i }

/-- The 32 bytes of an outcome record. -/
def outBytes (o : EntryOut) : List Byte :=
  natLe 8 o.gid ++ natLe 4 o.slot ++ natLe 1 o.status ++ natLe 1 (o.state % 8 + o.flags % 16 * 8) ++ natLe 2 0 ++ natLe 6 o.epoch ++
    natLe 4 o.old ++ natLe 6 0

/-- STATUS of a batch (R555). -/
def batchStatus (outs : List EntryOut) : Nat :=
  match outs.find? fun o => o.status != 0 with
  | none => stOk
  | some o => if o.status = stFaultedNone ∧ outs.any fun o => o.status == 0 then stFaultedPartial else o.status

/-- PROGRESS of a batch (R540). -/
def batchProgress (outs : List EntryOut) (total : Nat) : Nat :=
  (outs.filter fun o => o.status == 0).length +
    ((indexOf? (fun o => o.status != 0 && o.state == 0) outs).getD total) * 8192

/-- Change of one outcome of a command. -/
def State.updOut (s : State) (n i : Nat) (f : EntryOut → EntryOut) : State :=
  s.updCmd n fun c => { c with outs := c.outs.zipIdx.map fun x => if x.2 = i then f x.1 else x.1 }

/-- An outcome added. -/
def State.addOut (s : State) (n : Nat) (o : EntryOut) : State := s.updCmd n fun c => { c with outs := c.outs ++ [o] }

/-- Every later entry is skipped with the status of the one that stopped the batch (R268, R554). -/
def stopBatch (s : State) (n st : Nat) : State :=
  s.updCmd n fun c => { c with
    fullWait := none, next := c.total
    outs := c.outs ++ (List.range (c.total - c.outs.length)).map fun i =>
      { refused (c.gids.getD (c.outs.length + i) 0) st with flags := 8 } }

/-- A batch of which every entry is accepted or refused ends. -/
def endBatch (s : State) (n : Nat) : State :=
  match s.host.cmds.get n with
  | none => s
  | some c =>
    if c.phase = .running ∧ c.next ≥ c.total ∧ c.outs.length ≥ c.total ∧ !c.outs.any EntryOut.open_ then
      let b := if eOpcode c.entry = 0x87 then c.outs.flatMap fun o => natLe 4 o.slot ++ natLe 1 o.status ++ natLe 3 0
        else c.outs.flatMap outBytes
      finish (putResult s n 0 b) n (batchStatus c.outs) (batchProgress c.outs c.total) 0
    else s

/-! ### Pages (R382 to R386) -/

/-- A partition's journal. -/
def journalOf (s : State) (p : Nat) : Journal := s.epoch.journals.getD p Journal.empty
/-- A partition's journal written. -/
def setJournal (s : State) (p : Nat) (j : Journal) : State := s.mapEpoch fun e => { e with journals := e.journals.put p j }

/-- PAGE of the media in use. -/
def flashPage (s : State) : Nat := field s.felt.desc 0x1C 2

/-- Length of a record (R264). -/
def jrecLen (r : JRec) : Nat := if r.typ = 1 ∨ r.typ = 2 then 128 + 64 * ceilDiv r.exact.length 64 else 64

/-- Bytes of records in a page. -/
def pageUsed (g : JPage) : Nat := g.recs.foldl (fun n r => n + jrecLen r) 0

/-- The records of a page with their byte offsets in it (R383). -/
def pageRecs (g : JPage) : List (Nat × JRec) :=
  (g.recs.foldl (fun a r => (a.1 + jrecLen r, a.2 ++ [(a.1, r)])) (64, [])).2

/-- Journal positions, JSEQ and byte offset, in journal order. -/
def posLt (a b : Nat × Nat) : Bool := decide (a.1 < b.1) || (a.1 == b.1 && decide (a.2 < b.2))

/-- Replay point of the current epoch (R277): the first record not accepted before it, or where the next record will stand. -/
def replayPoint (j : Journal) : Nat × Nat :=
  let at_ (g : JPage) : Option (Nat × Nat) := ((pageRecs g).find? fun x => decide (j.mark ≤ x.2.num)).map fun x => (g.jseq, x.1)
  (((j.durable ++ j.pages).filterMap at_).head?).getD (match j.pages.getLast? with
    | some g => if g.closed then (j.nextPage, 64) else (g.jseq, 64 + pageUsed g)
    | none => (j.nextPage, 64))

/-- The 64-byte header of a record with its CRC field as given (R264). -/
def jrecHeader (p : Nat) (r : JRec) (crc : Nat) : List Byte :=
  let item := r.typ = 1 ∨ r.typ = 2
  natLe 1 r.typ ++ natLe 3 (jrecLen r) ++ natLe 1 p ++ natLe 1 r.index ++ natLe 2 0 ++ natLe 6 r.epoch ++ natLe 2 0 ++ natLe 8 r.gid ++
    natLe 4 r.slot ++ natLe 4 (if r.typ = 2 then r.oldSlot else nullSlot) ++ natLe 8 (if item then r.rseq else 0) ++
    natLe 8 (if item ∨ r.typ = 4 then r.attr else 0) ++ natLe 4 crc ++ natLe 2 (if item then r.norm else 0) ++ natLe 10 0

/-- A record as it stands in its page: header, and for an item its code and its exact vector padded to 64 bytes (R264). -/
def jrecBytes (p : Nat) (r : JRec) : List Byte :=
  let body := if r.typ = 1 ∨ r.typ = 2 then slice r.code 0 64 ++ slice r.exact 0 (64 * ceilDiv r.exact.length 64) else []
  jrecHeader p r (crc32c (jrecHeader p r 0 ++ body)) ++ body

/-- The 64-byte header of a page with its CRC field as given (R383). -/
def pageHeader (p copy : Nat) (g : JPage) (crc : Nat) : List Byte :=
  natLe 4 0x4A524E4C ++ natLe 1 p ++ natLe 1 copy ++ natLe 2 g.recs.length ++ natLe 8 g.jseq ++ natLe 2 (64 + pageUsed g) ++ natLe 6 0 ++
    natLe 4 g.keyGen ++ natLe 4 crc ++ natLe 32 0

/-- Data area of a copy of a page: header, records and zeros to the end of the page, before encryption (R383). -/
def pageImage (s : State) (p copy : Nat) (g : JPage) : List Byte :=
  let body := g.recs.flatMap (jrecBytes p)
  slice (pageHeader p copy g (crc32c (pageHeader p copy g 0 ++ body)) ++ body) 0 (flashPage s)

/-- Closed pages whose programs have not completed. -/
def closedRunning (j : Journal) : Nat := (j.pages.filter fun g => g.closed && !(g.copy0 && g.copy1)).length

/-- The journal has no page for a further record, or Felt takes no new writes (R386, R401). -/
def journalFull (s : State) (p : Nat) : Bool :=
  s.felt.limited || decide ((journalOf s p).used + flashPage s > cfgJournal s.img.cfg p * 67108864)

/-- The pages with the last one closed. -/
def closeLast (l : List JPage) : List JPage :=
  match l.reverse with
  | g :: t => (({ g with closed := true }) :: t).reverse
  | [] => []

/-- A record placed in a partition's journal. An error names the bit of EPC_PEVENT for a full journal, or none where the
limit of 8 closed pages holds the record back (R384, R386). The die pair of a new page is open: a free value. -/
def journalPlace (s : State) (p : Nat) (r : JRec) : Except (Option Nat) State :=
  let j := journalOf s p
  let room := flashPage s - 64
  let r := { r with num := j.next }
  let fresh (j : Journal) : Except (Option Nat) State :=
    if journalFull s p then .error (some 2)
    else .ok ((setJournal s p { j with
      pages := j.pages ++ [{ jseq := j.nextPage, recs := [r], closed := false, copy0 := false, copy1 := false, image0 := [], image1 := []
                             die := Config.freeNat s.free % 1024, keyGen := ((s.sec.keys.get p).map (·.gen)).getD 0 }]
      next := j.next + 1, nextPage := j.nextPage + 1, used := j.used + flashPage s }).drawn)
  if jrecLen r > room then .error (some 2)
  else match j.pages.getLast? with
    | some g =>
      if !g.closed ∧ pageUsed g + jrecLen r ≤ room then
        .ok (setJournal s p { j with pages := j.pages.dropLast ++ [{ g with recs := g.recs ++ [r] }], next := j.next + 1 })
      else if !g.closed ∧ closedRunning j ≥ 8 then .error none
      else fresh { j with pages := closeLast j.pages }
    | none => fresh j

/-- A partition's journal holds pages of a key generation older than the one in force (SEC_P_REKEY.JOURNAL_OLD). -/
def journalOld (s : State) (p : Nat) : Bool :=
  let gen := ((s.sec.keys.get p).map (·.gen)).getD 0
  let j := journalOf s p
  (j.durable ++ j.pages).any fun g => g.keyGen != gen

/-- The old keys of a partition are discarded once both sweeps have ended and no journal page of the older generation
remains (R487). -/
def rekeyCheck (s : State) (p : Nat) : State :=
  match s.sec.rekey.get p with
  | none => s
  | some k =>
    if !s.sec.oldKeys.has p ∨ k.t3Active ∨ k.t5Active ∨ journalOld s p then s
    else (s.mapSec fun x => { x with oldKeys := x.oldKeys.del p }).event .secEvent 0 3

/-! ### Acceptance (R261, R267, R133, R217) -/

/-- A slot's deletion accepted in epoch E: DEL, DELETED, tombstone bit, running histogram (R136, R138, R180). -/
def markDeleted (sh : Shard) (x e : Nat) : Shard :=
  let r := slotRec sh x
  { sh with
    slots := sh.slots.put x (setBits r 88 20 (e + 1) - b2n (srDeleted r) * 2 ^ 109 + 2 ^ 109)
    tomb := addSet sh.tomb x
    running := if srDeleted r then sh.running else histItem sh sh.running false (attrNewest sh x) }

/-- Parts of a ring entry that nothing has completed. -/
def LinkParts.fresh : LinkParts :=
  { recDone := false, backDone := false, codeDone := false, vecDone := false, linked := false, walked := false, empty := false }

/-- Sequence number of the ring entry that holds a slot, while the entry lies in the ring. -/
def ringSeq (sh : Shard) (x : Nat) : Option Nat :=
  ((sh.links.filter fun e => sh.freshSlots.get (ringIdx sh e.1) == some x && !e.2.empty).map (·.1)).getLast?

/-- The code of a slot stands in the shard's region. -/
def inRegion (sh : Shard) (x : Nat) : Bool :=
  srLinkSettled (slotRec sh x) || (((ringSeq sh x).bind fun q => sh.links.get q).map (·.codeDone)).getD false

/-- An insert accepted: slot record, attribute word, norm, ring entry with code, slot and tag, histogram. -/
def acceptInsert (s : State) (sh : Shard) (r : JRec) : State :=
  let i := ringIdx sh r.rseq
  let s := winWrite? s sh (normAddr sh r.slot) (natLe 2 r.norm)
  let s := winWrite? s sh (codeAddr (ringWins sh) i) r.code
  let s := winWrite? s sh (tagAddr (ringWins sh) i) (natLe 2 (tagLive + ruleBits sh r.attr))
  s.updShard sh.part sh.index fun sh => { sh with
    slots := sh.slots.put r.slot (newSlotRec r.gid r.rseq false), attrs := sh.attrs.store 0 r.slot r.attr
    freshSlots := sh.freshSlots.put i r.slot, links := sh.links.put r.rseq LinkParts.fresh
    ringHead := max sh.ringHead (r.rseq + 1), jvectors := sh.jvectors.put r.slot r.exact
    running := histItem sh sh.running true r.attr }

/-- An attribute change accepted in epoch E: version, tags in the ring and in the shard region, histogram. -/
def acceptAttr (s : State) (sh : Shard) (r : JRec) (e : Nat) : State :=
  let add := ruleBits sh r.attr ||| tagUnsettled
  let s := match ringSeq sh r.slot with
    | some q => let i := ringIdx sh q
      winWrite? s sh (tagAddr (ringWins sh) i) (natLe 2 (ringTag s sh i ||| add))
    | none => s
  let s := if inRegion sh r.slot then winWrite? s sh (tagAddr sh.desc.codeList r.slot) (natLe 2 (slotTag s sh r.slot ||| add)) else s
  s.updShard sh.part sh.index fun sh =>
    { putVersion sh r.slot true (e + 1) [] r.attr with
      running := histChange sh sh.running (attrNewest sh r.slot) r.attr }

/-- What an accepted record changes in its shard (R267). -/
def applyRec (s : State) (p : Nat) (r : JRec) (e : Nat) : State :=
  match shardOf s p r.index with
  | none => s
  | some sh =>
    let s := ([r.slot, r.oldSlot].filter (· != nullSlot)).foldl (fun s x => slotTouch s sh x true) s
    if r.typ = 1 then acceptInsert s sh r
    else if r.typ = 2 then
      let s := acceptInsert s sh r
      if r.oldSlot = nullSlot then s else s.updShard p r.index fun sh => markDeleted sh r.oldSlot e
    else if r.slot = nullSlot then s
    else if r.typ = 3 then s.updShard p r.index fun sh => markDeleted sh r.slot e
    else if r.typ = 4 then acceptAttr s sh r e
    else s

/-- What EPOCH_FENCE needs of an accepted entry is kept with its queue pair (R263). -/
def fenceNote (s : State) (n p : Nat) (r : JRec) (visible : Nat) : State :=
  match (s.host.cmds.get n).bind (·.qp) with
  | none => s
  | some d =>
    let keep := s.host.cmds.any fun c => c.2.qp == some d && eOpcode c.2.entry == 0x30 && c.2.phase != .done
    s.mapHost fun h => { h with qps := h.qps.upd d fun q => { q with
      vis := (if keep then q.vis.filter fun x => x.1 != n else []) ++ [(n, visible)]
      inserted := if r.typ = 1 ∨ r.typ = 2 then q.inserted ++ [(n, 64 * p + r.index, r.rseq)] else q.inserted } }

/-- A durable record is accepted in the current epoch, and its entry's outcome is posted (R261). -/
def acceptRec (s : State) (p : Nat) (r : JRec) : State :=
  let e := s.epoch.cur
  let s := s.mapEpoch fun x => { x with
    journals := x.journals.upd p fun j => { j with accepted := r.num + 1 }, markDue := if r.typ = 5 then x.markDue else addSet x.markDue p }
  if r.typ = 5 then s
  else
    let s := (applyRec s p r e).bump .epcPAccepted p 1
    match r.src with
    | none => s
    | some (n, i) =>
      let s := s.updOut n i fun o => { o with
        state := 2, epoch := e, slot := r.slot, old := r.oldSlot
        flags := o.flags ||| (if r.slot = nullSlot then 1 else if r.typ = 2 ∧ r.oldSlot ≠ nullSlot then 4 else 0) }
      endBatch (fenceNote s n p r (e + 1)) n

/-- Records that have become durable are accepted now, or at the strobe where PREPARE has passed (R256, R261); an EPOCH_MARK
stands in flash from now on (R278). -/
def takeDurable (s : State) (p : Nat) (l : List JRec) : State :=
  let s := s.mapEpoch fun e => { e with largest := l.foldl (fun m r => if r.typ = 5 then max m r.epoch else m) e.largest }
  if s.epoch.prepared then s.mapEpoch fun e => { e with deferred := e.deferred ++ l.map fun r => (p, r) }
  else l.foldl (fun s r => acceptRec s p r) s

/-- Pages at the front of which both copies have programmed. -/
def donePages : List JPage → List JPage × List JPage
  | [] => ([], [])
  | g :: t => if g.closed ∧ g.copy0 ∧ g.copy1 then let r := donePages t; (g :: r.1, r.2) else ([], g :: t)

/-- A copy of a page has programmed; records of the pages that are durable now are taken (R384). -/
def programDone (s : State) (p jseq copy : Nat) : State :=
  let j := journalOf s p
  let mark (g : JPage) : JPage :=
    if g.jseq ≠ jseq ∨ !g.closed then g
    else if copy = 0 then { g with copy0 := true, image0 := pageImage s p 0 g }
    else if copy = 1 then { g with copy1 := true, image1 := pageImage s p 1 g }
    else g
  let d := donePages (j.pages.map mark)
  takeDurable (setJournal s p { j with pages := d.2, durable := j.durable ++ d.1 }) p (d.1.flatMap (·.recs))

/-! ### Withdrawal (R266, R695, R598) -/

/-- A record's changes to the map and its reservations undone; a ring index it had reserved becomes an empty entry. -/
def undoRec (s : State) (p : Nat) (r : JRec) : State :=
  match shardOf s p r.index with
  | none => s
  | some sh =>
    let sh := if r.typ = 1 then idRemove s sh r.gid
      else if r.typ = 2 then (if r.oldSlot = nullSlot then idRemove s sh r.gid else idRename s sh r.gid r.oldSlot)
      else if r.typ = 3 ∧ r.slot ≠ nullSlot then (idInsert s sh r.gid r.slot).getD sh
      else sh
    if r.typ = 1 ∨ r.typ = 2 then
      let i := ringIdx sh r.rseq
      let s := winWrite? s sh (codeAddr (ringWins sh) i) (List.replicate 64 0)
      let s := winWrite? s sh (tagAddr (ringWins sh) i) [0, 0]
      s.updShard p r.index fun _ => { sh with
        free := sh.free ++ [r.slot], freshSlots := sh.freshSlots.del i, latents := sh.latents.del r.slot
        links := sh.links.put r.rseq { LinkParts.fresh with linked := true, empty := true } }
    else s.updShard p r.index fun _ => sh

/-- A record whose placement changed the ID map (R695). -/
def JRec.mapped (r : JRec) : Bool := r.typ == 1 || r.typ == 2 || (r.typ == 3 && r.slot != nullSlot)

/-- The records to withdraw: those of a set, those of the same command after one of them, and those whose placement read
a change of one of them. -/
def withdrawn (l : List JRec) (start : JRec → Bool) : List JRec :=
  l.foldl (fun w r =>
    let dep := w.any fun x => (x.mapped && r.typ != 5 && x.index == r.index && x.gid == r.gid) || (x.src.map (·.1) == r.src.map (·.1) && x.src.isSome)
    if start r || dep then w ++ [r] else w) []

/-- Records that are not durable yet are withdrawn: their pages are written again without them, their entries end
FAULTED_NONE, and their commands start no later entry. -/
def withdraw (s : State) (p : Nat) (start : JRec → Bool) : State :=
  let j := journalOf s p
  let w := withdrawn (j.pages.flatMap (·.recs)) start
  let out (r : JRec) : Bool := w.any fun x => x.num == r.num
  let s := w.reverse.foldl (fun s r => undoRec s p r) s
  let s := setJournal s p { journalOf s p with
    pages := j.pages.map fun g => if g.recs.any out then { g with recs := g.recs.filter fun r => !out r, copy0 := false, copy1 := false, image0 := [], image1 := [] } else g }
  let s := w.foldl (fun s r => match r.src with
    | some (n, i) => s.updOut n i fun o => { o with status := stFaultedNone, slot := nullSlot, old := nullSlot }
    | none => s) s
  let cmds := (w.filterMap fun r => r.src.map (·.1)).foldl addSet []
  cmds.foldl (fun s n => endBatch (stopBatch s n stFaultedNone) n) s

/-- A fault cuts an update batch short: entries not yet durable are withdrawn, an embedded document that comes next keeps
the STATE it had reached, and no later entry starts (R598). -/
def cutBatch (s : State) (n : Nat) : State :=
  match s.host.cmds.get n with
  | none => s
  | some c =>
    let s := withdraw s c.part fun r => (r.src.map (·.1)) == some n
    let s := if c.phase = .admitted then markRunning s n else s
    let i := c.outs.length
    let s := if i < c.total ∧ reached c i = 1 ∧ !(c.outs.any EntryOut.open_) then s.addOut n (refusedAt c i (c.gids.getD i 0) stFaultedNone) else s
    endBatch (stopBatch s n stFaultedNone) n

/-- Opcodes of update batches. -/
def batchOps : List Nat := [0x10, 0x11, 0x12, 0x13, 0x21, 0x87]

/-- Opcodes whose commands name an index. -/
def indexOps : List Nat := [0x01, 0x03, 0x10, 0x11, 0x12, 0x13, 0x21, 0x22, 0x81, 0x82, 0x83, 0x84, 0x85, 0x86, 0x87]

/-- A fault ends a command: an update batch keeps what it had accepted; every other command ends FAULTED_NONE (R597). -/
def faultCmd (s : State) (n : Nat) : State :=
  match s.host.cmds.get n with
  | none => s
  | some c =>
    if c.phase = .done then s
    else if batchOps.contains (eOpcode c.entry) ∧ c.total > 0 then cutBatch s n else endWith s n stFaultedNone

end Sys2Proof.Machine
end

