-- ==== Sys2Proof/Machine/Special.lean ====
section
/-! DEFINITION. The functions exp, erf, tanh, cos and sin, correctly rounded (10_bracken_engine R288, 11_model_execution
R317), and the conversions that leave the vector unit (R289). Values are integers scaled by a power of two that is far
finer than any rounding of binary32 needs. -/
namespace Sys2Proof.Machine
open Sys2Proof

/-- Scale of exp, erf and tanh: 2^320. -/
def fxP : Nat := 320
/-- Scale of cos and sin: 2^448, so that the largest binary32 argument keeps 320 bits after its reduction. -/
def fxQ : Nat := 448

/-- A finite datum at scale 2^p, exact for p ≥ 149. -/
def toFx (p : Nat) (neg : Bool) (m : Nat) (e : Int) : Int :=
  let v : Int := (m * 2 ^ (e + p).toNat : Nat)
  if neg then -v else v

/-- The binary32 value nearest to v / 2^p. -/
def ofFx (p : Nat) (v : Int) : W32 := BitVec.ofNat 32 (fpRound fp32 (decide (v < 0)) v.natAbs (2 ^ p))

/-- The quiet NaN. -/
def qNan : W32 := 0x7FC00000

/-- Sum of a power series: term 0, and the step from a term and its number to the next term. -/
def seriesSum (next : Int → Nat → Int) (n : Nat) (t0 : Int) : Int :=
  ((List.range n).foldl (fun (a : Int × Int) k => let t := next a.1 k; (t, a.2 + t)) (t0, t0)).2

/-- exp of x / 2^320, for |x| at most 2^7 · 2^320, at scale 2^320: argument halved 8 times, series, 8 squarings. -/
def expFx (x : Int) : Int :=
  let r := x / 256
  let s := seriesSum (fun t k => t * r / 2 ^ fxP / (k + 1 : Nat)) 80 (2 ^ fxP)
  (List.range 8).foldl (fun v _ => v * v / 2 ^ fxP) s

/-- exp. -/
def fExp (x : W32) : W32 :=
  match fv x with
  | .nan => qNan
  | .inf neg => if neg then 0 else 0x7F800000
  | .fin neg m e =>
    let v := toFx fxP neg m e
    if v > 89 * 2 ^ fxP then 0x7F800000 else if v < -(104 * 2 ^ fxP) then 0 else ofFx fxP (expFx v)

/-- π at scale 2^p, by Machin's formula with 32 guard bits. -/
def piFx (p : Nat) : Int :=
  let g := p + 32
  let atan (n : Nat) : Int := (List.range (g / 4)).foldl (fun (a : Int) k =>
    let t : Int := (2 ^ g / ((2 * k + 1) * n ^ (2 * k + 1)) : Nat)
    if k % 2 = 0 then a + t else a - t) 0
  (16 * atan 5 - 4 * atan 239) / 2 ^ 32

/-- 2 / √π at scale 2^320. -/
def twoOverRootPi : Int := (2 ^ (2 * fxP + 1) : Nat) / (isqrt ((piFx fxP).toNat * 2 ^ fxP) : Nat)

/-- erf. -/
def fErf (x : W32) : W32 :=
  match fv x with
  | .nan => qNan
  | .inf neg => if neg then 0xBF800000 else 0x3F800000
  | .fin neg m e =>
    let v := toFx fxP neg m e
    if m = 0 then x
    else if v ≥ 4 * 2 ^ fxP then 0x3F800000 else if v ≤ -(4 * 2 ^ fxP) then 0xBF800000
    else
      let x2 := v * v / 2 ^ fxP
      let s := ((List.range 160).foldl (fun (a : Int × Int) k =>
        let t := -(a.1 * x2 / 2 ^ fxP / (k + 1 : Nat))
        (t, a.2 + t / (2 * k + 3 : Nat))) (v, v)).2
      ofFx fxP (s * twoOverRootPi / 2 ^ fxP)

/-- tanh. -/
def fTanh (x : W32) : W32 :=
  match fv x with
  | .nan => qNan
  | .inf neg => if neg then 0xBF800000 else 0x3F800000
  | .fin neg m e =>
    let v := toFx fxP neg m e
    if m = 0 then x
    else if v ≥ 10 * 2 ^ fxP then 0x3F800000 else if v ≤ -(10 * 2 ^ fxP) then 0xBF800000
    else
      let t := expFx (2 * v)
      ofFx fxP ((t - 2 ^ fxP) * 2 ^ fxP / (t + 2 ^ fxP))

/-- cos and sin of a value in 0 to 2π at scale 2^448. -/
def cosSinFx (r : Int) : Int × Int :=
  let r2 := r * r / 2 ^ fxQ
  let c := seriesSum (fun t k => -(t * r2 / 2 ^ fxQ / ((2 * k + 1) * (2 * k + 2) : Nat))) 90 (2 ^ fxQ)
  let s := seriesSum (fun t k => -(t * r2 / 2 ^ fxQ / ((2 * k + 2) * (2 * k + 3) : Nat))) 90 r
  (c, s)

/-- cos and sin. -/
def fCosSin (x : W32) : W32 × W32 :=
  match fv x with
  | .fin neg m e =>
    if m = 0 then (0x3F800000, x) else
    let r := cosSinFx (toFx fxQ neg m e % (2 * piFx fxQ))
    (ofFx fxQ r.1, ofFx fxQ r.2)
  | _ => (qNan, qNan)

/-! ### Conversions (R289) -/

/-- bf16 form of a binary32 value. -/
def toBf (x : W32) : Nat := if fIsNan x then (if x.toNat ≥ 0x80000000 then 0xFFC0 else 0x7FC0) else toFmt bf16 x
/-- A bf16 value in binary32. -/
def ofBf (b : Nat) : W32 := BitVec.ofNat 32 (b * 65536)
/-- A value rounded to bf16 and read back. -/
def viaBf (x : W32) : W32 := ofBf (toBf x)

/-- int8 form with scale s and zero point z. -/
def toInt8 (s : W32) (z : Int) (x : W32) : Int :=
  match fv (fDiv x s) with
  | .nan => if fIsNan x then z else match fv x with | .inf neg => (if neg then -128 else 127) | _ => z
  | .inf neg => if neg then -128 else 127
  | .fin _ _ _ => clampRound (fDiv x s) z (-128) 127

/-- Value that an int8 code stands for: s × (q − z). -/
def ofInt8 (s : W32) (z q : Int) : W32 := fMul s (fInt (q - z))

/-- Number of values that are not finite. -/
def nonFinite (l : List W32) : Nat := (l.filter fun x => !fFinite x).length

end Sys2Proof.Machine
end

