-- ==== Sys2Proof/Machine/ModelImage.lean ====
section
/-! DEFINITION. Model images, and what a cluster computes for one sequence (10_bracken_engine R279 to R298, 11_model_execution
R304, R306, R316 to R323). -/
namespace Sys2Proof.Machine
open Sys2Proof

/-! ### The header (R304) -/

def miRoles (b : List Byte) : Nat := field b 0x06 1
def miSplit (b : List Byte) : Nat := field b 0x07 1
def miModelId (b : List Byte) : Nat := field b 0x08 8
def miSvn (b : List Byte) : Nat := field b 0x10 4
def miKeySlot (b : List Byte) : Nat := field b 0x14 1
def miRank (b : List Byte) : Nat := field b 0x15 1
def miNLayers (b : List Byte) : Nat := field b 0x16 2
def miHidden (b : List Byte) : Nat := field b 0x18 2
def miMaxSeq (b : List Byte) : Nat := field b 0x1A 2
def miVocab (b : List Byte) : Nat := field b 0x1C 4
def miHeads (b : List Byte) : Nat := field b 0x20 2
def miHeadDim (b : List Byte) : Nat := field b 0x22 2
def miRopeDim (b : List Byte) : Nat := field b 0x24 2
def miLatRank (b : List Byte) : Nat := field b 0x26 2
def miLatRope (b : List Byte) : Nat := field b 0x28 2
def miLatMax (b : List Byte) : Nat := field b 0x2A 2
def miOutDim (b : List Byte) : Nat := field b 0x2C 2
def miNxmap (b : List Byte) : Nat := field b 0x2E 2
def miLayerOff (b : List Byte) : Nat := field b 0x30 4
def miAuxOff (b : List Byte) : Nat := field b 0x34 4
def miLength (b : List Byte) : Nat := field b 0x38 4

/-- DIGEST of an image (R305). -/
def miDigest (b : List Byte) : List Byte := slice (Config.sha384 b) 0 48

/-- Tokens that a batch of the model holds under a profile (R313). -/
def miBtok (b : List Byte) (profile : Nat) : Nat := 3145728 / (max 1 (miHidden b) * (if bit profile 1 then 4 else 2))

/-- Header limits (R304). -/
def miHeaderOk (b : List Byte) : Bool :=
  let g := miSplit b
  field b 0 4 == 0x4D444C49 && field b 4 2 == 1 && decide (miRoles b < 8) && [1, 2, 4, 8].contains g && decide (miRank b < g) &&
    decide (1 ≤ miNLayers b) && decide (miNLayers b ≤ 4096) && decide (64 ≤ miHidden b) && decide (miHidden b ≤ 8192) &&
    decide (1 ≤ miMaxSeq b) && decide (miMaxSeq b ≤ 8192) && decide (1 ≤ miVocab b) && decide (miVocab b ≤ 1048576) &&
    decide (1 ≤ miHeads b) && decide (miHeads b ≤ 128) && miHeads b % g == 0 && decide (16 ≤ miHeadDim b) &&
    decide (miHeadDim b ≤ 256) && miHeadDim b % 16 == 0 && miRopeDim b % 2 == 0 && decide (miRopeDim b ≤ miHeadDim b) &&
    (miLatRank b == 0 || (decide (64 ≤ miLatRank b) && decide (miLatRank b ≤ 512) && miLatRank b % 64 == 0)) &&
    miLatRope b % 2 == 0 && decide (miLatRope b ≤ 64) && decide (miLatMax b ≤ 8192) &&
    (bit (miRoles b) 2 || (miLatRank b == 0 && miLatRope b == 0 && miLatMax b == 0)) &&
    (!bit (miRoles b) 2 || miOutDim b == 1) && decide (miNxmap b ≤ 256) && miLayerOff b % 64 == 0 && miLength b % 64 == 0

/-! ### Layer records (R292, R293) -/

/-- A layer record. -/
structure LayerRec where
  typ : Nat
  wfmt : Nat
  outf : Nat
  npriv : Nat
  inDim : Nat
  outDim : Nat
  mult : Nat
  shift : Nat
  zero : Int
  arg : Nat
  scale : W32
  eps : W32
  woff : Nat
  aoff : Nat
  deriving DecidableEq, Repr

/-- Layer record `k` of an image. -/
def layerRec (b : List Byte) (k : Nat) : LayerRec :=
  let r := slice b (miLayerOff b + 32 * k) 32
  let rs := field r 8 4
  { typ := field r 0 1, wfmt := field r 1 1, outf := field r 2 1, npriv := field r 3 1, inDim := field r 4 2, outDim := field r 6 2
    mult := bits rs 0 24, shift := bits rs 24 6, zero := toSigned 8 (field r 0x0C 1), arg := field r 0x0D 1
    scale := BitVec.ofNat 32 (field r 0x10 4), eps := BitVec.ofNat 32 (field r 0x14 4), woff := field r 0x18 4, aoff := field r 0x1C 4 }

/-- The layer records of an image. -/
def layerRecs (b : List Byte) : List LayerRec := (List.range (miNLayers b)).map (layerRec b)

/-- Inputs of a weight row with its padding (R280). -/
def padDim (k : Nat) : Nat := 128 * ceilDiv k 128

/-- Bytes of weights of a layer. -/
def weightLen (b : List Byte) (l : LayerRec) : Nat :=
  match l.typ with
  | 0x01 => 2 * l.outDim * miVocab b
  | 0x02 => if l.wfmt = 1 then padDim l.inDim * l.outDim else if l.wfmt = 2 then padDim l.inDim * l.outDim / 2 else 2 * padDim l.inDim * l.outDim
  | 0x09 => 2 * l.inDim * l.outDim
  | 0x0A => 2 * l.inDim
  | _ => 0

/-- Bytes of auxiliary data of a layer. -/
def auxLen (l : LayerRec) : Nat :=
  match l.typ with
  | 0x01 => 4
  | 0x02 => 4 * l.outDim + 8 * l.npriv
  | 0x03 => 4 * l.inDim
  | 0x04 => 2 * l.inDim
  | 0x07 => 24
  | 0x09 => 2 * l.outDim
  | 0x0A => 2
  | _ => 0

/-- A record's WFMT, OUTF and widths are those that its layer type has (R293): token table, dense and score weights are bf16,
only a LINEAR chooses, and no other layer has weights; what acts on the residual stream has its width. -/
def layerFits (b : List Byte) (l : LayerRec) : Bool :=
  match l.typ with
  | 0x01 => l.wfmt == 3 && l.outf == 2 && l.outDim == miHidden b
  | 0x02 => l.wfmt != 0 && (l.outf != 2 || l.outDim == miHidden b)
  | 0x03 | 0x04 => l.wfmt == 0 && l.outf != 3 && l.inDim == miHidden b
  | 0x05 => l.wfmt == 0 && l.outf == 1 && decide (1 ≤ l.arg) && decide (l.arg ≤ 3)
  | 0x06 => l.wfmt == 0 && l.outf == 1 && decide (1 ≤ l.arg) && decide (l.arg ≤ 2)
  | 0x07 => l.wfmt == 0 && l.outf == 1 && l.arg + 1 == miHeads b / miSplit b
  | 0x08 => l.wfmt == 0 && l.outf == 3 && l.inDim == miHidden b && decide (1 ≤ l.arg) && decide (l.arg ≤ 3)
  | 0x09 | 0x0A => l.wfmt == 3 && l.outf == 3
  | _ => false

/-- A layer record keeps to R292 and R293. -/
def layerOk (b : List Byte) (k : Nat) : Bool :=
  let l := layerRec b k
  let r := slice b (miLayerOff b + 32 * k) 32
  decide (l.wfmt ≤ 3) && decide (1 ≤ l.outf) && decide (l.outf ≤ 3) && decide (l.npriv ≤ 64) &&
    decide (1 ≤ l.inDim) && decide (l.inDim ≤ 32768) && decide (1 ≤ l.outDim) && decide (l.outDim ≤ 32768) &&
    decide (field r 8 4 < 2 ^ 30) && zeroAt r 0x0E 2 && l.woff % 64 == 0 && l.aoff % 64 == 0 &&
    (l.typ == 3 || l.typ == 4 || l.eps == 0) && layerFits b l

/-- Entries of a layer's privileged-channel table: channel, M, SH, Z (R287). -/
def privTable (b : List Byte) (l : LayerRec) : List (Nat × Nat × Nat × Int) :=
  if l.typ ≠ 2 then [] else
  (List.range l.npriv).map fun i =>
    let v := field b (l.aoff + 4 * l.outDim + 8 * i) 8
    (bits v 0 15, bits v 16 24, bits v 40 6, toSigned 8 (bits v 46 8))

/-- A privileged-channel table keeps to R287. -/
def privOk (b : List Byte) (l : LayerRec) : Bool :=
  let t := privTable b l
  ((List.range t.length).all fun i => let v := field b (l.aoff + 4 * l.outDim + 8 * i) 8; !bit v 15 && bits v 54 10 == 0) &&
    t.all (fun e => decide (e.1 < l.outDim)) && (t.zip (t.drop 1)).all fun e => decide (e.1.1 < e.2.1)

/-- Start of the ω table, of W_DOWN, of W_KR and of the cross-attention map: back to back, each on a 64-byte boundary. -/
def miOmega (b : List Byte) : Nat := 64 * ceilDiv (miAuxOff b) 64
def miWdown (b : List Byte) : Nat := 64 * ceilDiv (miOmega b + 2 * miRopeDim b) 64
def miWkr (b : List Byte) : Nat := if miLatRank b = 0 then miWdown b else 64 * ceilDiv (miWdown b + 2 * miLatRank b * miHidden b) 64
def miXmap (b : List Byte) : Nat := if miLatRank b = 0 then miWdown b else 64 * ceilDiv (miWkr b + 2 * miLatRope b * miHidden b) 64

/-- Cross-attention map: ATT, KX, VX. -/
def xmap (b : List Byte) : List (Nat × Nat × Nat) :=
  (List.range (miNxmap b)).map fun i => let v := field b (miXmap b + 8 * i) 8; (bits v 0 16, bits v 16 16, bits v 32 16)

/-- Every offset and length lies inside LENGTH. -/
def miSpansOk (b : List Byte) : Bool :=
  let e := miLength b
  decide (miLayerOff b + 32 * miNLayers b ≤ e) && decide (miXmap b + 8 * miNxmap b ≤ e) &&
    (layerRecs b).all (fun l => decide (l.woff + weightLen b l ≤ e) && decide (l.aoff + auxLen l ≤ e)) &&
    (xmap b).all (fun x => decide (x.1 < miNLayers b) && decide (x.2.1 < miNLayers b) && decide (x.2.2 < miNLayers b)) &&
    (List.range (miNxmap b)).all fun i => bits (field b (miXmap b + 8 * i) 8) 48 16 == 0

/-- The final layer yields an fp32 vector of OUT_DIM. -/
def miFinalOk (b : List Byte) : Bool :=
  let l := layerRec b (miNLayers b - 1)
  (l.typ == 8 && l.inDim == miOutDim b) || (l.typ == 9 && l.outDim == miOutDim b) || (l.typ == 10 && miOutDim b == 1)

/-- Verification of a model image (R306): the reason of R573, zero when it passes. -/
def miVerify (s : State) (b : List Byte) : Nat :=
  let sb := b.length - 256
  let x := slice b sb 48
  let y := slice b (sb + 48) 48
  let slot := miKeySlot b
  if b.length < 320 ∨ b.length ≠ miLength b ∨ !miHeaderOk b then 0x01
  else if crc32c (b.take 0x3C) ≠ field b 0x3C 4 then 0x02
  else if slot > 3 ∨ s.sec.slots.getD slot .unprovisioned ≠ .provisioned ∨ s.sec.digests.get slot ≠ some (Config.sha384 (x ++ y)) then 0x03
  else if !Config.ecdsaVerify x y (slice b (sb + 96) 48) (slice b (sb + 144) 48) (Config.sha384 (b.take sb)) then 0x04
  else if miSvn b < s.sec.svn.getD 2 0 then 0x05
  else if !(List.range (miNLayers b)).all (layerOk b) then 0x06
  else if !(layerRecs b).all (privOk b) then 0x07
  else if !miSpansOk b then 0x08
  else if !miFinalOk b then 0x09
  else 0

/-! ### Integer accumulation and requantization (R280 to R286) -/

/-- Signed bytes. -/
def sBytes (b : List Byte) : List Int := b.map fun x => toSigned 8 x.toNat

/-- bf16 values of a byte string. -/
def bfAt (b : List Byte) (off n : Nat) : List W32 := (List.range n).map fun i => ofBf (field b (off + 2 * i) 2)

/-- The weights of one output channel (R280). -/
def weightRow (b : List Byte) (l : LayerRec) (o : Nat) : List Int :=
  let k := padDim l.inDim
  if l.wfmt = 1 then (sBytes (slice b (l.woff + k * o) k)).take l.inDim
  else ((slice b (l.woff + k / 2 * o) (k / 2)).flatMap fun x => [toSigned 4 (x.toNat % 16), toSigned 4 (x.toNat / 16)]).take l.inDim

/-- Exact product sum. -/
def dotInt (a w : List Int) : Int := (List.zipWith (· * ·) a w).sum

/-- Saturation to int32. -/
def sat32 (v : Int) : Int := max (-2147483648) (min 2147483647 v)

/-- Rescale of an output channel (R284). -/
def rescaleOf (b : List Byte) (l : LayerRec) (o : Nat) : Nat × Nat × Int :=
  match (privTable b l).find? fun e => e.1 == o with
  | some e => e.2
  | none => (l.mult, l.shift, l.zero)

/-- Requantization of an int32 value (R285). -/
def requant (r : Nat × Nat × Int) (v : Int) : Int :=
  let p := v * (r.1 : Int)
  let h : Int := 2 ^ (r.2.1 - 1)
  let q := if r.2.1 = 0 then p else if p ≥ 0 then (p + h) / 2 ^ r.2.1 else -((-p + h) / 2 ^ r.2.1)
  max (-128) (min 127 (q + r.2.2))

/-- Real factor of a rescale. -/
def rescaleF (r : Nat × Nat × Int) : W32 := fOf (.fin false r.1 (-(r.2.1 : Int)))

/-- Dequantization of an int32 value (R286). -/
def dequant (r : Nat × Nat × Int) (v : Int) : W32 := fMul (fInt v) (rescaleF r)

/-! ### Functions (R290, R291, R317) -/

def fHalf : W32 := 0x3F000000
def fOne : W32 := 0x3F800000

/-- GELU. -/
def gelu (x : W32) : W32 := fMul (fMul x (fAdd fOne (fErf (fMul x 0x3F3504F3)))) fHalf
/-- GELU_TANH. -/
def geluTanh (x : W32) : W32 :=
  let h := fAdd x (fMul (fMul (fMul x x) x) 0x3D372713)
  fMul (fMul x (fAdd fOne (fTanh (fMul h 0x3F4C422A)))) fHalf
/-- SILU. -/
def silu (x : W32) : W32 := fDiv x (fAdd fOne (fExp (fNeg x)))

/-- LAYERNORM of a row. -/
def layerNorm (eps : W32) (g be x : List W32) : List W32 :=
  let h := fInt (x.length : Nat)
  let mu := fDiv (treeSum x) h
  let d := x.map fun e => fSub e mu
  let r := fSqrt (fAdd (fDiv (treeSum (d.map fun e => fMul e e)) h) eps)
  List.zipWith (fun e gb => fAdd (fMul (fDiv e r) gb.1) gb.2) d (g.zip be)

/-- RMSNORM of a row. -/
def rmsNorm (eps : W32) (g x : List W32) : List W32 :=
  let r := fSqrt (fAdd (fDiv (treeDot x x) (fInt (x.length : Nat))) eps)
  List.zipWith (fun e g => fMul (fDiv e r) g) x g

/-- SOFTMAX of a row. -/
def softmax (x : List W32) : List W32 :=
  let m := x.foldl fMax (x.headD 0)
  let e := x.map fun v => fExp (fSub v m)
  let t := treeSum e
  e.map fun v => fDiv v t

/-- The rotation of R317 of the first 2·|ω| dimensions at a position. -/
def rope (omega : List W32) (p : Nat) (v : List W32) : List W32 :=
  let rec go : List W32 → List W32 → List W32
    | w :: ws, a :: b :: t =>
      let cs := fCosSin (fMul (fInt (p : Nat)) w)
      fSub (fMul a cs.1) (fMul b cs.2) :: fAdd (fMul a cs.2) (fMul b cs.1) :: go ws t
    | _, t => t
  go omega v

/-! ### One sequence -/

/-- What a LINEAR leaves: int32 values, or fp32 values of a BF16 product. -/
inductive LinOut where
  | ints (rows : List (List Int))
  | reals (rows : List (List W32))
  deriving DecidableEq, Repr

/-- The activations of a sequence between two layers: residual stream, the latest int8 tensor with its scale and zero
point, whether it is one rank's share of its channels (R326), the LINEARs since the last layer of another type, the pooled
vector, and the two counts of R282 and R289. -/
structure SeqSt where
  stream : List (List W32)
  cur : List (List Int)
  share : Bool
  curScale : W32
  curZero : Int
  lin : List (LayerRec × LinOut)
  pooled : List W32
  sat : Nat
  nonfin : Nat
  deriving DecidableEq, Repr

/-- Output of a LINEAR in fp32 (R286). -/
def linReal (b : List Byte) (x : LayerRec × LinOut) : List (List W32) :=
  match x.2 with
  | .reals r => r
  | .ints r => r.map fun row => row.zipIdx.map fun v => dequant (rescaleOf b x.1 v.2) v.1

/-- Output of a LINEAR in int8 (R285, R289). -/
def linInt8 (b : List Byte) (x : LayerRec × LinOut) : List (List Int) :=
  match x.2 with
  | .reals r => r.map fun row => row.map (toInt8 x.1.scale x.1.zero)
  | .ints r => r.map fun row => row.zipIdx.map fun v => requant (rescaleOf b x.1 v.2) v.1

/-- A stream value in the stream's form (R294). -/
def streamForm (profile : Nat) (x : W32) : W32 := if bit profile 1 then x else viaBf x

/-- A value rounded to bf16 first, unless SF_FP32 (R296). -/
def sfForm (profile : Nat) (x : W32) : W32 := if bit profile 2 then x else viaBf x

/-- Rows of fp32 values made the latest int8 tensor, under a record's SCALE and RS_ZERO. -/
def SeqSt.putInt8 (t : SeqSt) (l : LayerRec) (rows : List (List W32)) : SeqSt :=
  { t with cur := rows.map fun r => r.map (toInt8 l.scale l.zero), share := l.typ == 5 || l.typ == 6 || l.typ == 7, curScale := l.scale, curZero := l.zero, lin := []
           nonfin := t.nonfin + (rows.map nonFinite).sum }

/-- acc of a LINEAR with int8 or int4 weights over int8 rows, before saturation (R282). -/
def linAcc (b : List Byte) (l : LayerRec) (rows : List (List Int)) : List (List Int) :=
  let ws := (List.range l.outDim).map fun o => (weightRow b l o, toSigned 32 (field b (l.aoff + 4 * o) 4))
  rows.map fun r => ws.map fun w => dotInt r w.1 + w.2

/-- Values that saturate. -/
def satCount (l : List Int) : Nat := (l.filter fun v => sat32 v != v).length

/-- The product of a LINEAR over int8 rows, with the saturations (R282, R283). -/
def linear (b : List Byte) (l : LayerRec) (rows : List (List Int)) (sc : W32) (z : Int) : LinOut × Nat :=
  if l.wfmt = 3 then
    let ws := (List.range l.outDim).map fun o => bfAt b (l.woff + 2 * padDim l.inDim * o) l.inDim
    (.reals (rows.map fun r => let x := r.map fun q => viaBf (Config.bf16Input q sc z); ws.map fun w => treeDot x w), 0)
  else
    let acc := linAcc b l rows
    (.ints (acc.map fun r => r.map sat32), (acc.map satCount).sum)

/-- The part of each row that belongs to a head. -/
def headPart {α : Type} (hd h : Nat) (rows : List (List α)) : List (List α) := rows.map fun r => (r.drop (h * hd)).take hd

/-- ω table of an image. -/
def omegaOf (b : List Byte) : List W32 := wordsAt b (miOmega b) (miRopeDim b / 2)

/-- Rows rotated at their positions. -/
def ropeRows (w : List W32) (rows : List (List W32)) : List (List W32) := rows.zipIdx.map fun r => rope w r.2 r.1

/-- Scales and zero points of Q, K, V in an ATTENTION layer's AUX (DEDUCED order, log entry 18). -/
def attScale (b : List Byte) (l : LayerRec) (i : Nat) : W32 := BitVec.ofNat 32 (field b (l.aoff + 4 * i) 4)
def attZero (b : List Byte) (l : LayerRec) (i : Nat) : Int := toSigned 8 (field b (l.aoff + 12 + 4 * i) 1)

/-- One head in AA8 form: int8 Q, K, V as they enter the products, already rotated (R281, R290, R291, R316). -/
def headAA8 (b : List Byte) (l : LayerRec) (profile : Nat) (q k v : List (List Int)) : List (List W32) × Nat × Nat :=
  let zq := attZero b l 0; let zk := attZero b l 1; let zv := attZero b l 2
  let vt := (List.range ((v.head?.map List.length).getD 0)).map fun j => v.map fun r => r.getD j 0 - zv
  let rows := q.map fun a =>
    let raw := k.map fun c => dotInt (a.map fun x => x - zq) (c.map fun x => x - zk)
    let p := (softmax (raw.map fun x => dequant (l.mult, l.shift, 0) (sat32 x))).map (sfForm profile)
    let pi := p.map fun x => toInt8 0x3B800000 (-128) x
    let out := vt.map fun col => dotInt (pi.map fun x => x + 128) col
    (out.map fun x => fMul (fInt (sat32 x)) (fMul 0x3B800000 (attScale b l 2)),
     satCount raw + satCount out, nonFinite p)
  (rows.map (·.1), (rows.map fun r => r.2.1).sum, (rows.map fun r => r.2.2).sum)

/-- One head in BF16 form, its products scaled with the layer rescale (R293). -/
def headBf (l : LayerRec) (profile : Nat) (q k v : List (List W32)) : List (List W32) × Nat × Nat :=
  let vt := (List.range ((v.head?.map List.length).getD 0)).map fun j => v.map fun r => r.getD j 0
  (q.map fun a =>
    let p := (softmax (k.map fun c => fMul (treeDot a c) (rescaleF (l.mult, l.shift, 0)))).map (sfForm profile)
    vt.map fun col => treeDot (p.map viaBf) col, 0, 0)

/-- The first ROPE_DIM dimensions of int8 rows dequantized and rotated (R316). -/
def ropeReal (b : List Byte) (sc : W32) (z : Int) (rows : List (List Int)) : List (List W32) :=
  rows.zipIdx.map fun r => rope (omegaOf b) r.2 ((r.1.take (miRopeDim b)).map (ofInt8 sc z))

/-- int8 rows rotated: the first ROPE_DIM dimensions are quantized again, the others pass (R316). -/
def ropeInt8 (b : List Byte) (sc : W32) (z : Int) (rows : List (List Int)) : List (List Int) :=
  List.zipWith (fun x r => x.map (toInt8 sc z) ++ r.drop (miRopeDim b)) (ropeReal b sc z rows) rows

/-- Conversions of a NaN or an infinity among rows. -/
def nonFiniteRows (m : List (List W32)) : Nat := (m.map nonFinite).sum

/-- A latent record's fields: L, RANK, ROPE, S_C, S_K, c values and k values by token (R320). -/
structure Latent where
  n : Nat
  rank : Nat
  rope : Nat
  sc : W32
  sk : W32
  c : List (List Int)
  k : List (List Int)
  deriving DecidableEq, Repr

/-- A latent record read. -/
def latentOf (r : List Byte) : Latent :=
  let n := field r 0x0C 2
  let rank := field r 0x0E 2
  let ro := field r 0x10 2
  { n := n, rank := rank, rope := ro, sc := BitVec.ofNat 32 (field r 0x14 4), sk := BitVec.ofNat 32 (field r 0x18 4)
    c := (List.range n).map fun t => sBytes (slice r (0x40 + t * rank) rank)
    k := (List.range n).map fun t => sBytes (slice r (0x40 + n * rank + t * ro) ro) }

/-- Keys and values of a cross-attention layer, in fp32: the latents expanded under the layer rescale, and the rotary keys
appended to each head; with the saturations (R323). -/
def crossKV (b : List Byte) (kx vx : LayerRec) (heads : Nat) (z : Latent) : List (List W32) × List (List W32) × Nat :=
  let out (l : LayerRec) : LinOut × Nat := linear b l z.c fOne 0
  let real (l : LayerRec) : List (List W32) := match (out l).1 with
    | .reals r => r.map fun row => row.map fun x => fMul x z.sc
    | .ints r => r.map fun row => row.map fun v => fMul (dequant (l.mult, l.shift, 0) v) z.sc
  let kr := z.k.map fun r => r.map fun q => ofInt8 z.sk 0 q
  let w := kx.outDim / max 1 heads
  (List.zipWith (fun row rot => (List.range heads).flatMap fun h => (row.drop (h * w)).take w ++ rot) (real kx) kr, real vx,
    (out kx).2 + (out vx).2)

/-- An ATTENTION layer (R293, R316, R318, R323). -/
def attention (b : List Byte) (k : Nat) (l : LayerRec) (profile : Nat) (lat : Option Latent) (t : SeqSt) : SeqSt :=
  let heads := l.arg + 1
  let hd := miHeadDim b
  let w := heads * hd
  let cross := ((xmap b).find? fun x => x.1 == k).bind fun x => lat.map fun z => crossKV b (layerRec b x.2.1) (layerRec b x.2.2) heads z
  let joinRows {α : Type} (ls : List (List (List α))) : List (List α) :=
    (List.range t.stream.length).map fun i => ls.flatMap fun m => m.getD i []
  let cols {α : Type} (i : Nat) (m : List (List α)) : List (List α) := m.map fun r => (r.drop (i * w)).take w
  let r : List (List (List W32) × Nat × Nat) :=
    if bit profile 0 then
      let all := (joinRows (t.lin.map (linReal b))).map fun r => r.map viaBf
      let rot (m : List (List W32)) := (ropeRows (omegaOf b) m).map fun r => r.map viaBf
      (List.range heads).map fun h =>
        let q := rot (headPart hd h (cols 0 all))
        match cross with
        | some kv => headBf l profile q ((headPart hd h kv.1).map fun r => r.map viaBf) ((headPart hd h kv.2.1).map fun r => r.map viaBf)
        | none => headBf l profile q (rot (headPart hd h (cols 1 all))) (headPart hd h (cols 2 all))
    else
      let all := joinRows (t.lin.map (linInt8 b))
      let head (i h : Nat) : List (List Int) := headPart hd h (cols i all)
      let rot (i h : Nat) : List (List Int) := ropeInt8 b (attScale b l i) (attZero b l i) (head i h)
      let bad (i h : Nat) : Nat := nonFiniteRows (ropeReal b (attScale b l i) (attZero b l i) (head i h))
      (List.range heads).map fun h =>
        let more (n : Nat) (x : List (List W32) × Nat × Nat) : List (List W32) × Nat × Nat := (x.1, x.2.1, x.2.2 + n)
        match cross with
        | some kv =>
          let q8 (i : Nat) (m : List (List W32)) : List (List Int) := m.map fun r => r.map (toInt8 (attScale b l i) (attZero b l i))
          let ks := headPart hd h kv.1
          let vs := headPart hd h kv.2.1
          more (bad 0 h + nonFiniteRows ks + nonFiniteRows vs) (headAA8 b l profile (rot 0 h) (q8 1 ks) (q8 2 vs))
        | none => more (bad 0 h + bad 1 h) (headAA8 b l profile (rot 0 h) (rot 1 h) (head 2 h))
  let linBad := if bit profile 0 then 0 else (t.lin.map fun x => match x.2 with | .reals m => nonFiniteRows m | .ints _ => 0).sum
  let t := t.putInt8 l (joinRows (r.map (·.1)))
  { t with sat := t.sat + (r.map fun x => x.2.1).sum + (cross.map fun kv => kv.2.2).getD 0
           nonfin := t.nonfin + (r.map fun x => x.2.2).sum + linBad }

/-- The output of a LINEAR in a sequence: kept for the next layer, or added to the residual stream (R293, R294). -/
def SeqSt.putLinear (t : SeqSt) (b : List Byte) (profile : Nat) (l : LayerRec) (r : LinOut × Nat) : SeqSt :=
  let t := { t with sat := t.sat + r.2, lin := t.lin ++ [(l, r.1)] }
  if l.outf = 2 then
    { t with lin := [], stream := List.zipWith (fun a c => List.zipWith (fun x y => streamForm profile (fAdd x y)) a c) t.stream (linReal b (l, r.1)) }
  else t

/-- One layer on one chip. -/
def runLayer (b : List Byte) (profile : Nat) (tokens : List Nat) (lat : Option Latent) (t : SeqSt) (k : Nat) : SeqSt :=
  let l := layerRec b k
  if (xmap b).any (fun x => x.2.1 == k || x.2.2 == k) then t else
  match l.typ with
  | 0x01 =>
    let rows : List (List W32) := tokens.zipIdx.map fun x =>
      let row := bfAt b (l.woff + 2 * l.outDim * x.1) l.outDim
      let sum : List W32 := match Config.positionRow b x.2 with | some p => List.zipWith fAdd row p | none => row
      sum.map (streamForm profile)
    { t with lin := [], stream := rows }
  | 0x02 => t.putLinear b profile l (linear b l t.cur t.curScale t.curZero)
  | 0x03 | 0x04 =>
    let g := bfAt b l.aoff l.inDim
    let be := bfAt b (l.aoff + 2 * l.inDim) l.inDim
    let rows := t.stream.map fun x => if l.typ = 3 then layerNorm l.eps g be x else rmsNorm l.eps g x
    if l.outf = 2 then { t with stream := rows.map fun r => r.map viaBf, lin := [] }
    else t.putInt8 l (rows.map fun r => r.map (sfForm profile))
  | 0x05 =>
    let x := ((t.lin.getLast?).map (linReal b)).getD []
    t.putInt8 l (x.map fun r => r.map fun v => sfForm profile (if l.arg = 1 then gelu v else if l.arg = 2 then geluTanh v else silu v))
  | 0x06 =>
    let x := ((t.lin.getLast?).map (linReal b)).getD []
    t.putInt8 l (x.map fun r => (List.zipWith (fun g u => sfForm profile (fMul (if l.arg = 1 then silu g else gelu g) u)) (r.take l.outDim) (r.drop l.outDim)))
  | 0x07 => attention b k l profile lat t
  | 0x08 =>
    let n := t.stream.length
    let v := if l.arg = 1 then t.stream.headD []
      else if l.arg = 3 then t.stream.getLast?.getD []
      else (List.range l.inDim).map fun i => fDiv (treeSum (t.stream.map fun r => r.getD i 0)) (fInt (n : Nat))
    { t with lin := [], pooled := v }
  | _ =>
    let n := if l.typ = 0x0A then 1 else l.outDim
    let v := (List.range n).map fun o =>
      fAdd (treeDot (bfAt b (l.woff + 2 * l.inDim * o) l.inDim) t.pooled) (ofBf (field b (l.aoff + 2 * o) 2))
    { t with pooled := v }

/-- A sequence before the first layer. -/
def SeqSt.start : SeqSt :=
  { stream := [], cur := [], share := false, curScale := fOne, curZero := 0, lin := [], pooled := [], sat := 0, nonfin := 0 }

/-- A model run on one sequence: a function of its tokens, the image and the profile, and for a reranker of the latent
(R301). A LINEAR takes the latest int8 tensor that a layer of another type left, and an ATTENTION takes the LINEARs since
that layer, in record order (DEDUCED, log entry 18). -/
def runModel (b : List Byte) (profile : Nat) (tokens : List Nat) (lat : Option Latent) : SeqSt :=
  (List.range (miNLayers b)).foldl (runLayer b profile tokens lat) SeqSt.start

/-! ### A batch of a split model (R326, R327) -/

/-- One rank's run of a batch: its sequences, the bytes that each rank has sent and this one has not used, the bytes for each
rank, and whether it waits for a rank's bytes. -/
structure RankRun where
  seqs : List SeqSt
  inn : List (List Byte)
  out : List (List Byte)
  waits : Bool
  deriving DecidableEq, Repr

/-- Values as 4-byte integers, padded to the 16 bytes of a payload. -/
def i32Bytes (l : List Int) : List Byte :=
  let b := l.flatMap fun v => natLe 4 (ofSigned 32 v)
  slice b 0 (16 * ceilDiv b.length 16)

/-- The first `n` values of a rank's bytes, and what follows them. -/
def i32Take (n : Nat) (b : List Byte) : List Int × List Byte :=
  ((List.range n).map fun i => toSigned 32 (field b (4 * i) 4), b.drop (16 * ceilDiv (4 * n) 16))

/-- Values cut into rows of the shape of a LINEAR's output over the sequences. -/
def cutRows (w : Nat) : List Nat → List Int → List (List (List Int))
  | [], _ => []
  | n :: t, v => ((List.range n).map fun i => (v.drop (i * w)).take w) :: cutRows w t (v.drop (n * w))

/-- A split LINEAR: the ranks reduce and scatter their partial acc, each sums and saturates its own part of the values, and
all gather the parts. The order of the values and the cut into parts are the model's (log entry 28). -/
def splitLinear (b : List Byte) (profile : Nat) (l : LayerRec) (x : RankRun) : RankRun :=
  let g := miSplit b
  let me := miRank b
  let own := (x.seqs.flatMap fun t => linAcc b l t.cur).flatten
  let at_ (r : Nat) : Nat := r * own.length / g
  let size (r : Nat) : Nat := at_ (r + 1) - at_ r
  let part (r : Nat) : List Int := (own.drop (at_ r)).take (size r)
  let others := (List.range g).filter (· != me)
  let send (out : List (List Byte)) (f : Nat → List Int) : List (List Byte) := out.zipIdx.map fun o => if o.2 = me then o.1 else o.1 ++ i32Bytes (f o.2)
  let has (inn : List (List Byte)) (r n : Nat) : Bool := decide (16 * ceilDiv (4 * n) 16 ≤ (inn.getD r []).length)
  let out := send x.out part
  if !others.all fun r => has x.inn r (size me) then { x with out := out, waits := true }
  else
    let got (r : Nat) : List Int := (i32Take (size me) (x.inn.getD r [])).1
    let sum := others.foldl (fun a r => List.zipWith (· + ·) a (got r)) (part me)
    let inn := x.inn.zipIdx.map fun i => if i.2 = me then i.1 else (i32Take (size me) i.1).2
    let out := send out fun _ => sum.map sat32
    if !others.all fun r => has inn r (size r) then { x with inn := inn, out := out, waits := true }
    else
      let all := (List.range g).flatMap fun r => if r = me then sum.map sat32 else (i32Take (size r) (inn.getD r [])).1
      let rows := cutRows l.outDim (x.seqs.map fun t => t.cur.length) all
      { x with
        inn := inn.zipIdx.map fun i => if i.2 = me then i.1 else (i32Take (size i.2) i.1).2, out := out
        seqs := ((x.seqs.zip rows).zipIdx).map fun y =>
          y.1.1.putLinear b profile l (.ints y.1.2, if y.2 = 0 then satCount sum else 0) }

/-- One layer of a batch on a rank. A LINEAR over the channels of which each rank holds a share is split; the others work on
whole inputs (DEDUCED from R326, log entry 28). -/
def rankLayer (b : List Byte) (profile : Nat) (ins : List (List Nat × Option Latent)) (x : RankRun) (k : Nat) : RankRun :=
  let l := layerRec b k
  if x.waits then x
  else if miSplit b > 1 ∧ l.typ = 2 ∧ (x.seqs.any (·.share)) ∧ !(xmap b).any (fun e => e.2.1 == k || e.2.2 == k) then
    let open_ (t : SeqSt) : LinOut := match (linear b l t.cur t.curScale t.curZero).1 with
      | .reals m => .reals (m.map fun r => r.map Config.splitReal)
      | .ints m => .ints m
    if l.wfmt = 3 then { x with seqs := x.seqs.map fun t => t.putLinear b profile l (open_ t, 0) }
    else splitLinear b profile l x
  else { x with seqs := List.zipWith (fun t i => runLayer b profile i.1 i.2 t k) x.seqs ins }

/-- A batch run on this rank, with the bytes that the other ranks have sent. A model on one chip runs every sequence by
itself (R301). -/
def runBatch (b : List Byte) (profile : Nat) (ins : List (List Nat × Option Latent)) (inn : List (List Byte)) : RankRun :=
  (List.range (miNLayers b)).foldl (rankLayer b profile ins)
    { seqs := ins.map fun _ => SeqSt.start, inn := inn, out := (List.range (miSplit b)).map fun _ => [], waits := false }

/-! ### Latents (R319, R320) -/

/-- One symmetric scale of a document's values: the least power of two not less than the greatest magnitude ÷ 127. -/
def latScale (rows : List (List W32)) : W32 :=
  let m := rows.foldl (fun a r => r.foldl (fun a x => fMax a (fAbs x)) a) 0
  if m = 0 then fOne else pow2Above (fDiv m (fInt 127)) 276 (-149)

/-- The latent record of a document (R319, R320), from the final hidden states, under a reranker's image. -/
def latentRecord (rr : List Byte) (hidden : List (List W32)) (gid slot : Nat) : List Byte :=
  let h := hidden.take (miLatMax rr)
  let hid := miHidden rr
  let c := h.map fun x => (List.range (miLatRank rr)).map fun j => treeDot (bfAt rr (miWdown rr + 2 * hid * j) hid) x
  let om := wordsAt rr (miOmega rr) (miLatRope rr / 2)
  let k := h.zipIdx.map fun x => rope om x.2 ((List.range (miLatRope rr)).map fun j => treeDot (bfAt rr (miWkr rr + 2 * hid * j) hid) x.1)
  let sc := latScale c
  let sk := latScale k
  let enc (s : W32) (m : List (List W32)) : List Byte :=
    m.flatten.map fun x => BitVec.ofNat 8 (ofSigned 8 (clampRound (fDiv x s) 0 (-127) 127))
  let r := natLe 8 gid ++ natLe 4 slot ++ natLe 2 h.length ++ natLe 2 (miLatRank rr) ++ natLe 2 (miLatRope rr) ++ natLe 2 0 ++ natLe 4 sc.toNat ++
    natLe 4 sk.toNat ++ natLe 4 0 ++ natLe 8 (miModelId rr) ++ List.replicate 24 0 ++ enc sc c ++ enc sk k
  let r := slice r 0 (4096 * ceilDiv r.length 4096)
  patch r 0x1C (natLe 4 (crc32c r))

end Sys2Proof.Machine
end

