-- ==== Sys2Proof/Machine/ModelCopies.lean ====
section
/-! DEFINITION. Spans of guarded T2 windows, bindings in force, and the resident copies of models (02_structure_images R39,
R47; 11_model_execution R305, R307, R310, R321). -/
namespace Sys2Proof.Machine
open Sys2Proof

/-! ### Spans of windows, in units of 4 KiB (R307, R321) -/

/-- Gaps between the spans of a window, which ascend. -/
def gapsFrom (top : Nat) : List (Nat × Nat) → Nat → List (Nat × Nat)
  | [], lo => if lo < top then [(lo, top - lo)] else []
  | (a, n) :: t, lo => (if lo < a then [(lo, a - lo)] else []) ++ gapsFrom top t (max lo (a + n))

/-- What is free of windows, beside the spans held. -/
def freeSpans (wins : List Nat) (held : List (Nat × Nat)) : List (Nat × Nat) :=
  wins.flatMap fun w => gapsFrom (2 ^ 30 * (w + 1)) (sortAsc (·.1) (held.filter fun x => x.1 / 2 ^ 30 == w)) (2 ^ 30 * w)

/-- Bytes of spans. -/
def spansLen (l : List (Nat × Nat)) : Nat := l.foldl (fun n x => n + x.2) 0

/-- The first `n` bytes of free spans. -/
def takeSpans : Nat → List (Nat × Nat) → Option (List (Nat × Nat))
  | 0, _ => some []
  | _, [] => none
  | n, (a, k) :: t => if n ≤ k then some [(a, n)] else (takeSpans (n - k) t).map ((a, k) :: ·)

/-- Bytes read from spans. -/
def spansRead (s : State) (l : List (Nat × Nat)) : List Byte := l.flatMap fun x => tierRead s.lichen.t2 x.1 x.2

/-- Bytes written over spans. -/
def spansWrite (s : State) : List (Nat × Nat) → List Byte → State
  | [], _ => s
  | (a, n) :: t, b => spansWrite (t2Write s a (b.take n)) t (b.drop n)

/-- Windows of an owner and a use whose stack serves. -/
def useWins (s : State) (o use : Nat) : List Nat :=
  (List.range 480).filter fun w => cfgWinUse s.img.cfg w == use && cfgWinOwner s.img.cfg w == o && winUp s w

/-! ### Bindings and images (R47, R297, R305, R325) -/

/-- Role codes of MODEL_BINDINGS. -/
def roleCode : Role → Nat
  | .doc => 1 | .query => 2 | .rerank => 3

/-- The role of a code. -/
def roleOf (code : Nat) : Role := if code = 2 then .query else if code = 3 then .rerank else .doc

/-- The binding of a role in force in an epoch. -/
def bindingIn (s : State) (p : Nat) (r : Role) (e : Nat) : Option InForce :=
  ((s.model.bound.getD e []).find? fun f => f.part == p && f.role == roleCode r)

/-- The image of a digest in the model store. -/
def storedImage (s : State) (d : List Byte) : Option (List Byte) := s.model.store.find? fun b => miDigest b == d

/-- The image of a binding in force, when it is present. -/
def boundImage (s : State) (p : Nat) (r : Role) (e : Nat) : Option (List Byte) := (bindingIn s p r e).bind fun f => storedImage s f.digest

/-- The group in force of a split model that this node belongs to at the image's rank. -/
def groupOf (s : State) (b : List Byte) : Option (Nat × Group) :=
  s.model.groups.find? fun g => g.2.modelId == miModelId b && g.2.nodes.length == miSplit b && g.2.nodes[miRank b]? == some (nodeId s)

/-! ### Copies (R39, R47, R307, R310) -/

/-- Spans of an image that a copy holds, in the order in which they stream: per layer the weights, then the auxiliary data. -/
def streamSpans (b : List Byte) : List (Nat × Nat) := (layerRecs b).flatMap fun l => [(l.woff, weightLen b l), (l.aoff, auxLen l)]

/-- Bytes of weights and auxiliary data of an image. -/
def imageBytes (b : List Byte) : Nat := spansLen (streamSpans b)

/-- The bytes of a copy, in whole 4 KiB swatches. -/
def copyBytes (b : List Byte) : List Byte :=
  let x := (streamSpans b).flatMap fun e => slice b e.1 e.2
  slice x 0 (4096 * ceilDiv x.length 4096)

/-- An image with its weights and auxiliary data as a stream carries them. -/
def withStream (b : List Byte) (x : List Byte) : List Byte :=
  ((streamSpans b).foldl (fun (a : List Byte × List Byte) e => (patch a.1 e.1 (a.2.take e.2), a.2.drop e.2)) (b, x)).1

/-- The copy of a digest that is not lost. -/
def residentOf (s : State) (d : List Byte) : Option Resident := s.model.resident.find? fun r => r.digest == d && !r.lost

/-- The image that the clusters of a round work from: the model with what its T2 copy streams (R310). -/
def streamedImage (s : State) (b : List Byte) : List Byte :=
  withStream b (spansRead s (((residentOf s (miDigest b)).map (·.spans)).getD []))

/-- Windows that a copy lies in. -/
def Resident.wins (r : Resident) : List Nat := r.spans.foldl (fun l x => addSet l (x.1 / 2 ^ 30)) []

/-- A model named in more than one partition goes to device-owned windows only, any other to the partition's own. -/
def copyOwner (s : State) (f : InForce) : Nat :=
  if (s.model.bound.getD s.epoch.cur []).any fun x => x.digest == f.digest && x.part != f.part then 0x7E else f.part

/-- Where the copy of a model would lie, none without room. Which free windows it takes is open: a free value. -/
def copySpans (s : State) (f : InForce) (b : List Byte) : Option (List (Nat × Nat)) :=
  let wins := useWins s (copyOwner s f) 5
  let held := (s.model.resident.filter fun r => r.digest != f.digest).flatMap (·.spans)
  takeSpans (4096 * ceilDiv (imageBytes b) 4096) (freeSpans (wins.rotate (Config.freeNat s.free % max 1 wins.length)) held)

/-- The copy of a model stands where the rule wants it: whole in service, and in device-owned windows where it is shared. -/
def copyStands (s : State) (f : InForce) (b : List Byte) : Bool :=
  match residentOf s f.digest with
  | none => false
  | some r => (!r.spans.isEmpty || imageBytes b == 0) && (copyOwner s f != 0x7E || r.wins.all fun w => cfgWinOwner s.img.cfg w == 0x7E)

/-- Why a binding's model cannot run, recorded with RAS: 1 role not set, 2 no room, 3 no group. -/
def placeCause (s : State) (f : InForce) (b : List Byte) : Nat :=
  if !bit (miRoles b) (f.role - 1) then 1
  else if !copyStands s f b ∧ (copySpans s f b).isNone then 2
  else if miSplit b > 1 ∧ (groupOf s b).isNone then 3
  else 0

/-- The model of one binding in force begins to be copied to T2, unless its copy stands. A copy that no window holds, or that
a second binding has made shared, is placed anew; without room it is released. -/
def placeModel (s : State) (f : InForce) : State :=
  match storedImage s f.digest with
  | none => s
  | some b =>
    let s := s.mapModel fun m => { m with unavail := m.unavail.store 0 (4 * f.part + f.role) (placeCause s f b) }
    if copyStands s f b ∨ s.model.lost.contains f.digest then s
    else
      let gone (s : State) : State := s.mapModel fun m => { m with resident := m.resident.filter fun r => r.digest != f.digest }
      match copySpans s f b with
      | none => gone s
      | some l =>
        if !bit (miRoles b) (f.role - 1) then s
        else (gone s.drawn).mapModel fun m => { m with
          resident := m.resident ++ [{ digest := f.digest, done := false, spans := l, poison := [], lost := false }] }

/-- The models of the bindings in force begin to be copied. -/
def placeModels (s : State) : State := (s.model.bound.getD s.epoch.cur []).foldl placeModel s

/-- A model's copy leaves the windows of a test; what needs the model waits for its next placement. -/
def copiesLeave (s : State) (w : Nat → Bool) : State :=
  s.mapModel fun m => { m with resident := m.resident.map fun r => if r.wins.any w then { r with done := false, spans := [] } else r }

/-! ### The latent store (R320, R321) -/

/-- Spans that the latent records of a partition take. -/
def latentHeld (s : State) (p : Nat) : List (Nat × Nat) :=
  (s.shards.filter fun e => e.2.part == p).flatMap fun e => e.2.latents.flatMap (·.2)

/-- A place for a latent record in the partition's USE 0x6 windows, beside the GID index whose size is open. -/
def latentSpans (s : State) (p n : Nat) : Option (List (Nat × Nat)) :=
  let held := latentHeld s p
  let count := (s.shards.filter fun e => e.2.part == p).foldl (fun k e => k + e.2.latents.length) 0
  let free := freeSpans (useWins s p 6) held
  if spansLen free < n + Config.latentIndex (count + 1) then none else takeSpans n free

end Sys2Proof.Machine
end

