-- ==== Sys2Proof/Machine/Fences.lean ====
section
/-! DEFINITION. A unit leaves service: what a fence does to the work the unit holds, and the service states that a fault
moves (19_faults_recovery R579 to R593). -/
namespace Sys2Proof.Machine
open Sys2Proof

/-! ### Tiles and clusters: owner and role in force (R38, R586) -/

/-- Owner and role of a tile (kind 0x01) or cluster (kind 0x02) under a configuration: a spare that stands in has those of
the unit it replaces, and a unit so replaced is itself a spare. -/
def ownerRoleIn (c : ImgCfg) (s : State) (kind u : Nat) : Nat × Nat :=
  let own (x : Nat) : Nat × Nat :=
    let i := if kind = 2 then 64 + x else x
    (cfgTileOwner c i, cfgTileRole c i)
  match s.ras.units.find? fun e => e.1 / 8192 == kind && e.2.standin == some u with
  | some e => own (e.1 % 8192)
  | none => if (s.unit kind u).standin.isSome then (0x7D, 0) else own u

/-- Owner and role in force. -/
def ownerRole (s : State) (kind u : Nat) : Nat × Nat := ownerRoleIn s.img.cfg s kind u

/-- Under a configuration the unit serves a partition: it is the partition's own, or it is in the shared pool and the
partition is ACTIVE or DRAINING (R38). -/
def servesPartIn (c : ImgCfg) (s : State) (kind u p : Nat) : Bool :=
  let o := (ownerRoleIn c s kind u).1
  o == p || (o == 0x7E && (partState s p == .active || partState s p == .draining))

/-- The unit serves a partition under the configuration in force. -/
def servesPart (s : State) (kind u p : Nat) : Bool := servesPartIn s.img.cfg s kind u p

/-- Some cluster in service serves a partition: its vector unit prepares items and queries (R300). -/
def vectorUnit (s : State) (p : Nat) : Bool := (List.range 16).any fun u => s.serves 2 u && servesPart s 2 u p

/-- The configuration under which an admitted command runs: the one in force at its admission (R55). -/
def cmdCfg (s : State) (n : Nat) : ImgCfg :=
  match s.host.cmds.get n with
  | some c => (s.img.oldCfgs.get c.imgSeq).getD s.img.cfg
  | none => s.img.cfg

/-- The configuration under which a query or an insert walk runs. -/
def queryCfg (s : State) (q : Query) : ImgCfg := if q.kind = .search then cmdCfg s q.owner else s.img.cfg

/-! ### Queries restarted (R165, R247) -/

/-- A list that has received nothing. -/
def MList.new (k : Nat) : MList := { k := k, ents := [], bound := none }

/-- A query back at its admission state. What a damaged row group has marked, the command keeps (R226). -/
def Query.restart (q : Query) : Query :=
  { q with
    tile := none, ctx := 0, unit := 0, pool := false, walkDone := false, freshDone := decide (q.head ≤ q.tail) || q.kind == .insert
    queue := [], visited := [], frontier := [], round := 0, listLast := none, remote := [], answers := [], arrivals := []
    stream := MList.new q.stream.k, node := MList.new q.node.k, reads := none, done := 0, disagree := false, partial_ := false
    status := 0, deadSegs := [], noAttr := [], noAdj := [] }

/-- A query joins the waiting lists of the sweeps it needs (R173, R175). -/
def joinSweeps (s : State) (n : Nat) (q : Query) : State :=
  s.mapHost fun h => { h with
    sweepWait := if q.sweep then addSet h.sweepWait n else h.sweepWait
    freshWait := if q.freshDone then h.freshWait else addSet h.freshWait n }

/-- A query restarts from its admission state. -/
def restartQuery (s : State) (n : Nat) : State :=
  match s.host.queries.get n with
  | none => s
  | some q =>
    let r := q.restart
    joinSweeps ((dropRequests (dropSweeps s n) n).mapHost fun h => { h with queries := h.queries.put n r }) n r

/-- The queries that pass a test restart. -/
def restartQueries (s : State) (p : Query → Bool) : State :=
  ((s.host.queries.filter fun e => p e.2).map (·.1)).foldl restartQuery s

/-! ### Batches restarted (R303) -/

/-- The batches that pass a test go back to wait for a cluster, with their inputs. -/
def restartBatches (s : State) (p : Batch → Bool) : State :=
  s.mapModel fun m => { m with batches := m.batches.map fun b => if p b then { b with cluster := none } else b }

/-! ### Sheet units (R335, R588) -/

/-- Scratchpad units of a partition. -/
def scratchUnits (s : State) (p : Nat) : List Nat :=
  (s.mem.sheet.filter fun e => e.2.use == .scratch && e.2.owner == p).map (·.1)

/-- Sheet unit that holds the scratchpad pages of a query or batch; the place within the partition's units is open. -/
def scratchPlace (s : State) (p key : Nat) : Option Nat :=
  let l := scratchUnits s p
  l[Config.place 1 key % max 1 l.length]?

/-! ### Partitions that a unit's loss affects (R579) -/

/-- Owners of the windows in a stack. -/
def stackParts (s : State) (st : Nat) : List Nat :=
  ((List.range 80).map fun i => cfgWinOwner s.img.cfg (80 * st + i)).foldl (fun l o => if o < 64 then addSet l o else l) []

/-- Partitions served by, or with work on, a unit; a unit of the shared pool serves every ACTIVE partition (R38). -/
def unitParts (s : State) (kind u : Nat) : List Nat :=
  let owner (k x : Nat) : List Nat := (List.range 64).filter (servesPart s k x)
  let onTile (x : Nat) : List Nat := (s.host.queries.filter fun e => e.2.tile == some x).map (·.2.part)
  let onCluster (x : Nat) : List Nat := (s.model.batches.filter fun b => b.cluster == some x).map (·.part)
  let withFlash := (List.range 64).filter fun p => decide (cfgFlashGib s.img.cfg p > 0) || decide (cfgJournal s.img.cfg p > 0)
  let l : List Nat := match kind with
    | 0x01 => owner 1 u ++ onTile u
    | 0x02 => owner 2 u ++ onCluster u
    | 0x03 => owner 2 (u / 16) ++ onCluster (u / 16)
    | 0x04 => (List.range 4).flatMap fun i => onTile (4 * u + i)
    | 0x05 => (s.host.merges.filter fun m => m.unit == u).filterMap fun m => (s.host.cmds.get m.cmd).map (·.part)
    | 0x06 => (s.mem.sheet.filter fun e => e.1 % 24 == u && decide (e.2.owner < 64)).map (·.2.owner)
    | 0x07 => stackParts s (u / 1024)
    | 0x08 => stackParts s u
    | 0x09 => (List.range 64).filter fun p => decide ((cfgDdr s.img.cfg p).2 > 0)
    | 0x0A | 0x0B => withFlash
    | 0x0C => ((s.twill.ports.get u).map fun p => p.outq.map (·.part)).getD []
    | 0x0E => (s.mem.moves.map (·.part)).filter (decide <| · < 64)
    | _ => []
  l.foldl addSet []

/-! ### What a fence does to the work in flight (R587 to R591) -/

/-- Latent records that lay in a fenced stack are gone (R589). -/
def dropLatents (s : State) (st : Nat) : State :=
  s.mapShards fun m => m.map fun e =>
    (e.1, { e.2 with latents := e.2.latents.filter fun l => l.2.all fun x => x.1 / 2 ^ 30 / 80 != st })

/-- The CRC shadow table in use lay in a stack that is now fenced. -/
def heldShadow (s : State) (st : Nat) : Bool :=
  ((List.range 480).find? fun w => cfgWinOwner (layoutCfg s) w == 0x7E && cfgWinUse (layoutCfg s) w == 4 && (winUp s w || w / 80 == st)).any fun w =>
    w / 80 == st

/-- Every entry of the shadow table is lost: the row groups count as detected while they are rebuilt with a new CRC into the next
window, so that what runs meets SUSPECT codes (R589; they take no place among the 64 of their stack: DEDUCED, log entry 123). -/
def rebuildShadow (s : State) : State :=
  let t := s.mapLichen fun l => { l with shadow := l.shadow.map fun e => (e.1, crc32c (rgBytes s e.1)) }
  t.mapHost fun h => { h with queries := h.queries.map fun e => (e.1, if e.2.kind = .insert then e.2 else { e.2 with suspect := true }) }

/-- A Lichen stack is fenced: its step and its batches end, queries whose sweep it held skip its windows, the
weights in it are copied again into other windows with room, and latents in it are lost (R589). -/
def stackWork (s : State) (st : Nat) : State :=
  let k := s.lichen.stk.getD st Stack.idle
  let qs := k.batches.flatMap (·.queries)
  let s := s.mapLichen fun l => { l with
    stk := l.stk.put st Stack.idle, queue := l.queue.filter fun e => e.1 / 1024 != st }
  let s := if heldShadow s st then rebuildShadow s else s
  let s := s.mapHost fun h => { h with queries := qs.foldl (fun m n => m.upd n fun q => { q with partial_ := true }) h.queries }
  dropLatents (placeModels (copiesLeave s fun w => w / 80 == st)) st

/-- A merge unit is fenced: its merges go to the next one that serves, with the node lists kept (R247). -/
def mergeWork (s : State) (u : Nat) : State :=
  match ([1, 2, 3].map fun i => (u + i) % 4).find? fun x => s.serves 0x05 x with
  | none => s
  | some x => s.mapHost fun h => { h with merges := h.merges.map fun m => if m.unit = u then { m with unit := x } else m }

/-- Admitted commands that name a shard of this node (R590). -/
def shardCmds (s : State) : List Nat :=
  (s.host.cmds.filter fun e => indexOps.contains (eOpcode e.2.entry) && e.2.phase != .done && (shardOf s e.2.part (eIndex e.2.entry)).isSome).map (·.1)

/-- A DDR channel is fenced: the serving shards are lost until their rebuild, and commands that name a shard end (R590). -/
def channelWork (s : State) : State :=
  let cs := shardCmds s
  let s := s.mapShards fun m => m.map fun e => (e.1, if e.2.phase = .serving then { e.2 with lost := true } else e.2)
  cs.foldl faultCmd s

/-- Entries fetched and not admitted are fetched again (R591). -/
def refetch (s : State) : State :=
  s.mapHost fun h => { h with qps := h.qps.map fun e =>
    let n := e.2.fetched.length
    let size := 2 ^ s.fld .hqQpSize e.1 0 5
    (e.1, { e.2 with fetched := [], exposedAt := e.2.fetched.map (·.2) ++ e.2.exposedAt, sqHead := (e.2.sqHead + size - n % size) % size }) }

/-- What the work in flight on a unit sees when the unit is fenced. -/
def fenceWork (s : State) (kind u : Nat) : State :=
  match kind with
  | 0x01 => restartQueries s fun q => q.tile == some u
  | 0x02 => (restartBatches s fun b => b.cluster == some u).event .brkEvent 0 3
  | 0x03 => s.event .brkEvent 0 2
  | 0x04 => (restartQueries s fun q => q.tile.isSome && q.unit == u).event .mslEvent 0 2
  | 0x05 => (mergeWork s u).event .mslEvent 0 2
  | 0x06 =>
    let s := pinDescriptors (sliceLines s u)
    let s := ((s.host.queries.filter fun e => e.2.tile.isSome && ((scratchPlace s e.2.part e.1).map (· % 24)) == some u).map (·.1)).foldl restartQuery s
    restartBatches s fun b => b.cluster.isSome && ((scratchPlace s b.part b.num).map (· % 24)) == some u
  | 0x08 => stackWork s u
  | 0x09 => channelWork s
  | 0x11 => if u = 3 then refetch s else s
  | _ => s

/-! ### Service states (R582, R585) -/

/-- An event of a unit's new service state (R635). -/
def unitEvent (s : State) (kind u : Nat) : State :=
  raiseEvent s 2 (natLe 4 kind ++ natLe 4 u ++ natLe 4 (svcCode (s.unit kind u).st))

/-- A unit is retired: recorded in the table that the SPI NOR keeps (R585). -/
def retireUnit (s : State) (kind u : Nat) : State :=
  unitEvent (((s.setUnit kind u { s.unit kind u with st := .retired, reenable := false }).mapRas fun r =>
    { r with retired := addSet r.retired (unitKey kind u) }).event .rasEvent 0 3) kind u

/-- A unit enters OUT: by a fault or a failed return when `auto`, so that AUTO_RETURN applies; `tried` counts a return
that ended. A unit whose tries reach 3 is retired, except a register block (R582, R593). -/
def enterOut (s : State) (kind u : Nat) (auto tried : Bool) : State :=
  let r := s.unit kind u
  let n := r.tries + b2n tried
  let s := unitEvent (s.setUnit kind u { r with st := .out, reenable := false, auto := auto, tries := n, joins := false }) kind u
  let s := (unitParts s kind u).foldl (fun s p => s.event .rasPevent p 2) (s.event .rasEvent 0 1)
  if n ≥ 3 ∧ kind ≠ 0x13 then retireUnit s kind u else s

/-- The record of a unit after a fault of a class. -/
def UnitRec.faulted (r : UnitRec) (cls : Nat) : UnitRec :=
  { r with faults := min 0xFFFFFFFF (r.faults + 1), lastClass := cls, reenable := false }

/-- A fault of one unit is recorded, and the unit leaves service (R579, R580, R582). A control unit whose pair or copies
disagree restarts in place (R591; DEDUCED, log entry 16). -/
def unitFault (s : State) (kind u cls addr : Nat) (auto : Bool) : State :=
  if u ≥ unitCount kind then s else
  let r := s.unit kind u
  let cmds := if kind = 0x09 ∧ (r.st = .inService ∨ r.st = .draining) then shardCmds s else []
  let s := faultRecord s cls kind u addr (unitParts s kind u) cmds
  let s := s.setUnit kind u (r.faulted cls)
  if kind = 0x11 ∧ cls = 0x0D then (fenceWork s kind u).event .rasEvent 0 9
  else match r.st with
    | .inService => fenceWork (enterOut s kind u auto false) kind u
    | .draining => fenceWork (enterOut s kind u auto false) kind u
    | .returning => enterOut s kind u auto true
    | .waiting => enterOut s kind u auto true
    | .out => s
    | .retired => s

/-- A FAULT record of a loss that leaves a query without some of its candidates: a fenced Lichen stack, or data that cannot be
read in T2, T3 or T5 (R187, R589, R594). -/
def isLoss (r : LRec) : Bool :=
  let w := field r.body 0 4
  r.typ == 3 && (bits w 8 5 == 8 || (bits w 8 5 == 0 && [5, 7, 8].contains (bits w 0 8)))

/-- A command that ends without some of its candidates counts among the AFFECTED of the fault that took them, and its
COMPLETION names it: the newest loss in its partition's ledger, unless a fault of its own is known (R600; DEDUCED, log
entry 111). -/
def blameLoss (s : State) (n : Nat) : State :=
  match s.host.cmds.get n with
  | none => s
  | some c =>
    if s.ras.cmdFaults.any fun f => f.1 == n then s
    else match (s.ledger c.part).recs.reverse.find? isLoss with
      | none => s
      | some r => s.mapRas fun x => { x with cmdFaults := x.cmdFaults ++ [(n, c.part, r.lseq)] }

end Sys2Proof.Machine
end

