-- ==== Sys2Proof/Machine/LichenUnits.lean ====
section
/-! DEFINITION. The commands of the Lichen units: bank commands, sweep steps, gaps, the scrubber and row group repair
(07_lichen_units R194 to R226). -/
namespace Sys2Proof.Machine
open Sys2Proof

/-! ### The bank command header (R202) -/

def hOp (h : W64) : Nat := bits h.toNat 0 4
def hBcast (h : W64) : Bool := bit h.toNat 4
def hBank (h : W64) : Nat := bits h.toNat 5 10
def hWin (h : W64) : Nat := bits h.toNat 15 7
def hPart (h : W64) : Nat := bits h.toNat 22 6
def hArg (h : W64) : Nat := bits h.toNat 32 32

/-- A header. -/
def mkHdr (op : Nat) (bcast : Bool) (bank win part arg : Nat) : W64 :=
  BitVec.ofNat 64 (op + b2n bcast * 2 ^ 4 + bank * 2 ^ 5 + win * 2 ^ 15 + part * 2 ^ 22 + arg * 2 ^ 32)

/-- BCAST as the opcode table gives it; FILL takes either. -/
def bcastOk (h : W64) : Bool :=
  match hOp h with
  | 0x1 | 0x8 => !hBcast h
  | 0x6 => true
  | _ => hBcast h

/-- The argument and payload of a command hold no nonzero reserved field and have their length. -/
def bankArgOk (h : W64) (p : List Byte) : Bool :=
  let a := hArg h
  match hOp h with
  | 0x1 => p.length == 148 && zeroAt p 129 3 && (List.range (a % 8 + 1)).all fun i => decide (field p (132 + 2 * i) 2 < 2 ^ 14)
  | 0x2 => p.length == 144 && decide (a < 32) && decide (field p 0x81 1 < 2) && decide (field p 0x82 2 < 2 ^ 14) &&
      decide (field p 0x88 4 < 2 ^ 27) && zeroAt p 0x8C 4
  | 0x3 => p.length == 4 && decide (a < 32)
  | 0x4 => p.isEmpty && decide (a < 32)
  | 0x5 => p.length == 16 && decide (a < 2 ^ 13) && decide (bits a 3 3 ≤ 4) && zeroAt p 6 2
  | 0x6 => p.length == 36 && decide (a < 64)
  | 0x7 => p.length == 4 && decide (a < 2)
  | 0x8 => p.length == 4100 && a == 0
  | _ => false

/-- The bank takes a command of a row: its opcode is the row's, and nothing reserved is set (R202; a BCAST or window
that the opcode table does not give counts as reserved: DEDUCED, log entry 12). -/
def bankCmdOk (op : Nat) (h : W64) (p : List Byte) : Bool :=
  hOp h == op && bits h.toNat 28 4 == 0 && decide (hWin h < 80) && bcastOk h && bankArgOk h p

/-- A bank command of a stack: ignored with EV_BAD_CMD where it is malformed, and by a stack that is fenced. -/
def bankCmd (s : State) (op stack : Nat) (h : W64) (p : List Byte) (f : State) : State :=
  if stack ≥ 6 ∨ s.fencedUnit 0x08 stack then s
  else if bankCmdOk op h p then f else s.event .lchEvent 0 6

/-! ### Rows, stripes and row groups (R194 to R197) -/

/-- Stripe number in shard order within a window of bank stripe j of bank b of window i of a stack (R196, R205). -/
def stripeK (i b j : Nat) : Nat := (b + 1024 * 61 - 775 * i) % 1024 + 1024 * j

/-- A stack. -/
def State.stack (s : State) (st : Nat) : Stack := s.lichen.stk.getD st Stack.idle
/-- A stack changed. -/
def State.updStack (s : State) (st : Nat) (f : Stack → Stack) : State := s.mapLichen fun l => { l with stk := l.stk.adj st Stack.idle f }

/-- Address in T2 of byte `off` of a stripe of a window of a stack: none past the window's data. -/
def stripeAddr (stack i k off : Nat) : Option Nat :=
  if k < 7943 ∨ (k = 7943 ∧ off < 102400) then some (2 ^ 30 * (80 * stack + i) + 135168 * k + off) else none

/-- Address in T2 of a bank row. -/
def rowAddr (s : State) (stack b row : Nat) : Option Nat :=
  let ovf := decide (row ≥ 163840)
  let i := if ovf then (row - 163840) / 64 else row / 2048
  let share := if ovf then 1048576 + (row - 163840) % 64 * 512 else row % 2048 * 512
  if i ≥ 80 then none
  else if cfgWinBare s.img.cfg (80 * stack + i) then stripeAddr stack i (stripeK i b (share / 135168)) (share % 135168)
  else if ovf then none
  else some (2 ^ 30 * (80 * stack + i) + 4096 * (1024 * (share / 4096) + b) + share % 4096)

/-- Bits of T2 that have flipped: byte address and bit. -/
def flipT2 (s : State) (l : List (Nat × Nat)) : State :=
  l.foldl (fun s f => s.mapLichen fun x => { x with
    t2 := tierWrite x.t2 f.1 [BitVec.ofNat 8 (field (tierRead x.t2 f.1 1) 0 1 ^^^ 2 ^ (f.2 % 8))] }) s

/-! ### Damage (R223, R224, R226) -/

/-- Shard that a bare window serves. -/
def winShard (s : State) (w : Nat) : Option Shard :=
  (s.shards.find? fun e => e.2.desc.codeList.contains w || e.2.desc.freshWin == w).map (·.2)

/-- The row group is outside CLEAN. -/
def rgDirty (s : State) (rg : Nat) : Bool :=
  (s.stack (rg / 2 ^ 18 / 80)).damage.any fun d => 2 ^ 18 * d.win + d.rg == rg

/-- A word of an error record written. -/
def errWord (m : Smap W32) (rec_ w v : Nat) : Smap W32 := m.store 0 (8 * rec_ + w) (BitVec.ofNat 32 v)

/-- Word 0 of an error record. -/
def errWord0 (rg src st : Nat) : Nat := rg / 2 ^ 18 + rg % 2 ^ 18 * 2 ^ 9 + src * 2 ^ 27 + st * 2 ^ 29 + 2 ^ 31

/-- A row group is detected as damaged: it becomes SUSPECT, the shard's running queries are sketch-suspect, an error
record and a fault record are written; a detection beyond 64 fences the stack (R224, R226). -/
def rgDamage (s : State) (rg src : Nat) : State :=
  let w := rg / 2 ^ 18
  let st := w / 80
  if rgDirty s rg then s
  else if (s.stack st).damage.length ≥ 64 then unitFault s 0x08 st 0x06 (0x020000000000 + 4096 * rg) true
  else
    let n := s.lichen.errNext
    let sh := winShard s w
    let t0 := s.lichen.lastClean.getD rg 0
    let now := rtc s
    let s := s.updStack st fun k => { k with damage := k.damage ++ [{ win := w, rg := rg % 2 ^ 18, st := .suspect, record := n }] }
    let ws := [(0, errWord0 rg src 0), (1, bits t0 0 32), (2, bits t0 32 32), (3, bits now 0 32), (4, bits now 32 32),
      (5, ((sh.map (·.part)).getD 0) + ((sh.map (·.index)).getD 0) * 64), (6, 0), (7, 0)]
    let s := s.mapLichen fun l => { l with errRing := ws.foldl (fun m x => errWord m n x.1 x.2) l.errRing, errNext := (n + 1) % 64 }
    let s := match sh with
      | none => s
      | some h => s.mapHost fun x => { x with queries := x.queries.map fun e =>
          (e.1, if e.2.part = h.part ∧ e.2.index = h.index ∧ e.2.kind ≠ .insert then { e.2 with suspect := true } else e.2) }
    let owner := cfgWinOwner s.img.cfg w
    (faultRecord s 0x06 0 0 (0x020000000000 + 4096 * rg) (if owner < 64 then [owner] else []) []).event .lchEvent 0 0

/-- The CRC checks of a list of row groups: a mismatch is damage. Answers the row groups found clean. -/
def rgChecks (s : State) (src : Nat) (l : List Nat) : State × List Nat :=
  let r := l.foldl (fun (x : State × List Nat) rg =>
    if rgCrc x.1 rg = shadowCrc x.1 rg then (x.1, if rgDirty x.1 rg then x.2 else rg :: x.2)
    else (rgDamage (x.1.bump .lchSCrcErrs (rg / 2 ^ 18 / 80) 1) rg src, x.2)) (s, [])
  (r.1, r.2.reverse)

/-- The time of the last clean check of some row groups is now. -/
def checkedClean (s : State) (l : List Nat) : State := s.mapLichen fun x => { x with lastClean := x.lastClean.putAll l (rtc s) }

/-- A CRC check of a row group: a mismatch is damage, a match moves the time of its last clean check. -/
def rgCheck (s : State) (rg src : Nat) : State := let r := rgChecks s src [rg]; checkedClean r.1 r.2

/-! ### GATHER and ordinary accesses (R201, R203, R211) -/

/-- A fence refuses a Lichen command of a partition on a window (R201). -/
def lichenFence (s : State) (part w : Nat) : State := (fenceRefusal s part 4 w).event .lchEvent 0 4

/-- A bank scores the codes that a GATHER names, and returns REQ_TAG and one A for each; results from a row group outside
CLEAN mark their query (R201, R203, R224). -/
def gatherServe (s : State) (stack : Nat) (c : BankCmd) (tag : Nat) : State :=
  let w := 80 * stack + hWin c.hdr
  if !cfgWinBare s.img.cfg w then s.event .lchEvent 0 5
  else if cfgWinOwner s.img.cfg w ≠ hPart c.hdr then
    (lichenFence s (hPart c.hdr) w).mapHost fun h => { h with
      queries := h.queries.upd tag fun q => { q with status := if q.status = stEpochExpired then q.status else stPartition } }
  else
    let refs := (List.range (hArg c.hdr % 8 + 1)).map fun i => field c.payload (132 + 2 * i) 2
    let addr (r : Nat) : Option Nat :=
      stripeAddr stack (hWin c.hdr) (stripeK (hWin c.hdr) (hBank c.hdr) (r % 8)) (r / 8 / 64 * 4096 + r / 8 % 64 * 64)
    let code (r : Nat) : List Byte := match addr r with | some a => t2Read s a 64 | none => List.replicate 64 0
    let sus := refs.any fun r => match addr r with | some a => rgDirty s (a / 4096) | none => false
    let out := natLe 4 (hArg c.hdr / 8) ++ refs.flatMap fun r => natLe 4 (ofSigned 32 (lichenA (code r) c.payload))
    let s := s.mapLichen fun l => { l with answers := l.answers.put tag out }
    if sus then s.mapHost fun h => { h with queries := h.queries.upd tag fun q => { q with suspect := true } } else s

/-- A bank serves a request. -/
def bankServe (s : State) (bank : Nat) (r : BankReq) : State :=
  match r.gather with
  | some c => gatherServe s (bank / 1024) c r.tag
  | none =>
    if r.len > 0 then
      if winUp s (r.addr / 2 ^ 30) then s.mapLichen fun l => { l with answers := l.answers.put r.tag (t2Read s r.addr r.len) } else s
    else t2Write s r.addr r.wdata

/-- A request reaches a bank: it is served, or waits while the bank runs a step outside its gap (R211). -/
def bankArrive (s : State) (bank : Nat) (r : BankReq) : State :=
  let k := s.stack (bank / 1024)
  if bank ≥ 6144 ∨ s.fencedUnit 0x08 (bank / 1024) then s
  else if k.step.isNone ∨ k.gapOpen.contains bank then bankServe s bank r
  else s.mapLichen fun l => { l with queue := l.queue.put bank ((l.queue.getD bank []) ++ [r]) }

def execGather (stack : Nat) (hdr : W64) (payload : List Byte) (tag : Nat) (s : State) : Out :=
  .next (bankCmd s 1 stack hdr payload
    (bankArrive s (1024 * stack + hBank hdr) { tag := tag, gather := some ⟨hdr, payload⟩, addr := 0, len := 0, wdata := [] }))

def execBankRequest (bank tag addr len : Nat) (data : List Byte) (s : State) : Out :=
  .next (bankArrive s bank { tag := tag, gather := none, addr := addr, len := len, wdata := data })

/-! ### Query slots (R198, R209) -/

/-- A query slot of a stack. -/
def qslot (s : State) (stack n : Nat) : List Byte := slice (s.lichen.qslots.getD (32 * stack + n) []) 0 144

/-- A record loaded into a query slot; VALID is set. -/
def loadSlot (s : State) (stack n : Nat) (rec_ : List Byte) : State :=
  s.mapLichen fun l => { l with qslots := l.qslots.put (32 * stack + n) (patch rec_ 0x81 [1]) }

/-- A threshold put into a slot. -/
def setThresh (s : State) (stack n : Nat) (t : W32) : State :=
  s.mapLichen fun l => { l with qslots := l.qslots.upd (32 * stack + n) fun r => patch r 0x84 (natLe 4 t.toNat) }

def execSlotLoad (stack : Nat) (hdr : W64) (payload : List Byte) (s : State) : Out :=
  .next (bankCmd s 2 stack hdr payload (loadSlot s stack (hArg hdr) payload))

/-- A threshold update carried out: one for a query only while the slot holds that query's record (R176, R209). -/
def threshApply (s : State) (stack n : Nat) (c : Option Nat) (t : W32) : State :=
  if c.isNone ∨ c = some (bits (field (qslot s stack n) 0x88 4) 0 21) then setThresh s stack n t else s

/-- A threshold waits for the step boundary while a step runs (R209). -/
def threshUpdate (s : State) (stack n : Nat) (c : Option Nat) (t : W32) : State :=
  if (s.stack stack).step.isSome then s.updStack stack fun k => { k with thresh := k.thresh ++ [(n, c, t)] }
  else threshApply s stack n c t

def execSlotThresh (stack : Nat) (hdr : W64) (payload : List Byte) (s : State) : Out :=
  .next (bankCmd s 3 stack hdr payload (threshUpdate s stack (hArg hdr) none (BitVec.ofNat 32 (leNat payload))))

/-- VALID cleared. -/
def freeQslot (s : State) (stack n : Nat) : State :=
  s.mapLichen fun l => { l with qslots := l.qslots.upd (32 * stack + n) fun r => patch r 0x81 [0] }

def execSlotFree (stack : Nat) (hdr : W64) (payload : List Byte) (s : State) : Out :=
  .next (bankCmd s 4 stack hdr payload (freeQslot s stack (hArg hdr)))

/-! ### Sweep steps (R199, R201, R204 to R207, R222) -/

/-- What a step names. -/
structure StepArgs where
  stack : Nat
  i : Nat
  j : Nat
  kind : Nat
  fresh : Bool
  rows : Nat
  ord : Nat
  lo : Nat
  hi : Nat
  slots : List Nat
  deriving DecidableEq, Repr

/-- The fields of a SWEEP_STEP. -/
def stepArgs (stack : Nat) (h : W64) (p : List Byte) : StepArgs :=
  let a := hArg h
  { stack := stack, i := hWin h, j := bits a 0 3, kind := bits a 3 3, fresh := bit a 6, rows := bits a 7 6 + 1, ord := field p 4 2
    lo := field p 8 4, hi := field p 12 4, slots := (List.range 32).filter fun n => bit (field p 0 4) n }

/-- The tag test of a slot (R132, R199). -/
def tagPasses (tag mask : Nat) : Bool := bit tag 15 || (bit tag 14 && tag &&& mask == mask)

/-- A ring index lies in the range of a FRESH step (R204). -/
def inRange (a : StepArgs) (x : Nat) : Bool :=
  if a.lo ≤ a.hi then decide (a.lo ≤ x) && decide (x < a.hi) else decide (a.lo ≤ x) || decide (x < a.hi)

/-- The records that one code gives (R199, R205). -/
def codeRecs (a : StepArgs) (slots : List (Nat × List Byte)) (slotId tag : Nat) (code : List Byte) (sus : Bool) : List SweepRec :=
  slots.filterMap fun q =>
    let v := lichenA code q.2
    if tagPasses tag (field q.2 0x82 2) ∧ (bit tag 15 ∨ v ≥ toSigned 32 (field q.2 0x84 4)) then
      some { slotId := slotId, a := BitVec.ofNat 32 (ofSigned 32 v), qslot := q.1, ctx := bits (field q.2 0x88 4) 0 21
             unsettled := bit tag 15, fresh := a.fresh, suspect := sus }
    else none

/-- The 64 tags of a row group of a stripe: from the tag buffer where it holds the stripe, else as stored (DEDUCED, log
entry 13). -/
def stripeTags (s : State) (a : StepArgs) (b k g : Nat) : List Byte :=
  let stored := ((stripeAddr a.stack a.i k (131072 + 128 * g)).map fun x => t2Read s x 128).getD []
  match s.lichen.tagBuf.get (1024 * a.stack + b) with
  | some (n, l) => if n = 8192 * (80 * a.stack + a.i) + k then (l.drop (128 * g)).take 128 else stored
  | none => stored

/-- The records of one code row group of a stripe; one whose tags are all zero holds nothing that lives. -/
def rgRecs (s : State) (a : StepArgs) (slots : List (Nat × List Byte)) (b k g : Nat) : List SweepRec :=
  let tags := stripeTags s a b k g
  match stripeAddr a.stack a.i k (4096 * g) with
  | none => []
  | some addr =>
    let sus := rgDirty s (addr / 4096)
    if tags.all (· == 0) then [] else (List.range 64).flatMap fun c =>
      let r := 64 * g + c
      let id := if a.fresh then 2048 * k + r else 2048 * (a.ord * 7943 + k) + r
      let tag := field tags (2 * c) 2
      if (a.fresh ∧ !inRange a id) ∨ (!bit tag 14 ∧ !bit tag 15) then []
      else codeRecs a slots id tag (t2Read s (addr + 64 * c) 64) sus

/-- Row activations of a code step (LCH_SWEEP_STEP_LIMIT). -/
def stepRows (s : State) (st : Nat) : Nat := 64 / 2 ^ bits (s.regIn (102 + st) .lchSweepStepLimit 0).toNat 0 2

/-- The FIFO of a bank has room for 64 records for each slot that a step names (R207). -/
def fifoRoom (s : State) (a : StepArgs) (b : Nat) : Bool :=
  decide ((s.lichen.fifo.getD (1024 * a.stack + b) []).length + 64 * a.slots.length ≤ 4096)

/-- The checks of the row groups that a step has read, where SWEEP_CHECK is set (R222). -/
def sweepChecks (s : State) (stack : Nat) (l : List Nat) : State :=
  if bit (s.regIn (102 + stack) .lchScrubCfg 0).toNat 16 then let r := rgChecks s 1 l; checkedClean r.1 r.2 else s

/-- A bank streams row groups of a step from the `d`-th of its kind on, while its FIFO has room (R207). Answers the number of
the first one that it leaves. -/
def bankStream (a : StepArgs) (slots : List (Nat × List Byte)) (b k : Nat) : Nat → Nat → State → State × Nat
  | 0, d, s => (s, d)
  | n + 1, d, s =>
    if d ≥ 8 ∨ !fifoRoom s a b then (s, d)
    else
      let g := 8 * (a.kind - 1) + d
      let r := rgRecs s a slots b k g
      let key := 1024 * a.stack + b
      let s := s.mapLichen fun l => { l with fifo := l.fifo.store [] key (l.fifo.getD key [] ++ r) }
      bankStream a slots b k n (d + 1) s

/-- One bank's part of a step, from the progress it had: tags into the tag buffer, or codes scored; a bank without the stripe
has nothing to do (R206, R207). -/
def bankStep (a : StepArgs) (slots : List (Nat × List Byte)) (done : Smap Nat) (s : State) (b : Nat) : State × Nat :=
  let k := stripeK a.i b a.j
  if k ≥ 7943 then (s, 8)
  else if a.kind = 0 then
    match stripeAddr a.stack a.i k 131072 with
    | none => (s, 8)
    | some x =>
      if !fifoRoom s a b then (s, 0) else
      let s := s.mapLichen fun l => { l with tagBuf := l.tagBuf.put (1024 * a.stack + b) (8192 * (80 * a.stack + a.i) + k, t2Read s x 4096) }
      (s, 8)
  else bankStream a slots b k (min a.rows (stepRows s a.stack) / 8) (done.getD b 0) s

/-- The slots that a step names and that are VALID, with their records. -/
def stepSlots (s : State) (a : StepArgs) : List (Nat × List Byte) :=
  (a.slots.map fun n => (n, qslot s a.stack n)).filter fun q => bit (field q.2 0x81 1) 0

/-- The slot's partition owns the window of a step (R201). -/
def slotOwns (s : State) (a : StepArgs) (q : Nat × List Byte) : Bool :=
  bits (field q.2 0x88 4) 21 6 == cfgWinOwner s.img.cfg (80 * a.stack + a.i)

/-- Row groups that a bank read in its part of a step, up to the `d`-th of its kind: the tags', or those of codes. -/
def readRgs (a : StepArgs) (done : Smap Nat) (b d : Nat) : List Nat :=
  let k := stripeK a.i b a.j
  if k ≥ 7943 then []
  else
    let first := if a.kind = 0 then 32 else 8 * (a.kind - 1) + done.getD b 0
    let n := if a.kind = 0 then d / 8 else d - done.getD b 0
    (List.range n).filterMap fun x => (stripeAddr a.stack a.i k (4096 * (first + x))).map (· / 4096)

/-- Banks run their parts of a step; a slot whose partition does not own the window gets nothing (R201). -/
def banksRun (s : State) (a : StepArgs) (done : Smap Nat) (banks : List Nat) : State :=
  let slots := (stepSlots s a).filter (slotOwns s a)
  let r := banks.foldl (fun x b =>
    let y := bankStep a slots done x.1 b
    (y.1, Smap.put x.2.1 b y.2, x.2.2 ++ [(b, y.2)])) (s, (s.stack a.stack).ran, [])
  sweepChecks (r.1.updStack a.stack fun k => { k with ran := r.2.1 }) a.stack (r.2.2.flatMap fun x => readRgs a done x.1 x.2)

/-- A step begins in a stack: every bank runs its part, one whose gap is open once the gap has closed. A step over a guarded
window does nothing (R201, R208, R210). -/
def startStep (s : State) (stack : Nat) (c : BankCmd) (done : Smap Nat) : State :=
  let a := stepArgs stack c.hdr c.payload
  let w := 80 * stack + a.i
  if !cfgWinBare s.img.cfg w then s.event .lchEvent 0 5
  else
    let s := ((stepSlots s a).filter fun q => !slotOwns s a q).foldl (fun s q => lichenFence s (bits (field q.2 0x88 4) 21 6) w) s
    let s := (s.bump .lchSSteps stack 1).updStack stack fun k => { k with step := some c, ran := [] }
    banksRun s a done ((List.range 1024).filter fun b => !(s.stack stack).gapOpen.contains (1024 * stack + b))

/-! ### FILL, SCRUB, REPAIR (R214, R215, R221) -/

/-- Banks that execute a command. -/
def cmdBanks (h : W64) : List Nat := if hBcast h then List.range 1024 else [hBank h]

/-- The pattern written ovf rows of the banks. -/
def fillRows (s : State) (stack : Nat) (h : W64) (p : List Byte) : State :=
  let row := field p 0 4
  let pat := (List.replicate 16 (slice p 4 32)).flatten
  (cmdBanks h).foldl (fun s b => (List.range (hArg h + 1)).foldl (fun s r => match rowAddr s stack b (row + r) with
    | some a => t2Write s a pat
    | none => s) s) s

/-- Each bank of a stack checks the row group at a bank row; a write-back of a clean row group stores the same bits. -/
def scrubRows (s : State) (stack row : Nat) : State :=
  let r := rgChecks s 0 ((List.range 1024).filterMap fun b =>
    ((rowAddr s stack b (row / 8 * 8)).filter fun a => cfgWinBare s.img.cfg (a / 2 ^ 30)).map (· / 4096))
  checkedClean r.1 r.2

/-- A row group written whole, with its shadow CRC in the same gap (R215). -/
def repairRg (s : State) (rg : Nat) (b : List Byte) : State :=
  s.mapLichen fun l => { l with t2 := tierWrite l.t2 (4096 * rg) b, shadow := l.shadow.store zeroRgCrc rg (crc32c b) }

/-- The row group that a REPAIR command writes. -/
def repairRow (s : State) (stack : Nat) (h : W64) (p : List Byte) : State :=
  match rowAddr s stack (hBank h) (field p 0 4 / 8 * 8) with
  | some a => if cfgWinBare s.img.cfg (a / 2 ^ 30) then repairRg s (a / 4096) (slice p 4 4096) else t2Write s a (slice p 4 4096)
  | none => s

/-- A step command carried out by a stack that runs no step. -/
def stackRun (s : State) (stack : Nat) (c : BankCmd) : State :=
  match hOp c.hdr with
  | 0x5 => startStep s stack c []
  | 0x6 => fillRows s stack c.hdr c.payload
  | 0x7 => scrubRows s stack (field c.payload 0 4)
  | _ => repairRow s stack c.hdr c.payload

/-- A stack runs one step at a time: a step command that comes during a step waits for its end (R208, R211). -/
def stackCmd (s : State) (stack : Nat) (c : BankCmd) : State :=
  if (s.stack stack).step.isSome then s.updStack stack fun k => { k with later := k.later ++ [c] } else stackRun s stack c

def execSweepStep (stack : Nat) (hdr : W64) (payload : List Byte) (flips : List (Nat × Nat)) (s : State) : Out :=
  let t := flipT2 s flips
  .next (bankCmd t 5 stack hdr payload (stackCmd t stack ⟨hdr, payload⟩))

def execFill (stack : Nat) (hdr : W64) (payload : List Byte) (s : State) : Out :=
  .next (bankCmd s 6 stack hdr payload (stackCmd s stack ⟨hdr, payload⟩))

def execScrub (stack : Nat) (hdr : W64) (payload : List Byte) (flips : List (Nat × Nat)) (s : State) : Out :=
  let t := flipT2 s flips
  .next (bankCmd t 7 stack hdr payload (stackCmd t stack ⟨hdr, payload⟩))

def execRepair (stack : Nat) (hdr : W64) (payload : List Byte) (s : State) : Out :=
  .next (bankCmd s 8 stack hdr payload (stackCmd s stack ⟨hdr, payload⟩))

/-! ### The scrubber (R221) -/

/-- Bank row of place `p` of a scrub pass: 264 row groups of each window's share and overflow slot. -/
def scrubRow (p : Nat) : Nat := if p % 264 < 256 then 2048 * (p / 264) + 8 * (p % 264) else 163840 + 64 * (p / 264) + 8 * (p % 264 - 256)

/-- The next place at or after `p` that lies in a bare window, or none. -/
def scrubNext (s : State) (stack : Nat) : Nat → Nat → Option Nat
  | 0, _ => none
  | n + 1, i => if i ≥ 80 then none else if cfgWinBare s.img.cfg (80 * stack + i) then some i else scrubNext s stack n (i + 1)

/-- The check of the row groups at a bank row, as the scrubber commands it. -/
def scrubCmd (s : State) (stack row : Nat) : State :=
  stackCmd s stack ⟨mkHdr 7 true 0 0 0 (b2n (bit (s.regIn (102 + stack) .lchScrubCfg 0).toNat 17)), natLe 4 row⟩

/-- The rebuild of a stack's SUSPECT row groups begins, and their error records say so (R224; with the next tick of the
scrubber: log entry 117). -/
def beginRebuilds (s : State) (stack : Nat) : State :=
  let k := s.stack stack
  let go := k.damage.filter fun d => d.st == .suspect
  (s.updStack stack fun k => { k with damage := k.damage.map fun d => if d.st = .suspect then { d with st := .repairing } else d }).mapLichen
    fun l => { l with errRing := go.foldl (fun m d =>
      errWord m d.record 0 (errWord0 (2 ^ 18 * d.win + d.rg) (bits ((m.getD (8 * d.record) 0).toNat) 27 2) 1)) l.errRing }

/-- The scrubber of a stack makes its next check; the pass wraps after the last window (R221). -/
def scrubTick (s : State) (stack : Nat) (late : Bool) : State :=
  if stack ≥ 6 ∨ s.fencedUnit 0x08 stack then s else
  let s := beginRebuilds (s.eventIf late .lchEvent 0 3) stack
  let p := (s.stack stack).scrubPos
  let i := p / 264
  match if i < 80 ∧ cfgWinBare s.img.cfg (80 * stack + i) then some i else scrubNext s stack 80 (i + 1) with
  | none => match scrubNext s stack 80 0 with
    | none => s
    | some w => (scrubCmd s stack (scrubRow (264 * w))).updStack stack fun k => { k with scrubPos := 264 * w + 1 }
  | some w =>
    let q := if w = i then p else 264 * w
    let s := (scrubCmd s stack (scrubRow q)).updStack stack fun k => { k with scrubPos := q + 1 }
    let last := decide ((q + 1) % 264 = 0) && (scrubNext s stack 80 (w + 1)).isNone
    if last then (s.bump .lchSPasses stack 1).updStack stack fun k => { k with scrubPos := 0 } else s

def execScrubTick (stack : Nat) (late : Bool) (s : State) : Out := .next (scrubTick s stack late)

/-! ### The sequencer (R206 to R211) -/

/-- THRESH of a query: from the bound of its stream list (R200). -/
def threshOf (q : Query) : W32 :=
  match q.stream.bound with
  | none => 0x80000000
  | some v => BitVec.ofNat 32 (ofSigned 32 (min 2147483647 ((2147483648 : Int) - (v / 2 ^ 64 : Nat))))

/-- Query slot record of a query (R198). -/
def slotRecOf (q : Query) : List Byte :=
  slice q.sketch 0 129 ++ [1] ++ natLe 2 q.mask ++ natLe 4 (threshOf q).toNat ++ natLe 4 (q.ctxId.getD 0 + q.part * 2 ^ 21) ++ natLe 4 0

/-- SLOT_LOAD for each query of a batch whose slot does not hold its record (R208). -/
def loadBatch (s : State) (stack : Nat) (b : SweepBatch) : State :=
  (b.queries.zipIdx).foldl (fun s x => match s.host.queries.get x.1 with
    | none => s
    | some q => if qslot s stack x.2 = slotRecOf q then s else loadSlot s stack x.2 (slotRecOf q)) s

/-- The sequencer issues the next step of the batch whose turn it is (R206, R208, R210). -/
def issueStep (s : State) (stack : Nat) : State :=
  match (s.stack stack).batches with
  | [] => s
  | b :: _ => match b.todo with
    | [] => s
    | (w, ord, j, kind) :: _ =>
      let s := loadBatch s stack b
      let rows := if kind = 0 then 8 else stepRows s stack
      let slots := (List.range b.queries.length).foldl (fun n i => n + 2 ^ i) 0
      let h := mkHdr 5 true 0 (w % 80) b.part (j + kind * 8 + b2n b.fresh * 64 + (rows - 1) * 128)
      let p := natLe 4 slots ++ natLe 2 ord ++ natLe 2 0 ++ natLe 4 (if b.fresh then b.range.1 else 0) ++ natLe 4 (if b.fresh then b.range.2 else 0)
      (startStep s stack ⟨h, p⟩ b.done).updStack stack fun k => { k with step := some ⟨h, p⟩, own := true }

/-- Every request that waits at a bank is served, in arrival order (R211). -/
def serveGap (s : State) (bank : Nat) : State :=
  let l := s.lichen.queue.getD bank []
  l.foldl (fun s r => bankServe s bank r) (s.mapLichen fun x => { x with queue := x.queue.del bank })

/-- The gap of a bank closes: it takes no further request, and runs its part of the step in progress (R210, R211). -/
def gapEnd (s : State) (stack bank : Nat) : State :=
  let k := s.stack stack
  if !k.gapOpen.contains (1024 * stack + bank) then s else
  let s := s.updStack stack fun k => { k with gapOpen := delSet k.gapOpen (1024 * stack + bank) }
  match k.step with
  | none => s
  | some c =>
    let a := stepArgs stack c.hdr c.payload
    if !cfgWinBare s.img.cfg (80 * stack + a.i) then s
    else banksRun s a (if k.own then (k.batches.head?.map (·.done)).getD [] else []) [bank]

def execGapMaxExpiry (stack bank : Nat) (s : State) : Out := .next (if stack < 6 ∧ bank < 1024 then gapEnd s stack bank else s)

/-- The first batch after its step: one that ended early in some bank goes on from there, and a finished one gives way to
the next; batches end with their last step or their last query (R206 to R208). -/
def batchesAfter (k : Stack) : List SweepBatch :=
  match k.own, k.batches with
  | true, b :: t =>
    let fin := (List.range 1024).all fun x => decide (k.ran.getD x 8 ≥ 8)
    (t ++ [if fin then { b with todo := b.todo.drop 1, done := [] } else { b with done := k.ran }]).filter fun b =>
      !b.todo.isEmpty && !b.queries.isEmpty
  | _, l => l

/-- Step commands that waited run in order, up to one that begins a sweep step; their number bounds them. -/
def runLater (stack : Nat) : Nat → State → State
  | 0, s => s
  | n + 1, s => match (s.stack stack).later with
    | [] => s
    | c :: t => if (s.stack stack).step.isSome then s
      else runLater stack n (stackRun (s.updStack stack fun k => { k with later := t }) stack c)

/-- A step has ended in every bank: threshold updates take effect, the banks serve what waited, step commands that waited run,
and the next step is issued. The gap of a bank that had requests stays open for further ones until GAP_MAX, or until the bank
is to run its part of the next step (R209 to R211; log entry 118). -/
def stepEnd (s : State) (stack : Nat) : State :=
  if stack ≥ 6 ∨ (s.stack stack).step.isNone then s else
  let s := (s.stack stack).gapOpen.foldl (fun s b => gapEnd s stack (b % 1024)) s
  let s := (s.stack stack).thresh.foldl (fun s t => threshApply s stack t.1 t.2.1 t.2.2) s
  let banks := (s.lichen.queue.filter fun e => e.1 / 1024 == stack && !e.2.isEmpty).map (·.1)
  let s := s.updStack stack fun k => { k with
    step := none, ran := [], own := false, thresh := [], gapOpen := banks, batches := batchesAfter k }
  let s := banks.foldl serveGap s
  let s := runLater stack (s.stack stack).later.length s
  if (s.stack stack).step.isSome then s else issueStep s stack

/-! ### Rebuild (R225) -/

/-- Tag that a rebuild gives a slot of the code region. -/
def rebuiltTag (s : State) (sh : Shard) (x : Nat) : Nat :=
  let r := slotRec sh x
  if !srOcc r then 0
  else
    let uns := sh.versions.any (·.slot == x) || !srLinkSettled r || (srDeleted r && !srDelSettled r)
    tagLive + ruleBits sh (attrFor sh x (oldestInUse s sh.part)) + b2n uns * tagUnsettled

/-- Code that a rebuild gives a slot. -/
def rebuiltCode (sh : Shard) (x : Nat) : List Byte :=
  match if srOcc (slotRec sh x) then exactOf sh x else none with
  | some e => (formsOf sh.desc.numrec e).1.code
  | none => List.replicate 64 0

/-- Contents of a row group of a bare window of a shard, from the slot records and T5. -/
def rebuiltRg (s : State) (sh : Shard) (w rg : Nat) : List Byte :=
  let k := rg / 33
  let r := rg % 33
  if k ≥ 7943 then List.replicate 4096 0
  else if sh.desc.freshWin = w then
    let slotAt (i : Nat) : Option Nat := if i < sh.desc.freshEntries then sh.freshSlots.get i else none
    if r < 32 then (List.range 64).flatMap fun c => match slotAt (2048 * k + 64 * r + c) with
      | some x => rebuiltCode sh x
      | none => List.replicate 64 0
    else (List.range 2048).flatMap fun c => natLe 2 (match slotAt (2048 * k + c) with
      | some x => tagLive + ruleBits sh (attrFor sh x (oldestInUse s sh.part)) + b2n (sh.versions.any (·.slot == x)) * tagUnsettled
      | none => 0)
  else
    let g := (indexOf? (· == w) sh.desc.codeList).getD 0 * 7943 + k
    if r < 32 then (List.range 64).flatMap fun c => rebuiltCode sh (2048 * g + 64 * r + c)
    else (List.range 2048).flatMap fun c => natLe 2 (rebuiltTag s sh (2048 * g + c))

/-- A damaged row group is rebuilt and returns to CLEAN, or enters FAILED where Felt could not read a vector it needs;
how many items those were is open (R224, R225). -/
def rgRebuild (s : State) (stack win rg : Nat) (ok : Bool) : State :=
  match (s.stack stack).damage.find? fun d => d.win == win && d.rg == rg && d.st != .failed with
  | none => s
  | some d =>
    let g := 2 ^ 18 * win + rg
    let rest := (s.stack stack).damage.filter fun x => !(x.win == win && x.rg == rg)
    let src := bits ((s.lichen.errRing.getD (8 * d.record) 0).toNat) 27 2
    if ok then
      let s := match winShard s win with
        | some sh => repairRg s g (rebuiltRg s sh win rg)
        | none => repairRg s g (List.replicate 4096 0)
      ((s.updStack stack fun k => { k with damage := rest }).mapLichen fun l => { l with
        errRing := errWord l.errRing d.record 0 (errWord0 g src 2), lastClean := l.lastClean.put g (rtc s) }).event .lchEvent 0 1
    else
      let n := Config.freeNat s.free % 2 ^ 16
      let s := ((s.updStack stack fun k => { k with damage := rest ++ [{ d with st := .failed }] }).mapLichen fun l => { l with
        errRing := errWord (errWord l.errRing d.record 0 (errWord0 g src 3)) d.record 6 n }).drawn
      let owner := cfgWinOwner s.img.cfg win
      (faultRecord s 0x06 0 0 (0x020000000000 + 4096 * g) (if owner < 64 then [owner] else []) []).event .lchEvent 0 2

def execRowGroupRebuild (stack win rg : Nat) (ok : Bool) (s : State) : Out :=
  .next (if stack < 6 ∧ win / 80 = stack then rgRebuild s stack win rg ok else s)

end Sys2Proof.Machine
end

