-- ==== Sys2Proof/Machine/TwillSend.lean ====
section
/-! DEFINITION. Packets, their encryption, routing and transmission, and the requests of this node (14_twill_fabric R411 to
R415, R420 to R437). -/
namespace Sys2Proof.Machine
open Sys2Proof

/-! ### Nodes and ports -/

/-- A port. -/
def State.port (s : State) (i : Nat) : Port := s.twill.ports.getD i Port.reset
/-- Change of a port. -/
def State.updPort (s : State) (i : Nat) (f : Port → Port) : State := s.mapTwill fun t => { t with ports := t.ports.adj i Port.reset f }

/-! ### Packet types (R420, R433, R436) -/

/-- Virtual channel of a packet type; none for a reserved type. -/
def vcOf (typ : Nat) : Option Nat :=
  match typ with
  | 0x1 | 0x3 | 0x5 | 0x7 => some 3
  | 0x2 | 0x4 | 0x6 | 0x8 => some 1
  | 0x9 => some 4
  | 0xA => some 2
  | 0xB => some 5
  | 0xC | 0xD => some 0
  | _ => none

/-- The payload of the type is encrypted. -/
def encrypted (typ : Nat) : Bool := [0x2, 0x3, 0x5, 0x6, 0x8, 0x9, 0xA, 0xB].contains typ

/-- The type answers a request. -/
def isResponse (typ : Nat) : Bool := [0x2, 0x4, 0x6, 0x8, 0xA].contains typ

/-- Credits of a channel and class at PARAM (R422). -/
def fullCredits (vc : Nat) : Nat :=
  match vc with
  | 0 => 512 | 1 => 3584 | 2 => 2560 | 3 => 3584 | 4 => 1536 | _ => 4608

/-- Payload length in 16-byte units. -/
def Packet.len (p : Packet) : Nat := ceilDiv p.payload.length 16

/-- Bytes of a packet. -/
def Packet.size (p : Packet) : Nat := 40 + 16 * p.len

/-- Credits that a packet needs. -/
def Packet.need (p : Packet) : Nat := ceilDiv p.size 32

/-- The four header words, as 32 bytes; DCLASS and HOPS as zero where `bare` (R432). -/
def Packet.header (p : Packet) (bare : Bool) : List Byte :=
  natLe 8 (p.typ + p.vc * 2 ^ 4 + (if bare then 0 else b2n p.dclass * 2 ^ 7) + p.dst * 2 ^ 8 + p.src * 2 ^ 25 + p.part * 2 ^ 42 +
      (if bare then 0 else p.hops * 2 ^ 48) + p.len * 2 ^ 53 + b2n p.enc * 2 ^ 60 + b2n p.last * 2 ^ 61 + b2n p.retry * 2 ^ 62) ++
    natLe 8 (p.reqId + p.mapgen * 2 ^ 48) ++ natLe 8 (p.addr + p.seq * 2 ^ 47) ++
    natLe 8 (p.epoch + p.index * 2 ^ 48 + p.status * 2 ^ 56)

/-- XTS tweak of a packet (R436). -/
def Packet.tweak (p : Packet) : List Byte :=
  let r := isResponse p.typ
  natLe 16 (p.reqId % 2 ^ 48 + p.seq % 2 ^ 15 * 2 ^ 48 + b2n r * 2 ^ 63 + (if r then p.dst else p.src) % 2 ^ 17 * 2 ^ 64 +
    p.epoch % 2 ^ 47 * 2 ^ 81)

/-- Twill key of a partition. -/
def twillKey (s : State) (p : Nat) : List Byte := ((s.sec.keys.get p).map (·.twill)).getD []

/-- The bytes of a packet as sent: header, payload under the partition's Twill key, ECRC trailer (R432, R436). A forwarded
packet goes on with the payload and the trailer it came with. -/
def Packet.wire (s : State) (p : Packet) : List Byte :=
  match p.trailer with
  | some w => p.header false ++ slice p.payload 0 (16 * p.len) ++ natLe 8 w
  | none =>
  let clear := slice p.payload 0 (16 * p.len)
  let body := if p.enc then slice (Config.xtsEncrypt (twillKey s p.part) p.tweak clear) 0 clear.length else clear
  p.header false ++ body ++ natLe 8 (crc32c (p.header true ++ body))

/-! ### Flits sent (R413, R414) -/

/-- Header of a flit that a port sends now: it acknowledges, and returns the credits of one channel and class. -/
def flitHdr (p : Port) (ftype fseq pstart : Nat) (nak : Bool) : Nat × Port :=
  let cr := (p.owed.find? fun e => e.2 > 0).getD (0, 0)
  let n := min cr.2 4095
  (ftype + fseq * 2 ^ 2 + p.ackSeq * 2 ^ 14 + b2n nak * 2 ^ 26 + pstart * 2 ^ 27 + (cr.1 % 2 + cr.1 / 2 * 2) * 2 ^ 35 + n * 2 ^ 39,
   { p with owed := p.owed.store 0 cr.1 (cr.2 - n), unacked := 0, nakHold := p.nakHold || nak })

/-- An IDLE flit: acknowledgement, credits, and a NAK where asked. -/
def Port.sendIdle (p : Port) (nak : Bool) : Port :=
  let h := flitHdr p 1 0 0xFF nak
  h.2.putFlit h.1 []

/-- IDLE flits until every credit owed has gone back. -/
def Port.sendCredits : Nat → Port → Port
  | 0, p => p
  | n + 1, p => if p.owed.any fun e => e.2 > 0 then Port.sendCredits n (p.sendIdle false) else p

/-- A DATA or LCTRL flit sent: it takes the next FSEQ and stays in the replay buffer. -/
def Port.sendFlit (p : Port) (lctrl : Bool) (pstart : Nat) (stream : List Byte) : Port :=
  let h := flitHdr p (if lctrl then 2 else 0) p.txSeq pstart false
  { h.2.putFlit h.1 stream with
    txSeq := (p.txSeq + 1) % 4096
    replay := p.replay ++ [{ fseq := p.txSeq, lctrl := lctrl, stream := slice stream 0 243, pstart := pstart, resent := 0 }] }

/-- A link control message sent (R413). -/
def Port.sendLctrl (p : Port) (code lane : Nat) : Port := p.sendFlit true 0xFF (natLe 1 code ++ natLe 1 lane)

/-- Stream bytes cut into flits, with the offset at which each flit's first packet begins; what is left of the last flit
is zero (log entry 17). -/
def streamFlits (starts : List Nat) : Nat → Nat → List Byte → List (Nat × List Byte)
  | 0, _, _ => []
  | n + 1, off, b =>
    if b.isEmpty then [] else
    ((((starts.filter fun x => decide (off ≤ x) && decide (x < off + 243)).map (· - off)).headD 0xFF), b.take 243) ::
      streamFlits starts n (off + 243) (b.drop 243)

/-! ### Choice of the next packet of a port (R421 to R423) -/

/-- First packet of a channel and class in a port's queue. -/
def headOf (p : Port) (vc cls : Nat) : Option Packet := p.outq.find? fun k => k.vc == vc && b2n k.dclass == cls

/-- A port holds credits for a packet. -/
def hasCredit (p : Port) (k : Packet) : Bool := decide (k.need ≤ p.credits.getD (2 * k.vc + b2n k.dclass) 0)

/-- The packet of a channel that may go next: the classes alternate. -/
def channelHead (p : Port) (vc : Nat) : Option Packet :=
  let c := 1 - p.lastClass.getD vc 1
  match (headOf p vc c).filter (hasCredit p) with
  | some k => some k
  | none => (headOf p vc (1 - c)).filter (hasCredit p)

/-- Quantum of a channel. -/
def vcQuantum (s : State) (vc : Nat) : Nat := 1064 * s.fld .twlVcWeight 0 (4 * (vc - 1)) 4

/-- Deficit round robin over channels 1 to 5: the packet that goes next, and the port after the choice. -/
def drrPick (s : State) : Nat → Port → Option (Packet × Port)
  | 0, _ => none
  | n + 1, p =>
    match channelHead p p.turn with
    | some k =>
      let d := p.deficit.getD p.turn 0
      if k.size ≤ d then some (k, { p with deficit := p.deficit.store 0 p.turn (d - k.size) })
      else
        let t := p.turn % 5 + 1
        drrPick s n { p with turn := t, deficit := p.deficit.store 0 t (p.deficit.getD t 0 + vcQuantum s t) }
    | none =>
      let t := p.turn % 5 + 1
      let d := p.deficit.store 0 p.turn 0
      drrPick s n { p with turn := t, deficit := d.store 0 t (d.getD t 0 + vcQuantum s t) }

/-- The packet that a port sends next: CTRL packets first. -/
def nextPacket (s : State) (p : Port) : Option (Packet × Port) :=
  match channelHead p 0 with
  | some k => some (k, p)
  | none => drrPick s 11 p

/-- Packets that a port sends now, with the port after their credits are taken. -/
def takePackets (s : State) : Nat → Port → List Packet → List Packet × Port
  | 0, p, l => (l, p)
  | n + 1, p, l =>
    match nextPacket s p with
    | none => (l, p)
    | some (k, p) =>
      let i := 2 * k.vc + b2n k.dclass
      takePackets s n { p with
        outq := dropFirst (fun x => x == k) p.outq
        credits := p.credits.put i (p.credits.getD i 0 - k.need)
        lastClass := p.lastClass.put k.vc (b2n k.dclass) } (l ++ [k])

/-- Packets that fit into a number of flits. -/
def fitting (s : State) (room : Nat) : Nat → List Packet → List Packet
  | _, [] => []
  | used, k :: t => if ceilDiv (used + (k.wire s).length) 243 ≤ room then k :: fitting s room (used + (k.wire s).length) t else []

/-- A port sends what its queue, its credits and its replay buffer allow (R415, R422, R423). A transmitter that mirrors a
lane sends no new DATA flit (R418). -/
def portSend (s : State) (i : Nat) : State :=
  let p := s.port i
  if (p.st ≠ .active ∧ p.st ≠ .draining) ∨ p.mirror.isSome ∨ p.replay.length ≥ 2048 then s else
  let r := takePackets s (fitting s (2048 - p.replay.length) 0 p.outq).length p []
  let bytes := r.1.map (Packet.wire s)
  let starts := (bytes.foldl (fun (a : List Nat × Nat) b => (a.1 ++ [a.2], a.2 + b.length)) ([], 0)).1
  let stream := bytes.flatten
  let flits := streamFlits starts (ceilDiv stream.length 243) 0 stream
  (s.updPort i fun _ => flits.foldl (fun q f => q.sendFlit false f.1 f.2) r.2).bump .twlPTxflits i flits.length

/-! ### Routing (R424 to R427) -/

/-- Entry of the route table in force. -/
def routeEntry (s : State) (e : Nat) : Nat := (s.reg .twlRtWord (2 * e)).toNat + (s.reg .twlRtWord (2 * e + 1)).toNat * 2 ^ 32

/-- Entries of the route table in force that are not empty. -/
def routes (s : State) : List (Nat × Nat × Nat) :=
  let lo := regKey .twlRtWord 0
  (((s.regs.force.filter fun e => decide (lo ≤ e.1) && decide (e.1 < lo + 8192) && (e.1 - lo) % 2 == 1).map fun e =>
    routeOf (routeEntry s ((e.1 - lo) / 2)))).filter fun r => r.2.2 != 0

/-- The port that a packet leaves through (R425, R426). -/
def pickPort (s : State) (p : Packet) (from_ : Option Nat) : Option Nat :=
  match (routes s).find? fun r => decide (r.1 ≤ p.dst) && decide (p.dst ≤ r.2.1) with
  | none => none
  | some r =>
    let up := (List.range 12).filter fun i => bit r.2.2 i && (s.port i).st == .active
    let l := match up.filter fun i => some i != from_ with | [] => up | x :: t => x :: t
    l[crc32c (natLe 4 p.dst ++ natLe 4 p.src ++ natLe 8 p.reqId) % max 1 l.length]?

/-- A packet delivered to the local engines. -/
def deliver (s : State) (p : Packet) : State := s.mapTwill fun t => { t with inbox := t.inbox ++ [p] }

/-- A packet put on a port's queue; it enters class 1 on a dateline (R421). -/
def enqueue (s : State) (i : Nat) (p : Packet) : State :=
  portSend (s.updPort i fun q => { q with outq := q.outq ++ [{ p with dclass := p.dclass || s.fld .twlPCfg i 2 1 == 1 }] }) i

/-- The UNDELIVERED packet that reports a dropped packet. -/
def undeliveredOf (s : State) (p : Packet) : Packet :=
  { typ := 0xD, vc := 0, dclass := false, dst := p.src, src := nodeId s, part := p.part, hops := s.fld .twlCfg 0 14 5, enc := false
    last := true, retry := p.retry, reqId := p.reqId, mapgen := p.mapgen, addr := 0, seq := p.seq, epoch := p.epoch, index := p.index
    status := stUnreachable, payload := p.header false, trailer := none }

/-- A packet routed: delivered here, queued at a port, or dropped with an UNDELIVERED to its source (R425). -/
def routePkt (s : State) (p : Packet) (from_ : Option Nat) : State :=
  if p.dst = nodeId s then deliver s p
  else match pickPort s p from_ with
    | some i => enqueue s i p
    | none =>
      let s := s.event .twlEvent 0 6
      if p.typ = 0xD then s else
      let u := undeliveredOf s p
      if u.dst = nodeId s then deliver s u
      else match pickPort s u none with
        | some i => enqueue s i u
        | none => s.event .twlEvent 0 6

/-- A packet of this node sent (R427). -/
def sendPkt (s : State) (p : Packet) : State :=
  routePkt s { p with src := nodeId s, hops := s.fld .twlCfg 0 14 5 } none

/-- A packet of a type to a node, with the fields that are the same in every type. -/
def mkPkt (typ dst part : Nat) : Packet :=
  { typ := typ, vc := (vcOf typ).getD 0, dclass := false, dst := dst, src := 0, part := part, hops := 0, enc := encrypted typ, last := true
    retry := false, reqId := 0, mapgen := 0, addr := 0, seq := 0, epoch := 0, index := 0, status := 0, payload := [], trailer := none }

/-- A message cut into packets of 1,024 payload bytes, numbered by SEQ (R433). -/
def splitPkts (p : Packet) (b : List Byte) : List Packet :=
  let l := chunks 1024 (max 1 (ceilDiv b.length 1024)) b
  l.zipIdx.map fun x => { p with payload := slice x.1 0 (16 * ceilDiv x.1.length 16), seq := x.2, last := x.2 + 1 == l.length }

/-- Bytes filled up to a whole number of 16-byte units with null slot IDs (log entry 33). -/
def padSlots (b : List Byte) : List Byte := b ++ List.replicate (16 * ceilDiv b.length 16 - b.length) 0xFF

/-- Twill transfers count at the requesting node: the payload of its requests and of the responses to them (R362, R327; the
payload alone: log entry 119). -/
def twillCharge (s : State) (p : Packet) : State := charge s p.part tTF p.payload.length

/-- A message sent; a request is charged to the partition's TF regulator. -/
def sendMsg (s : State) (l : List Packet) : State :=
  l.foldl (fun s p => sendPkt (if isResponse p.typ ∨ p.vc = 0 then s else twillCharge s p) p) s

/-- A request sent: it takes the next REQ_ID and stays outstanding (R437). A request to a node that is marked unreachable
is answered at once with NODE_UNREACHABLE (R471). -/
def sendRequest (s : State) (kind : ReqKind) (l : List Packet) (query forwards : Nat) (stale : Bool) (slots : List Nat) : State × Nat :=
  let n := s.twill.nextReq
  let l := l.map fun p => { p with reqId := n }
  let r : OutReq := { kind := kind, pkts := l, resent := false, forwards := forwards, staleOnce := stale, query := query, got := [], slots := slots }
  let s := s.mapTwill fun t => { t with out := t.out.put n r, nextReq := (n + 1) % 2 ^ 48 }
  match l.head? with
  | some p =>
    if s.own.unreachable.contains p.dst then (deliver s { undeliveredOf s { p with src := nodeId s, retry := true } with src := p.dst }, n)
    else (sendMsg s l, n)
  | none => (s, n)

/-! ### Compositions: servers of segments, ledger (R446, R455, R456, R459) -/

/-- Entry fields of a segment table entry. -/
def segHolder (e : Nat) : Nat := bits e 0 17
def segNum (e : Nat) : Nat := bits e 17 8
def segOwner (e : Nat) : Nat := bits e 25 17

/-- Ledger key. -/
def ledgerKey (comp seg holder : Nat) : Nat := 2 ^ 25 * comp + 2 ^ 17 * seg + holder
/-- Ledger entry. -/
def State.token (s : State) (k : Nat) : LedgerEnt := s.own.ledger.getD k LedgerEnt.initial
/-- Ledger entry written; a change of state ends the reports of an unresolved segment (R636). -/
def State.setToken (s : State) (k : Nat) (e : LedgerEnt) : State := s.mapOwn fun o => { o with
  ledger := o.ledger.store LedgerEnt.initial k e
  unresolved := if (o.ledger.getD k LedgerEnt.initial).st == e.st then o.unresolved else o.unresolved.del k }
/-- The node serves the segment (R455), and takes new requests for it (R463). -/
def servesSeg (s : State) (k : Nat) : Bool := ((s.token k).st == .held || (s.token k).st == .offered) && (s.token k).ceasing.isNone

/-- The generation of a composition that a MAPGEN names. -/
def genNamed (c : Comp) (mapgen : Nat) : Option MapGen :=
  if genMapgen c.now = mapgen then some c.now else c.prev.bind fun g => if genMapgen g = mapgen then some g else none

/-- The node that serves a slot of a shard of this node, under a map generation: this node where the index is in no
composition. -/
def serverOf (s : State) (part index mapgen slot : Nat) : Nat :=
  match compOf s part index with
  | none => nodeId s
  | some (_, c) =>
    let g := (genNamed c mapgen).getD c.now
    ((g.entries.find? fun e => segHolder e == nodeId s && segNum e == slot / 2 ^ 24).map segOwner).getD (nodeId s)

/-- A slot is scored and expanded here: its server is this node, which holds the segment's token. -/
def localSlot (s : State) (part index mapgen slot : Nat) : Bool :=
  match compOf s part index with
  | none => true
  | some (k, _) => serverOf s part index mapgen slot == nodeId s && servesSeg s (ledgerKey k (slot / 2 ^ 24) (nodeId s))

end Sys2Proof.Machine
end

