-- ==== Sys2Proof/Machine/ModelOps.lean ====
section
/-! DEFINITION. Bindings in force, availability of models, and the submission of sequences to batches (02_structure_images
R47, 10_bracken_engine R297, 11_model_execution R307, R313, R315, R325). -/
namespace Sys2Proof.Machine
open Sys2Proof

/-- Whether a model can run now. -/
inductive Avail where
  | ready (img : List Byte)
  | copying
  | missing
  deriving DecidableEq, Repr

/-- Availability of the model of a role: present, its role set, resident with a complete copy, its group formed (R307).
While the copy runs, a command waits; without room there is no copy. -/
def modelAvail (s : State) (p : Nat) (r : Role) (e : Nat) : Avail :=
  match bindingIn s p r e with
  | none => .missing
  | some f => match storedImage s f.digest with
    | none => .missing
    | some b =>
      if s.model.lost.contains f.digest ∨ !bit (miRoles b) (roleCode r - 1) ∨ (miSplit b > 1 ∧ (groupOf s b).isNone) then .missing
      else match residentOf s f.digest with
        | none => .missing
        | some x => if x.done then .ready b else .copying

/-- Tokens meet R315 under an image and a profile, or only the bound of 1 to 8,192 where there is no image. -/
def tokensOk (img : Option (List Byte)) (profile : Nat) (t : List Nat) : Bool :=
  match img with
  | none => decide (1 ≤ t.length) && decide (t.length ≤ 8192)
  | some b => decide (1 ≤ t.length) && decide (t.length ≤ miMaxSeq b) && decide (t.length ≤ miBtok b profile) && t.all fun x => decide (x < miVocab b)

/-- Tokens of a byte string. -/
def tokensOf (b : List Byte) : List Nat := (wordsAt b 0 (b.length / 4)).map (·.toNat)

/-- Tokens that a batch holds. -/
def batchTokens (x : Batch) : Nat := x.seqs.foldl (fun n q => n + q.tokens.length) 0

/-- A message to a member of a model group, under the partition's Twill key (R327, R328). -/
def toMember (s : State) (d part : Nat) (body : List Byte) : State :=
  (sendMsg s (splitPkts { mkPkt 0xB d part with reqId := s.twill.nextReq } body)).mapTwill fun t => { t with nextReq := (t.nextReq + 1) % 2 ^ 48 }

/-- A batch that this node leads closes: its token sequences and its closure go to the other members of the model's group
(R313, R328). -/
def closeBatch (s : State) (n : Nat) : State :=
  match s.model.batches.find? fun b => b.num == n with
  | none => s
  | some b =>
    if b.closed then s else
    let s := s.mapModel fun m => { m with batches := m.batches.map fun x => if x.num = n then { x with closed := true } else x }
    match (storedImage s b.digest).bind fun i => if miSplit i > 1 then groupOf s i else none with
    | none => s
    | some (_, g) => (g.nodes.filter (· != nodeId s)).foldl (fun s d => toMember s d b.part (Config.batchMsg (b.seqs.map (·.tokens)))) s

/-- A sequence submitted: it joins the forming batch of its model, role and partition, or begins one; a full batch closes
(R313). -/
def submitSeq (s : State) (p : Nat) (r : Role) (img : List Byte) (profile : Nat) (q : Seqn) : State :=
  let d := miDigest img
  let cap := miBtok img profile
  let mine (x : Batch) : Bool := x.digest == d && x.role == r && x.part == p && !x.closed && x.lead.isNone
  let fits (x : Batch) : Bool := decide (x.seqs.length < 16) && decide (batchTokens x + q.tokens.length ≤ cap)
  match s.model.batches.find? fun x => mine x && fits x with
  | some y =>
    let s := s.mapModel fun m => { m with batches := m.batches.map fun x => if x.num = y.num then { x with seqs := x.seqs ++ [q] } else x }
    if y.seqs.length + 1 ≥ 16 ∨ batchTokens y + q.tokens.length ≥ cap then closeBatch s y.num else s
  | none =>
    let s := ((s.model.batches.filter mine).map (·.num)).foldl closeBatch s
    let n := s.model.nextBatch
    let s := s.mapModel fun m => { m with
      batches := m.batches ++ [{ num := n, digest := d, role := r, part := p, seqs := [q], closed := false, cluster := none, lane := none
                                 rerun := false, lead := none, sent := [] }]
      nextBatch := n + 1 }
    if q.tokens.length ≥ cap then closeBatch s n else s

/-- Tiers that a command running a model needs: host memory, and Twill for a split model (R327, R363). -/
def runTiers (img : Option (List Byte)) : List Nat := tT4 :: if (img.map miSplit).getD 1 > 1 then [tTF] else []

/-- Profile under which a batch runs: that of its commands, or of the binding for a batch that another member leads. -/
def batchProfile (s : State) (b : Batch) : Nat :=
  match b.lead, (b.seqs.head?).bind fun q => s.host.cmds.get q.src.1 with
  | none, some c => c.prof
  | _, _ => ((bindingIn s b.part b.role s.epoch.cur).map (·.profile)).getD 0

/-- A batch number's batch. -/
def batchOf (s : State) (n : Nat) : Option Batch := s.model.batches.find? fun b => b.num == n

end Sys2Proof.Machine
end

