-- ==== Sys2Proof/Machine/Selection.lean ====
section
/-! DEFINITION. Lists, selection and merging (08_muslin_selection R228 to R246), and the scratchpad pages that queries and
batches hold (06_search_walk R164, 11_model_execution R314, 12_memory_tiers R340). -/
namespace Sys2Proof.Machine
open Sys2Proof

/-! ### Orders -/

/-- V of an entry (R230). -/
def LEnt.v (e : LEnt) : Nat := e.key * 2 ^ 64 + e.gid

/-! ### Selection (R231, R233 to R235) -/

/-- Bit length of a number. -/
def bitLen (n : Nat) : Nat := if n = 0 then 0 else Nat.log2 n + 1

/-- One pass of R233 after another, at most 12: entries kept, undecided entries, how many are still needed, passes run. -/
def selectPass : Nat → List LEnt → List LEnt → Nat → Nat → List LEnt × List LEnt × Nat × Nat
  | 0, keep, u, need, n => (keep, u, need, n)
  | f + 1, keep, u, need, n =>
    let lo := u.foldl (fun a e => min a e.v) (2 ^ 96)
    let hi := u.foldl (fun a e => max a e.v) 0
    let p := bitLen (lo ^^^ hi)
    let digit (e : LEnt) : Nat := bits e.v (p - 8) (min p 8)
    let below (v : Nat) : Nat := (u.filter fun e => decide (digit e ≤ v)).length
    let v := ((List.range 256).find? fun v => decide (below v ≥ need)).getD 255
    let low := u.filter fun e => decide (digit e < v)
    let u' := u.filter fun e => digit e == v
    let need' := need - low.length
    if u'.length = need' ∨ u'.length ≤ 2048 then (keep ++ low, u', need', n + 1)
    else selectPass f (keep ++ low) u' need' (n + 1)

/-- The k best entries, the passes and the sorter runs that the selection took (R233). -/
def select (l : List LEnt) (k : Nat) : List LEnt × Nat × Nat :=
  if l.length ≤ k then (l, 0, 0)
  else
    let r := selectPass 12 [] l k 0
    if r.2.1.length > r.2.2.1 then (r.1 ++ (sortAsc LEnt.v r.2.1).take r.2.2.1, r.2.2.2, 1)
    else (r.1 ++ r.2.1, r.2.2.2, 0)

/-- Finalization: the k best entries by V (R235). -/
def finalize (l : MList) : List LEnt := (sortAsc LEnt.v l.ents).take l.k

/-- Passes and sorter runs of the selection that a finalization makes (R231, R234). -/
def finalCost (l : MList) : Nat × Nat := (select l.ents l.k).2

/-- An entry arrives at a list: dropped against the bound, or stored, and a full list compacts (R231). Answers the list,
whether the entry was stored, and the passes and sorter runs. -/
def MList.add (l : MList) (e : LEnt) : MList × Bool × Nat × Nat :=
  if l.bound.any fun b => decide (b ≤ e.v) then (l, false, 0, 0)
  else
    let es := l.ents ++ [e]
    if es.length < 2 * l.k then ({ l with ents := es }, true, 0, 0)
    else
      let r := select es l.k
      ({ l with ents := r.1, bound := if r.1.length = l.k then some (r.1.foldl (fun m x => max m x.v) 0) else l.bound }, true, r.2.1, r.2.2)

/-! ### Scratchpad pages (R164, R232, R314, R340) -/

/-- 4 KiB pages of an area. -/
def pagesFor (n : Nat) : Nat := ceilDiv n 4096

/-- Pages of a query: walk area and list areas. -/
def queryPages (q : Query) : Nat :=
  pagesFor (32768 + 16 * q.list + 4096) + pagesFor (32 * q.stream.k) + (if q.kind = .insert then 0 else pagesFor (32 * q.node.k))

/-- Width of a layer's int8 output, zero where it has none (R293). -/
def int8Width (b : List Byte) (l : LayerRec) : Nat :=
  if l.outf ≠ 1 then 0
  else if l.typ = 3 ∨ l.typ = 4 then l.inDim
  else if l.typ = 7 then (l.arg + 1) * miHeadDim b
  else l.outDim

/-- Pages of a batch: its staging area, under the profile of its commands (R297, R314). -/
def batchPages (s : State) (b : Batch) : Nat :=
  match storedImage s b.digest with
  | none => 0
  | some i => pagesFor (miBtok i (batchProfile s b) * (layerRecs i).foldl (fun n l => max n (int8Width i l)) 0)

/-- Pages that a partition has in use. -/
def pagesUsed (s : State) (p : Nat) : Nat :=
  (s.host.queries.filter fun e => e.2.part == p && e.2.tile.isSome).foldl (fun n e => n + queryPages e.2) 0 +
    (s.model.batches.filter fun b => b.part == p && b.cluster.isSome).foldl (fun n b => n + batchPages s b) 0

/-- Pages of the scratchpad units of a partition that serve. -/
def pagesTotal (s : State) (p : Nat) : Nat := 1024 * ((scratchUnits s p).filter fun u => !s.fencedUnit 0x06 (u % 24)).length

/-! ### Result bytes (R243, R245) -/

/-- A result entry. -/
def resultEntry (e : LEnt) : List Byte := natLe 8 e.gid ++ natLe 4 e.key ++ natLe 4 (b2n e.fresh + 2 * b2n e.suspect)

/-- The sentinel. -/
def sentinel : List Byte := natLe 8 0xFFFFFFFFFFFFFFFF ++ natLe 4 0xFFFFFFFF ++ natLe 4 0

/-- Result entries with sentinels up to `k`. -/
def resultBytes (l : List LEnt) (k : Nat) : List Byte :=
  (l.take k).flatMap resultEntry ++ ((List.range (k - l.length)).flatMap fun _ => sentinel)

/-- Per-node lists with their header entries, and sentinels up to the end of the buffer. -/
def hostMergeBytes (lists : List (Nat × Nat × List LEnt)) (n : Nat) : List Byte :=
  let l := (sortAsc (fun x => x.1) lists).flatMap fun x =>
    (natLe 8 (x.1 + x.2.2.length * 2 ^ 17 + x.2.1 * 2 ^ 34) ++ natLe 4 0xFFFFFFFF ++ natLe 4 0) ++ x.2.2.flatMap resultEntry
  l ++ (List.range (n - l.length / 16)).flatMap fun _ => sentinel

/-- The merge of R240: entries in V order, an ID once, up to TOPK; with the number of duplicates dropped. Of copies with one
key the list that stands first gives its own. -/
def mergeLists (k : Nat) (l : List LEnt) : List LEnt × Nat :=
  (sortAsc LEnt.v l).foldl (fun (a : List LEnt × Nat) e =>
    if a.1.length ≥ k then a else if a.1.any fun x => x.gid == e.gid then (a.1, a.2 + 1) else (a.1 ++ [e], a.2)) ([], 0)

/-- Lists in groups of `n`. -/
def groupLists (n : Nat) : Nat → List (List LEnt) → List (List (List LEnt))
  | 0, _ => []
  | f + 1, l => if l.isEmpty then [] else l.take n :: groupLists n f (l.drop n)

/-- The merge of a query's node lists, in groups of `fanin` lists with intermediate lists of TOPK entries (R238). Answers the
composition list and the duplicates dropped on the way; each level has fewer lists, and their number bounds the levels. -/
def mergeTree (fanin k : Nat) : Nat → List (List LEnt) → Nat → List LEnt × Nat
  | 0, l, d => let m := mergeLists k l.flatten; (m.1, d + m.2)
  | f + 1, l, d =>
    if l.length ≤ fanin then let m := mergeLists k l.flatten; (m.1, d + m.2)
    else
      let g := (groupLists fanin l.length l).map fun x => mergeLists k x.flatten
      mergeTree fanin k f (g.map (·.1)) (d + (g.map (·.2)).sum)

/-- The composition list of node lists, which the merge reads in ascending node order; its entries hold no slot (R230, R238,
R240). -/
def composeLists (fanin k : Nat) (lists : List (Nat × Nat × List LEnt)) : List LEnt × Nat :=
  let l := (sortAsc (·.1) lists).map fun x => x.2.2.map fun e => { e with slot := 0 }
  mergeTree (max 2 fanin) k l.length l 0

/-! ### Statuses across nodes (R244, R549) -/

/-- Place of a status in the order of R549; a status that the order does not name comes last (log entry 20). -/
def rank549 (st : Nat) : Nat :=
  if st = stEpochExpired then 0 else if st = stPartition then 1 else if st = stInvalid then 2 else if st = stUnresolved then 3
  else if st = stUnreachable then 4 else if st = stStaleMap then 5 else if st = stFaultedNone ∨ st = stFaultedPartial then 6
  else if st = stDeadline then 7 else 8

/-- STATUS of a query from the statuses of its parts, the count and TOPK. -/
def status549 (l : List Nat) (count topk : Nat) : Nat :=
  let bad := l.filter fun x => x != stOk && x != stOkShort
  match sortAsc rank549 bad with
  | [] => if count < topk then stOkShort else stOk
  | x :: _ => if x = stFaultedNone ∨ x = stFaultedPartial then (if count = 0 then stFaultedNone else stFaultedPartial) else x

end Sys2Proof.Machine
end

