-- ==== Sys2Proof/Machine/Search.lean ====
section
/-! DEFINITION. SEARCH and SWEEP: checks, plan, walk, sweeps, rescoring, deadlines, merge and completion (06_search_walk,
18_command_set R541 to R550). -/
namespace Sys2Proof.Machine
open Sys2Proof

/-! ### Modes (R23, R55) -/

/-- A partition's function was host-assisted when a command was admitted: 0 Felt, 1 planner, 2 linking, 3 merge, 4
histogram. -/
def Cmd.mode (c : Cmd) (i : Nat) : Bool := bit c.modes.1 i
/-- A partition's function is host-assisted now. -/
def hostMode (s : State) (p i : Nat) : Bool := bit (cfgModes s.img.cfg p) i
/-- A device function is host-assisted now: 0 composition agent, 1 power. -/
def devMode (s : State) (i : Nat) : Bool := bit (cfgDevModes s.img.cfg) i

/-! ### Parameters (R160, R542, R545) -/

/-- Search parameters with the zero meanings filled in. -/
structure SParams where
  topk : Nat
  list : Nat
  beam : Nat
  rescore : Nat
  maxRounds : Nat
  deadline : Nat
  plan : Nat
  rr : Nat
  tokens : Bool
  filter : List Nat
  deriving DecidableEq, Repr

/-- Parameters of a block under PLN_PCFG of the stamp's epoch. -/
def searchParams (pcfg : Nat) (b : List Byte) : SParams :=
  let topk := field b 0 4
  let z (v d : Nat) : Nat := if v = 0 then d else v
  { topk := topk, list := z (field b 4 2) (bits pcfg 5 13), beam := z (field b 6 1) (bits pcfg 18 4), rescore := z (field b 8 4) (max topk 64)
    maxRounds := field b 0x0C 2, deadline := field b 0x10 4, plan := field b 7 1, rr := field b 0x14 2, tokens := bit (field b 0x0F 1) 0
    filter := (List.range (field b 0x0E 1)).map fun i => field b (0x20 + 8 * i) 8 }

/-- The block keeps to R160, R542, R545 and, where the shard is here, R146. -/
def paramsOk (b : List Byte) (p : SParams) (sweep : Bool) (sh : Option Shard) : Bool :=
  decide (b.length = 128) && decide (1 ≤ p.topk) && decide (p.topk ≤ 65536) && decide (16 ≤ p.list) && decide (p.list ≤ 4096) &&
    decide (1 ≤ p.beam) && decide (p.beam ≤ 8) && decide (p.topk ≤ p.rescore) && decide (p.rescore ≤ 65536) &&
    decide (p.deadline ≤ 1000000) && decide (p.plan < 3) && decide (field b 0x0E 1 ≤ 8) && decide (field b 0x0F 1 < 2) &&
    decide (p.rr ≤ 1024) && decide (p.rr ≤ p.topk) && zeroAt b 0x16 10 && zeroAt b 0x60 32 &&
    zeroAt b (0x20 + 8 * p.filter.length) (64 - 8 * p.filter.length) &&
    (!sweep || (zeroAt b 4 4 && field b 0x0C 2 == 0)) &&
    (match sh with | some h => p.filter.all (termOk h.desc.schema h.desc.ncol) | none => p.filter.all termFormOk)

/-! ### The planner (R182 to R184) -/

/-- BIN word of a histogram. -/
def histBin (h : Hist) (c i : Nat) : Nat := h.words.getD (4 + 288 * c + i) 0
/-- BITS word of a histogram. -/
def histBit (h : Hist) (c i : Nat) : Nat := h.words.getD (260 + 288 * c + i) 0

/-- e(t) for LT of an order value (R182). -/
def estLt (h : Hist) (c w v : Nat) : Nat :=
  let sc := 2 ^ (w - 8)
  ((List.range (v / sc)).map (histBin h c)).sum + histBin h c (v / sc) * (v % sc) / sc

/-- e(t) of a term without NEG. -/
def estPlain (schema : List Nat) (h : Hist) (t : Nat) : Nat :=
  let c := termCol t
  let w := colWidth (schema.getD c 0)
  let v := orderValue (schema.getD c 0) (termConst t % 2 ^ w)
  let set := ((List.range w).filter (bit (termConst t))).map (histBit h c)
  match termOp t with
  | 0 => histBin h c (v / 2 ^ (w - 8)) / 2 ^ (w - 8)
  | 1 => estLt h c w v
  | 2 => if v = 2 ^ w - 1 then h.nLive else estLt h c w (v + 1)
  | 3 => min h.nLive set.sum
  | _ => match set with
    | [] => h.nLive
    | x :: l => l.foldl min x

/-- Items that a filter is estimated to pass. -/
def estimate (schema : List Nat) (h : Hist) (filter : List Nat) : Nat :=
  filter.foldl (fun e t =>
    let x := estPlain schema h t
    if h.nLive = 0 then 0 else e * (if termNeg t then h.nLive - x else x) / h.nLive) h.nLive

/-- The choice of R183: true for SWEEP. -/
def planSweep (schema : List Nat) (h : Hist) (p : SParams) (selShift : Nat) : Bool :=
  if p.plan = 1 then false else if p.plan = 2 then true
  else if p.filter.isEmpty then false
  else decide (estimate schema h p.filter * 2 ^ selShift < h.nLive)

/-- Sweep mask of a filter (R184). -/
def sweepMask (sh : Shard) (filter : List Nat) : Nat :=
  ((sh.desc.tagRules.take sh.desc.ntag).zipIdx).foldl (fun n x => if filter.contains x.1 then n + 2 ^ x.2 else n) 0

/-- Histogram of an epoch. -/
def histOf (sh : Shard) (e : Nat) : Hist := sh.frozen.getD e { host := false, reused := false, nLive := 0, words := [] }

/-! ### Checks before any stage (R544) -/

/-- The model of a role can run for a command, or the status that says why not; an error without a status is a wait. -/
def needModel (s : State) (c : Cmd) (r : Role) : Except (Option Nat) Unit :=
  match modelAvail s c.part r c.local_ with
  | .ready _ => .ok ()
  | .copying => .error none
  | .missing => .error (some stModelUnavailable)

/-- A binding of a role exists under another profile (R297). -/
def profileClash (s : State) (c : Cmd) (r : Role) : Bool := ((bindingIn s c.part r c.local_).map fun f => f.profile != c.prof).getD false

/-- Nodes that hold a segment of a command's set, ascending (R449, R453). -/
def holders (s : State) (c : Cmd) : List Nat :=
  match c.comp.bind fun k => s.own.comps.get k with
  | none => [nodeId s]
  | some k => match genFor k c.epoch with
    | none => []
    | some g => sortAsc id ((g.entries.map segHolder).foldl addSet [])

/-- Why a SEARCH or SWEEP does not begin: it completes with a status, after the event of the check that failed, or it waits for
a model. -/
inductive SearchStop where
  | ends (st : Nat)
  | planRejected
  | profileDiffers
  | waits
  deriving DecidableEq, Repr

/-- A model that a command needs, as a check of R544. -/
def modelCheck (s : State) (c : Cmd) (need : Bool) (r : Role) : Except SearchStop Unit :=
  if !need then .ok () else match needModel s c r with
    | .ok _ => .ok ()
    | .error none => .error .waits
    | .error (some st) => .error (.ends st)

/-- Checks 1 to 9 of R544, in order. -/
def searchCheck (s : State) (c : Cmd) (sweep : Bool) : Except SearchStop Unit := do
  let sh := shardOf s c.part (eIndex c.entry)
  let b := paramBlock s c.entry
  let p := searchParams c.pcfg.toNat b
  let bad (x : Bool) (st : Nat) : Except SearchStop Unit := if x then .error (.ends st) else .ok ()
  bad (sh.isNone && c.comp.isNone) stInvalid
  bad ((sh.map fun h => !serving h).getD false) stInvalid
  bad ((sh.map (·.lost)).getD false) stFaultedNone
  bad (!paramsOk b p sweep sh) stInvalid
  if !sweep && c.mode 1 && p.plan == 0 then .error .planRejected else .ok ()
  bad (decide (p.rr > 0) && (!p.tokens || c.mode 3)) stInvalid
  let vf := bits (eArg0 c.entry) 0 2
  let dim := (sh.map fun h => nrDim h.desc.numrec).getD (eDataLen c.entry / max 1 (vfmtBytes vf))
  let room := if c.mode 3 ∧ c.comp.isSome then 16 * ((holders s c).length * (p.topk + 1)) else 16 * (p.topk + p.rr)
  bad (decide (vf = 3) || (p.tokens && decide (vf ≠ 0)) || decide (eResultLen c.entry < room)) stInvalid
  if p.tokens then
    bad (decide (eDataLen c.entry % 4 ≠ 0) ||
      !tokensOk (boundImage s c.part .query c.local_) c.prof (tokensOf (inputData s c.entry))) stInvalid
  else bad (decide (eDataLen c.entry ≠ dim * vfmtBytes vf)) stInvalid
  bad (decide (c.local_ = 0) || !c.kept ||
    (sh.map fun h => decide (c.local_ < h.firstServing)).getD false || (c.comp.isSome && (holders s c).isEmpty)) stEpochExpired
  if (p.tokens && profileClash s c .query) || (decide (p.rr > 0) && profileClash s c .rerank) then .error .profileDiffers else .ok ()
  modelCheck s c p.tokens .query
  modelCheck s c (decide (p.rr > 0)) .rerank

/-! ### The end of the search part, and the chained rerank (R243 to R246, R540, R546 to R548) -/

/-- TOPK, RR_DEPTH of a search command. -/
def cmdParams (s : State) (c : Cmd) : SParams := searchParams c.pcfg.toNat (paramBlock s c.entry)

/-- Rerank entries of 16 bytes (R560). -/
def rerankEntry (gid key : Nat) (fresh noLat absent : Bool) : List Byte :=
  natLe 8 gid ++ natLe 4 key ++ natLe 4 (b2n fresh + 2 * b2n noLat + 4 * b2n absent)

/-- Rerank key of a score (R324). -/
def rerankKey (g : W32) : Nat := orderKey (fNeg g)

/-- The rerank entries of a finished rerank: reranked ones by (key, GID), then the others in input order. -/
def rerankBytes (r : Rerank) : List Byte × Nat :=
  let done := (r.cands.zipIdx).filterMap fun x => (r.scores.get x.2).map fun g => { x.1 with key := rerankKey g }
  let rest := ((r.cands.zipIdx).filter fun x => !r.scores.has x.2).map (·.1)
  ((sortAsc LEnt.v done).flatMap (fun e => rerankEntry e.gid e.key e.fresh false false) ++
    rest.flatMap (fun e => rerankEntry e.gid 0xFFFFFFFE e.fresh true e.suspect), done.length)

/-- The latent record of a slot, where it is readable in an epoch (R321). -/
def latentFor (s : State) (sh : Shard) (x f : Nat) : Option (List Byte) :=
  let ht := headTail sh f
  let st := slotState sh x f ht.1 ht.2
  if st = .graph ∨ st = .fresh then (sh.latents.get x).map (spansRead s) else none

/-- A rerank whose last score is in ends its command: a chained one fills the second part of a search result (R546,
R547), a RERANK the whole result (R560). -/
def rerankEnd (s : State) (r : Rerank) (failed : Nat) : State :=
  match s.host.cmds.get r.cmd with
  | none => s
  | some c =>
    let s := s.mapHost fun h => { h with reranks := h.reranks.filter fun x => x.cmd != r.cmd }
    let out := rerankBytes r
    if eOpcode c.entry = 0x22 then
      if failed ≠ 0 then endWith s r.cmd failed else finish (putResult s r.cmd 0 out.1) r.cmd stOk out.2 0
    else
      let p := cmdParams s c
      let n := if failed ≠ 0 then 0 else out.2
      let body := if n = 0 then [] else out.1.take (16 * n)
      let b := body ++ (List.range (p.rr - n)).flatMap fun _ => rerankEntry 0xFFFFFFFFFFFFFFFF 0xFFFFFFFF false false false
      let cf := c.cflags + (if n = 0 then 2 ^ 10 else 0) + (if failed ≠ 0 then 2 ^ 12 else 0)
      finish (putResult s r.cmd (16 * p.topk) b) r.cmd c.status (c.progress + n * 2 ^ 17) cf

/-- A score of a rerank came back; with the last of the candidates submitted (their `a` is 1) it ends. -/
def rerankScore (s : State) (n place : Nat) (g : W32) : State :=
  match s.host.reranks.find? fun r => r.cmd == n with
  | none => s
  | some r =>
    let r := { r with scores := r.scores.put place g }
    let s := s.mapHost fun h => { h with reranks := h.reranks.map fun x => if x.cmd = n then r else x }
    if (r.cands.zipIdx.all fun x => x.1.a != 1 || r.scores.has x.2) then rerankEnd s r 0 else s

/-- A rerank begins: each candidate with a readable latent is one sequence (R324). -/
def startRerank (s : State) (n : Nat) (c : Cmd) (cands : List LEnt) (tokens : List Nat) : State :=
  match modelAvail s c.part .rerank c.local_ with
  | .ready img =>
    let readable (e : LEnt) : Bool := ((shardOf s c.part (eIndex c.entry)).bind fun sh => latentFor s sh e.slot c.local_).isSome
    let cands := cands.map fun e => { e with a := if e.slot != nullSlot && readable e then 1 else 0 }
    let r : Rerank := { cmd := n, cands := cands, scores := [], tokens := tokens }
    let s := s.mapHost fun h => { h with reranks := h.reranks ++ [r] }
    let go := (cands.zipIdx).filter fun x => x.1.a == 1
    if go.isEmpty then rerankEnd s r 0
    else go.foldl (fun s x => submitSeq s c.part .rerank img c.prof { src := (n, x.2), tokens := tokens, slot := x.1.slot }) s
  | _ => rerankEnd s { cmd := n, cands := [], scores := [], tokens := [] } stModelUnavailable

/-- The search part of a command has ended with these node lists (node, status, entries): the lists of a merge, or the one list
that is the result (R237, R238). -/
def searchEnd (s : State) (n : Nat) (lists : List (Nat × Nat × List LEnt)) (merged suspect disagree missing swept : Bool) : State :=
  match s.host.cmds.get n with
  | none => s
  | some c =>
    let p := cmdParams s c
    let hm := c.mode 3 && c.comp.isSome
    let m := if merged then composeLists (s.fld .mslCfg 0 0 9) p.topk lists else (lists.flatMap fun x => x.2.2, 0)
    let count := if hm then lists.length else m.1.length
    let st := status549 (lists.map fun x => x.2.1) m.1.length p.topk
    let ok := st == stOk || st == stOkShort
    let s := if m.2 > 0 ∧ !hm then (s.event .mslEvent 0 1).bump .mslPDups c.part m.2 else s
    let s := if st = stOkShort then s.bump .mslPShort c.part 1 else s
    let s := if st = stDeadline then s.bump .wlkTruncCount c.part 1 else s
    let s := putResult s n 0 (if hm then hostMergeBytes lists (eResultLen c.entry / 16) else resultBytes m.1 p.topk)
    let cf := c.cflags ||| (b2n suspect + 2 * b2n disagree + b2n missing * 2 ^ 9 + b2n hm * 2 ^ 11)
    let pr := count + b2n swept * 2 ^ 28
    if p.rr = 0 then finish s n st pr cf
    else if !ok then
      finish (putResult s n (16 * p.topk) ((List.range p.rr).flatMap fun _ => rerankEntry 0xFFFFFFFFFFFFFFFF 0xFFFFFFFF false false false))
        n st pr (cf + 2 ^ 10)
    else
      let s := s.updCmd n fun c => { c with status := st, progress := pr, cflags := cf }
      let sh := shardOf s c.part (eIndex c.entry)
      let place (e : LEnt) : Nat := if merged then (sh.bind fun h => idSlot s h e.gid).getD nullSlot else e.slot
      startRerank s n c ((m.1.take p.rr).map fun e => { e with slot := place e, suspect := false }) (tokensOf (inputData s c.entry))

/-- A merge whose last awaited list has come ends its command's search part (R239). -/
def mergeCheck (s : State) (n : Nat) : State :=
  match s.host.merges.find? fun m => m.cmd == n with
  | none => s
  | some m =>
    if !m.wait.isEmpty then s else
    let s' := s.mapHost fun h => { h with merges := h.merges.filter fun x => x.cmd != n }
    let hm := ((s.host.cmds.get n).map fun c => c.mode 3).getD false
    let s' := if hm then s' else s'.bump .mslUEntries (16 + m.unit) (m.lists.map fun x => x.2.2.length).sum
    let missing := m.lists.any fun x => x.2.1 == stUnreachable && x.2.2.isEmpty && x.1 != nodeId s
    searchEnd s' n m.lists true m.suspect (bit (((s.host.cmds.get n).map (·.cflags)).getD 0) 1) missing
      (bit (((s.host.cmds.get n).map (·.progress)).getD 0) 28)

/-- A merge with one more node's list; a node that is not awaited changes nothing. -/
def mergeAdd (m : Merge) (node st : Nat) (l : List LEnt) (suspect : Bool) : Merge :=
  if m.wait.any (· == node) then
    { m with wait := delSet m.wait node, lists := m.lists ++ [(node, st, l)], suspect := m.suspect || suspect }
  else m

/-- A node's list reaches the merge of a command (R238, R239). -/
def mergeList (s : State) (n node st : Nat) (l : List LEnt) (suspect : Bool) : State :=
  mergeCheck (s.mapHost fun h =>
    { h with merges := h.merges.map fun m => if m.cmd == n then mergeAdd m node st l suspect else m }) n

/-! ### The end of a query on a node (R188, R237, R244, R441) -/

/-- Status of a query on this node. -/
def queryStatus (q : Query) (count : Nat) : Nat :=
  status549 ((if q.status ≠ 0 then [q.status] else []) ++ (if q.partial_ then [stFaultedPartial] else []) ++
    (if q.late then [stDeadline] else [])) count q.topk

/-- Requesting node, REQ_ID of a served QUERY, from its key. -/
def servedNode (k : Nat) : Nat := k / 2 ^ 48
def servedReq (k : Nat) : Nat := k % 2 ^ 48

/-- A LIST message to the node that sent a QUERY (R433, R441). -/
def sendList (s : State) (key part index epoch st : Nat) (l : List LEnt) (suspect : Bool) : State :=
  let p := { mkPkt 0xA (servedNode key) part with
    reqId := servedReq key, epoch := epoch, index := index, status := st, addr := l.length + b2n suspect * 2 ^ 17 }
  sendMsg s (splitPkts p (l.flatMap resultEntry))

/-- A query leaves the node: sweeps, requests and its area are let go. -/
def dropQuery (s : State) (n : Nat) : State :=
  (dropRequests (dropSweeps s n) n).mapHost fun h => { h with queries := h.queries.del n }

/-- Counters of a list operation at the unit that holds a query's lists: entries stored, passes, sorter runs. -/
def countList (s : State) (q : Query) (stored passes sorts : Nat) : State :=
  let s := if stored > 0 then s.bump .mslUEntries q.unit stored else s
  let s := if passes > 0 then (s.bump .mslUPasses q.unit passes).bump .mslPPasses q.part passes else s
  if sorts > 0 then s.bump .mslUSorts q.unit sorts else s

/-- Counters of the finalization of a query's list (R231). -/
def countFinal (s : State) (q : Query) (l : MList) : State := countList s q 0 (finalCost l).1 (finalCost l).2

/-- A query's node list is final: it is the result, one list of a merge, or the answer to another node. -/
def endQuery (s : State) (n : Nat) : State :=
  match s.host.queries.get n with
  | none => s
  | some q =>
    let l := finalize q.node
    let st := queryStatus q l.length
    let s := dropQuery (countFinal s q q.node) n
    match q.kind with
    | .insert => s
    | .served =>
      let s := s.mapTwill fun t => { t with serving := t.serving.del q.owner }
      sendList s q.owner q.part q.index q.epoch st l q.suspect
    | .search =>
      let s := if q.partial_ then blameLoss s q.owner else s
      if (s.host.merges.any fun m => m.cmd == q.owner) then
        let s := s.updCmd q.owner fun c => { c with
          progress := b2n q.sweep * 2 ^ 28, cflags := if q.disagree then c.cflags ||| 2 else c.cflags }
        mergeList s q.owner (nodeId s) st l q.suspect
      else searchEnd s q.owner [(nodeId s, st, l)] false q.suspect q.disagree false q.sweep

/-! ### A query begins (R162, R168, R173, R175, R183, R441) -/

/-- A query whose plan is still to be made. -/
def blankQuery (kind : WalkKind) (owner part index epoch mapgen : Nat) (p : SParams) : Query :=
  { kind := kind, owner := owner, part := part, index := index, epoch := epoch, head := 0, tail := 0, q := [], sketch := []
    filter := p.filter, topk := p.topk, list := p.list, beam := p.beam, rescore := p.rescore, maxRounds := p.maxRounds, deadline := p.deadline
    sweep := false, mask := 0, tile := none, ctx := 0, unit := 0, pool := false, planned := false, walkDone := false, freshDone := true
    queue := [], visited := [], frontier := [], round := 0, listLast := none, remote := [], answers := [], arrivals := []
    stream := MList.new p.rescore, node := MList.new p.topk, reads := none, done := 0, late := false, suspect := false, disagree := false
    partial_ := false, status := 0, slot := nullSlot, mapgen := mapgen, deadSegs := [], noAttr := [], noAdj := [] }

/-- A query of a shard, planned. -/
def newQuery (kind : WalkKind) (owner : Nat) (sh : Shard) (epoch mapgen : Nat) (p : SParams) (sweep : Bool) : Query :=
  let ht := headTail sh epoch
  { blankQuery kind owner sh.part sh.index epoch mapgen p with
    head := ht.1, tail := ht.2, sweep := sweep, mask := sweepMask sh p.filter, planned := true, freshDone := decide (ht.1 ≤ ht.2) }

/-- A query put in place under the next number. -/
def addQuery (s : State) (q : Query) : State := s.mapHost fun h => { h with queries := h.queries.put h.nextQuery q, nextQuery := h.nextQuery + 1 }

/-- Change of a query. -/
def State.updQuery (s : State) (n : Nat) (f : Query → Query) : State := s.mapHost fun h => { h with queries := h.queries.upd n f }

/-- A query gets its vector and sketch, and joins its sweeps. -/
def queryReady (s : State) (n : Nat) (q : List W32) (sketch : List Byte) : State :=
  let s := s.updQuery n fun x => { x with q := q, sketch := sketch }
  match s.host.queries.get n with
  | some x => joinSweeps s n x
  | none => s

/-- Queries of a command, by number. -/
def queryOf (s : State) (n : Nat) : Option Nat := (s.host.queries.find? fun e => e.2.kind == .search && e.2.owner == n).map (·.1)

/-- REC_CRC of an index's numeric record here; where this node holds no shard of it, the record is another node's and the
value is free (log entry 19). -/
def recCrc (s : State) (sh : Option Shard) : Nat := ((sh.map fun h => nrCrc h.desc.numrec).getD (Config.freeNat s.free)) % 2 ^ 32

/-- µs that remain of a command's deadline: zero for none (R550). -/
def deadlineLeft (s : State) (c : Cmd) (deadline : Nat) : Nat :=
  if deadline = 0 then 0 else max 1 (deadline - rtcMicros c.at_ (rtc s))

/-- QUERY messages to the other holders of the segment set (R441, R453, R550). -/
def fanOut (s : State) (n : Nat) (c : Cmd) (q : List W32) (sketch : List Byte) : State :=
  let p := cmdParams s c
  let b := paramBlock s c.entry
  let b := patch (patch (patch b 0x0F [0]) 0x14 [0, 0]) 0x10 (natLe 4 (deadlineLeft s c p.deadline))
  let body := slice b 0 128 ++ slice sketch 0 160 ++ q.flatMap fun x => natLe 4 x.toNat
  let arg := eOpcode c.entry + recCrc s (shardOf s c.part (eIndex c.entry)) * 2 ^ 15
  ((holders s c).filter (· != nodeId s)).foldl (fun s node =>
    let k := { mkPkt 0x9 node c.part with mapgen := c.mapgen, epoch := c.epoch, index := eIndex c.entry, addr := arg }
    (sendRequest s .query (splitPkts k body) n 0 false []).1) s

/-- The vector of a command is in hand: check 10 of R544, then its own part and the fan-out begin. -/
def searchVector (s : State) (n : Nat) (c : Cmd) (x : List W32) : State :=
  let sh := shardOf s c.part (eIndex c.entry)
  let prep := match sh with
    | some h => if x.length = nrDim h.desc.numrec then prepareQuery h.desc.numrec x else none
    | none => if x.all fFinite then some (wordsAt (Config.freeBytes s.free (4 * x.length)) 0 x.length, slice (Config.freeBytes (s.free + 1) 160) 0 160) else none
  match prep with
  | none => endWith s n stInvalid
  | some (q, k) =>
    let s := if sh.isNone then s.drawn.drawn else s
    let hs := holders s c
    let away := hs.any (· != nodeId s)
    if away ∧ zeroRate s c.part tTF then zeroRateEnd s n else
    let s := if away then s.mapHost fun h => { h with merges := h.merges ++
        [{ cmd := n, unit := ((c.qp.getD 0 % 4 :: [1, 2, 3].map fun i => (c.qp.getD 0 + i) % 4).find? (s.serves 0x05)).getD (c.qp.getD 0 % 4)
           wait := hs, lists := [], suspect := false }] } else s
    let s := fanOut s n c q k
    match queryOf s n with
    | some j => if ((s.host.queries.get j).map (·.planned)).getD false then queryReady s j q k else mergeCheck (dropQuery s j) n
    | none => mergeCheck s n

/-- The planner takes queries: while its pair or its block is out, they wait (R591, R593). -/
def plannerReady (s : State) (p : Nat) : Bool := s.serves 0x11 0 && !s.blockOut 3 && !s.partOut 3 p

/-- A command that waits for the planner or for a model holds a query without a plan, whose deadline runs (R190, R593). -/
def searchWait (s : State) (n : Nat) (c : Cmd) : State :=
  let p := cmdParams s c
  if p.deadline = 0 ∨ (queryOf s n).isSome then s
  else addQuery s (blankQuery .search n c.part (eIndex c.entry) c.local_ c.mapgen p)

/-- The node's own part of a command, planned (R183); where it holds no shard there is none. -/
def planOwn (s : State) (n : Nat) (c : Cmd) (sweep : Bool) : State :=
  match shardOf s c.part (eIndex c.entry) with
  | none => s
  | some sh =>
    if !(holders s c).contains (nodeId s) then s else
    let p := cmdParams s c
    let h := histOf sh c.local_
    let sw := sweep || planSweep sh.desc.schema h p (bits c.pcfg.toNat 0 5)
    let s := s.updCmd n fun c => { c with cflags := if !sweep ∧ h.reused then 2 ^ 8 else 0 }
    let q := newQuery .search n sh c.local_ c.mapgen p sw
    let s := match queryOf s n with
      | some j => s.updQuery j fun _ => q
      | none => addQuery s q
    s.bump (if sw then .plnSweeps else .plnWalks) c.part 1

/-- The meaning that SEARCH and SWEEP share. -/
def searchCmd (s : State) (n : Nat) (c : Cmd) (sweep : Bool) : State :=
  match searchCheck s c sweep with
  | .error .waits => searchWait s n c
  | .error .planRejected => endWith (s.event .plnPevent c.part 1) n stInvalid
  | .error .profileDiffers => endWith (s.event .brkEvent 0 4) n stInvalid
  | .error (.ends st) => endWith s n st
  | .ok () =>
    if (!sweep ∧ !plannerReady s c.part) ∨ (!(cmdParams s c).tokens ∧ !vectorUnit s c.part) then searchWait s n c
    else onTiers s n c.part (runTiers (if (cmdParams s c).tokens then boundImage s c.part .query c.local_ else none)) fun s =>
      let p := cmdParams s c
      let s := planOwn (markRunning s n) n c sweep
      if p.tokens then
        match boundImage s c.part .query c.local_ with
        | some img => submitSeq s c.part .query img c.prof { src := (n, 0), tokens := tokensOf (inputData s c.entry), slot := nullSlot }
        | none => s
      else
        let vf := bits (eArg0 c.entry) 0 2
        searchVector s n c (inputVector vf (eDataLen c.entry / vfmtBytes vf) (inputData s c.entry))

def execSearch (cmd : Nat) (s : State) : Out := .next (onAdmitted s cmd [0x01] fun c => searchCmd s cmd c false)
def execSweep (cmd : Nat) (s : State) : Out := .next (onAdmitted s cmd [0x03] fun c => searchCmd s cmd c true)

/-! ### Advancing (R175, R186) -/

/-- When candidate generation has ended, rescoring begins; with no candidate the list is final at once. -/
def advanceQuery (s : State) (n : Nat) : State :=
  match s.host.queries.get n with
  | none => s
  | some q =>
    if q.kind ≠ .insert ∧ q.walkDone ∧ q.freshDone ∧ q.arrivals.isEmpty ∧ q.reads.isNone then
      let l := finalize q.stream
      let s := countFinal s q q.stream
      if l.isEmpty then endQuery s n else s.updQuery n fun x => { x with reads := some l }
    else s

/-- A query whose transfers meet a tier of zero rate ends (R365). -/
def queryQuota (s : State) (n : Nat) (q : Query) : State :=
  let s := s.event .memEvent 0 5
  match q.kind with
  | .search => endWith (dropRequests (dropSweeps s n) n) q.owner stQuota
  | .served => endQuery (s.updQuery n fun x => { x with status := stQuota, node := MList.new x.node.k }) n
  | .insert => s

/-- A query's transfers on tiers: a zero rate refuses them (R365). -/
def queryTiers (s : State) (n : Nat) (q : Query) (tiers : List Nat) (go : State → State) : State :=
  if tiers.any (zeroRate s q.part) then queryQuota s n q else go s

/-- Transfers over Twill: where `go` sends a request and the partition's TF rate is zero, the transfer is refused instead
(R365). -/
def queryTwill (s : State) (n : Nat) (q : Query) (go : State → State) : State :=
  if zeroRate s q.part tTF ∧ (go s).twill.nextReq ≠ s.twill.nextReq then queryQuota s n q else go s

/-- So many transfers of at most 64 bytes charged: each counts one unit (R362). -/
def chargeUnits (s : State) (part tier n : Nat) : State := charge s part tier (64 * n)

/-! ### The walk (R166 to R172) -/

/-- Bits of the visited filter that mark a slot (R167). -/
def visitBits (u : Nat) : Nat × Nat := let h := crc32c (natLe 4 u); (bits h 0 18, bits h 14 18)

/-- The filter reports a slot. -/
def wasVisited (v : List Nat) (u : Nat) : Bool := let b := visitBits u; v.contains b.1 && v.contains b.2

/-- New slots of a frontier. -/
def newSlots (q : Query) : List Nat := ((q.frontier.filter fun u => u != nullSlot).foldl addSet []).filter fun u => !wasVisited q.visited u

/-- Order of queue entries (R166). -/
def QEnt.v (e : QEnt) : Nat := e.key * 2 ^ 96 + e.gid * 2 ^ 32 + e.slot

/-- Scoring reads the norm correction: under squared Euclidean distance only (R112, R168). -/
def needsNorm (numrec : List Byte) : Bool := nrMetric numrec == 3

/-- Norm correction as scoring takes it: none where it is needed and cannot be read (R589). -/
def scoreNorm (s : State) (sh : Shard) (x : Nat) : Option Nat := if needsNorm sh.desc.numrec then slotNorm s sh x else some 0

/-- The code of a slot lies in a row group outside CLEAN (R224). -/
def codeSuspect (s : State) (sh : Shard) (u : Nat) : Bool := ((codeAddr sh.desc.codeList u).map fun x => rgDirty s (x / 4096)).getD false

/-- A slot scored: its A and sketch key; none where its code or a norm that it needs cannot be read. -/
def scoreSlot (s : State) (sh : Shard) (sketch : List Byte) (u : Nat) : Option (Int × Nat) :=
  match slotCode s sh u, scoreNorm s sh u with
  | some code, some nm =>
    let a := lichenA code sketch
    some (a, sketchKey (sketchDelta sh.desc.numrec sketch a nm))
  | _, _ => none

/-- What a walk does with one new slot (R169, R170): queue entry, stream entry, whether its record was read, whether the slot
could not be scored, and whether it was suspect. -/
structure SlotAct where
  queue : Option QEnt
  stream : Option LEnt
  judged : Bool
  unread : Bool
  suspect : Bool
  deriving DecidableEq, Repr

/-- A slot that nothing is done with. -/
def SlotAct.none_ : SlotAct := { queue := none, stream := none, judged := false, unread := false, suspect := false }

/-- Both bounds of R170, as they stood at the start of the round, shut a key out. -/
def shutOut (q : Query) (key : Nat) : Bool :=
  (decide (q.queue.length ≥ q.list) && ((q.queue.getLast?).map fun e => decide (e.key < key)).getD false) &&
    (q.listLast.map fun b => decide (b < key)).getD false

/-- Classification of a local slot: scored, then judged by its state in the query's epoch and the filter, unless both bounds
shut it out (R135, R147, R169, R170). -/
def classify (s : State) (sh : Shard) (q : Query) (u : Nat) : SlotAct :=
  match scoreSlot s sh q.sketch u with
  | none => { SlotAct.none_ with unread := true }
  | some (a, key) =>
    let sus := codeSuspect s sh u
    if shutOut q key then { SlotAct.none_ with suspect := sus } else
    let st := slotState sh u q.epoch q.head q.tail
    if st = .absent ∨ st = .fresh then { SlotAct.none_ with judged := true, suspect := sus } else
    let gid := srGid (slotRec sh u)
    let pass := st == .graph && !q.noAttr.contains u && filterOk sh q.filter (attrFor sh u q.epoch)
    { queue := some { key := key, gid := gid, slot := u, expanded := false, routing := !pass }
      stream := if pass then some { key := key, slot := u, gid := gid, fresh := false, suspect := sus, a := a } else none
      judged := true, unread := false, suspect := sus }

/-- What a walk does with an answer of another node: outcome 2 routing-only, 3 passes (R433). The slot's code is this node's
own, so the exact check takes A from it, and its row group's state marks the entry (R224, R453). -/
def remoteAct (s : State) (sh : Shard) (q : Query) (x : Nat × Nat × Nat × Nat) : SlotAct :=
  let (u, out, key, gid) := x
  let sus := codeSuspect s sh u
  if out < 2 then { SlotAct.none_ with suspect := sus }
  else
    { queue := some { key := key, gid := gid, slot := u, expanded := false, routing := out == 2 }
      stream := if out = 3 then some { key := key, slot := u, gid := gid, fresh := false, suspect := sus, a := ((scoreSlot s sh q.sketch u).map (·.1)).getD 0 } else none
      judged := false, unread := false, suspect := sus }

/-- SCORE requests for the new slots of a frontier that other nodes serve, at most 200 of one segment each (R172, R433,
R454). A slot of a segment that no server answers for is treated as ABSENT (R471). -/
def sendScores (s : State) (n : Nat) (slots : List Nat) : State :=
  match s.host.queries.get n with
  | none => s
  | some q =>
    let l := slots.filter fun u => !localSlot s q.part q.index q.mapgen u && !q.deadSegs.contains (u / 2 ^ 24)
    let segs := (l.map (· / 2 ^ 24)).foldl addSet []
    let crc := recCrc s (shardOf s q.part q.index)
    segs.foldl (fun s g =>
      let us := l.filter fun u => u / 2 ^ 24 == g
      (List.range (ceilDiv us.length 200)).foldl (fun s i =>
        let part := (us.drop (200 * i)).take 200
        let terms := slice (q.filter.flatMap fun t => natLe 8 t) 0 64
        let body := slice q.sketch 0 160 ++ terms ++ part.flatMap fun u => natLe 4 u
        let k := { mkPkt 0x5 (serverOf s q.part q.index q.mapgen (g * 2 ^ 24)) q.part with
          mapgen := q.mapgen, epoch := q.epoch, index := q.index, addr := q.filter.length + crc * 2 ^ 15, payload := padSlots body }
        let r := sendRequest s .score [k] n 0 false part
        r.1.updQuery n fun x => { x with remote := x.remote ++ [r.2] }) s) s

/-- EXPAND requests for picked slots that other nodes serve, at most 256 each. -/
def sendExpands (s : State) (n : Nat) (slots : List Nat) : State :=
  match s.host.queries.get n with
  | none => s
  | some q =>
    let segs := (slots.map (· / 2 ^ 24)).foldl addSet []
    segs.foldl (fun s g =>
      let us := (slots.filter fun u => u / 2 ^ 24 == g).take 256
      let body := us.flatMap fun u => natLe 4 u
      let k := { mkPkt 0x7 (serverOf s q.part q.index q.mapgen (g * 2 ^ 24)) q.part with
        mapgen := q.mapgen, epoch := q.epoch, index := q.index, payload := padSlots body }
      let r := sendRequest s .expand [k] n 0 false us
      r.1.updQuery n fun x => { x with remote := x.remote ++ [r.2] }) s

/-- A frontier set for the next round, with the requests it needs; the stream list's bound is taken for the round (R170). -/
def setFrontier (s : State) (n : Nat) (f : List Nat) : State :=
  let s := s.updQuery n fun q => { q with frontier := f, listLast := q.stream.bound.map (· / 2 ^ 64) }
  match s.host.queries.get n with
  | some q => sendScores s n (newSlots q)
  | none => s

/-- Contexts in use on a tile. -/
def tileCtx (s : State) (t : Nat) : Nat := (s.host.queries.filter fun e => e.2.tile == some t).length

/-- A tile's role under a configuration admits a walk of a kind (TILE_MAP roles). -/
def roleAdmits (c : ImgCfg) (s : State) (tile : Nat) (k : WalkKind) : Bool :=
  let r := (ownerRoleIn c s 1 tile).2
  r == 0 || r == (if k = .insert then 2 else 1)

/-- The tile holds no context of a partition that it does not serve under the walk's configuration: a tile that changes hands
finishes the contexts it holds first (R55, R60). -/
def tileClear (c : ImgCfg) (s : State) (tile : Nat) : Bool :=
  s.host.queries.all fun e => e.2.tile != some tile || servesPartIn c s 0x01 tile e.2.part

/-- A tile may give a partition's walk a context: it serves, its role admits the walk, and it has a context free (R162). -/
def tileFree (c : ImgCfg) (s : State) (tile p : Nat) (k : WalkKind) : Bool :=
  decide (tile < 64) && s.serves 0x01 tile && roleAdmits c s tile k && servesPartIn c s 0x01 tile p && decide (tileCtx s tile < 32768) &&
    tileClear c s tile

/-- As `tileFree`, with the rules of the pool: a shared-pool tile only within POOL_CTX and while no tile of the partition's
own has a context free (R38, R162). -/
def tileGives (c : ImgCfg) (s : State) (tile p : Nat) (k : WalkKind) : Bool :=
  tileFree c s tile p k &&
    (((ownerRoleIn c s 1 tile).1 == p) ||
      (decide ((s.host.queries.filter fun e => e.2.pool && e.2.part == p).length < cfgPoolCtx c p) &&
        !(List.range 64).any fun t => (ownerRoleIn c s 1 t).1 == p && tileFree c s t p k))

/-- The tile-side Muslin unit that serves a tile's next query (R229, R247). -/
def listUnit (s : State) (tile : Nat) : Option Nat := [tile / 4, (tile / 4) ^^^ 1].find? fun u => !s.fencedUnit 0x04 u

/-- The lowest number of a context that is free on a tile. -/
def freeCtx (s : State) (tile : Nat) : Nat :=
  let used := (s.host.queries.filter fun e => e.2.tile == some tile).map fun e => e.2.ctx
  ((List.range (used.length + 1)).find? fun i => !used.contains i).getD 0

/-- A query with a context on a tile and its lists at the unit that serves the tile (R162, R229). -/
def takeContext (c : ImgCfg) (s : State) (q : Query) (tile : Nat) : Query :=
  { q with tile := some tile, ctx := freeCtx s tile, unit := (listUnit s tile).getD 0, pool := (ownerRoleIn c s 1 tile).1 != q.part }

/-- A waiting query obtains a context on a tile, its walk area and its list areas, and begins (R162, R164, R232). -/
def walkStart (s : State) (n tile : Nat) : State :=
  match s.host.queries.get n with
  | none => s
  | some q => match shardOf s q.part q.index with
    | none => s
    | some sh =>
      if q.tile.isSome ∨ q.kind = .insert ∨ !q.planned ∨ q.sketch.isEmpty ∨ q.late ∨ s.blockOut 4 ∨ s.blockOut 6 ∨
          !tileGives (queryCfg s q) s tile q.part q.kind ∨ (listUnit s tile).isNone then s
      else if pagesUsed s q.part + queryPages q > pagesTotal s q.part then s.event .mslEvent 0 0
      else queryTiers s n q [tT1] fun s =>
        let t := charge (s.updQuery n fun x => takeContext (queryCfg s q) s x tile) q.part tT1 32768
        if q.sweep then t else queryTwill s n q fun _ => setFrontier t n sh.desc.entry

def execWalkStart (query tile : Nat) (s : State) : Out := .next (walkStart s query tile)

/-- The queue after a round: sorted and trimmed to LIST (R166). -/
def trimQueue (k : Nat) (l : List QEnt) : List QEnt := (sortAsc QEnt.v l).take k

/-- Entries sent to an insert walk's pool go straight into its list. Answers the entries stored, the passes and the sorter
runs too. -/
def poolAdds (l : MList) (es : List LEnt) : MList × Nat × Nat × Nat :=
  es.foldl (fun a e => let r := a.1.add e; (r.1, a.2.1 + b2n r.2.1, a.2.2.1 + r.2.2.1, a.2.2.2 + r.2.2.2)) (l, 0, 0, 0)

/-- What the walk does with each new slot of a round. -/
def roundActs (s : State) (sh : Shard) (q : Query) : List SlotAct :=
  let new := newSlots q
  (new.filter fun u => localSlot s q.part q.index q.mapgen u).map (classify s sh q) ++
    (q.answers.filter fun x => new.contains x.1).map (remoteAct s sh q)

/-- The entries that a round sends to the stream. -/
def roundOut (s : State) (sh : Shard) (q : Query) : List LEnt :=
  ((roundActs s sh q).filterMap (·.stream)).filter fun e => !(q.kind == .insert && e.slot == q.slot)

/-- What one round leaves of a query, before its next frontier: new slots marked, classified, sent to queue and stream. -/
def roundState (s : State) (sh : Shard) (q : Query) : Query :=
  let acts := roundActs s sh q
  let out := roundOut s sh q
  { q with
    visited := (newSlots q).foldl (fun v u => let b := visitBits u; addSet (addSet v b.1) b.2) q.visited
    queue := trimQueue q.list (q.queue ++ acts.filterMap (·.queue)), answers := [], frontier := []
    arrivals := if q.kind = .insert then q.arrivals else q.arrivals ++ out
    stream := if q.kind = .insert then (poolAdds q.stream out).1 else q.stream
    partial_ := q.partial_ || acts.any (·.unread), suspect := q.suspect || (q.kind != .insert && acts.any (·.suspect)) }

/-- Units of a round's transfers (R144, R362): the codes and norms of the new slots, the records and attribute words that were
read, the queue, and each entry of an insert walk's pool. -/
def roundCharge (s : State) (sh : Shard) (q : Query) : State :=
  let here := ((newSlots q).filter fun u => localSlot s q.part q.index q.mapgen u).length
  let judged := ((roundActs s sh q).filter (·.judged)).length
  let s := chargeUnits s q.part tT2 (here * (if needsNorm sh.desc.numrec then 2 else 1))
  let s := ((newSlots q).filter fun u => localSlot s q.part q.index q.mapgen u && (classify s sh q u).judged).foldl
    (fun s u => slotTouch s sh u false) (chargeUnits s q.part tT3 (2 * judged))
  let s := charge s q.part tT1 (16 * (roundState s sh q).queue.length)
  if q.kind = .insert then
    let r := (poolAdds q.stream (roundOut s sh q)).2
    countList (chargeUnits s q.part tT1 r.1) q r.1 r.2.1 r.2.2
  else s

/-- An adjacency record is read in slices of 32 bytes (R144). -/
def chargeAdj (s : State) (sh : Shard) (x f : Nat) : State :=
  adjTouch (chargeUnits s sh.part (adjTier s sh x f) (sh.desc.degree / 8)) sh x f false

/-- A round of a walk ends (R168): the queue is trimmed, and the walk ends or expands its next beam. -/
def roundEnd (s : State) (n : Nat) : State :=
  match s.host.queries.get n with
  | none => s
  | some q => match shardOf s q.part q.index with
    | none => s
    | some sh =>
      let r := roundState s sh q
      let s := (roundCharge s sh q).bump .wlkTRounds (q.tile.getD 0) 1
      let open_ := r.queue.filter fun e => !e.expanded
      if open_.isEmpty ∨ (r.maxRounds ≠ 0 ∧ r.round ≥ r.maxRounds) then s.updQuery n fun _ => { r with walkDone := true }
      else
        let pick := open_.take r.beam
        let r := { r with round := r.round + 1, queue := r.queue.map fun e => if pick.contains e then { e with expanded := true } else e }
        let here := pick.filter fun e => localSlot s r.part r.index r.mapgen e.slot
        let away := (pick.filter fun e => !localSlot s r.part r.index r.mapgen e.slot && !r.deadSegs.contains (e.slot / 2 ^ 24)).map (·.slot)
        let s := here.foldl (fun s e => chargeAdj s sh e.slot r.epoch) (s.updQuery n fun _ => r)
        setFrontier (sendExpands s n away) n (((here.filter fun e => !r.noAdj.contains e.slot).flatMap fun e => adjRead s sh e.slot r.epoch).foldl addSet [])

/-- A walk may finish its round: it holds a context, has not ended, and every answer is in. -/
def roundReady (q : Query) : Bool := q.tile.isSome && !q.sweep && !q.walkDone && !q.late && q.remote.isEmpty

/-! ### Sweeps (R173 to R176) -/

/-- Steps of a sweep over code windows or the fresh ring, window by window in CODE_LIST order (R206). -/
def sweepSteps (wins : List (Nat × Nat)) : List (Nat × Nat × Nat × Nat) :=
  wins.flatMap fun w => (List.range 8).flatMap fun j => (List.range 5).map fun k => (w.1, w.2, j, k)

/-- Ring range of a batch: from the least tail to the greatest head of its queries (R174, R204). -/
def sweepRange (sh : Shard) (qs : List Query) : Nat × Nat :=
  let t := qs.foldl (fun a q => min a q.tail) (2 ^ 64)
  let h := qs.foldl (fun a q => max a q.head) 0
  if h - t ≥ sh.desc.freshEntries then (0, sh.desc.freshEntries) else (ringIdx sh t, ringIdx sh h)

/-- The queries whose sweep of a kind has ended are marked, and advance. -/
def sweepsOver (s : State) : State :=
  let busy (n : Nat) (fresh : Bool) : Bool :=
    (if fresh then s.host.freshWait else s.host.sweepWait).contains n ||
      s.lichen.stk.any (fun e => e.2.batches.any fun b => b.fresh == fresh && b.queries.contains n) ||
      s.lichen.fifo.any fun e => e.2.any fun r => some r.ctx == ((s.host.queries.get n).bind Query.ctxId) && r.fresh == fresh
  s.host.queries.foldl (fun s e =>
    let (n, q) := e
    if q.kind = .insert ∨ q.sketch.isEmpty ∨ q.reads.isSome then s else
    let w := q.sweep && !q.walkDone && !busy n false
    let f := !q.freshDone && !busy n true
    if w ∨ f then advanceQuery (s.updQuery n fun x => { x with walkDone := x.walkDone || w, freshDone := x.freshDone || f }) n else s) s

/-- A sweep batch of a shard starts: up to 32 waiting queries that hold a context (R173, R175). Windows of fenced stacks are
skipped, and the queries are marked (R589). -/
def sweepBatchStart (s : State) (part index : Nat) (fresh : Bool) : State :=
  if s.blockOut 5 then s else match shardOf s part index with
  | none => s
  | some sh =>
    let wait := if fresh then s.host.freshWait else s.host.sweepWait
    let ready := (wait.filterMap fun n => (s.host.queries.get n).map fun q => (n, q)).filter fun x =>
      x.2.part == part && x.2.index == index && x.2.tile.isSome
    let go := ready.take 32
    if go.isEmpty then s else
    let ns := go.map (·.1)
    let wins := if fresh then [(sh.desc.freshWin, 0)] else sh.desc.codeList.zipIdx
    let up := wins.filter fun w => winUp s w.1
    let s := s.mapHost fun h => { h with
      sweepWait := if fresh then h.sweepWait else h.sweepWait.filter fun n => !ns.contains n
      freshWait := if fresh then h.freshWait.filter fun n => !ns.contains n else h.freshWait
      queries := if up.length < wins.length then ns.foldl (fun m n => m.upd n fun q => { q with partial_ := true }) h.queries else h.queries }
    let sts := (up.map (·.1 / 80)).foldl addSet []
    let s := sts.foldl (fun s st =>
      let b : SweepBatch := { part := part, index := index, fresh := fresh, queries := ns, todo := sweepSteps (up.filter fun w => w.1 / 80 == st)
                              done := [], range := sweepRange sh (go.map (·.2)) }
      let s := s.updStack st fun k => { k with batches := k.batches ++ [b] }
      if (s.stack st).step.isNone then issueStep s st else s) s
    sweepsOver s

def execSweepBatchStart (part index : Nat) (fresh : Bool) (s : State) : Out := .next (sweepBatchStart s part index fresh)

def execSweepStepEnd (stack : Nat) (s : State) : Out := .next (sweepsOver (stepEnd s stack))

/-- The slot that a result record names: a FRESH one names a ring index. -/
def recSlot (sh : Shard) (r : SweepRec) : Nat := if r.fresh then sh.freshSlots.getD r.slotId nullSlot else r.slotId

/-- A walker judges a result record by the query's epoch and full filter: the slot is one that the sweep sends to the stream
(R174). -/
def sweepPasses (sh : Shard) (q : Query) (r : SweepRec) : Bool :=
  let x := recSlot sh r
  x != nullSlot && slotState sh x q.epoch q.head q.tail == (if r.fresh then SlotSt.fresh else SlotSt.graph) &&
    !q.noAttr.contains x && filterOk sh q.filter (attrFor sh x q.epoch)

/-- The stream entry of a record that passes; none where a norm that it needs cannot be read (R589). -/
def sweepEntry (s : State) (sh : Shard) (q : Query) (r : SweepRec) : Option LEnt :=
  let x := recSlot sh r
  (scoreNorm s sh x).map fun nm =>
    let a := toSigned 32 r.a.toNat
    { key := sketchKey (sketchDelta sh.desc.numrec q.sketch a nm), slot := x, gid := srGid (slotRec sh x), fresh := r.fresh
      suspect := r.suspect, a := a }

/-- A record reaches its query. -/
def sweepTake (s : State) (sh : Shard) (n : Nat) (q : Query) (r : SweepRec) : State :=
  let pass := sweepPasses sh q r
  let e := sweepEntry s sh q r
  let s := slotTouch (chargeUnits s q.part tT3 (if r.fresh then 3 else 2)) sh (recSlot sh r) false
  let s := if pass ∧ needsNorm sh.desc.numrec then chargeUnits s q.part tT2 1 else s
  s.updQuery n fun x => { x with
    suspect := x.suspect || r.suspect, partial_ := x.partial_ || (pass && e.isNone)
    arrivals := if x.late || !pass then x.arrivals else x.arrivals ++ e.toList }

/-- A walker takes the oldest record of a bank's FIFO (R174). -/
def sweepRecord (s : State) (bank : Nat) : State :=
  match s.lichen.fifo.getD bank [] with
  | [] => s
  | r :: t =>
    let s := s.mapLichen fun l => { l with fifo := if t.isEmpty then l.fifo.del bank else l.fifo.put bank t }
    sweepsOver (match (ctxQuery s r.ctx).bind fun n => (s.host.queries.get n).map fun q => (n, q) with
      | none => s
      | some (n, q) => match shardOf s q.part q.index with
        | none => s
        | some sh => queryTiers s n q (if needsNorm sh.desc.numrec then [tT2, tT3] else [tT3]) fun s => sweepTake s sh n q r)

def execSweepResultRecord (bank : Nat) (s : State) : Out := .next (sweepRecord s bank)

/-! ### Arrival at the stream list (R231) and rescoring (R186, R187) -/

/-- A lowered bound goes to the stacks whose batches hold the query (R176, R209). -/
def lowerThresh (s : State) (n : Nat) (q : Query) : State :=
  (List.range 6).foldl (fun s st =>
    (s.stack st).batches.foldl (fun s b => match indexOf? (· == n) b.queries with
      | some i => threshUpdate s st i q.ctxId (threshOf q)
      | none => s) s) s

/-- The next candidate on its way arrives at the stream list. -/
def listArrive (s : State) (n : Nat) : State :=
  match s.host.queries.get n with
  | none => s
  | some q => match q.arrivals with
    | [] => s
    | e :: t => queryTiers s n q [tT1] fun s =>
      let r := q.stream.add e
      let q' := { q with arrivals := t, stream := r.1 }
      let s := countList (chargeUnits (s.updQuery n fun _ => q') q.part tT1 1) q (b2n r.2.1) r.2.2.1 r.2.2.2
      let s := if q'.stream.bound ≠ q.stream.bound then lowerThresh s n q' else s
      advanceQuery s n

def execListEntryArrive (query : Nat) (s : State) : Out := .next (listArrive s query)

/-- Row group of the code that a candidate was scored from. -/
def codeRg (sh : Shard) (e : LEnt) : Option Nat :=
  let a := if e.fresh then (ringSeq sh e.slot).bind fun q => codeAddr (ringWins sh) (ringIdx sh q) else codeAddr sh.desc.codeList e.slot
  a.map (· / 4096)

/-- The candidate's exact distance is known: exact key, disagreement check, node list (R114, R117, R118). Where its norm
correction cannot be read the check is skipped, and the query completes FAULTED_PARTIAL (R589). -/
def rescored (s : State) (sh : Shard) (n : Nat) (q : Query) (e : LEnt) (x : List Byte) : State :=
  let r := sh.desc.numrec
  let d := exactDist r (exactRead r x) q.q
  let nm := slotNorm s sh e.slot
  let ok := (nm.map fun m => disagreeOk r q.sketch e.a m d).getD true
  let s := if ok then s else
    let s := (s.event .wlkDisagree q.part 0).bump .wlkDisagreeCount q.part 1
    match codeRg sh e with
    | some g => s.mapLichen fun l => { l with reports := l.reports ++ [(g, 64 * sh.part + sh.index, e.slot)] }
    | none => s
  let a := q.node.add { e with key := exactKey r d }
  countList (s.updQuery n fun x => { x with node := a.1, disagree := x.disagree || !ok, partial_ := x.partial_ || nm.isNone })
    q (b2n a.2.1) a.2.2.1 a.2.2.2

/-- The read of the next candidate's exact vector completes; with the last one the node list is final (R186, R187). -/
def rescoreRead (s : State) (n : Nat) : State :=
  match s.host.queries.get n with
  | none => s
  | some q => match q.reads, shardOf s q.part q.index with
    | some (e :: t), some sh => queryTiers s n q [tT2, tT5] fun s =>
      let s := s.updQuery n fun x => { x with reads := some t, done := x.done + 1 }
      let s := match exactOf sh e.slot with
        | some x => rescored (chargeUnits (charge s q.part tT5 x.length) q.part tT2 1) sh n q e x
        | none => s.updQuery n fun x => { x with partial_ := true }
      if t.isEmpty then endQuery s n else s
    | _, _ => s

def execRescoreReadDone (query : Nat) (s : State) : Out := .next (rescoreRead s query)

/-- The check that follows a disagreement report: the row group's CRC, then the item's recomputed code (R223). -/
def disagreeCheck (s : State) (win rg : Nat) : State :=
  let g := 2 ^ 18 * win + rg
  match s.lichen.reports.find? fun r => r.1 == g with
  | none => s
  | some r =>
    let s := s.mapLichen fun l => { l with reports := dropFirst (fun x => x == r) l.reports }
    if rgDirty s g then s
    else if crc32c (rgBytes s g) ≠ shadowCrc s g then rgCheck s g 2
    else match s.shards.get r.2.1 with
      | none => s
      | some sh =>
        let stored := match ringSeq sh r.2.2 with
          | some q => if codeAddr (ringWins sh) (ringIdx sh q) |>.any (· / 4096 == g) then ringCode s sh (ringIdx sh q) else slotCode s sh r.2.2
          | none => slotCode s sh r.2.2
        if stored = some (rebuiltCode sh r.2.2) then rgCheck s g 2 else rgDamage s g 2

def execDisagreeCrcCheck (win rg : Nat) (s : State) : Out := .next (disagreeCheck s win rg)

/-! ### Deadlines (R189, R190) -/

/-- The deadline of a query passes: no new round, step or read; rescoring of the TOPK best candidates follows (R189, R190). -/
def deadline (s : State) (n : Nat) : State :=
  match s.host.queries.get n with
  | none => s
  | some q =>
    if q.kind = .insert ∨ q.late ∨ q.deadline = 0 then s else
    let s := dropRequests (dropSweeps s n) n
    let l := match q.reads with
      | some l => l.take (q.topk - q.done)
      | none => (finalize q.stream).take q.topk
    let s := if q.reads.isNone then countFinal s q q.stream else s
    let s := s.updQuery n fun x => { x with
      late := true, walkDone := true, freshDone := true, arrivals := [], remote := [], answers := [], frontier := [], reads := some l }
    if q.tile.isNone ∨ l.isEmpty then endQuery s n else s

def execDeadlineExpiry (query : Nat) (s : State) : Out := .next (deadline s query)

/-- 150 µs after the deadline, what is not computed is left out (R189). -/
def deadlineGrace (s : State) (n : Nat) : State :=
  match s.host.queries.get n with
  | none => s
  | some q => if q.late then endQuery (s.updQuery n fun x => { x with reads := some [] }) n else s

def execDeadlineGraceExpiry (query : Nat) (s : State) : Out := .next (deadlineGrace s query)

end Sys2Proof.Machine
end

