-- ==== Sys2Proof/Machine/Updates.lean ====
section
/-! DEFINITION. Update batches, EPOCH_FENCE and pins, and the journal's pages (09_epochs_updates R250 to R268, R695;
18_command_set R551 to R555, R561, R562; 13_felt_flash R384). -/
namespace Sys2Proof.Machine
open Sys2Proof

/-! ### EPOCH_FENCE (R263, R540, R561) -/

/-- Opcodes whose entries a fence covers. -/
def updateOps : List Nat := [0x10, 0x11, 0x12, 0x13, 0x21]

/-- An earlier command of the same queue pair still has entries to accept or refuse. -/
def earlierOpen (s : State) (n : Nat) (c : Cmd) : Bool :=
  c.qp.isSome && s.host.cmds.any fun x => decide (x.1 < n) && x.2.qp == c.qp && updateOps.contains (eOpcode x.2.entry) && x.2.phase != .done

/-- An earlier update command of the same queue pair has entries that are not placed yet (R262). -/
def earlierUnplaced (s : State) (n : Nat) (c : Cmd) : Bool :=
  c.qp.isSome && s.host.cmds.any fun x => decide (x.1 < n) && x.2.qp == c.qp && updateOps.contains (eOpcode x.2.entry) &&
    (x.2.phase == .admitted || (x.2.phase == .running && decide (x.2.next < x.2.total)))

/-- The item of a ring entry is GRAPH in the current epoch, or deleted, or its shard is gone. -/
def itemLinked (s : State) (key rseq : Nat) : Bool :=
  match s.shards.get key with
  | none => true
  | some sh => match sh.links.get rseq, sh.freshSlots.get (ringIdx sh rseq) with
    | some l, some x => l.empty || srDeleted (slotRec sh x) || decide (rseq < (headTail sh s.epoch.cur).2)
    | _, _ => true

/-- A fence completes once every covered entry is visible, and, with LINKED, every covered item that is still undeleted is
GRAPH. -/
def fenceTry (s : State) (n : Nat) : State :=
  match s.host.cmds.get n with
  | none => s
  | some c =>
    if c.phase = .done ∨ earlierOpen s n c then s else
    let q := (c.qp.map (s.host.qps.getD · Qp.reset)).getD Qp.reset
    let ev := ((q.vis.filter fun v => decide (v.1 < n)).map (·.2)).foldl max 0
    let linked := (q.inserted.filter fun x => decide (x.1 < n)).all fun x => itemLinked s x.2.1 x.2.2
    if ev > s.epoch.cur ∨ (bit (eArg0 c.entry) 0 ∧ !linked) then s
    else
      let d : Int := if ev = 0 then 0 else max (-(2 ^ 31)) ((ev : Int) - (c.epoch : Int))
      finish (s.mapEpoch fun e => { e with fences := delSet e.fences n }) n stOk (ofSigned 32 d) 0

/-- The fences that wait are looked at again. -/
def checkFences (s : State) : State := s.epoch.fences.foldl fenceTry s

/-- EPOCH_FENCE begins to wait, or completes at once. -/
def epochFence (s : State) (n : Nat) : State :=
  fenceTry ((markRunning s n).mapEpoch fun e => { e with fences := addSet e.fences n }) n

def execEpochFence (cmd : Nat) (s : State) : Out := .next (onAdmitted s cmd [0x30] fun _ => epochFence s cmd)

/-! ### Pins (R251, R252, R562) -/

/-- PROGRESS of a pin command, whatever its status: R540 gives it by opcode alone. -/
def pinProgress (s : State) (part e : Nat) : Nat := pinRefs s part e + (pinned s part).length * 2 ^ 16

/-- One reference more on an epoch of the retained set; INDEX is zero (R562). -/
def epochPin (s : State) (n : Nat) (c : Cmd) : State :=
  let e := c.epoch
  let refs := pinRefs s c.part e
  if eIndex c.entry ≠ 0 then finish s n stInvalid (pinProgress s c.part e) 0
  else if !retained s c.part e then finish s n stEpochExpired (pinProgress s c.part e) 0
  else if refs ≥ 65535 ∨ (refs = 0 ∧ (pinned s c.part).length ≥ 16 - cfgRetain s.img.cfg c.part) then finish s n stQuota (pinProgress s c.part e) 0
  else
    let s := s.mapEpoch fun x => { x with pins := x.pins.store 0 (2 ^ 48 * c.part + e) (refs + 1) }
    finish s n stOk (pinProgress s c.part e) 0

def execEpochPin (cmd : Nat) (s : State) : Out := .next (onAdmitted s cmd [0x31] fun c => epochPin s cmd c)

/-- One reference less. -/
def epochUnpin (s : State) (n : Nat) (c : Cmd) : State :=
  let refs := pinRefs s c.part c.epoch
  if eIndex c.entry ≠ 0 ∨ refs = 0 then finish s n stInvalid (pinProgress s c.part c.epoch) 0
  else
    let s := s.mapEpoch fun x => { x with pins := x.pins.store 0 (2 ^ 48 * c.part + c.epoch) (refs - 1) }
    finish s n stOk (pinProgress s c.part c.epoch) 0

def execEpochUnpin (cmd : Nat) (s : State) : Out := .next (onAdmitted s cmd [0x32] fun c => epochUnpin s cmd c)

/-- PIN_MAX seconds after the first reference, the references are dropped (R252). -/
def pinExpiry (s : State) (part e : Nat) : State :=
  if pinRefs s part e = 0 then s
  else (s.mapEpoch fun x => { x with pins := x.pins.del (2 ^ 48 * part + e) }).event .epcPevent part 3

def execPinExpiry (part epoch : Nat) (s : State) : Out := .next (pinExpiry s part epoch)

/-! ### Placement of one entry (R124, R141, R266, R268, R695) -/

/-- FRESH items of a partition on this node. -/
def freshItems (s : State) (p : Nat) : Nat := (s.shards.filter fun e => e.2.part == p).foldl (fun n e => n + (e.2.ringNext - e.2.ringTail)) 0

/-- The settler has fallen behind with a deletion (R137). -/
def settlerLate (s : State) (sh : Shard) : Bool :=
  sh.slots.any fun e => srDeleted e.2 && !srDelSettled e.2 && decide ((s.epoch.cur + 2 ^ 20 - srDel e.2) % 2 ^ 20 ≥ 2 ^ 18) &&
    decide ((s.epoch.cur + 2 ^ 20 - srDel e.2) % 2 ^ 20 < 2 ^ 19)

/-- No ring index is free: the next one is not settled, the settler is late, or the partition's fresh buffer is at the
capacity that FRESH_CAP gives (R37, R137, R141; FRESH_CAP: DEDUCED, log entry 21). -/
def ringFull (s : State) (sh : Shard) : Bool :=
  decide (sh.ringNext ≥ sh.settled + sh.desc.freshEntries) || settlerLate s sh ||
    (decide (cfgFreshCap s.img.cfg sh.part ≠ 0) && decide (freshItems s sh.part ≥ 1024 * cfgFreshCap s.img.cfg sh.part))

/-- Outcome of an entry that has been placed. -/
def placedOut (gid slot old state : Nat) : EntryOut :=
  { status := 0, state := state, slot := slot, epoch := 0, flags := 0, gid := gid, old := old }

/-- An INSERT or UPSERT entry placed; an error names the EPC_PEVENT bit of what holds it back. -/
def placeInsert (s : State) (n : Nat) (sh : Shard) (gid attr : Nat) (f : ItemForms) (upsert : Bool) (state : Nat) : Except (Option Nat) State := do
  let old := idSlot s sh gid
  if ringFull s sh then .error (some 0)
  else match takeSlot sh with
  | none => .error (some 0)
  | some (x, sh1) =>
    let named := match old with
      | some _ => some (idRename s sh1 gid x)
      | none => idInsert s sh1 gid x
    match named with
    | none => .error (some 0)
    | some sh2 =>
      let i := ((s.host.cmds.get n).map (·.outs.length)).getD 0
      let r : JRec :=
        { num := 0, typ := if upsert then 2 else 1, index := sh.index, epoch := s.epoch.cur, gid := gid, slot := x
          oldSlot := old.getD nullSlot, rseq := sh.ringNext, attr := attr, norm := f.norm, code := f.code, exact := f.exact, src := some (n, i) }
      let t ← journalPlace s sh.part r
      .ok ((t.updShard sh.part sh.index fun _ => { sh2 with ringNext := sh.ringNext + 1 }).drawn.addOut n (placedOut gid x nullSlot state))

/-- A DELETE or ATTR_SET entry placed. -/
def placeSmall (s : State) (n : Nat) (sh : Shard) (gid typ attr : Nat) (x : Option Nat) : Except (Option Nat) State := do
  let i := ((s.host.cmds.get n).map (·.outs.length)).getD 0
  let r : JRec :=
    { num := 0, typ := typ, index := sh.index, epoch := s.epoch.cur, gid := gid, slot := x.getD nullSlot, oldSlot := nullSlot
      rseq := 0, attr := attr, norm := 0, code := [], exact := [], src := some (n, i) }
  let t ← journalPlace s sh.part r
  let t := if typ = 3 ∧ x.isSome then t.updShard sh.part sh.index fun h => idRemove s h gid else t
  .ok (t.addOut n (placedOut gid (x.getD nullSlot) nullSlot 0))

/-- The attribute word of the newest change placed so far to a slot (R552). -/
def attrPlaced (s : State) (sh : Shard) (x : Nat) : Nat :=
  match ((placedRecs s sh.part).filter fun r => r.index == sh.index && r.slot == x && (r.typ == 1 || r.typ == 2 || r.typ == 4)).getLast? with
  | some r => r.attr
  | none => attrNewest sh x

/-- The shard with the attribute versions of the records placed and not accepted: what the overlay region will hold. -/
def withPlacedAttrs (s : State) (sh : Shard) : Shard :=
  ((placedRecs s sh.part).filter fun r => r.index == sh.index && r.typ == 4 && r.slot != nullSlot).foldl
    (fun h r => putVersion h r.slot true (s.epoch.cur + 1) [] r.attr) sh

/-! ### Update batches (R262, R365, R551 to R555) -/

/-- Bytes of an entry of an update batch of a shard. -/
def updateStride (c : Cmd) (sh : Shard) : Nat :=
  match eOpcode c.entry with
  | 0x12 => 16
  | 0x13 => 32
  | _ => 64 * ceilDiv (16 + nrDim sh.desc.numrec * vfmtBytes (bits (eArg0 c.entry) 0 2)) 64

/-- The check of a batch as a whole (R553): its entry count. -/
def batchCheck (s : State) (c : Cmd) : Except Nat Nat :=
  match shardOf s c.part (eIndex c.entry) with
  | none => .error stInvalid
  | some sh =>
    let w := updateStride c sh
    let k := eDataLen c.entry / w
    if !serving sh then .error stInvalid
    else if sh.lost then .error stFaultedNone
    else if bits (eArg0 c.entry) 0 2 = 3 ∨ eDataLen c.entry % w ≠ 0 ∨ k = 0 ∨ k > 4096 ∨ eResultLen c.entry < 32 * k then .error stInvalid
    else .ok k

/-- One entry of a batch: placed, refused on its own, or held back (an error). -/
def placeEntry (s : State) (n : Nat) (c : Cmd) (i : Nat) : Except (Option Nat) State :=
  match shardOf s c.part (eIndex c.entry) with
  | none => .ok (s.addOut n (refused (c.gids.getD i 0) stInvalid))
  | some sh =>
    let w := updateStride c sh
    let b := slice (inputData s c.entry) (i * w) w
    let gid := field b 0 8
    let bad := Except.ok (s.addOut n (refused gid stInvalid))
    match eOpcode c.entry with
    | 0x12 =>
      if !zeroAt b 8 8 then bad else placeSmall s n sh gid 3 0 (idSlot s sh gid)
    | 0x13 =>
      let mask := field b 16 8
      if mask = 0 ∨ !zeroAt b 24 8 then bad
      else match idSlot s sh gid with
        | none => placeSmall s n sh gid 4 0 none
        | some x =>
          if !overlayRoom (withPlacedAttrs s sh) x true (s.epoch.cur + 1) then .error (some 1)
          else
            let word := attrPlaced s sh x
            placeSmall s n sh gid 4 ((word - (word &&& mask)) + (field b 8 8 &&& mask)) (some x)
    | _ =>
      let vf := bits (eArg0 c.entry) 0 2
      let dim := nrDim sh.desc.numrec
      if gid = 2 ^ 64 - 1 ∨ !zeroAt b (16 + dim * vfmtBytes vf) (w - (16 + dim * vfmtBytes vf)) then bad
      else if eOpcode c.entry = 0x10 ∧ (idSlot s sh gid).isSome then bad
      else if !vectorUnit s sh.part then .error none
      else match prepareItem sh.desc.numrec (inputVector vf dim (b.drop 16)) with
        | none => bad
        | some f => placeInsert s n sh gid (field b 8 8) f (eOpcode c.entry == 0x11) 0

/-- The next entry of a batch is refused, and every later one is skipped (R268). -/
def refuseRest (s : State) (n st : Nat) : State :=
  match s.host.cmds.get n with
  | none => s
  | some c => endBatch (stopBatch (s.addOut n (refusedAt c c.outs.length (c.gids.getD c.outs.length 0) st)) n st) n

/-- Entries of a batch are taken in order until one is held back; a tier of zero rate refuses the rest (R365). -/
def placeAll (place : State → Cmd → Nat → Except (Option Nat) State) : Nat → State → Nat → State
  | 0, s, _ => s
  | k + 1, s, n =>
    match s.host.cmds.get n with
    | none => s
    | some c =>
      if c.next ≥ c.total then s
      else if [tT3, tT4, tT5].any (zeroRate s c.part) then refuseRest (s.event .memEvent 0 5) n stQuota
      else match place s c c.next with
        | .error w => s.updCmd n fun c => { c with fullWait := w }
        | .ok t => placeAll place k (t.updCmd n fun c => { c with next := c.next + 1, fullWait := none }) n

/-- An update command: checked as a whole, then its entries are placed after those of the commands before it on its queue
pair. Run again, it goes on with the entry that was held back. -/
def updateCmd (s : State) (n op : Nat) : State :=
  match s.host.cmds.get n with
  | none => s
  | some c =>
    if eOpcode c.entry ≠ op ∨ c.phase = .done ∨ earlierUnplaced s n c then s
    else if c.phase = .admitted then
      match batchCheck s c with
      | .error st => endWith s n st
      | .ok k =>
        let w := eDataLen c.entry / k
        let b := inputData s c.entry
        let s := s.updCmd n fun c => { c with phase := .running, total := k, gids := (List.range k).map fun i => field b (i * w) 8 }
        checkFences (endBatch (placeAll (fun s c i => placeEntry s n c i) k s n) n)
    else checkFences (endBatch (placeAll (fun s c i => placeEntry s n c i) (c.total - c.next) s n) n)

def execInsert (cmd : Nat) (s : State) : Out := .next (updateCmd s cmd 0x10)
def execUpsert (cmd : Nat) (s : State) : Out := .next (updateCmd s cmd 0x11)
def execDelete (cmd : Nat) (s : State) : Out := .next (updateCmd s cmd 0x12)
def execAttrSet (cmd : Nat) (s : State) : Out := .next (updateCmd s cmd 0x13)

/-- FULL_WAIT ends with the condition still standing: the entry and those after it are refused (R268). -/
def fullWaitExpiry (s : State) (n : Nat) : State :=
  match s.host.cmds.get n with
  | none => s
  | some c => match c.fullWait with
    | some b => if c.phase = .done then s else checkFences (refuseRest (s.event .epcPevent c.part b) n stQuota)
    | none => s

def execFullWaitExpiry (cmd : Nat) (s : State) : Out := .next (fullWaitExpiry s cmd)

/-! ### Journal pages (R384) -/

/-- The open page of a partition's journal closes and is written twice. -/
def pageClose (s : State) (p : Nat) : State :=
  let j := journalOf s p
  match j.pages.getLast? with
  | none => s
  | some g =>
    if g.closed ∨ g.recs.isEmpty ∨ closedRunning j ≥ 8 ∨ zeroRate s p tT5 then s
    else charge (setJournal s p { j with pages := closeLast j.pages }) p tT5 (2 * flashPage s)

def execJournalPageClose (part : Nat) (s : State) : Out := .next (pageClose s part)

def execJournalProgramDone (part jseq copy : Nat) (s : State) : Out := .next (checkFences (programDone s part jseq copy))

end Sys2Proof.Machine
end

