-- ==== Sys2Proof/Machine/Linking.lean ====
section
/-! DEFINITION. Linking, repair and settling of a shard, and the host's link supply (05_index_layout R124, R125, R133, R137,
R141, R151; 06_search_walk R168, R191, R192; 09_epochs_updates R256, R269 to R276; 18_command_set R571). -/
namespace Sys2Proof.Machine
open Sys2Proof

/-! ### Parts of linking (R256, R269) -/

/-- An entry whose four parts are complete counts as linked: now, or at the strobe where PREPARE has passed. -/
def linkCheck (s : State) (part index q : Nat) : State :=
  match shardOf s part index with
  | none => s
  | some sh => match sh.links.get q with
    | none => s
    | some l =>
      if l.linked ∨ !(l.recDone && l.backDone && l.codeDone && l.vecDone) then s
      else if s.epoch.prepared then s.updShard part index fun h => { h with linkedLate := addSet h.linkedLate q }
      else (s.updShard part index fun h => { h with links := h.links.put q { l with linked := true } }).bump .epcPLinked part 1

/-- Parts of an entry completed. -/
def linkPart (s : State) (part index q : Nat) (f : LinkParts → LinkParts) : State :=
  linkCheck (s.updShard part index fun h => { h with links := h.links.upd q f }) part index q

/-- An adjacency record written as a version of the current epoch (R149). -/
def writeAdj (s : State) (sh : Shard) (x : Nat) (l : List Nat) : State :=
  let e := s.epoch.cur + 1
  let h := putVersion sh x false e l 0
  adjTouch ((charge s sh.part tT3 (32 + 4 * sh.desc.degree)).updShard sh.part sh.index fun h => putVersion h x false e l 0) h x e true

/-- A version of an adjacency record may be written now: no PREPARE has passed, and the overlay region has room (R152, R256). -/
def canWrite (s : State) (sh : Shard) (x : Nat) : Bool := !s.epoch.prepared && overlayRoom sh x false (s.epoch.cur + 1)

/-- A walk that the overlay region holds back sets EV_OVERLAY_FULL (R152, R268). -/
def overlayHeld (s : State) (sh : Shard) (x : Nat) : State :=
  s.eventIf (!overlayRoom sh x false (s.epoch.cur + 1)) .epcPevent sh.part 1

/-- The segment of a slot is served by this node under the map generation in force, so its insert walks, back-links and
repair run here (R453). -/
def servedHere (s : State) (sh : Shard) (x : Nat) : Bool :=
  localSlot s sh.part sh.index (((compOf s sh.part sh.index).map fun c => genMapgen c.2.now).getD 0) x

/-- Code and tag of an item copied from the ring into the shard's region (R133, R269 part 3). -/
def copyCode (s : State) (sh : Shard) (x q : Nat) : State :=
  let code := (ringCode s sh (ringIdx sh q)).getD (List.replicate 64 0)
  let s := winWrite? s sh (codeAddr sh.desc.codeList x) code
  winWrite? s sh (tagAddr sh.desc.codeList x) (natLe 2 (tagUnsettled + ruleBits sh (attrNewest sh x)))

/-- A version of an adjacency record that the server of the slot's segment has written at unit `off` of the overlay region:
it stands in the shard, and the item it links counts as linked but for its vector (R269, R453; log entry 122). -/
def versionArrived (s : State) (sh : Shard) (off : Nat) (b : List Byte) : State :=
  let x := field b 0 4
  let pub := s.epoch.cur + 1
  if field b 4 1 ≠ 1 ∨ field b 6 6 ≠ pub ∨ b.length < 32 + 4 * sh.desc.degree ∨ off < sh.desc.ovlSize * 2 ^ 12 ∨
      servedHere s sh x then s
  else
    let l := ((List.range sh.desc.degree).map fun i => field b (32 + 4 * i) 4).takeWhile (· != nullSlot)
    let s := s.updShard sh.part sh.index fun h =>
      let h := putVersion h x false pub l 0
      { h with versions := h.versions.map fun v => if sameVersion v x false pub then { v with off := off } else v }
    match ringSeq sh x with
    | none => s
    | some q => linkPart (copyCode s sh x q) sh.part sh.index q fun p => { p with
        walked := true, recDone := true, backDone := true, codeDone := true }

/-! ### The selection of neighbours (R191) -/

/-- Exact key between two slots of a shard: none where a vector cannot be read. -/
def pairKey (sh : Shard) (a b : Nat) : Option Nat :=
  match exactOf sh a, exactOf sh b with
  | some x, some y => some (exactKey sh.desc.numrec (exactDist sh.desc.numrec (exactRead sh.desc.numrec x) (exactRead sh.desc.numrec y)))
  | _, _ => none

/-- First pass: a candidate is chosen unless one chosen before is nearer to it than the item is. -/
def choosePass1 (sh : Shard) (k : Nat) : List (Nat × Nat) → List Nat → List Nat
  | [], c => c
  | (key, x) :: t, c =>
    if c.length ≥ k then c
    else choosePass1 sh k t (if c.any fun a => ((pairKey sh a x).map fun d => decide (d < key)).getD false then c else c ++ [x])

/-- The record chosen for an item from a pool of slots: by exact key and global item ID, in two passes. -/
def chooseAdj (sh : Shard) (x : Nat) (pool : List Nat) : List Nat :=
  let keyed := pool.filterMap fun c => (pairKey sh x c).map fun k => (k, c)
  let l := sortAsc (fun e => e.1 * 2 ^ 64 + srGid (slotRec sh e.2)) keyed
  let c := choosePass1 sh sh.desc.degree l []
  c ++ ((l.map (·.2)).filter fun y => !c.contains y).take (sh.desc.degree - c.length)

/-! ### Insert walks (R191, R270, R276) -/

/-- LINK_LIST and LINK_BEAM in force in an epoch. -/
def linkCfg (s : State) (p e : Nat) : Nat × Nat :=
  let w := (epochReg s .wlkLinkCfg p e).toNat
  (bits w 0 13, bits w 13 4)

/-- The next FRESH item in ring order that has no insert walk: its ring sequence number and slot. -/
def nextWalk (s : State) (sh : Shard) (head : Nat) : Option (Nat × Nat) :=
  sh.links.findSome? fun e =>
    if head ≤ e.1 ∨ e.2.walked ∨ e.2.linked ∨ e.2.empty then none
    else ((sh.freshSlots.get (ringIdx sh e.1)).filter (servedHere s sh)).map fun x => (e.1, x)

/-- An insert walk as a query. -/
def walkQuery (s : State) (sh : Shard) (q x tile : Nat) : Query :=
  let (ll, lb) := linkCfg s sh.part s.epoch.cur
  let k := max ll sh.desc.degree
  let p : SParams := { topk := k, list := k, beam := lb, rescore := k, maxRounds := 0, deadline := 0, plan := 1, rr := 0, tokens := false, filter := [] }
  let mg := ((compOf s sh.part sh.index).map fun c => genMapgen c.2.now).getD 0
  let xb := xbarOf sh x
  { newQuery .insert q sh s.epoch.cur mg p false with
    q := xb, sketch := (querySketch sh.desc.numrec xb).1, slot := x, freshDone := true, tile := some tile, ctx := freeCtx s tile
    unit := (listUnit s tile).getD 0, pool := (ownerRole s 1 tile).1 != sh.part }

/-- An insert walk that a fence stopped starts again, also where linking has become host-assisted since (R24); in hardware
linking mode an insert walk starts for the next FRESH item in ring order. An item deleted before is not walked: its record is all null slots, and it counts as linked once that is written. -/
def insertWalkStart (s : State) (part index tile : Nat) : State :=
  match shardOf s part index with
  | none => s
  | some sh =>
    if !serving sh ∨ sh.lost ∨ s.blockOut 4 ∨ s.blockOut 6 ∨ s.partOut 4 part ∨ (listUnit s tile).isNone then s else
    let redo := s.host.queries.find? fun e => e.2.kind == .insert && e.2.part == part && e.2.index == index && e.2.tile.isNone
    match redo, nextWalk s sh (headTail sh s.epoch.cur).1 with
    | some (n, w), _ =>
      if !tileGives s.img.cfg s tile part .insert ∨ pagesUsed s part + queryPages w > pagesTotal s part then s
      else queryTiers s n w [tT1] fun s => queryTwill s n w fun s =>
        setFrontier (charge (s.updQuery n fun w => takeContext s.img.cfg s w tile) part tT1 32768) n sh.desc.entry
    | none, none => s
    | none, some (q, x) =>
      if hostMode s part 2 then s else
      if srDeleted (slotRec sh x) then
        if !canWrite s sh x then overlayHeld s sh x
        else (writeAdj s sh x []).updShard part index (fun h => { h with
          links := h.links.upd q fun l => { l with walked := true, recDone := true, linked := true } }) |>.bump .epcPLinked part 1
      else if !tileGives s.img.cfg s tile part .insert then s
      else
        let w := walkQuery s sh q x tile
        if pagesUsed s part + queryPages w > pagesTotal s part then s.event .mslEvent 0 0
        else
          let n := s.host.nextQuery
          queryTiers s n w [tT1] fun s => queryTwill s n w fun s =>
            let s := (addQuery s w).updShard part index fun h => { h with links := h.links.upd q fun l => { l with walked := true } }
            setFrontier (charge s part tT1 32768) n sh.desc.entry

def execInsertWalkStart (part index tile : Nat) (s : State) : Out := .next (insertWalkStart s part index tile)

/-- The end of an insert walk: the record is chosen and written, the code copied, and back-links requested. While no version
may be written the walk waits. -/
def insertWalkEnd (s : State) (n : Nat) (w : Query) : State :=
  match shardOf s w.part w.index with
  | none => dropQuery s n
  | some sh =>
    if !canWrite s sh w.slot ∨ zeroRate s w.part tT3 ∨ zeroRate s w.part tT5 then overlayHeld s sh w.slot else
    let pool := (finalize w.stream).map (·.slot)
    let adj := chooseAdj sh w.slot pool
    let s := charge (dropQuery s n) w.part tT5 (pool.length * exactBytes sh.desc.numrec * nrDim sh.desc.numrec)
    let s := copyCode (writeAdj s sh w.slot adj) sh w.slot w.owner
    let s := s.updShard w.part w.index fun h => { h with
      backPend := adj.foldl (fun m c => Smap.put m c (addSet (Smap.getD m c []) w.slot)) h.backPend }
    linkPart s w.part w.index w.owner fun l => { l with recDone := true, codeDone := true, backDone := adj.isEmpty }

/-- Every fetch of a round has returned: the round ends, and a walk that has ended goes on to rescoring, or links its item
(R168, R186, R191). -/
def walkRoundReturn (s : State) (n : Nat) : State :=
  match s.host.queries.get n with
  | none => s
  | some q =>
    if q.kind = .insert ∧ q.walkDone then insertWalkEnd s n q
    else if !roundReady q then s
    else queryTiers s n q [tT1, tT2, tT3] fun s =>
      let s := queryTwill s n q fun s => roundEnd s n
      match s.host.queries.get n with
      | none => s
      | some r => if r.kind = .insert then (if r.walkDone then insertWalkEnd s n r else s) else advanceQuery s n

def execWalkRoundReturn (query : Nat) (s : State) : Out := .next (walkRoundReturn s query)

/-! ### Back-links (R271, R272) -/

/-- The record of a back-link target: its own with every slot requested in the epoch appended, or the selection of R191 over
them where they do not fit. -/
def backRecord (sh : Shard) (c e : Nat) (req : List Nat) : List Nat :=
  let base := adjFor sh c e
  let extra := sortAsc id (req.filter fun x => !base.contains x && x != c)
  if base.length + extra.length ≤ sh.desc.degree then base ++ extra else chooseAdj sh c (base ++ extra)

/-- The requests for a target are served together: its version of the epoch is recomputed, and written unless it leaves the
record as it is. -/
def backLink (s : State) (part index c : Nat) : State :=
  match shardOf s part index with
  | none => s
  | some sh => match sh.backPend.get c with
    | none => s
    | some pend =>
      if !canWrite s sh c ∨ zeroRate s part tT3 ∨ zeroRate s part tT5 then overlayHeld s sh c else
      let e := s.epoch.cur
      let req := pend.foldl addSet (sh.backReq.getD c [])
      let new := backRecord sh c e req
      let same := !servedHere s sh c || sortAsc id new == sortAsc id (adjFor sh c e) && !sh.versions.any fun v => v.slot == c && !v.isAttr && v.pub == e + 1
      let s := if same then s else writeAdj (charge s part tT5 ((new.length + 1) * exactBytes sh.desc.numrec * nrDim sh.desc.numrec)) sh c new
      let s := s.updShard part index fun h => { h with backPend := h.backPend.del c, backReq := h.backReq.put c req }
      pend.foldl (fun s x =>
        match shardOf s part index with
        | none => s
        | some h =>
          if h.backPend.any fun e => e.2.contains x then s
          else match ringSeq h x with
            | some q => linkPart s part index q fun l => { l with backDone := true }
            | none => s) s

def execBackLink (part index slot : Nat) (s : State) : Out := .next (backLink s part index slot)

/-! ### The settler (R125, R133, R137, R141, R151, R217) -/

/-- No record of the shard names a slot any more. -/
def unnamed (sh : Shard) (x : Nat) : Bool := !(sh.adj.any fun e => e.2.contains x) && !(sh.versions.any fun v => v.adj.contains x)

/-- Slots that may return to the free list: settled deletions that repair reported and nothing names, and released ones whose
REPLACE versions have settled. An entry slot stays (R128). -/
def freeable (sh : Shard) : List Nat :=
  let a := sh.unref.filter fun x => srDelSettled (slotRec sh x) && unnamed sh x
  let b := (sh.released.filter fun r => srDelSettled (slotRec sh r.1) && !r.2.any sh.replaces.contains).map (·.1)
  (b.foldl addSet a).filter fun x => !sh.desc.entry.contains x

/-- Those slots are freed. -/
def freeSlots (s : State) (part index : Nat) : State :=
  match shardOf s part index with
  | none => s
  | some sh => (freeable sh).foldl (fun s x => freeSlot s part index x) s

/-- The tag that a settled change leaves an item (R133): none once its deletion has settled; LIVE with its rule bits, and still
UNSETTLED with the bits it had while an attribute change of it is unsettled (log entry 115). -/
def settledTag (sh : Shard) (x old : Nat) : Nat :=
  let r := slotRec sh x
  if srDeleted r ∧ srDelSettled r then 0
  else if sh.versions.any (fun v => v.slot == x && v.isAttr) then old ||| tagLive ||| tagUnsettled ||| ruleBits sh (attrNewest sh x)
  else tagLive + ruleBits sh (attrNewest sh x)

/-- The tags of an item, in the shard's region and in the fresh ring, brought to what R133 gives once a change has settled. -/
def retag (s : State) (part index x : Nat) : State :=
  match shardOf s part index with
  | none => s
  | some sh =>
    let s := if inRegion sh x then winWrite? s sh (tagAddr sh.desc.codeList x) (natLe 2 (settledTag sh x (slotTag s sh x))) else s
    match ringSeq sh x with
    | some q => let i := ringIdx sh q
      winWrite? s sh (tagAddr (ringWins sh) i) (natLe 2 (settledTag sh x (ringTag s sh i)))
    | none => s

/-- One ring entry settles: LINK_SETTLED, tags, and its ring index is released. -/
def settleLink (s : State) (part index q : Nat) : State :=
  match shardOf s part index with
  | none => s
  | some sh =>
    let i := ringIdx sh q
    let s := winWrite? s sh (tagAddr (ringWins sh) i) [0, 0]
    match (if ((sh.links.get q).map (·.empty)).getD true then none else sh.freshSlots.get i) with
    | none => s.updShard part index fun h => { h with links := h.links.del q, settled := q + 1 }
    | some x =>
      retag ((structTouch s sh 1 (16 * x) 16 true).updShard part index fun h => { h with
        links := h.links.del q, settled := q + 1, freshSlots := h.freshSlots.del i
        slots := h.slots.upd x fun r => setBits r 110 1 1 }) part index x

/-- Deletions visible in every epoch in use settle. -/
def settleDels (s : State) (part index : Nat) : State :=
  match shardOf s part index with
  | none => s
  | some sh =>
    let o := oldestInUse s part
    let l := (sh.slots.filter fun e => srDeleted e.2 && !srDelSettled e.2 && decide ((o + 2 ^ 20 - srDel e.2) % 2 ^ 20 < 2 ^ 19)).map (·.1)
    l.foldl (fun s x => retag (s.updShard part index fun h => { h with slots := h.slots.upd x fun r => setBits r 111 1 1 }) part index x) s

/-- End of the entries that every epoch in use reads as linked: the tail of the oldest epoch in use in which the shard serves;
none while that epoch has no record yet (R137, R141). -/
def settledEnd (s : State) (sh : Shard) : Option Nat := (recordOf sh (max (oldestInUse s sh.part) sh.firstServing)).map (·.tail)

/-- The settler brings a shard's links and deletions up to date, linked entries in ring order. -/
def settle (s : State) (part index : Nat) : State :=
  match shardOf s part index with
  | none => s
  | some sh =>
    if !serving sh ∨ sh.lost ∨ s.epoch.prepared ∨ zeroRate s part tT3 then s else
    let n := ((settledEnd s sh).getD sh.settled) - sh.settled
    let s := (List.range n).foldl (fun s i => settleLink s part index (sh.settled + i)) (charge s part tT3 (16 * n))
    freeSlots (settleDels s part index) part index

def execSettlerSettle (part index : Nat) (s : State) : Out := .next (settle s part index)

/-- The settler folds the versions that every epoch in use reads: body into the primary copy, tag, unlinking. -/
def foldVersions (s : State) (part index : Nat) : State :=
  match shardOf s part index with
  | none => s
  | some sh =>
    if !serving sh ∨ sh.lost ∨ s.epoch.prepared ∨ zeroRate s part tT3 then s else
    let o := oldestInUse s part
    let old := sh.versions.filter fun v => decide (v.pub ≤ o)
    let first (v : Version) : Bool := (old.find? fun w => w.slot == v.slot && w.isAttr == v.isAttr) == some v
    let go := old.filter first
    let s := charge s part tT3 (old.foldl (fun n v => n + 32 + (if v.isAttr then 32 else 4 * sh.desc.degree)) 0)
    let s := (go.filter fun v => !v.isAttr).foldl (fun s v => hotWrite (primaryTouch s sh v.slot true) sh v.slot v.adj) s
    let s := (go.filter (·.isAttr)).foldl (fun s v => structTouch s sh 4 (8 * v.slot) 8 true) s
    let s := s.updShard part index fun h => { dropVersions h (fun v => decide (v.pub ≤ o)) with
      replaces := h.replaces.filter fun r => !decide (r.2 ≤ o)
      adj := (go.filter fun v => !v.isAttr).foldl (fun m v => Smap.store [] m v.slot v.adj) h.adj
      attrs := (go.filter (·.isAttr)).foldl (fun m v => Smap.store 0 m v.slot v.attr) h.attrs }
    freeSlots ((go.filter (·.isAttr)).foldl (fun s v => retag s part index v.slot) s) part index

def execSettlerFold (part index : Nat) (s : State) : Out := .next (foldVersions s part index)

/-! ### Repair (R273, R274) -/

/-- Slots that a repaired record is chosen from: its owner's used entries that are not ghosts, with those of the ghosts it
names, without the owner. -/
def repairPool (s : State) (sh : Shard) (x : Nat) : Option (List Nat) :=
  let e := s.epoch.cur
  let ht := headTail sh e
  let ghost (y : Nat) : Bool := slotState sh y e ht.1 ht.2 == .ghost
  let l := adjFor sh x e
  if !l.any ghost then none
  else some ((((l.filter ghost).flatMap fun g => (adjFor sh g e).filter fun y => !ghost y).filter (· != x)).foldl addSet (l.filter fun y => !ghost y))

/-- The repair walk of a shard reads one record; after the last one the pass ends. -/
def repairWalk (s : State) (part index : Nat) : State :=
  match shardOf s part index with
  | none => s
  | some sh =>
    let running := decide (sh.repairPos ≠ 0)
    if hostMode s part 2 ∨ !serving sh ∨ sh.lost ∨ s.fld .epcPcfg2 part 0 12 = 0 ∨ zeroRate s part tT3 then s else
    let x := sh.repairPos
    if x ≥ sh.highWater then
      (freeSlots (s.updShard part index fun h => { h with
        repairPos := 0, repairOld := [], unref := h.repairOld.foldl addSet h.unref }) part index).event .epcPevent part 5
    else
      let pool := if servedHere s sh x then repairPool s sh x else none
      if pool.isSome ∧ !canWrite s sh x then overlayHeld s sh x else
      let s := charge s part tT3 (4 * sh.desc.degree)
      let s := match pool with
        | some l => writeAdj s sh x (chooseAdj sh x l)
        | none => s
      s.updShard part index fun h => { h with
        repairPos := x + 1
        repairOld := if running then h.repairOld else (h.slots.filter fun e => srDelSettled e.2).map (·.1) }

def execRepairWalk (part index : Nat) (s : State) : Out := .next (repairWalk s part index)

/-! ### LINK_SUPPLY (R275, R571) -/

/-- An entry: KIND, SLOT and record. -/
abbrev LinkEntry := Nat × Nat × List Nat

/-- The entries of an input, none where one is cut short or breaks its layout. -/
def linkEntries (degree : Nat) : Nat → List Byte → Option (List LinkEntry)
  | 0, b => if b.isEmpty then some [] else none
  | n + 1, b =>
    if b.isEmpty then some [] else
    let h := field b 0 8
    let k := bits h 32 2
    let w := if k = 3 then 8 else 8 + 4 * degree
    if k = 0 ∨ bits h 34 30 ≠ 0 ∨ b.length < w then none
    else (linkEntries degree n (b.drop w)).map
      ((k, bits h 0 32, if k = 3 then [] else (List.range degree).map fun i => field b (8 + 4 * i) 4) :: ·)

/-- Outcome of a link entry. -/
def linkOut (slot st epoch : Nat) : EntryOut :=
  { status := st, state := if st = stOk then 2 else 0, slot := slot, epoch := epoch, flags := 0, gid := 0, old := nullSlot }

/-- One entry: refused, held back, or carried out. -/
def linkEntry (s : State) (n : Nat) (c : Cmd) (e : LinkEntry) : Except (Option Nat) State :=
  match shardOf s c.part (eIndex c.entry) with
  | none => .ok (s.addOut n (linkOut e.2.1 stInvalid 0))
  | some sh =>
    let (k, x, l) := e
    let cur := s.epoch.cur
    let ht := headTail sh cur
    let st := slotState sh x cur ht.1 ht.2
    let bad := Except.ok (s.addOut n (linkOut x stInvalid 0))
    let used := l.takeWhile (· != nullSlot)
    if k = 3 then
      if !srDeleted (slotRec sh x) then bad
      else .ok (freeSlots ((s.updShard c.part sh.index fun h => { h with
        released := h.released ++ [(x, h.replaces)] }).addOut n (linkOut x stOk cur)) c.part sh.index)
    else if !adjOk sh x l ∨ (k = 1 ∧ st ≠ .fresh) ∨ (k = 2 ∧ st ≠ .graph) then bad
    else if s.epoch.prepared then .error none
    else if !overlayRoom sh x false (cur + 1) then .error (some 1)
    else
      let s := (writeAdj s sh x used).addOut n (linkOut x stOk cur)
      if k = 2 then .ok (s.updShard c.part sh.index fun h => { h with replaces := if h.replaces.contains (x, cur + 1) then h.replaces else h.replaces ++ [(x, cur + 1)] })
      else match ringSeq sh x with
        | none => .ok s
        | some q => .ok (linkPart (copyCode s sh x q) c.part sh.index q fun p => { p with
            walked := true, recDone := true, backDone := true, codeDone := true })

/-- LINK_SUPPLY: the check of the whole, then the entries in order; run again, it goes on with one that was held back. -/
def linkSupply (s : State) (n : Nat) : State :=
  match s.host.cmds.get n with
  | none => s
  | some c =>
    if eOpcode c.entry ≠ 0x87 ∨ c.phase = .done then s else
    match shardOf s c.part (eIndex c.entry) with
    | none => if c.phase = .admitted then endWith s n stInvalid else s
    | some sh =>
      let es := (linkEntries sh.desc.degree 4096 (inputData s c.entry)).getD []
      let go (s : State) (k : Nat) : State :=
        endBatch (placeAll (fun s c i => linkEntry s n c (es.getD i (3, nullSlot, []))) k s n) n
      if c.phase = .running then go s (c.total - c.next)
      else if !serving sh ∨ !c.mode 2 ∨ es.isEmpty ∨ eResultLen c.entry < 8 * es.length then endWith s n stInvalid
      else if sh.lost then endWith s n stFaultedNone
      else go (s.updCmd n fun c => { c with phase := .running, total := es.length }) es.length

def execLinkSupply (cmd : Nat) (s : State) : Out := .next (linkSupply s cmd)

end Sys2Proof.Machine
end

