-- ==== Sys2Proof/Machine/ShardImage.lean ====
section
/-! DEFINITION. The bytes of an index's structures in T3: where they lie in the partition's allotment, and what each of their
64-byte lines holds (05_index_layout R126, R129, R134, R138, R139, R142, R145, R148, R149, R154; 13_felt_flash R387). -/
namespace Sys2Proof.Machine
open Sys2Proof

/-! ### Placement in the allotment (R126, R387) -/

/-- Bytes rounded up to whole 64-byte lines. -/
def lineUp (n : Nat) : Nat := 64 * ceilDiv n 64

/-- Bytes of the T3 structures of a shard, in the order of `Shard.t3`. -/
def t3Sizes (d : ShardDesc) : List Nat :=
  let n := d.slotLimit
  [d.numrec.length, 16 * n, 64 * ceilDiv n 7, 4 * d.degree * n, 8 * n, ceilDiv n 8, ceilDiv n 8, d.ovlSize * 2 ^ 20,
    2 * d.codeList.length, 2 * d.normList.length, 4 * d.freshEntries, 1024].map lineUp

/-- Felt's map and the journal locators, at the top of a partition's allotment (R387). -/
def t3Top (s : State) (p extra : Nat) : Nat :=
  cfgFlashGib s.img.cfg p * 2 ^ 21 + 8 * (extra + (s.shards.filter fun e => e.2.part == p).foldl (fun n e => n + e.2.desc.freshEntries) 0)

/-- Spans of a partition's T3 that its shards' structures take, by address. -/
def t3Held (s : State) (p : Nat) : List (Nat × Nat) :=
  sortAsc (·.1) ((s.shards.filter fun e => e.2.part == p).flatMap fun e => e.2.t3.zip (t3Sizes e.2.desc))

/-- Structures placed one after another, each in the first gap that takes it; the count bounds them. -/
def t3Place (top : Nat) (bottom : Nat) : List (Nat × Nat) → List (Nat × Nat) → Option (List (Nat × Nat))
  | [], _ => some []
  | (k, n) :: t, held => (unitGap top n held bottom).bind fun a =>
      (t3Place top bottom t (sortAsc (·.1) ((a, n) :: held))).map ((k, a) :: ·)

/-- Addresses for the structures of a new shard, none where they do not fit below the map and the locators. The order in which
they are placed is open: a free value chooses where it starts (log entry 113). -/
def t3Home (s : State) (p : Nat) (d : ShardDesc) : Option (List Nat) :=
  let a := cfgDdr s.img.cfg p
  let lo := a.1 * 2 ^ 30
  let hi := (a.1 + a.2) * 2 ^ 30
  let todo := (((t3Sizes d).zipIdx).map fun x => (x.2, x.1)).rotateLeft (Config.freeNat s.free % 12)
  if hi < lo + t3Top s p d.freshEntries then none
  else (t3Place (hi - t3Top s p d.freshEntries) lo todo (t3Held s p)).map fun l => (sortAsc (·.1) l).map (·.2)

/-! ### The descriptor (R126, R129) -/

/-- Code of a shard's STATE; a shard being sealed is still BUILDING. -/
def phaseCode : ShardPhase → Nat
  | .building => 1 | .sealing => 1 | .serving => 2 | .retiring => 3

/-- HOT_ADDR; a shard without hot slots has no hot copy, and the field is zero (log entry 114). -/
def hotField (d : ShardDesc) : Nat := if d.hotSlots = 0 then 0 else 0x020000000000 + d.hotWin * 0x40000000

/-- The 1 KiB descriptor. -/
def descriptorBytes (sh : Shard) : List Byte :=
  let d := sh.desc
  let at_ (k : Nat) : List Byte := natLe 8 (sh.t3.getD k 0)
  natLe 1 (phaseCode sh.phase) ++ natLe 1 d.degree ++ natLe 1 d.ntag ++ natLe 1 d.ncol ++ natLe 4 d.slotLimit ++ natLe 4 d.hotSlots ++
    natLe 4 (ceilDiv d.slotLimit 7) ++ at_ 0 ++ at_ 1 ++ at_ 2 ++ at_ 3 ++ at_ 4 ++ at_ 5 ++ at_ 6 ++ at_ 7 ++ natLe 4 d.ovlSize ++
    natLe 4 d.freshEntries ++ at_ 8 ++ at_ 9 ++ natLe 2 d.freshWin ++ natLe 6 0 ++ at_ 10 ++ natLe 8 (hotField d) ++
    d.schema.flatMap (natLe 2) ++ d.tagRules.flatMap (natLe 8) ++ ((List.range 16).flatMap fun i => natLe 4 (d.entry.getD i nullSlot)) ++
    natLe 192 0 ++ (List.range 16).flatMap fun i =>
      let e := sh.epochTable.getD i { epoch := 0, head := 0, tail := 0 }
      natLe 8 e.epoch ++ natLe 8 e.head ++ natLe 8 e.tail ++ natLe 8 0

/-! ### Versions and their directory (R148, R149) -/

/-- The bytes of a version record; PREV is the address of the next older version of its slot. -/
def versionBytes (sh : Shard) (v : Version) : List Byte :=
  let older := ((sh.versions.dropWhile fun w => w.off != v.off).drop 1).find? fun w => w.slot == v.slot
  let prev := (older.map fun w => sh.t3.getD 7 0 + 32 * w.off).getD 0
  natLe 4 v.slot ++ natLe 1 (if v.isAttr then 2 else 1) ++ natLe 1 0 ++ natLe 6 v.pub ++ natLe 4 0 ++ natLe 8 prev ++ natLe 8 0 ++
    (if v.isAttr then natLe 32 v.attr else adjBytes sh.desc.degree v.adj)

/-- A directory entry; an unused one names the null slot (log entry 113). -/
def dirEntry (sh : Shard) (i : Nat) : Nat :=
  match sh.dir.get i with
  | some x => x + 2 ^ 32 * ((sh.versions.find? fun v => v.slot == x).map (·.off)).getD 0
  | none => nullSlot

/-- A 32-byte unit of the overlay region: a part of the directory, or of the version record that lies there; what lies in
no record is open. -/
def ovlUnit (s : State) (sh : Shard) (u : Nat) : List Byte :=
  if u < sh.desc.ovlSize * 2 ^ 12 then (List.range 4).flatMap fun i => natLe 8 (dirEntry sh (4 * u + i))
  else match sh.versions.find? fun v => decide (v.off ≤ u) && decide (u < v.off + verUnits sh v.isAttr) with
    | some v => slice (versionBytes sh v) (32 * (u - v.off)) 32
    | none => slice (Config.freeBytes (s.free + u) 32) 0 32

/-! ### Lines (R134, R138, R139, R142, R145, R154) -/

/-- Eight bits of a bitmap by slot. -/
def mapByte (p : Nat → Bool) (i : Nat) : Byte := BitVec.ofNat 8 (((List.range 8).map fun b => b2n (p (8 * i + b)) * 2 ^ b).sum)

/-- Line `i` of structure `k` of a shard. -/
def structLine (s : State) (sh : Shard) (k i : Nat) : List Byte :=
  let d := sh.desc
  let each (n w : Nat) (f : Nat → Nat) : List Byte := (List.range n).flatMap fun j => natLe w (f (n * i + j))
  match k with
  | 0 => slice d.numrec (64 * i) 64
  | 1 => each 4 16 (slotRec sh)
  | 2 => each 8 8 fun e => sh.idmap.getD e nullSlot
  | 3 => each 16 4 fun e => ((sh.adj.getD (e / max 1 d.degree) [])).getD (e % max 1 d.degree) nullSlot
  | 4 => each 8 8 fun x => sh.attrs.getD x 0
  | 5 => (List.range 64).map fun j => mapByte sh.tomb.contains (64 * i + j)
  | 6 => (List.range 64).map fun j => mapByte (fun x => sh.versions.any fun v => v.slot == x) (64 * i + j)
  | 7 => ovlUnit s sh (2 * i) ++ ovlUnit s sh (2 * i + 1)
  | 8 => each 32 2 fun j => d.codeList.getD j 0
  | 9 => each 32 2 fun j => d.normList.getD j 0
  | 10 => each 16 4 fun j => sh.freshSlots.getD j nullSlot
  | _ => slice (descriptorBytes sh) (64 * i) 64

/-- The shard and structure that a T3 byte address lies in, with the line within the structure. -/
def structAt (s : State) (a : Nat) : Option (Shard × Nat × Nat) :=
  s.shards.findSome? fun e =>
    (((e.2.t3.zip (t3Sizes e.2.desc)).zipIdx).find? fun x => decide (x.1.1 ≤ a) && decide (a < x.1.1 + x.1.2)).map
      fun x => (e.2, x.2, (a - x.1.1) / 64)

/-- A T3 byte address lies in a partition's map or locators, whose layout the spec does not give (R387). -/
def inT3Top (s : State) (a : Nat) : Bool :=
  (List.range 64).any fun p =>
    let d := cfgDdr s.img.cfg p
    decide (d.2 > 0) && decide (a < (d.1 + d.2) * 2 ^ 30) && decide ((d.1 + d.2) * 2 ^ 30 ≤ a + t3Top s p 0)

/-- A T3 line as a reader finds it: of a structure, of Felt's tables (free values), or what has been stored there. -/
def t3Line (s : State) (l : Nat) : List Byte :=
  match structAt s (64 * l) with
  | some (sh, k, i) => structLine s sh k i
  | none => if inT3Top s (64 * l) then slice (Config.freeBytes (s.free + l) 64) 0 64 else tierRead s.mem.t3 (64 * l) 64

/-- Bytes of T3. -/
def t3Read (s : State) (a n : Nat) : List Byte :=
  slice ((List.range (ceilDiv (a % 64 + n) 64)).flatMap fun i => t3Line s (a / 64 + i)) (a % 64) n

end Sys2Proof.Machine
end

