-- ==== Sys2Proof/Machine/IndexAdmin.lean ====
section
/-! DEFINITION. Index administration: creation, description, bulk load, sealing, relocation, retirement and host histograms
(05_index_layout R121 to R129, R155 to R159; 18_command_set R563 to R570). -/
namespace Sys2Proof.Machine
open Sys2Proof

/-! ### INDEX_CREATE (R339, R379, R387, R563, R564) -/

/-- The shard descriptor that a parameter block describes. -/
def createDesc (b numrec : List Byte) : ShardDesc :=
  let nc := field b 0x14 2
  { degree := field b 0 1, ntag := field b 2 1, ncol := field b 1 1, slotLimit := field b 4 4, hotSlots := field b 8 4
    ovlSize := field b 0x10 4, freshEntries := field b 0x0C 4
    codeList := (List.range (min nc 265)).map fun i => field b (0xC0 + 2 * i) 2
    normList := (List.range (min (field b 3 1) 8)).map fun i => field b (0xC0 + 2 * nc + 2 * i) 2
    freshWin := field b 0x16 2, hotWin := field b 0x18 2
    schema := (List.range 8).map fun i => field b (0x20 + 2 * i) 2
    tagRules := (List.range 14).map fun i => field b (0x30 + 8 * i) 8
    entry := [], numrec := numrec }

/-- Every field keeps to the table of R563. -/
def createFieldsOk (b : List Byte) (d : ShardDesc) : Bool :=
  let nc := field b 0x14 2
  let nn := field b 3 1
  let need := 0xC0 + 2 * nc + 2 * nn
  [16, 32, 48, 64].contains d.degree && decide (d.ncol ≤ 8) && decide (d.ntag ≤ 14) && decide (1 ≤ nn) && decide (nn ≤ 8) &&
    decide (1 ≤ nc) && decide (nc ≤ 265) && decide (1 ≤ d.slotLimit) && decide (d.hotSlots ≤ d.slotLimit) &&
    decide (4 * d.degree * d.hotSlots ≤ 2 ^ 30) && decide (d.freshEntries % 1024 = 0) && decide (1024 ≤ d.freshEntries) &&
    decide (d.freshEntries ≤ 4194304) && decide (1 ≤ d.ovlSize) && decide (d.ovlSize ≤ 65536) &&
    (decide (d.hotSlots = 0) == decide (d.hotWin = 0xFFFF)) && zeroAt b 0x1A 6 && zeroAt b 0xA0 32 && decide (need ≤ b.length) &&
    zeroAt b need (b.length - need) && decide (nc * 16267264 ≥ d.slotLimit) && decide (nn * 2 ^ 29 ≥ d.slotLimit) &&
    schemaOk (d.schema.take d.ncol) && (d.schema.drop d.ncol).all (· == 0) && (d.tagRules.drop d.ntag).all (· == 0) &&
    (d.tagRules.take d.ntag).all (termOk d.schema d.ncol)

/-- Windows of a descriptor with the BARE and USE values of their roles (R39). -/
def descWins (d : ShardDesc) : List (Nat × Bool × Nat) :=
  d.codeList.map (fun w => (w, true, 1)) ++ d.normList.map (fun w => (w, false, 3)) ++ [(d.freshWin, true, 2)] ++
    (if d.hotSlots = 0 then [] else [(d.hotWin, false, 7)])

/-- Windows that the partition's shards hold, targets of relocations among them. -/
def heldWins (s : State) (p : Nat) : List Nat :=
  (s.shards.filter fun e => e.2.part == p).flatMap fun e => (descWins e.2.desc).map (·.1) ++ (e.2.reloc.map fun r => r.2.2).toList

/-- A window is owned by a partition with given BARE and USE values, and is not being scrubbed (R59). -/
def winIs (s : State) (p : Nat) (w : Nat × Bool × Nat) : Bool :=
  decide (w.1 < 480) && !s.img.scrubWin.has w.1 && cfgWinOwner s.img.cfg w.1 == p && cfgWinBare s.img.cfg w.1 == w.2.1 && cfgWinUse s.img.cfg w.1 == w.2.2

/-- Codewords of a shard's flash vector region (R379). -/
def vectorCodewords (d : ShardDesc) : Nat :=
  let v := 64 * ceilDiv (nrDim d.numrec * exactBytes d.numrec) 64
  if v ≤ 4096 then ceilDiv d.slotLimit (4096 / v) else d.slotLimit * ceilDiv v 4096

/-- The partition has room for a further shard: T3 with the journal locators, Sheet cache and flash (R339, R379, R387). -/
def createRoom (s : State) (p : Nat) (d : ShardDesc) : Bool :=
  let ds := d :: (s.shards.filter fun e => e.2.part == p).map (·.2.desc)
  (t3Home s p d).isSome && pinsFit (cfgSheetCache s.img.cfg p) (((t3Home s p d).map (·.getD 11 0)).toList ++ (s.shards.filter fun e => e.2.part == p).filterMap fun e => e.2.t3[11]?) &&
    decide ((ds.map vectorCodewords).sum * 4096 ≤ cfgFlashGib s.img.cfg p * 2 ^ 30)

/-- A histogram that counts nothing. -/
def Hist.empty : Hist := { host := false, reused := false, nLive := 0, words := [] }

/-- A shard that holds nothing, with its structures at given addresses. -/
def newShard (p index : Nat) (d : ShardDesc) (t3 : List Nat) : Shard :=
  { part := p, index := index, phase := .building, desc := d, t3 := t3, epochTable := List.replicate 16 { epoch := 0, head := 0, tail := 0 }, inUse := []
    highWater := 0, free := [], slots := [], adj := [], attrs := [], tomb := [], versions := [], dir := [], idmap := [], freshSlots := [], ringNext := 0
    ringHead := 0, ringTail := 0, links := [], settled := 0, backReq := [], backPend := [], linkedLate := [], nextRec := none
    running := Hist.empty, frozen := [], hostHist := [], firstServing := 0, loadQp := none, hostAdj := true, sealCmd := none, retire := none
    reloc := none, repairPos := 0, repairOld := [], unref := [], replaces := [], released := [], vectors := [], jvectors := [], latents := [], ckpt := none
    ckptNow := none, ckptPrev := none, lost := false }

/-- A window of T2 emptied, its shadow CRCs with it. -/
def clearWin (s : State) (w : Nat) : State :=
  s.mapLichen fun l => { l with
    t2 := l.t2.filter fun e => e.1 / 2 ^ 24 != w, shadow := l.shadow.filter fun e => e.1 / 2 ^ 18 != w }

/-- The windows of a new shard: codes and tags zero, also in the fresh ring, and every record of the hot copy null (R130, R133,
R144). -/
def emptyWins (s : State) (sh : Shard) : State :=
  let s := (sh.desc.codeList ++ [sh.desc.freshWin]).foldl clearWin s
  (List.range sh.desc.hotSlots).foldl (fun s x => hotWrite s sh x []) s

/-- INDEX_CREATE. -/
def indexCreate (s : State) (n : Nat) (c : Cmd) : State :=
  let b := paramBlock s c.entry
  let rec_ := inputData s c.entry
  let d := createDesc b rec_
  let ws := descWins d
  let held := heldWins s c.part
  let names := ws.map (·.1)
  if (shardOf s c.part (eIndex c.entry)).isSome ∨ b.length < 192 ∨ !numrecOk rec_ ∨ !createFieldsOk b d ∨ !ws.all (winIs s c.part) ∨
      !decide names.Nodup ∨ names.any held.contains then endWith s n stInvalid
  else if !createRoom s c.part d then endWith s n stQuota
  else
    let sh := newShard c.part (eIndex c.entry) d ((t3Home s c.part d).getD [])
    let s := (s.mapShards fun m => Smap.put m (64 * c.part + eIndex c.entry) sh).mapFelt fun f =>
      { f with locators := addSet f.locators (64 * c.part + eIndex c.entry) }
    endWith (emptyWins s sh).drawn n stOk

def execIndexCreate (cmd : Nat) (s : State) : Out :=
  .next (onAdmitted s cmd [0x80] fun c => onTiers s cmd c.part [tT4, tT3] fun s => indexCreate s cmd c)

/-! ### INDEX_DESCRIBE (R126, R129, R565) -/

/-- PROGRESS of an INDEX_DESCRIBE, whatever its status: PRESENT and the STATE code (R540). -/
def describeProgress (s : State) (c : Cmd) : Nat :=
  match shardOf s c.part (eIndex c.entry) with
  | none => 0
  | some sh => 1 + 2 * phaseCode sh.phase

/-- INDEX_DESCRIBE. -/
def indexDescribe (s : State) (n : Nat) (c : Cmd) : State :=
  if eResultLen c.entry < 1024 then finish s n stInvalid (describeProgress s c) 0
  else match shardOf s c.part (eIndex c.entry) with
    | none => finish (putResult s n 0 (natLe 1024 0)) n stOk 0 0
    | some sh => finish (putResult s n 0 (slice (descriptorBytes sh) 0 1024)) n stOk (describeProgress s c) 0

def execIndexDescribe (cmd : Nat) (s : State) : Out :=
  .next (onAdmitted s cmd [0x81] fun c => onTiers s cmd c.part [tT3] fun s => indexDescribe s cmd c)

/-! ### INDEX_RETIRE (R566) -/

/-- INDEX_RETIRE: the shard enters RETIRING at the next boundary. -/
def indexRetire (s : State) (n : Nat) (c : Cmd) : State :=
  match shardOf s c.part (eIndex c.entry) with
  | none => endWith s n stInvalid
  | some sh =>
    if sh.retire.isSome ∨ (compOf s c.part sh.index).isSome then endWith s n stInvalid
    else markRunning (s.updShard c.part sh.index fun h => { h with retire := some (n, 0) }) n

def execIndexRetire (cmd : Nat) (s : State) : Out := .next (onAdmitted s cmd [0x82] fun c => indexRetire s cmd c)

/-! ### INDEX_RELOCATE (R156, R567, R589) -/

/-- A window's content copied to another one. -/
def copyWin (s : State) (src dst : Nat) : State :=
  let s := clearWin s dst
  s.mapLichen fun l => { l with
    t2 := (l.t2.filter fun e => e.1 / 2 ^ 24 == src).foldl (fun m e => Smap.put m (2 ^ 24 * dst + e.1 % 2 ^ 24) e.2) l.t2
    shadow := (l.shadow.filter fun e => e.1 / 2 ^ 18 == src).foldl (fun m e => Smap.put m (2 ^ 18 * dst + e.1 % 2 ^ 18) e.2) l.shadow }

/-- A target window built from T5, the slot records and the primary adjacency records, because its source is fenced: codes and
tags, norms, hot adjacency, or ring entries from the journal (R589). -/
def buildWin (s : State) (sh : Shard) (src dst : Nat) : State :=
  let s := clearWin s dst
  let move (a : Option Nat) : Option Nat := a.bind fun a => if a / 2 ^ 30 = src then some (2 ^ 30 * dst + a % 2 ^ 30) else none
  let put (s : State) (a : Option Nat) (b : List Byte) : State := match a with | some a => t2Write s a b | none => s
  let s := if sh.desc.hotWin = src then
      (List.range sh.desc.hotSlots).foldl (fun s x => put s (move (hotAddr sh x)) (adjBytes sh.desc.degree (sh.adj.getD x []))) s
    else s
  let s := sh.slots.foldl (fun s e =>
    let x := e.1
    let s := put s (move (codeAddr sh.desc.codeList x)) (rebuiltCode sh x)
    let s := put s (move (tagAddr sh.desc.codeList x)) (natLe 2 (rebuiltTag s sh x))
    match exactOf sh x with
    | some v => put s (move (normAddr sh x)) (natLe 2 (formsOf sh.desc.numrec v).1.norm)
    | none => s) s
  sh.freshSlots.foldl (fun s e =>
    let s := put s (move (codeAddr (ringWins sh) e.1)) (rebuiltCode sh e.2)
    put s (move (tagAddr (ringWins sh) e.1)) (natLe 2 (tagLive + ruleBits sh (attrNewest sh e.2) + b2n (sh.versions.any (·.slot == e.2)) * tagUnsettled))) s

/-- INDEX_RELOCATE: the window is copied now, changes go to both until the boundary, which switches the window list. A second
relocation of a shard waits for the first. -/
def indexRelocate (s : State) (n : Nat) (c : Cmd) : State :=
  let b := paramBlock s c.entry
  let src := field b 0 2
  let dst := field b 2 2
  match shardOf s c.part (eIndex c.entry) with
  | none => endWith s n stInvalid
  | some sh =>
    match (descWins sh.desc).find? fun w => w.1 == src with
    | none => endWith s n stInvalid
    | some w =>
      if b.length ≠ 64 ∨ !zeroAt b 4 60 ∨ sh.phase = .retiring ∨ !winIs s c.part (dst, w.2) ∨ (heldWins s c.part).contains dst then
        endWith s n stInvalid
      else if sh.reloc.isSome then s
      else
        let s := markRunning s n
        let s := if winUp s src then copyWin s src dst else buildWin s sh src dst
        s.updShard c.part sh.index fun h => { h with reloc := some (n, src, dst) }

def execIndexRelocate (cmd : Nat) (s : State) : Out :=
  .next (onAdmitted s cmd [0x83] fun c => onTiers s cmd c.part [tT2, tT4] fun s => indexRelocate s cmd c)

/-! ### BULK_LOAD (R157, R568) -/

/-- An item of a bulk load. -/
structure BulkItem where
  gid : Nat
  attr : Nat
  forms : ItemForms
  adj : List Nat
  deriving DecidableEq, Repr

/-- The items of a bulk load, none where an entry breaks a rule; `p` is the slot of the first one. -/
def bulkItems (sh : Shard) (vf w : Nat) (withAdj : Bool) (p : Nat) (data : List Byte) : Nat → Nat → Option (List BulkItem)
  | 0, _ => some []
  | k + 1, i =>
    let b := slice data (i * w) w
    let dim := nrDim sh.desc.numrec
    let v := 16 + dim * vfmtBytes vf
    let adj := if withAdj then (List.range sh.desc.degree).map fun j => field b (v + 4 * j) 4 else []
    let used := v + 4 * adj.length
    match prepareItem sh.desc.numrec (inputVector vf dim (b.drop 16)) with
    | none => none
    | some f =>
      if field b 0 8 = 2 ^ 64 - 1 ∨ !zeroAt b used (w - used) ∨ (withAdj ∧ !adjOk sh (p + i) adj) then none
      else (bulkItems sh vf w withAdj p data k (i + 1)).map
        ({ gid := field b 0 8, attr := field b 8 8, forms := f, adj := adj.takeWhile (· != nullSlot) } :: ·)

/-- An item put in the next slot of a BUILDING shard: none where the ID map cannot place it (R155). -/
def bulkPut (s : State) (part index : Nat) (e : BulkItem) : Option State :=
  match shardOf s part index with
  | none => none
  | some sh =>
    let x := sh.highWater
    (idInsert s sh e.gid x).map fun h =>
      let s := s.updShard part index fun _ => { h with
        highWater := x + 1, slots := h.slots.put x (newSlotRec e.gid 0 false), attrs := h.attrs.store 0 x e.attr
        adj := h.adj.store [] x e.adj, vectors := h.vectors.put x e.forms.exact, running := histItem h h.running true e.attr }
      let s := hotWrite (winWrite? s sh (codeAddr sh.desc.codeList x) e.forms.code) sh x e.adj
      (winWrite? s sh (normAddr sh x) (natLe 2 e.forms.norm)).drawn

/-- Items put one after another; none where one cannot be. -/
def bulkPuts (part index : Nat) : List BulkItem → State → Option State
  | [], s => some s
  | e :: t, s => (bulkPut s part index e).bind (bulkPuts part index t)

/-- Items of the shard a build command names. -/
def buildCount (s : State) (c : Cmd) : Nat := ((shardOf s c.part (eIndex c.entry)).map (·.highWater)).getD 0

/-- A BULK_LOAD or SEAL that is refused: PROGRESS still gives the items in the shard (R540). -/
def endItems (s : State) (n : Nat) (c : Cmd) (st : Nat) : State := finish s n st (buildCount s c) 0

/-- BULK_LOAD. A load past SLOT_LIMIT has no slot (R124), and an ID used twice is one the map holds (R155; log entry 23). -/
def bulkLoad (s : State) (n : Nat) (c : Cmd) : State :=
  match shardOf s c.part (eIndex c.entry) with
  | none => endItems s n c stInvalid
  | some sh =>
    let vf := bits (eArg0 c.entry) 0 2
    let withAdj := bit (eArg0 c.entry) 2
    let w := 64 * ceilDiv (16 + nrDim sh.desc.numrec * vfmtBytes vf + (if withAdj then 4 * sh.desc.degree else 0)) 64
    let k := eDataLen c.entry / w
    let qp := c.qp.getD 16384
    if sh.phase ≠ .building ∨ vf = 3 ∨ eDataLen c.entry % w ≠ 0 ∨ k = 0 ∨ k > 4096 ∨ (sh.loadQp.isSome ∧ (sh.loadQp ≠ some qp ∨ sh.hostAdj ≠ withAdj)) then
      endItems s n c stInvalid
    else match bulkItems sh vf w withAdj sh.highWater (inputData s c.entry) k 0 with
      | none => endItems s n c stInvalid
      | some l =>
        let ids := l.map (·.gid)
        if !decide ids.Nodup ∨ ids.any (fun g => (idSlot s sh g).isSome) then endItems s n c stInvalid
        else if sh.highWater + k > sh.desc.slotLimit then endItems s n c stQuota
        else match bulkPuts c.part sh.index l s with
          | none => endItems s n c stQuota
          | some t =>
            finish (t.updShard c.part sh.index fun h => { h with loadQp := some qp, hostAdj := withAdj }) n stOk (sh.highWater + k) 0

def execBulkLoad (cmd : Nat) (s : State) : Out :=
  .next (onAdmitted s cmd [0x84] fun c => onTiers s cmd c.part [tT4, tT2, tT3, tT5] fun s => bulkLoad s cmd c)

/-! ### SEAL (R158, R159, R569) -/

/-- A round of a walk over a graph being built; the walk ends when its queue holds nothing to expand. -/
def buildRounds (s : State) (sh : Shard) : Nat → Query → Query
  | 0, q => q
  | k + 1, q =>
    let r := roundState s sh q
    let pick := (r.queue.filter fun e => !e.expanded).take r.beam
    if pick.isEmpty then r
    else buildRounds s sh k { r with
      round := r.round + 1, queue := r.queue.map fun e => if pick.contains e then { e with expanded := true } else e
      frontier := (pick.flatMap fun e => sh.adj.getD e.slot []).foldl addSet [] }

/-- The shard as the walks of a batch see it: the items before the batch and the entry slots are in the graph, the others
are not (R158; the entry slots: DEDUCED, log entry 25). -/
def buildView (sh : Shard) (entry : List Nat) (first : Nat) : Shard :=
  { sh with slots := sh.slots.map fun e => (e.1, if e.1 < first ∨ entry.contains e.1 then setBits e.2 110 1 1 else setBits e.2 108 1 0) }

/-- The record that an item's walk chooses while its batch is built. -/
def buildChoice (s : State) (view : Shard) (entry : List Nat) (x : Nat) : List Nat :=
  let q := walkQuery s view 0 x 0
  let r := buildRounds s view (view.highWater + 2) { q with frontier := entry }
  chooseAdj view x ((finalize r.stream).map (·.slot))

/-- A back-link of `c` to `x` in a graph being built. -/
def buildBack (sh : Shard) (c x : Nat) : Shard :=
  let l := sh.adj.getD c []
  if c = x ∨ l.contains x then sh
  else if l.length < sh.desc.degree then { sh with adj := sh.adj.put c (l ++ [x]) }
  else { sh with adj := sh.adj.put c (chooseAdj sh c (l ++ [x])) }

/-- One batch of 4,096 items linked: its walks' records, then their back-links in slot order. -/
def buildBatch (s : State) (sh : Shard) (entry : List Nat) (first : Nat) : Shard :=
  let view := buildView sh entry first
  let xs := (List.range (min 4096 (sh.highWater - first))).map (first + ·)
  let recs := xs.map fun x => (x, buildChoice s view entry x)
  let sh := recs.foldl (fun h e => { h with adj := Smap.store [] h.adj e.1 e.2 }) sh
  recs.foldl (fun h e => e.2.foldl (fun h c => buildBack h c e.1) h) sh

/-- The graph that sealing builds. -/
def buildGraph (s : State) (sh : Shard) (entry : List Nat) : Shard :=
  (List.range (ceilDiv sh.highWater 4096)).foldl (fun h i => buildBatch s h entry (4096 * i)) sh

/-- SEAL: the entry list is taken, the items are linked unless they carry their records, and the shard waits for the
boundary. -/
def sealShard (s : State) (n : Nat) (c : Cmd) : State :=
  let b := paramBlock s c.entry
  let k := field b 0 1
  let es := (List.range 16).map fun i => field b (0x40 + 4 * i) 4
  match shardOf s c.part (eIndex c.entry) with
  | none => endItems s n c stInvalid
  | some sh =>
    if sh.phase ≠ .building ∨ b.length ≠ 128 ∨ k > 16 ∨ !zeroAt b 1 0x3F ∨ (es.drop k).any (· != nullSlot) ∨
        (es.take k).any (fun x => decide (x ≥ sh.highWater)) then endItems s n c stInvalid
    else
      let entry := if k = 0 then [0] else es.take k
      let built := if sh.hostAdj ∧ sh.loadQp.isSome then sh else buildGraph s sh entry
      let s := built.adj.foldl (fun s e => hotWrite s sh e.1 e.2) s
      markRunning (s.updShard c.part sh.index fun h => { h with
        phase := .sealing, sealCmd := some n, adj := built.adj, desc := { h.desc with entry := entry } }) n

def execSeal (cmd : Nat) (s : State) : Out :=
  .next (onAdmitted s cmd [0x85] fun c => onTiers s cmd c.part [tT4, tT3] fun s => sealShard s cmd c)

/-! ### HIST_LOAD (R178, R181, R570) -/

/-- The record of R178 that a host supplied: none where it breaks its layout. -/
def hostHistogram (sh : Shard) (epoch : Nat) (b : List Byte) : Option Hist :=
  let w (i : Nat) : Nat := field b (4 * i) 4
  let unused := (List.range 8).all fun c =>
    let wd := if c < sh.desc.ncol then colWidth (sh.desc.schema.getD c 0) else 0
    (decide (c < sh.desc.ncol) || zeroAt b (4 * (4 + 288 * c)) 1024) && zeroAt b (4 * (260 + 288 * c + wd)) (4 * (32 - wd))
  if b.length ≠ 9232 ∨ w 0 + bits (w 1) 0 16 * 2 ^ 32 ≠ epoch ∨ bits (w 1) 16 16 ≠ 1 ∨ w 3 ≠ 0 ∨ !unused then none
  else some
    { host := true, reused := false, nLive := w 2
      words := (List.range 2304).foldl (fun m i => Smap.store 0 m (4 + i) (w (4 + i))) [] }

/-- HIST_LOAD. -/
def histLoad (s : State) (n : Nat) (c : Cmd) : State :=
  match shardOf s c.part (eIndex c.entry) with
  | none => endWith s n stInvalid
  | some sh =>
    match if c.mode 4 ∧ sh.phase ≠ .retiring ∧ eDataLen c.entry = 9232 then hostHistogram sh c.epoch (inputData s c.entry) else none with
    | none => endWith s n stInvalid
    | some h =>
      if c.epoch ≤ s.epoch.cur then endWith s n stEpochExpired
      else endWith (s.updShard c.part sh.index fun x => { x with hostHist := x.hostHist.put c.epoch h }) n stOk

def execHistLoad (cmd : Nat) (s : State) : Out :=
  .next (onAdmitted s cmd [0x86] fun c => onTiers s cmd c.part [tT4, tT3] fun s => histLoad s cmd c)

end Sys2Proof.Machine
end

