-- ==== Sys2Proof/Machine/Release.lean ====
section
/-! DEFINITION. What the end of a command lets go: a DRAINING partition (R58), a RETIRING shard (R566), a model copy that
nothing names (R308). -/
namespace Sys2Proof.Machine
open Sys2Proof

/-- A DRAINING partition whose last admitted command has completed becomes DRAINED, and its pinned epochs are released
(R58). -/
def partitionDrained (s : State) (p : Nat) : State :=
  if partState s p = .draining ∧ !(s.host.cmds.any fun c => c.2.part == p) then
    (s.mapImg fun i => { i with parts := i.parts.put p .drained }).mapEpoch fun e =>
      { e with pins := e.pins.filter fun x => x.1 / 2 ^ 48 != p }
  else s

/-- A RETIRING shard that no running command can read is freed, and its INDEX_RETIRE completes (R566). -/
def freeRetired (s : State) : State :=
  (s.shards.map (·.2)).foldl (fun s sh =>
    match sh.retire with
    | some (n, b) =>
      if sh.phase = .retiring ∧ !(s.host.cmds.any fun c => c.1 != n && c.2.part == sh.part && decide (c.2.local_ < b)) then
        endWith
          (((unpinDescriptor s sh).mapShards fun m => m.del (64 * sh.part + sh.index)).mapFelt fun f =>
            { f with locators := delSet f.locators (64 * sh.part + sh.index) }) n stOk
      else s
    | none => s) s

/-- A digest is named by a binding in force in an epoch that some partition retains (R308). -/
def digestBound (s : State) (d : List Byte) : Bool :=
  s.model.bound.any fun e => e.2.any fun f => f.digest == d && (List.range 64).any fun p => retained s p e.1

/-- Copies of models that no binding in force names and no admitted command uses are released (R308). -/
def releaseModels (s : State) : State :=
  s.mapModel fun m => { m with
    resident := m.resident.filter fun r => digestBound s r.digest || s.host.cmds.any fun c => c.2.uses.contains r.digest }

/-- What may be released once a command of a partition has completed. -/
def afterCompletion (s : State) (p : Nat) : State := releaseModels (freeRetired (partitionDrained s p))

end Sys2Proof.Machine
end

