-- ==== Sys2Proof/Machine/Models.lean ====
section
/-! DEFINITION. Model commands, the model store, batches, stream rounds, split models (11_model_execution R305 to R328;
18_command_set R556 to R560, R573, R574, R696; 19_faults_recovery R595, R596). -/
namespace Sys2Proof.Machine
open Sys2Proof

/-! ### Documents (R315, R556) -/

/-- A document record of EMBED and EMBED_INSERT. -/
structure DocRec where
  gid : Nat
  attr : Nat
  ntok : Nat
  dflags : Nat
  resOk : Bool
  tokens : List Nat
  deriving DecidableEq, Repr

/-- The document record at the front of a byte string. -/
def docRec (b : List Byte) : DocRec :=
  let n := field b 0x10 2
  { gid := field b 0 8, attr := field b 8 8, ntok := n, dflags := field b 0x12 1, resOk := zeroAt b 0x13 13
    tokens := tokensOf (slice b 0x20 (4 * n)) }

/-- Bytes that a document of so many tokens takes. -/
def docSpan (ntok : Nat) : Nat := 32 * ceilDiv (32 + 4 * ntok) 32

/-- The documents of an input: none where a record runs past its end. -/
def docList : Nat → List Byte → Option (List DocRec)
  | _, [] => some []
  | 0, _ => none
  | k + 1, b =>
    let d := docRec b
    let w := docSpan d.ntok
    if b.length < 32 ∨ b.length < w then none else (docList k (b.drop w)).map (d :: ·)

/-- Documents of a command: 1 to 256. -/
def cmdDocs (s : State) (c : Cmd) : Option (List DocRec) :=
  match docList 256 (inputData s c.entry) with
  | some [] => none
  | x => x

/-- A document can run: its tokens meet R315 and its reserved bits are zero. -/
def docOk (img : Option (List Byte)) (profile : Nat) (insert : Bool) (d : DocRec) : Bool :=
  tokensOk img profile d.tokens && d.resOk && decide (d.dflags ≤ b2n insert) && (insert || (decide (d.gid = 0) && decide (d.attr = 0)))

/-- The documents that can run are submitted as sequences, one each. -/
def submitDocs (s : State) (n : Nat) (c : Cmd) (r : Role) (img : List Byte) (insert : Bool) (docs : List DocRec) : State :=
  docs.zipIdx.foldl (fun s x =>
    if docOk (some img) c.prof insert x.1 then submitSeq s c.part r img c.prof { src := (n, x.2), tokens := x.1.tokens, slot := nullSlot }
    else s) s

/-! ### EMBED (R540, R558; its status by R555, DEDUCED, log entry 26) -/

/-- Role that an EMBED names. -/
def embedRole (c : Cmd) : Role := if bits (eArg0 c.entry) 0 2 = 2 then .query else .doc

/-- Bytes of one pooled vector in the result. -/
def embedStride (img : List Byte) : Nat := 64 * ceilDiv (4 * miOutDim img) 64

/-- An EMBED whose documents are all embedded or refused ends. -/
def embedEnd (s : State) (n : Nat) (img : Option (List Byte)) : State :=
  match s.host.cmds.get n with
  | none => s
  | some c =>
    if c.phase ≠ .running ∨ c.outs.any fun o => o.status == 0 && o.state == 0 then s
    else
      let vec (i : Nat) : List Byte := match img with
        | none => []
        | some b => slice ((c.outputs.getD i []).flatMap fun x => natLe 4 x.toNat) 0 (embedStride b)
      let body := c.outs.flatMap outBytes ++ (List.range c.outs.length).flatMap vec
      finish (putResult s n 0 body) n (batchStatus c.outs) (c.outs.filter fun o => o.state == 1).length 0

/-- EMBED: checked, its documents submitted; while the model is copied to T2 it waits (R307). -/
def embedCmd (s : State) (n : Nat) (c : Cmd) : State :=
  let role := embedRole c
  let img := boundImage s c.part role c.local_
  let arg := bits (eArg0 c.entry) 0 2
  match cmdDocs s c with
  | none => endWith s n stInvalid
  | some docs =>
    let k := docs.length
    if arg = 0 ∨ arg = 3 ∨ eIndex c.entry ≠ 0 ∨ eResultLen c.entry < 32 * k + ((img.map embedStride).getD 0) * k then endWith s n stInvalid
    else if profileClash s c role then endWith (s.event .brkEvent 0 4) n stInvalid
    else onTiers s n c.part (runTiers img) fun s =>
      let start (s : State) (outs : List EntryOut) : State :=
        s.updCmd n fun c => { c with phase := .running, total := k, outs := outs, gids := List.replicate k 0 }
      let opened (st : Nat) (i : Option (List Byte)) : List EntryOut := docs.map fun d =>
        if i.isSome ∧ !docOk i c.prof false d then refused 0 stInvalid else { refused 0 st with status := st }
      match modelAvail s c.part role c.local_ with
      | .copying => s
      | .missing => embedEnd (start s (opened stModelUnavailable none)) n img
      | .ready b => embedEnd (submitDocs (start s (opened stOk (some b))) n c role b false docs) n (some b)

def execEmbed (cmd : Nat) (s : State) : Out := .next (onAdmitted s cmd [0x20] fun c => embedCmd s cmd c)

/-! ### Latents (R319 to R321) -/

/-- The latents of an item placed in a slot are written into its partition's windows, when the reranker takes them and they
have room. -/
def storeLatent (s : State) (c : Cmd) (x gid : Nat) (hidden : List (List W32)) : Option State :=
  match boundImage s c.part .rerank c.local_, boundImage s c.part .doc c.local_ with
  | some rr, some de =>
    if miLatRank rr = 0 ∨ miHidden rr ≠ miHidden de then none
    else
      let r := latentRecord rr hidden gid x
      (latentSpans s c.part r.length).map fun l =>
        (spansWrite s l r).updShard c.part (eIndex c.entry) fun sh => { sh with latents := sh.latents.put x l }
  | _, _ => none

/-! ### EMBED_INSERT (R299, R315, R556, R557) -/

/-- A document's entry placed, refused, or still waiting for its embedding. -/
def placeDoc (docs : List DocRec) (s : State) (n : Nat) (c : Cmd) (i : Nat) : Except (Option Nat) State :=
  match docs[i]?, shardOf s c.part (eIndex c.entry) with
  | some d, some sh =>
    let bad := Except.ok (s.addOut n (refusedAt c i d.gid stInvalid))
    if d.gid = 2 ^ 64 - 1 ∨ !docOk (boundImage s c.part .doc c.local_) c.prof true d then bad
    else if c.outputs.has (8192 + i) then .ok (s.addOut n (refused d.gid stModelUnavailable))
    else match c.outputs.get i with
    | none => .error none
    | some v =>
      if (idSlot s sh d.gid).isSome ∨ v.length ≠ nrDim sh.desc.numrec then bad
      else match prepareItem sh.desc.numrec v with
      | none => bad
      | some f => match placeInsert s n sh d.gid d.attr f false 1 with
        | .error w => .error w
        | .ok t =>
          if !bit d.dflags 0 then .ok t
          else
            let x := (((t.host.cmds.get n).map (·.outs)).getD []).getLast?
            let hid := c.outputs.getD (4096 + i) []
            let rows := (List.range d.tokens.length).map fun j => (hid.drop (j * (hid.length / d.tokens.length))).take (hid.length / d.tokens.length)
            match x.bind fun o => storeLatent t c o.slot d.gid rows with
            | some t => .ok t
            | none => .ok (t.updOut n i fun o => { o with flags := o.flags ||| 2 })
  | some d, none => .ok (s.addOut n (refusedAt c i d.gid stInvalid))
  | none, _ => .error none

/-- The next entries of an EMBED_INSERT are placed, as far as their embeddings have come back. -/
def placeDocs (s : State) (n : Nat) : State :=
  match s.host.cmds.get n with
  | none => s
  | some c => match cmdDocs s c with
    | none => s
    | some docs => checkFences (endBatch (placeAll (fun s c i => placeDoc docs s n c i) (c.total - c.next) s n) n)

/-- EMBED_INSERT: an update batch whose entries are placed once their documents are embedded. Run again, it goes on with
the entry that was held back. -/
def embedInsert (s : State) (n : Nat) : State :=
  match s.host.cmds.get n with
  | none => s
  | some c =>
    if eOpcode c.entry ≠ 0x21 ∨ c.phase = .done ∨ earlierUnplaced s n c then s
    else if c.phase = .running then placeDocs s n
    else match cmdDocs s c, shardOf s c.part (eIndex c.entry) with
    | some docs, some sh =>
      if !serving sh then endWith s n stInvalid
      else if sh.lost then endWith s n stFaultedNone
      else if eResultLen c.entry < 32 * docs.length then endWith s n stInvalid
      else if profileClash s c .doc then endWith (s.event .brkEvent 0 4) n stInvalid
      else
        let start (s : State) (outputs : Smap (List W32)) : State :=
          s.updCmd n fun c => { c with phase := .running, total := docs.length, gids := docs.map (·.gid), outputs := outputs }
        match modelAvail s c.part .doc c.local_ with
        | .copying => s
        | .missing => placeDocs (start s ((List.range docs.length).map fun i => (8192 + i, []))) n
        | .ready b =>
          if (runTiers (some b)).any (zeroRate s c.part) then refuseRest ((start s []).event .memEvent 0 5) n stQuota
          else placeDocs (submitDocs (start s []) n c .doc b true docs) n
    | _, _ => endWith s n stInvalid

def execEmbedInsert (cmd : Nat) (s : State) : Out := .next (embedInsert s cmd)

/-! ### RERANK (R324, R559, R560, R696) -/

/-- The candidate of an ID in an epoch: its slot when GRAPH or FRESH, else the null slot, marked absent. -/
def rerankCand (s : State) (sh : Shard) (f gid : Nat) : LEnt :=
  let ht := headTail sh f
  let vis (x : Nat) : Bool := slotState sh x f ht.1 ht.2 == .graph || slotState sh x f ht.1 ht.2 == .fresh
  match (idSlot s sh gid).filter vis with
  | some x => { key := 0, slot := x, gid := gid, fresh := slotState sh x f ht.1 ht.2 == .fresh, suspect := false, a := 0 }
  | none => match ((sh.slots.filter fun e => srGid e.2 == gid && vis e.1).map (·.1)).getLast? with
    | some x => { key := 0, slot := x, gid := gid, fresh := slotState sh x f ht.1 ht.2 == .fresh, suspect := false, a := 0 }
    | none => { key := 0, slot := nullSlot, gid := gid, fresh := false, suspect := true, a := 0 }

/-- RERANK: the checks of R696 in order, then its candidates are scored. -/
def rerankCmd (s : State) (n : Nat) (c : Cmd) : State :=
  let b := inputData s c.entry
  let nt := field b 0 2
  let nc := field b 2 2
  let at_ := 32 + 32 * ceilDiv (4 * nt) 32
  let tokens := tokensOf (slice b 32 (4 * nt))
  let ids := (List.range nc).map fun i => field b (at_ + 8 * i) 8
  match shardOf s c.part (eIndex c.entry) with
  | none => endWith s n stInvalid
  | some sh =>
    if !serving sh then endWith s n stInvalid
    else if sh.lost then endWith s n stFaultedNone
    else if nc = 0 ∨ nc > 1024 ∨ !zeroAt b 4 28 ∨ eDataLen c.entry ≠ at_ + 8 * nc ∨ !zeroAt b (32 + 4 * nt) (at_ - 32 - 4 * nt) ∨
        eResultLen c.entry < 16 * nc then endWith s n stInvalid
    else if !decide (ids.Nodup) then endWith s n stInvalid
    else if c.local_ = 0 ∨ !c.kept ∨ c.local_ < sh.firstServing then endWith s n stEpochExpired
    else if !tokensOk (boundImage s c.part .rerank c.local_) c.prof tokens then endWith s n stInvalid
    else if profileClash s c .rerank then endWith (s.event .brkEvent 0 4) n stInvalid
    else match modelAvail s c.part .rerank c.local_ with
    | .missing => endWith s n stModelUnavailable
    | .copying => s
    | .ready b => onTiers s n c.part (runTiers (some b)) fun s => startRerank (markRunning s n) n c (ids.map (rerankCand s sh c.local_)) tokens

def execRerank (cmd : Nat) (s : State) : Out := .next (onAdmitted s cmd [0x22] fun c => rerankCmd s cmd c)

/-! ### The model store (R305, R306, R573) -/

/-- Bytes of the model store (R380). -/
def storeBytes : Nat := 64 * 2 ^ 30

/-- Reason of a failed store, zero when the image is stored (R573). -/
def storeReason (s : State) (c : Cmd) (b : List Byte) : Nat :=
  let v := miVerify s b
  if v ≠ 0 then v
  else if eDataLen c.entry ≠ miLength b then 8
  else if s.model.store.any fun x => miModelId x == miModelId b && miRank x == miRank b && miDigest x != miDigest b then 0x0A
  else if s.felt.limited ∨ (!(s.model.store.any fun x => miDigest x == miDigest b) ∧
      s.model.store.foldl (fun n x => n + x.length) 0 + b.length > storeBytes) then 0x0B
  else 0

/-- MODEL_STORE with ARG0 [0] clear: the image is verified and stored; a lost model is found again (R596). -/
def modelStore (s : State) (n : Nat) (c : Cmd) : State :=
  let b := inputData s c.entry
  let r := storeReason s c b
  if r ≠ 0 then finish s n (if r = 0x0B then stQuota else stInvalid) 0 (r * 256)
  else
    let s := s.mapModel fun m => { m with
      store := if m.store.any (fun x => miDigest x == miDigest b) then m.store else m.store ++ [b]
      lost := m.lost.filter fun d => d != miDigest b }
    endWith s n stOk

def execModelStore (cmd : Nat) (s : State) : Out :=
  .next (onAdmitted s cmd [0x90] fun c => if bit (eArg0 c.entry) 0 then s else onTiers s cmd c.part [tT4] fun s => modelStore s cmd c)

/-- MODEL_STORE with ARG0 [0] set: the image leaves the store, unless a binding in force names it or there is none. -/
def modelRemove (s : State) (n : Nat) (c : Cmd) : State :=
  match s.model.store.find? fun b => miModelId b == eArg1 c.entry && miRank b == bits (eArg0 c.entry) 8 8 with
  | none => endWith s n stInvalid
  | some b =>
    if digestBound s (miDigest b) then endWith s n stInvalid
    else endWith (s.mapModel fun m => { m with store := m.store.filter fun x => x != b }) n stOk

def execModelRemove (cmd : Nat) (s : State) : Out :=
  .next (onAdmitted s cmd [0x90] fun c => if bit (eArg0 c.entry) 0 then modelRemove s cmd c else s)

/-! ### Model groups (R325, R574) -/

/-- MODEL_GROUP: the group waits for its target boundary. -/
def modelGroup (s : State) (n : Nat) (c : Cmd) : State :=
  let b := paramBlock s c.entry
  let g := field b 4 1
  let nodes := (List.range (min g 8)).map fun i => field b (0x20 + 4 * i) 4
  let target := field b 0x10 8
  if ePbLen c.entry ≠ 64 ∨ !zeroAt b 5 3 ∨ !zeroAt b 0x18 8 ∨ target ≥ 2 ^ 48 ∨ !([1, 2, 4, 8].contains g) ∨
      nodes.any (fun x => x ≥ noNode) ∨ !zeroAt b (0x20 + 4 * g) (32 - 4 * g) ∨ !nodes.contains (nodeId s) then endWith s n stInvalid
  else if target < s.epoch.cur + 2 then endWith s n stEpochExpired
  else (markRunning s n).mapModel fun m => { m with
    forming := m.forming ++ [(field b 0 4, { modelId := field b 8 8, nodes := nodes, target := target, cmd := some n })] }

def execModelGroup (cmd : Nat) (s : State) : Out := .next (onAdmitted s cmd [0x91] fun c => modelGroup s cmd c)

/-- At a boundary, the groups whose target epoch begins come into force, each in place of the group of its number, and their
commands complete. -/
def groupsAtBoundary (s : State) : State :=
  let now (g : Nat × Group) : Bool := decide (g.2.target ≤ s.epoch.cur)
  let due := s.model.forming.filter now
  let s := s.mapModel fun m => { m with
    groups := due.foldl (fun a g => Smap.put a g.1 { g.2 with cmd := none }) m.groups, forming := m.forming.filter fun g => !now g }
  due.foldl (fun s g => match g.2.cmd with
    | some n => endWith s n stOk
    | none => s) s

/-! ### The end of a sequence and of a batch (R328, R595, R596) -/

/-- A sequence whose model failed: its command, or its entry, completes MODEL_UNAVAILABLE. -/
def seqFails (s : State) (b : Batch) (q : Seqn) : State :=
  match s.host.cmds.get q.src.1 with
  | none => s
  | some c =>
    if c.phase ≠ .running then s
    else if eOpcode c.entry = 0x21 then placeDocs (s.updCmd q.src.1 fun c => { c with outputs := c.outputs.put (8192 + q.src.2) [] }) q.src.1
    else if eOpcode c.entry = 0x20 then
      embedEnd (s.updOut q.src.1 q.src.2 fun o => { o with status := stModelUnavailable }) q.src.1 (storedImage s b.digest)
    else match s.host.reranks.find? fun r => r.cmd == q.src.1 with
    | some r => rerankEnd s r stModelUnavailable
    | none => endWith s q.src.1 stModelUnavailable

/-- A batch leaves. -/
def dropBatch (s : State) (b : Batch) : State := s.mapModel fun m => { m with batches := m.batches.filter fun x => x.num != b.num }

/-- A batch ends without its outputs. -/
def failBatch (s : State) (b : Batch) : State :=
  if b.lead.isSome then dropBatch s b else b.seqs.foldl (fun s q => seqFails s b q) (dropBatch s b)

/-- A sequence's output reaches its command. -/
def seqDone (s : State) (b : Batch) (img : List Byte) (q : Seqn) (r : SeqSt) : State :=
  match s.host.cmds.get q.src.1 with
  | none => s
  | some c =>
    if c.phase ≠ .running then s
    else match b.role, eOpcode c.entry with
    | .rerank, _ => rerankScore s q.src.1 q.src.2 (r.pooled.headD 0)
    | _, 0x20 =>
      let s := s.updCmd q.src.1 fun c => { c with outputs := c.outputs.put q.src.2 r.pooled }
      embedEnd (s.updOut q.src.1 q.src.2 fun o => { o with state := 1 }) q.src.1 (some img)
    | _, 0x21 =>
      placeDocs (s.updCmd q.src.1 fun c => { c with outputs := (c.outputs.put q.src.2 r.pooled).put (4096 + q.src.2) r.stream.flatten }) q.src.1
    | _, _ => searchVector s q.src.1 c r.pooled

/-- Bytes that each rank of a model's group has sent and this node has not used. -/
def rankBytes (s : State) (img : List Byte) : List (List Byte) :=
  let k := (groupOf s img).map (·.1)
  (List.range (miSplit img)).map fun r => (s.model.partials.filter fun p => some p.group == k && p.rank == r).flatMap (·.payload)

/-- What each sequence of a batch runs on: its tokens, and for a reranker the paired document's latent (R318, R324). -/
def batchInputs (s : State) (b : Batch) : List (List Nat × Option Latent) :=
  b.seqs.map fun q =>
    let lat := if b.role = .rerank ∧ b.lead.isNone then (s.host.cmds.get q.src.1).bind fun c =>
        ((shardOf s c.part (eIndex c.entry)).bind fun sh => latentFor s sh q.slot c.local_).map latentOf
      else none
    (q.tokens, lat)

/-- A batch run from its inputs on what its round streams, with the partial sums that have arrived (R301, R310, R326). -/
def batchRun (s : State) (b : Batch) (img : List Byte) : RankRun :=
  runBatch (streamedImage s img) (batchProfile s b) (batchInputs s b) (rankBytes s img)

/-- A batch of a split model that is in a round sends the partial sums that it has reached and not sent (R327). -/
def sendPartials (s : State) (b : Batch) : State :=
  match storedImage s b.digest with
  | none => s
  | some img => match (if miSplit img > 1 ∧ b.cluster.isSome then groupOf s img else none) with
    | none => s
    | some (_, g) =>
      let out := (batchRun s b img).out
      let s := (g.nodes.zipIdx).foldl (fun s x =>
        let body := (out.getD x.2 []).drop (b.sent.getD x.2 0)
        if x.1 = nodeId s ∨ body.isEmpty then s else toMember s x.1 b.part body) s
      s.mapModel fun m => { m with batches := m.batches.map fun x => if x.num = b.num then { x with sent := out.map List.length } else x }

/-- What a batch has used of the other ranks' bytes leaves. -/
def usePartials (s : State) (img : List Byte) (left : List (List Byte)) : State :=
  match groupOf s img with
  | none => s
  | some (k, _) => s.mapModel fun m => { m with partials := (m.partials.filter fun p => p.group != k) ++
      (left.zipIdx.filter fun x => !x.1.isEmpty).map fun x => { group := k, rank := x.2, req := 0, payload := x.1 } }

/-- A batch whose round has ended: outputs to the commands, saturations and non-finite values counted for its cluster
(R282, R289). A batch that waits for another rank's partial sums goes on waiting; one that another member leads has no
command here (R328). -/
def batchDone (s : State) (b : Batch) : State :=
  match storedImage s b.digest with
  | none => failBatch s b
  | some img =>
    if miSplit img > 1 ∧ (groupOf s img).isNone then s
    else
      let r := batchRun s b img
      if r.waits then s
      else
        let u := b.cluster.getD 0
        let sat := (r.seqs.map (·.sat)).sum
        let nf := (r.seqs.map (·.nonfin)).sum
        let s := (s.bump .brkCLayers u (miNLayers img)).bump .brkCSat u sat
        let s := ((s.bump .brkCNonfinite u nf).events .brkEvent 0 0 sat).events .brkEvent 0 1 nf
        let s := if miSplit img > 1 then usePartials s img r.inn else s
        if b.lead.isSome then dropBatch s b
        else (b.seqs.zip r.seqs).foldl (fun s x => seqDone s b img x.1 x.2) (dropBatch s b)

/-! ### Batches and rounds (R309 to R314) -/

/-- The forming batch closes: its oldest sequence has waited long enough. -/
def execBatchClose (batch : Nat) (s : State) : Out := .next (closeBatch s batch)

/-- The model of a batch can stream: resident, whole, free of poison. -/
def streams (s : State) (d : List Byte) : Bool :=
  (storedImage s d).isSome && !s.model.lost.contains d && s.model.resident.any fun r => r.digest == d && r.done && !r.lost && r.poison.isEmpty

/-- The TILE_MAP role of a cluster admits a batch's role (R38). -/
def clusterAdmits (code : Nat) (r : Role) : Bool :=
  match code, r with
  | 0, _ => true
  | 1, .rerank => false
  | 1, _ => true
  | 2, .rerank => true
  | 3, .query => true
  | _, _ => false

/-- The configuration under which a batch runs: that of its oldest sequence's command (R55). -/
def batchCfg (s : State) (b : Batch) : ImgCfg :=
  if b.lead.isSome then s.img.cfg else ((b.seqs.head?).map fun q => cmdCfg s q.src.1).getD s.img.cfg

/-- Clusters that could take a batch now: in service, free, of its partition and role. -/
def freeClusters (s : State) (b : Batch) : List Nat :=
  (List.range 16).filter fun u => s.serves 2 u && !(s.model.batches.any fun x => x.cluster == some u) &&
    servesPartIn (batchCfg s b) s 2 u b.part && clusterAdmits (ownerRoleIn (batchCfg s b) s 2 u).2 b.role

/-- A batch waits for a round: closed, without a cluster, its model able to stream, its staging area obtainable. -/
def batchWaits (s : State) (b : Batch) : Bool :=
  b.closed && b.cluster.isNone && streams s b.digest && decide (pagesUsed s b.part + batchPages s b ≤ pagesTotal s b.part)

/-- Waiting batches in the order of R312: query encoders and rerankers first, each by age. -/
def waitOrder (l : List Batch) : List Batch := (l.filter fun b => b.role != .doc) ++ l.filter fun b => b.role == .doc

/-- A batch takes the first cluster that can take it, in a lane's round. -/
def takeCluster (s : State) (lane : Nat) (b : Batch) : State :=
  if !batchWaits s b then s
  else match freeClusters s b with
  | [] => s
  | u :: _ => s.mapModel fun m => { m with
      batches := m.batches.map fun x => if x.num = b.num then { x with cluster := some u, lane := some lane } else x }

/-- A half of a lane is filled with the next 4 MiB of a model's T2 copy: it is one Sheet unit of the weight window (R309,
R310). -/
def fillHalf (s : State) (lane : Nat) (d : List Byte) (pos : Nat) : State :=
  let all := spansRead s (((residentOf s d).map (·.spans)).getD [])
  s.mapMem fun m => { m with t1 := tierWrite m.t1 (2 ^ 22 * (2 * lane + pos % 2)) ((all.drop (2 ^ 22 * pos)).take (2 ^ 22)) }

/-- Models that wait, in the order in which free lanes go to them (R312). -/
def waitModels (s : State) : List (List Byte) :=
  ((waitOrder (s.model.batches.filter (batchWaits s))).map (·.digest)).eraseDups

/-- A free lane starts a round of a model that waits: of the models that come first in the order of R312, as many as lanes
are free, the first for which a cluster is free. Every free cluster that fits takes one waiting batch of it. -/
def roundStart (s : State) (lane : Nat) : State :=
  let lanes := cfgWeightWindow s.img.cfg / 2
  if s.blockOut 8 ∨ lane ≥ lanes ∨ (s.model.lanes.get lane).isSome then s
  else
    let free := ((List.range lanes).filter fun x => !s.model.lanes.has x).length
    let can (d : List Byte) : Bool := s.model.batches.any fun b => b.digest == d && batchWaits s b && !(freeClusters s b).isEmpty
    match ((waitModels s).take free).find? can with
    | none => s
    | some d =>
      let left := ((storedImage s d).map imageBytes).getD 0
      let s := s.mapModel fun m => { m with lanes := m.lanes.put lane { digest := some d, pos := 0, left := left } }
      let s := fillHalf s lane d 0
      let s := ((waitOrder s.model.batches).filter fun b => b.digest == d).foldl (fun s b => takeCluster s lane b) s
      (s.model.batches.filter fun b => b.lane == some lane && b.cluster.isSome).foldl sendPartials s

def execStreamRoundStart (lane : Nat) (s : State) : Out := .next (roundStart s lane)

/-- Every cluster of a round has released a half: it is filled again, or, at the end of the model, the round ends once
every batch of it has its partial sums. A model with poison waits for its refetch. -/
def halfRefill (s : State) (lane half : Nat) : State :=
  match s.model.lanes.get lane with
  | none => s
  | some l =>
    let d := l.digest.getD []
    let mine (b : Batch) : Bool := b.lane == some lane && b.cluster.isSome
    if half ≠ l.pos % 2 ∨ !streams s d then s
    else if l.left > 2 ^ 22 then
      fillHalf (s.mapModel fun m => { m with lanes := m.lanes.put lane { l with pos := l.pos + 1, left := l.left - 2 ^ 22 } }) lane d (l.pos + 1)
    else
      let s := (s.model.batches.filter mine).foldl batchDone s
      if s.model.batches.any mine then s else s.mapModel fun m => { m with lanes := m.lanes.del lane }

def execLaneHalfRefill (lane half : Nat) (s : State) : Out := .next (halfRefill s lane half)

/-! ### Copies and refetches (R307, R595, R596) -/

/-- Partitions with a binding in force to a digest. -/
def boundParts (s : State) (d : List Byte) : List Nat :=
  ((s.model.bound.getD s.epoch.cur []).filter fun f => f.digest == d).foldl (fun l f => addSet l f.part) []

/-- A model is lost: its copy goes, its batches end, and every bound partition is told (R596). -/
def modelLost (s : State) (d : List Byte) : State :=
  let s := s.mapModel fun m => { m with
    resident := m.resident.filter fun r => r.digest != d, lost := if m.lost.contains d then m.lost else m.lost ++ [d]
    lanes := m.lanes.filter fun l => l.2.digest != some d }
  let s := (s.model.batches.filter fun b => b.digest == d).foldl failBatch s
  (boundParts s d).foldl (fun s p => s.event .rasPevent p 4) (s.event .rasEvent 0 6)

/-- A copy of a model to T2 ends: complete, or the model is lost where flash cannot be read (DEDUCED from R596, log entry
29). -/
def modelCopyDone (s : State) (i : Nat) (ok : Bool) : State :=
  match s.model.resident[i]? with
  | none => s
  | some r =>
    if r.done ∨ r.lost ∨ r.spans.isEmpty then s
    else if ok then
      let s := spansWrite s r.spans (((storedImage s r.digest).map copyBytes).getD [])
      s.mapModel fun m => { m with resident := m.resident.map fun x => if x.digest = r.digest then { x with done := true } else x }
    else modelLost s r.digest

def execModelCopyDone (model : Nat) (ok : Bool) (s : State) : Out := .next (modelCopyDone s model ok)

/-- A swatch of a copy written again from the golden copy. -/
def refetchSwatch (s : State) (r : Resident) (i : Nat) : State :=
  let b := ((storedImage s r.digest).map copyBytes).getD []
  (r.spans.foldl (fun (a : State × Nat) x =>
    (if a.2 ≤ i ∧ i < a.2 + x.2 / 4096 then t2Write a.1 (x.1 + 4096 * (i - a.2)) (slice b (4096 * i) 4096) else a.1, a.2 + x.2 / 4096)) (s, 0)).1

/-- A refetch of poisoned weights ends: the suspended batches run once more from their inputs, or the model is lost. -/
def refetchDone (s : State) (i : Nat) (ok again : Bool) : State :=
  match s.model.resident[i]? with
  | none => s
  | some r =>
    if r.poison.isEmpty then s
    else if !ok ∨ again then modelLost s r.digest
    else
      let left := ((storedImage s r.digest).map imageBytes).getD 0
      let s := r.poison.foldl (fun s i => refetchSwatch s r i) s
      let s := s.mapModel fun m => { m with
        resident := m.resident.map fun x => if x.digest = r.digest then { x with poison := [] } else x
        batches := m.batches.map fun b => if b.digest = r.digest ∧ b.cluster.isSome then { b with rerun := true, sent := [] } else b
        lanes := m.lanes.map fun l => (l.1, if l.2.digest = some r.digest then { l.2 with pos := 0, left := left } else l.2) }
      (boundParts s r.digest).foldl (fun s p => s.event .rasPevent p 3) (s.event .rasEvent 0 5)

def execModelRefetchDone (model : Nat) (ok again : Bool) (s : State) : Out := .next (refetchDone s model ok again)

/-! ### Split models (R327, R328) -/

/-- A member that leads a batch has sent its token sequences and its closure: the batch waits here too, under the role in which
the partition binds the model (R328). -/
def memberBatch (s : State) (src part : Nat) (g : Group) (seqs : List (List Nat)) : State :=
  match (s.model.bound.getD s.epoch.cur []).find? fun f => f.part == part && ((storedImage s f.digest).map miModelId) == some g.modelId with
  | none => s
  | some f => s.mapModel fun m => { m with
      batches := m.batches ++ [{ num := m.nextBatch, digest := f.digest, role := roleOf f.role, part := part
                                 seqs := seqs.map fun t => { src := (0, 0), tokens := t, slot := nullSlot }
                                 closed := true, cluster := none, lane := none, rerun := false, lead := some src, sent := [] }]
      nextBatch := m.nextBatch + 1 }

/-- A COLLECTIVE packet of a member of a group: partial sums, which the batches in a round take at once, or, with the last
packet of such a message, a batch that the member leads. -/
def collective (s : State) (p : Packet) : State :=
  if p.typ ≠ 0xB ∨ !s.twill.inbox.contains p then s
  else
    let s := s.mapTwill fun t => { t with inbox := dropFirst (· == p) t.inbox }
    match s.model.groups.find? fun g => g.2.nodes.contains p.src && g.2.nodes.contains (nodeId s) with
    | none => s
    | some (k, g) =>
      let rank := (indexOf? (· == p.src) g.nodes).getD 0
      let s := s.mapModel fun m => { m with partials := m.partials ++ [{ group := k, rank := rank, req := p.reqId, payload := p.payload }] }
      let mine (x : Partial) : Bool := x.group == k && x.rank == rank && x.req == p.reqId
      match if p.last then Config.readBatch ((s.model.partials.filter mine).flatMap (·.payload)) else none with
      | some seqs => memberBatch (s.mapModel fun m => { m with partials := m.partials.filter fun x => !mine x }) p.src p.part g seqs
      | none => s.model.batches.foldl sendPartials s

def execCollective (pkt : Packet) (s : State) : Out := .next (collective s pkt)

/-- A member has not delivered its partial sums in time: the batch ends, and the group event goes to RAS. -/
def collectiveTimeout (s : State) (n : Nat) : State :=
  match batchOf s n with
  | none => s
  | some b => match storedImage s b.digest with
    | none => s
    | some img =>
      if miSplit img ≤ 1 ∨ b.cluster.isNone ∨ !(batchRun s b img).waits then s
      else failBatch (if b.lead.isSome then s else faultRecord s 0x10 0 0 0 [b.part] []) b

def execCollectiveTimeout (batch : Nat) (s : State) : Out := .next (collectiveTimeout s batch)

end Sys2Proof.Machine
end

