-- ==== Sys2Proof/Machine/Memory.lean ====
section
/-! DEFINITION. Sheet units, swatch moves, DDR5 errors and refresh, the CXL.mem window and the regulators
(12_memory_tiers R330 to R366; 17_host_queues R505, R506). -/
namespace Sys2Proof.Machine
open Sys2Proof

/-! ### The local address map (R332, R333) -/

/-- Where a local address lies. -/
inductive Place where
  | t3 (a : Nat)
  | t2 (a : Nat)
  | t1 (a : Nat)
  | unmapped
  deriving DecidableEq, Repr

/-- The place of a local address. -/
def localPlace (s : State) (a : Nat) : Place :=
  if a < s.mem.ddrGib * 2 ^ 30 then .t3 a
  else if 0x020000000000 ≤ a ∧ a < 0x020000000000 + 480 * 2 ^ 30 then .t2 (a - 0x020000000000)
  else if 0x030000000000 ≤ a ∧ a < 0x030000000000 + 72 * 2 ^ 22 then .t1 (a - 0x030000000000)
  else .unmapped

/-- Tier code of a place. -/
def Place.tier : Place → Nat
  | .t3 _ => tT3 | .t2 _ => tT2 | .t1 _ => tT1 | .unmapped => tT3

/-- Owner of a place: a partition, 0x7E for the device, none where nobody may reach it; what is being scrubbed has none
(R367). -/
def placeOwner (s : State) : Place → Option Nat
  | .t3 a =>
    let g := a / 2 ^ 30
    match (List.range 64).find? fun p => let d := cfgDdr s.img.cfg p; decide (d.1 ≤ g) && decide (g < d.1 + d.2) with
    | some p => if s.img.scrubDdr.any fun e => decide (e.2.1 ≤ g) && decide (g < e.2.1 + e.2.2) then none else some p
    | none => if g + s.mem.cxlGib + 1 ≥ s.mem.ddrGib ∧ g + s.mem.cxlGib < s.mem.ddrGib then some 0x7E else none
  | .t2 a => let o := cfgWinOwner s.img.cfg (a / 2 ^ 30); if (o < 64 ∨ o = 0x7E) ∧ !s.img.scrubWin.has (a / 2 ^ 30) then some o else none
  | .t1 a => some ((s.mem.sheet.get (a / 2 ^ 22)).map (·.owner) |>.getD 0x7E)
  | .unmapped => none

/-- Bytes at a place; T3 lines that are poisoned come marked. -/
def placeRead (s : State) (p : Place) (n : Nat) : List Byte :=
  match p with
  | .t3 a => t3Read s a n
  | .t2 a => t2Read s a n
  | .t1 a => tierRead s.mem.t1 a n
  | .unmapped => []

/-- Lines that a span touches whole. -/
def wholeLines (a n : Nat) : List Nat :=
  ((List.range (n / 64 + 1)).map fun i => ceilDiv a 64 + i).filter fun l => decide (64 * l + 64 ≤ a + n)

/-- Bytes written at a place; a write of a whole T3 line clears its poison (R360). -/
def placeWrite (s : State) (p : Place) (b : List Byte) : State :=
  match p with
  | .t3 a => s.mapMem fun m => { m with
      t3 := tierWrite m.t3 a b, t3poison := m.t3poison.filter fun l => !(wholeLines a b.length).contains l }
  | .t2 a => t2Write s a b
  | .t1 a => s.mapMem fun m => { m with t1 := tierWrite m.t1 a b }
  | .unmapped => s

/-- DDR channel of a T3 line, by address div 64 (R354). -/
def lineChannel (l : Nat) : Nat := bits l 2 4 ^^^ bits l 6 4 ^^^ bits l 10 4 ^^^ bits l 14 4

/-- A line of a T3 span is poisoned, or lies in a fenced channel (R360, R590). -/
def t3Poisoned (s : State) (a n : Nat) : Bool :=
  s.mem.t3poison.any (fun l => decide (a / 64 ≤ l) && decide (64 * l < a + n)) ||
    ((List.range 16).any (s.fencedUnit 0x09) &&
      (List.range (n / 64 + 2)).any fun i => decide (64 * (a / 64 + i) < a + n) && s.fencedUnit 0x09 (lineChannel (a / 64 + i)))

/-! ### Sheet units at an image apply (R335, R336) -/

/-- Sheet units of a partition and use, ascending. -/
def sheetOf (s : State) (p : Nat) (u : SheetUse) : List Nat := (s.mem.sheet.filter fun e => e.2.use == u && e.2.owner == p).map (·.1)

/-- Zero in the bytes of a Sheet unit; lines that it cached leave. -/
def zeroSheet (m : MemState) (u : Nat) : MemState :=
  { m with t1 := m.t1.filter fun e => e.1 / 65536 != u, lines := m.lines.filter fun e => e.2.unit != u }

/-- Units that a partition keeps for a use, and how many more it needs. A scratchpad unit that the image takes, for another
holder or for the weight window, stays while the areas in use need it (R336). -/
def sheetKeep (s : State) (p : Nat) (u : SheetUse) : List Nat × Nat :=
  let n := if u = .cache then cfgSheetCache s.img.cfg p else cfgSheetScratch s.img.cfg p
  let hold := sheetOf s p u
  let own := hold.filter fun x => decide (x ≥ cfgWeightWindow s.img.cfg)
  let more := (own.drop n ++ hold.filter fun x => decide (x < cfgWeightWindow s.img.cfg)).take
    (if u = .scratch then ceilDiv (pagesUsed s p) 1024 - min n own.length else 0)
  (own.take n ++ more, n - own.length)

/-- Assignment of the Sheet units under the image in force; a scratchpad unit stays while areas in it are in use, and a
unit that changes hands is zeroed. No unit changes while block MEM is OUT (R593). -/
def sheetApply (s : State) : State :=
  if s.blockOut 9 then s else
  let w := cfgWeightWindow s.img.cfg
  let parts := List.range 64
  let wanted := parts.flatMap fun p => [(p, SheetUse.cache), (p, SheetUse.scratch)]
  let keep : Smap SheetUnit := wanted.foldl (fun m x => (sheetKeep s x.1 x.2).1.foldl (fun m u => Smap.put m u { use := x.2, owner := x.1 }) m) []
  let weights : Smap SheetUnit := (List.range (min w 72)).foldl (fun m u =>
    if Smap.has m u then m else Smap.put m u { use := .weight, owner := 0x7E }) keep
  let free := (List.range 72).filter fun u => !weights.has u && !s.img.scrubSheet.has u
  let give : Smap SheetUnit × List Nat := wanted.foldl (fun (a : Smap SheetUnit × List Nat) x =>
    let n := (sheetKeep s x.1 x.2).2
    ((a.2.take n).foldl (fun m u => Smap.put m u { use := x.2, owner := x.1 }) a.1, a.2.drop n)) (weights, free)
  let moved := (List.range 72).filter fun u => s.mem.sheet.get u != give.1.get u
  pinDescriptors (s.mapMem fun m => moved.foldl zeroSheet { m with sheet := give.1 })

/-- Some partition holds more scratchpad units than the image gives it, or one in the weight window: areas were in use. -/
def sheetHeld (s : State) : Bool :=
  (List.range 64).any fun p =>
    let l := sheetOf s p .scratch
    decide (l.length > cfgSheetScratch s.img.cfg p) || l.any fun u => decide (u < cfgWeightWindow s.img.cfg)

/-! ### Swatch moves (R333, R341, R362) -/

/-- A 4 KiB swatch is moved for a command, or for the device where no command has that number. A CRC mismatch repeats the
move once; a second one fails it, and the command ends. -/
def swatchMove (s : State) (src dst cmd : Nat) (crcOk : Bool) : State :=
  let c := (s.host.cmds.get cmd).filter fun c => c.phase != .done
  let tag := (c.map (·.part)).getD 0x7E
  let a := localPlace s src
  let b := localPlace s dst
  let again := s.mem.moves.any fun m => m.src == src && m.dst == dst && m.cmd == cmd
  let drop (s : State) : State := s.mapMem fun m => { m with moves := m.moves.filter fun x => !(x.src == src && x.dst == dst && x.cmd == cmd) }
  if src % 4096 ≠ 0 ∨ dst % 4096 ≠ 0 ∨ !((List.range 4).any fun u => s.serves 0x0E u) then s
  else if placeOwner s a ≠ some tag ∨ placeOwner s b ≠ some tag then
    let s := tierRefusal s tag (if placeOwner s a ≠ some tag then a.tier else b.tier)
    if c.isSome then endWith s cmd stPartition else s
  else if c.isSome ∧ (zeroRate s tag a.tier ∨ zeroRate s tag b.tier) then zeroRateEnd (drop s) cmd
  else
    let s := if c.isSome then charge (charge s tag a.tier 4096) tag b.tier 4096 else s
    if crcOk then
      let s := drop (placeWrite s b (placeRead s a 4096))
      match a, b with
      | .t3 x, .t3 y => s.mapMem fun m => { m with
          t3poison := (m.t3poison.filter fun l => decide (x / 64 ≤ l) && decide (l < x / 64 + 64)).foldl (fun l p => addSet l (p - x / 64 + y / 64)) m.t3poison }
      | _, _ => s
    else if again then
      let s := (drop s).event .memEvent 0 1
      let s := faultRecord s 0x0A 0 0 dst (if tag < 64 then [tag] else []) (if c.isSome then [cmd] else [])
      if c.isSome then faultCmd s cmd else s
    else (s.mapMem fun m => { m with moves := m.moves ++ [{ src := src, dst := dst, cmd := cmd, part := tag }] }).event .memEvent 0 0

def execSwatchMove (src dst cmd : Nat) (crcOk : Bool) (s : State) : Out := .next (swatchMove s src dst cmd crcOk)

/-! ### DDR5: patrol, errors, refresh (R354, R357, R359 to R361) -/

/-- Local address of a channel's line (R354). -/
def ddrLocal (ch line : Nat) : Nat :=
  let c := 64 * line
  let b := c / 256
  let x := bits b 0 4 ^^^ bits b 4 4 ^^^ bits b 8 4 ^^^ ch
  b * 4096 + x * 256 + c % 256

/-- Lines of a channel. -/
def channelLines (s : State) : Nat := s.mem.ddrGib * 2 ^ 30 / 64 / 16

/-- DDR_C_ERR_LO and DDR_C_ERR_HI take the address of the latest error. -/
def ddrErr (s : State) (ch a : Nat) (ue : Bool) : State :=
  (s.setRo .ddrCErrLo ch (BitVec.ofNat 32 a)).setRo .ddrCErrHi ch (BitVec.ofNat 32 (bits a 32 15 + b2n ue * 2 ^ 31))

/-- A soft repair of a row, or none left. RAS is notified by the event alone (log entry 31). -/
def softPpr (s : State) (ch row : Nat) (spare : Bool) : State :=
  let w := (s.ro .ddrCPpr ch).toNat
  let k := 2 ^ 32 * ch + row
  if spare then
    ((s.setRo .ddrCPpr ch (BitVec.ofNat 32 (setBits w 0 8 (min 255 (bits w 0 8 + 1))))).mapMem fun m => { m with
      hardPpr := addSet m.hardPpr k, rowCe := m.rowCe.del k }).event .ddrEvent 0 2
  else (s.setRo .ddrCPpr ch (BitVec.ofNat 32 (setBits w 8 1 1))).event .ddrEvent 0 3

/-- An error that was corrected: the line is written back, its row counts it, and at the limit the row is repaired. -/
def ddrCorrected (s : State) (ch a row : Nat) (spare : Bool) : State :=
  let k := 2 ^ 32 * ch + row
  let n := s.mem.rowCe.getD k 0 + 1
  let s := ((ddrErr s ch a false).bump .ddrCCe ch 1).event .ddrEvent 0 0
  let s := s.mapMem fun m => { m with rowCe := m.rowCe.put k n }
  let cfg := (s.regIn (108 + ch) .ddrCfg 0).toNat
  if n ≥ bits cfg 8 4 ∧ bit cfg 12 then softPpr s ch row spare else s

/-- An uncorrectable error poisons the line. -/
def ddrUncorrectable (s : State) (ch a : Nat) : State :=
  let s := ((ddrErr s ch a true).bump .ddrCUe ch 1).event .ddrEvent 0 1
  let s := s.mapMem fun m => { m with t3poison := addSet m.t3poison (a / 64) }
  faultRecord s 0x07 0 0 a (match placeOwner s (.t3 a) with
    | some p => if p < 64 then [p] else []
    | none => []) []

/-- The patrol scrubber reads a line of a channel; with the last line a pass is complete. -/
def patrolRead (s : State) (ch line : Nat) (r : LineRead) : State :=
  let n := channelLines s
  if ch ≥ 16 ∨ line ≥ n ∨ s.fencedUnit 0x09 ch then s
  else
    let a := ddrLocal ch line
    let s := match r with
      | .clean => s
      | .corrected row spare => ddrCorrected s ch a row spare
      | .uncorrectable => ddrUncorrectable s ch a
    if line + 1 < n then s.mapMem fun m => { m with patrol := m.patrol.put ch (line + 1) }
    else ((s.mapMem fun m => { m with patrol := m.patrol.put ch 0, rowCe := m.rowCe.filter fun e => e.1 / 2 ^ 32 != ch }).bump
      .ddrCScrub ch 1).event .ddrEvent 0 5

def execDdrPatrolRead (ch line : Nat) (result : LineRead) (s : State) : Out := .next (patrolRead s ch line result)

/-- DDR_C_STATE.HOT of a channel. -/
def channelHot (s : State) (ch : Nat) : Bool := bit (s.ro .ddrCState ch).toNat 2

/-- The oscillators of every channel are measured: a refresh rate above the normal one doubles the channel's rate; at the
normal rate it runs single again. `temps` gives the refresh rate that each channel's devices report, zero for normal. -/
def dqsTick (s : State) (temps : List Nat) : State :=
  if s.mem.ddrGib = 0 then s
  else (List.range 16).foldl (fun s ch =>
    let hot := decide (temps.getD ch 0 > 0)
    let s' := s.setRo .ddrCState ch (BitVec.ofNat 32 (setBits (s.ro .ddrCState ch).toNat 2 1 (b2n hot)))
    s'.eventIf (hot && !channelHot s ch) .ddrEvent 0 6) s

def execDqsOscTick (temps : List Nat) (s : State) : Out := .next (dqsTick s temps)

/-! ### The CXL.mem window (R348 to R351, R505, R506) -/

/-- Local address of an offset in the window. -/
def cxlLocal (s : State) (off : Nat) : Nat := (s.mem.ddrGib - s.mem.cxlGib) * 2 ^ 30 + off

/-- An access of the window that the regulator lets start: `n` bytes read, or bytes written. -/
def cxlServe (s : State) (a n : Nat) (data : List Byte) : State :=
  let s := charge s 0 tT3 (if data.isEmpty then n else data.length)
  if data.isEmpty then s.mapMem fun m => { m with cxlData := (tierRead m.t3 a n, t3Poisoned s a n) }
  else placeWrite s (.t3 a) data

/-- Requests of the host that wait are served in order while the T3 regulator of partition 0 has tokens. -/
def cxlDrain : Nat → State → State
  | 0, s => s
  | n + 1, s =>
    match s.mem.cxlWait with
    | [] => s
    | (a, k, d) :: t =>
      if s.mem.bucket.getD tT3 0 < 1 then s else cxlDrain n (cxlServe (s.mapMem fun m => { m with cxlWait := t }) a k d)

/-- A request joins those of the host, and is served at once where the regulator has tokens. -/
def cxlRequest (s : State) (a n : Nat) (data : List Byte) : State :=
  let s := s.mapMem fun m => { m with cxlWait := m.cxlWait ++ [(a, n, data)] }
  cxlDrain s.mem.cxlWait.length s

/-- A CXL.mem request: mapped by the decoder, or completed as unsupported with no data. A read is of the 64-byte line. -/
def cxlMem (s : State) (hpa : Nat) (data : Option (List Byte)) : State :=
  let n := s.mem.cxlGib * 2 ^ 30
  if !s.mem.cxlDecoded ∨ hpa < s.mem.hdmBase ∨ hpa ≥ s.mem.hdmBase + n then s.mapMem fun m => { m with cxlData := ([], false) }
  else
    let off := hpa - s.mem.hdmBase
    match data with
    | none => cxlRequest s (cxlLocal s (off / 64 * 64)) 64 []
    | some b => if b.isEmpty then s else cxlRequest s (cxlLocal s off) 0 (b.take (64 - off % 64))

def execCxlMemRequest (hpa : W64) (data : Option (List Byte)) (s : State) : Out := .next (cxlMem s hpa.toNat data)

/-- A BAR4 access: beyond the window it reads zero and writes nothing; within it, it reaches the same memory. -/
def bar4 (s : State) (off len : Nat) (data : Option (List Byte)) : State :=
  if off ≥ s.mem.cxlGib * 2 ^ 30 then
    match data with
    | none => s.mapMem fun m => { m with cxlData := (List.replicate len 0, false) }
    | some _ => s
  else
    match data with
    | none => cxlRequest s (cxlLocal s off) (min len (s.mem.cxlGib * 2 ^ 30 - off)) []
    | some b => if b.isEmpty then s else cxlRequest s (cxlLocal s off) 0 (b.take (s.mem.cxlGib * 2 ^ 30 - off))

def execBar4Access (off len : Nat) (data : Option (List Byte)) (s : State) : Out := .next (bar4 s off len data)

/-- The host commits the HDM decoder of the window. -/
def hdmCommit (s : State) (base : Nat) : State :=
  if s.mem.cxlGib = 0 then s else s.mapMem fun m => { m with cxlDecoded := true, hdmBase := base }

def execHdmDecoderCommit (base : W64) (s : State) : Out := .next (hdmCommit s base.toNat)

/-! ### Regulators (R363, R364) -/

/-- Effective rates after an image apply (R363); none changes while block MEM is OUT (R593). -/
def applyRates (s : State) : State :=
  if s.blockOut 9 then s else
  let live := (List.range 64).filter fun p => partState s p == .active || partState s p == .draining
  let c := s.img.cfg
  let rates := (List.range 6).flatMap fun t =>
    let spare := tierCapacity t - (live.map fun p => (cfgRegulator c p t).1).sum
    let n := (live.filter fun p => decide ((cfgRegulator c p t).2.1 > (cfgRegulator c p t).1)).length
    live.map fun p =>
      let (g, l, _) := cfgRegulator c p t
      (6 * p + t, g + if n = 0 then 0 else min (l - g) (spare / n))
  s.mapMem fun m => { m with rate := rates.foldl (fun x e => Smap.store 0 x e.1 e.2) [] }

/-- Each µs every bucket gains its rate, up to its depth; the waiting transfers are counted, and those that find a token
now wait no longer (R364). -/
def refill (s : State) : State :=
  let s := s.mem.waiting.foldl (fun s k => s.bump .memPWait (8 * (k / 6) + k % 6) 1) s
  let s := s.mapMem fun m =>
    let b := m.rate.foldl (fun b e =>
      let d := (cfgRegulator s.img.cfg (e.1 / 6) (e.1 % 6)).2.2
      let cap : Int := (if d = 0 then e.2 else d : Nat)
      Smap.store 0 b e.1 (min cap (Smap.getD b e.1 0 + (e.2 : Nat)))) m.bucket
    { m with bucket := b, waiting := m.waiting.filter fun k => decide (Smap.getD b k 0 < 1) }
  cxlDrain s.mem.cxlWait.length s

def execRegulatorRefill (s : State) : Out := .next (refill s)

end Sys2Proof.Machine
end

