-- ==== Sys2Proof/Machine/Felt.lean ====
section
/-! DEFINITION. Felt: identification and training of the media, the map of logical codewords, blocks and their wear, reads
and their ladder, failing blocks and dies, zones, health (13_felt_flash R368 to R403; 18_command_set R572). -/
namespace Sys2Proof.Machine
open Sys2Proof

/-! ### The media descriptor (R370, R372) -/

def mdMaxRate (d : List Byte) : Nat := field d 0x19 1
def mdBpc (d : List Byte) : Nat := field d 0x1A 1
def mdPlanes (d : List Byte) : Nat := field d 0x1B 1
def mdPage (d : List Byte) : Nat := field d 0x1C 2
def mdPpb (d : List Byte) : Nat := field d 0x20 2
def mdBpp (d : List Byte) : Nat := field d 0x22 2
def mdTempMax (d : List Byte) : Nat := field d 0x2A 1
def mdPeRated (d : List Byte) : Nat := field d 0x36 2
def mdPeRatedSlc (d : List Byte) : Nat := field d 0x38 2
def mdReadLimit (d : List Byte) : Nat := field d 0x3A 4

/-- A descriptor keeps to R372. -/
def mdOk (d : List Byte) : Bool :=
  decide (field d 0 4 = 0x4E4D4453) && decide (field d 4 2 = 1) && decide (field d 6 2 = 256) && decide (field d 0xFC 4 = crc32c (slice d 0 0xFC)) &&
    (decide (field d 0x18 1 = 1) || decide (field d 0x18 1 = 2)) && decide (mdMaxRate d ≤ 3) && (decide (mdBpc d = 3) || decide (mdBpc d = 4)) &&
    [1, 2, 4, 8].contains (mdPlanes d) && (decide (mdPage d = 16384) || decide (mdPage d = 32768)) && decide (8 * field d 0x1E 2 ≥ mdPage d) &&
    decide (mdPpb d % mdBpc d = 0) && [1, 2, 4].contains (field d 0x24 1) && decide (field d 0x25 1 < 8) && bit (field d 0x25 1) 0 &&
    decide (field d 0x29 1 ≤ 32) && zeroAt d 0x2B 1 && zeroAt d 0x3E 2 && zeroAt d 0xC0 60

/-- Descriptors of the media descriptor area, up to the first whose MAGIC is wrong (R613). -/
def descriptors (s : State) : List (List Byte) :=
  let one (i : Nat) : List Byte := (List.range 256).map fun j => s.usnea.media.getD (256 * i + j) 0xFF
  ((List.range 256).map one).takeWhile fun d => decide (field d 0 4 = 0x4E4D4453)

/-- The descriptor of a die's ID bytes: the first whose masked ID matches, when it keeps to R372. -/
def descOf (s : State) (id : Nat) : Option (List Byte) :=
  ((descriptors s).find? fun d => (field d 8 8 &&& field d 0x10 8) == (id &&& field d 0x10 8)).filter mdOk

/-! ### Dies and blocks -/

/-- Blocks of a die of the media in use. -/
def blocksPerDie (s : State) : Nat := mdPlanes s.felt.desc * mdBpp s.felt.desc
/-- Die that holds a block. -/
def dieOf (s : State) (b : Nat) : Nat := b / max 1 (blocksPerDie s)
/-- Channel of a die (R369). -/
def dieChannel (die : Nat) : Nat := die % 32

/-- A die not seen yet. -/
def Die.initial : Die := { used := false, hot := false, temp := 0, maxTemp := -128, maxAt := 0 }
/-- A die. -/
def State.die (s : State) (n : Nat) : Die := s.felt.dies.getD n Die.initial
/-- A new block. -/
def Block.fresh : Block := { pe := 0, fast := false, erased := true, retired := false, reads := 0, refresh := false, next := 0, group := 0 }
/-- A block. -/
def State.block (s : State) (b : Nat) : Block := s.felt.blocks.getD b Block.fresh
/-- Change of a block. -/
def State.updBlock (s : State) (b : Nat) (f : Block → Block) : State := s.mapFelt fun x => { x with blocks := x.blocks.adj b Block.fresh f }

/-- A die counter that saturates. -/
def State.bumpSat (s : State) (r : Reg) (u n : Nat) : State := s.setRo r u (BitVec.ofNat 32 (min 0xFFFFFFFF ((s.ro r u).toNat + n)))

/-- Bytes of a block in dense mode. -/
def blockBytes (s : State) : Nat := mdPpb s.felt.desc * mdPage s.felt.desc
/-- Good blocks at start-up. -/
def goodBlocks (s : State) : Nat := s.felt.good / max 1 (blockBytes s)
/-- Dense blocks that are not erased. -/
def usedBlocks (s : State) : Nat := (s.felt.blocks.filter fun e => !e.2.erased && !e.2.retired && !e.2.fast).length
/-- Erased blocks. -/
def erasedBlocks (s : State) : Nat := goodBlocks s - (s.felt.blocks.filter fun e => !e.2.erased || e.2.retired).length
/-- Program-erase counts of the dense blocks that are not retired: their sum, and the number of those blocks. -/
def densePe (s : State) : Nat × Nat :=
  ((s.felt.blocks.foldl (fun n e => if e.2.fast ∨ e.2.retired then n else n + e.2.pe) 0),
    (s.felt.dies.filter fun d => d.2.used).length * blocksPerDie s - (s.felt.blocks.filter fun e => e.2.fast || e.2.retired).length)
/-- Mean program-erase count of the dense blocks, rounded down (log entry 81). -/
def meanPe (s : State) : Nat := (densePe s).1 / max 1 (densePe s).2
/-- Largest program-erase count of the blocks of a die, or of every die, in a mode. -/
def maxPe (s : State) (die : Option Nat) (fast : Bool) : Nat :=
  (s.felt.blocks.filter fun e => e.2.fast == fast && (die.map fun d => dieOf s e.1 == d).getD true).foldl (fun n e => max n e.2.pe) 0

/-- Felt takes a program or an erase on a block's die: in use, not fenced, not held for its temperature (R400, R403). -/
def dieWritable (s : State) (b : Nat) : Bool :=
  let d := dieOf s b
  (s.die d).used && !(s.die d).hot && !s.fencedUnit 0x0B d && !s.fencedUnit 0x0A (dieChannel d)

/-- A spare block takes a retired block's place; the last one gone, Felt takes no new writes (R398, R401). -/
def drawSpare (s : State) : State :=
  let n := s.felt.spare
  let s := s.mapFelt fun f => { f with spare := n - 1, limited := f.limited || decide (n ≤ 1) }
  let s := s.eventIf (decide (10 * (n - 1) < s.felt.spare0) && decide (10 * n ≥ s.felt.spare0)) .fltEvent 0 5
  s.eventIf (decide (n = 1)) .fltEvent 0 6

/-- Blocks of a zone: one in every plane of 16 dies on 16 different channels, which Felt chooses: free values (R391). -/
def zoneBlocks (s : State) (p z : Nat) : List Nat :=
  let k := 2 ^ 24 * p + z
  let per := blocksPerDie s
  let dies := ((List.range 16).foldl (fun (a : List Nat × List Nat) i =>
    match a.2[Config.place 7 (16 * k + i) % max 1 a.2.length]? with
    | some c => (a.1 ++ [c], a.2.filter (· != c))
    | none => a) ([], (List.range 32).filter fun c => s.felt.dies.any fun d => d.2.used && dieChannel d.1 == c)).1.filterMap fun c =>
      let l := (s.felt.dies.filter fun d => d.2.used && dieChannel d.1 == c).map (·.1)
      l[Config.place 8 (32 * k + c) % max 1 l.length]?
  dies.flatMap fun d => (List.range (mdPlanes s.felt.desc)).map fun q =>
    d * per + q * mdBpp s.felt.desc + Config.place 9 (2 ^ 13 * k + 8 * d + q) % max 1 (mdBpp s.felt.desc)

/-- Zones that hold a codeword of a block, or whose block it is. -/
def zonesOn (s : State) (b : Nat) : List Nat :=
  (s.felt.zones.filter fun z => (zoneBlocks s (z.1 / 2 ^ 24) (z.1 % 2 ^ 24)).contains b || z.2.mapped.any fun l => (s.felt.map.get l).map (·.block) == some b).map (·.1)

/-- A block is retired (R398, R399, R401). -/
def retireBlock (s : State) (b : Nat) : State :=
  if (s.block b).retired then s else
  let zs := zonesOn s b
  let bare := decide (s.felt.spare = 0)
  let s := (s.updBlock b fun x => { x with retired := true, refresh := false }).bumpSat .fltDRetired (dieOf s b) 1
  let s := if bare then s.mapFelt fun f => { f with bare := addSet f.bare b, zones := zs.foldl (fun m z => m.upd z fun x => { x with st := .offline }) f.zones } else drawSpare s
  s.event .fltEvent 0 3

/-! ### The map (R375, R388) -/

/-- Logical codeword number of a partition's data space. -/
def laddrOf (part cw : Nat) : Nat := cw % 2 ^ 40 + part % 64 * 2 ^ 40
/-- Partition of a LADDR. -/
def laddrPart (l : Nat) : Nat := bits l 40 6
/-- Space of a LADDR: 0 partition data, 1 journal, 2 device. -/
def laddrSpace (l : Nat) : Nat := bits l 46 2

/-- Codewords that a block holds. -/
def blockCodewords (s : State) : Nat := mdPpb s.felt.desc * mdPage s.felt.desc / 4096

/-- Blocks of a stripe group. -/
def groupBlocks (s : State) (g : Nat) : List Nat := (s.felt.blocks.filter fun e => e.2.group == g && g != 0).map (·.1)

/-- The group that a block joins when it is first programmed: one that lacks its channel, or a new one; which is open. -/
def groupFor (s : State) (b : Nat) : Nat :=
  let l := ((s.felt.blocks.map (·.2.group)).eraseDups).filter fun g =>
    let m := groupBlocks s g
    g != 0 && decide (m.length < 16) && !m.any fun x => dieChannel (dieOf s x) == dieChannel (dieOf s b)
  l.getD (Config.place 11 s.felt.wseq % (l.length + 1)) (s.felt.wseq + 1)

/-- With fifteen codewords of a stripe programmed, the sixteenth is written: their XOR, KIND 0x06 (R377). -/
def stripeParity (s : State) (g pos : Nat) : State :=
  let m := groupBlocks s g
  let todo := m.filter fun b => decide ((s.block b).next ≤ pos)
  match todo with
  | [b] =>
    if m.length < 16 then s
    else ((s.updBlock b fun x => { x with next := pos + 1 }).mapFelt fun f => { f with
      parity := f.parity.put (2 ^ 16 * g + pos) b, wseq := f.wseq + 1 })
  | _ => s

/-- A codeword written to a block: the map names it from then on, and the block it lay in no longer does. It takes the next
WSEQ, and the block's next position in its stripes. -/
def writeCodeword (s : State) (l kind gen b : Nat) : State :=
  let old := s.block b
  let pos := if old.erased then 0 else old.next
  let g := if old.erased then groupFor s b else old.group
  let w : Codeword := { block := b, wseq := s.felt.wseq, keyGen := gen, kind := kind, pos := pos }
  let s := s.mapFelt fun f => { f with map := f.map.put l w, sinceCkpt := f.sinceCkpt ++ [(l, w)], wseq := f.wseq + 1 }
  let s := s.updBlock b fun x => { x with erased := false, reads := if x.erased then 0 else x.reads, next := pos + 1, group := g }
  let s := stripeParity s g pos
  if laddrSpace l = 0 then s.bump .fltPWrites (laddrPart l) 1 else s

/-- A block takes a codeword that Felt places: not retired, with room, in the mode wanted, and no block of a zone. -/
def takesCodeword (s : State) (fast : Bool) (b : Nat) : Bool :=
  let x := s.block b
  !x.retired && (x.erased || (x.fast == fast && decide (x.next < blockCodewords s))) && !s.felt.bare.contains b && (zonesOn s b).isEmpty

/-- A block that Felt chooses for a codeword: where it writes is open, a free value among the blocks of dies that it may
program; a fast-cell block where `fast`. -/
def freeBlock (s : State) (fast : Bool) : Nat × State :=
  let per := blocksPerDie s
  let k := Config.freeNat s.free
  let dies := (s.felt.dies.map (·.1)).filter fun d => dieWritable s (d * per)
  let d := dies.getD (k % max 1 dies.length) 0
  let b := d * per + (((List.range per).map fun i => (k + i) % per).find? fun i => takesCodeword s fast (d * per + i)).getD 0
  (b, (s.drawn).updBlock b fun x => { x with fast := if x.erased then fast else x.fast })

/-- A mapped codeword copied to another block as ciphertext: LADDR, KEY_GEN and KIND stay (R376). -/
def copyCodeword (s : State) (l b : Nat) : State :=
  match s.felt.map.get l with
  | none => s
  | some w => writeCodeword s l w.kind w.keyGen b

/-- Codewords mapped into a block. -/
def mappedIn (s : State) (b : Nat) : List Nat := (s.felt.map.filter fun e => e.2.block == b).map (·.1)

/-- A block erased. -/
def eraseBlock (s : State) (b : Nat) : State :=
  let g := (s.block b).group
  (s.updBlock b fun x => { x with erased := true, pe := x.pe + 1, reads := 0, refresh := false, next := 0, group := 0 }).mapFelt fun f =>
    { f with parity := f.parity.filter fun e => !(e.2 == b && e.1 / 2 ^ 16 == g) }

/-- The data of a block moves to another one, and the block is erased (R389). -/
def moveBlock (s : State) (b dest : Nat) (fast : Bool) : State :=
  let s := s.updBlock dest fun x => { x with fast := fast }
  eraseBlock ((mappedIn s b).foldl (fun s l => copyCodeword s l dest) s) b

/-- A block may take the data of another one. -/
def destOk (s : State) (b dest : Nat) : Bool :=
  b != dest && (s.block dest).erased && !(s.block dest).retired && dieWritable s dest && dieWritable s b

/-- Blocks whose data host software places: blocks of zones (R395). -/
def inZone (s : State) (b : Nat) : Bool := !(zonesOn s b).isEmpty

/-! ### Identification and training (R368 to R371, R380) -/

/-- Fastest rate that the descriptors of the dies found so far permit. -/
def permittedRate (s : State) : Nat := s.felt.ids.foldl (fun r e => match descOf s e.2.1 with
  | some d => min r (mdMaxRate d)
  | none => r) 3

/-- Rate of a channel's next training attempt: one attempt at the first rate, three at each lower one; none left where it
has failed at 1,600 MT/s. -/
def trainingRate (s : State) (ch : Nat) : Option Nat :=
  let n := s.felt.tries.getD ch 0
  let down := if n = 0 then 0 else (n - 1) / 3 + 1
  if down > permittedRate s then none else some (permittedRate s - down)

/-- Bytes of a die's page data areas under a descriptor. -/
def dieBytes (d : List Byte) : Nat := mdPlanes d * mdBpp d * mdPpb d * mdPage d

/-- Dies of a descriptor. -/
def diesOf (s : State) (d : List Byte) : List Nat :=
  (s.felt.ids.filter fun e => descOf s e.2.1 == some d && !s.felt.dead.contains (dieChannel e.1)).map (·.1)

/-- The descriptor that the most dies match, the first one of those. -/
def bestDesc (s : State) : Option (List Byte) :=
  (descriptors s).foldl (fun a d => match a with
    | none => if (diesOf s d).isEmpty then none else some d
    | some x => if (diesOf s d).length > (diesOf s x).length then some d else some x) none

/-- The bytes of the media descriptor area. -/
def mediaArea (s : State) : List Byte := (List.range (((norRegion s 4).map (·.2)).getD 0)).map fun j => s.usnea.media.getD j 0xFF

/-- Every channel is trained or fenced: the media in use, the rate, the good data area, the spare blocks and the counters of
the health record. -/
def mediaFound (s : State) : State :=
  let s := extendMeas s 3 (Config.sha384 (mediaArea s))
  match bestDesc s with
  | none => (s.eventIf (s.felt.ids.any fun e => !s.felt.dead.contains (dieChannel e.1)) .fltEvent 0 0).mapPower fun p => { p with memDone := addSet p.memDone 2 }
  | some d =>
    let all := diesOf s d
    let use := (all.take ((64 * 10 ^ 12) / max 1 (dieBytes d))).filter (decide <| · < 1024)
    let bad := use.foldl (fun n x => n + ((s.felt.ids.get x).map (·.2.length)).getD 0) 0
    let good := use.length * dieBytes d - bad * (mdPpb d * mdPage d)
    let spare := Config.spareBlocks (good / max 1 (mdPpb d * mdPage d))
    let per := mdPlanes d * mdBpp d
    let s := s.mapFelt fun f => { f with
      desc := d, iface := if field d 0x18 1 = 2 then .toggle else .onfi, rate := f.trained.foldl (fun r e => min r e.2) (mdMaxRate d)
      good := good, spare0 := if f.spare0 = 0 then spare else f.spare0, spare := if f.spare0 = 0 then spare else f.spare
      dies := use.foldl (fun m x => m.adj x Die.initial fun y => { y with used := true }) f.dies
      blocks := use.foldl (fun m x => (((f.ids.get x).map (·.2)).getD []).foldl (fun m k => m.adj (x * per + k) Block.fresh fun y => { y with retired := true }) m) f.blocks }
    let s := s.eventIf (decide (use.length < (s.felt.ids.filter fun e => !s.felt.dead.contains (dieChannel e.1)).length)) .fltEvent 0 0
    let s := s.mapRegs fun r => { r with ro := s.felt.health.foldl (fun m e => m.put e.1 e.2) r.ro }
    s.mapPower fun p => { p with memDone := addSet p.memDone 2 }

/-- A training attempt of a channel ends: the IDs of its dies have been read, and the channel is trained at the rate of the
attempt, tried again, or fenced. -/
def nandTraining (s : State) (ch : Nat) (ok : Bool) (ids : List (Nat × Nat × List Nat)) : State :=
  if s.power.stage ≠ .memory ∨ ch ≥ 32 ∨ (s.felt.trained.get ch).isSome ∨ s.felt.dead.contains ch then s
  else
    let s := s.mapFelt fun f => { f with ids := ids.foldl (fun m e => if e.1 % 32 = ch then m.put e.1 e.2 else m) f.ids }
    let s := s.eventIf (ids.any fun e => decide (e.1 ≥ 1024)) .fltEvent 0 0
    let s := match ok, trainingRate s ch with
      | true, some r => s.mapFelt fun f => { f with trained := f.trained.put ch r }
      | _, _ =>
        let s := s.mapFelt fun f => { f with tries := f.tries.adj ch 0 (· + 1) }
        if (trainingRate s ch).isSome then s
        else ((s.mapFelt fun f => { f with dead := addSet f.dead ch }).setUnit 0x0A ch { s.unit 0x0A ch with st := .out }).event .fltEvent 0 1
    if (List.range 32).all fun c => (s.felt.trained.get c).isSome || s.felt.dead.contains c then mediaFound s else s

def execNandTraining (ch : Nat) (ok : Bool) (ids : List (Nat × Nat × List Nat)) (s : State) : Out := .next (nandTraining s ch ok ids)

/-! ### Map checkpoints and the rebuild of the map (R390) -/

def mapCheckpoint (s : State) : State := if s.felt.ready then s.mapFelt fun f => { f with mapCkpt := f.map, sinceCkpt := [] } else s

def execMapCheckpoint (s : State) : Out := .next (mapCheckpoint s)

/-- The map with a codeword's metadata taken into account: the highest WSEQ wins. -/
def mapTake (m : Smap Codeword) (e : Nat × Codeword) : Smap Codeword :=
  match m.get e.1 with
  | some w => if w.wseq ≤ e.2.wseq then m.put e.1 e.2 else m
  | none => m.put e.1 e.2

/-- The map rebuilt from the latest map checkpoint and the codewords written after it; Felt is ready. -/
def mapRebuild (s : State) : State :=
  if s.power.stage ≠ .media ∨ s.felt.ready then s
  else s.mapFelt fun f => { f with map := f.sinceCkpt.foldl mapTake f.mapCkpt, ready := true }

def execMapRebuild (s : State) : Out := .next (mapRebuild s)

/-! ### Vectors, checkpoints and their codewords (R379, R390) -/

/-- Bytes of an exact vector, rounded up to a multiple of 64. -/
def vectorBytes (d : ShardDesc) : Nat := 64 * ceilDiv (nrDim d.numrec * exactBytes d.numrec) 64

/-- First codeword of an index's vector region, as Felt reserved it: a free value. -/
def vbase (sh : Shard) : Nat := Config.place 6 (64 * sh.part + sh.index) % 2 ^ 39

/-- Codewords that hold the exact vector of a slot. -/
def vectorLaddrs (sh : Shard) (x : Nat) : List Nat :=
  let v := vectorBytes sh.desc
  if v ≤ 4096 then [laddrOf sh.part (vbase sh + x / (4096 / max 1 v))]
  else (List.range (ceilDiv v 4096)).map fun i => laddrOf sh.part (vbase sh + x * ceilDiv v 4096 + i)

/-- Slots whose exact vector lies in a codeword. -/
def slotsIn (sh : Shard) (l : Nat) : List Nat := (sh.vectors.filter fun e => (vectorLaddrs sh e.1).contains l).map (·.1)

/-- Codewords of a checkpoint, whose number and place the spec leaves open: free values. -/
def ckptLaddrs (sh : Shard) (epoch : Nat) : List Nat :=
  let k := 2 ^ 48 * (64 * sh.part + sh.index) + epoch
  (List.range (Config.place 4 k)).map fun i => laddrOf sh.part (2 ^ 39 + (Config.place 5 k + i) % 2 ^ 39)

/-- A codeword unmapped (R390). -/
def unmapAll (s : State) (l : List Nat) : State :=
  s.mapFelt fun f => { f with
    map := f.map.filter (fun e => !l.contains e.1), sinceCkpt := f.sinceCkpt.filter (fun e => !l.contains e.1), mapCkpt := f.mapCkpt.filter (fun e => !l.contains e.1)
    zones := f.zones.map fun z => (z.1, { z.2 with mapped := z.2.mapped.filter fun x => !l.contains x }) }

/-! ### Zones (R391 to R396, R572) -/

/-- Data codewords that a zone holds. -/
def zoneCapacity (s : State) : Nat := 15 * mdPlanes s.felt.desc * mdPpb s.felt.desc * mdPage s.felt.desc / 4096
/-- Zones that a partition's flash allotment makes. -/
def zoneTotal (s : State) (p : Nat) : Nat := cfgFlashGib s.img.cfg p * 2 ^ 30 / (max 1 (zoneCapacity s) * 4096)
/-- Zones of a partition in host-assisted translation mode. -/
def zoneCount (s : State) (p : Nat) : Nat := if hostMode s p 0 then zoneTotal s p else 0
/-- An EMPTY zone. -/
def Zone.empty : Zone := { st := .empty, ckpt := false, index := 0, written := 0, mapped := [], resetCmd := none }
/-- A zone. -/
def State.zone (s : State) (p z : Nat) : Zone :=
  s.felt.zones.getD (2 ^ 24 * p + z) { Zone.empty with
    st := if s.felt.bare.any fun b => (zoneBlocks s p z).contains b then .offline else .empty }
/-- A zone written. -/
def State.setZone (s : State) (p z : Nat) (x : Zone) : State := s.mapFelt fun f => { f with zones := f.zones.put (2 ^ 24 * p + z) x }

/-- The OPEN zone of a role. -/
def openZone (s : State) (p : Nat) (ckpt : Bool) (index : Nat) : Option Nat :=
  ((s.felt.zones.filter fun e => e.1 / 2 ^ 24 == p && e.2.st == .opened && e.2.ckpt == ckpt && (ckpt || e.2.index == index)).map (·.1 % 2 ^ 24)).head?

/-- Codewords written to a zone: they are mapped there and nowhere else; the last codeword fills it. -/
def zoneWrite (s : State) (p z kind : Nat) (ls : List Nat) : State :=
  let bs := zoneBlocks s p z
  let gen := ((s.sec.keys.get p).map (·.gen)).getD 0
  let at_ (j : Nat) : Nat := bs.getD (Config.place 10 (2 ^ 32 * (2 ^ 24 * p + z) + j) % max 1 bs.length) 0
  let s := (ls.zipIdx).foldl (fun s l => writeCodeword s l.1 ((s.felt.map.get l.1).map (·.kind) |>.getD kind)
    ((s.felt.map.get l.1).map (·.keyGen) |>.getD gen) (at_ ((s.zone p z).written + l.2))) s
  let s := s.mapFelt fun f => { f with zones := f.zones.map fun e => (e.1, { e.2 with mapped := e.2.mapped.filter fun x => !ls.contains x }) }
  let x := s.zone p z
  let n := x.written + ls.length
  s.setZone p z { x with mapped := x.mapped ++ ls, written := n, st := if n ≥ zoneCapacity s then .full else x.st }

/-- Size that the fast-cell buffer may have now, GiB (R381). -/
def fastGib (s : State) : Nat :=
  let f := erasedBlocks s * blockBytes s - s.felt.good * 8 / 100
  min (s.fld .fltCfg 0 16 12) (f / (4 * max 1 (mdBpc s.felt.desc)) / 2 ^ 30)

/-- The fast-cell buffer has room for codewords (R381). -/
def fastRoom (s : State) (n : Nat) : Bool :=
  decide (4096 * ((s.felt.map.filter fun e => (s.block e.2.block).fast).length + n) ≤ fastGib s * 2 ^ 30)

/-- Device writes of a partition: to the OPEN zone of the role in host-assisted mode, else to blocks of Felt's choice. A
write that finds no zone with room, or no spare block left, waits: none (R394, R401). -/
def deviceWrite (s : State) (p : Nat) (ckpt : Bool) (index : Nat) (ls : List Nat) : Option State :=
  let kind := if ckpt then 2 else 1
  if s.felt.limited then none
  else if hostMode s p 0 then
    match openZone s p ckpt index with
    | none => none
    | some z => if (s.zone p z).written + ls.length > zoneCapacity s then none else some (zoneWrite s p z kind ls)
  else
    let gen := ((s.sec.keys.get p).map (·.gen)).getD 0
    some (ls.foldl (fun s l => let b := freeBlock s (fastRoom s 1); writeCodeword b.2 l kind gen b.1) s)

/-- A device write waits for a zone (R394). -/
def zoneNeeded (s : State) (p : Nat) : State :=
  if hostMode s p 0 then (s.mapFelt fun f => { f with zoneWait := f.zoneWait.put p 1 }).event .fltPevent p 0 else s

/-- Zone that a command names, when it exists under the translation mode that the command was admitted in (R24). -/
def cmdZone (s : State) (c : Cmd) : Option Nat :=
  let z := bits (eArg1 c.entry) 0 24
  if c.mode 0 ∧ z < zoneTotal s c.part then some z else none

/-- OPEN. -/
def zoneOpen (s : State) (n : Nat) (c : Cmd) : State :=
  let role := bits (eArg0 c.entry) 3 2
  match cmdZone s c with
  | none => endWith s n stInvalid
  | some z =>
    let ckpt := role == 2
    let i := eIndex c.entry
    if (s.zone c.part z).st ≠ .empty ∨ (role ≠ 1 ∧ role ≠ 2) ∨ (openZone s c.part ckpt i).isSome ∨
        (!ckpt ∧ ((shardOf s c.part i).filter (·.phase != .retiring)).isNone) then endWith s n stInvalid
    else endWith ((s.setZone c.part z { Zone.empty with st := .opened, ckpt := ckpt, index := if ckpt then 0 else i }).mapFelt fun f =>
      { f with zoneWait := f.zoneWait.del c.part }) n stOk

/-- A ZONE command admitted in host-assisted mode has not ended. -/
def zoneBusy (s : State) (p : Nat) : Bool :=
  s.host.cmds.any fun e => e.2.part == p && eOpcode e.2.entry == 0x88 && e.2.mode 0 && e.2.phase != .done

/-- In hardware mode a partition's zones become part of Felt's pools (R396), once no command that was admitted in host-assisted
mode still runs on them (R24). -/
def zonesRelease (s : State) (p : Nat) : State :=
  if hostMode s p 0 ∨ zoneBusy s p then s
  else s.mapFelt fun f => { f with zones := f.zones.filter (fun e => e.1 / 2 ^ 24 != p), zoneWait := f.zoneWait.del p }

/-- A sub-operation of ZONE: the row acts on a ZONE command that names it. -/
def onZone (s : State) (n sub : Nat) (f : Cmd → State) : State :=
  onAdmitted s n [0x88] fun c => if bits (eArg0 c.entry) 0 3 = sub then zonesRelease (f c) c.part else s

def execZoneOpen (cmd : Nat) (s : State) : Out := .next (onZone s cmd 1 fun c => zoneOpen s cmd c)

/-- One APPEND entry: its codewords go to the zone, or the entry fails. -/
def appendEntry (s : State) (p z : Nat) (e : Nat) : State × Nat :=
  let x := s.zone p z
  let ls : List Nat :=
    if x.ckpt then
      let l := laddrOf p (bits e 0 40)
      if bits e 40 24 = 0 ∧ ((s.felt.map.get l).map (·.kind)) = some 2 then [l] else []
    else match shardOf s p x.index with
      | none => []
      | some sh => if bits e 32 32 = 0 ∧ (sh.vectors.get (bits e 0 32)).isSome then vectorLaddrs sh (bits e 0 32) else []
  if x.st ≠ .opened ∨ ls.isEmpty ∨ x.written + ls.length > zoneCapacity s ∨ s.felt.limited then (s.event .fltPevent p 1, stInvalid)
  else (zoneWrite (charge (charge s p tT5 (4096 * ls.length)) p tT5 (4096 * ls.length)) p z (if x.ckpt then 2 else 1) ls, stOk)

/-- APPEND. -/
def zoneAppend (s : State) (n : Nat) (c : Cmd) : State :=
  let k := eDataLen c.entry / 8
  match cmdZone s c with
  | none => endWith s n stInvalid
  | some z =>
    if eDataLen c.entry % 8 ≠ 0 ∨ k = 0 ∨ eResultLen c.entry < 8 * k ∨ bits (eArg0 c.entry) 3 2 ≠ 0 then endWith s n stInvalid
    else
      let b := inputData s c.entry
      let r := (List.range k).foldl (fun (a : State × List Nat) i =>
        let x := appendEntry a.1 c.part z (field b (8 * i) 8)
        (x.1, a.2 ++ [x.2])) (s, [])
      let body := (r.2.zipIdx).flatMap fun x => natLe 8 (field b (8 * x.2) 8 % 2 ^ 40 + x.1 * 2 ^ 40)
      finish (putResult r.1 n 0 body) n (if r.2.all (· == stOk) then stOk else stInvalid) (r.2.filter (· == stOk)).length 0

def execZoneAppend (cmd : Nat) (s : State) : Out :=
  .next (onZone s cmd 2 fun c => onTiers s cmd c.part [tT4, tT5] fun s => zoneAppend s cmd c)

/-- FINISH. -/
def zoneFinish (s : State) (n : Nat) (c : Cmd) : State :=
  match cmdZone s c with
  | none => endWith s n stInvalid
  | some z =>
    if (s.zone c.part z).st ≠ .opened then endWith s n stInvalid
    else endWith (s.setZone c.part z { s.zone c.part z with st := .full }) n stOk

def execZoneFinish (cmd : Nat) (s : State) : Out := .next (onZone s cmd 3 fun c => zoneFinish s cmd c)

/-- RESET: refused while codewords are mapped; else the command waits for the reads outstanding and the erase. -/
def zoneReset (s : State) (n : Nat) (c : Cmd) : State :=
  match cmdZone s c with
  | none => endWith s n stInvalid
  | some z =>
    let x := s.zone c.part z
    if !x.mapped.isEmpty ∨ x.st = .offline ∨ x.resetCmd.isSome then endWith s n stInvalid
    else (markRunning s n).setZone c.part z { x with resetCmd := some n }

def execZoneReset (cmd : Nat) (s : State) : Out := .next (onZone s cmd 4 fun c => zoneReset s cmd c)

/-- The last outstanding read of a zone under RESET is over: it is erased, EMPTY, and its command completes. -/
def zoneErase (s : State) (p z : Nat) : State :=
  match (s.zone p z).resetCmd with
  | none => s
  | some n =>
    if !(s.zone p z).mapped.isEmpty then zonesRelease (endWith (s.setZone p z { s.zone p z with resetCmd := none }) n stInvalid) p
    else zonesRelease (endWith (((zoneBlocks s p z).foldl eraseBlock s).setZone p z Zone.empty) n stOk) p

def execZoneResetErase (part zone : Nat) (s : State) : Out := .next (zoneErase s part zone)

/-- A zone record of REPORT. -/
def zoneRecord (z : Nat) (x : Zone) : List Byte :=
  let st := match x.st with
    | .empty => 0 | .opened => 1 | .full => 2 | .offline => 3
  let op := x.st == .opened
  natLe 8 (z + st * 2 ^ 24 + (if op then (if x.ckpt then 2 else 1) else 0) * 2 ^ 27 + (if op ∧ !x.ckpt then x.index else 0) * 2 ^ 29) ++
    natLe 4 x.mapped.length ++ natLe 4 x.written

/-- REPORT. -/
def zoneReport (s : State) (n : Nat) (c : Cmd) : State :=
  let z0 := bits (eArg1 c.entry) 0 24
  if !c.mode 0 then endWith s n stInvalid
  else
    let k := min (eResultLen c.entry / 16) (zoneTotal s c.part - z0)
    let body := (List.range k).flatMap fun i => zoneRecord (z0 + i) (s.zone c.part (z0 + i))
    finish (putResult s n 0 body) n stOk k 0

def execZoneReport (cmd : Nat) (s : State) : Out := .next (onZone s cmd 5 fun c => onTiers s cmd c.part [tT4] fun s => zoneReport s cmd c)

/-- The translation mode of a partition has changed at a boundary (R396): its data lies in FULL zones, or the zones are
blocks of Felt's pools again. -/
def zoneModeApply (s : State) (p : Nat) (was : Bool) : State :=
  let now := hostMode s p 0
  if was = now then s
  else if now then
    let ls := (s.felt.map.filter fun e => laddrPart e.1 == p && laddrSpace e.1 == 0).map (·.1)
    let cap := max 1 (zoneCapacity s)
    let k := ceilDiv ls.length cap
    let s := s.mapFelt fun f => { f with zones := f.zones.filter fun e => e.1 / 2 ^ 24 != p || e.2.resetCmd.isSome }
    let free := (List.range (k + s.felt.zones.length)).filter fun z => !s.felt.zones.has (2 ^ 24 * p + z)
    ((List.range k).zip free).foldl (fun s z =>
      let m := (ls.drop (z.1 * cap)).take cap
      s.setZone p z.2 { Zone.empty with st := .full, mapped := m, written := m.length }) s
  else zonesRelease s p

/-! ### Moves of data: garbage collection, wear levelling, refresh, folding (R381, R389) -/

/-- A block is a full dense block that Felt manages. -/
def denseFull (s : State) (b : Nat) : Bool := let x := s.block b; !x.erased && !x.retired && !x.fast && !inZone s b

/-- Among full dense blocks this one has the fewest mapped codewords, and among those the lowest program-erase count. -/
def gcVictim (s : State) (b : Nat) : Bool :=
  denseFull s b && s.felt.blocks.all fun e => !denseFull s e.1 || decide ((mappedIn s b).length < (mappedIn s e.1).length) ||
    (decide ((mappedIn s b).length = (mappedIn s e.1).length) && decide ((s.block b).pe ≤ e.2.pe))

/-- Garbage collection of a block, while erased dense blocks are below 2% of the dense blocks. -/
def garbageCollect (s : State) (b dest : Nat) : State :=
  if !gcVictim s b ∨ !destOk s b dest ∨ erasedBlocks s * 50 ≥ goodBlocks s then s else moveBlock s b dest false

def execGarbageCollection (block dest : Nat) (s : State) : Out := .next (garbageCollect s block dest)

/-- Wear levelling: the data of a block whose count lies more than 10% of PE_RATED below the mean moves. -/
def wearLevel (s : State) (b dest : Nat) : State :=
  if !denseFull s b ∨ !destOk s b dest ∨ 10 * ((densePe s).1 - (densePe s).2 * (s.block b).pe) ≤ (densePe s).2 * mdPeRated s.felt.desc then s else moveBlock s b dest false

def execWearLevelMove (block dest : Nat) (s : State) : Out := .next (wearLevel s block dest)

/-- Refresh: the data of a block that wants it moves. -/
def blockRefresh (s : State) (b dest : Nat) : State :=
  if !(s.block b).refresh ∨ (s.block b).erased ∨ (s.block b).retired ∨ !destOk s b dest then s else moveBlock s b dest (s.block b).fast

def execBlockRefresh (block dest : Nat) (s : State) : Out := .next (blockRefresh s block dest)

/-- A fast-cell block's data is folded into a dense block, once every page of the word line has been programmed. -/
def fastFold (s : State) (b dest : Nat) : State :=
  if !(s.block b).fast ∨ (s.block b).erased ∨ (s.block b).retired ∨ !destOk s b dest then s else moveBlock s b dest false

def execFastCellFold (block dest : Nat) (s : State) : Out := .next (fastFold s block dest)

/-! ### Reading: the ladder and the patrol (R378, R389, R397, R400) -/

/-- REFRESH_BITS as the channel of a block runs it. -/
def refreshBits (s : State) (b : Nat) : Nat := bits (s.regIn (124 + dieChannel (dieOf s b)) .fltCfg2 0).toNat 0 9

/-- The patrol reads a block; bits beyond REFRESH_BITS make it want a refresh. -/
def flashPatrol (s : State) (b corrected : Nat) : State :=
  if (s.block b).erased ∨ (s.block b).retired then s
  else
    let s := s.bumpSat .fltDCorr (dieOf s b) corrected
    let s := if corrected > refreshBits s b then s.updBlock b fun x => { x with refresh := true } else s
    s.mapFelt fun f => { f with patrol := b + 1 }

def execFlashPatrol (block corrected : Nat) (s : State) : Out := .next (flashPatrol s block corrected)

/-- What one read of a codeword leaves: bytes over its channel, a read of its block, corrected bits, a refresh wanted. -/
def readNote (s : State) (l b corrected : Nat) : State :=
  let d := dieOf s b
  let s := s.mapFelt fun f => { f with chBytes := f.chBytes.adj (dieChannel d) 0 (· + 4608) }
  let s := if laddrSpace l = 0 then s.bump .fltPReads (laddrPart l) 1 else s
  let s := s.bumpSat .fltDCorr d corrected
  s.updBlock b fun x => { x with
    reads := x.reads + 1
    refresh := x.refresh || decide (corrected > refreshBits s b) || decide (x.reads + 1 ≥ mdReadLimit s.felt.desc) }

/-- The counters of the ladder's steps up to one: retry reads of every step before it, soft decodes (R378, R402). -/
def ladderNote (s : State) (d retries soft : Nat) : State := (s.bumpSat .fltDRetry d retries).bumpSat .fltDSoft d soft

/-- Another member of a codeword's stripe lies on a die or channel that is fenced, so step 4 cannot rebuild it (R377, R400). -/
def stripeBroken (s : State) (w : Codeword) : Bool :=
  (groupBlocks s (s.block w.block).group).any fun b => b != w.block && decide ((s.block b).next > w.pos) &&
    (s.fencedUnit 0x0B (dieOf s b) || s.fencedUnit 0x0A (dieChannel (dieOf s b)))

/-- A codeword of partition data whose data is lost: exact vectors in it can no longer be read; a checkpoint in it is
written anew (R594). -/
def codewordLost (s : State) (l : Nat) : State :=
  let p := laddrPart l
  let gone (sh : Shard) : Shard :=
    let xs := slotsIn sh l
    let sh := { sh with vectors := sh.vectors.filter (fun e => !xs.contains e.1), jvectors := sh.jvectors.filter fun e => !xs.contains e.1 }
    match sh.ckpt with
    | some c => if (ckptLaddrs sh c.epoch).contains l then { sh with ckpt := sh.ckptPrev, ckptPrev := none } else sh
    | none => sh
  s.mapShards fun m => m.map fun e => (e.1, if e.2.part = p then gone e.2 else e.2)

/-- Journal pages from one on are lost to replay (R594). The page of a journal codeword is its number div the codewords of a
page (DEDUCED, log entry 32). -/
def journalPageLost (s : State) (p jseq : Nat) : State :=
  let j := journalOf s p
  faultRecord (setJournal s p { j with durable := j.durable.filter fun g => decide (g.jseq < jseq) }) 0x08 0 0 jseq [p] []

/-- A read of a codeword ends at a step of the ladder; on a fenced die or channel only the stripe answers. -/
def codewordRead (s : State) (l : Nat) (step : LadderStep) : State :=
  if laddrSpace l = 1 then
    match step with
    | .failed => journalPageLost ((s.event .fltEvent 0 2).event .fltPevent (laddrPart l) 2) (laddrPart l) (bits l 0 40 / max 1 (mdPage s.felt.desc / 4096))
    | _ => s
  else match s.felt.map.get l with
  | none => s
  | some w =>
    let d := dieOf s w.block
    let dark := s.fencedUnit 0x0B d || s.fencedUnit 0x0A (dieChannel d)
    let again (s : State) : State := let b := freeBlock s false; copyCodeword b.2 l b.1
    let steps := field s.felt.desc 0x29 1
    let tried (s : State) : State := if dark then s else ladderNote s d steps 1
    let lost (s : State) : State :=
      let p := laddrPart l
      let s := ((tried (readNote s l w.block 0)).bumpSat .fltDUncorr d 1).event .fltEvent 0 2
      let s := if laddrSpace l = 0 then s.event .fltPevent p 2 else s
      faultRecord (codewordLost s l) 0x08 0 0 0 (if laddrSpace l = 0 then [p] else []) []
    match step with
    | .hard n => if dark then s else readNote s l w.block n
    | .retry n => if dark then s else (ladderNote (readNote s l w.block n) d (Config.freeNat s.free % max 1 steps + 1) 0).drawn
    | .soft n => if dark then s else again (ladderNote (readNote s l w.block n) d steps 1)
    | .parity => if stripeBroken s w then lost s else again ((tried (readNote s l w.block 0)).bumpSat .fltDRebuild d 1)
    | .failed => lost s

def execCodewordRead (laddr : Nat) (step : LadderStep) (s : State) : Out := .next (codewordRead s laddr step)

/-! ### Failing blocks and dies (R398 to R400) -/

/-- Journal pages on a die whose program failed are written again on another pair, which is open: a free value. -/
def rewritePages (s : State) (die : Nat) : State :=
  let on (g : JPage) : Bool := g.closed && !(g.copy0 && g.copy1) && (g.die == die || (g.die + 16) % 32 == die % 32 && g.die / 32 == die / 32)
  (s.mapEpoch fun e => { e with journals := e.journals.map fun j =>
    (j.1, { j.2 with pages := j.2.pages.map fun g => if on g then { g with copy0 := false, copy1 := false, image0 := [], image1 := [], die := Config.freeNat s.free % 1024 } else g }) }).drawn

/-- A program fails: the data goes to another block, the block's other codewords are moved, and it is retired. -/
def programFail (s : State) (b : Nat) : State :=
  if (s.block b).retired ∨ !(s.die (dieOf s b)).used then s
  else
    let s := rewritePages (s.bumpSat .fltDPfail (dieOf s b) 1) (dieOf s b)
    let ls := mappedIn s b
    let d := freeBlock s (s.block b).fast
    retireBlock (ls.foldl (fun s l => copyCodeword s l d.1) d.2) b

def execNandProgramFail (block : Nat) (s : State) : Out := .next (programFail s block)

/-- An erase fails: the block, which holds no mapped codeword, is retired at once. -/
def eraseFail (s : State) (b : Nat) : State :=
  if (s.block b).retired ∨ !(mappedIn s b).isEmpty ∨ !(s.die (dieOf s b)).used then s
  else retireBlock (s.bumpSat .fltDEfail (dieOf s b) 1) b

def execNandEraseFail (block : Nat) (s : State) : Out := .next (eraseFail s block)

/-- What a die holds is rebuilt onto other dies, but for the codewords of stripes that have lost another one; and its journal copies are written again (R400). -/
def dieLost (s : State) (die : Nat) : State :=
  let ls := s.felt.map.filter fun e => dieOf s e.2.block == die
  rewritePages (ls.foldl (fun s e =>
    if stripeBroken s e.2 then codewordLost s e.1
    else let b := freeBlock s false; (copyCodeword b.2 e.1 b.1).bumpSat .fltDRebuild die 1) s) die

/-- A die is fenced. -/
def dieFence (s : State) (die : Nat) : State :=
  if die ≥ 1024 ∨ !(s.die die).used ∨ s.fencedUnit 0x0B die then s
  else dieLost ((unitFault s 0x0B die 0x08 0 true).event .fltEvent 0 4) die

def execDieFence (die : Nat) (s : State) : Out := .next (dieFence s die)

/-! ### Temperatures and the health record (R402, R403) -/

/-- Band of a die temperature. -/
def tempBand (s : State) (t : Int) : Nat :=
  let m : Int := (mdTempMax s.felt.desc : Nat)
  if t < 25 then 0 else if t < 40 then 1 else if t < 55 then 2 else if t < 70 then 3 else if t < 80 then 4 else if t < m then 5
  else if t < m + 10 then 6 else 7

/-- A die's temperature is read, once a second. -/
def dieTemp (s : State) (die : Nat) (t : Int) : State :=
  if !(s.die die).used then s
  else
    let m : Int := (mdTempMax s.felt.desc : Nat)
    let x := s.die die
    let hot := decide (t ≥ m) || (x.hot && decide (t > m - 5))
    let s := s.mapFelt fun f => { f with dies := f.dies.put die { x with
      temp := t, hot := hot, maxTemp := max x.maxTemp t, maxAt := if t > x.maxTemp then rtc s else x.maxAt } }
    (s.bumpSat .fltDThist (8 * die + tempBand s t) 1).eventIf (decide (t ≥ m)) .fltEvent 0 7

def execDieTempRead (temps : List (Nat × Int)) (s : State) : Out := .next (temps.foldl (fun s e => dieTemp s e.1 e.2) s)

/-- Registers of the health record. -/
def healthRegs : List Reg :=
  [.fltDThist, .fltDCorr, .fltDRetry, .fltDSoft, .fltDRebuild, .fltDUncorr, .fltDPfail, .fltDEfail, .fltDRetired]

/-- The health record is written to device space. -/
def healthWrite (s : State) : State :=
  if !s.felt.ready then s
  else s.mapFelt fun f => { f with
    health := s.regs.ro.filter fun e => healthRegs.any fun r => r.ctorIdx == e.1 / 262144
    healthTemps := f.dies.map fun d => (d.1, (d.2.maxTemp, d.2.maxAt)) }

def execHealthRecordWrite (s : State) : Out := .next (healthWrite s)

end Sys2Proof.Machine
end

