-- ==== Sys2Proof/Machine/Checkpoints.lean ====
section
/-! DEFINITION. The vector store, checkpoints of shards, the release of journal pages and the rebuild of a shard
(09_epochs_updates R269, R277, R278; 13_felt_flash R386, R390, R393, R394; 19_faults_recovery R590). -/
namespace Sys2Proof.Machine
open Sys2Proof

/-! ### The vector store (R269 part 4) -/

/-- The exact vector of a ring entry's item becomes durable in the vector store; without a zone or a spare block it waits. -/
def vectorDone (s : State) (p index x : Nat) : State :=
  match shardOf s p index with
  | none => s
  | some sh => match ringSeq sh x, sh.jvectors.get x with
    | some q, some v =>
      if ((sh.links.get q).map (·.vecDone)).getD true ∨ zeroRate s p tT5 then s
      else match deviceWrite s p false index (vectorLaddrs sh x) with
        | none => zoneNeeded s p
        | some s =>
          let s := (charge s p tT5 v.length).updShard p index fun h => { h with vectors := h.vectors.put x v }
          linkPart s p index q fun l => { l with vecDone := true }
    | _, _ => s

def execVectorStoreWriteDone (part index slot : Nat) (s : State) : Out := .next (vectorDone s part index slot)

/-- Vector codewords that no slot needs any more become unmapped (R390). -/
def unmapFreed (s : State) : State :=
  unmapAll s ((s.felt.map.filter fun e => e.2.kind == 1 && laddrSpace e.1 == 0 &&
    !(s.shards.any fun h => h.2.part == laddrPart e.1 && !(slotsIn h.2 e.1).isEmpty)).map (·.1))

/-! ### Checkpoints (R277) -/

/-- What an epoch reads of a shard: GRAPH slots settled, ghosts settled as deleted, FRESH slots as they are. -/
def checkpointOf (s : State) (sh : Shard) : Checkpoint :=
  let c := s.epoch.cur
  let ht := headTail sh c
  let st (x : Nat) : SlotSt := slotState sh x c ht.1 ht.2
  let seen := sh.slots.filter fun e => st e.1 != .absent
  let norm (e : Nat × Nat) : Nat × Nat :=
    (e.1, match st e.1 with
      | .graph => srGid e.2 + 2 ^ 108 + 2 ^ 110
      | .ghost => srGid e.2 + 2 ^ 108 + 2 ^ 109 + 2 ^ 110 + 2 ^ 111
      | _ => srGid e.2 + 2 ^ 108)
  let fresh := ((List.range (ht.1 - ht.2)).map (ht.2 + ·)).filterMap fun q => match sh.freshSlots.get (ringIdx sh q) with
    | some x => if st x = .fresh then some (x, (exactOf sh x).getD []) else none
    | none => none
  { epoch := c, desc := sh.desc, slots := seen.map norm, adj := seen.map fun e => (e.1, adjFor sh e.1 c), attrs := seen.map fun e => (e.1, attrFor sh e.1 c)
    fresh := fresh, highWater := sh.highWater, replay := replayPoint (journalOf s sh.part) }

/-- A checkpoint of the current epoch begins; in host-assisted translation it needs an OPEN CHECKPOINT zone (R394). -/
def checkpointStart (s : State) (p index : Nat) : State :=
  match shardOf s p index with
  | none => s
  | some sh =>
    if sh.phase ≠ .serving ∨ sh.lost ∨ sh.ckptNow.isSome ∨ s.epoch.cur = 0 ∨ s.epoch.prepared then s
    else if hostMode s p 0 ∧ (openZone s p true 0).isNone then zoneNeeded s p
    else s.updShard p index fun h => { h with ckptNow := some (checkpointOf s sh) }

def execCheckpointStart (part index : Nat) (s : State) : Out := .next (checkpointStart s part index)

/-- Journal pages before the earliest replay point among the latest complete checkpoints of the partition's shards are
released, in order, and not the page that holds that point (R277, R386). -/
def releasePages (s : State) (p : Nat) : State :=
  let live := (s.shards.filter fun e => e.2.part == p && (e.2.phase == .serving || e.2.phase == .retiring)).map (·.2)
  if live.any fun h => h.ckpt.isNone then s
  else
    let j := journalOf s p
    let point := (live.filterMap (·.ckpt)).foldl (fun n c => min n c.replay.1) j.nextPage
    let old := j.durable.takeWhile fun g => decide (g.jseq < point)
    rekeyCheck (setJournal s p { j with
      durable := j.durable.drop old.length, released := j.released + old.length, used := j.used - old.length * flashPage s }) p

/-- A checkpoint of an epoch is complete: its epoch stands in flash, the event is set, journal pages are released, and a map
checkpoint goes with it (R277, R278). -/
def ckptComplete (s : State) (p epoch : Nat) : State :=
  mapCheckpoint (releasePages ((s.mapEpoch fun e => { e with largest := max e.largest epoch }).event .epcPevent p 4) p)

/-- A checkpoint is complete: the one before it is kept, the one before that unmapped; a map checkpoint goes with it. -/
def checkpointDone (s : State) (p index : Nat) : State :=
  match shardOf s p index with
  | none => s
  | some sh => match sh.ckptNow with
    | none => s
    | some c =>
      let ls := ckptLaddrs sh c.epoch
      if zeroRate s p tT5 then s
      else match deviceWrite s p true 0 ls with
      | none => zoneNeeded s p
      | some s =>
        let s := charge s p tT5 (4096 * ls.length)
        let s := match sh.ckptPrev with
          | some o => if o.epoch = c.epoch ∨ sh.ckpt.any (fun (k : Checkpoint) => k.epoch == o.epoch) then s else unmapAll s (ckptLaddrs sh o.epoch)
          | none => s
        ckptComplete (s.updShard p index fun h => { h with ckptPrev := h.ckpt, ckpt := some c, ckptNow := none }) p c.epoch

def execCheckpointDone (part index : Nat) (s : State) : Out := .next (checkpointDone s part index)

/-! ### The rebuild of a shard (R278, R590) -/

/-- A new item of the rebuilt fresh ring, under a fresh sequence number. -/
def rebuildFresh (s : State) (p index x gid attr : Nat) (exact : List Byte) : State :=
  match shardOf s p index with
  | none => s
  | some sh =>
    let q := sh.ringNext
    let i := ringIdx sh q
    let f := (formsOf sh.desc.numrec exact).1
    let s := winWrite? s sh (normAddr sh x) (natLe 2 f.norm)
    let s := winWrite? s sh (codeAddr (ringWins sh) i) f.code
    let s := winWrite? s sh (tagAddr (ringWins sh) i) (natLe 2 (tagLive + ruleBits sh attr))
    s.updShard p index fun h => { h with
      slots := h.slots.put x (newSlotRec gid q false), attrs := h.attrs.store 0 x attr, jvectors := h.jvectors.put x exact
      freshSlots := h.freshSlots.put i x, links := h.links.put q LinkParts.fresh, ringNext := q + 1, ringHead := q + 1
      free := delSet h.free x, highWater := max h.highWater (x + 1), adj := h.adj.del x, tomb := delSet h.tomb x }

/-- A slot whose deletion every epoch to come sees. -/
def rebuildGone (sh : Shard) (x : Nat) : Shard :=
  { sh with slots := sh.slots.upd x (fun r => setBits (setBits r 109 1 1) 111 1 1), tomb := addSet sh.tomb x }

/-- A journal record replayed. -/
def replayRec (s : State) (p index : Nat) (r : JRec) : State :=
  if r.typ = 1 ∨ r.typ = 2 then
    let s := rebuildFresh s p index r.slot r.gid r.attr r.exact
    if r.typ = 2 ∧ r.oldSlot ≠ nullSlot then s.updShard p index fun h => rebuildGone h r.oldSlot else s
  else if r.slot = nullSlot then s
  else if r.typ = 3 then s.updShard p index fun h => rebuildGone h r.slot
  else if r.typ = 4 then s.updShard p index fun h => { h with attrs := h.attrs.store 0 r.slot r.attr }
  else s

/-- Code, norm and tag of a settled slot, recomputed from its exact vector; the code of a slot whose vector is lost is zero. -/
def rebuildCode (s : State) (p index : Nat) (e : Nat × Nat) : State :=
  match shardOf s p index with
  | none => s
  | some sh =>
    let f := (sh.vectors.get e.1).map fun v => (formsOf sh.desc.numrec v).1
    let s := winWrite? s sh (normAddr sh e.1) (natLe 2 ((f.map (·.norm)).getD 0))
    let s := winWrite? s sh (codeAddr sh.desc.codeList e.1) ((f.map (·.code)).getD (List.replicate 64 0))
    winWrite? s sh (tagAddr sh.desc.codeList e.1) (natLe 2 (tagLive + ruleBits sh (sh.attrs.getD e.1 0)))

/-- The shard that a checkpoint describes, before its ring is filled and its codes are recomputed. -/
def rebuildBase (s : State) (sh : Shard) (c : Checkpoint) : Shard :=
  { newShard sh.part sh.index c.desc ((t3Home s sh.part c.desc).getD []) with
    phase := .serving, highWater := c.highWater, slots := c.slots.filter (fun e => srLinkSettled e.2), adj := c.adj, attrs := c.attrs
    free := (List.range c.highWater).filter fun x => !c.slots.has x
    tomb := (c.slots.filter fun e => srDeleted e.2).map (·.1), vectors := sh.vectors, firstServing := s.epoch.cur + 1
    ckpt := some c, ckptPrev := sh.ckptPrev, loadQp := none, hostAdj := sh.hostAdj, retire := sh.retire, latents := sh.latents, lost := false }

/-- The ID map and the running histogram of a rebuilt shard, from its items that are not deleted. -/
def rebuildMaps (s : State) (p index : Nat) : State :=
  match shardOf s p index with
  | none => s
  | some sh =>
    let live := sh.slots.filter fun e => !srDeleted e.2
    let sh := live.foldl (fun h e => (idInsert s h (srGid e.2) e.1).getD h) sh
    let run := live.foldl (fun r e => histItem sh r true (sh.attrs.getD e.1 0)) Hist.empty
    (s.updShard p index fun _ => { sh with running := run, latents := sh.latents.filter fun l => sh.slots.has l.1 }).drawn

/-- A lost shard is rebuilt from its latest complete checkpoint: codes and norms recomputed, then the durable journal
records from the replay point onward replayed in order. It serves from the next epoch. At start-up it runs in stage
REBUILD. -/
def shardRebuild (s : State) (p index : Nat) : State :=
  match shardOf s p index with
  | none => s
  | some sh => match sh.ckpt with
    | none => s
    | some c =>
      if (s.power.stage ≠ .rebuild ∧ s.power.stage ≠ .running) ∨ !sh.lost ∨ !s.felt.ready ∨ (List.range 16).any (s.fencedUnit 0x09) then s
      else
        let s := (s.updShard p index fun h => rebuildBase s { h with t3 := [] } c).drawn
        let s := match shardOf s p index with
          | some h => c.adj.foldl (fun s e => hotWrite s h e.1 e.2) (emptyWins s h)
          | none => s
        let s := c.fresh.foldl (fun s x => rebuildFresh s p index x.1 (srGid (c.slots.getD x.1 0)) (c.attrs.getD x.1 0) x.2) s
        let j := journalOf s p
        let recs := ((j.durable.flatMap fun g => (pageRecs g).filterMap fun x => if posLt (g.jseq, x.1) c.replay then none else some x.2).filter
          fun r => r.index == index && r.typ != 5 && decide (r.num < j.accepted))
        let s := recs.foldl (fun s r => replayRec s p index r) s
        let s := (((shardOf s p index).map fun h => h.slots.filter fun e => srLinkSettled e.2).getD []).foldl (fun s e => rebuildCode s p index e) s
        let s := rebuildMaps s p index
        match shardOf s p index with
        | some h => pinDescriptor s h
        | none => s

def execShardRebuild (part index : Nat) (s : State) : Out := .next (shardRebuild s part index)

end Sys2Proof.Machine
end

