-- ==== Sys2Proof/Machine/TwillPort.lean ====
section
/-! DEFINITION. Twill ports: training, flits, lane swaps, commands, and the packets that arrive over them (14_twill_fabric
R404 to R431, R434). -/
namespace Sys2Proof.Machine
open Sys2Proof

/-! ### Lanes (R404, R416) -/

/-- Physical lane that carries no logical lane of a map and is not fenced. -/
def freeLane (p : Port) (map : List Nat) : Option Nat := (List.range 5).find? fun l => !map.contains l && !p.failed.contains l

/-- The spare of the port: no logical lane of either direction runs on it (TWL_P_STATE.SPARE). -/
def Port.spare (p : Port) : Option Nat := freeLane p (p.rx ++ p.tx)

/-- Lanes that are not fenced. -/
def Port.good (p : Port) : List Nat := (List.range 5).filter fun l => !p.failed.contains l

/-- Active lanes that the good lanes allow (R419). -/
def Port.fits (p : Port) : Nat := if p.good.length ≥ 4 then 4 else if p.good.length ≥ 2 then 2 else 0

/-- The port is fenced (kind 0x0C). -/
def portFenced (s : State) (i : Nat) : Bool := s.fencedUnit 0x0C i

/-- The port may signal: enabled, not disabled by command, not fenced (R407). -/
def portEnabled (s : State) (i : Nat) : Bool := s.fld .twlPCfg i 0 1 == 1 && !(s.port i).cmdOff && !portFenced s i

/-! ### Changes of state (R407, R410, R430) -/

/-- A port that has left PARAM, ACTIVE or DRAINING: no lane is active and no swap goes on. -/
def Port.stop (p : Port) : Port := { p with width := 0, filling := [], swapRx := none, mirror := none, rxReady := false, peerReady := false, seen := [], mismatch := false }

/-- DETECT: fences of lanes are lifted, and a changed RATE takes effect. -/
def enterDetect (s : State) (i : Nat) : State :=
  s.updPort i fun p => { p.stop with
    st := .detect, failed := [], rx := [0, 1, 2, 3], tx := [0, 1, 2, 3], peerValid := false, rate := s.fld .twlPCfg i 1 1 == 1 }

/-- Retraining from CAL; what waits in the replay buffer is kept (R410, R414). -/
def enterCal (s : State) (i : Nat) : State := s.updPort i fun p => { p.stop with st := .cal }

/-- Packets queued for a port that no longer takes them are routed again; those held only in its replay buffer are
discarded (R430, R431). -/
def reroute (s : State) (i : Nat) : State :=
  let q := (s.port i).outq
  let s := s.updPort i fun p => { p with outq := [], replay := [], partialIn := [], lctrlIn := [], owed := [] }
  q.foldl (fun s k => routePkt s k none) s

/-- The port enters DOWN (R430): a fault of class LINK, which leaves the port to the retries of R407 (DEDUCED, log entry
38). -/
def enterDown (s : State) (i : Nat) : State :=
  let s := faultRecord s 0x0B 0x0C i 0 (unitParts s 0x0C i) []
  let s := s.setUnit 0x0C i ((s.unit 0x0C i).faulted 0x0B)
  raiseEvent ((reroute (s.updPort i fun p => { p.stop with st := .down, fails := 0 }) i).event .twlEvent 0 1) 6 (natLe 4 i)

/-- The port is DISABLED (R407). -/
def enterDisabled (s : State) (i : Nat) : State := reroute (s.updPort i fun p => { p.stop with st := .disabled }) i

/-- Every flit that has not been acknowledged is sent again, in order (R414); a flit sent again eight times in a row makes
the port retrain (R410). -/
def resendAll (s : State) (i : Nat) : State :=
  let p := s.port i
  let n := p.replay.length
  if n = 0 then s else
  let again (p : Port) (f : Flit) : Port := let h := flitHdr p (if f.lctrl then 2 else 0) f.fseq f.pstart false; h.2.putFlit h.1 f.stream
  let s := (s.updPort i fun p => p.replay.foldl again { p with replay := p.replay.map fun f => { f with resent := f.resent + 1 } }).bump .twlPReplay i n
  if (s.port i).st = .active ∧ (s.port i).replay.any (fun f => f.resent ≥ 8) then enterCal s i else s

/-- PARAM is complete: flit numbers and credits start afresh, the lanes take their places, and what the replay buffer holds
is sent again (R407, R414, R422). -/
def enterActive (s : State) (i : Nat) : State :=
  let p := s.port i
  let w := p.fits
  if w = 0 then enterDown s i else
  let place (n : Nat) : Nat := let l := p.good.getD n n; ((p.seen.find? fun e => e.2 == l).map (·.1)).getD l
  let s := s.updPort i fun p => { p with
    st := .active, fails := 0, width := w, peerValid := true, mismatch := false, rx := (List.range w).map place
    tx := (List.range w).map fun n => p.good.getD n n, ackSeq := 0, nakHold := false, unacked := 0, txSeq := (p.replay.length + 1) % 4096
    replay := p.replay.zipIdx.map fun x => { x.1 with fseq := (x.2 + 1) % 4096, resent := 0 }, owed := []
    credits := (List.range 12).foldl (fun m k => m.put k (fullCredits (k / 2))) [] }
  let s := s.event .twlEvent 0 0
  portSend (resendAll s i) i

/-- The peer is the expected one, or none is expected (R409). -/
def peerFits (s : State) (i : Nat) (node port : Nat) : Bool :=
  s.fld .twlPCfg i 8 1 == 0 || (s.fld .twlPExpect i 0 17 == node && s.fld .twlPExpect i 17 4 == port)

/-- TWL_P_CFG or TWL_P_EXPECT has changed: a port is disabled or starts, and one that waited for its peer goes on (R407,
R409). -/
def portConfig (s : State) (i : Nat) : State :=
  let p := s.port i
  if !portEnabled s i then (if p.st = .disabled then s else enterDisabled s i)
  else if p.st = .disabled then enterDetect s i
  else if p.st = .param ∧ p.mismatch then
    match p.peer with
    | some (n, k, r) => if r == p.rate ∧ peerFits s i n k then enterActive s i else s
    | none => s
  else s

/-- Every port after a change of its registers. -/
def portsConfig (s : State) : State := (List.range 12).foldl portConfig s

/-! ### Training (R407 to R409) -/

/-- A training state that may exceed its bound; PARAM does not while it waits for its expected peer (R409). -/
def boundedState (p : Port) : Bool := p.st == .cal || p.st == .txeq || p.st == .align || (p.st == .param && !p.mismatch)

/-- The state has exceeded its bound (R407). -/
def trainingTimeout (s : State) (i : Nat) : State :=
  let p := s.port i
  if i ≥ 12 ∨ !boundedState p then s
  else if p.fails + 1 ≥ 3 then enterDown s i
  else enterDetect (s.updPort i fun p => { p with fails := p.fails + 1 }) i

def execTrainingStateTimeout (port : Nat) (s : State) : Out := .next (trainingTimeout s port)

/-- A DOWN port starts again from DETECT (R407). -/
def downRetry (s : State) (i : Nat) : State := if i < 12 ∧ (s.port i).st = .down then enterDetect s i else s

def execDownRetry (port : Nat) (s : State) : Out := .next (downRetry s port)

/-- Signal on at least four receive lanes; a lane without signal carries nothing until the next DETECT (R407; DEDUCED, log
entry 34). -/
def signalDetected (s : State) (i : Nat) (lanes : List Nat) : State :=
  let good := (List.range 5).filter lanes.contains
  if i < 12 ∧ (s.port i).st = .detect ∧ good.length ≥ 4 then
    s.updPort i fun p => { p with st := .cal, failed := (List.range 5).filter fun l => !good.contains l }
  else s

def execSignalDetected (port : Nat) (lanes : List Nat) (s : State) : Out := .next (signalDetected s port lanes)

/-- Receiver adaptation has ended on every lane with signal; this end then sets RX_READY (DEDUCED, log entry 34). -/
def adaptationDone (s : State) (i : Nat) : State :=
  if i < 12 ∧ (s.port i).st = .cal then s.updPort i fun p => { p with st := .txeq, rxReady := true } else s

def execReceiverAdaptationDone (port : Nat) (s : State) : Out := .next (adaptationDone s port)

/-- The tap of a lane as EQ_REQ asks (R408); a preset is the tap's reset value (log entry 3). -/
def eqRequest (p : Port) (lane req : Nat) : Port :=
  let k := 4 * lane + bits req 0 2
  let v := p.taps.getD k 0
  let p := { p with eqSts := p.eqSts.store 0 lane (b2n (bits req 2 2 ≠ 0)) }
  match bits req 2 2 with
  | 1 => { p with taps := p.taps.store 0 k (v + 1) }
  | 2 => { p with taps := p.taps.store 0 k (v - 1) }
  | 3 => { p with taps := p.taps.store 0 k 0 }
  | _ => p

/-- Training state code of a port (R407). -/
def portCode : PortSt → Nat
  | .disabled => 0 | .detect => 1 | .cal => 2 | .txeq => 3 | .align => 4 | .param => 5 | .active => 6 | .down => 7 | .draining => 8

/-- The training frame that a lane of a port repeats in TXEQ, ALIGN and PARAM (R408). What this end's equalizer asks of the
peer's taps is open: a free value; EQ_STS answers the peer's latest request on the lane. -/
def frameSent (s : State) (i lane : Nat) : List Byte :=
  let p := s.port i
  let b := natLe 4 0x54575446 ++ natLe 1 lane ++ natLe 1 (portCode p.st) ++ natLe 1 (Config.freeNat s.free % 16) ++
    natLe 1 (p.eqSts.getD lane 0 + b2n p.rxReady * 2 ^ 7) ++ natLe 4 (nodeId s + i * 2 ^ 17 + b2n p.rate * 2 ^ 21) ++
    natLe 4 ((s.unit 0x0C i).vgen.toNat % 256 + p.good.length * 2 ^ 8) ++ natLe 12 0
  b ++ natLe 4 (crc32c b)

/-- The frame is whole: MARK, CRC, reserved fields (R408). -/
def frameOk (b : List Byte) : Bool :=
  decide (b.length = 32) && field b 0 4 == 0x54575446 && field b 0x1C 4 == crc32c (b.take 28) && decide (field b 4 1 < 5) &&
    decide (field b 6 1 < 16) && decide (bits (field b 7 1) 2 5 = 0) && decide (field b 8 4 < 2 ^ 22) && decide (field b 0x0C 4 < 2 ^ 11) &&
    zeroAt b 0x10 12

/-- In PARAM the peer's identity and rate are recorded and checked (R405, R409). -/
def paramFrame (s : State) (i : Nat) (b : List Byte) : State :=
  let id := field b 8 4
  let node := bits id 0 17
  let port := bits id 17 4
  let was := (s.port i).mismatch
  let s := s.updPort i fun p => { p with peer := some (node, port, bit id 21) }
  if bit id 21 != (s.port i).rate then s.event .twlEvent 0 4
  else if peerFits s i node port then enterActive s i
  else (s.updPort i fun p => { p with mismatch := true }).eventIf (!was) .twlEvent 0 4

/-- A training frame received on a physical lane. One that is not whole is discarded (DEDUCED, log entry 34). -/
def trainingFrame (s : State) (i lane : Nat) (b : List Byte) : State :=
  let p := s.port i
  if i ≥ 12 ∨ lane ≥ 5 ∨ p.failed.contains lane ∨ !frameOk b then s else
  match p.st with
  | .txeq =>
    let ready := bit (field b 7 1) 7
    s.updPort i fun p =>
      let p := eqRequest { p with peerReady := p.peerReady || ready } lane (field b 6 1)
      if p.rxReady ∧ p.peerReady then { p with st := .align } else p
  | .align =>
    s.updPort i fun p =>
      let p := { p with seen := Smap.put p.seen lane (field b 4 1) }
      if p.good.all fun l => Smap.has p.seen l then { p with st := .param } else p
  | .param => paramFrame s i b
  | _ => s

def execTrainingFrame (port lane : Nat) (bytes : List Byte) (s : State) : Out := .next (trainingFrame s port lane bytes)

/-! ### Packets out of the stream (R413, R432, R434) -/

/-- A packet as its bytes give it, with whether a reserved bit is set; the trailer is kept. -/
def readPacket (b : List Byte) : Packet × Bool :=
  let w0 := field b 0 8
  let w1 := field b 8 8
  let w2 := field b 16 8
  let w3 := field b 24 8
  let n := 16 * bits w0 53 7
  let tr := field b (32 + n) 8
  ({ typ := bits w0 0 4, vc := bits w0 4 3, dclass := bit w0 7, dst := bits w0 8 17, src := bits w0 25 17, part := bits w0 42 6
     hops := bits w0 48 5, enc := bit w0 60, last := bit w0 61, retry := bit w0 62, reqId := bits w1 0 48, mapgen := bits w1 48 16
     addr := bits w2 0 47, seq := bits w2 47 15, epoch := bits w3 0 48, index := bits w3 48 6, status := bits w3 56 8
     payload := slice b 32 n, trailer := some tr },
   bit w0 63 || decide (bits w2 62 2 ≠ 0) || decide (bits w3 54 2 ≠ 0) || decide (tr / 2 ^ 32 ≠ 0))

/-- Whole packets at the front of a stream, and what is left; a zero word where a packet would begin is the filling of a
flit's end (log entry 17). -/
def takeWhole : Nat → List Byte → List (Packet × Bool) → List (Packet × Bool) × List Byte
  | 0, b, l => (l, b)
  | n + 1, b, l =>
    if b.length < 8 then (l, if b.all (· == 0) then [] else b)
    else if bits (field b 0 8) 0 4 = 0 ∧ b.all (· == 0) then (l, [])
    else
      let size := 40 + 16 * bits (field b 0 8) 53 7
      if b.length < size then (l, b) else takeWhole n (b.drop size) (l ++ [readPacket (b.take size)])

/-- The payload keeps to the table of R433 as far as its length shows it. -/
def payloadOk (p : Packet) : Bool :=
  let n := p.payload.length
  decide (n ≤ 1024) && (match p.typ with
    | 0x1 => decide (n = 16) &&
        (let l := field p.payload 0 4; decide (32 ≤ l) && decide (l ≤ 4096) && decide (l % 32 = 0) && zeroAt p.payload 4 12)
    | 0x3 => decide (32 ≤ n) && decide (n % 32 = 0)
    | 0x4 => n == 0
    | 0x5 => decide (240 ≤ n) && decide (bits p.addr 0 4 ≤ 8)
    | 0x7 => decide (16 ≤ n)
    | 0xC | 0xD => n == 32
    | _ => true)

/-- A packet breaks R434. -/
def badPacket (p : Packet) (reserved : Bool) : Bool := reserved || vcOf p.typ != some p.vc || !payloadOk p

/-- A packet for this node: its ECRC is checked and its payload decrypted, then it goes to the engine of its type (R425,
R434, R436). -/
def receivePacket (s : State) (p : Packet) : State :=
  if p.trailer.any fun w => bits w 0 32 != crc32c (p.header true ++ p.payload) then s.event .twlEvent 0 8
  else
    let clear := if p.enc ∧ !p.payload.isEmpty then slice (Config.xtsDecrypt (twillKey s p.part) p.tweak p.payload) 0 p.payload.length else p.payload
    deliver s { p with payload := clear, trailer := none, dclass := false }

/-- The buffer space of a packet that came over a port is free again, and its credits are owed back (R422). -/
def oweCredits (s : State) (i : Nat) (p : Packet) : State :=
  s.updPort i fun q => { q with owed := if p.vc < 6 then q.owed.adj (2 * p.vc + b2n p.dclass) 0 (· + p.need) else q.owed }

/-- A packet has arrived on a port: it is discarded, delivered, or kept in the port's buffer for forwarding. -/
def packetArrived (s : State) (i : Nat) (p : Packet) (reserved : Bool) : State :=
  if badPacket p reserved then (oweCredits s i p).event .twlEvent 0 9
  else if p.dst = nodeId s then receivePacket (oweCredits s i p) p
  else s.mapTwill fun t => { t with transit := t.transit ++ [(i, p)] }

/-- Stream bytes of a DATA flit. -/
def takeStream (s : State) (i pstart : Nat) (b : List Byte) : State :=
  let p := s.port i
  let b := if p.partialIn.isEmpty then (if pstart < 243 then b.drop pstart else []) else b
  let r := takeWhole (p.partialIn.length + 243) (p.partialIn ++ b) []
  r.1.foldl (fun s x => packetArrived s i x.1 x.2) (s.updPort i fun p => { p with partialIn := r.2 })

/-! ### Flits (R413 to R415, R422) -/

/-- Acknowledgement and credits of a flit; a NAK makes the transmitter resend. -/
def takeAck (s : State) (i h : Nat) : State :=
  let a := bits h 14 12
  let k := bits h 35 4
  let s := s.updPort i fun p =>
    let n := match indexOf? (fun f : Flit => f.fseq == a) p.replay with | some j => j + 1 | none => 0
    { p with replay := p.replay.drop n, credits := if k < 12 then p.credits.adj k 0 (· + bits h 39 12) else p.credits }
  if bit h 26 then resendAll s i else s

/-- The flit is the next in order: it is acknowledged at least every 32 flits, and its stream bytes are taken. -/
def takeFlit (s : State) (i h : Nat) (stream : List Byte) : State :=
  let s := s.updPort i fun p => { p with ackSeq := bits h 2 12, nakHold := false, unacked := p.unacked + 1 }
  let s := if bits h 0 2 = 0 then takeStream (s.bump .twlPRxflits i 1) i (bits h 27 8) stream
    else s.updPort i fun p => { p with lctrlIn := p.lctrlIn ++ [(field stream 0 1, bits (field stream 1 1) 0 2)] }
  let s := s.updPort i fun p => Port.sendCredits 16 p
  s.updPort i fun p => if p.unacked ≥ 32 then p.sendIdle false else p

/-- A flit received (R414). A flit whose CRC fails has no field to take (DEDUCED, log entry 35). -/
def flitReceive (s : State) (i : Nat) (b : List Byte) : State :=
  let p := s.port i
  if i ≥ 12 ∨ (p.st ≠ .active ∧ p.st ≠ .draining) then s else
  let nak (s : State) : State := if (s.port i).nakHold ∨ (s.port i).swapRx.isSome then s else s.updPort i fun p => p.sendIdle true
  if b.length ≠ 256 ∨ field b 252 4 ≠ crc32c (b.take 252) then nak s else
  let h := field b 0 9
  let s := takeAck s i h
  let s :=
    if bits h 0 2 = 1 then s
    else if bits h 0 2 < 3 ∧ bits h 2 12 = ((s.port i).ackSeq + 1) % 4096 then takeFlit s i h (slice b 9 243)
    else nak s
  portSend s i

def execFlitReceive (port : Nat) (bytes : List Byte) (s : State) : Out := .next (flitReceive s port bytes)

/-- 2 µs after a NAK, a further one may be sent, but not while a swap holds NAKs back (R414, R418). -/
def nakHoldExpiry (s : State) (i : Nat) : State :=
  s.updPort i fun p => { p with nakHold := p.nakHold && p.swapRx.isSome }

def execNakHoldExpiry (port : Nat) (s : State) : Out := .next (if port < 12 then nakHoldExpiry s port else s)

/-! ### Lane swaps (R416 to R419) -/

/-- A lane has failed and no spare is left: the port retrains with the good lanes, or is DOWN (R419). -/
def retrainFewer (s : State) (i : Nat) : State :=
  if (s.port i).fits = 0 then enterDown s i else enterCal (s.updPort i fun p => p.sendLctrl 3 0) i

/-- A receive lane is declared failing (R417 to R419). -/
def laneFailing (s : State) (i lane : Nat) : State :=
  let p := s.port i
  if i ≥ 12 ∨ lane ≥ 5 ∨ (p.st ≠ .active ∧ p.st ≠ .draining) ∨ p.failed.contains lane then s else
  match indexOf? (· == lane) p.rx with
  | none => s.updPort i fun p => { p with failed := addSet p.failed lane }
  | some n =>
    let s := s.updPort i fun p => { p with failed := addSet p.failed lane }
    if (freeLane (s.port i) p.rx).isNone ∨ p.swapRx.isSome then retrainFewer s i
    else s.updPort i fun p => { (p.sendLctrl 1 n) with swapRx := some n, nakHold := true }

def execLaneFailing (port lane : Nat) (s : State) : Out := .next (laneFailing s port lane)

/-- The first link control message of a code is taken. -/
def takeLctrl (s : State) (i code : Nat) : State := s.updPort i fun p => { p with lctrlIn := dropFirst (fun x => x.1 == code) p.lctrlIn }

/-- The peer asks for a lane to be mirrored: no new DATA, and the spare carries the lane too (R418). -/
def swapReq (s : State) (i lane : Nat) : State :=
  let s := takeLctrl s i 1
  let p := s.port i
  if (p.st = .active ∨ p.st = .draining) ∧ lane < p.tx.length ∧ (freeLane p p.tx).isSome then s.updPort i fun p => { p with mirror := some lane } else s

def execSwapReq (port lane : Nat) (s : State) : Out := .next (if port < 12 then swapReq s port lane else s)

/-- A swap of one direction is complete. -/
def swapEnded (s : State) (i : Nat) : State :=
  ((s.bump .twlPSwaps i 1).event .twlEvent 0 2).eventIf (s.port i).spare.isNone .twlEvent 0 3

/-- Four mirrored groups have decoded: the receiver moves the lane to the spare and sends a NAK and SWAP_DONE (R418). -/
def mirroredDecoded (s : State) (i : Nat) : State :=
  let p := s.port i
  match p.swapRx, freeLane p p.rx with
  | some n, some l =>
    let s := s.updPort i fun p => { p with rx := p.rx.set n l, swapRx := none }
    swapEnded (s.updPort i fun p => (p.sendIdle true).sendLctrl 2 n) i
  | _, _ => s

def execMirroredGroupsDecoded (port : Nat) (s : State) : Out := .next (if port < 12 then mirroredDecoded s port else s)

/-- SWAP_DONE: the transmitter's new lane map is in force, and it resends (R418). -/
def swapDone (s : State) (i : Nat) : State :=
  let s := takeLctrl s i 2
  let p := s.port i
  match p.mirror, freeLane p p.tx with
  | some n, some l =>
    let s := s.updPort i fun p => { p with tx := p.tx.set n l, failed := addSet p.failed (p.tx.getD n 0), mirror := none }
    portSend (resendAll (swapEnded s i) i) i
  | _, _ => s

def execSwapDone (port : Nat) (s : State) : Out := .next (if port < 12 then swapDone s port else s)

/-- The peer asks an ACTIVE port to retrain (R410). -/
def retrainReq (s : State) (i : Nat) : State :=
  let s := takeLctrl s i 3
  if (s.port i).st = .active then enterCal s i else s

def execRetrainReq (port : Nat) (s : State) : Out := .next (if port < 12 then retrainReq s port else s)

/-! ### Port commands and the end of their work (R407, R410, R417, R430, R431) -/

/-- RETRAIN: an ACTIVE port, or one that waits for its expected peer, retrains from CAL. -/
def portRetrain (s : State) (i : Nat) : State :=
  let p := s.port i
  if p.st = .active then enterCal (s.updPort i fun p => p.sendLctrl 3 0) i
  else if p.st = .param ∧ p.mismatch then enterCal s i else s

/-- RETARGET: DRAINING; the router selects the port for no new packet. -/
def portRetarget (s : State) (i : Nat) : State :=
  if (s.port i).st = .disabled then s else s.updPort i fun p => { p with st := .draining, mismatch := false }

/-- DISABLE, until ENABLE is next written as 1. -/
def portDisable (s : State) (i : Nat) : State := enterDisabled (s.updPort i fun p => { p with cmdOff := true }) i

/-- The drain of a retargeted port ends; flits not acknowledged belong to the peer it leaves (R431). -/
def retargetEnd (s : State) (i : Nat) : State :=
  if i < 12 ∧ (s.port i).st = .draining then enterDetect (reroute s i) i else s

def execRetargetDrainEnd (port : Nat) (s : State) : Out := .next (retargetEnd s port)

/-- No flit with a correct CRC for 20 µs (R430). -/
def portDown (s : State) (i : Nat) : State :=
  if i < 12 ∧ ((s.port i).st = .active ∨ (s.port i).st = .draining) then enterDown s i else s

def execPortDown (port : Nat) (s : State) : Out := .next (portDown s port)

/-! ### Forwarding (R425 to R427) -/

/-- A packet for another node leaves this one: HOPS falls first, and a packet with none left is dropped as one without a
route (R425, R427). -/
def forwardPkt (s : State) (p : Packet) : State :=
  let from_ := (s.twill.transit.find? fun x => x.2 == p).map (·.1)
  let s := s.mapTwill fun t => { t with transit := dropFirst (fun x : Nat × Packet => x.2 == p) t.transit }
  let s := match from_ with
    | some i => (oweCredits s i p).updPort i fun q => Port.sendCredits 16 q
    | none => s
  if badPacket p false then s.event .twlEvent 0 9
  else if p.dst = nodeId s then receivePacket s p
  else if p.hops = 0 then
    let s := (s.event .twlEvent 0 7).event .twlEvent 0 6
    if p.typ = 0xD then s else routePkt s (undeliveredOf s p) none
  else routePkt s { p with hops := p.hops - 1 } from_

def execPacketForward (pkt : Packet) (s : State) : Out := .next (forwardPkt s pkt)

end Sys2Proof.Machine
end

