-- ==== Sys2Proof/Machine/Served.lean ====
section
/-! DEFINITION. What a server reads of a holder's structures to answer a SCORE or an EXPAND, and the answer: the lines of the
holder's memory that are in hand decide it, or name what is still to be read (15_composition_ownership R452 to R454;
05_index_layout R126, R129, R134, R142, R147, R149, R150; 06_search_walk R169, R172). -/
namespace Sys2Proof.Machine
open Sys2Proof

/-! ### Reading the holder's memory -/

/-- A value read from the holder's memory, or the span that has to be read first: address and length. -/
abbrev Remote (α : Type) := Except (Nat × Nat) α

/-- Bytes of the holder's memory from the lines in hand; where one is missing, a span of `ask` bytes from it on is wanted. -/
def remBytes (m : Smap (List Byte)) (a n ask : Nat) : Remote (List Byte) :=
  let k := ceilDiv (a % 64 + n) 64
  match (List.range k).find? fun i => !m.has (a / 64 + i) with
  | some i => .error (64 * (a / 64 + i), max ask (64 * (k - i)))
  | none => .ok (slice ((List.range k).flatMap fun i => m.getD (a / 64 + i) []) (a % 64) n)

/-- A little-endian number in the holder's memory. -/
def remNat (m : Smap (List Byte)) (a n : Nat) : Remote Nat := (remBytes m a n 64).map leNat

/-- Local address of a byte of a stack window. -/
def winLocal (w off : Nat) : Nat := 0x020000000000 + w * 0x40000000 + off

/-! ### The overlay (R149, R150) -/

/-- Offset in units of the newest version of a slot, from the directory entries at `base`; the count bounds the search. -/
def remDir (m : Smap (List Byte)) (base u : Nat) : Nat → Nat → Remote (Option Nat)
  | 0, _ => .ok none
  | n + 1, i => do
    let e := leNat (← remBytes m (base + 8 * i) 8 4096)
    if e % 2 ^ 32 = u then .ok (some (e / 2 ^ 32)) else remDir m base u n (i + 1)

/-- Body of the newest version of a kind, from the version at an address on, that epoch `f` reads; the count bounds the chain. -/
def remChain (m : Smap (List Byte)) (kind f len : Nat) : Nat → Nat → Remote (Option (List Byte))
  | 0, _ => .ok none
  | n + 1, a => do
    if a = 0 then .ok none else
    let h ← remBytes m a 32 64
    if field h 4 1 = kind ∧ field h 6 6 ≤ f then (remBytes m (a + 32) len 64).map some else remChain m kind f len n (field h 0x10 8)

/-- What a slot's version of a kind, or else its primary copy at `primary`, holds in epoch `f`. -/
def remVersion (m : Smap (List Byte)) (desc : List Byte) (u kind f len primary : Nat) : Remote (List Byte) := do
  let ovl := field desc 0x48 8
  let size := field desc 0x50 4
  let mark ← remNat m (field desc 0x40 8 + u / 8) 1
  let body ← if !bit mark (u % 8) then .ok none else do
    match ← remDir m ovl u (size * 2 ^ 14) 0 with
    | none => .ok none
    | some off => remChain m kind f len (size * 2 ^ 15) (ovl + 32 * off)
  match body with
  | some b => .ok b
  | none => remBytes m primary len 64

/-- Adjacency record of a slot as epoch `f` reads it, whole. -/
def remAdj (m : Smap (List Byte)) (desc : List Byte) (f u : Nat) : Remote (List Byte) :=
  let n := 4 * field desc 1 1
  remVersion m desc u 1 f n (field desc 0x28 8 + n * u)

/-- Attribute word of a slot in epoch `f`. -/
def remAttr (m : Smap (List Byte)) (desc : List Byte) (f u : Nat) : Remote Nat :=
  (remVersion m desc u 2 f 8 (field desc 0x30 8 + 8 * u)).map leNat

/-! ### One slot scored (R111 to R113, R135, R169) -/

/-- Epoch record of an epoch in a descriptor: head and tail (R129). -/
def descEpoch (desc : List Byte) (f : Nat) : Option (Nat × Nat) :=
  ((List.range 16).find? fun i => field desc (0x200 + 32 * i) 6 == f && f != 0).map fun i =>
    (field desc (0x208 + 32 * i) 8, field desc (0x210 + 32 * i) 8)

/-- Sketch key of a slot, with the parameters of the numeric record's first bytes. -/
def remKey (m : Smap (List Byte)) (desc numrec sketch : List Byte) (u : Nat) : Remote Nat := do
  let w ← remNat m (field desc 0x58 8 + 2 * (u / 2048 / 7943)) 2
  let code ← remBytes m (winLocal w (codeOff u)) 64 64
  let n ← if nrMetric numrec = 3 then do
      let v ← remNat m (field desc 0x60 8 + 2 * (u / 2 ^ 29)) 2
      remNat m (winLocal v (2 * (u % 2 ^ 29))) 2
    else .ok 0
  .ok (sketchKey (sketchDelta numrec sketch (lichenA code sketch) n))

/-- Entry of a SCORE_RSP: key, global item ID, outcome (R433; an entry that is not scored holds no key: log entry 19). -/
def scoreEntry (key gid outcome : Nat) : List Byte := natLe 4 key ++ natLe 8 gid ++ natLe 4 outcome

/-- A slot classified and scored from the holder's structures. -/
def remScore (m : Smap (List Byte)) (desc numrec sketch : List Byte) (filter : List Nat) (f : Nat) (ht : Nat × Nat) (u : Nat) :
    Remote (List Byte) := do
  if u ≥ field desc 4 4 then .ok (scoreEntry 0 0 0) else
  let r ← remNat m (field desc 0x18 8 + 16 * u) 16
  let t ← remNat m (field desc 0x38 8 + u / 8) 1
  match recState r (bit t (u % 8)) f ht.1 ht.2 with
  | .absent => .ok (scoreEntry 0 0 0)
  | .fresh => .ok (scoreEntry 0 (srGid r) 1)
  | .ghost => (remKey m desc numrec sketch u).map fun k => scoreEntry k (srGid r) 2
  | .graph => do
    let k ← remKey m desc numrec sketch u
    let w ← remAttr m desc f u
    let schema := (List.range 8).map fun i => field desc (0x80 + 2 * i) 2
    .ok (scoreEntry k (srGid r) (if filter.all (termHolds schema w) then 3 else 2))

/-! ### The answer -/

/-- What a server does next with a request: spans to read, or the answer. -/
inductive ServeNext where
  | reads (l : List (Nat × Nat))
  | expired
  | mismatch
  | data (b : List Byte)
  deriving DecidableEq, Repr

/-- Slots that a SCORE or EXPAND asks about; null slot IDs fill its last 16 bytes (log entry 33). -/
def askedSlots (p : Packet) : List Nat :=
  let b := if p.typ = 0x5 then p.payload.drop 224 else p.payload
  ((List.range (b.length / 4)).map fun i => field b (4 * i) 4).filter fun u => u != nullSlot

/-- The parts of an answer in order, or everything that they still need. -/
def joinParts (l : List (Remote (List Byte))) : ServeNext :=
  let need := l.filterMap fun r => match r with | .error x => some x | .ok _ => none
  if need.isEmpty then .data (l.flatMap fun r => match r with | .ok b => b | .error _ => []) else .reads need.eraseDups

/-- The answer to a SCORE or EXPAND from the lines of the holder's memory in hand, with the holder's descriptor at `d`: the
epoch is looked up in the holder's table (R452), and a SCORE's REC_CRC is compared with the holder's record (R454). -/
def serveNext (m : Smap (List Byte)) (d : Nat) (p : Packet) : ServeNext :=
  match remBytes m d 1024 64 with
  | .error x => .reads [x]
  | .ok desc => match descEpoch desc p.epoch with
    | none => .expired
    | some ht =>
      if p.typ ≠ 0x5 then joinParts ((askedSlots p).map (remAdj m desc p.epoch))
      else match remBytes m (field desc 0x10 8) 64 64 with
        | .error x => .reads [x]
        | .ok nr =>
          if nrCrc nr ≠ bits p.addr 15 32 then .mismatch
          else joinParts ((askedSlots p).map (remScore m desc nr (slice p.payload 0 160)
            ((List.range (bits p.addr 0 4)).map fun i => field p.payload (160 + 8 * i) 8) p.epoch ht))

end Sys2Proof.Machine
end

