-- ==== Sys2Proof/Machine/TwillPacket.lean ====
section
/-! DEFINITION. The packets that a node serves and the answers to its own requests: READ, WRITE, SCORE, EXPAND, QUERY, LIST,
UNDELIVERED, and the timers of requests (14_twill_fabric R433 to R442; 15_composition_ownership R450 to R460, R471). -/
namespace Sys2Proof.Machine
open Sys2Proof

/-! ### Arrivals and answers -/

/-- A packet leaves the inbox, where it stands in it. -/
def takePkt (s : State) (p : Packet) : State := s.mapTwill fun t => { t with inbox := dropFirst (· == p) t.inbox }

/-- A decrypted payload keeps to the table of R433: a SCORE's unused filter terms are zero. -/
def clearOk (p : Packet) : Bool :=
  p.typ != 0x5 || zeroAt p.payload (160 + 8 * bits p.addr 0 4) (64 - 8 * bits p.addr 0 4)

/-- A meaning of a packet row: it acts on a whole packet of its type for this node, and discards a malformed one (R434). -/
def onPacket (s : State) (typ : Nat) (p : Packet) (f : State → State) : State :=
  if p.typ ≠ typ ∨ p.dst ≠ nodeId s ∨ !s.img.applied then s
  else
    let s := takePkt s p
    if badPacket p false ∨ !clearOk p then s.event .twlEvent 0 9 else f s

/-- The answer to a request, without payload. -/
def answerPkt (p : Packet) (typ status : Nat) : Packet :=
  { mkPkt typ p.src p.part with reqId := p.reqId, mapgen := p.mapgen, epoch := p.epoch, index := p.index, status := status, enc := false }

/-- An answer without data sent. -/
def answer (s : State) (p : Packet) (typ status arg : Nat) : State := sendMsg s [{ answerPkt p typ status with addr := arg }]

/-- An answer with data sent. -/
def answerData (s : State) (p : Packet) (typ status : Nat) (b : List Byte) : State :=
  sendMsg s (splitPkts { answerPkt p typ status with enc := true } b)

/-- Key of a requester and its REQ_ID. -/
def reqKey (node reqId : Nat) : Nat := node * 2 ^ 48 + reqId

/-- The partition takes requests on this node (R435). -/
def partServes (s : State) (p : Nat) : Bool := partState s p == .active || partState s p == .draining

/-- A request refused by a fence: no data, and the violation is recorded (R333, R435, R476). -/
def refuse (s : State) (p : Packet) (typ : Nat) : State :=
  answer ((fenceRefusal s p.part 5 p.src).event .memEvent 0 2) p typ stPartition 0

/-! ### READ and WRITE (R433, R435, R439) -/

/-- The span lies in memory that the partition owns. -/
def spanOwned (s : State) (part a n : Nat) : Bool :=
  placeOwner s (localPlace s a) == some part && placeOwner s (localPlace s (a + n - 1)) == some part

/-- A READ served. -/
def readRequest (s : State) (p : Packet) : State :=
  let n := field p.payload 0 4
  if !partServes s p.part ∨ !spanOwned s p.part p.addr n then refuse s p 2
  else if !retained s p.part p.epoch then answer s p 2 stEpochExpired 0
  else
    let t := (localPlace s p.addr).tier
    if zeroRate s p.part t then answer (s.event .memEvent 0 5) p 2 stQuota 0
    else
      answerData (spanTouch (charge s p.part t n) p.part p.addr n false).drawn p 2 stOk (placeRead s (localPlace s p.addr) n)

def execReadRequest (pkt : Packet) (s : State) : Out := .next (onPacket s 0x1 pkt fun s => readRequest s pkt)

/-- A WRITE applied once for its requester and REQ_ID, and acknowledged (R439). -/
def writeRequest (s : State) (p : Packet) : State :=
  let k := reqKey p.src p.reqId
  let n := p.payload.length
  if s.twill.writes.contains k then answer s p 4 stOk 0
  else if !partServes s p.part ∨ !spanOwned s p.part p.addr n then refuse s p 4
  else if !retained s p.part p.epoch then answer s p 4 stEpochExpired 0
  else
    let t := (localPlace s p.addr).tier
    if zeroRate s p.part t then answer (s.event .memEvent 0 5) p 4 stQuota 0
    else
      let s := placeWrite (spanTouch (charge s p.part t n) p.part p.addr n true) (localPlace s p.addr) p.payload
      let s := match localPlace s p.addr with
        | .t3 a => match structAt s a with
          | some (sh, 7, _) => versionArrived s sh ((a - sh.t3.getD 7 0) / 32) p.payload
          | _ => s
        | _ => s
      answer (s.mapTwill fun t => { t with writes := addSet t.writes k }) p 4 stOk 0

def execWriteRequest (pkt : Packet) (s : State) : Out := .next (onPacket s 0x3 pkt fun s => writeRequest s pkt)

/-- The record of an applied WRITE is discarded (R439). -/
def writeExpiry (s : State) (node reqId : Nat) : State := s.mapTwill fun t => { t with writes := delSet t.writes (reqKey node reqId) }

def execWriteRecordExpiry (node reqId : Nat) (s : State) : Out := .next (writeExpiry s node reqId)

/-! ### SCORE and EXPAND under map generations and tokens (R448, R455 to R459) -/

/-- Generation `g` is newer than `c` (R448). -/
def newerGen (g c : Nat) : Bool :=
  let d := (g + 2 ^ 16 - c % 2 ^ 16) % 2 ^ 16
  decide (1 ≤ d) && decide (d ≤ 32767)

/-- Response type of a request type. -/
def answerType (p : Packet) : Nat := p.typ + 1

/-- Server of a segment in a generation. -/
def genServer (g : MapGen) (holder seg : Nat) : Option Nat :=
  (g.entries.find? fun e => segHolder e == holder && segNum e == seg).map segOwner

/-- The node that a NOT_OWNER response names: another node, or none (R459). -/
def ownerHint (s : State) (c : Comp) (mapgen holder seg : Nat) (e : LedgerEnt) : Option Nat :=
  let me := nodeId s
  let other (o : Option Nat) : Option Nat := o.filter fun n => n != me
  let peer := if [Token.confirmed, Token.accepted, Token.claiming, Token.none].contains e.st then e.peer else none
  if peer.isSome then other peer
  else
    let g := (genNamed c mapgen).bind fun g => genServer g holder seg
    if (other g).isSome then g
    else other (if genMapgen c.now = mapgen then c.prev.bind fun g => genServer g holder seg else none)

/-- A request answered NOT_OWNER, or OWNERSHIP_UNRESOLVED where no other node can be named (R459). -/
def notOwner (s : State) (c : Comp) (p : Packet) (seg : Nat) (e : LedgerEnt) : State :=
  match ownerHint s c p.mapgen p.src seg e with
  | none => answer s p (answerType p) stUnresolved 0
  | some n => answerData s p (answerType p) stNotOwner (natLe 16 (n + e.tgen * 2 ^ 17))

/-- A request being served. -/
def isServe (p : Packet) (v : Serve) : Bool := v.pkt.src == p.src && v.pkt.reqId == p.reqId

/-- A READ of a span of the holder's memory, in the epoch of the request that needs it (R433, R453). -/
def holderRead (p : Packet) (x : Nat × Nat) : Packet :=
  { mkPkt 0x1 p.src p.part with epoch := p.epoch, index := p.index, addr := x.1, payload := natLe 4 x.2 ++ List.replicate 12 0 }

/-- A served request goes on: it is answered, or the holder's memory is read further, as TF (R452 to R454). The address of the
holder's descriptor is open (log entry 19). -/
def serveGo (s : State) (v : Serve) : State :=
  let p := v.pkt
  match serveNext v.lines (Config.descriptorAddr p.src p.part p.index) p with
  | .expired => answer s p (answerType p) stEpochExpired 0
  | .mismatch => raiseEvent ((answer s p 6 stInvalid 0).event .ownEvent 0 11) 8 (natLe 4 p.src ++ natLe 4 p.part ++ natLe 4 p.index)
  | .data b => answerData s p (answerType p) stOk b
  | .reads l =>
    if zeroRate s p.part tTF then answer (s.event .memEvent 0 5) p (answerType p) stQuota 0
    else
      let r := l.foldl (fun a x => let y := sendRequest a.1 .read [holderRead p x] 0 0 false []; (y.1, a.2 ++ [(y.2, x.1)])) (s, [])
      r.1.mapTwill fun t => { t with serves := t.serves ++ [{ v with wait := r.2 }] }

/-- A SCORE or EXPAND served; a repeated one is served once. -/
def serveRemote (s : State) (p : Packet) : State :=
  if s.twill.serves.any (isServe p) then s else serveGo s { pkt := p, wait := [], lines := [] }

/-- Lines of the holder's memory that a READ brought. -/
def addLines (m : Smap (List Byte)) (a : Nat) (b : List Byte) : Smap (List Byte) :=
  (List.range (b.length / 64)).foldl (fun m i => Smap.put m (a / 64 + i) (slice b (64 * i) 64)) m

/-- The data of a READ reaches the request that needs it; with the last one the request goes on. -/
def serveData (s : State) (r : Nat) (b : List Byte) : State :=
  match s.twill.serves.find? fun v => v.wait.any fun w => w.1 == r with
  | none => s
  | some v =>
    let a := ((v.wait.find? fun w => w.1 == r).map (·.2)).getD 0
    let w := { v with wait := v.wait.filter fun x => x.1 != r, lines := addLines v.lines a b }
    if w.wait.isEmpty then serveGo (s.mapTwill fun t => { t with serves := dropFirst (· == v) t.serves }) w
    else s.mapTwill fun t => { t with serves := t.serves.map fun x => if x = v then w else x }

/-- A READ of the holder's memory ended with a status: the request is answered with it, and its other reads are forgotten
(log entry 137). -/
def serveFails (s : State) (r st : Nat) : State :=
  match s.twill.serves.find? fun v => v.wait.any fun w => w.1 == r with
  | none => s
  | some v =>
    let s := s.mapTwill fun t => { t with
      serves := dropFirst (· == v) t.serves, out := t.out.filter fun e => !v.wait.any fun w => w.1 == e.1 }
    answer s v.pkt (answerType v.pkt) st 0

/-- A request kept under R456; a repeated one is kept once. -/
def holdRequest (s : State) (p : Packet) (forGen : Bool) : State :=
  s.mapOwn fun o => { o with held := (o.held.filter fun h => !(h.pkt.src == p.src && h.pkt.reqId == p.reqId)) ++ [{ pkt := p, forGen := forGen }] }

/-- STALE_MAP (R456). -/
def answerStale (s : State) (p : Packet) : State := (answer s p (answerType p) stStaleMap 0).event .ownEvent 0 7

/-- What a node does with a SCORE or EXPAND (R456). -/
def ownedRequest (s : State) (p : Packet) : State :=
  if !partServes s p.part then refuse s p (answerType p)
  else match compOf s p.part p.index, (askedSlots p).head? with
    | some (k, c), some u =>
      let cur := genMapgen c.now
      let seg := u / 2 ^ 24
      if newerGen p.mapgen cur then holdRequest s p true
      else if p.mapgen = cur ∨ (c.draining ∧ c.prev.any fun g => genMapgen g == p.mapgen) then
        let e := s.token (ledgerKey k seg p.src)
        match e.st with
        | .held => if e.ceasing.isSome then holdRequest s p false else serveRemote s p
        | .offered => if e.ceasing.isSome then holdRequest s p false else serveRemote s p
        | .accepted => holdRequest s p false
        | .claiming => holdRequest s p false
        | .none => notOwner s c p seg e
        | .confirmed => notOwner s c p seg e
      else answerStale s p
    | none, _ => answer s p (answerType p) stUnresolved 0
    | _, none => s.event .twlEvent 0 9

def execScoreRequest (pkt : Packet) (s : State) : Out := .next (onPacket s 0x5 pkt fun s => ownedRequest s pkt)
def execExpandRequest (pkt : Packet) (s : State) : Out := .next (onPacket s 0x7 pkt fun s => ownedRequest s pkt)

/-- Requests that a node holds are looked at again: those held for the token of a segment once its state changes, those held
for a generation once it is in force (R456). -/
def releaseHeld (s : State) : State :=
  let l := s.own.held
  let waits (h : Held) : Bool := match compOf s h.pkt.part h.pkt.index, (askedSlots h.pkt).head? with
    | some (k, c), some u =>
      if newerGen h.pkt.mapgen (genMapgen c.now) then h.forGen
      else let e := s.token (ledgerKey k (u / 2 ^ 24) h.pkt.src); e.st == .accepted || e.st == .claiming || e.ceasing.isSome
    | _, _ => false
  let go := l.filter fun h => !waits h
  go.foldl (fun s h => ownedRequest s h.pkt) (s.mapOwn fun o => { o with held := l.filter waits })

/-! ### The status of OWN_CMD -/

/-- RESULT codes of OWN_CMD_STATUS. -/
def ownDone : Nat := 0
def ownWaiting : Nat := 1
def ownRange : Nat := 2
def ownState : Nat := 3

/-- OWN_CMD_STATUS written. -/
def ownStatus (s : State) (result target : Nat) : State :=
  s.mapOwn fun o => { o with cmdStatus := b2n (result == ownWaiting) + result * 2 + target % 2 ^ 16 * 16 }

/-- A CTRL message to a node. -/
def sendCtrl (s : State) (dst part msg comp segWord tgen arg : Nat) : State :=
  sendMsg s [{ mkPkt 0xC dst part with
    payload := natLe 1 msg ++ natLe 1 comp ++ natLe 2 0 ++ natLe 4 segWord ++ natLe 4 tgen ++ natLe 4 0 ++ natLe 8 arg ++ natLe 8 0 }]

/-- A token message about a segment, by its ledger key. -/
def sendToken (s : State) (key dst msg tgen arg : Nat) : State :=
  match s.own.comps.get (key / 2 ^ 25) with
  | none => s
  | some c => if dst = noNode then s else sendCtrl s dst (genPart c.now) msg (key / 2 ^ 25) (bits key 0 25) tgen arg

/-! ### A node ceases to serve (R463, R468, R470) -/

/-- Requests for a segment are in service: the holder's memory is being read for them. -/
def inService (s : State) (key : Nat) : Bool :=
  s.twill.serves.any fun v => match compOf s v.pkt.part v.pkt.index, (askedSlots v.pkt).head? with
    | some (k, _), some u => ledgerKey k (u / 2 ^ 24) v.pkt.src == key
    | _, _ => false

/-- With no request in service any more, what was to follow happens. -/
def ceased (s : State) (key : Nat) (c : Ceasing) : State :=
  let e := s.token key
  let node := c.node.getD noNode
  match c.kind with
  | .confirm => sendToken (s.setToken key { e with st := .confirmed, tgen := c.gen, ceasing := none }) key node 3 c.gen 0
  | .revoke => sendToken (s.setToken key { LedgerEnt.initial with st := .none, tgen := c.gen, peer := c.node }) key node 7 c.gen 0
  | .tset t => ownStatus (s.setToken key { e with st := .confirmed, tgen := c.gen, peer := c.node, ceasing := none }) ownDone t

/-- A node ceases to serve a segment: at once where no request is in service, else once those are complete. -/
def cease (s : State) (key : Nat) (c : Ceasing) : State :=
  if inService s key then s.setToken key { s.token key with ceasing := some c } else ceased s key c

/-- Requests in service may have ended: the nodes that waited for them go on, and requests they held are looked at again. -/
def ceaseCheck (s : State) : State :=
  let go := s.own.ledger.filterMap fun e => (e.2.ceasing.filter fun _ => !inService s e.1).map fun c => (e.1, c)
  if go.isEmpty then s else releaseHeld (go.foldl (fun s x => ceased s x.1 x.2) s)

/-! ### Requests that end without an answer (R438, R442, R471) -/

/-- A request is no longer outstanding. -/
def dropReq (s : State) (r : Nat) : State := s.mapTwill fun t => { t with out := t.out.del r }

/-- A status for a query, when it does not already have one that ranks before it (R549). -/
def Query.note (q : Query) (st : Nat) : Query := { q with status := if q.status = 0 then st else status549 [q.status, st] 1 1 }

/-- A SCORE or EXPAND of a query has ended with a status other than OK; its slots count as ABSENT in this round. -/
def walkFailed (s : State) (r : Nat) (o : OutReq) (st : Nat) : State :=
  (dropReq s r).updQuery o.query fun q => { (q.note st) with remote := delSet q.remote r }

/-- Segment that a request's slots lie in. -/
def OutReq.seg (o : OutReq) : Nat := o.slots.headD 0 / 2 ^ 24
/-- Node that a request went to. -/
def OutReq.dst (o : OutReq) : Nat := (o.pkts.head?.map (·.dst)).getD noNode

/-- A request ends in NODE_UNREACHABLE: it is counted, the query that sent it goes on without the node, and the node is
marked (R438, R471). -/
def unreachable (s : State) (r : Nat) : State :=
  match s.twill.out.get r with
  | none => s
  | some o =>
    let s := (s.bump .twlTimeouts 0 1).event .twlEvent 0 10
    let s := if s.own.unreachable.contains o.dst then s else faultRecord s 0x0B 0 0 0 (o.pkts.take 1 |>.map (·.part)) []
    let s := match o.kind with
      | .score => (walkFailed s r o stUnreachable).updQuery o.query fun q => { q with deadSegs := addSet q.deadSegs o.seg }
      | .expand => (walkFailed s r o stUnreachable).updQuery o.query fun q => { q with deadSegs := addSet q.deadSegs o.seg }
      | .query => mergeList (dropReq s r) o.query o.dst stUnreachable [] false
      | .read => serveFails (dropReq s r) r stUnreachable
      | .write => dropReq s r
    (s.mapOwn fun w => { w with unreachable := addSet w.unreachable o.dst }).event .ownEvent 0 8

/-- A request is sent a second time with RETRY, routed afresh (R438). -/
def resend (s : State) (r : Nat) : State :=
  match s.twill.out.get r with
  | none => s
  | some o =>
    if o.resent then s
    else sendMsg (s.mapTwill fun t => { t with out := t.out.put r { o with resent := true } }) (o.pkts.map fun p => { p with retry := true })

def execRequestResendTimer (reqId : Nat) (s : State) : Out := .next (resend s reqId)
def execRequestTimeout (reqId : Nat) (s : State) : Out := .next (ceaseCheck (unreachable s reqId))

/-- An UNDELIVERED that names a request of this node: the first sending is sent again, the second ends it (R438). -/
def undelivered (s : State) (p : Packet) : State :=
  let w := field p.payload 0 8
  match s.twill.out.get p.reqId with
  | none => s
  | some _ =>
    if isResponse (bits w 0 4) ∨ bits w 25 17 ≠ nodeId s then s
    else if p.retry ∨ bit w 62 then unreachable s p.reqId else resend s p.reqId

def execUndelivered (pkt : Packet) (s : State) : Out := .next (onPacket s 0xD pkt fun s => ceaseCheck (undelivered s pkt))

/-- The mark of an unreachable node ends (R471). -/
def unreachableExpiry (s : State) (node : Nat) : State := s.mapOwn fun o => { o with unreachable := delSet o.unreachable node }

def execUnreachableExpiry (node : Nat) (s : State) : Out := .next (unreachableExpiry s node)

/-! ### Responses to READ, WRITE, SCORE and EXPAND (R437, R440, R460, R472) -/

/-- The timers of a request start again. -/
def restartTimers (s : State) (r : Nat) : State := s.mapTwill fun t => { t with out := t.out.upd r fun o => { o with resent := false } }

/-- A packet of a response is placed by its SEQ; the payload once every packet is in hand. -/
def gather (s : State) (r : Nat) (o : OutReq) (p : Packet) : State × Option (List Byte) :=
  let got := Smap.put o.got p.seq p
  let s := s.mapTwill fun t => { t with out := t.out.put r { o with got := got } }
  match got.getLast? with
  | some (n, l) =>
    if l.last ∧ (List.range n).all (fun i => Smap.has got i) then (s, some (got.flatMap fun x => x.2.payload)) else (restartTimers s r, none)
  | none => (s, none)

/-- An outstanding request of a kind, for a response. -/
def outOf (s : State) (p : Packet) (k : ReqKind) : Option OutReq := (s.twill.out.get p.reqId).filter fun o => o.kind == k

/-- A response to a READ of a holder's memory. -/
def readRsp (s : State) (p : Packet) : State :=
  match outOf s p .read with
  | none => s
  | some o =>
    if p.status ≠ stOk then serveFails (dropReq s p.reqId) p.reqId p.status
    else match gather (twillCharge s p) p.reqId o p with
      | (s, none) => s
      | (s, some b) => serveData (dropReq s p.reqId) p.reqId b

/-- The data of a READ that this node sent has come (R433, R437). -/
def execReadRsp (pkt : Packet) (s : State) : Out := .next (onPacket s 0x2 pkt fun s => ceaseCheck (readRsp s pkt))

/-- A WRITE that this node sent is acknowledged (R433). -/
def execWriteAck (pkt : Packet) (s : State) : Out :=
  .next (onPacket s 0x4 pkt fun s => if (outOf s pkt .write).isSome then dropReq s pkt.reqId else s)

/-- An event that a segment is unresolved, with the requests completed so since the last (R636; its layout is log entry 36). -/
def sendUnresolved (s : State) (k : Nat) : State :=
  let e := s.token k
  let code := match e.st with | .none => 0 | .held => 1 | .offered => 2 | .accepted => 3 | .confirmed => 4 | .claiming => 5
  let s' := raiseEvent s 1 (natLe 4 (k / 2 ^ 25) ++ natLe 4 (bits k 0 25) ++ natLe 4 (nodeId s) ++ natLe 4 code ++ natLe 4 e.tgen ++
    natLe 4 (e.peer.getD noNode) ++ natLe 4 (s.own.unresolved.getD k 0))
  s'.mapOwn fun o => { o with unresolved := o.unresolved.put k 0 }

/-- Ownership of a segment is unresolved: the event bit, and the management event (R460, R464, R636). -/
def markUnresolved (s : State) (k : Nat) : State := sendUnresolved (s.event .ownEvent 0 4) k

/-- A request is sent again to a node under a generation, with a new REQ_ID, in place of the one answered (R460). -/
def sendAgain (s : State) (r : Nat) (o : OutReq) (dst mapgen forwards : Nat) (stale : Bool) : State :=
  let l := o.pkts.map fun p => { p with dst := dst, mapgen := mapgen }
  let x := sendRequest (dropReq s r) o.kind l o.query forwards stale o.slots
  x.1.updQuery o.query fun q => { q with remote := delSet q.remote r ++ [x.2] }

/-- NOT_OWNER: a forward to the node named, at most two of them (R460). -/
def notOwnerForward (s : State) (r : Nat) (o : OutReq) (p : Packet) : State :=
  if o.forwards < 2 then sendAgain s r o (bits (field p.payload 0 8) 0 17) p.mapgen (o.forwards + 1) o.staleOnce
  else
    let s := (walkFailed s r o stUnresolved).bump .ownUnresolved 0 1
    match compOf s p.part p.index with
    | none => s.event .ownEvent 0 4
    | some (k, _) =>
      let key := ledgerKey k o.seg (nodeId s)
      markUnresolved (s.mapOwn fun w => { w with unresolved := w.unresolved.put key (w.unresolved.getD key 0 + 1) }) key

/-- STALE_MAP: once more under the generation in force, which the query carries from then on (R460). -/
def staleMap (s : State) (r : Nat) (o : OutReq) (p : Packet) : State :=
  match compOf s p.part p.index with
  | none => walkFailed s r o stStaleMap
  | some (_, c) =>
    if o.staleOnce then walkFailed s r o stStaleMap
    else
      let g := genMapgen c.now
      sendAgain (s.updQuery o.query fun q => { q with mapgen := g }) r o
        (serverOf s p.part p.index g (o.slots.headD 0)) g o.forwards true

/-- A response to a SCORE or EXPAND: a held response restarts the timers, a status acts by R460, and data goes to the walk
that sent the request. -/
def walkRsp (s : State) (k : ReqKind) (p : Packet) (f : State → OutReq → List Byte → State) : State :=
  match outOf s p k with
  | none => s
  | some o =>
    if p.status = stOk ∧ p.payload.isEmpty ∧ bit p.addr 0 then restartTimers s p.reqId
    else if p.status = stNotOwner then notOwnerForward s p.reqId o p
    else if p.status = stStaleMap then staleMap s p.reqId o p
    else if p.status = stUnresolved then
      ((walkFailed s p.reqId o stUnresolved).bump .ownUnresolved 0 1)
    else if p.status ≠ stOk then walkFailed s p.reqId o p.status
    else match gather (twillCharge s p) p.reqId o p with
      | (s, none) => s
      | (s, some b) => f ((dropReq s p.reqId).updQuery o.query fun q => { q with remote := delSet q.remote p.reqId }) o b

/-- Outcomes, keys and IDs of the slots asked about (R433). -/
def scoreData (s : State) (o : OutReq) (b : List Byte) : State :=
  let l := o.slots.zipIdx.map fun x => (x.1, bits (field b (16 * x.2 + 12) 4) 0 3, field b (16 * x.2) 4, field b (16 * x.2 + 4) 8)
  s.updQuery o.query fun q => { q with answers := q.answers ++ l }

def execScoreRsp (pkt : Packet) (s : State) : Out := .next (onPacket s 0x6 pkt fun s => walkRsp s .score pkt scoreData)

/-- Adjacency records of the slots asked about: their used entries join the frontier of the round (R168, R172). -/
def expandData (s : State) (o : OutReq) (b : List Byte) : State :=
  let us := ((List.range (b.length / 4)).map fun i => field b (4 * i) 4).filter fun u => u != nullSlot
  match s.host.queries.get o.query with
  | none => s
  | some q =>
    let new := (us.foldl addSet []).filter fun u => !q.frontier.contains u
    let s := s.updQuery o.query fun q => { q with frontier := q.frontier ++ new }
    queryTwill s o.query q fun s => sendScores s o.query (new.filter fun u => !wasVisited q.visited u)

def execExpandRsp (pkt : Packet) (s : State) : Out := .next (onPacket s 0x8 pkt fun s => walkRsp s .expand pkt expandData)

/-! ### QUERY and LIST (R441, R442, R450, R451, R454) -/

/-- A QUERY answered with a status and no entries. -/
def refuseQuery (s : State) (p : Packet) (st : Nat) : State := sendList s (reqKey p.src p.reqId) p.part p.index p.epoch st [] false

/-- A whole QUERY message begins on this node, in the local epoch bound to its stamp; one for an epoch not bound yet is held. -/
def startQuery (s : State) (l : List Packet) : State :=
  match l with
  | [] => s
  | p :: _ =>
    let b := l.flatMap fun x => x.payload
    let key := reqKey p.src p.reqId
    if s.twill.serving.has key then s
    else if !partServes s p.part then refuseQuery ((fenceRefusal s p.part 5 p.src).event .memEvent 0 2) p stPartition
    else match shardOf s p.part p.index, compOf s p.part p.index with
      | some sh, some (_, c) =>
        if nrCrc sh.desc.numrec ≠ bits p.addr 15 32 then
          raiseEvent ((refuseQuery s p stInvalid).event .ownEvent 0 11) 8 (natLe 4 p.src ++ natLe 4 p.part ++ natLe 4 p.index)
        else match boundEpoch c p.epoch with
          | none =>
            if p.epoch > c.bound then s.mapTwill fun t => { t with queryWait := t.queryWait ++ [l] }
            else refuseQuery s p stEpochExpired
          | some e =>
            let sweep := bits p.addr 0 8 == 3
            let pb := slice b 0 128
            let d := nrDim sh.desc.numrec
            let prm := searchParams (epochReg s .plnPcfg p.part e).toNat pb
            if !retained s p.part e ∨ e < sh.firstServing then refuseQuery s p stEpochExpired
            else if !serving sh ∨ b.length < 288 + 4 * d ∨ !paramsOk pb prm sweep (some sh) then refuseQuery s p stInvalid
            else if sh.lost then refuseQuery s p stFaultedNone
            else
              let h := histOf sh e
              let sw := sweep || planSweep sh.desc.schema h prm (bits (epochReg s .plnPcfg p.part e).toNat 0 5)
              let n := s.host.nextQuery
              let s := (addQuery s (newQuery .served key sh e p.mapgen prm sw)).bump (if sw then .plnSweeps else .plnWalks) p.part 1
              queryReady (s.mapTwill fun t => { t with serving := t.serving.put key n }) n (wordsAt b 288 d) (slice b 128 160)
      | _, _ => refuseQuery s p stInvalid

/-- A packet of a QUERY: the message begins once all of its packets are in hand. -/
def queryPacket (s : State) (p : Packet) : State :=
  let key := reqKey p.src p.reqId
  let got := Smap.put (s.twill.asm.getD key []) p.seq p
  match got.getLast? with
  | some (n, l) =>
    if l.last ∧ (List.range n).all (fun i => Smap.has got i) then
      startQuery (s.mapTwill fun t => { t with asm := t.asm.del key }) (got.map (·.2))
    else s.mapTwill fun t => { t with asm := t.asm.put key got }
  | none => s

def execQueryMessage (pkt : Packet) (s : State) : Out := .next (onPacket s 0x9 pkt fun s => queryPacket s pkt)

/-- A progress LIST packet of a QUERY that runs here (R442). -/
def listProgress (s : State) (node reqId : Nat) : State :=
  match s.twill.serving.get (reqKey node reqId) with
  | none => s
  | some n => match s.host.queries.get n with
    | none => s
    | some q => sendMsg s [{ mkPkt 0xA node q.part with
        reqId := reqId, epoch := q.epoch, index := q.index, addr := 2 ^ 18, last := false, enc := false }]

def execListProgressTimer (node reqId : Nat) (s : State) : Out := .next (listProgress s node reqId)

/-- A node list entry (R243); the list holds no slots (R230). -/
def listEntry (b : List Byte) (i : Nat) : LEnt :=
  { key := field b (16 * i + 8) 4, slot := 0, gid := field b (16 * i) 8, fresh := bit (field b (16 * i + 12) 4) 0
    suspect := bit (field b (16 * i + 12) 4) 1, a := 0 }

/-- A LIST packet reaches the merge of the query that asked for it (R239, R442). -/
def listPacket (s : State) (p : Packet) : State :=
  match outOf s p .query with
  | none => s
  | some o =>
    if bit p.addr 18 then restartTimers s p.reqId
    else match gather (twillCharge s p) p.reqId o p with
      | (s, none) => s
      | (s, some b) =>
        let l := (List.range (min (bits p.addr 0 17) (b.length / 16))).map (listEntry b)
        mergeList (dropReq s p.reqId) o.query p.src p.status (l.takeWhile fun e => e.key != 0xFFFFFFFF) (bit p.addr 17)

def execListMessage (pkt : Packet) (s : State) : Out := .next (onPacket s 0xA pkt fun s => listPacket s pkt)

/-! ### Held requests (R456, R457) -/

/-- A held request of a node. -/
def heldOf (s : State) (node reqId : Nat) : Option Held := s.own.held.find? fun h => h.pkt.src == node && h.pkt.reqId == reqId

/-- A held response (R457). -/
def heldResponse (s : State) (node reqId : Nat) : State :=
  match heldOf s node reqId with
  | none => s
  | some h => answer s h.pkt (answerType h.pkt) stOk 1

def execHeldResponseTimer (node reqId : Nat) (s : State) : Out := .next (heldResponse s node reqId)

/-- DRAIN µs of a hold for a newer generation have passed (R456). -/
def holdExpiry (s : State) (node reqId : Nat) : State :=
  match heldOf s node reqId with
  | none => s
  | some h =>
    if !h.forGen then s
    else answerStale (s.mapOwn fun o => { o with held := o.held.filter fun x => !(x.pkt.src == node && x.pkt.reqId == reqId) }) h.pkt

def execHoldDrainExpiry (node reqId : Nat) (s : State) : Out := .next (holdExpiry s node reqId)

end Sys2Proof.Machine
end

