-- ==== Sys2Proof/Machine/Ownership.lean ====
section
/-! DEFINITION. Composition maps, composition epochs, ownership tokens and their messages (15_composition_ownership R444 to
R472). -/
namespace Sys2Proof.Machine
open Sys2Proof

/-! ### The composition map (R444 to R449) -/

/-- The staged generation of a composition: six record words and its segment table entries. -/
def stagedGen (s : State) (k : Nat) : MapGen :=
  let w (i : Nat) : Nat := (s.own.stageRec.getD (8 * k + i) 0).toNat
  let seg (n : Nat) : Nat := (s.own.stageSeg.getD (2 * n) 0).toNat + (s.own.stageSeg.getD (2 * n + 1) 0).toNat * 2 ^ 32
  let first := bits (w 2) 0 16
  let n := if bit (w 0) 28 then min (bits (w 3) 0 17) (65536 - first) else 0
  { words := (List.range 6).map w, entries := (List.range n).map fun i => seg (first + i) }

/-- VALID. -/
def genValid (g : MapGen) : Bool := compField g 0 28 1 == 1
/-- FIRST. -/
def genFirst (g : MapGen) : Nat := compField g 2 0 16
/-- NSEG. -/
def genNseg (g : MapGen) : Nat := compField g 3 0 17

/-- Nodes that a generation's entries name, and its anchor (R444). -/
def genMembers (g : MapGen) : List Nat := (genAnchor g :: g.entries.flatMap fun e => [segHolder e, segOwner e]).foldl addSet []

/-- The segment set: holder and segment number of each entry. -/
def genSet (g : MapGen) : List Nat := g.entries.map fun e => bits e 0 25

/-- Two generations name the same segments. -/
def sameSet (a b : MapGen) : Bool := (genSet a).all (genSet b).contains && (genSet b).all (genSet a).contains

/-- A number occurs twice. -/
def hasDup : List Nat → Bool
  | [] => false
  | x :: t => t.contains x || hasDup t

/-- What R447 finds in a staged generation: a field, an overlap, a repeated segment, an anchor that is no member. -/
def genFieldsOk (s : State) (k : Nat) (g : MapGen) : Bool :=
  let w (i : Nat) : Nat := g.words.getD i 0
  decide (bits (w 0) 29 3 = 0) && decide (bits (w 1) 17 15 = 0) && decide (bits (w 2) 16 16 = 0) && decide (bits (w 3) 17 15 = 0) &&
    decide (bits (w 5) 16 16 = 0) &&
    (!genValid g ||
      (partState s (genPart g) == .active && decide (1 ≤ genNseg g) && decide (genFirst g + genNseg g ≤ 65536) &&
        genAnchor g != noNode && g.entries.all (fun e => decide (e / 2 ^ 42 = 0) && segHolder e != noNode && segOwner e != noNode) &&
        !(s.own.comps.any fun c => c.1 != k && genValid c.2.now && decide (genFirst c.2.now < genFirst g + genNseg g) &&
          decide (genFirst g < genFirst c.2.now + genNseg c.2.now)) &&
        !hasDup (genSet g) && g.entries.any fun e => segHolder e == genAnchor g || segOwner e == genAnchor g))

/-- What R447 finds against the generation in force: its MAPGEN, and the epoch from which a changed set applies. -/
def genStateOk (c : Option Comp) (g : MapGen) : Bool :=
  match c with
  | none => !genValid g || decide (2 ≤ genFrom g)
  | some c =>
    newerGen (genMapgen g) (genMapgen c.now) && decide (genFrom c.now ≤ c.bound) &&
      (!genValid g || (if sameSet g c.now then genFrom g == 0 else decide (c.bound + 2 ≤ genFrom g)))

/-- Ledger keys of a composition's segments in force. -/
def compKeys (s : State) (k : Nat) : List Nat :=
  ((s.own.comps.get k).map fun c => c.now.entries.map fun e => ledgerKey k (segNum e) (segHolder e)).getD []

/-- MAP_APPLY: the staged composition comes into force, or is refused with nothing changed (R447, R448, R458). -/
def mapApply (s : State) (k : Nat) : State :=
  let g := stagedGen s k
  let c := s.own.comps.get k
  if k ≥ 256 ∨ !genFieldsOk s k g then ownStatus (s.event .ownEvent 0 1) ownRange k
  else if !genStateOk c g then ownStatus (s.event .ownEvent 0 1) ownState k
  else
    let n : Comp := match c with
      | none => { now := g, prev := none, draining := false, bound := 0, binding := [] }
      | some c => { c with now := g, prev := some c.now, draining := true }
    let s := s.mapOwn fun o => { o with comps := o.comps.put k n, unreachable := [] }
    releaseHeld (ownStatus (s.event .ownEvent 0 0) ownDone k)

/-! ### Composition epochs (R450, R451) -/

/-- Composition epochs up to `a` are bound to the node's current epoch. -/
def bindTo (s : State) (k a : Nat) : State :=
  s.mapOwn fun o => { o with comps := o.comps.upd k fun c =>
    if a ≤ c.bound then c else { c with binding := c.binding.put (c.bound + 1) s.epoch.cur, bound := a } }

/-- QUERY messages that wait for their stamp are looked at again. -/
def releaseQueries (s : State) : State :=
  let l := s.twill.queryWait
  l.foldl startQuery (s.mapTwill fun t => { t with queryWait := [] })

/-- A composition with VALID set. -/
def liveComp (s : State) (k : Nat) : Option Comp := (s.own.comps.get k).filter fun c => genValid c.now

/-- No ANNOUNCE has come in time: the next composition epoch is bound without one (R450). -/
def anchorSilent (s : State) (k : Nat) : State :=
  match liveComp s k with
  | none => s
  | some c =>
    if genAnchor c.now = nodeId s then s
    else releaseQueries ((bindTo s k (c.bound + 1)).event .ownEvent 0 9)

def execAnchorSilent (comp : Nat) (s : State) : Out := .next (anchorSilent s comp)

/-- Bindings whose local epoch is no longer in use are discarded. -/
def pruneBindings (s : State) : State :=
  s.mapOwn fun o => { o with comps := o.comps.map fun e => (e.1, { e.2 with
    binding := e.2.binding.map fun b => (b.1, if inUse s (genPart e.2.now) b.2 then b.2 else 0) }) }

/-! ### Token messages (R462) -/

/-- The composition agent is the hardware's (R463, R470). -/
def hwAgent (s : State) : Bool := !devMode s 0

/-- A token message as a node reads it: ledger key, generation, ARG; none where a field breaks R462. -/
def readToken (p : Packet) : Option (Nat × Nat × Nat) :=
  let b := p.payload
  if zeroAt b 2 2 ∧ field b 4 4 < 2 ^ 25 ∧ zeroAt b 0x0C 4 ∧ zeroAt b 0x18 8 then
    some (2 ^ 25 * field b 1 1 + bits (field b 4 4) 17 8 * 2 ^ 17 + bits (field b 4 4) 0 17, field b 8 4, field b 0x10 8)
  else none

/-- A meaning of a token message row: a CTRL packet with that message, under the hardware agent (R470). -/
def onToken (s : State) (msg : Nat) (p : Packet) (f : State → Nat → LedgerEnt → Nat → Nat → State) : State :=
  if field p.payload 0 1 ≠ msg then s
  else onPacket s 0xC p fun s => match readToken p with
    | none => s.event .twlEvent 0 9
    | some (key, g, arg) => if hwAgent s ∧ (s.own.comps.get (key / 2 ^ 25)).isSome then f s key (s.token key) g arg else s

/-! ### Handover (R463 to R466) -/

/-- The greatest token generation that a handover or claim may reach (R465). -/
def maxTgen : Nat := 0xFFFFFFFD

/-- A node in HELD offers the segment that the generation in force assigns elsewhere, once the drain has ended (R463). -/
def offer (s : State) (key : Nat) : State :=
  let e := s.token key
  match s.own.comps.get (key / 2 ^ 25) with
  | none => s
  | some c =>
    match genServer c.now (bits key 0 17) (bits key 17 8) with
    | none => s
    | some y =>
      if !hwAgent s ∨ c.draining ∨ e.st ≠ .held ∨ y = nodeId s ∨ e.tgen + 1 > maxTgen then s
      else sendToken (s.setToken key { e with st := .offered, peer := some y, again := false }) key y 1 (e.tgen + 1) 0

/-- A segment's token has come to HELD: requests that waited are served, and the segment is offered on where the map says so. -/
def enterHeld (s : State) (key tgen : Nat) (peer : Option Nat) : State :=
  offer (releaseHeld (s.setToken key { s.token key with st := .held, tgen := tgen, peer := peer, before := none, waitAck := [], again := false, ceasing := none })) key

/-- OFFER: accepted above the node's own generation; a repeated one is accepted again. -/
def onOffer (s : State) (x key : Nat) (e : LedgerEnt) (g : Nat) : State :=
  if g > e.tgen ∧ g ≤ maxTgen ∧ (e.st = .none ∨ e.st = .accepted) then
    sendToken (s.setToken key { e with st := .accepted, tgen := g, peer := some x }) key x 2 g 0
  else if g = e.tgen ∧ e.peer = some x ∧ (e.st = .accepted ∨ e.st = .held) then sendToken s key x 2 g 0
  else s

def execOffer (pkt : Packet) (s : State) : Out := .next (onToken s 1 pkt fun s k e g _ => onOffer s pkt.src k e g)

/-- ACCEPT: the giver completes its requests in service, starts no new one, and confirms; in HELD it withdraws (R463, R465). -/
def onAccept (s : State) (y key : Nat) (e : LedgerEnt) (g : Nat) : State :=
  if e.st = .offered ∧ e.peer = some y ∧ g = e.tgen + 1 then
    cease s key { kind := .confirm, node := some y, gen := g }
  else if e.st = .held ∧ e.tgen ≤ g then sendToken s key y 5 g 0
  else if e.st = .confirmed ∧ e.peer = some y ∧ g = e.tgen then sendToken s key y 3 g 0
  else s

def execAccept (pkt : Packet) (s : State) : Out := .next (onToken s 2 pkt fun s k e g _ => onAccept s pkt.src k e g)

/-- CONFIRM: the receiver serves; a late one is taken in NONE too (R463, R466). -/
def onConfirm (s : State) (x key : Nat) (e : LedgerEnt) (g : Nat) : State :=
  if e.peer = some x ∧ g = e.tgen ∧ (e.st = .accepted ∨ e.st = .none) then
    enterHeld (sendToken s key x 4 g 0) key g (some x)
  else if e.peer = some x ∧ g = e.tgen ∧ (e.st = .held ∨ e.st = .offered) then sendToken s key x 4 g 0
  else s

def execConfirm (pkt : Packet) (s : State) : Out := .next (onToken s 3 pkt fun s k e g _ => onConfirm s pkt.src k e g)

/-- TAKEN: the handover is complete (R463). -/
def onTaken (s : State) (y key : Nat) (e : LedgerEnt) (g : Nat) : State :=
  if e.st = .confirmed ∧ e.peer = some y ∧ g = e.tgen then (s.setToken key { e with st := .none }).event .ownEvent 0 2 else s

def execTaken (pkt : Packet) (s : State) : Out := .next (onToken s 4 pkt fun s k e g _ => onTaken s pkt.src k e g)

/-- WITHDRAW: an ACCEPTED node moves to NONE, and what it held is answered (R456, R465). -/
def onWithdraw (s : State) (x key : Nat) (e : LedgerEnt) (g : Nat) : State :=
  if e.st = .accepted ∧ e.peer = some x ∧ g = e.tgen then releaseHeld (s.setToken key { e with st := .none }) else s

def execWithdraw (pkt : Packet) (s : State) : Out := .next (onToken s 5 pkt fun s k e g _ => onWithdraw s pkt.src k e g)

/-! ### Forced claims (R468, R469) -/

/-- REVOKE: the peer completes its requests in service and gives way below the claim's generation, and refuses otherwise
(R468). -/
def onRevoke (s : State) (x key : Nat) (e : LedgerEnt) (g : Nat) : State :=
  if e.tgen < g then
    releaseHeld (cease s key { kind := .revoke, node := some x, gen := g })
  else sendToken s key x 7 e.tgen 1

def execRevoke (pkt : Packet) (s : State) : Out := .next (onToken s 6 pkt fun s k e g _ => onRevoke s pkt.src k e g)

/-- A CLAIMING node returns to what it was. -/
def unclaim (s : State) (key : Nat) (e : LedgerEnt) : State :=
  let b := e.before.getD (.none, e.tgen, e.peer)
  releaseHeld (s.setToken key { e with st := b.1, tgen := b.2.1, peer := b.2.2, before := none, waitAck := [] })

/-- The claim is complete. -/
def claimDone (s : State) (key : Nat) (e : LedgerEnt) : State :=
  (enterHeld (s.mapOwn fun o => { o with cmdStatus := o.cmdStatus / 16 * 16 }) key e.tgen e.peer).event .ownEvent 0 5

/-- REVOKE_ACK: the claim ends once every peer has acknowledged, or fails at a refusal (R468). -/
def onRevokeAck (s : State) (x key : Nat) (e : LedgerEnt) (g arg : Nat) : State :=
  if e.st ≠ .claiming ∨ !e.waitAck.contains x ∨ g < e.tgen then s
  else if bit arg 0 then
    (unclaim (s.mapOwn fun o => { o with cmdStatus := o.cmdStatus / 16 * 16 + 2 * ownState }) key e).event .ownEvent 0 6
  else
    let e := { e with waitAck := delSet e.waitAck x }
    let s := s.setToken key e
    if e.waitAck.isEmpty then claimDone s key e else s

def execRevokeAck (pkt : Packet) (s : State) : Out := .next (onToken s 7 pkt fun s k e g a => onRevokeAck s pkt.src k e g a)

/-- ANNOUNCE: composition epochs up to its value are bound (R450). -/
def onAnnounce (s : State) (p : Packet) : State :=
  match readToken p with
  | none => s.event .twlEvent 0 9
  | some (key, _, arg) => match liveComp s (key / 2 ^ 25) with
    | none => s
    | some c => if genAnchor c.now ≠ p.src then s else releaseQueries (bindTo s (key / 2 ^ 25) (bits arg 0 48))

def execAnnounce (pkt : Packet) (s : State) : Out :=
  .next (if field pkt.payload 0 1 ≠ 8 then s else onPacket s 0xC pkt fun s => onAnnounce s pkt)

/-- At each boundary of the anchor, the composition epoch rises and is announced to every other member (R450). -/
def anchorBoundary (s : State) : State :=
  s.own.comps.foldl (fun s e =>
    if genValid e.2.now ∧ genAnchor e.2.now = nodeId s then
      let a := e.2.bound + 1
      ((genMembers e.2.now).filter (· != nodeId s)).foldl (fun s n => sendCtrl s n (genPart e.2.now) 8 e.1 0 0 a) (bindTo s e.1 a)
    else s) s

/-! ### OWN_CMD (R447, R468 to R470) -/

/-- Segment of a segment table entry in force, by its ledger key. -/
def segKey (s : State) (n : Nat) : Option Nat :=
  s.own.comps.findSome? fun e =>
    if genValid e.2.now ∧ genFirst e.2.now ≤ n then (e.2.now.entries[n - genFirst e.2.now]?).map fun v => ledgerKey e.1 (segNum v) (segHolder v)
    else none

/-- CLAIM: generation and up to two peers in OWN_ARG0 to OWN_ARG2. -/
def claim (s : State) (target : Nat) : State :=
  let g := (s.reg .ownArg0 0).toNat
  let a1 := (s.reg .ownArg1 0).toNat
  let a2 := (s.reg .ownArg2 0).toNat
  let named := ([a1, a2].filter fun a => bit a 17).map fun a => (bits a 0 17, bit a 18)
  match segKey s target with
  | none => ownStatus s ownRange target
  | some key =>
    let e := s.token key
    if g > maxTgen ∨ a1 ≥ 2 ^ 19 ∨ a2 ≥ 2 ^ 19 ∨ named.any (fun x => x.1 == noNode || x.1 == nodeId s) then ownStatus s ownRange target
    else if g ≤ e.tgen ∨ e.st = .claiming then ownStatus s ownState target
    else
      let peer := match named with | x :: _ => some x.1 | [] => e.peer
      let wait := if hwAgent s then ((named.filter fun x => !x.2).map (·.1)).foldl addSet [] else []
      let e := { e with st := Token.claiming, tgen := g, peer := peer, before := some (e.st, e.tgen, e.peer), waitAck := wait, ceasing := none }
      let s := s.setToken key e
      if wait.isEmpty then claimDone (ownStatus s ownDone target) key e
      else wait.foldl (fun s n => sendToken s key n 6 g 0) (ownStatus s ownWaiting target)

/-- ABORT: a CLAIMING node returns to its previous state (R468). -/
def ownAbort (s : State) (target : Nat) : State :=
  match segKey s target with
  | none => ownStatus s ownRange target
  | some key =>
    let e := s.token key
    if e.st = .claiming then unclaim (ownStatus s ownDone target) key e else ownStatus s ownState target

/-- A token state by its code (R461). -/
def tokenOf (n : Nat) : Option Token :=
  match n with
  | 0 => some .none | 1 => some .held | 2 => some .offered | 3 => some .accepted | 4 => some .confirmed | 5 => some .claiming
  | _ => none

/-- Transitions that TSET accepts: those of R463 and R464, at their generations (R470). -/
def tsetOk (e : LedgerEnt) (st : Token) (g : Nat) : Bool :=
  match e.st, st with
  | .held, .offered => g == e.tgen
  | .none, .accepted => decide (g > e.tgen)
  | .offered, .confirmed => g == e.tgen + 1
  | .accepted, .held => g == e.tgen
  | .confirmed, .none => g == e.tgen
  | .offered, .held => g == e.tgen
  | .accepted, .none => g == e.tgen
  | _, _ => false

/-- TSET: host software sets a ledger state in host-assisted composition agent mode (R470). -/
def tset (s : State) (target : Nat) : State :=
  let g := (s.reg .ownArg0 0).toNat
  let a := (s.reg .ownArg1 0).toNat
  match segKey s target, tokenOf (bits a 17 3) with
  | some key, some st =>
    let e := s.token key
    let peer := if bits a 0 17 = noNode then none else some (bits a 0 17)
    if a ≥ 2 ^ 20 ∨ g > maxTgen then ownStatus s ownRange target
    else if !tsetOk e st g then ownStatus (s.event .ownEvent 0 10) ownState target
    else
      if st = .confirmed then
        let s := cease s key { kind := .tset target, node := peer, gen := g }
        if (s.token key).ceasing.isSome then s.mapOwn fun o => { o with cmdStatus := 1 + target % 2 ^ 16 * 16 } else releaseHeld s
      else
      let s := ownStatus (s.setToken key { e with st := st, tgen := g, peer := peer, ceasing := none }) ownDone target
      releaseHeld (s.eventIf (e.st == .confirmed) .ownEvent 0 2)
  | _, _ => ownStatus s ownRange target

/-! ### Timers of tokens (R458, R463, R464, R470) -/

/-- The drain timer of the previous generation ends: the segments that the map assigns elsewhere are offered. -/
def drainExpiry (s : State) (k : Nat) : State :=
  match s.own.comps.get k with
  | none => s
  | some c =>
    if !c.draining then s
    else (compKeys s k).foldl offer (s.mapOwn fun o => { o with comps := o.comps.upd k fun c => { c with draining := false } })

def execDrainTimerExpiry (comp : Nat) (s : State) : Out := .next (drainExpiry s comp)

/-- A node that waits sends its message again (R464). -/
def tokenResend (s : State) (n : Nat) : State :=
  match segKey s n with
  | none => s
  | some key =>
    let e := s.token key
    let p := e.peer.getD noNode
    if !hwAgent s then s else
    match e.st with
    | .offered => sendToken s key p 1 (e.tgen + 1) 0
    | .accepted => sendToken s key p 2 e.tgen 0
    | .confirmed => sendToken s key p 3 e.tgen 0
    | .claiming => e.waitAck.foldl (fun s n => sendToken s key n 6 e.tgen 0) s
    | .none => s
    | .held => s

def execTokenResend (seg : Nat) (s : State) : Out := .next (tokenResend s seg)

/-- HTIMEOUT has passed in a state (R464); in HELD, after an offer that timed out, the node offers again. -/
def handoverTimeout (s : State) (n : Nat) : State :=
  match segKey s n with
  | none => s
  | some key =>
    let e := s.token key
    match e.st with
    | .offered =>
      let s := if hwAgent s then sendToken s key (e.peer.getD noNode) 5 (e.tgen + 1) 0 else s
      (s.setToken key { e with st := .held, again := true, ceasing := none }).event .ownEvent 0 3
    | .accepted => releaseHeld (markUnresolved ((s.setToken key { e with st := .none }).event .ownEvent 0 3) key)
    | .confirmed => markUnresolved s key
    | .held => if e.again then offer s key else s
    | .claiming => s
    | .none => s

def execHandoverTimeout (seg : Nat) (s : State) : Out := .next (handoverTimeout s seg)

/-- The event of a segment that is still unresolved goes out again (R636). -/
def unresolvedRepeat (s : State) (n : Nat) : State :=
  match segKey s n with
  | none => s
  | some key => if s.own.unresolved.has key then sendUnresolved s key else s

def execUnresolvedEventRepeat (seg : Nat) (s : State) : Out := .next (unresolvedRepeat s seg)

end Sys2Proof.Machine
end

