-- ==== Sys2Proof/Machine/Security.lean ====
section
/-! DEFINITION. Key provisioning, security fuses, attestation and the re-encryption of a partition
(16_isolation_security R483 to R499; 18_command_set R575, R576; 19_faults_recovery R606). -/
namespace Sys2Proof.Machine
open Sys2Proof

/-! ### Admin commands that Usnea serves (R606) -/

/-- A command that Usnea serves waits while Usnea is not running. -/
def usneaServed (s : State) (n : Nat) (f : State → State) : State :=
  if usneaUp s then f (s.mapUsnea fun u => { u with waitCmds := delSet u.waitCmds n })
  else s.mapUsnea fun u => { u with waitCmds := addSet u.waitCmds n }

/-! ### Signed messages (R33, R484, R575) -/

/-- An operator key slot is provisioned and not revoked. -/
def slotLive (s : State) (k : Nat) : Bool := decide (k < 4) && s.sec.slots.getD k .unprovisioned == .provisioned

/-- The signature block of a 512-byte message verifies with the key of a slot. -/
def signedBy (s : State) (b : List Byte) (k : Nat) : Bool :=
  let x := slice b 0x100 48
  let y := slice b 0x130 48
  slotLive s k && s.sec.digests.get k == some (Config.sha384 (x ++ y)) && zeroAt b 0x1C0 64 &&
    Config.ecdsaVerify x y (slice b 0x160 48) (slice b 0x190 48) (Config.sha384 (b.take 0x100))

/-- DEVICE_UID as the 8 bytes that HKDF takes. -/
def uidBytes : List Byte := natLe 8 Config.deviceUid.toNat

/-- The device seed; on a part whose JTAG fuse is not blown it reads as zero (R494). -/
def seedOf (s : State) : List Byte := if s.sec.jtagOff then Config.deviceSeed else List.replicate 32 0

/-- An ASCII label. -/
def label (t : String) : List Byte := t.toList.map fun c => BitVec.ofNat 8 c.toNat

/-- 56 bytes of HKDF output for a private P-384 key of the device (R483). -/
def deviceKey (s : State) (name : String) : List Byte := Config.hkdf (seedOf s) uidBytes (label name) 56

/-- The key-encryption key that a key provisioning message carries, when it is accepted (R484). -/
def provisionedKek (s : State) (b : List Byte) : Option (List Byte) :=
  let k := field b 0x04 1
  if b.length = 512 ∧ field b 0 4 = 0x4B454B50 ∧ k < 4 ∧ signedBy s b k ∧ field b 0x08 8 = Config.deviceUid.toNat ∧
      field b 0x10 8 > s.sec.counter.getD k 0 ∧ zeroAt b 0x05 3 ∧ zeroAt b 0xA0 96 then
    let secret := Config.ecdh (deviceKey s "octeo-kex") (slice b 0x18 96)
    Config.keyUnwrap (Config.hkdf secret uidBytes (label "octeo-kek") 32) (slice b 0x78 40)
  else none

/-- KEY_PROVISION (R484, R575); with block SEC OUT it waits (R593). -/
def keyProvision (s : State) (n : Nat) (c : Cmd) : State :=
  if s.blockOut 14 then s else usneaServed s n fun s =>
    let b := inputData s c.entry
    match provisionedKek s b with
    | none => endWith s n stInvalid
    | some kek =>
      let k := field b 0x04 1
      let s := s.mapSec fun x => { x with kek := x.kek.put k kek, counter := x.counter.put k (field b 0x10 8) }
      endWith ((extendMeas s 6 (Config.sha384 b)).event .secEvent 0 5) n stOk

def execKeyProvision (cmd : Nat) (s : State) : Out := .next (onAdmitted s cmd [0xA0] fun c => keyProvision s cmd c)

/-! ### Security fuses (R496, R575) -/

/-- What every security fuse request shows. -/
def fuseForm (b : List Byte) : Bool :=
  decide (b.length = 512) && decide (field b 0 4 = 0x46555345) && decide (field b 0x08 8 = Config.deviceUid.toNat) &&
    zeroAt b 0x14 12 && zeroAt b 0x50 176

/-- An accepted request: its digest extends M6, and the event is set. -/
def fuseDone (s : State) (n : Nat) (b : List Byte) : State :=
  endWith ((extendMeas s 6 (Config.sha384 b)).event .secEvent 0 4) n stOk

/-- PROVISION of an unprovisioned slot, unsigned while no slot at all is provisioned. -/
def fuseProvision (s : State) (n : Nat) (b : List Byte) : State :=
  let k := field b 0x05 1
  let any := (List.range 4).any fun i => s.sec.slots.getD i .unprovisioned != .unprovisioned
  let ok := if any then signedBy s b (field b 0x06 1) else zeroAt b 0x100 256
  if k < 4 ∧ s.sec.slots.getD k .unprovisioned = .unprovisioned ∧ ok then
    fuseDone (s.mapSec fun x => { x with slots := x.slots.put k .provisioned, digests := x.digests.put k (slice b 0x20 48) }) n b
  else endWith s n stInvalid

/-- REVOKE of a slot, signed by another one, which therefore stays unrevoked. -/
def fuseRevoke (s : State) (n : Nat) (b : List Byte) : State :=
  let k := field b 0x05 1
  let g := field b 0x06 1
  if slotLive s k ∧ g ≠ k ∧ signedBy s b g then fuseDone (s.mapSec fun x => { x with slots := x.slots.put k .revoked }) n b
  else endWith s n stInvalid

/-- RAISE_SVN: one of the kind's 64 fuse rows takes the new minimum. -/
def fuseRaise (s : State) (n : Nat) (b : List Byte) : State :=
  let k := field b 0x07 1
  let v := field b 0x10 4
  if k = 0 ∨ k > 3 ∨ v ≤ s.sec.svn.getD k 0 ∨ !signedBy s b (field b 0x06 1) then endWith s n stInvalid
  else if s.sec.rows.getD k 0 ≥ 64 then endWith s n stQuota
  else fuseDone (s.mapSec fun x => { x with svn := x.svn.put k v, rows := x.rows.put k (x.rows.getD k 0 + 1) }) n b

/-- A security fuse command: a malformed request or a reserved OP ends it; the row of another OP leaves it alone. -/
def securityFuse (s : State) (n op : Nat) (c : Cmd) (f : State → List Byte → State) : State :=
  if s.blockOut 14 then s
  else
    let b := inputData s c.entry
    let o := field b 0x04 1
    if fuseForm b ∧ [1, 2, 3].contains o ∧ o ≠ op then s
    else usneaServed s n fun s => if fuseForm b ∧ o = op then f s b else endWith s n stInvalid

def execFuseProvision (cmd : Nat) (s : State) : Out :=
  .next (onAdmitted s cmd [0xA1] fun c => securityFuse s cmd 1 c fun s b => fuseProvision s cmd b)

def execFuseRevoke (cmd : Nat) (s : State) : Out :=
  .next (onAdmitted s cmd [0xA1] fun c => securityFuse s cmd 2 c fun s b => fuseRevoke s cmd b)

def execFuseRaiseSvn (cmd : Nat) (s : State) : Out :=
  .next (onAdmitted s cmd [0xA1] fun c => securityFuse s cmd 3 c fun s b => fuseRaise s cmd b)

/-! ### Attestation (R497 to R499, R576) -/

/-- DIGEST of the binding of a role in force. -/
def boundDigest (s : State) (p : Nat) (r : Role) : List Byte :=
  ((bindingIn s p r s.epoch.cur).map (·.digest)).getD (List.replicate 48 0)

/-- Bytes 0x000 to 0x2FF of a report. -/
def reportBody (s : State) (scope part : Nat) (nonce : List Byte) : List Byte :=
  let head := natLe 4 0x41545354 ++ natLe 2 1 ++ natLe 1 scope ++ natLe 1 (if scope = 2 then part else 0) ++ uidBytes ++ slice nonce 0 48 ++
    natLe 8 s.epoch.cur ++ natLe 8 (rtc s) ++ natLe 8 s.img.activeSeq ++ natLe 4 (s.sec.svn.getD 1 0) ++ natLe 4 (s.sec.svn.getD 2 0) ++
    natLe 4 (s.sec.svn.getD 3 0) ++ natLe 1 (slotStates s) ++ natLe 1 (b2n s.sec.jtagOff + 2 * b2n s.usnea.copyB) ++ natLe 1 2 ++
    List.replicate 25 0 ++ (List.range 8).flatMap (measOf s)
  let tail := if scope = 2 then
      natLe 1 (partCode s part) ++ natLe 1 (cfgProfile s.img.cfg part) ++ natLe 1 (cfgModes s.img.cfg part) ++ natLe 1 0 ++
        natLe 4 (((s.sec.keys.get part).map (·.gen)).getD 0) ++ natLe 8 0 ++ boundDigest s part .doc ++ boundDigest s part .query ++
        boundDigest s part .rerank
    else []
  slice (head ++ tail) 0 0x300

/-- A signed report. -/
def attestReport (s : State) (scope part : Nat) (nonce : List Byte) : List Byte :=
  let b := reportBody s scope part nonce
  b ++ slice (Config.ecdsaSign (deviceKey s "octeo-attest") (Config.sha384 b)) 0 96

/-- ATTEST: PROGRESS counts the bytes written (R540, R576). -/
def attest (s : State) (n : Nat) (c : Cmd) : State :=
  usneaServed s n fun s =>
    let b := paramBlock s c.entry
    let scope := field b 0x30 1
    if ePbLen c.entry ≠ 64 ∨ eResultLen c.entry < 864 ∨ !zeroAt b 0x31 15 ∨ (scope ≠ 1 ∧ scope ≠ 2) ∨ (scope = 1 ∧ !c.byPf) then
      endWith s n stInvalid
    else
      let r := attestReport s scope c.part (slice b 0 48)
      finish (putResult s n 0 r) n stOk r.length 0

def execAttest (cmd : Nat) (s : State) : Out := .next (onAdmitted s cmd [0xA2] fun c => attest s cmd c)

/-- CERTIFICATE: PROGRESS counts the bytes written (R540, R576). -/
def certificate (s : State) (n : Nat) (c : Cmd) : State :=
  usneaServed s n fun s =>
    if eResultLen c.entry < 8192 then endWith s n stInvalid
    else
      let r := s.usnea.certs.take 8192
      finish (putResult s n 0 r) n stOk r.length 0

def execCertificate (cmd : Nat) (s : State) : Out := .next (onAdmitted s cmd [0xA3] fun c => certificate s cmd c)

/-! ### T3 as its devices hold it (R358, R479, R480) -/

/-- The T3 tweak of a line: local address bits [46:6] in [40:0], 16 bytes little-endian. -/
def t3Tweak (a : Nat) : List Byte := natLe 16 (bits a 6 41)

/-- The T3 key of a line: partition 0's for the CXL.mem window, the device's for the rest of the reserve, and a partition's
for its allotment: during re-encryption the old one from the watermark on (R479, R487). -/
def t3KeyOf (s : State) (a : Nat) : List Byte :=
  let key (m : Smap KeySet) (p : Nat) : List Byte := ((m.get p).map (·.t3)).getD []
  if (s.mem.ddrGib - s.mem.cxlGib) * 2 ^ 30 ≤ a then key s.sec.keys 0
  else match (List.range 64).find? fun p => decide ((cfgDdr s.img.cfg p).1 * 2 ^ 30 ≤ a) && decide (a < ((cfgDdr s.img.cfg p).1 + (cfgDdr s.img.cfg p).2) * 2 ^ 30) with
    | none => Config.hkdf (seedOf s) uidBytes (label "octeo-t3") 64
    | some p => match s.sec.rekey.get p with
      | some k => if k.t3Active ∧ k.mark ≤ a then key s.sec.oldKeys p else key s.sec.keys p
      | none => key s.sec.keys p

/-- A line of T3 as it stands in the DDR devices: AES-256-XTS over the whole line, with check bytes over the ciphertext. -/
def t3Burst (s : State) (l : Nat) : List Byte × List Byte :=
  let c := slice (Config.xtsEncrypt (t3KeyOf s (64 * l)) (t3Tweak (64 * l)) (t3Line s l)) 0 64
  (c, slice (Config.ddrCheck (bit (s.ro .ddrOrg 0).toNat 2) c) 0 16)

/-- What a narrow read takes from a line's ciphertext: `n` bytes at `o` of the line, decrypted by their cipher blocks (R480). -/
def t3Open (key : List Byte) (a : Nat) (cipher : List Byte) (o n : Nat) : List Byte :=
  slice (Config.xtsDecrypt key (t3Tweak a) cipher) o n

/-! ### Flash codewords as they are programmed (R374 to R377, R379) -/

/-- The 4,096 data bytes of a logical codeword before encryption: the exact vectors of the slots that lie in it (R379), or
content that has no layout in the spec. -/
def codewordData (s : State) (l wseq : Nat) : List Byte :=
  match (s.shards.map (·.2)).find? fun sh => sh.part == laddrPart l && decide (laddrSpace l = 0) && !(slotsIn sh l).isEmpty with
  | none => slice (Config.codewordBytes l wseq) 0 4096
  | some sh =>
    let v := vectorBytes sh.desc
    let vec (x : Nat) : List Byte := slice (sh.vectors.getD x []) 0 v
    if v ≤ 4096 then
      let per := 4096 / max 1 v
      slice ((List.range per).flatMap fun i => vec ((bits l 0 40 - vbase sh) * per + i)) 0 4096
    else
      let k := ceilDiv v 4096
      slice (vec ((bits l 0 40 - vbase sh) / k)) (4096 * ((bits l 0 40 - vbase sh) % k)) 4096

/-- The T5 key of a codeword: the device's, or the partition's of the generation that its KEY_GEN names (R376, R487). -/
def t5KeyOf (s : State) (l gen : Nat) : List Byte :=
  if laddrSpace l = 2 then Config.hkdf (seedOf s) uidBytes (label "octeo-t5") 64
  else match [s.sec.keys.get (laddrPart l), s.sec.oldKeys.get (laddrPart l)].filterMap id |>.find? fun k => k.gen == gen with
    | some k => k.t5
    | none => []

/-- The data of a codeword as stored: AES-256-XTS over 4,096 bytes with LADDR as the tweak. -/
def codewordCipher (s : State) (l : Nat) (w : Codeword) : List Byte :=
  slice (Config.xtsEncrypt (t5KeyOf s l w.keyGen) (natLe 16 l) (codewordData s l w.wseq)) 0 4096

/-- The 32 bytes of codeword metadata, which are not encrypted (R375). -/
def codewordMeta (l : Nat) (w : Codeword) (stored : List Byte) : List Byte :=
  let b := natLe 8 l ++ natLe 8 w.wseq ++ natLe 4 w.keyGen ++ natLe 1 w.kind ++ natLe 3 0 ++ natLe 4 (crc32c stored)
  b ++ natLe 4 (crc32c b)

/-- A codeword as it is programmed: data, and 512 spare bytes of metadata and parity (R374). -/
def codewordImage (s : State) (l : Nat) (w : Codeword) : List Byte :=
  let d := codewordCipher s l w
  let m := codewordMeta l w d
  d ++ m ++ slice (Config.ldpcParity (d ++ m)) 0 480

/-- The data of a stripe's parity codeword: the XOR of the others as stored (R377). -/
def stripeXor (ds : List (List Byte)) : List Byte :=
  ds.foldl (fun a d => (List.range 4096).map fun i => a.getD i 0 ^^^ d.getD i 0) (List.replicate 4096 0)

/-- The spare area of a page: 512 bytes a codeword, then 0xFF (R374). -/
def pageSpare (s : State) (cws : List (List Byte)) : List Byte :=
  let b := cws.flatMap fun c => slice c 4096 512
  b ++ List.replicate (field s.felt.desc 0x1E 2 - b.length) 0xFF

/-! ### Re-encryption (R487) -/

/-- Codewords of a partition under an older key generation. -/
def oldCodewords (s : State) (p : Nat) : List Nat :=
  let gen := ((s.sec.keys.get p).map (·.gen)).getD 0
  (s.felt.map.filter fun e => laddrSpace e.1 == 0 && laddrPart e.1 == p && e.2.keyGen != gen).map (·.1)

/-- The T3 sweep writes one swatch under the new key, under the partition's T3 regulator, and the watermark passes it. -/
def rekeySwatch (s : State) (p : Nat) : State :=
  match s.sec.rekey.get p with
  | none => s
  | some k =>
    if !k.t3Active ∨ zeroRate s p tT3 then s
    else
      let s := charge (charge s p tT3 4096) p tT3 4096
      let m := k.mark + 4096
      rekeyCheck (s.mapSec fun x => { x with rekey := x.rekey.put p { k with mark := m, t3Active := decide (m < k.last) } }) p

def execRekeySwatch (part : Nat) (s : State) : Out := .next (rekeySwatch s part)

/-- Felt writes a codeword of an older generation again under the new key; with none left its sweep ends. -/
def t5Rewrite (s : State) (p l : Nat) : State :=
  match s.sec.rekey.get p with
  | none => s
  | some k =>
    if !k.t5Active ∨ !s.felt.ready ∨ zeroRate s p tT5 then s
    else
      let s := match s.felt.map.get l with
        | none => s
        | some w =>
          if (oldCodewords s p).contains l then
            let s := charge (charge s p tT5 4096) p tT5 4096
            let b := freeBlock s false
            writeCodeword b.2 l w.kind (((s.sec.keys.get p).map (·.gen)).getD 0) b.1
          else s
      if (oldCodewords s p).isEmpty then
        rekeyCheck (s.mapSec fun x => { x with rekey := x.rekey.put p { k with t5Active := false } }) p
      else s

def execT5RekeyRewrite (part laddr : Nat) (s : State) : Out := .next (t5Rewrite s part laddr)

end Sys2Proof.Machine
end

