-- ==== Sys2Proof/Machine/Strobes.lean ====
section
/-! DEFINITION. Strobes of shadow copies, and the reload of copies that an upset changed (03_register_conventions R71 to R83;
14_twill_fabric R428, R429; 19_faults_recovery R584, R593; 23_register_map R688, R689). -/
namespace Sys2Proof.Machine
open Sys2Proof

/-! ### Registers by key (R44, R688) -/

/-- The register of a key of the register file. -/
def regOfKey (k : Nat) : Option Reg := regAll.find? fun r => r.ctorIdx == k / 262144

/-- Unit to which an instance of a register belongs; none for a register of the whole block. -/
def regUnit (r : Reg) (u : Nat) : Option Nat :=
  if r.row.sub.isNone ∨ r = .twlRtWord ∨ r = .pwrAdedanRow then none
  else if [Reg.memPGuar, .memPCeil, .memPDepth, .memPRate, .memPUnits, .memPWait, .fltDThist, .twlPLerr].contains r then some (u / 8)
  else some u

/-- Strobe group of an instance of a shadowed register. -/
def regGroup (s : State) (r : Reg) (u : Nat) : Nat :=
  cfgGroup s.img.cfg r.row.block (if [3, 4, 7, 12, 16].contains r.row.block then regUnit r u else none)

/-- Key of a unit's registers among the units fenced by register parity. -/
def fencedKey (r : Reg) (u : Nat) : Nat := r.row.block * 65536 + (regUnit r u).getD 0

/-- The instance lies in a block or unit fenced by register parity, so that no strobe reaches it (R83, R593). -/
def regFenced (s : State) (r : Reg) (u : Nat) : Bool :=
  s.blockOut r.row.block || ((regUnit r u).isSome && s.regs.fencedUnits.contains (fencedKey r u))

/-- Clock domains that run an instance (R638): those of its unit, those of every unit that uses a block-wide register, or the
one control domain of the block. -/
def regDomains (r : Reg) (u : Nat) : List Nat :=
  let run (lo n : Nat) : List Nat := (List.range n).map (lo + ·)
  match r.row.block with
  | 0 => [233]
  | 1 => [221]
  | 2 => [222]
  | 3 => [219]
  | 4 => run 0 64
  | 5 => run 102 6
  | 6 => run 80 16 ++ [180]
  | 7 => [220]
  | 10 => run 108 16
  | 11 => run 124 32
  | 12 => if (regUnit r u).isSome then [156 + 2 * (regUnit r u).getD 0, 157 + 2 * (regUnit r u).getD 0] else [180]
  | 13 => [180]
  | 15 => [233]
  | 16 => if (regUnit r u).isSome then [u] else [233]
  | _ => []

/-- Every unit's domain has a copy of its own of a register of these blocks, so that a domain that misses a strobe lags behind
alone (R78); a register of the other blocks has one copy in force. -/
def ownCopies (r : Reg) : Bool := [4, 5, 6, 10, 11].contains r.row.block

/-- Of the keys that a strobe names, those whose one copy lies in a domain that missed it. -/
def strobeMissed (missed : List Nat) (k : Nat) : Bool :=
  ((regOfKey k).map fun r => !ownCopies r && (regDomains r (k % 262144)).any missed.contains).getD false

/-- Domains that missed a strobe keep the copies that they had of the registers it names. -/
def lagBehind (missed : List Nat) (old : List (Nat × Option RegCopy)) (s : State) : State :=
  s.mapRegs fun x => { x with
    lagging := old.foldl (fun m e => match regOfKey e.1 with
      | some r =>
        if ownCopies r then
          ((regDomains r (e.1 % 262144)).filter missed.contains).foldl (fun m d =>
            if m.has (2 ^ 40 * d + e.1) then m else Smap.put m (2 ^ 40 * d + e.1) (e.2.getD (regCopy (regReset r (e.1 % 262144))))) m
        else m
      | none => m) x.lagging }

/-- Domains that take an epoch strobe, or whose registers are loaded again, run the copies in force (R78). -/
def catchUp (p : Nat → Bool) (s : State) : State :=
  s.mapRegs fun x => { x with lagging := x.lagging.filter fun e => !p (e.1 / 2 ^ 40) }

/-! ### The route table (R428, R429) -/

/-- The key is a word of the route table. -/
def isRoute (k : Nat) : Bool := k / 262144 == Reg.twlRtWord.ctorIdx

/-- The route table that the words of a strobe would leave: its entries that are not empty. -/
def routesWith (s : State) (l : Smap RegCopy) : List (Nat × Nat × Nat) :=
  let word (k : Nat) : Nat := ((l.get k).map fun c => c.val.toNat).getD (((s.regs.force.get k).map fun c => c.val.toNat).getD 0)
  let odd (m : Smap RegCopy) : List Nat := (m.filter fun e => isRoute e.1 && e.1 % 2 == 1).map (·.1)
  (((odd s.regs.force ++ odd l).foldl addSet []).map fun k => routeOf (word (k - 1) + word k * 2 ^ 32)).filter fun r => r.2.2 != 0

/-- A route table keeps to R45. -/
def routesOk (s : State) (rs : List (Nat × Nat × Nat)) : Bool :=
  rs.all (fun r => decide (r.1 ≤ r.2.1) && !(decide (r.1 ≤ nodeId s) && decide (nodeId s ≤ r.2.1))) &&
    (spanClash (rs.zipIdx.map fun x => (x.2, x.1.1, x.1.2.1 + 1))).isNone

/-! ### Strobes (R71 to R79) -/

/-- Shadow copies that pass a test. -/
def shadowsDue (s : State) (p : Reg → Nat → Bool) : Smap RegCopy :=
  s.regs.shadow.filter fun e => ((regOfKey e.1).map fun r => p r (e.1 % 262144)).getD false

/-- A shadow copy becomes the copy in force; the shadow equals it until it is written again. -/
def takeCopy (s : State) (k : Nat) (c : RegCopy) : State :=
  s.mapRegs fun x => { x with
    force := x.force.put k c, shadow := if x.shadow.get k = some c then x.shadow.del k else x.shadow
    updPending := delSet x.updPending k }

/-- A strobe of given shadow contents. What lies in a fenced block or unit waits for its return; an invalid route table
stays out. -/
def strobeCopies (s : State) (l : Smap RegCopy) : State :=
  let routed := l.any fun e => isRoute e.1
  let bad := routed && !routesOk s (routesWith s l)
  let s := s.eventIf bad .twlEvent 0 5
  (l.filter fun e => !(bad && isRoute e.1)).foldl (fun s e =>
    match regOfKey e.1 with
    | none => s
    | some r =>
      if regFenced s r (e.1 % 262144) then s.mapRegs fun x => { x with updPending := addSet x.updPending e.1 }
      else takeCopy s e.1 e.2) s

/-- Tuning-class instance of a named group. -/
def inGroups (s : State) (g : Nat) (r : Reg) (u : Nat) : Bool := r.row.cls == .tuning && bit g (regGroup s r u)

/-- What the epoch strobe applies: epoch-class registers, tuning-class ones of the epoch-bound groups, those that a missed
domain still has to take; at an image apply, every one (R74, R78, R79). With block EPC OUT no epoch-class shadow is applied
(R593). -/
def epochDue (s : State) (apply : Bool) (r : Reg) (u : Nat) : Bool :=
  (r.row.cls == .epoch && !s.blockOut 7) || (r.row.cls == .tuning && apply) || inGroups s (cfgEpochMask s.img.cfg) r u ||
    (r.row.cls == .tuning && s.regs.updPending.contains (regKey r u))

/-- PREPARE stages the shadows as they stand (R689). -/
def stageShadows (s : State) (apply : Bool) : State :=
  s.mapRegs fun x => { x with staged := shadowsDue s (epochDue s apply) }

/-- An epoch strobe follows within 5 µs. -/
def strobeNear (s : State) : Bool :=
  let t0 := (s.ro .epcBoundaryRtcLo 0).toNat + (s.ro .epcBoundaryRtcHi 0).toNat * 2 ^ 32
  s.epoch.cur != 0 && decide (rtcMicros t0 (rtc s) + 5 ≥ s.epoch.len)

/-- An update strobe issues, with the shadow contents present now; within 5 µs before an epoch strobe, or with block GLB OUT,
it is merged into that. -/
def issueUpdate (s : State) (g : W32) : State :=
  if strobeNear s ∨ s.blockOut 0 then s.mapRegs fun r => { r with updEpoch := some (g ||| r.updEpoch.getD 0) }
  else s.mapRegs fun r => { r with updNow := some g, issued := shadowsDue s (inGroups s g.toNat) }

/-- A strobe that was merged behind the one just completed issues (R76). -/
def issueNext (s : State) : State :=
  match s.regs.updNext with
  | some g => issueUpdate (s.mapRegs fun r => { r with updNext := none }) g
  | none => s

/-! ### Reload after an upset (R82, R584, R593) -/

/-- Copies that pass a test are loaded again with the bits they had before the upset, and with the shadows that a strobe
has applied since. -/
def reloadCopies (s : State) (p : Reg → Nat → Bool) : State :=
  let on (k : Nat) : Bool := ((regOfKey k).map fun r => p r (k % 262144)).getD false
  let fix (m : Smap RegCopy) (k : Nat) (g : W32 × W32) : Smap RegCopy :=
    match m.get k with
    | some c => if c.val = g.2 then m.put k (regCopy g.1) else m
    | none => m
  let due := s.regs.good.filter fun e => on (e.1 / 2)
  let s := s.mapRegs fun x => { x with
    force := due.foldl (fun m e => if e.1 % 2 = 0 then fix m (e.1 / 2) e.2 else m) x.force
    shadow := due.foldl (fun m e => if e.1 % 2 = 1 then fix m (e.1 / 2) e.2 else m) x.shadow
    good := x.good.filter fun e => !on (e.1 / 2), found := x.found.filter fun k => !on (k / 2) }
  (s.regs.updPending.filter on).foldl (fun s k => match s.regs.shadow.get k with
    | some c => takeCopy s k c
    | none => s.mapRegs fun x => { x with updPending := delSet x.updPending k }) s

/-- A block's registers are loaded again, and it is no longer fenced by parity. -/
def reloadBlock (s : State) (b : Nat) : State :=
  (reloadCopies s fun r _ => r.row.block == b).mapRegs fun x => { x with
    fencedBlocks := delSet x.fencedBlocks b, fencedUnits := x.fencedUnits.filter fun k => k / 65536 != b }

/-- The registers of one unit of a block are loaded again. -/
def reloadUnit (s : State) (b u : Nat) : State :=
  (reloadCopies s fun r v => r.row.block == b && regUnit r v == some u).mapRegs fun x => { x with
    fencedUnits := delSet x.fencedUnits (b * 65536 + u) }

end Sys2Proof.Machine
end

