-- ==== Sys2Proof/Machine/Ras.lean ====
section
/-! DEFINITION. Units leave service and return: RAS commands, faults of units, drains, return work, deep sleep, the reader of
damaged data, the ledger and health commands, the persistent log (19_faults_recovery R579 to R606; 18_command_set R577,
R578; 21_power_clocks_startup R643). -/
namespace Sys2Proof.Machine
open Sys2Proof

/-! ### What units a unit holds (R586, R592, R638) -/

/-- The units of a compute die (R12). -/
def dieUnits (d : Nat) : List (Nat × Nat) :=
  let run (kind n : Nat) : List (Nat × Nat) := (List.range n).map fun i => (kind, n * d + i)
  run 0x01 32 ++ run 0x02 8 ++ run 0x03 128 ++ run 0x04 8 ++ run 0x06 12 ++ run 0x08 3 ++ run 0x07 3072

/-- The units of a clock domain (R638). -/
def domainUnits (d : Nat) : List (Nat × Nat) :=
  if d < 64 then [(0x01, d)]
  else if d < 80 then (0x02, d - 64) :: (List.range 16).map fun i => (0x03, 16 * (d - 64) + i)
  else if d < 96 then [(0x04, d - 80)]
  else if d < 102 then [(0x08, d - 96)]
  else if d < 108 then (List.range 1024).map fun i => (0x07, 1024 * (d - 102) + i)
  else if d < 124 then [(0x09, d - 108)]
  else if d < 156 then [(0x0A, d - 124)]
  else if d < 180 then [(0x0C, (d - 156) / 2)]
  else if d = 180 then (List.range 4).map fun i => (0x05, i)
  else if d < 185 then []
  else if d < 209 then [(0x06, d - 185)]
  else if d < 217 then [(0x0D, d - 209)]
  else if d < 219 then [(0x10, d - 217)]
  else if d < 223 then [(0x11, d - 219)]
  else if d < 227 then [(0x0E, d - 223)]
  else if d < 231 then [(0x0F, d - 227)]
  else []

/-! ### A unit is out: the work and contents it held (R587 to R593) -/

/-- What a unit's leaving service does beyond the restarts of its work, where later engines hold the work: journal pages and
codewords of flash, packets of a port, registers of a block. -/
def outWork (s : State) (kind u : Nat) : State :=
  match kind with
  | 0x0A => ((List.range 32).map fun i => 32 * i + u).foldl rewritePages s
  | 0x0B => dieLost s u
  | 0x0C => enterDisabled s u
  | 0x13 => s.mapRegs fun x => { x with fencedBlocks := addSet x.fencedBlocks u }
  | _ => s

/-- Every tensor core of a cluster is fenced (R302). -/
def noCores (s : State) (c : Nat) : Bool := (List.range 16).all fun i => s.fencedUnit 0x03 (16 * c + i)

/-- A fault of a unit that holds no other: its fence, and what follows from it. A cluster goes with its last core (R302). -/
def fenceOne (s : State) (kind u cls addr : Nat) (auto : Bool) : State :=
  let one (s : State) (kind u addr : Nat) : State :=
    let held := (s.unit kind u).st == .inService || (s.unit kind u).st == .draining
    let s := unitFault s kind u cls addr auto
    if held && !(s.unit kind u).st == .inService then outWork s kind u else s
  let s := one s kind u addr
  if kind = 3 ∧ noCores s (u / 16) ∧ !s.fencedUnit 0x02 (u / 16) then one s 2 (u / 16) 0 else s

/-- A fault of a unit; a die-to-die link takes every unit of its compute die with it (R587), a clock domain every unit in it
(R592). -/
def fenceUnit (s : State) (kind u cls addr : Nat) (auto : Bool) : State :=
  if u ≥ unitCount kind then s else
  let inner : List (Nat × Nat) := match kind with
    | 0x10 => dieUnits u
    | 0x12 => (domainUnits u).flatMap fun x => if x.1 = 0x10 then x :: dieUnits x.2 else [x]
    | _ => []
  inner.foldl (fun s x => fenceOne s x.1 x.2 cls 0 auto) (fenceOne s kind u cls addr auto)

/-- A fault of a unit with a class of R579. -/
def classFault (s : State) (kind u cls addr : Nat) : State := if 1 ≤ cls ∧ cls ≤ 0x12 then fenceUnit s kind u cls addr true else s

/-! ### RAS commands (R582, R583) -/

/-- A change of a unit's service state that an event reports (R635). -/
def setService (s : State) (kind u : Nat) (f : UnitRec → UnitRec) : State := unitEvent (s.setUnit kind u (f (s.unit kind u))) kind u

/-- Partitions with an ACTIVE queue pair. -/
def activeParts (s : State) : List Nat :=
  ((s.host.qps.filter fun q => q.2.st == .active).filterMap fun q => qpPart s q.1).foldl addSet []

/-- Taking a unit out would leave a partition's ACTIVE queues without a tile, or a model in force without a cluster. -/
def strands (s : State) (kind u : Nat) : Bool :=
  let gone := if kind = 0x10 then dieUnits u else [(kind, u)]
  let tile (p t : Nat) : Bool := s.serves 0x01 t && servesPart s 0x01 t p
  let cluster (f : InForce) (c : Nat) : Bool := s.serves 0x02 c && servesPart s 0x02 c f.part &&
    clusterAdmits (ownerRole s 0x02 c).2 (if f.role = 1 then .doc else if f.role = 2 then .query else .rerank)
  let lost (k n : Nat) (ok : Nat → Bool) : Bool :=
    (List.range n).any (fun x => gone.contains (k, x) && ok x) && !(List.range n).any fun x => !gone.contains (k, x) && ok x
  (activeParts s).any (fun p => lost 0x01 64 (tile p)) || (s.model.bound.getD s.epoch.cur []).any fun f => lost 0x02 16 (cluster f)

/-- DRAIN, FENCE and RETIRE of a unit, with their result. -/
def takeOut (s : State) (cmd kind u : Nat) : State × Nat :=
  let r := s.unit kind u
  let held := r.st == .inService || r.st == .draining
  if (r.st = .retired) ∨ (r.st = .out ∧ cmd ≠ 4) then (s, 1)
  else if held && strands s kind u then (s, 3)
  else
    let s := if cmd = 1 ∧ r.st = .inService then setService s kind u fun x => { x with st := .draining, reenable := false }
      else if cmd = 1 ∧ r.st = .draining then s.setUnit kind u { r with reenable := false }
      else if held then fenceUnit s kind u 0 0 false
      else if r.st = .out then s
      else enterOut s kind u false false
    (if cmd = 4 then retireUnit s kind u else s, 0)

/-- The domain of a tile or cluster is switched on or off. -/
def setPower (s : State) (kind u : Nat) (off : Bool) : State :=
  let d := if kind = 1 then u else 64 + u
  s.mapPower fun p => { p with domains := p.domains.store Domain.initial d { p.domains.getD d Domain.initial with st := if off then .off else .run } }

/-- The domain of a unit in deep sleep is switched on or off; one that the image marks disabled stays OFF (R643). -/
def unitPower (s : State) (kind u : Nat) (off : Bool) : State :=
  if kind ≠ 1 ∧ kind ≠ 2 then s
  else setPower s kind u (off || (s.img.applied && cfgTileOwner s.img.cfg (if kind = 1 then u else 64 + u) == 0x7F))

/-- RETURNING, by RESTORE or by AUTO_RETURN. -/
def enterReturning (s : State) (kind u : Nat) : State :=
  unitPower (setService s kind u fun x => { x with st := .returning, reenable := false, auto := false, joins := false }) kind u false

/-- RESTORE of a unit, with its result. -/
def restore (s : State) (kind u : Nat) : State × Nat :=
  let r := s.unit kind u
  match r.st with
  | .draining => (s.setUnit kind u { r with reenable := true }, 0)
  | .out => (enterReturning s kind u, 0)
  | .retired =>
    let s := s.setUnit kind u { r with tries := 0 }
    (enterReturning (s.mapRas fun x => { x with retired := delSet x.retired (unitKey kind u) }) kind u, 0)
  | _ => (s, 1)

/-- A RAS command on a unit, with its result. -/
def rasEffect (s : State) (cmd kind u : Nat) : State × Nat :=
  if u ≥ unitCount kind ∨ (cmd ≠ 3 ∧ kind ≥ 0x12) then (s, 2)
  else if cmd = 3 then restore s kind u else takeOut s cmd kind u

/-- RAS_CMD written with a command that is not reserved: RAS_CMD_STATUS shows its result; with block RAS OUT it has no
effect (R593). -/
def rasCmd (s : State) (w : Nat) : State :=
  if s.blockOut 15 then s
  else
    let r := rasEffect s (bits w 0 3) (bits w 3 5) (bits w 8 13)
    r.1.mapRas fun x => { x with result := r.2, cmd := bits w 0 3, kind := bits w 3 5, unit := bits w 8 13 }

/-- RAS_CMD_STATUS.BUSY: the latest command has not reached its target state. -/
def rasBusy (s : State) : Bool :=
  let r := s.unit s.ras.kind s.ras.unit
  s.ras.result == 0 && ((s.ras.cmd == 1 && r.st == .draining) || (s.ras.cmd == 3 && r.st != .inService))

/-! ### Deep sleep (R643) -/

/-- Units whose deep-sleep bit is set, as unit keys. -/
def deepWanted (s : State) : List Nat :=
  let on (r : Reg) (kind base n : Nat) : List Nat := ((List.range n).filter fun i => s.fld r 0 i 1 == 1).map fun i => unitKey kind (base + i)
  on .pwrDeepTileLo 0x01 0 32 ++ on .pwrDeepTileHi 0x01 32 32 ++ on .pwrDeepCl 0x02 0 16

/-- Deep-sleep bits that have changed: a set bit drains its unit, a cleared one restores it. A refused drain leaves the bit
without effect. With block PWR OUT nothing changes (R593). -/
def deepApply (s : State) : State :=
  if s.blockOut 16 then s
  else
    let want := deepWanted s
    let s := (want.filter fun k => !s.power.deep.contains k).foldl (fun s k =>
      let r := takeOut s 1 (k / 8192) (k % 8192)
      if r.2 = 3 then r.1.event .pwrEvent 0 6 else r.1) s
    let s := (s.power.deep.filter fun k => !want.contains k).foldl (fun s k => (restore s (k / 8192) (k % 8192)).1) s
    let s := s.mapPower fun p => { p with deep := want }
    (want.filter fun k => (s.unit (k / 8192) (k % 8192)).st == .out).foldl (fun s k => unitPower s (k / 8192) (k % 8192) true) s

/-! ### After a strobe -/

/-- PWR_D_IDLE of zero, or GATE_EN at zero, keeps a domain in RUN (R641). -/
def ungate (s : State) : State :=
  s.mapPower fun p => { p with domains := p.domains.map fun e =>
    (e.1, if e.2.st = .gated ∧ (s.fld .pwrDIdle e.1 0 16 = 0 ∨ s.fld .pwrCfg 0 1 1 = 0) then { e.2 with st := .run } else e.2) }

/-- What the engines do with values that a strobe has just brought into force: ports, deep sleep, gating, the Adedan-form table
(R407, R641, R643, R652). -/
def afterStrobe (s : State) : State :=
  let hot := (List.range 8).any fun i => s.fld .pwrAdedanRow i 8 10 != 0 && decide (s.fld .pwrAdedanRow i 0 8 > 105)
  ungate (deepApply (portsConfig s |>.eventIf hot .pwrEvent 0 5))

/-! ### Drains and returns (R582 to R585) -/

/-- The unit still holds work that a drain waits for. -/
def holdsWork (s : State) (kind u : Nat) : Bool :=
  match kind with
  | 0x01 => s.host.queries.any fun q => q.2.tile == some u
  | 0x02 => s.model.batches.any fun b => b.cluster == some u
  | 0x03 => s.model.batches.any fun b => b.cluster == some (u / 16)
  | 0x04 => s.host.queries.any fun q => (q.2.tile.map (· / 4)) == some u
  | 0x05 => s.host.merges.any fun m => m.unit == u
  | 0x08 => !(s.stack u).batches.isEmpty
  | 0x0C => !(s.port u).outq.isEmpty || !(s.port u).replay.isEmpty
  | _ => false

/-- A DRAINING unit's last held work has ended: OUT, or RETURNING at once where its re-enable is pending. -/
def drainComplete (s : State) (kind u : Nat) : State :=
  let r := s.unit kind u
  if r.st ≠ .draining ∨ holdsWork s kind u then s
  else
    let s := outWork (fenceWork (enterOut s kind u false false) kind u) kind u
    let s := if s.power.deep.contains (unitKey kind u) then unitPower s kind u true else s
    if r.reenable then enterReturning s kind u else s

def execDrainComplete (kind unit : Nat) (s : State) : Out := .next (drainComplete s kind unit)

/-- A stack comes back with every bank filled with zero (R589). -/
def zeroStack (s : State) (st : Nat) : State :=
  s.mapLichen fun l => { l with
    t2 := l.t2.filter fun e => e.1 / 2 ^ 24 / 80 != st, shadow := l.shadow.filter fun e => e.1 / 2 ^ 18 / 80 != st
    t2poison := l.t2poison.filter fun a => a / 2 ^ 25 / 80 != st, qslots := l.qslots.filter fun e => e.1 / 32 != st
    tagBuf := l.tagBuf.filter fun e => e.1 / 1024 != st, fifo := l.fifo.filter fun e => e.1 / 1024 != st
    queue := l.queue.filter fun e => e.1 / 1024 != st, lastClean := l.lastClean.filter fun e => e.1 / 2 ^ 18 / 80 != st
    stk := l.stk.del st }

/-- Return work of a unit that has passed: its memories zeroed, its registers loaded (R584). -/
def returnWork (s : State) (kind u : Nat) : State :=
  match kind with
  | 0x06 => s.mapMem fun m => [u, u + 24, u + 48].foldl zeroSheet m
  | 0x07 => reloadUnit (s.mapLichen fun l => { l with tagBuf := l.tagBuf.del u, fifo := l.fifo.del u }) 5 u
  | 0x08 => zeroStack s u
  | 0x09 => s.mapMem fun m => { m with
      t3 := m.t3.filter fun e => lineChannel e.1 != u, t3poison := m.t3poison.filter fun l => lineChannel l != u }
  | 0x0B => s.mapFelt fun f => { f with blocks := f.blocks.map fun b =>
      (b.1, if dieOf s b.1 = u then { b.2 with erased := true, reads := 0, refresh := false } else b.2) }
  | 0x0C => reloadUnit s 12 u
  | 0x12 => reloadUnit s 16 u
  | 0x13 => reloadBlock s u
  | _ => s

/-- A unit's return work passes, and it waits for readmission; or it fails. -/
def returnDone (s : State) (kind u : Nat) (ok : Bool) : State :=
  if (s.unit kind u).st ≠ .returning then s
  else if ok ∧ !(kind = 2 ∧ noCores s u) then setService (returnWork s kind u) kind u fun x => { x with st := .waiting, joins := false }
  else enterOut s kind u true true

/-- A failing die-to-die lane is replaced from its link's four spares, without loss. -/
def d2dSwap (s : State) (link lane : Nat) : State :=
  if link ≥ 2 then s
  else
    let used := s.ras.d2d.getD link []
    if used.contains lane then s
    else if used.length ≥ 4 then fenceUnit s 0x10 link 0x0F 0 true
    else s.mapRas fun x => { x with d2d := x.d2d.put link (used ++ [lane]) }

def execD2dLaneSwap (link lane : Nat) (s : State) : Out := .next (d2dSwap s link lane)

/-! ### Poisoned and unreadable data (R594, R595) -/

/-- A query that met a damaged record goes on without the slot, and its command ends FAULTED_PARTIAL. -/
def skipSlot (s : State) (n x : Nat) : State :=
  s.mapHost fun h => { h with queries := h.queries.upd n fun q => { q with
    partial_ := true, queue := q.queue.filter fun e => e.slot != x, frontier := delSet q.frontier x } }

/-- A query that met damage which costs it no slot of its own. -/
def markPartial (s : State) (n : Nat) : State :=
  s.mapHost fun h => { h with queries := h.queries.upd n fun q => { q with partial_ := true } }

/-- A query reads a slot's damaged attribute word as failing its filter. -/
def skipAttr (s : State) (n x : Nat) : State :=
  (markPartial s n).mapHost fun h => { h with queries := h.queries.upd n fun q => { q with noAttr := addSet q.noAttr x } }

/-- A query reads a slot's damaged adjacency record as holding no used entry. -/
def skipAdj (s : State) (n x : Nat) : State :=
  (markPartial s n).mapHost fun h => { h with queries := h.queries.upd n fun q => { q with noAdj := addSet q.noAdj x } }

/-- Segments of stack memory that hold poison, until they are written whole (R360). -/
def t2Poison (s : State) (l : List (Nat × Nat)) : State :=
  s.mapLichen fun x => { x with
    t2poison := (l.flatMap fun p => (List.range (ceilDiv p.2 32)).map fun i => p.1 / 32 + i).foldl addSet x.t2poison }

/-- The part of a resident copy that a swatch takes, in its spans. -/
def swatchSpans (r : Resident) (i : Nat) : List (Nat × Nat) :=
  (r.spans.foldl (fun (a : List (Nat × Nat) × Nat) x =>
    (if a.2 ≤ i ∧ i < a.2 + x.2 / 4096 then a.1 ++ [(x.1 + 4096 * (i - a.2), 4096)] else a.1, a.2 + x.2 / 4096)) ([], 0)).1

/-- A batch's model has a poisoned swatch: every bound partition gets its record (R595). -/
def weightsPoisoned (s : State) (i sw : Nat) : State :=
  match s.model.resident[i]? with
  | none => s
  | some r =>
    if r.lost ∨ !r.done then s
    else
      let s := t2Poison (faultRecord s 0x0C 0 0 0 (boundParts s r.digest) []) (swatchSpans r sw)
      s.mapModel fun m => { m with
        resident := m.resident.map fun x => if x.digest = r.digest then { x with poison := addSet x.poison sw } else x }

/-- What a reader does on damaged data, and what is restored. The number of the reader is that of a query, or of a command
for an ID map bucket. -/
def damagedRead (s : State) (n : Nat) (d : DamagedData) : State :=
  let t3 (s : State) (p : Nat) : State := faultRecord s 0x07 0 0 0 [p] []
  let t2 (s : State) (p : Nat) : State := faultRecord s 0x05 0 0 0 [p] []
  match d with
  | .slotRecord p _ x => skipSlot (t3 s p) n x
  | .attrWord p i x =>
    (skipAttr (t3 s p) n x).updShard p i fun sh => putVersion sh x true (s.epoch.cur + 1) [] (attrNewest sh x)
  | .adjacency p i x =>
    (skipAdj (t3 s p) n x).updShard p i fun sh =>
      putVersion sh x false (s.epoch.cur + 1) ((sh.ckpt.map fun c => c.adj.getD x []).getD []) 0
  | .idMapBucket p _ _ => cutBatch (t3 s p) n
  | .norm p i x =>
    let eu := ((shardOf s p i).map fun sh => needsNorm sh.desc.numrec).getD false
    if eu then skipSlot (t2 s p) n x else markPartial (t2 s p) n
  | .hotAdjacency p i x => match shardOf s p i with
    | some sh => hotWrite (t2 s p) sh x (sh.adj.getD x [])
    | none => s
  | .crcShadow w rg => rgDamage s (2 ^ 18 * w + rg) 0
  | .latent p i x =>
    (t2Poison (t2 s p) (((shardOf s p i).bind fun sh => sh.latents.get x).getD [])).updShard p i fun sh => { sh with latents := sh.latents.del x }
  | .weights m sw => weightsPoisoned s m sw
  | .workArea q => restartQuery (faultRecord s 0x04 0 0 0 (((s.host.queries.get q).map fun x => [x.part]).getD []) []) q
  | .feltMap => faultRecord s 0x07 0 0 0 [] []
  | .descriptor p i =>
    let cs := (s.host.cmds.filter fun e => e.2.part == p && indexOps.contains (eOpcode e.2.entry) && eIndex e.2.entry == i && e.2.phase != .done).map (·.1)
    let s := faultRecord s 0x07 0 0 0 [p] cs
    cs.foldl faultCmd (s.updShard p i fun sh => if sh.phase = .serving then { sh with lost := true } else sh)
  | .ledger p l =>
    if (s.ledger p).recs.any fun r => r.lseq == l then
      (t3 s p |>.mapRas fun x => { x with ledgers := x.ledgers.upd p fun g => { g with recs := g.recs.filter fun r => r.lseq != l } }).bump .rasPLedgerLost p 1
    else s

def execPoisonedDataRead (reader : Nat) (data : DamagedData) (s : State) : Out := .next (damagedRead s reader data)

/-! ### Ledger and health (R577, R578, R603) -/

/-- LEDGER_READ: records from an LSEQ on that a result buffer of a length holds. -/
def ledgerFrom (s : State) (p l len : Nat) : List LRec := ((s.ledger p).recs.filter fun r => decide (l ≤ r.lseq)).take (len / 64)

/-- The records returned count as read. -/
def ledgerReturned (s : State) (p : Nat) (l : List LRec) : State :=
  ledgerMap s p fun r => if l.any fun x => x.lseq == r.lseq then { r with read := true } else r

/-- LEDGER_READ. -/
def ledgerRead (s : State) (n : Nat) (c : Cmd) : State :=
  let a := eArg0 c.entry
  if !c.byPf ∧ a ≠ 0 then endWith s n stInvalid
  else
    let p := if c.byPf then a else c.part
    let l := ledgerFrom s p (eArg1 c.entry) (eResultLen c.entry)
    finish (ledgerReturned (putResult s n 0 (l.flatMap lrecBytes)) p l) n stOk l.length 0

def execLedgerRead (cmd : Nat) (s : State) : Out := .next (onAdmitted s cmd [0xB1] fun c => ledgerRead s cmd c)

/-- FLT_SPARE.PERCENT. -/
def sparePercent (s : State) : Nat := if s.felt.spare0 = 0 then 100 else 100 * s.felt.spare / s.felt.spare0

/-- Mean program-erase count of the fast-cell blocks. -/
def meanFast (s : State) : Nat :=
  let l := s.felt.blocks.filter fun e => e.2.fast
  l.foldl (fun n e => n + e.2.pe) 0 / max 1 l.length

/-- The device record of HEALTH_LOG. -/
def healthDevice (s : State) : List Byte :=
  slice (natLe 1 (sparePercent s) ++ natLe 3 0 ++ natLe 4 s.felt.spare ++ natLe 2 (meanPe s) ++ natLe 2 (maxPe s none false) ++
    natLe 2 (meanFast s / 10) ++ natLe 2 (maxPe s none true / 10) ++ natLe 2 (mdPeRated s.felt.desc) ++ natLe 2 (mdPeRatedSlc s.felt.desc) ++
    natLe 2 (s.felt.dies.filter fun d => d.2.used).length) 0 64

/-- The record of a die. -/
def healthDie (s : State) (i : Nat) : List Byte :=
  let d := s.die i
  let n (r : Reg) : List Byte := natLe 4 (s.ro r i).toNat
  slice (natLe 1 (b2n d.used + 2 * b2n (s.fencedUnit 0x0B i) + 4 * b2n d.hot) ++ natLe 1 (ofSigned 8 d.temp) ++ natLe 1 (ofSigned 8 d.maxTemp) ++
    natLe 1 0 ++ natLe 2 (maxPe s (some i) false) ++ natLe 2 (maxPe s (some i) true / 10) ++ natLe 8 d.maxAt ++
    (List.range 8).flatMap (fun k => natLe 4 (s.ro .fltDThist (8 * i + k)).toNat) ++ n .fltDCorr ++ n .fltDRetry ++ n .fltDSoft ++
    n .fltDRebuild ++ n .fltDUncorr ++ n .fltDPfail ++ n .fltDEfail ++ n .fltDRetired) 0 128

/-- HEALTH_LOG; a buffer too short for the device record breaks the command's rule. -/
def healthLog (s : State) (n : Nat) (c : Cmd) : State :=
  usneaServed s n fun s =>
    if eResultLen c.entry < 64 then endWith s n stInvalid
    else
      let a := eArg1 c.entry
      let k := min ((eResultLen c.entry - 64) / 128) (1024 - a)
      finish (putResult s n 0 (healthDevice s ++ (List.range k).flatMap fun i => healthDie s (a + i))) n stOk k 0

def execHealthLog (cmd : Nat) (s : State) : Out := .next (onAdmitted s cmd [0xB0] fun c => healthLog s cmd c)

/-! ### The persistent log (R604, R606, R621, R622) -/

/-- Records that the LOG region holds: one is erased a sector ahead of the write point. -/
def logRecords (s : State) : Nat := ((norRegion s 0x0B).map fun r => r.2 / 64).getD 0

/-- A record of the persistent log, with the erase of the sector ahead where the write point enters a new one. -/
def logAdd (s : State) (kind part qp : Nat) (body : List Byte) : State :=
  let n := s.usnea.logNext
  let cap := max 1024 (logRecords s)
  let r : LogRec := { seq := n, rtc := rtc s, kind := kind, part := part, qp := qp, body := slice body 0 32 }
  let sector := (n / 1024 + 1) % max 1 (cap / 1024)
  let enters := n % 1024 == 0
  let worn := decide (5 * (s.usnea.erases.getD sector 0 + 1) ≥ 4 * (norDir s).cycles)
  let s := s.mapUsnea fun u => { u with
    log := (if enters ∧ u.log.length + 1024 ≥ cap then u.log.drop (u.log.length + 1024 - cap) else u.log) ++ [r], logNext := n + 1
    erases := if enters then u.erases.put sector (u.erases.getD sector 0 + 1) else u.erases }
  s.eventIf (enters && worn) .mgtEvent 0 6

/-- A record of the ledger in the persistent log; a FAULT record is an event for subscribers (R635). -/
def logRecord (s : State) (x : Nat × LRec) : State :=
  let s := logAdd s (if x.2.typ = 3 then 1 else 2) x.1 x.2.qp x.2.body
  if x.2.typ = 3 then raiseEvent s 0 (lrecBytes x.2) else s

/-- One second's copying: LOG_RATE records, those first that waited through a restart; what is beyond is not copied. -/
def logCopy (s : State) : State :=
  if !usneaUp s then s
  else
    let n := s.fld .rasCfg 0 2 10
    let rest := s.ras.logWait.drop n
    let held := s.ras.logHeld - n
    let s' := (s.ras.logWait.take n).foldl logRecord s
    (s'.mapRas fun x => { x with logWait := rest.take held, logHeld := held }).eventIf (decide (rest.length > held)) .rasEvent 0 8

def execPersistentLogCopy (s : State) : Out := .next (logCopy s)

/-! ### Commands that wait for Usnea (R606) -/

/-- An admin command has waited 2 s for Usnea. -/
def adminTimeout (s : State) (n : Nat) : State :=
  match s.host.cmds.get n with
  | none => s
  | some c =>
    if usneaUp s ∨ c.phase = .done ∨ !s.usnea.waitCmds.contains n then s
    else
      let s := faultRecord (s.mapUsnea fun u => { u with waitCmds := delSet u.waitCmds n }) 0x12 0 0 0 [c.part] [n]
      endWith s n stFaultedNone

def execAdminWaitTimeout (cmd : Nat) (s : State) : Out := .next (adminTimeout s cmd)

end Sys2Proof.Machine
end

