-- ==== Sys2Proof/Machine/Firmware.lean ====
section
/-! DEFINITION. Usnea's firmware images and their verification, the start of the first stage and of the runtime components,
the black box (16_isolation_security R493, R495; 20_usnea_management R609 to R619, R623). -/
namespace Sys2Proof.Machine
open Sys2Proof

/-! ### The black box (R623) -/

/-- A record of the black-box ring; its layout is open. -/
def boxAdd (s : State) (what : Nat) (data : List Byte) : State :=
  s.mapUsnea fun u => { u with
    blackbox := (slice (Config.boxRecord what data) 0 32 :: u.blackbox).take 8192, bbNext := (u.bbNext + 1) % 8192 }

/-- The whole ring, its write index and the real-time counter copied into BLACKBOX_SAVE. -/
def boxSave (s : State) : State := s.mapUsnea fun u => { u with bbSaved := some (u.bbNext, rtc s, u.blackbox) }

/-! ### Firmware images (R614, R615) -/

/-- Number of components. -/
def fwCount (b : List Byte) : Nat := field b 0x06 2
/-- A component entry. -/
def fwEntry (b : List Byte) (i : Nat) : List Byte := slice b (64 + 64 * i) 64
/-- ID of a component. -/
def fwId (b : List Byte) (i : Nat) : Nat := field (fwEntry b i) 0 1
/-- Digest that a component's entry names. -/
def fwDigest (b : List Byte) (i : Nat) : List Byte := slice (fwEntry b i) 16 48
/-- LENGTH of an image. -/
def fwLength (b : List Byte) : Nat := field b 0x10 4

/-- The header of an image. -/
def fwForm (b : List Byte) : Bool :=
  decide (field b 0 4 = 0x55534E46) && decide (field b 0x04 2 = 1) && decide (1 ≤ fwCount b ∧ fwCount b ≤ 9) &&
    decide (fwLength b = b.length ∧ b.length ≤ 1048576 ∧ 320 + 64 * fwCount b ≤ b.length) && zeroAt b 0x14 40 &&
    decide (field b 0x3C 4 = crc32c (slice b 0 0x3C))

/-- The signature block verifies with the Wynkoson firmware key. -/
def fwSigned (b : List Byte) : Bool :=
  let o := b.length - 256
  let x := slice b o 48
  let y := slice b (o + 48) 48
  decide (Config.sha384 (x ++ y) = Config.firmwareKeyDigest) && zeroAt b (o + 192) 64 &&
    Config.ecdsaVerify x y (slice b (o + 96) 48) (slice b (o + 144) 48) (Config.sha384 (b.take o))

/-- Every component lies in the image and has the digest that its entry names; component 0 is present. -/
def fwComponents (b : List Byte) : Bool :=
  let l := List.range (fwCount b)
  let ok (i : Nat) : Bool :=
    let off := field (fwEntry b i) 4 4
    let n := field (fwEntry b i) 8 4
    decide (off + n ≤ b.length) && decide (Config.sha384 (slice b off n) = fwDigest b i)
  l.all ok && l.any fun i => fwId b i == 0

/-- An image verifies as the boot ROM verifies it: header, signature, SVN, component digests. -/
def fwValid (s : State) (b : List Byte) : Bool :=
  fwForm b && fwSigned b && decide (s.sec.svn.getD 3 0 ≤ field b 0x08 4) && fwComponents b

/-- The image at the front of a NOR region or of a receive area. -/
def fwImageAt (region : List Byte) : List Byte := region.take (fwLength region)

/-! ### Starting firmware (R493, R495, R615, R617) -/

/-- The image in force becomes another one. -/
def fwLoad (s : State) (b : List Byte) (copyB net : Bool) : State :=
  s.mapUsnea fun u => { u with
    fwImage := b, fwVersion := BitVec.ofNat 32 (field b 0x0C 4), fwSvn := BitVec.ofNat 32 (field b 0x08 4), copyB := copyB, netbooted := net
    trialRun := !net && (norDir s).trial && copyB == (norDir s).activeB }

/-- The boot ROM starts a verified image: it stays in the receive area, the first stage's digest extends M1, and the first stage saves
the black box before it writes a record (R617, R623). -/
def fwStart (s : State) (b : List Byte) (copyB net : Bool) : State :=
  let first := ((List.range (fwCount b)).find? fun i => fwId b i == 0).map (fwDigest b)
  let s := extendMeas (fwLoad s b copyB net) 1 (first.getD [])
  (boxAdd (boxSave s) 1 (natLe 4 (field b 0x0C 4))).mapUsnea fun u => { u with netTrying := false, fwInT3 := false, recvUse := .boot, recv := [] }

/-- The digests of the runtime components extend M2. -/
def measureRuntime (s : State) : State :=
  let b := s.usnea.fwImage
  ((List.range (fwCount b)).filter fun i => fwId b i != 0).foldl (fun s i => extendMeas s 2 (fwDigest b i)) s

/-- The runtime components start. -/
def runtimeStart (s : State) : State :=
  s.mapUsnea fun u => { u with running := true, restarting := false, closed := false }

/-- Once DDR has been trained, the image is copied to the T3 reserve and the receive area is free (R617). -/
def fwToT3 (s : State) : State :=
  if s.usnea.fwInT3 then s else s.mapUsnea fun u => { u with fwInT3 := true, recvUse := .free, recv := [] }

/-- The directory rewritten: the older copy takes the new contents with DSEQ raised by one (R612). -/
def norDirWrite (s : State) (f : NorDir → NorDir) : State :=
  let d := f { norDir s with dseq := (norDir s).dseq + 1 }
  s.mapUsnea fun u => if u.dir0.dseq ≥ u.dir1.dseq then { u with dir1 := d } else { u with dir0 := d }

/-! ### Restarts of Usnea (R606, R608, R610, R618, R619) -/

/-- Usnea halts, once it has firmware to restart from: its messages in progress, sessions, subscriptions and memory of TAGs are lost, the MGT registers take their
reset values (R691), and records that wait for the persistent log are held over. -/
def usneaHalt (s : State) (cause : Nat) : State :=
  if s.usnea.fwImage.isEmpty then s else
  let s := s.mapUsnea fun u => { u with
    restarting := true, running := false, haltCause := some cause, sessions := [], subs := [], tags := [], mbxBusy := false, admins := []
    recvUse := if u.recvUse == .boot then .boot else .free, recv := [], compFaults := [], sensors := [], ptmSeq := 0, ptmRtc := 0, ptmNs := 0 }
  let mgt (k : Nat) : Bool := [Reg.mgtSMax, .mgtSAlarm, .mgtEvent].any fun r => r.ctorIdx == k / 262144
  let s := s.mapRegs fun r => { r with force := r.force.filter fun e => !mgt e.1, sqc := r.sqc.filter fun e => !mgt e.1 }
  s.mapRas fun x => { x with logHeld := min 65536 x.logWait.length }

/-- A halt whose cores must write nothing more. -/
def usneaClose (s : State) (cause : Nat) : State :=
  if s.usnea.fwImage.isEmpty then s else (usneaHalt s cause).mapUsnea fun u => { u with closed := true }

/-- The first stage starts again: the black box is saved, the first record names the cause, RESTARTS rises, and firmware on
trial gives way to the previous copy. -/
def usneaRestart (s : State) : State :=
  if s.usnea.fwImage.isEmpty then s else
  let s := if s.usnea.restarting then s else usneaHalt s 5
  let cause := s.usnea.haltCause.getD 5
  let s := boxAdd (boxSave s) 2 (natLe 1 cause)
  let s := (s.mapUsnea fun u => { u with closed := false, haltCause := none, restarts := u.restarts + 1 }).event .rasEvent 0 10
  if !(norDir s).trial ∨ s.usnea.netbooted ∨ cause = 4 then s
  else
    let b := !(norDir s).activeB
    let s := (norDirWrite s fun d => { d with activeB := b, trial := false }).event .mgtEvent 0 3
    fwLoad s (fwImageAt (if b then s.usnea.fwB else s.usnea.fwA)) b false

/-- The first stage has verified the image again and reloaded the runtime components. -/
def usneaRestarted (s : State) : State :=
  if !s.usnea.restarting ∨ s.usnea.haltCause.isSome then s
  else if s.power.stage = .firstStage then (s.mapUsnea fun u => { u with restarting := false }).event .mgtEvent 0 1
  else (runtimeStart s).event .mgtEvent 0 1

end Sys2Proof.Machine
end

