-- ==== Sys2Proof/Machine/HostQueues.lean ====
section
/-! DEFINITION. The commands of the host interface: doorbells, fetch, admission, completions, interrupts, function resets
(17_host_queues). -/
namespace Sys2Proof.Machine
open Sys2Proof

/-! ### Queue pairs -/

/-- A queue pair. -/
def State.qp (s : State) (d : Nat) : Qp := s.host.qps.getD d Qp.reset

/-- A queue pair written. -/
def State.setQp (s : State) (d : Nat) (q : Qp) : State := s.mapHost fun h => { h with qps := h.qps.store Qp.reset d q }

/-- Change of a queue pair. -/
def State.updQp (s : State) (d : Nat) (f : Qp → Qp) : State := s.setQp d (f (s.qp d))

/-- Host address in a pair of base registers. -/
def qpBase (s : State) (lo hi : Reg) (d : Nat) : Nat := (s.reg lo d).toNat + (s.reg hi d).toNat * 2 ^ 32

/-- 2^SQ_LOG2. -/
def sqSize (s : State) (d : Nat) : Nat := 2 ^ s.fld .hqQpSize d 0 5
/-- 2^CQ_LOG2. -/
def cqSize (s : State) (d : Nat) : Nat := 2 ^ s.fld .hqQpSize d 5 5

/-- (a - b) mod n. -/
def subMod (a b n : Nat) : Nat := (a + n - b % n) % n

/-- The ring configuration is valid (R508). -/
def qpConfigOk (s : State) (d : Nat) : Bool :=
  let sq := qpBase s .hqQpSqBaseLo .hqQpSqBaseHi d
  let cq := qpBase s .hqQpCqBaseLo .hqQpCqBaseHi d
  let a := s.fld .hqQpSize d 0 5
  let b := s.fld .hqQpSize d 5 5
  decide (sq ≠ 0) && decide (cq ≠ 0) && decide (sq % 4096 = 0) && decide (cq % 4096 = 0) && decide (4 ≤ a) &&
    decide (a ≤ 16) && decide (4 ≤ b) && decide (b ≤ 16)

/-- A cause of the FAILED cause table: an ACTIVE queue pair, or one that is being enabled, enters FAILED; CAUSE keeps the
first since enable, and a queue pair that drains keeps draining (R508, R512). -/
def failQp (s : State) (d cause : Nat) : State :=
  let go := (s.qp d).st == .active || (s.qp d).st == .disabled
  let s := s.updQp d fun q => { q with
    st := if go then .failed else q.st, cause := if q.cause = 0 then cause else q.cause, cqBad := q.cqBad || cause == 6 }
  s.eventIf go .hqEvent ((qpPart s d).getD 0) 0

/-- DISABLED and ENABLE written 1 (R508). -/
def enableQp (s : State) (d : Nat) : State :=
  if qpConfigOk s d then
    s.updQp d fun q => { q with
      st := .active, reenable := false, cause := 0, sqHead := 0, sqTail := 0, cqTail := 0, cqHead := 0, phase := true
      exposedAt := [], unconsumed := 0, cqBad := false, deficit := 0, credit := 0 }
  else failQp (s.updQp d fun q => { q with reenable := false, cause := 0, cqBad := false }) d 1

/-- An ENABLE field written (R508, R509). -/
def writeEnable (s : State) (d : Nat) (on : Bool) : State :=
  match (s.qp d).st, on with
  | .disabled, true => enableQp s d
  | .stopping, true => s.updQp d fun q => { q with reenable := true }
  | .active, false => s.updQp d fun q => { q with st := .stopping, reenable := false }
  | .failed, false => s.updQp d fun q => { q with st := .stopping, reenable := false }
  | .stopping, false => s.updQp d fun q => { q with reenable := false }
  | _, _ => s

/-- The registers of the HQ_QP window that hold what host software wrote. -/
def qpRwRegs : List Reg :=
  [.hqQpSqBaseLo, .hqQpSqBaseHi, .hqQpCqBaseLo, .hqQpCqBaseHi, .hqQpSize, .hqQpInt, .hqQpCtrl, .hqQpDelayMax]

/-- Every field of a queue pair's window at its reset value (R511, R534). -/
def resetQpWindow (s : State) (d : Nat) : State :=
  (s.mapHost fun h => { h with qps := h.qps.del d }).mapRegs fun r =>
    { r with force := qpRwRegs.foldl (fun m x => m.del (regKey x d)) r.force }

/-- Queue pair that a requester's access to the HQ_QP window reaches for a write, or the cause of a write error (R510,
R511): a virtual function reaches its own; the physical function and Usnea firmware write through FN 0 alone. -/
def qpWriteTarget (s : State) (req fn q : Nat) : Nat × Option Nat :=
  let vf := decide (0 < req) && decide (req < 64)
  if !vf ∧ fn ≠ 0 then (werrNotPermitted, none)
  else match deviceQp s (if vf then req else 0) q with
    | none => (werrIndRange, none)
    | some d => if (s.qp d).leaving.isSome then (werrNotPermitted, none) else (0, some d)

/-- A write to HQ_QP_CTRL.ENABLE of a requester (R508 to R511, R83). -/
def qpCtrl (s : State) (req fn q : Nat) (on : Bool) : State :=
  if s.regs.fencedBlocks.contains 2 then writeError s req 2 0x010 0 werrBlockFenced
  else match qpWriteTarget s req fn q with
    | (c, none) => writeError s req 2 0x010 0 c
    | (_, some d) =>
      if s.partOut 2 d then writeError s req 2 0x010 0 werrUnitFenced
      else writeEnable (s.setReg .hqQpCtrl d (BitVec.ofNat 32 (b2n on))) d on

/-! ### Doorbells (R522 to R524) -/

/-- The doorbell reaches nothing: the function is disabled. -/
def fnDisabled (s : State) (fn : Nat) : Bool := fn ≠ 0 && s.img.vfOff.contains fn

/-- A submission doorbell on an ACTIVE queue pair (R512, R522). -/
def sqTailWrite (s : State) (d : Nat) (v : W32) : State :=
  let q := s.qp d
  let n := sqSize s d
  let t := bits v.toNat 0 16
  if bits v.toNat 16 16 ≠ 0 then failQp s d 4
  else if t < n ∧ subMod t q.sqHead n ≥ subMod q.sqTail q.sqHead n then
    s.updQp d fun q => { q with sqTail := t, exposedAt := q.exposedAt ++ List.replicate (subMod t q.sqTail n) (rtc s) }
  else failQp s d 2

/-- A completion doorbell on an ACTIVE queue pair (R512, R523). -/
def cqHeadWrite (s : State) (d : Nat) (v : W32) : State :=
  let q := s.qp d
  let m := cqSize s d
  let k := bits v.toNat 0 16
  if bits v.toNat 16 16 ≠ 0 then failQp s d 4
  else if k < m ∧ subMod q.cqTail k m ≤ subMod q.cqTail q.cqHead m then
    s.updQp d fun q => { q with cqHead := k, unconsumed := q.unconsumed - subMod k q.cqHead m }
  else failQp s d 3

/-- A doorbell of a function (R93, R504, R524, R593). -/
def doorbell (s : State) (fn q : Nat) (cq : Bool) (v : W32) : State :=
  if fnDisabled s fn ∨ q ≥ 16384 then s
  else if s.blockOut 2 then s.mapHost fun h => { h with kept := h.kept ++ [(fn, q, cq, v)] }
  else match deviceQp s fn q with
    | none => (violation s fn 2 0 q).event .hqEvent fn 2
    | some d =>
      if (s.qp d).leaving.isSome ∨ (s.qp d).st ≠ .active then s
      else if cq then cqHeadWrite s d v else sqTailWrite s d v

/-- Doorbells kept while the block was OUT act on its return (R593). -/
def replayDoorbells (s : State) : State :=
  let k := s.host.kept
  k.foldl (fun s x => doorbell s x.1 x.2.1 x.2.2.1 x.2.2.2) (s.mapHost fun h => { h with kept := [] })

def execSqDoorbell (fn q : Nat) (v : W32) (host : HostWrites) (s : State) : Out :=
  .next (doorbell (hostWrites s host) fn q false v)

def execCqDoorbell (fn q : Nat) (v : W32) (s : State) : Out := .next (doorbell s fn q true v)

/-! ### Fetch (R525) -/

/-- Entries read from a submission ring, wrapping at its end. -/
def fetchEntries (s : State) (d base n : Nat) : Nat → Nat → List (List Byte)
  | _, 0 => []
  | h, k + 1 => hostRead s (base + 64 * h) 64 :: fetchEntries s d base n ((h + 1) % n) k

/-- Visible entries of an ACTIVE queue pair are read, up to 4 unadmitted ones at a time; their reads count against T4
and wait for nothing. -/
def entryFetch (s : State) (d : Nat) : State :=
  let q := s.qp d
  let part := (qpPart s d).getD 0
  let n := sqSize s d
  let k := min (4 - q.fetched.length) (min q.exposedAt.length (subMod q.sqTail q.sqHead n))
  if q.st ≠ .active ∨ s.blockOut 2 ∨ s.partOut 2 d ∨ fnDisabled s part ∨ k = 0 then s
  else
    let es := fetchEntries s d (qpBase s .hqQpSqBaseLo .hqQpSqBaseHi d) n q.sqHead k
    (charge s part tT4 (64 * k)).updQp d fun q => { q with
      sqHead := (q.sqHead + k) % n, fetched := q.fetched ++ es.zip (q.exposedAt.take k), exposedAt := q.exposedAt.drop k }

def execEntryFetch (qp : Nat) (s : State) : Out := .next (entryFetch s qp)

/-! ### Admission (R520, R521, R526 to R529) -/

/-- The opcodes (R536). -/
def opcodes : List Nat :=
  [0x01, 0x03, 0x10, 0x11, 0x12, 0x13, 0x20, 0x21, 0x22, 0x30, 0x31, 0x32, 0x80, 0x81, 0x82, 0x83, 0x84, 0x85, 0x86, 0x87,
    0x88, 0x90, 0x91, 0xA0, 0xA1, 0xA2, 0xA3, 0xB0, 0xB1]

/-- Opcodes that accept EPOCH_VALID, those that require it, those of the physical function (R536). -/
def epochOps : List Nat := [0x01, 0x03, 0x22, 0x31, 0x32, 0x86]
def epochNeedOps : List Nat := [0x32, 0x86]
def pfOps : List Nat := [0x90, 0x91, 0xA0, 0xA1, 0xB0]

/-- What an opcode defines: a parameter block, input data, a result buffer, and the bits of ARG0 and ARG1 that are not
reserved (18_command_set). -/
def opShape (op : Nat) : Bool × Bool × Bool × Nat × Nat :=
  match op with
  | 0x01 | 0x03 => (true, true, true, 3, 0)
  | 0x10 | 0x11 => (false, true, true, 3, 0)
  | 0x12 | 0x13 | 0x21 | 0x22 => (false, true, true, 0, 0)
  | 0x20 => (false, true, true, 3, 0)
  | 0x30 => (false, false, false, 1, 0)
  | 0x80 => (true, true, false, 0, 0)
  | 0x81 => (false, false, true, 0, 0)
  | 0x83 | 0x85 | 0x91 => (true, false, false, 0, 0)
  | 0x84 => (false, true, false, 7, 0)
  | 0x86 | 0xA0 | 0xA1 => (false, true, false, 0, 0)
  | 0x87 => (false, true, true, 0, 0)
  | 0x88 => (false, true, true, 0x1F, 0xFFFFFF)
  | 0x90 => (false, true, false, 0xFF01, 0xFFFFFFFFFFFFFFFF)
  | 0xA2 => (true, false, true, 0, 0)
  | 0xA3 => (false, false, true, 0, 0)
  | 0xB0 => (false, false, true, 0, 0x3FF)
  | 0xB1 => (false, false, true, 0x3F, 0xFFFFFFFFFFFFFFFF)
  | _ => (false, false, false, 0, 0)

/-- A value has no bit outside a mask. -/
def within (v mask : Nat) : Bool := v &&& mask == v

/-- An address and length pair of an entry as R513 has it. -/
def spanOk (a n : Nat) : Bool := decide (a % 64 = 0) && (decide (n ≠ 0) || decide (a = 0))

/-- Encoded fields of ARG0 hold no reserved value (R8), and ARG0 and ARG1 are zero where the form of the opcode defines none
(R513): ZONE has its sub-operation and a role for OPEN alone (R572), MODEL_STORE names an image only to remove it (R573). -/
def codesOk (op arg0 arg1 : Nat) : Bool :=
  match op with
  | 0x88 => if bits arg0 0 3 = 1 then [1, 2].contains (bits arg0 3 2) else [2, 3, 4, 5].contains (bits arg0 0 3) && bits arg0 3 2 == 0
  | 0x90 => bit arg0 0 || (arg0 == 0 && arg1 == 0)
  | _ => true

/-- Check 3 of R526: reserved fields and flags, profile bits, addresses, alignments and lengths. -/
def entryFormOk (s : State) (e : List Byte) : Bool :=
  let sh := opShape (eOpcode e)
  decide (field e 0x01 1 < 32) && decide (field e 0x04 1 < 64) && zeroAt e 0x06 2 && zeroAt e 0x0E 2 &&
    (eProfileValid e || decide (eProfile e = 0)) && decide (eProfile e < 8) && (eEpochValid e || decide (eEpoch e = 0)) &&
    spanOk (ePbAddr e) (ePbLen e) && spanOk (eDataAddr e) (eDataLen e) && spanOk (eResultAddr e) (eResultLen e) &&
    decide (ePbLen e ≤ 65536) && decide (ePbLen e % 64 = 0) && (dataExtents s e).isSome && (resultExtents s e).isSome &&
    (sh.1 || decide (ePbLen e = 0)) && (sh.2.1 || decide (eDataLen e = 0)) && (sh.2.2.1 || decide (eResultLen e = 0)) &&
    within (eArg0 e) sh.2.2.2.1 && within (eArg1 e) sh.2.2.2.2 && codesOk (eOpcode e) (eArg0 e) (eArg1 e)

/-- Checks of R526 and R537 on an entry itself. `admin` says that it came on the admin queue. -/
def entryCheck (s : State) (fn : Nat) (admin : Bool) (e : List Byte) : Option Nat :=
  let op := eOpcode e
  if !opcodes.contains op ∨ decide (op ≥ 0x80) ≠ admin then some stInvalid
  else if !entryFormOk s e then some stInvalid
  else if (eEpochValid e ∧ !epochOps.contains op) ∨ (!eEpochValid e ∧ epochNeedOps.contains op) then some stInvalid
  else if op ≥ 0x80 ∧ eProfileValid e then some stInvalid
  else if pfOps.contains op ∧ fn ≠ 0 then some stInvalid
  else none

/-- Checks of R526 and R537 at admission: the status of the first failure, or none. -/
def admissionCheck (s : State) (part fn : Nat) (admin : Bool) (e : List Byte) : Option Nat :=
  if partState s part ≠ .active then some stPartition else entryCheck s fn admin e

/-- Opcodes that act on the device, not on a partition: Usnea's admin mailbox takes them before partition 0 is ACTIVE
(DEDUCED, log entry 45). -/
def deviceOps : List Nat := [0x90, 0x91, 0xA0, 0xA1, 0xA2, 0xA3, 0xB0, 0xB1]

/-- The epoch stamp of an entry: the stamp, the local epoch it runs in, the composition and its map generation (R253,
R449, R451, R562). -/
def stampOf (s : State) (part : Nat) (e : List Byte) : Nat × Nat × Option Nat × Nat :=
  let op := eOpcode e
  let named := eEpochValid e && epochOps.contains op
  match if op = 0x01 ∨ op = 0x03 then compOf s part (eIndex e) else none with
  | some (k, c) =>
    let st := if named then eEpoch e else c.bound
    (st, (boundEpoch c st).getD 0, some k, genMapgen c.now)
  | none =>
    let st := if named ∧ ¬(op = 0x31 ∧ eEpoch e = 0) then eEpoch e else s.epoch.cur
    (st, st, none, 0)

/-- An entry becomes a command: stamped, its captured values taken, checked; a failed check ends it at once (R526). -/
def admitEntry (s : State) (qp : Option Nat) (fn part : Nat) (admin : Bool) (e : List Byte) : State :=
  let (st, lo, k, mg) := stampOf s part e
  let n := s.host.nextCmd
  let c : Cmd :=
    { qp := qp, fn := fn, part := part, entry := e, phase := .admitted, epoch := st, local_ := lo, kept := !eEpochValid e || retained s part lo, comp := k, mapgen := mg
      pcfg := epochReg s .plnPcfg part lo, modes := (cfgModes s.img.cfg part, cfgDevModes s.img.cfg)
      profile := if eProfileValid e then eProfile e else cfgProfile s.img.cfg part, adm := s.epoch.cur, uses := entryModels s part lo e
      imgSeq := s.img.activeSeq, at_ := rtc s, status := 0, progress := 0, cflags := 0, result := [], outs := [], total := 0, gids := [], next := 0
      fullWait := none, t4Failed := false, outputs := [] }
  let chk := if qp.isNone && deviceOps.contains (eOpcode e) then entryCheck s fn admin e else admissionCheck s part fn admin e
  let s := s.mapHost fun h => { h with cmds := h.cmds.put n c, nextCmd := n + 1 }
  match chk with
  | none => if qp.isNone then s else charge s part tT4 (ePbLen e + eDataLen e)
  | some x =>
    let s := endWith s n x
    if pfOps.contains (eOpcode e) ∧ fn ≠ 0 ∧ admin ∧ partState s part = .active ∧ entryFormOk s e then
      violation s fn 7 0 (eOpcode e) else s

/-- Cost of an entry in work units (R528). -/
def entryCost (e : List Byte) : Nat := 1 + ceilDiv (ePbLen e) 64 + ceilDiv (eDataLen e) 64

/-- Device queue pairs that stand in a partition's slots (R511, R528). -/
def slotQps (s : State) (p : Nat) : List Nat :=
  (s.host.qps.filter fun x => qpPart s x.1 == some p && x.2.st != .disabled).map (·.1)

/-- A queue pair holds a fetched entry, and BARRIER does not hold it (R521, R528). -/
def slotReady (s : State) (d : Nat) : Bool :=
  match (s.qp d).fetched with
  | [] => false
  | (e, _) :: _ => !(eBarrier e && decide ((s.qp d).running > 0))

/-- The queue pair passes R520. -/
def cqRoom (s : State) (d : Nat) : Bool := decide ((s.qp d).unconsumed + 1 < cqSize s d)

/-- Cost of a queue pair's oldest fetched entry. -/
def headCost (s : State) (d : Nat) : Nat :=
  match (s.qp d).fetched with
  | [] => 0
  | (e, _) :: _ => entryCost e

/-- QUANTUM in force for a queue pair (R42). -/
def quantumOf (s : State) (d : Nat) : Nat := max 1 (((queueRange s.img.cfg d).map (·.quantum)).getD 1)

/-- Rounds of quanta until a candidate's deficit covers its cost (R528). -/
def drrRounds (s : State) (cand : List Nat) : Nat :=
  let need (d : Nat) : Nat := ceilDiv (headCost s d - (s.qp d).deficit) (quantumOf s d)
  match cand with
  | [] => 0
  | d :: t => t.foldl (fun k x => min k (need x)) (need d)

/-- The member with the largest credit; ties go to the lowest device number (R528). -/
def bestCredit (s : State) (es : List Nat) : Option Nat :=
  es.foldl (fun b d => match b with
    | none => some d
    | some x => if (s.qp d).credit > (s.qp x).credit ∨ ((s.qp d).credit = (s.qp x).credit ∧ d < x) then some d else b) none

/-- Deficit and credit after a queue pair's oldest entry has left it (R528, R529). -/
def afterAdmit (s : State) (d cost : Nat) : State :=
  let gain := s.fld .hqRcCfg 0 0 12
  let cap : Int := (s.fld .hqRcCfg 0 12 20 : Nat)
  s.updQp d fun q =>
    let rest := q.fetched.drop 1
    let idle := rest.isEmpty && q.exposedAt.isEmpty
    { q with
      fetched := rest, deficit := if idle then 0 else q.deficit - cost
      credit := if idle ∨ gain = 0 then 0 else max (-cap) (q.credit - cost)
      unconsumed := q.unconsumed + 1, running := q.running + 1, admitted := q.admitted + 1 }

/-- The slot of partition `p`: deficit round robin picks a queue pair and admits its oldest entry (R527, R528). -/
def admissionSlot (s : State) (p : Nat) : State :=
  if s.blockOut 2 ∨ fnDisabled s p then s else
  let ready := (slotQps s p).filter fun d => slotReady s d && !s.partOut 2 d
  let s := s.eventIf (ready.any fun d => !cqRoom s d) .hqEvent p 1
  let cand := ready.filter (cqRoom s)
  let k := drrRounds s cand
  let s := if k = 0 then s else cand.foldl (fun s d => s.updQp d fun q => { q with deficit := q.deficit + k * quantumOf s d }) s
  match bestCredit s (cand.filter fun d => decide ((s.qp d).deficit ≥ headCost s d)) with
  | none => s
  | some d => match (s.qp d).fetched with
    | [] => s
    | (e, _) :: _ => admitEntry (afterAdmit s d (entryCost e)) (some d) p p (localQp s d == 0) e

def execAdmissionSlot (s : State) : Out :=
  let p := s.host.slotNext
  .next (admissionSlot (s.mapHost fun h => { h with slotNext := (p + 1) % 64 }) p)

/-- Credit of every queue pair after a microsecond (R529). -/
def creditTick (s : State) : State :=
  let gain := s.fld .hqRcCfg 0 0 12
  let cap : Int := (s.fld .hqRcCfg 0 12 20 : Nat)
  (s.host.qps.map (·.1)).foldl (fun s d => s.updQp d fun q =>
    { q with credit := if gain = 0 ∨ (q.fetched.isEmpty ∧ q.exposedAt.isEmpty) then 0 else min cap (q.credit + gain) }) s

def execCreditTick (s : State) : Out := .next (creditTick s)

/-! ### Completions and interrupts (R517 to R521, R531, R597 to R601) -/

/-- The completion queue signals its vector if R531 says so, and its pending entries are then none; `aged` says that the
oldest pending entry has reached AGG_TIME. -/
def interruptDecision (s : State) (fn d : Nat) (aged : Bool) : State :=
  let q := s.qp d
  let count := max 1 (s.fld .hqQpInt d 12 8)
  if bit (s.reg .hqQpInt d).toNat 11 ∧ q.pendingInt > 0 ∧
      (q.pendingInt ≥ count ∨ q.pendErr ∨ aged ∨ s.fld .hqQpInt d 20 12 = 0) then
    sendMsix (s.updQp d fun q => { q with pendingInt := 0, pendErr := false }) fn (s.fld .hqQpInt d 0 11)
  else s

/-- The 32 bytes of a completion entry (R517). -/
def completionBytes (s : State) (c : Cmd) (status : Nat) (phase : Bool) : List Byte :=
  let d := c.qp.getD 0
  natLe 2 (eCid c.entry) ++ natLe 1 status ++ natLe 1 (eOpcode c.entry) ++ natLe 4 c.progress ++
    natLe 2 (if c.qp.isSome then (s.qp d).sqHead else 0) ++ natLe 2 (if c.qp.isSome then localQp s d else 0) ++
    natLe 2 c.cflags ++ natLe 2 c.mapgen ++ natLe 6 c.epoch ++ natLe 2 0 ++
    natLe 4 (min 0xFFFFFFFF (rtcMicros c.at_ (rtc s))) ++ natLe 3 0 ++ natLe 1 (b2n phase)

/-- Completions of a function go to the ledger: it is disabled or in a function-level reset (R61, R534, R599). -/
def functionDown (s : State) (fn : Nat) : Bool := (s.host.fns.getD fn Fn.reset).quiet || fnDisabled s fn

/-- The command's effects are durable: an update command with an accepted entry, a ZONE APPEND with an appended one (R599). -/
def effectsDurable (c : Cmd) : Bool := (c.outs.any fun o => o.epoch != 0) || (eOpcode c.entry == 0x88 && bits (eArg0 c.entry) 0 3 == 2 && decide (c.progress > 0))

/-- Bytes of each outcome record of a command's result, zero where it holds none (R601). -/
def outcomeStride (op arg0 : Nat) : Nat :=
  if [0x10, 0x11, 0x12, 0x13, 0x20, 0x21].contains op then 32
  else if op = 0x87 ∨ (op = 0x88 ∧ bits arg0 0 3 = 2) then 8 else 0

/-- The ledger records of a command that the ring or the result buffer could not take: its OUTCOME records, then its
COMPLETION (R599 to R601). -/
def ledgerCommand (s : State) (n : Nat) (c : Cmd) (cause status : Nat) : State :=
  let p := c.part
  let w := outcomeStride (eOpcode c.entry) (eArg0 c.entry)
  let recs := match c.result with
    | (0, b) :: _ => if cause = 1 ∨ w = 0 then [] else chunks w (b.length / w) b
    | _ => []
  let q := (c.qp.map (localQp s)).getD 0
  let base := (s.ledger p).next
  let mk (typ entry ref : Nat) (body : List Byte) (idx : Option Nat) : LRec :=
    { lseq := 0, typ := typ, cause := cause, fn := c.fn, qp := q, entry := entry, rtc := 0, ref := ref, body := body
      read := false, index := idx }
  let s := (recs.zipIdx).foldl (fun s x => ledgerAdd s p (mk 2 x.2 (base + recs.length) x.1 (some (eIndex c.entry)))) s
  ledgerAdd s p (mk 1 0 (faultRef s n) (completionBytes s c status false) none)

/-- A completion entry written into its ring, and the interrupt it may cause (R518, R531, R532). -/
def ringCompletion (s : State) (d : Nat) (c : Cmd) (status : Nat) : State :=
  let q := s.qp d
  let s := hostWrite s (qpBase s .hqQpCqBaseLo .hqQpCqBaseHi d + 32 * q.cqTail) (completionBytes s c status q.phase)
  let t := (q.cqTail + 1) % cqSize s d
  let s := (charge s c.part tT4 32).updQp d fun q => { q with
    cqTail := t, phase := if t = 0 then !q.phase else q.phase, completed := q.completed + 1, pendingInt := q.pendingInt + 1
    pendErr := q.pendErr || decide (status ≥ 0x10) }
  interruptDecision s c.fn d false

/-- Result data of a command written to its buffer, in order (R347). -/
def writeResults (s : State) (c : Cmd) : State :=
  let x := (resultExtents s c.entry).getD []
  c.result.foldl (fun s r => writeExtents (charge s c.part tT4 r.2.length) x r.1 r.2) s

/-- The end of a command of a queue pair: result data, then the completion entry or the ledger records, then what the
command held is let go (R347, R518, R599). -/
def completeQp (s : State) (n d : Nat) (c : Cmd) : State :=
  let down := functionDown s c.fn
  let cqBad := (s.qp d).cqBad
  let zero := !c.result.isEmpty && !c.t4Failed && zeroRate s c.part tT4
  let status :=
    if c.t4Failed then (if effectsDurable c then stFaultedPartial else stFaultedNone)
    else if zero then stQuota else c.status
  let faulted := status == stFaultedPartial || status == stFaultedNone
  let s := s.eventIf zero .memEvent 0 5
  let s := if faulted then countAffected (s.bump .rasPFaulted c.part 1) n else s
  let s := if down ∨ c.t4Failed ∨ zero then s else writeResults s c
  let s :=
    if down then ledgerCommand s n c 2 status
    else if cqBad then ledgerCommand s n c 3 status
    else
      let s := if c.t4Failed then ledgerCommand s n c 4 status else if faulted then ledgerCommand s n c 1 status else s
      ringCompletion s d c status
  let s := s.updQp d fun q => { q with
    running := q.running - 1, unconsumed := if down ∨ cqBad then q.unconsumed - 1 else q.unconsumed }
  let s := s.mapHost fun h => { h with cmds := h.cmds.del n }
  let s := s.mapRas fun r => { r with cmdFaults := r.cmdFaults.filter fun f => f.1 != n }
  afterCompletion s c.part

def execAggTimeExpiry (qp : Nat) (s : State) : Out := .next (interruptDecision s ((qpPart s qp).getD 0) qp true)

/-- The 10 µs gap after an event signal ends; an event inside it is signalled now (R533). -/
def eventGapExpiry (s : State) (fn : Nat) : State :=
  let f := s.host.fns.getD fn Fn.reset
  if !f.gap then s
  else
    let s := s.mapHost fun h => { h with fns := h.fns.put fn { f with gap := false, inGap := false } }
    if f.inGap then signalFn s fn else s

def execEventGapExpiry (fn : Nat) (s : State) : Out := .next (eventGapExpiry s fn)

/-- A vector is unmasked: a pending bit sends its message (R531). -/
def vectorUnmask (s : State) (fn v : Nat) : State :=
  let f := s.host.fns.getD fn Fn.reset
  if fnDisabled s fn ∨ v ≥ 2048 then s
  else
    let s := s.mapHost fun h => { h with fns := h.fns.put fn { f with unmasked := addSet f.unmasked v, pba := delSet f.pba v } }
    if f.pba.contains v then sendMsix s fn v else s

def execMsixVectorUnmask (fn vector : Nat) (s : State) : Out := .next (vectorUnmask s fn vector)

/-! ### Enabling, stopping, resets (R508 to R511, R534, R691) -/

def execQpEnable (req fn q : Nat) (s : State) : Out := .next (qpCtrl s req fn q true)

def execQpDisable (req fn q : Nat) (s : State) : Out := .next (qpCtrl s req fn q false)

/-- Device queue pairs of a function: those it owns and those that leave it. -/
def fnQps (s : State) (fn : Nat) : List Nat := (s.host.qps.filter fun x => qpPart s x.1 == some fn).map (·.1)

/-- A function-level reset ends once no queue pair of the function drains: windows and MSI-X table take their reset
values and EV_FLR is set (R534). -/
def flrEnd (s : State) (fn : Nat) : State :=
  let f := s.host.fns.getD fn Fn.reset
  if f.flr ∧ (fnQps s fn).all fun d => (s.qp d).st == .disabled then
    let s := (partQueues s.img.cfg fn).foldl (fun s r =>
      ((s.host.qps.map (·.1)).filter fun d => decide (r.first ≤ d) && decide (d < r.first + r.count)).foldl resetQpWindow
        (s.mapRegs fun g => { g with
          force := g.force.filter fun e =>
            !(qpRwRegs.any fun x => e.1 / 262144 == x.ctorIdx && decide (r.first ≤ e.1 % 262144) &&
              decide (e.1 % 262144 < r.first + r.count)) })) s
    (s.mapHost fun h => { h with fns := h.fns.put fn Fn.reset }).event .hqEvent fn 3
  else s

/-- The drain of a queue pair has ended (R508, R511, R534). -/
def drainEnd (s : State) (d : Nat) : State :=
  let q := s.qp d
  let fn := (qpPart s d).getD 0
  if q.st ≠ .stopping ∨ !q.fetched.isEmpty ∨ q.running ≠ 0 then s
  else if q.reenable then enableQp (s.updQp d fun q => { q with st := .disabled }) d
  else
    let s := s.updQp d fun q => { q with st := .disabled, exposedAt := [], deficit := 0, credit := 0 }
    let s := if q.leaving.isSome then resetQpWindow s d else s
    flrEnd s fn

def execQpDrainEnd (qp : Nat) (s : State) : Out := .next (drainEnd s qp)

/-- The registers that a function-level reset sets back at once (R691). -/
def fnRegReset (s : State) (fn : Nat) : State :=
  s.mapRegs fun r => { r with
    force := (regAll.filter fun x => x.row.units == 128).foldl (fun m x => m.del (regKey x fn)) (r.force.del (regKey .hqFnEventVec fn))
    werr := (List.range 18).foldl (fun m b => m.del (werrKey fn b)) r.werr
    werrInfo := (List.range 18).foldl (fun m b => m.del (werrKey fn b)) r.werrInfo }

/-- A function-level reset or D3hot entry of one function: its queue pairs stop, entries not admitted are discarded, no
further request goes out under its identity (R534). -/
def functionReset (s : State) (fn : Nat) : State :=
  let s := fnRegReset s fn
  let s := (fnQps s fn).foldl (fun s d => s.updQp d fun q =>
    if q.st = .disabled then q
    else { q with st := .stopping, reenable := false, fetched := [], exposedAt := [], deficit := 0, credit := 0 }) s
  let f := s.host.fns.getD fn Fn.reset
  flrEnd (s.mapHost fun h => { h with fns := h.fns.put fn { f with quiet := true, flr := true, gap := false, inGap := false } }) fn

/-- A reset of the physical function also disables every virtual function (R534). -/
def flr (s : State) (fn : Nat) : State :=
  if fn ≥ 64 then s
  else if fn = 0 then functionReset (s.mapImg fun i => { i with vfOff := (List.range 64).drop 1 }) 0
  else functionReset s fn

def execFunctionLevelReset (fn : Nat) (s : State) : Out := .next (flr s fn)

def execD3hotEntry (fn : Nat) (s : State) : Out := .next (flr s fn)

/-- A hot reset or link-down acts as a function-level reset of every function (R534). -/
def hostPortReset (s : State) : State := (List.range 64).foldl (fun s i => flr s (63 - i)) s

def execHostPortReset (s : State) : Out := .next (hostPortReset s)

def execVfDisable (vf : Nat) (s : State) : Out :=
  .next (if 0 < vf ∧ vf < 64 then s.mapImg fun i => { i with vfOff := addSet i.vfOff vf } else s)

def execVfEnable (vf : Nat) (s : State) : Out := .next (s.mapImg fun i => { i with vfOff := delSet i.vfOff vf })

/-! ### Telemetry and the link (R501, R530) -/

/-- Every queue pair of the device sampled at one instant (R530). -/
def telemetrySample (s : State) : State :=
  (s.host.qps.map (·.1)).foldl (fun s d =>
    let q := s.qp d
    let waiting := q.fetched.length + q.exposedAt.length
    let born := (q.fetched.map (·.2) ++ q.exposedAt).head?
    let delay := min 0xFFFFFF ((born.map fun t => rtcMicros t (rtc s)).getD 0)
    let s := s.updQp d fun q => { q with
      depthSample := BitVec.ofNat 32 (waiting % 2 ^ 16 + q.running % 2 ^ 16 * 2 ^ 16), delaySample := delay }
    if delay > (s.reg .hqQpDelayMax d).toNat then s.setReg .hqQpDelayMax d (BitVec.ofNat 32 delay) else s) s

def execTelemetrySample (s : State) : Out := .next (telemetrySample s)

/-- The host link is in force at a rate code, width and mode; rate code 0 is link down (R501, R534). -/
def linkChange (s : State) (rate width : Nat) (flit cxl : Bool) : State :=
  let w : W32 :=
    if rate = 0 then 0 else BitVec.ofNat 32 (rate % 8 + width % 32 * 8 + b2n flit * 256 + b2n cxl * 512)
  let reduced := decide (rate ≠ 0) && (decide (rate < 6) || decide (width < 16) || !flit)
  let changed := decide (bits w.toNat 0 9 ≠ bits s.host.link.toNat 0 9)
  let s := (s.mapHost fun h => { h with link := w }).eventIf (reduced || changed) .hqEvent 0 4
  if rate = 0 then hostPortReset s else s

def execLinkChange (rate width : Nat) (flit cxl : Bool) (s : State) : Out := .next (linkChange s rate width flit cxl)

/-! ### Failed host accesses (R346, R512, R535) -/

/-- A T4 access of a partition has failed. -/
def t4Count (s : State) (part : Nat) : State := (s.bump .memPT4Err part 1).event .memEvent 0 3

/-- A failed access of a command: its fault is recorded; input that cannot be read ends the command, a result buffer
that cannot be written lets it end with the cause RESULT_WRITE, a completion that cannot be written fails its queue pair
(R346, R512, R599). -/
def t4Failure (s : State) (use : T4Use) : State :=
  match use with
  | .entries d =>
    if (s.qp d).st = .active then failQp (t4Count s ((qpPart s d).getD 0)) d 5 else s
  | .input n => match s.host.cmds.get n with
    | none => s
    | some c => if c.phase = .done then s else endWith (faultRecord (t4Count s c.part) 0x09 0 0 0 [c.part] [n]) n stFaultedNone
  | .result n => match s.host.cmds.get n with
    | none => s
    | some c => (faultRecord (t4Count s c.part) 0x09 0 0 0 [c.part] [n]).updCmd n fun c => { c with t4Failed := true }
  | .completion n => match s.host.cmds.get n with
    | none => s
    | some c => match c.qp with
      | none => s
      | some d => failQp (t4Count s c.part) d 6

def execT4ReadTimeout (use : T4Use) (s : State) : Out :=
  .next (match use with
    | .entries d => t4Failure s (.entries d)
    | .input n => t4Failure s (.input n)
    | .result _ => s
    | .completion _ => s)

def execT4AccessError (use : T4Use) (s : State) : Out := .next (t4Failure s use)

end Sys2Proof.Machine
end

