-- ==== Sys2Proof/Machine/Power.lean ====
section
/-! DEFINITION. The always-on power controller: the real-time counter, clock domains and their gating, the power limit, the
hardwired guards, regulators (21_power_clocks_startup R638 to R653; 22_electrical_package R670). -/
namespace Sys2Proof.Machine
open Sys2Proof

/-! ### The real-time counter (R640) -/

/-- An edge of the 32.768 kHz oscillator: the counter takes the next multiple of 2,048 units. -/
def rtcEdge (s : State) : State :=
  if s.power.held then s
  else s.mapPower fun p => { p with rtcBase := (rtc s / 2048 + 1) * 2048 % 2 ^ 64, rtcCycles := 0, oscStopped := false }

def execRtcEdge (s : State) : Out := .next (rtcEdge s)

/-- The oscillator stops: the counter runs on without the cap. -/
def execRtcOscStop (s : State) : Out := .next ((s.mapPower fun p => { p with oscStopped := true }).event .pwrEvent 0 4)

/-! ### Clock domains (R638, R648, R649, R652) -/

/-- A clock domain. -/
def State.dom (s : State) (d : Nat) : Domain := s.power.domains.getD d Domain.initial

/-- A clock domain changed. -/
def State.setDom (s : State) (d : Nat) (f : Domain → Domain) : State :=
  s.mapPower fun p => { p with domains := p.domains.store Domain.initial d (f (p.domains.getD d Domain.initial)) }

/-- Largest clock of a domain, MHz; 0 for the domain of the real-time counter. -/
def domMax (d : Nat) : Nat :=
  if d < 64 then 1500 else if d < 80 then 1400 else if d < 96 then 1500 else if d < 102 then 3200 else if d < 108 then 500
  else if d < 124 then 1600 else if d < 156 then 1800 else if d < 180 then 1750 else if d = 180 then 1500 else if d < 185 then 2000
  else if d < 209 then 1500 else if d < 217 then 1500 else if d < 219 then 2000 else if d < 231 then 1000 else if d < 233 then 200
  else if d = 233 then 50 else if d = 234 then 800 else 0

/-- The domain may gate its clock. -/
def mayGate (d : Nat) : Bool := idleReset d != 0

/-- The host-assisted thermal and power policy is in force (R23). -/
def hostPolicy (s : State) : Bool := bit (cfgDevModes s.img.cfg) 1

/-- The rail of a domain's logic: compute die 0 or 1, or the I/O die; the stacks and the always-on domain have others
(DEDUCED, log entry 39). -/
def domRail (d : Nat) : Option Nat :=
  if d < 64 then some (d / 32) else if d < 80 then some ((d - 64) / 8) else if d < 96 then some ((d - 80) / 8)
  else if d < 108 then none else if d < 185 then some 2 else if d < 209 then some ((d - 185) / 12) else if d < 233 then some 2 else none

/-- A voltage monitor of the rail reads above its overvoltage threshold; monitors 0 to 7 and 8 to 15 watch the compute
dies, 16 to 23 the I/O die (R620, R649). -/
def railHigh (s : State) (r : Nat) : Bool := s.power.overvolt.any fun m => m / 8 == r

/-- Cap of a domain by the Adedan-form table and by the host's policy (R647, R652). -/
def domCap (s : State) (d : Nat) : Nat :=
  let m := match s.power.adedan with
    | some a => min (domMax d) (domMax d * a.2 / 100 / 25 * 25)
    | none => domMax d
  let c := s.fld .pwrDCap d 0 12
  if hostPolicy s ∧ c ≠ 0 then min m c else m

/-- Clock in force of a domain, MHz. Power and temperature lower none below 100 MHz (DESIGN CHOICE, log entry 40). -/
def domMhz (s : State) (d : Nat) : Nat :=
  let x := s.dom d
  let v := max (min 100 (domCap s d)) (domCap s d - x.cutPower - x.cutTemp)
  let v := match x.railCap with
    | some r => min v r
    | none => v
  if (domRail d).any (railHigh s) then min v 100 else v

/-! ### Gating (R641, R642) -/

/-- A domain holds work. -/
def domBusy (s : State) (d : Nat) : Bool :=
  ((domainUnits d).any fun x => holdsWork s x.1 x.2) || (decide (102 ≤ d ∧ d < 108) && (s.stack (d - 102)).step.isSome)

/-- A domain that has been idle for PWR_D_IDLE gates its clock. -/
def domainGate (s : State) (d : Nat) : State :=
  if mayGate d ∧ (s.dom d).st = .run ∧ s.fld .pwrDIdle d 0 16 ≠ 0 ∧ s.fld .pwrCfg 0 1 1 = 1 ∧ !domBusy s d ∧ !s.blockOut 16 then
    s.setDom d fun x => { x with st := .gated }
  else s

def execDomainIdleGate (domain : Nat) (s : State) : Out := .next (domainGate s domain)

/-- A request wakes a gated domain. -/
def domainWake (s : State) (d : Nat) : State :=
  if d < 236 ∧ (s.dom d).st = .gated then s.setDom d fun x => { x with st := .run, wakes := x.wakes + 1 } else s

def execDomainWake (domain : Nat) (s : State) : Out := .next (domainWake s domain)

/-! ### The power limit (R644 to R647, R652) -/

/-- The power limit in force, W: PWR_STATUS.LIMIT_W. -/
def limitW (s : State) : Nat :=
  match s.power.adedan with
  | some a => min (cfgPowerLimit s.img.cfg) a.1
  | none => cfgPowerLimit s.img.cfg

/-- The limit that the controller holds; before the first image, the largest POWER_LIMIT (DESIGN CHOICE, log entry 41). -/
def limitHeld (s : State) : Nat := if s.img.applied then limitW s else 800

/-- Domains from `a` on. -/
def domRange (a n : Nat) : List Nat := (List.range n).map (· + a)

/-- Domains of each row of the order of R646. -/
def throttleRows : List (List Nat) :=
  [domRange 64 16, domRange 124 32 ++ domRange 227 4 ++ domRange 223 4 ++ domRange 209 8,
    domRange 0 64 ++ domRange 80 16 ++ domRange 102 6 ++ domRange 185 24]

/-- Floor of a domain of the order. -/
def domFloor (d : Nat) : Nat := if 64 ≤ d ∧ d < 80 then 350 else domMax d / 2

/-- One step of 25 MHz down, to no less than a floor. -/
def cutTo (s : State) (floor : Nat → Nat) (l : List Nat) : State :=
  l.foldl (fun s d => let m := domMhz s d; if m > floor d then s.setDom d fun x => { x with cutPower := x.cutPower + min 25 (m - floor d) } else s) s

/-- One step down, in the order of R646: the first row that is not at its floor, or every clock toward 100 MHz. -/
def lowerStep (s : State) : State :=
  match throttleRows.find? fun l => l.any fun d => decide (domMhz s d > domFloor d) with
  | some l => cutTo s domFloor l
  | none => cutTo s (fun _ => 100) throttleRows.flatten

/-- One step of 25 MHz up. -/
def raiseBy (s : State) (l : List Nat) : State := l.foldl (fun s d => s.setDom d fun x => { x with cutPower := x.cutPower - 25 }) s

/-- One step up, in the reverse order: clocks below their floors first, then the rows from the last, then every other. -/
def raiseStep (s : State) : State :=
  let below := throttleRows.flatten.filter fun d => (s.dom d).cutPower != 0 && decide (domMhz s d < domFloor d)
  if !below.isEmpty then raiseBy s below
  else match throttleRows.reverse.find? fun l => l.any fun d => (s.dom d).cutPower != 0 with
    | some l => raiseBy s l
    | none => raiseBy s ((s.power.domains.filter fun e => e.2.cutPower != 0).map (·.1))

/-- PWR_STATUS.POWER_THROTTLE. -/
def powerThrottled (s : State) : Bool := s.power.domains.any fun e => e.2.cutPower != 0

/-- A change of clocks for power; EV_THROTTLE is set when throttling begins. -/
def throttle (s : State) (f : State → State) : State :=
  let t := f s
  t.eventIf (!powerThrottled s && powerThrottled t) .pwrEvent 0 0

/-- Domains over the host's budgets (R647). -/
def overBudget (s : State) (watts : List (Nat × Nat)) : List Nat :=
  if !hostPolicy s then []
  else (watts.filter fun e => let b := s.fld .pwrDBudget e.1 0 10; b != 0 && decide (e.2 * s.power.scale / 1024 > b)).map (·.1)

/-- The estimate of 10 µs: each domain's share, and one step down where the mean exceeds 1.25 times the limit. -/
def powerEstimate (s : State) (watts : List (Nat × Nat)) : State :=
  let est := watts.foldl (fun n e => n + e.2) 0 * s.power.scale / 1024
  throttle s fun s =>
    let s := cutTo s (fun _ => 100) (overBudget s watts)
    if 4 * est > 5 * limitHeld s then lowerStep s else s

def execPowerEstimate (watts : List (Nat × Nat)) (s : State) : Out := .next (powerEstimate s watts)

/-- The row of the Adedan-form table that applies: the highest TEMP at or below the hottest sensor (R652). -/
def adedanRow (s : State) : Option (Nat × Nat) :=
  let rows := ((List.range 8).map fun i => (min 105 (s.fld .pwrAdedanRow i 0 8), s.fld .pwrAdedanRow i 8 10, s.fld .pwrAdedanRow i 18 7)).filter fun r =>
    r.2.1 != 0 && (r.1 == 0 || decide ((16 * r.1 : Int) ≤ s.power.hottest))
  if s.fld .pwrCfg 0 0 1 = 0 then none
  else (rows.foldl (fun a r => match a with
    | none => some r
    | some x => if r.1 > x.1 then some r else some x) (none : Option (Nat × Nat × Nat))).map (·.2)

/-- The calibration of 1 ms: the estimate follows the regulators' input power, the Adedan-form row is chosen, and clocks are
lowered where the mean exceeds the limit, raised where it is below 95% of it. -/
def powerCalibrate (s : State) (meanW inputW : Nat) : State :=
  let s := s.mapPower fun p => { p with
    scale := if meanW = 0 then p.scale else inputW * 1024 / meanW, powerW := min 1023 (if meanW = 0 then 0 else meanW * (inputW * 1024 / meanW) / 1024) }
  let s := s.mapPower fun p => { p with adedan := adedanRow s }
  throttle s fun s =>
    if s.power.powerW > limitHeld s then lowerStep s
    else if 100 * s.power.powerW < 95 * limitHeld s then raiseStep s else s

def execPowerCalibrate (meanW inputW : Nat) (s : State) : Out := .next (powerCalibrate s meanW inputW)

/-! ### Temperature (R650, R651) -/

/-- Domains around a temperature sensor (DEDUCED, log entry 39). -/
def aroundSensor (k : Nat) : List Nat :=
  if k < 64 then [k] else if k < 80 then [k] else if k < 86 then [k + 16, k + 22]
  else match k with
    | 86 => domRange 181 4
    | 87 => domRange 108 8
    | 88 => domRange 116 8
    | 89 => domRange 124 32 ++ domRange 227 4
    | 90 => domRange 156 12
    | 91 => domRange 168 12
    | 92 => domRange 209 8
    | 93 => [234]
    | 94 => [217]
    | 95 => [218]
    | _ => []

/-- PWR_STATUS.TEMP_THROTTLE. -/
def tempThrottled (s : State) : Bool := !s.power.hot.isEmpty || s.power.domains.any fun e => e.2.cutTemp != 0

/-- The trip: the data path stops, THERMTRIP_N is asserted, MAIN_EN falls, the fault is recorded and logged. -/
def trip (s : State) : State :=
  let s := s.mapPower fun p => { p with thermtrip := true, mainEn := false, mainOk := false, stopped := true, tripAt := some (rtc s) }
  logAdd (faultRecord s 0x11 0 0 0 [] []) 1 0 0 (faultBody 0x11 0 0 0 s.epoch.cur 0 0)

/-- A sample of the temperature comparators, every 10 µs: values in 1/16 °C. -/
def tempSample (s : State) (temps : List Int) : State :=
  let temps := (temps.take 96).zipIdx
  let was := s.power.hot
  let hot := (temps.filter fun t => decide (t.1 ≥ 1680) || (was.contains t.2 && decide (t.1 ≥ 1648))).map (·.2)
  let n := s.power.samples + 1
  let s := s.mapPower fun p => { p with
    hot := hot, samples := n, hottest := temps.foldl (fun m t => max m t.1) ((temps.head?.map (·.1)).getD p.hottest)
    tripCount := temps.foldl (fun m t => m.store 0 t.2 (if t.1 ≥ 1840 then min 3 (m.getD t.2 0 + 1) else 0)) p.tripCount }
  let s := s.eventIf (hot.any fun k => !was.contains k) .pwrEvent 0 1
  let over105 := (temps.filter fun t => decide (t.1 ≥ 1680)).flatMap fun t => aroundSensor t.2
  let s := if n % 10 = 0 then
      over105.foldl (fun s d => if domMhz s d > 100 then s.setDom d fun x => { x with cutTemp := x.cutTemp + min 100 (domMhz s d - 100) } else s) s
    else s
  let cold := (s.power.domains.filter fun e => e.2.cutTemp != 0 && !(hot.flatMap aroundSensor).contains e.1).map (·.1)
  let s := if n % 100 = 0 then cold.foldl (fun s d => s.setDom d fun x => { x with cutTemp := x.cutTemp - 25 }) s else s
  if !s.power.thermtrip ∧ (s.power.tripCount.any fun e => e.2 == 3) then trip s else s

def execTempSample (temps : List Int) (s : State) : Out := .next (tempSample s temps)

/-! ### Voltage and the regulators (R648, R649, R653) -/

/-- A voltage monitor is above its overvoltage threshold, or back below it. -/
def overvoltage (s : State) (m : Nat) (above : Bool) : State :=
  if m ≥ 24 then s
  else if above then (s.mapPower fun p => { p with overvolt := addSet p.overvolt m }).event .pwrEvent 0 2
  else s.mapPower fun p => { p with overvolt := delSet p.overvolt m }

def execOvervoltage (monitor : Nat) (above : Bool) (s : State) : Out := .next (overvoltage s monitor above)

/-- The fused frequency that a domain may run at the voltage its rail's monitor measures. -/
def droop (s : State) (d mhz : Nat) : State :=
  if d ≥ 235 then s else s.setDom d fun x => { x with railCap := if mhz ≥ domMax d then none else some mhz }

def execVoltageDroop (domain mhz : Nat) (s : State) : Out := .next (droop s domain mhz)

/-- A regulator faults: it has not answered for 10 ms, or its STATUS_WORD, the last of its words, shows a fault (PRESUMED:
any bit set, log entry 42). -/
def regulatorBad : Option (List Nat) → Bool
  | none => true
  | some l => l.getD 6 0 != 0

/-- Usnea's readings of the regulators, in the order of the table. -/
def regulatorPoll (s : State) (replies : List (Option (List Nat))) : State :=
  if !usneaUp s then s
  else
    let l := (replies.take 8).zipIdx
    let bad := (l.filter fun r => regulatorBad r.1).map (·.2)
    let s' := s.mapPower fun p => { p with
      badRegs := bad, telemetry := l.foldl (fun m r => match r.1 with
        | some w => Smap.put m r.2 (w.take 7)
        | none => m) p.telemetry }
    s'.eventIf (bad.any fun r => !s.power.badRegs.contains r) .pwrEvent 0 3

def execRegulatorPoll (replies : List (Option (List Nat))) (s : State) : Out := .next (regulatorPoll s replies)

/-- Nominal voltages of the rails that VOUT_COMMAND sets, in the order of R653, mV: VDD_SRAM, VDD_STK, VDD_PHY, VDDQ_DDR (R660). -/
def nominalRails : List (Nat × Nat) := [(3, 750), (4, 1100), (5, 850), (6, 1100)]

/-- Usnea sets the regulators: each AVS rail to its fused voltage, within 0.650 V to 0.900 V in steps of 5 mV, each
PMBus-controlled one to its nominal voltage. -/
def avsSet (s : State) : State :=
  let fused (m : Smap Nat) : Smap Nat := (List.range 3).foldl (fun m r => Smap.put m r (max 650 (min 900 (Config.fusedAvs r)) / 5 * 5)) m
  s.mapPower fun p => { p with avs := nominalRails.foldl (fun m r => Smap.put m r.1 r.2) (fused p.avs) }

end Sys2Proof.Machine
end

