-- ==== Sys2Proof/Machine/Startup.lean ====
section
/-! DEFINITION. Resets, the pins of the always-on domain, and the stages of start-up (12_memory_tiers R355, R356;
21_power_clocks_startup R651, R654 to R659; 22_electrical_package R663 to R672; 23_register_map R691). -/
namespace Sys2Proof.Machine
open Sys2Proof

/-! ### What a reset leaves (R654, R691) -/

/-- Shards after a reset: what lies in flash, checkpoints and exact vectors, is kept, and the rest is to be rebuilt. -/
def keptShards (s : State) : Smap Shard :=
  s.shards.filterMap fun e => e.2.ckpt.map fun c =>
    (e.1, { newShard e.2.part e.2.index c.desc [] with
      phase := .serving, ckpt := some c, ckptPrev := e.2.ckptPrev, vectors := e.2.vectors, retire := e.2.retire, lost := true })

/-- A journal after a reset: the durable pages are kept. -/
def keptJournal (s : State) (j : Journal) : Journal :=
  { j with pages := [], accepted := j.next, mark := j.next, used := j.used - j.pages.length * flashPage s }

/-- Felt after a reset: the media's contents are kept; identification, training and the map start again. -/
def keptFelt (s : State) : FeltState :=
  let kept := keptShards s
  { FeltState.reset with
    blocks := s.felt.blocks.map fun b => (b.1, { b.2 with reads := 0, refresh := false })
    dies := s.felt.healthTemps.map fun d => (d.1, { Die.initial with maxTemp := d.2.1, maxAt := d.2.2 })
    mapCkpt := s.felt.mapCkpt, sinceCkpt := s.felt.sinceCkpt, wseq := s.felt.wseq, spare0 := s.felt.spare0, spare := s.felt.spare
    limited := s.felt.limited, zones := s.felt.zones.map fun z => (z.1, { z.2 with resetCmd := none }), health := s.felt.health, healthTemps := s.felt.healthTemps
    bare := s.felt.bare, parity := s.felt.parity
    locators := s.felt.locators.filter kept.has }

/-- Units after a reset: IN_SERVICE, or RETIRED where the table in the SPI NOR names them; no reset sets a validity
generation back (R581, R585). -/
def keptUnits (s : State) : Smap UnitRec :=
  (s.ras.units.map fun e => (e.1, { UnitRec.initial with
    vgen := e.2.vgen, st := if s.ras.retired.contains e.1 then SvcSt.retired else .inService })).filter fun e => e.2 != UnitRec.initial

/-- Usnea after a reset that restarts the boot ROM: the SPI NOR is kept, and the black box where the always-on domain is. -/
def keptUsnea (s : State) (cold : Bool) : UsneaState :=
  let u := s.usnea
  { UsneaState.reset with
    dir0 := u.dir0, dir1 := u.dir1, fwA := u.fwA, fwB := u.fwB, imageRegion := u.imageRegion, media := u.media, certs := u.certs
    log := u.log, logNext := u.logNext, erases := u.erases, bbSaved := u.bbSaved, sent := u.sent, mctpSent := u.mctpSent
    blackbox := if cold then [] else u.blackbox, bbNext := if cold then 0 else u.bbNext }

/-- The device after a cold or a warm reset, with the always-on domain as given. -/
def resetDevice (s : State) (cold : Bool) (power : PowerState) : State :=
  { s with
    regs := .reset, img := .reset, lichen := .reset, twill := .reset, own := .reset, shards := keptShards s
    host := { HostState.reset with mem := s.host.mem, msix := s.host.msix }
    epoch := { EpochState.reset with largest := s.epoch.largest, journals := s.epoch.journals.map fun e => (e.1, keptJournal s e.2) }
    model := { ModelState.reset with store := s.model.store }
    mem := { MemState.reset with hardPpr := s.mem.hardPpr, trainStored := s.mem.trainStored }
    felt := keptFelt s
    sec := { SecState.reset with
      slots := s.sec.slots, digests := s.sec.digests, svn := s.sec.svn, rows := s.sec.rows, jtagOff := s.sec.jtagOff
      kek := s.sec.kek, counter := s.sec.counter }
    ras := { RasState.reset with units := keptUnits s, retired := s.ras.retired }
    usnea := keptUsnea s cold
    power := power }

/-- A reset after a trip is reported (R651, R655). -/
def tripReport (s : State) (tripped : Bool) : State := s.eventIf tripped .pwrEvent 0 7

/-! ### Warm and cold resets (R651, R654, R655, R673) -/

/-- The latest trip is less than 10 s old. -/
def freshTrip (s : State) : Bool := s.power.thermtrip && s.power.tripAt.any fun t => decide (rtc s - t < 10 * 2 ^ 26)

/-- A warm reset: the main rails stay up, the counter runs on. -/
def warmReset (s : State) : State :=
  if s.power.held ∨ freshTrip s then s
  else
    let p := s.power
    let tripped := p.thermtrip
    tripReport (resetDevice s false { PowerState.reset with
      stage := .rom, lastReset := if tripped then .warmTrip else .warm, mainEn := p.mainEn, mainOk := p.mainOk, perst := p.perst
      tripAt := if tripped then p.tripAt else none, rtcBase := p.rtcBase, rtcCycles := p.rtcCycles, oscStopped := p.oscStopped, hottest := p.hottest, hot := p.hot
      overvolt := p.overvolt, samples := p.samples } |> fun t => extendMeas t 0 (Config.bootDigest (fuseBytes t))) tripped

/-- PWR_RESET written: only Usnea firmware starts a warm reset with it. -/
def pwrReset (s : State) (req al v : Nat) : State :=
  if !bit v 0 then s
  else if req < 64 then writeError s req 16 0x10 al werrNotPermitted
  else if usneaUp s then warmReset s else s

/-- A warm reset, by a short pulse of RESET_N or by PWR_RESET.WARM. -/
def execWarmReset (req : Nat) (pin : Bool) (s : State) : Out := .next (if pin then warmReset s else pwrReset s req 0 1)

/-- The return of a register block has failed three times: Usnea firmware performs the warm reset (R593). -/
def failedBlock (s : State) (kind u : Nat) : State :=
  if kind = 0x13 ∧ (s.unit kind u).st = .out ∧ (s.unit kind u).tries ≥ 3 ∧ usneaUp s then warmReset s else s

def execUnitFault (kind unit cls addr : Nat) (s : State) : Out := .next (failedBlock (classFault s kind unit cls addr) kind unit)

def execReturnWorkDone (kind unit : Nat) (ok : Bool) (s : State) : Out := .next (failedBlock (returnDone s kind unit ok) kind unit)

/-- A cold reset; the device stays in it while AON_PWROK is low or the 50 MHz clock is lost. -/
def coldReset (s : State) (aonLow lost : Bool) : State :=
  let p := s.power
  tripReport (resetDevice s true { PowerState.reset with
    aonOk := p.aonOk && !aonLow, held := aonLow || lost || !p.aonOk, clockLost := lost, perst := p.perst, oscStopped := p.oscStopped
    tripAt := if p.thermtrip then p.tripAt else none, hottest := p.hottest, hot := p.hot, overvolt := p.overvolt }) p.thermtrip

def execColdReset (aonLow : Bool) (s : State) : Out := .next (coldReset s aonLow s.power.clockLost)

/-- No edge of the 50 MHz clock for 10 µs holds the device in cold reset (R670). -/
def execClockLoss (s : State) : Out := .next (coldReset s false true)

/-- The 50 MHz clock has returned: start-up begins where AON_PWROK is high. -/
def clockReturn (s : State) : State :=
  if s.power.clockLost then s.mapPower fun p => { p with clockLost := false, held := !p.aonOk } else s

def execAlwaysOnClockReturn (s : State) : Out := .next (clockReturn s)

/-! ### Pins (R657, R663 to R666, R672) -/

/-- AON_PWROK rises: the always-on domain starts. -/
def aonRise (s : State) : State :=
  if s.power.aonOk then s else s.mapPower fun p => { p with aonOk := true, held := p.clockLost }

def execAonPwrokRise (s : State) : Out := .next (aonRise s)

/-- MAIN_PWROK rises; where PERST_N is already deasserted, the host link begins to train (R657). -/
def mainRise (s : State) : State :=
  if s.power.mainEn ∧ !s.power.held then s.mapPower fun p => { p with mainOk := true, linkTrains := p.perst } else s

def execMainPwrokRise (s : State) : Out := .next (mainRise s)

/-- MAIN_PWROK falls while MAIN_EN is asserted, alone or together with AON_PWROK. -/
def mainFall (s : State) (aonToo : Bool) : State :=
  if aonToo then coldReset s true s.power.clockLost
  else if !s.power.mainEn then s
  else
    let s := (s.mapPower fun p => { p with mainEn := false, mainOk := false, linkTrains := false, stopped := true }).event .pwrEvent 0 3
    raiseEvent (logAdd s 3 0 0 (natLe 1 1)) 5 (natLe 1 1)

def execMainPwrokFall (aonToo : Bool) (s : State) : Out := .next (mainFall s aonToo)

/-- PERST_N is deasserted: the host link begins to train once MAIN_PWROK is high. -/
def perstRise (s : State) : State := s.mapPower fun p => { p with perst := true, linkTrains := p.mainOk }

def execPerstNDeassert (s : State) : Out := .next (perstRise s)

/-! ### Halting (R656) -/

/-- A stage fails: the device waits for a reset, with a boot record and a firmware event. -/
def haltStart (s : State) (cause : Nat) : State :=
  let s := s.mapPower fun p => { p with stage := .halted, halt := cause }
  raiseEvent (boxAdd (logAdd s 4 0 0 (natLe 1 cause)) 3 (natLe 1 cause)) 5 (natLe 1 cause)

/-- Causes with which a stage may halt. -/
def haltCauses : Stage → List Nat
  | .aon => [1] | .firstStage => [2] | .runtime => [3] | .mainPower => [3, 4, 5] | .memory => [6, 7] | _ => []

/-! ### DDR training (R355, R356) -/

/-- Every channel has trained: DDR_ORG is valid, recorded hard repairs of a cold start are done, and the results are kept. -/
def ddrTrained (s : State) (org : Nat) : State :=
  if (List.range 16).all fun c => bit (s.ro .ddrCState c).toNat 0 then
    fwToT3 ((s.setRo .ddrOrg 0 (BitVec.ofNat 32 (org % 2 ^ 14))).mapMem (fun m => { m with
      ddrGib := 16 * bits org 6 8, trainStored := true, hardPpr := if s.power.lastReset = .cold then [] else m.hardPpr }) |>.mapPower fun p =>
        { p with memDone := addSet p.memDone 0 })
  else s

/-- A training attempt of a channel ends; a channel is trained again up to three times. -/
def ddrTraining (s : State) (ch : Nat) (ok : Bool) (org : Nat) : State :=
  if s.power.stage ≠ .memory ∨ ch ≥ 16 ∨ bit (s.ro .ddrCState ch).toNat 0 then s
  else if ok then ddrTrained (s.setRo .ddrCState ch (BitVec.ofNat 32 (setBits (s.ro .ddrCState ch).toNat 0 1 1))) org
  else
    let n := s.mem.trainTries.getD ch 0 + 1
    let s := s.mapMem fun m => { m with trainTries := m.trainTries.put ch n }
    if n > 3 then haltStart (s.event .ddrEvent 0 4) 6 else s

def execDdrTraining (ch : Nat) (ok : Bool) (org : Nat) (s : State) : Out := .next (ddrTraining s ch ok org)

/-! ### The stages (R656) -/

/-- The next stage begins. -/
def toStage (s : State) (t : Stage) : State := s.mapPower fun p => { p with stage := t }

/-- The boot ROM starts the ACTIVE copy, else the other one, else it fetches firmware over the network (R615, R616). -/
def bootRom (s : State) : State :=
  let d := norDir s
  let copy (b : Bool) : List Byte := fwImageAt (if b then s.usnea.fwB else s.usnea.fwA)
  let good (b : Bool) : Bool := !d.netboot && fwValid s (copy b)
  if good d.activeB then toStage (fwStart s (copy d.activeB) d.activeB false) .firstStage
  else if good (!d.activeB) then (toStage (fwStart s (copy (!d.activeB)) (!d.activeB) false) .firstStage).event .secEvent 0 6
  else s.mapUsnea fun u => { u with netTrying := true }

/-- Usnea stages the image that the IMAGE region holds; its length stands in its header (R658). -/
def stageRegion (s : State) : State :=
  match norRegion s 3 with
  | none => s
  | some r =>
    let n := field s.usnea.imageRegion 0x28 4
    if field s.usnea.imageRegion 0 4 = 0x4B4C504E ∧ n ≤ min r.2 16777216 then imgStageBytes s (norImageBytes s r.1 n) else s

/-- A full image is pending: the one with the highest SEQ is staged into the domains, and its keys are loaded (R658, R659). -/
def takeStart (s : State) : State :=
  let at_ (k : Nat) : Option (Nat × ImgSlot) := (getSlot s k).bind fun x => if x.phase == .pending then some (k, x) else none
  let best := match at_ 0, at_ 1 with
    | some a, some b => if a.2.seq ≥ b.2.seq then some a else some b
    | some a, none => some a
    | none, b => b
  match best with
  | none => s
  | some b => toStage ((s.mapSec fun x => { x with keys := b.2.keys }).mapPower fun p => { p with startSlot := some b.1 }) .rebuild

/-- The stage in progress has done its work, as far as its own conditions let it. -/
def stageDone (s : State) : State :=
  match s.power.stage with
  | .aon => toStage (extendMeas s 0 (Config.bootDigest (fuseBytes s))) .rom
  | .rom => if s.usnea.netTrying then s else bootRom s
  | .firstStage => toStage (runtimeStart (measureRuntime s)) .runtime
  | .runtime =>
    if s.power.badRegs.isEmpty then toStage ((avsSet s).mapPower fun p => { p with mainEn := true }) .mainPower else haltStart s 3
  | .mainPower =>
    if !s.power.mainOk then s
    else if s.power.tripAt.isSome ∧ s.power.hottest ≥ 1680 then haltStart s 5
    else toStage s .memory
  | .memory =>
    if !(s.power.memDone.contains 0 && s.power.memDone.contains 2) then s
    else if !(s.felt.dies.any fun d => d.2.used) then haltStart s 7
    else stageRegion (toStage s .media)
  | .media => if s.felt.ready then toStage s .imageWait else s
  | .imageWait => takeStart s
  | .rebuild | .running | .halted => s

/-- A stage completes and the next begins, or start-up halts with a cause; nothing happens while the device is held in reset
or its data path has stopped. -/
def startupStage (s : State) (o : StageOutcome) : State :=
  if s.power.held ∨ s.power.stopped then s
  else match o with
    | .done => stageDone s
    | .failed c => if (haltCauses s.power.stage).contains c then haltStart s c else s

def execStartupStage (outcome : StageOutcome) (s : State) : Out := .next (startupStage s outcome)

end Sys2Proof.Machine
end

