-- ==== Sys2Proof/Machine/RegView.lean ====
section
/-! DEFINITION. What every BAR0 register reads as in a requester's view: the status that a register derives from the rest of
the state, and the copies, counters and events that the register file holds (register sections of 02_structure_images,
06_search_walk to 17_host_queues, 19_faults_recovery to 21_power_clocks_startup; 23_register_map R682 to R686). -/
namespace Sys2Proof.Machine
open Sys2Proof

/-! ### Requesters (R64, R67, R89) -/

/-- The requester is a virtual function; 0 is the physical function, 64 and above Usnea firmware. -/
def isVf (req : Nat) : Bool := decide (0 < req) && decide (req < 64)

/-- Function whose per-function registers a requester reaches: Usnea firmware those of the physical function. -/
def reqFn (req : Nat) : Nat := if req < 64 then req else 0

/-- Blocks absent from a virtual function's view. -/
def vfAbsent : List Nat := [1, 5, 8, 10, 12, 13, 14, 16, 17]

/-- A block shows in a requester's view. -/
def blockSeen (req b : Nat) : Bool := !(isVf req && vfAbsent.contains b)

/-- Low word of a pair. -/
def loWord (n : Nat) : W32 := BitVec.ofNat 32 n
/-- High word of a pair. -/
def hiWord (n : Nat) : W32 := BitVec.ofNat 32 (n / 2 ^ 32)

/-- Low eight bits of a unit's validity generation, in [31:24]. -/
def vgenField (s : State) (kind u : Nat) : Nat := (s.unit kind u).vgen.toNat % 256 * 2 ^ 24

/-! ### GLB (R682 to R686) and IMG -/

/-- PWR_BOOT.STAGE (R656). -/
def stageCode : Stage → Nat
  | .aon => 0 | .rom => 1 | .firstStage => 2 | .runtime => 3 | .mainPower => 4 | .memory => 5 | .media => 6
  | .imageWait => 7 | .rebuild => 8 | .running => 9 | .halted => 15

/-- GLB_STATUS; four bits read zero in a virtual function's view (R684). -/
def glbStatus (s : State) (req : Nat) : Nat :=
  let degraded := s.ras.units.any fun e => e.2.st == .out || e.2.st == .returning || e.2.st == .waiting || e.2.st == .retired
  let n (b : Bool) : Nat := b2n (b && !isVf req)
  stageCode s.power.stage + 16 * b2n (s.epoch.cur != 0) + 32 * n (!(pendingSlots s).isEmpty) + 64 * n degraded +
    128 * n (powerThrottled s || tempThrottled s) + 256 * b2n s.felt.limited + 512 * n s.usnea.running

/-- One bit of each block. -/
def blockBits (f : Nat → Bool) : W32 := BitVec.ofNat 32 ((List.range 18).foldl (fun n b => n + 2 ^ b * b2n (f b)) 0)

/-- A sequence-clear register instance shows in a requester's view, with its events. -/
def sqcSeen (req : Nat) (r : Reg) (u : Nat) : Bool :=
  if r = .hqEvent then u == reqFn req
  else !isVf req || (r.row.view == .present && r != .blkFault && r != .glbUpdStatus) || (r.row.view == .own && u == req)

/-- Block of a sequence-clear register instance. -/
def sqcBlock (r : Reg) (u : Nat) : Nat := if r = .blkFault then u else r.row.block

/-- Bit of a block in GLB_EVENT_SUM (R685). -/
def blockEvent (s : State) (req b : Nat) : Bool :=
  blockSeen req b && ((s.regs.werr.getD (werrKey req b) SqcCell.clear).ev != 0 ||
    s.regs.sqc.any fun e => e.2.ev != 0 && (match regOfKey e.1 with
      | some r => sqcSeen req r (e.1 % 262144) && sqcBlock r (e.1 % 262144) == b
      | none => false))

/-- xxx_FAULT.UNIT_FENCED. -/
def blockUnitFenced (s : State) (b : Nat) : Bool := s.regs.fencedUnits.any fun k => k / 65536 == b

/-- GLB. -/
def viewGlb (s : State) (req : Nat) (r : Reg) : Option W32 :=
  match r with
  | .glbId => some 0x1B648002
  | .glbUidLo => some (loWord Config.deviceUid.toNat)
  | .glbUidHi => some (hiWord Config.deviceUid.toNat)
  | .glbPart => some (BitVec.ofNat 32 (reqFn req + 64 * partCode s (reqFn req) + 512 * b2n (!isVf req)))
  | .glbEpochLo => some (loWord s.epoch.cur)
  | .glbEpochHi => some (hiWord s.epoch.cur)
  | .glbStatus => some (BitVec.ofNat 32 (glbStatus s req))
  | .glbUpdStatus => some (if isVf req then 0 else
      sqcWord (s.sqc .glbUpdStatus 0) ||| BitVec.ofNat 32 (b2n (s.regs.updNow.isSome || s.regs.updNext.isSome || s.regs.updEpoch.isSome)))
  | .glbEventSum => some (blockBits (blockEvent s req))
  | .glbFaultSum => some (blockBits fun b => blockSeen req b && (s.regs.fencedBlocks.contains b || blockUnitFenced s b))
  | .glbWerrSum => some (blockBits fun b => blockSeen req b && (s.regs.werr.getD (werrKey req b) SqcCell.clear).ev.getLsbD 0)
  | _ => none

/-- Target epoch of a pending slot. -/
def pendEpoch (x : Option ImgSlot) : Nat := ((x.filter fun y => y.phase == .pending).map (·.target)).getD 0

/-- IMG. -/
def viewImg (s : State) (r : Reg) : Option W32 :=
  match r with
  | .imgStatus => some (sqcWord (s.sqc .imgStatus 0) ||| BitVec.ofNat 32 (s.img.reqState % 16 * 256))
  | .imgActiveSeqLo => some (loWord s.img.activeSeq)
  | .imgActiveSeqHi => some (hiWord s.img.activeSeq)
  | .imgPend0EpochLo => some (loWord (pendEpoch s.img.slot0))
  | .imgPend0EpochHi => some (hiWord (pendEpoch s.img.slot0))
  | .imgPend1EpochLo => some (loWord (pendEpoch s.img.slot1))
  | .imgPend1EpochHi => some (hiWord (pendEpoch s.img.slot1))
  | .imgMissedDomains => some (BitVec.ofNat 32 (min 255 s.img.missedCount))
  | _ => none

/-! ### HQ -/

/-- Code of a queue pair state (R508). -/
def qpCode : QpSt → Nat
  | .disabled => 0 | .active => 1 | .stopping => 2 | .failed => 3

/-- Registers of the HQ_QP window that a queue pair's state gives. -/
def viewQp (s : State) (r : Reg) (d : Nat) : Option W32 :=
  let q := s.qp d
  match r with
  | .hqQpState => some (BitVec.ofNat 32
      (qpCode q.st + 4 * b2n q.reenable + 8 * b2n q.phase + 16 * (q.cause % 16) + 256 * b2n ((qpPart s d).isSome && localQp s d == 0)))
  | .hqQpSqptrs => some (BitVec.ofNat 32 (q.sqHead + 65536 * q.sqTail))
  | .hqQpCqptrs => some (BitVec.ofNat 32 (q.cqTail + 65536 * q.cqHead))
  | .hqQpImg => some (BitVec.ofNat 32 (((queueRange s.img.cfg d).map (·.quantum)).getD 0 % 65536 + 65536 * (qpPart s d).getD 0))
  | .hqQpDepthSample => some q.depthSample
  | .hqQpDelaySample => some (BitVec.ofNat 32 (q.delaySample % 2 ^ 24))
  | .hqQpCredit => some (BitVec.ofInt 32 q.credit)
  | .hqQpAdmitted => some q.admitted
  | .hqQpCompleted => some q.completed
  | _ => none

/-- HQ. -/
def viewHq (s : State) (r : Reg) (u : Nat) : Option W32 :=
  match r with
  | .hqFnInfo => some (BitVec.ofNat 32 (nqp s.img.cfg u + 32768 * u))
  | .hqFnOutstanding => some (BitVec.ofNat 32 (s.host.cmds.filter fun e => e.2.fn == u && e.2.qp.isSome).length)
  | .hqLink => some s.host.link
  | _ => viewQp s r u

/-! ### PLN, WLK, LCH, MSL, EPC, BRK -/

/-- Walker contexts that pass a test. -/
def contexts (s : State) (p : Query → Bool) : Nat := (s.host.queries.filter fun e => e.2.tile.isSome && p e.2).length

/-- WLK. -/
def viewWlk (s : State) (r : Reg) (u : Nat) : Option W32 :=
  match r with
  | .wlkActive => some (BitVec.ofNat 32 (contexts s fun q => q.part == u))
  | .wlkTState => some (BitVec.ofNat 32
      (contexts s (fun q => q.tile == some u) + 65536 * b2n (s.fencedUnit 0x01 u) + vgenField s 0x01 u))
  | _ => none

/-- VALID query slots of a stack, which every bank of it holds alike. -/
def validSlots (s : State) (st : Nat) : Nat := (s.lichen.qslots.filter fun e => e.1 / 32 == st && field e.2 0x81 1 % 2 == 1).length

/-- LCH. -/
def viewLch (s : State) (r : Reg) (u : Nat) : Option W32 :=
  match r with
  | .lchSState =>
    let k := s.stack u
    some (BitVec.ofNat 32 (b2n (s.fencedUnit 0x08 u) + 2 * b2n (!k.batches.isEmpty) + 4 * k.damage.length + vgenField s 0x08 u))
  | .lchBState =>
    let f := s.fencedUnit 0x07 u
    some (BitVec.ofNat 32 (b2n f + 2 * b2n (f && !s.fencedUnit 0x08 (u / 1024)) + 4 * validSlots s (u / 1024)))
  | .lchBWaitMax => some (BitVec.ofNat 32
      (max (s.reg .lchBWaitMax u).toNat (Config.timingCount (regKey .lchBWaitMax u) s.free % 65536)))
  | _ => none

/-- MSL. -/
def viewMsl (s : State) (r : Reg) (u : Nat) : Option W32 :=
  match r with
  | .mslPLists => some (BitVec.ofNat 32 (s.host.queries.foldl (fun n e =>
      if e.2.part = u ∧ e.2.tile.isSome then n + (if e.2.kind = .insert then 1 else 2) else n) 0))
  | .mslUState =>
    let kind := if u < 16 then 0x04 else 0x05
    let v := if u < 16 then u else u - 16
    some (BitVec.ofNat 32 (b2n (s.fencedUnit kind v) + 2 * b2n (u < 16 && s.fencedUnit 0x04 (u ^^^ 1) && !s.fencedUnit 0x04 u) +
      vgenField s kind v))
  | _ => none

/-- Epochs in the retained set of a partition. -/
def retainedCount (s : State) (p : Nat) : Nat :=
  let last := (List.range 16).filterMap fun a => if a < s.epoch.cur then some (s.epoch.cur - a) else none
  ((pinned s p).foldl addSet last |>.filter (retained s p)).length

/-- EPC. -/
def viewEpc (s : State) (r : Reg) (u : Nat) : Option W32 :=
  match r with
  | .epcEpochLo => some (loWord s.epoch.cur)
  | .epcEpochHi => some (hiWord s.epoch.cur)
  | .epcLen => some (BitVec.ofNat 32 s.epoch.len)
  | .epcPCurLo => some (loWord s.epoch.cur)
  | .epcPCurHi => some (hiWord s.epoch.cur)
  | .epcPOldestLo => some (loWord (oldestInUse s u))
  | .epcPOldestHi => some (hiWord (oldestInUse s u))
  | .epcPRetain => some (BitVec.ofNat 32 (retainedCount s u + 32 * (pinned s u).length))
  | .epcPFresh => some (BitVec.ofNat 32
      (s.shards.foldl (fun n e => if e.2.part = u then n + (e.2.ringNext - e.2.settled) else n) 0 % 2 ^ 29))
  | _ => none

/-- Tensor cores of a cluster that are fenced, as a mask. -/
def fencedCores (s : State) (c : Nat) : Nat :=
  (List.range 16).foldl (fun n i => n + 2 ^ i * b2n (s.fencedUnit 0x03 (16 * c + i))) 0

/-- BRK. -/
def viewBrk (s : State) (r : Reg) (u : Nat) : Option W32 :=
  match r with
  | .brkCState =>
    let o := if s.img.applied then ownerRole s 2 u else (0x7F, 0)
    let cores := ((List.range 16).filter fun i => !s.fencedUnit 0x03 (16 * u + i)).length
    some (BitVec.ofNat 32 (b2n (s.fencedUnit 0x02 u) + 2 * b2n (s.model.batches.any fun b => b.cluster == some u) + 4 * (o.2 % 4) +
      16 * (o.1 % 128) + 2048 * cores + vgenField s 0x02 u))
  | .brkCFencedCores => some (BitVec.ofNat 32 (fencedCores s u))
  | _ => none

/-! ### MEM, DDR, FLT -/

/-- Code of a Sheet unit's use. -/
def sheetCode : SheetUse → Nat
  | .shared => 0 | .weight => 1 | .cache => 2 | .scratch => 3

/-- The copy in force of an image-owned register instance: the image's value, or the stored bits after an upset (R82). -/
def imageCopy (s : State) (r : Reg) (u v : Nat) : W32 := ((s.regs.force.get (regKey r u)).map RegCopy.val).getD (BitVec.ofNat 32 v)

/-- MEM; a rate that an image owns reads as the value in force, never as the one held (R56, R690). -/
def viewMem (s : State) (r : Reg) (u : Nat) : Option W32 :=
  match r with
  | .memReserve => some (if s.mem.ddrGib = 0 then 0 else
      BitVec.ofNat 32 (s.mem.ddrGib - s.mem.cxlGib - 1 + 2048 * (s.mem.cxlGib + 1)))
  | .memCxl => some (BitVec.ofNat 32 (s.mem.cxlGib + 512 * b2n (s.mem.cxlGib != 0) + 1024 * b2n s.mem.cxlDecoded))
  | .memSUnit =>
    let x := s.mem.sheet.getD u ⟨.shared, 0x7E⟩
    some (BitVec.ofNat 32 (sheetCode x.use + 4 * (x.owner % 128) + 512 * (u % 24) + 16384 * b2n (s.fencedUnit 0x06 (u % 24))))
  | .memPGuar => some (imageCopy s r u (cfgRegulator s.img.cfg (u / 8) (u % 8)).1)
  | .memPCeil => some (imageCopy s r u (cfgRegulator s.img.cfg (u / 8) (u % 8)).2.1)
  | .memPDepth => some (imageCopy s r u (cfgRegulator s.img.cfg (u / 8) (u % 8)).2.2)
  | .memPRate => some (BitVec.ofNat 32 (s.mem.rate.getD (6 * (u / 8) + u % 8) 0 % 2 ^ 24))
  | .memPSheet => some (BitVec.ofNat 32 ((sheetOf s u .cache).length + 256 * (sheetOf s u .scratch).length + 32768 * pagesUsed s u))
  | _ => none

/-- DDR. -/
def viewDdr (s : State) (r : Reg) (u : Nat) : Option W32 :=
  match r with
  | .ddrCState => some (BitVec.ofNat 32
      (setBits (s.ro .ddrCState u).toNat 1 1 (b2n (s.fencedUnit 0x09 u)) + vgenField s 0x09 u))
  | _ => none

/-- FLT. -/
def viewFlt (s : State) (r : Reg) (u : Nat) : Option W32 :=
  let f := s.felt
  match r with
  | .fltState => some (BitVec.ofNat 32 (b2n f.ready + 2 * b2n (f.iface == .toggle) + 4 * (f.rate % 4) + 16 * b2n f.limited +
      32 * (mdBpc f.desc % 8) + 256 * (f.dies.filter fun d => d.2.used).length))
  | .fltCapGib => some (BitVec.ofNat 32 (fltUserGib s % 2 ^ 20))
  | .fltFastGib => some (BitVec.ofNat 32 (fastGib s % 2 ^ 20))
  | .fltSpare => some (BitVec.ofNat 32 (sparePercent s % 256 + 256 * f.spare))
  | .fltWear => some (BitVec.ofNat 32 (min 65535 (meanPe s) + 65536 * min 65535 (maxPe s none false)))
  | .fltCState => some (BitVec.ofNat 32 (b2n (f.trained.has u) + 2 * b2n (s.fencedUnit 0x0A u) + 4 * (f.trained.getD u 0 % 4) +
      vgenField s 0x0A u))
  | .fltCBytes => some (BitVec.ofNat 32 (f.chBytes.getD u 0 / 1024))
  | .fltDState => some (BitVec.ofNat 32 (b2n (s.die u).used + 2 * b2n (s.fencedUnit 0x0B u) + 4 * b2n (s.die u).hot))
  | .fltDPe => some (BitVec.ofNat 32 (min 65535 (maxPe s (some u) false) + 65536 * min 65535 (maxPe s (some u) true / 10)))
  | .fltDTemp =>
    let d := s.die u
    some (BitVec.ofNat 32 (ofSigned 8 d.temp + 256 * (if d.maxTemp = -128 then 0 else ofSigned 8 d.maxTemp)))
  | .fltPUsedGib => some (BitVec.ofNat 32
      (ceilDiv (4096 * (f.map.filter fun e => laddrSpace e.1 == 0 && laddrPart e.1 == u).length) (2 ^ 30) % 2 ^ 20))
  | .fltPJournal => some (BitVec.ofNat 32 (ceilDiv (s.epoch.journals.getD u Journal.empty).used (64 * 2 ^ 20) % 65536))
  | .fltPZones => some (BitVec.ofNat 32 (zoneCount s u % 2 ^ 24 + 2 ^ 24 * b2n (hostMode s u 0)))
  | _ => none

/-! ### TWL, OWN, SEC -/

/-- A lane map, three bits a lane. -/
def lanesWord (l : List Nat) : Nat := (l.zipIdx.foldl (fun n x => n + 8 ^ x.2 * (x.1 % 8)) 0) % 4096

/-- TWL. -/
def viewTwl (s : State) (r : Reg) (u : Nat) : Option W32 :=
  let p := s.port u
  match r with
  | .twlNode => some (BitVec.ofNat 32 (nodeId s))
  | .twlRtCount => some (BitVec.ofNat 32
      (s.regs.force.filter fun e => isRoute e.1 && e.1 % 2 == 1 && bits e.2.val.toNat 2 12 != 0).length)
  | .twlReqOut => some (BitVec.ofNat 32 (s.twill.out.length % 2 ^ 24))
  | .twlPState => some (BitVec.ofNat 32
      (portCode p.st + 16 * p.width + 128 * (p.spare.getD 7) + 1024 * ((p.failed.foldl addSet []).foldl (fun n i => n + 2 ^ i) 0 % 32) +
        32768 * b2n (p.swapRx.isSome || p.mirror.isSome) + 65536 * b2n (portFenced s u) + vgenField s 0x0C u))
  | .twlPPeer => some (match p.peer with
      | some x => BitVec.ofNat 32 (x.1 % 2 ^ 17 + 2 ^ 17 * (x.2.1 % 16) + 2 ^ 21 * b2n p.peerValid)
      | none => BitVec.ofNat 32 (2 ^ 21 * b2n p.peerValid))
  | .twlPLmap => some (BitVec.ofNat 32 (lanesWord p.rx + 4096 * lanesWord p.tx))
  | _ => none

/-- Code of a token state (R461). -/
def tokenCode : Token → Nat
  | .none => 0 | .held => 1 | .offered => 2 | .accepted => 3 | .confirmed => 4 | .claiming => 5

/-- Fuse rows left of a kind, in a field of six bits; what it shows for 64 is open (R496). -/
def rowsLeft (s : State) (k : Nat) : Nat :=
  let n := 64 - s.sec.rows.getD k 0
  if n = 64 then Config.allRowsLeft k % 64 else n

/-- SEC. -/
def viewSec (s : State) (r : Reg) (u : Nat) : Option W32 :=
  let k := s.sec.rekey.get u
  match r with
  | .secViolInfo => some s.sec.violInfo
  | .secFuse => some (BitVec.ofNat 32 (slotStates s + 256 * ((List.range 4).foldl (fun n i => n + 2 ^ i * b2n (s.sec.kek.has i)) 0) +
      4096 * b2n s.sec.jtagOff + 2 ^ 13 * rowsLeft s 1 + 2 ^ 19 * rowsLeft s 2 + 2 ^ 25 * rowsLeft s 3))
  | .secSvnImage => some (BitVec.ofNat 32 (s.sec.svn.getD 1 0))
  | .secSvnModel => some (BitVec.ofNat 32 (s.sec.svn.getD 2 0))
  | .secSvnFw => some (BitVec.ofNat 32 (s.sec.svn.getD 3 0))
  | .secPKeygen => some (BitVec.ofNat 32 (((s.sec.keys.get u).map (·.gen)).getD 0))
  | .secPRekey =>
    let gen := ((s.sec.keys.get u).map (·.gen)).getD 0
    let j := s.epoch.journals.getD u Journal.empty
    some (BitVec.ofNat 32 (b2n (k.any (·.t3Active)) + 2 * b2n (k.any (·.t5Active)) +
      4 * b2n ((j.durable ++ j.pages).any fun p => p.keyGen != gen)))
  | .secPRekeyAddrLo => some (loWord ((k.map (·.mark)).getD 0))
  | .secPRekeyAddrHi => some (hiWord ((k.map (·.mark)).getD 0))
  | _ => none

/-! ### RAS, PWR, MGT -/

/-- RAS_U_STATE. -/
def unitWord (x : UnitRec) : Nat :=
  svcCode x.st + 8 * b2n x.reenable + 16 * (x.tries % 4) + 256 * (x.lastClass % 256) + 65536 * (x.standin.getD 0x1FFF % 8192)

/-- LSEQ of the oldest record in a ledger's ring. -/
def ledgerOldest (l : Ledger) : Nat := (l.recs.head?.map (·.lseq)).getD l.next

/-- RAS. -/
def viewRas (s : State) (r : Reg) (u : Nat) : Option W32 :=
  match r with
  | .rasCmdStatus => some (BitVec.ofNat 32 (b2n (rasBusy s) + 2 * s.ras.result + 8 * s.ras.kind + 256 * s.ras.unit))
  | .rasUState => some (BitVec.ofNat 32 (unitWord (s.unit (u / 8192) (u % 8192))))
  | .rasUVgen => some (s.unit (u / 8192) (u % 8192)).vgen
  | .rasUFaults => some (BitVec.ofNat 32 (s.unit (u / 8192) (u % 8192)).faults)
  | .rasDState => some (BitVec.ofNat 32 (svcCode (s.unit 0x12 u).st + 8 * b2n (s.epoch.missed.contains u) +
      16 * b2n (s.regs.updMissed.contains u) + 32 * b2n ((s.dom u).st == .gated) + vgenField s 0x12 u))
  | .rasPLedgerNextLo => some (loWord (s.ledger u).next)
  | .rasPLedgerNextHi => some (hiWord (s.ledger u).next)
  | .rasPLedgerOldestLo => some (loWord (ledgerOldest (s.ledger u)))
  | .rasPLedgerOldestHi => some (hiWord (ledgerOldest (s.ledger u)))
  | _ => none

/-- PWR_D_STATE. -/
def domWord (s : State) (d : Nat) : Nat :=
  (match (s.dom d).st with
    | .run => 0 | .gated => 1 | .off => 2) + 4 * (domMhz s d % 4096) + 16384 * b2n (domMhz s d < domMax d)

/-- PWR. -/
def viewPwr (s : State) (r : Reg) (u : Nat) : Option W32 :=
  match r with
  | .pwrStatus => some (BitVec.ofNat 32 ((if s.img.applied then limitW s else 0) % 1024 + 1024 * (s.power.powerW % 1024) +
      2 ^ 20 * b2n (powerThrottled s) + 2 ^ 21 * b2n (tempThrottled s) + 2 ^ 22 * b2n (hostPolicy s) +
      2 ^ 24 * ofSigned 8 (s.power.hottest / 16)))
  | .pwrBoot => some (BitVec.ofNat 32 (stageCode s.power.stage + 16 * (s.power.halt % 16) + 256 * (match s.power.lastReset with
      | .cold => 0 | .warm => 1 | .warmTrip => 2)))
  | .pwrRtcLo => some (loWord (rtc s))
  | .pwrRtcHi => some (hiWord (rtc s))
  | .pwrHwLimit => some (BitVec.ofNat 32 (105 + 256 * 115 + 65536 * 800))
  | .pwrDState => some (BitVec.ofNat 32 (domWord s u))
  | .pwrDWakes => some (s.dom u).wakes
  | _ => none

/-- A sensor's reading exceeds its threshold: temperatures are signed, voltages unsigned (R620). -/
def sensorHigh (s : State) (k : Nat) (v : BitVec 16) : Bool :=
  let t := (s.reg .mgtSAlarm k).toNat
  if k < 96 then decide (v.toInt > toSigned 16 t) else decide (v.toNat > t % 65536)

/-- MGT. -/
def viewMgt (s : State) (r : Reg) (u : Nat) : Option W32 :=
  let m := s.usnea
  match r with
  | .mgtStatus => some (BitVec.ofNat 32 (b2n m.running + 2 * b2n (m.copyB && !m.netbooted) + 4 * b2n m.trialRun + 8 * b2n m.netbooted +
      16 * b2n m.netUp + 256 * m.restarts.toNat + 65536 * m.sessions.length + 2 ^ 21 * m.subs.length))
  | .mgtFwVersion => some m.fwVersion
  | .mgtFwSvn => some m.fwSvn
  | .mgtMbxStatus => some (BitVec.ofNat 32 (b2n m.mbxBusy))
  | .mgtPtmSeq => some m.ptmSeq
  | .mgtPtmRtcLo => some (loWord m.ptmRtc.toNat)
  | .mgtPtmRtcHi => some (hiWord m.ptmRtc.toNat)
  | .mgtPtmNsLo => some (loWord m.ptmNs.toNat)
  | .mgtPtmNsHi => some (hiWord m.ptmNs.toNat)
  | .mgtLogNextLo => some (loWord m.logNext)
  | .mgtLogNextHi => some (hiWord m.logNext)
  | .mgtLogWear => some (BitVec.ofNat 32 (min (2 ^ 24 - 1) (m.erases.foldl (fun n e => max n e.2) 0)))
  | .mgtSValue => some (match m.sensors.get u with
      | some v => BitVec.ofNat 32 (v.toNat + 65536 + 2 ^ 17 * b2n (sensorHigh s u v))
      | none => 0)
  | _ => none

/-! ### Every register -/

/-- Registers that count time or what no command drives: each read of one is a free value. -/
def timingRegs : List Reg := [.wlkTIdle, .brkCBusy, .twlPCorr, .twlPUncorr, .twlPLerr, .lchBWaitMax]

/-- What a register holds that nothing else in the state gives. -/
def plainView (s : State) (r : Reg) (u : Nat) : W32 :=
  match r.row.acc with
  | .rw => s.reg r u
  | .sh => s.reg r u
  | .ro => if timingRegs.contains r then BitVec.ofNat 32 (Config.timingCount (regKey r u) s.free) else s.ro r u
  | .sqc => sqcWord (s.sqc r u)
  | .wo => 0
  | .ind => 0

/-- What a read of a register instance returns at its base address. -/
def regView (s : State) (req : Nat) (r : Reg) (u : Nat) : W32 :=
  (match r.row.block with
    | 0 => viewGlb s req r
    | 1 => viewImg s r
    | 2 => viewHq s r u
    | 4 => viewWlk s r u
    | 5 => viewLch s r u
    | 6 => viewMsl s r u
    | 7 => viewEpc s r u
    | 8 => viewBrk s r u
    | 9 => viewMem s r u
    | 10 => viewDdr s r u
    | 11 => viewFlt s r u
    | 12 => viewTwl s r u
    | 14 => viewSec s r u
    | 15 => viewRas s r u
    | 16 => viewPwr s r u
    | 17 => viewMgt s r u
    | 13 => if r = Reg.ownCmdStatus then some (BitVec.ofNat 32 s.own.cmdStatus) else none
    | _ => none).getD (plainView s r u)

/-- The common registers of a block, by place from offset 0x3FF00 (R67, R686). -/
def commonView (s : State) (req b i : Nat) : W32 :=
  match i with
  | 0 => BitVec.ofNat 32 (b + 256 * 2)
  | 1 => sqcWord (s.regs.werr.getD (werrKey req b) SqcCell.clear)
  | 2 => match s.regs.werrInfo.get (werrKey req b) with
    | some w => BitVec.ofNat 32 (w.offset % 2 ^ 18 + 2 ^ 18 * (w.alias_ % 4) + 2 ^ 20 * (w.cause % 16) + 2 ^ 24 * (w.fn % 128))
    | none => 0
  | 3 =>
    (if isVf req then 0 else sqcWord (s.sqc .blkFault b)) |||
      BitVec.ofNat 32 (2 * b2n (s.regs.fencedBlocks.contains b) + 4 * b2n (blockUnitFenced s b))
  | _ => if isVf req then 0 else s.regs.parityInfo.getD b (BitVec.ofNat 32 (0xFFF * 2 ^ 18))

/-! ### Registers of the windows that are no register instances -/

/-- Word of a selectivity histogram record (R178): partition, index, age, word; none where there is no histogram. -/
def histWord (s : State) (p i age w : Nat) : Option W32 :=
  if age > s.epoch.cur ∨ w > 2307 ∨ !retained s p (s.epoch.cur - age) then none
  else
    let e := s.epoch.cur - age
    ((shardOf s p i).bind fun sh => sh.frozen.get e).map fun h =>
      BitVec.ofNat 32 (match w with
        | 0 => e
        | 1 => e / 2 ^ 32 % 65536 + 65536 * b2n h.host + 131072 * b2n h.reused
        | 2 => h.nLive
        | 3 => 0
        | _ => h.words.getD w 0)

/-- Word of a composition record: the staging copy, or the copy in force (R445, R447). -/
def compWord (s : State) (c w : Nat) (force : Bool) : W32 :=
  let k := s.own.comps.get c
  if w = 6 then loWord ((k.map (·.bound)).getD 0)
  else if w = 7 then hiWord ((k.map (·.bound)).getD 0)
  else if force then BitVec.ofNat 32 ((k.map fun x => x.now.words.getD w 0).getD 0)
  else s.own.stageRec.getD (8 * c + w) 0

/-- Entry of the segment table in force, with its composition. -/
def segInForce (s : State) (n : Nat) : Option (Nat × Nat) :=
  s.own.comps.findSome? fun e =>
    let f := genFirst e.2.now
    if f ≤ n ∧ genValid e.2.now then (e.2.now.entries[n - f]?).map fun x => (e.1, x) else none

/-- Word of a segment table entry, or of its ledger entry (R446, R461). -/
def segWord (s : State) (n w : Nat) (force : Bool) : W32 :=
  let e := (segInForce s n).map (·.2)
  let t := ((segKey s n).map s.token).getD LedgerEnt.initial
  match w with
  | 0 => if force then loWord (e.getD 0) else s.own.stageSeg.getD (2 * n) 0
  | 1 => if force then hiWord (e.getD 0) else s.own.stageSeg.getD (2 * n + 1) 0
  | 2 => BitVec.ofNat 32 (tokenCode t.st + 8 * (t.peer.getD 0x1FFFF % 2 ^ 17))
  | _ => BitVec.ofNat 32 t.tgen

/-- Word of a measurement register (R495). -/
def measWord (s : State) (m w : Nat) : W32 := BitVec.ofNat 32 (field (measOf s m) (4 * w) 4)

/-- Word of a record of the device fault ring (R600); a record never written reads zero. -/
def faultRingWord (s : State) (n w : Nat) : W32 :=
  ((s.ras.ring.get n).map fun r => BitVec.ofNat 32 (field (lrecBytes r) (4 * w) 4)).getD 0

end Sys2Proof.Machine
end

