-- ==== Sys2Proof/Machine/RegAccess.lean ====
section
/-! DEFINITION. Where a BAR0 address leads: direct registers, the common registers, the mailbox, and the indirect windows with
their strides; and what a read returns (03_register_conventions R62 to R66, R72, R87 to R90, and each block's window layouts). -/
namespace Sys2Proof.Machine
open Sys2Proof

/-! ### Addresses (R62 to R64) -/

/-- What stands at a block offset. -/
inductive RegTgt where
  | unmapped
  | common (i : Nat)
  | reg (r : Reg) (u : Nat)
  | window (a : Reg)
  | mbxReq (i : Nat)
  | mbxRsp (i : Nat)
  deriving DecidableEq, Repr

/-- The copy of a per-requester or per-function register that a requester reaches (R89). -/
def regInst (req : Nat) (r : Reg) : Nat :=
  if r.row.units = 128 then (if req ≥ 64 then 127 else req)
  else if [Reg.hqEvent, .hqFnInfo, .hqFnEventVec, .hqFnOutstanding].contains r then reqFn req else 0

/-- The direct register at a block offset. -/
def directAt (b x : Nat) : Option Reg := regAll.find? fun r => r.row.block == b && r.row.offset == x && r.row.sub.isNone

/-- What stands at an offset of a block for a requester. -/
def resolve (req b x : Nat) : RegTgt :=
  if 0x3FF00 ≤ x ∧ x ≤ 0x3FF10 then .common ((x - 0x3FF00) / 4)
  else if b = 17 ∧ 0x1000 ≤ x ∧ x < 0x2000 then .mbxReq ((x - 0x1000) / 4)
  else if b = 17 ∧ 0x2000 ≤ x ∧ x < 0x3000 then .mbxRsp ((x - 0x2000) / 4)
  else
    let window := regAll.any fun r => r.row.block == b && r.row.offset == x && (r.row.sub.isSome || r.row.acc == .ind)
    if window then (match directAt b (x - 4) with
      | some a => .window a
      | none => .unmapped)
    else match directAt b x with
      | some r => .reg r (regInst req r)
      | none => .unmapped

/-- The register, or a window's address register, is hidden from a virtual function (R64). -/
def regHidden (req : Nat) : RegTgt → Bool
  | .reg r _ => isVf req && r.row.view == .absent
  | .window a => isVf req && a.row.view == .absent
  | _ => false

/-! ### Indirect windows (R87 to R90) -/

/-- What a window's address register addresses. -/
inductive WinTgt where
  | none
  | reg (r : Reg) (u : Nat)
  | hist (p i age w : Nat)
  | lchErr (k : Nat)
  | comp (c w : Nat) (force : Bool)
  | seg (n w : Nat) (force : Bool)
  | meas (m w : Nat)
  | fault (n w : Nat)
  deriving DecidableEq, Repr

/-- Registers and units of a window with the layout of R87. -/
def stdWindow (a : Reg) : Option (Nat × Nat) :=
  match a with
  | .plnPartIndAddr => some (4, 64) | .wlkPartIndAddr => some (5, 64) | .wlkTileIndAddr => some (3, 64)
  | .lchStackIndAddr => some (4, 6) | .mslPartIndAddr => some (4, 64) | .mslUnitIndAddr => some (4, 20)
  | .epcPartIndAddr => some (11, 64) | .brkClIndAddr => some (6, 16) | .memSheetIndAddr => some (1, 72)
  | .memPartIndAddr => some (52, 64) | .ddrChIndAddr => some (7, 16) | .fltChIndAddr => some (2, 32)
  | .fltDieIndAddr => some (19, 1024) | .fltPartIndAddr => some (6, 64) | .twlPortIndAddr => some (17, 12)
  | .secPartIndAddr => some (5, 64) | .rasDomIndAddr => some (1, 236) | .rasPartIndAddr => some (7, 64)
  | .pwrDomIndAddr => some (5, 236) | .mgtSensIndAddr => some (3, 120) | _ => none

/-- Windows whose unit is the partition: a virtual function reaches its own, as unit 0. -/
def partWindow (a : Reg) : Bool :=
  [Reg.plnPartIndAddr, .wlkPartIndAddr, .mslPartIndAddr, .epcPartIndAddr, .memPartIndAddr, .fltPartIndAddr, .rasPartIndAddr].contains a

/-- Units that a requester sees in a window. -/
def winUnits (req : Nat) (a : Reg) : Nat := if isVf req && partWindow a then 1 else ((stdWindow a).map (·.2)).getD 0

/-- The registers behind a window. -/
def behind (a : Reg) (k : Nat) : Option Reg :=
  regAll.find? fun r => r.row.block == a.row.block && r.row.offset == a.row.offset + 4 && r.row.sub == some k

/-- Register and unit of a window with the layout of R87, by REG and unit. -/
def stdTarget (a : Reg) (k u : Nat) : WinTgt :=
  let at_ (k u : Nat) : WinTgt := match behind a k with
    | some r => .reg r u
    | none => .none
  if a = .memPartIndAddr then (if k < 48 then (if k % 8 < 6 then at_ (k % 8) (8 * u + k / 8) else .none) else at_ k u)
  else if a = .fltDieIndAddr ∧ 3 ≤ k ∧ k ≤ 10 then .reg .fltDThist (8 * u + (k - 3))
  else if a = .twlPortIndAddr ∧ 12 ≤ k ∧ k ≤ 16 then .reg .twlPLerr (8 * u + (k - 12))
  else at_ k u

/-- Value of a requester's address register. -/
def indAddr (s : State) (req : Nat) (a : Reg) : Nat := (s.reg a (regInst req a)).toNat

/-- What a window addresses for a requester. -/
def winTarget (s : State) (req : Nat) (a : Reg) : WinTgt :=
  let v := indAddr s req a
  match stdWindow a with
  | some (regs, _) =>
    let k := bits v 0 12
    let u := bits v 12 12
    if k ≥ regs ∨ u ≥ winUnits req a then .none else stdTarget a k (if isVf req && partWindow a then req else u)
  | none => match a with
    | .hqQpIndAddr =>
      if bits v 0 5 > 16 then .none
      else (match deviceQp s (if isVf req then req else bits v 19 6) (bits v 5 14), behind a (bits v 0 5) with
        | some d, some r => .reg r d
        | _, _ => .none)
    | .imgPartIndAddr => .reg .imgPartIndData (bits v 0 6)
    | .plnHistIndAddr => .hist (if isVf req then req else bits v 22 6) (bits v 12 6) (bits v 18 4) (bits v 0 12)
    | .lchErrIndAddr => .lchErr (8 * bits v 0 6 + bits v 6 3)
    | .lchBankIndAddr =>
      if bits v 0 13 ≥ 6144 then .none
      else (match behind a (bits v 13 2) with
        | some r => .reg r (bits v 0 13)
        | none => .none)
    | .twlRtIndAddr => .reg .twlRtWord (2 * bits v 0 12 + bits v 12 1)
    | .ownCompIndAddr => .comp (bits v 3 8) (bits v 0 3) (bit v 11)
    | .ownSegIndAddr => .seg (bits v 2 16) (bits v 0 2) (bit v 18)
    | .secMeasIndAddr => if bits v 3 4 ≥ 12 then .none else .meas (bits v 0 3) (bits v 3 4)
    | .rasFltIndAddr => .fault (bits v 0 8) (bits v 8 4)
    | .rasUnitIndAddr =>
      if bits v 0 13 ≥ unitCount (bits v 13 5) then .none
      else (match behind a (bits v 18 2) with
        | some r => .reg r (8192 * bits v 13 5 + bits v 0 13)
        | none => .none)
    | .pwrAdedanIndAddr => .reg .pwrAdedanRow (bits v 0 3)
    | _ => .none

/-- A field advanced by one; past its last value it wraps to zero and carries. -/
def stepField (v lo w last : Nat) : Nat × Bool :=
  if bits v lo w ≥ last then (setBits v lo w 0, true) else (setBits v lo w (bits v lo w + 1), false)

/-- A low field advanced, and the high one when the low one wraps. -/
def stepPair (v lo w last lo' w' last' : Nat) : Nat :=
  let r := stepField v lo w last
  if r.2 then (stepField r.1 lo' w' last').1 else r.1

/-- Address after an access (R88). Windows whose INC advances after a data read stay put at a write (DEDUCED, log entry 44). -/
def nextAddr (req : Nat) (a : Reg) (v : Nat) (read : Bool) : Nat :=
  match stdWindow a with
  | some (regs, _) =>
    match bits v 24 3 with
    | 1 => (stepField v 0 12 (regs - 1)).1
    | 2 => (stepField v 12 12 (winUnits req a - 1)).1
    | 3 => stepPair v 0 12 (regs - 1) 12 12 (winUnits req a - 1)
    | _ => v
  | none => match a with
    | .hqQpIndAddr => if bit v 25 then stepPair v 0 5 16 5 14 16383 else v
    | .imgPartIndAddr => if bit v 6 && read then (stepField v 0 6 63).1 else v
    | .plnHistIndAddr => if bit v 28 && read then (stepField v 0 12 2307).1 else v
    | .lchErrIndAddr => if bit v 9 && read then stepPair v 6 3 7 0 6 63 else v
    | .lchBankIndAddr => if bit v 15 then (stepField v 0 13 6143).1 else v
    | .twlRtIndAddr => if bit v 13 then stepPair v 12 1 1 0 12 4095 else v
    | .ownCompIndAddr => if bit v 12 then stepPair v 0 3 7 3 8 255 else v
    | .ownSegIndAddr => if bit v 19 then stepPair v 0 2 3 2 16 65535 else v
    | .secMeasIndAddr => if bit v 7 && read then stepPair v 3 4 11 0 3 7 else v
    | .rasFltIndAddr => if bit v 12 && read then stepPair v 8 4 15 0 8 255 else v
    | .rasUnitIndAddr => if bit v 20 && read then (stepField v 0 13 (unitCount (bits v 13 5) - 1)).1 else v
    | .pwrAdedanIndAddr => if bit v 3 then (stepField v 0 3 7).1 else v
    | _ => v

/-- The requester's address register advances. -/
def advance (s : State) (req : Nat) (a : Reg) (read : Bool) : State :=
  let v := indAddr s req a
  let n := nextAddr req a v read
  if n = v then s else s.setReg a (regInst req a) (BitVec.ofNat 32 n)

/-- Clock domain of the unit that a window addresses, where the domain may gate (R90, R638). -/
def winDomain (a : Reg) (v : Nat) : Option Nat :=
  let u := bits v 12 12
  match a with
  | .wlkTileIndAddr => if u < 64 then some u else none
  | .brkClIndAddr => if u < 16 then some (64 + u) else none
  | .mslUnitIndAddr => if u < 16 then some (80 + u) else none
  | .lchStackIndAddr => if u < 6 then some (102 + u) else none
  | .lchBankIndAddr => if bits v 0 13 < 6144 then some (102 + bits v 0 13 / 1024) else none
  | .ddrChIndAddr => if u < 16 then some (108 + u) else none
  | .fltChIndAddr => if u < 32 then some (124 + u) else none
  | .fltDieIndAddr => if u < 1024 then some (124 + dieChannel u) else none
  | .memSheetIndAddr => if u < 72 then some (185 + u % 24) else none
  | _ => none

/-- An access to a unit whose domain is gated wakes the domain. -/
def wakeFor (s : State) (req : Nat) (a : Reg) : State :=
  match winDomain a (indAddr s req a) with
  | some d => domainWake s d
  | none => s

/-! ### Register parity (R80 to R83, R593) -/

/-- Word of the mailbox request that a key names: those keys follow the registers' own. -/
def mbxOfKey (k : Nat) : Option Nat := if k / 262144 = 1000 ∧ k % 262144 < 1024 then some (k % 262144) else none

/-- The register is image-owned: its second copy is the value held for the next image apply (R56). -/
def isHeld (k : Nat) : Bool := ((regOfKey k).map fun r => r.row.cls == .image).getD false

/-- The copy that a scanner's key names as it stands, where no upset has changed it. -/
def storedCopy (s : State) (k : Nat) : RegCopy :=
  match regOfKey (k / 2) with
  | some r =>
    let u := k / 2 % 262144
    regCopy (if k % 2 = 1 then s.shadow r u else if r.row.cls = .image then regView s 0 r u else s.reg r u)
  | none => regCopy 0

/-- The copy that a scanner's key names, as it lies in the register file. -/
def copyNow (s : State) (k : Nat) : RegCopy :=
  (match mbxOfKey (k / 2) with
    | some i => s.usnea.mbxReq.get i
    | none => if k % 2 = 0 then s.regs.force.get (k / 2) else if isHeld (k / 2) then s.regs.held.get (k / 2) else s.regs.shadow.get (k / 2)).getD (storedCopy s k)

/-- Bit 0 to 31 of a copy, or the parity bit of byte b as bit 32 + b, flips. -/
def flipBit (c : RegCopy) (i : Nat) : RegCopy :=
  if i < 32 then { c with val := c.val ^^^ BitVec.ofNat 32 (2 ^ i) } else { c with par := c.par ^^^ BitVec.ofNat 4 (2 ^ (i - 32)) }

/-- The unit of the RAS table that takes a register unit's parity fence: Lichen unit, Twill port or clock domain. -/
def parityKind (b : Nat) : Option Nat := match b with
  | 5 => some 0x07
  | 12 => some 0x0C
  | 16 => some 0x12
  | _ => none

/-- Block, unit and block offset of the copy that a scanner's key names. -/
def keyPlace (k : Nat) : Option (Nat × Option Nat × Nat) :=
  match mbxOfKey (k / 2), regOfKey (k / 2) with
  | some i, _ => some (17, none, 0x1000 + 4 * i)
  | none, some r => some (r.row.block, regUnit r (k / 2 % 262144), r.row.offset % 2 ^ 18)
  | none, none => none

/-- A parity mismatch found in a copy: EV_CFG_PARITY, xxx_PARITY_INFO if the event was clear, and the fence of the block or of
the register's unit. A unit's index above 4,095 is cut to the 12 bits of UNIT (DESIGN CHOICE, log entry 112). -/
def parityFault (s : State) (k : Nat) : State :=
  match keyPlace k with
  | none => s
  | some (b, u, off) =>
    let info := BitVec.ofNat 32 (off + (u.getD 0xFFF) % 4096 * 2 ^ 18 + k % 2 * 2 ^ 30)
    let s := s.mapRegs fun g => { g with
      found := addSet g.found k, parityInfo := if (s.sqc .blkFault b).ev.getLsbD 0 then g.parityInfo else g.parityInfo.put b info }
    let s := s.event .blkFault b 0
    match u with
    | none => (fenceUnit s 0x13 b 1 0 true).mapRegs fun g => { g with fencedBlocks := addSet g.fencedBlocks b }
    | some v =>
      let s := s.mapRegs fun g => { g with fencedUnits := addSet g.fencedUnits (b * 65536 + v) }
      match parityKind b with
      | some kind => fenceUnit s kind v 1 0 true
      | none => faultRecord s 1 0x13 b 0 (unitParts s 0x13 b) []

/-- A copy is checked: a mismatch that nothing has found yet is a fault (R81, R82). -/
def parityCheck (s : State) (k : Nat) : State :=
  if (copyNow s k).par ≠ parityOf (copyNow s k).val ∧ !s.regs.found.contains k then parityFault s k else s

/-! ### Reads (R63 to R66, R72, R90) -/

/-- Pairs of read-only registers whose low half latches the high half (R66). -/
def hiPairs : List (Reg × Reg) :=
  [(.glbUidLo, .glbUidHi), (.glbEpochLo, .glbEpochHi), (.imgActiveSeqLo, .imgActiveSeqHi), (.imgPend0EpochLo, .imgPend0EpochHi),
   (.imgPend1EpochLo, .imgPend1EpochHi), (.epcEpochLo, .epcEpochHi), (.epcBoundaryRtcLo, .epcBoundaryRtcHi), (.epcPCurLo, .epcPCurHi),
   (.epcPOldestLo, .epcPOldestHi), (.ddrCErrLo, .ddrCErrHi), (.secPRekeyAddrLo, .secPRekeyAddrHi), (.rasPLedgerNextLo, .rasPLedgerNextHi),
   (.rasPLedgerOldestLo, .rasPLedgerOldestHi), (.pwrRtcLo, .pwrRtcHi), (.mgtPtmRtcLo, .mgtPtmRtcHi), (.mgtPtmNsLo, .mgtPtmNsHi),
   (.mgtLogNextLo, .mgtLogNextHi)]

/-- Key of a requester's latch for a high half. -/
def latchKey (req : Nat) (hi : Reg) (u : Nat) : Nat := regKey hi u * 128 + min req 127

/-- A register instance read: its parity is checked, a low half latches the high one, a high half returns what was latched
once. -/
def regRead (s : State) (req : Nat) (r : Reg) (u al : Nat) : State × W32 :=
  let shadow := decide (al ≠ 0) && decide (r.row.acc = .sh) && decide (r.row.cls ≠ .image)
  let s := if r.row.acc = .rw ∨ r.row.acc = .sh then parityCheck s (2 * regKey r u + b2n shadow) else s
  if al ≠ 0 ∧ r.row.acc = .sh ∧ r.row.cls ≠ .image then (s, s.shadow r u)
  else
    let v := regView s req r u
    let s := if timingRegs.contains r then s.drawn else s
    match hiPairs.find? fun p => p.1 == r with
    | some p => (s.mapRegs fun x => { x with hiLatch := x.hiLatch.put (latchKey req p.2 u) (regView s req p.2 u) }, v)
    | none => match s.regs.hiLatch.get (latchKey req r u) with
      | some h => (s.mapRegs fun x => { x with hiLatch := x.hiLatch.del (latchKey req r u) }, h)
      | none => (s, v)

/-- IND_RANGE at a window's data register. -/
def indRange (s : State) (req : Nat) (a : Reg) (al : Nat) : State :=
  writeError s req a.row.block (a.row.offset + 4) al werrIndRange

/-- A data read through a window, before the address moves. -/
def winFetch (s : State) (req : Nat) (a : Reg) (al : Nat) : State × W32 :=
  match winTarget s req a with
  | .none => (indRange s req a al, 0)
  | .reg r u => if r = .imgPartIndData then (s, BitVec.ofNat 32 (partCode s u)) else regRead s req r u al
  | .hist p i age w => (match histWord s p i age w with
    | some v => (s, v)
    | none => (indRange s req a al, 0))
  | .lchErr k => (s, s.lichen.errRing.getD k 0)
  | .comp c w f => (s, compWord s c w f)
  | .seg n w f => (s, segWord s n w f)
  | .meas m w => (s, measWord s m w)
  | .fault n w => (s, faultRingWord s n w)

/-- A data read through a window. -/
def winRead (s : State) (req : Nat) (a : Reg) (al : Nat) : State × W32 :=
  let r := winFetch (wakeFor s req a) req a al
  (advance r.1 req a true, r.2)

/-- A requester's accesses to BAR0 reach the device. -/
def reaches (s : State) (req : Nat) : Bool := !(isVf req && fnDisabled s req) && (decide (req < 64) || usneaUp s)

/-- The word that a read returns, and what the read changes. -/
def wordRead (s : State) (req addr : Nat) : State × W32 :=
  let b := addr / 2 ^ 20
  let al := addr / 2 ^ 18 % 4
  if !reaches s req ∨ b ≥ 18 ∨ !blockSeen req b then (s, 0)
  else
    let t := resolve req b (addr % 2 ^ 18)
    if regHidden req t then (s, 0)
    else match t with
      | .unmapped => (s, 0)
      | .common i => (s, commonView s req b i)
      | .reg r u => regRead s req r u al
      | .window a => winRead s req a al
      | .mbxReq i => (parityCheck s (2 * (262144 * 1000 + i)), s.mbxWord i)
      | .mbxRsp i => (s, s.usnea.mbxRsp.getD i 0)

/-- A word read, with its value returned to the requester. -/
def readReg (s : State) (req addr : Nat) : State :=
  if addr % 4 ≠ 0 ∨ addr ≥ 2 ^ 26 then s
  else
    let r := wordRead s req addr
    r.1.mapRegs fun x => { x with readData := x.readData.put (min req 127) (r.2.setWidth 64) }

/-- A read of 8 bytes: two words, lower address first (R65). -/
def readWide (s : State) (req addr : Nat) : State :=
  if addr % 8 ≠ 0 ∨ addr ≥ 2 ^ 26 then s
  else
    let r := wordRead s req addr
    let h := wordRead r.1 req (addr + 4)
    h.1.mapRegs fun x => { x with readData := x.readData.put (min req 127) (h.2 ++ r.2) }

end Sys2Proof.Machine
end

