-- ==== Sys2Proof/Machine/Registers.lean ====
section
/-! DEFINITION. Writes to BAR0, update strobes and register parity (03_register_conventions R65 to R94; 17_host_queues R508 to
R511; 14_twill_fabric R407 to R431; 15_composition_ownership R447, R465, R470; 19_faults_recovery R583, R593; 20_usnea_management
R632; 23_register_map R682 to R691). -/
namespace Sys2Proof.Machine
open Sys2Proof

/-! ### Stored bits (R68 to R71, R8) -/

/-- Bits that a write through an alias, or at the base, leaves under a mask of writable bits (R68). -/
def aliasBits (al : Nat) (old v mask : W32) : W32 :=
  match al with
  | 0 => (old &&& ~~~mask) ||| (v &&& mask)
  | 1 => old ||| (v &&& mask)
  | 2 => old &&& ~~~(v &&& mask)
  | _ => old ^^^ (v &&& mask)

/-- Fields that would hold a reserved encoding stay as they were (R8, R70). -/
def keepReserved (fields : List (Nat × Nat × Nat × Nat)) (old new : W32) : W32 × Bool :=
  fields.foldl (fun a f =>
    let x := bits new.toNat f.1 f.2.1
    if x < f.2.2.1 ∨ x > f.2.2.2 then
      (BitVec.ofNat 32 (setBits a.1.toNat f.1 f.2.1 (bits old.toNat f.1 f.2.1)), true)
    else a) (new, false)

/-- What a write stores, and the cause of a write error. -/
def mergeWrite (mask : W32) (fields : List (Nat × Nat × Nat × Nat)) (al : Nat) (old v : W32) : W32 × Option Nat :=
  let k := keepReserved fields old (aliasBits al old v mask)
  (k.1, if al ≠ 0 ∧ v &&& ~~~mask ≠ 0 then some werrAliasField else if k.2 then some werrReserved else none)

/-- Writable bits of a register instance; the high word of a route has 14. -/
def writeMask (r : Reg) (u : Nat) : W32 := if r = .twlRtWord ∧ u % 2 = 1 then 0x3FFF else r.row.mask

/-- A write error of a requester where there is a cause. -/
def werrIf (s : State) (req block off al : Nat) : Option Nat → State
  | some c => writeError s req block off al c
  | none => s

/-- A write to an RW or SH register instance: RW fields at once, SH fields in the shadow copy, image-owned fields held for the
next image apply (R56, R71); an alias write starts from the value held, or else from the one in force (R70). -/
def copyWrite (s : State) (req : Nat) (r : Reg) (u al x : Nat) (v : W32) : State :=
  let old := if r.row.cls = .image then ((s.regs.held.get (regKey r u)).map RegCopy.val).getD (regView s req r u)
    else if r.row.acc = .sh then s.shadow r u else s.reg r u
  let m := mergeWrite (writeMask r u) r.row.fields al old v
  if r = .pwrDIdle ∧ idleReset u = 0 ∧ bits m.1.toNat 0 16 ≠ 0 then writeError s req 16 x al werrNotPermitted
  else if r.row.cls = .image ∧ isVf req then writeError s req r.row.block x al werrNotPermitted
  else
    let s := if r.row.cls = .image then s.mapRegs fun g => { g with held := g.held.put (regKey r u) (regCopy m.1) }
      else if r.row.acc = .sh then s.setShadow r u m.1 else s.setReg r u m.1
    werrIf s req r.row.block x al m.2

/-! ### Sequence-clear registers (R85, R86) -/

/-- (SEQ - S) modulo 256 is 128 or more. -/
def staleSeq (c : SqcCell) (v : W32) : Bool := decide ((c.seq - BitVec.ofNat 8 (v.toNat / 2 ^ 24)).toNat ≥ 128)

/-- The cell after a write of v inside the window. -/
def sqcAfter (c : SqcCell) (v : W32) : SqcCell := sqcClear c (v.setWidth 24) (BitVec.ofNat 8 (v.toNat / 2 ^ 24))

/-- A base write to a sequence-clear register. EV_OVERVOLT is set again while a rail is above its threshold. -/
def sqcWrite (s : State) (req : Nat) (r : Reg) (u x : Nat) (v : W32) : State :=
  let c := s.sqc r u
  if staleSeq c v then writeError s req r.row.block x 0 werrStaleSeq
  else
    let s := s.mapRegs fun g => { g with sqc := g.sqc.put (regKey r u) (sqcAfter c v) }
    let high := decide (r = .pwrEvent) && !s.power.overvolt.isEmpty && c.ev.getLsbD 2 && !(s.sqc r u).ev.getLsbD 2
    s.eventIf high .pwrEvent 0 2

/-- A base write to xxx_WERR (R67, R86). -/
def werrWrite (s : State) (req b : Nat) (v : W32) : State :=
  let k := werrKey req b
  let c := s.regs.werr.getD k SqcCell.clear
  if staleSeq c v then writeError s req b 0x3FF04 0 werrStaleSeq
  else s.mapRegs fun g => { g with werr := g.werr.put k (sqcAfter c v) }

/-- A base write to xxx_FAULT, by the physical function or Usnea. -/
def faultWrite (s : State) (req b : Nat) (v : W32) : State :=
  let c := s.sqc .blkFault b
  if isVf req then s
  else if staleSeq c v then writeError s req b 0x3FF0C 0 werrStaleSeq
  else s.mapRegs fun g => { g with sqc := g.sqc.put (regKey .blkFault b) (sqcAfter c v) }

/-! ### Update strobes (R75 to R78) -/

/-- GLB_UPD_STROBE written by the physical function or Usnea firmware: epoch-bound groups are ignored. A write that names no
other group issues no strobe. -/
def updStrobe (s : State) (req : Nat) (v : W32) : State :=
  if isVf req then violation (writeError s req 0 0x40 0 werrNotPermitted) req 6 0 0
  else if s.blockOut 0 then s
  else
    let bound := BitVec.ofNat 32 (cfgEpochMask s.img.cfg)
    let s := if v &&& bound ≠ 0 then writeError s req 0 0x40 0 werrEpochGroup else s
    let g := v &&& ~~~bound
    if g = 0 then s
    else if s.regs.updNow.isSome ∨ s.regs.updEpoch.isSome then s.mapRegs fun r => { r with updNext := some (g ||| r.updNext.getD 0) }
    else issueUpdate s g

/-- The update strobe in progress has taken effect, but in the clock domains that missed it: those take their shadows at the
next epoch strobe. A merged strobe issues at once. -/
def updStrobeDone (s : State) (missed : List Nat) : State :=
  match s.regs.updNow with
  | none => s
  | some _ =>
    let load := s.regs.issued
    let late := strobeMissed missed
    let old := load.map fun e => (e.1, s.regs.force.get e.1)
    let s := lagBehind missed old (strobeCopies s (load.filter fun e => !late e.1))
    let s := s.mapRegs fun r => { r with
      updNow := none, issued := [], updMissed := missed
      staged := (load.filter fun e => r.staged.has e.1).foldl (fun m e => Smap.put m e.1 e.2) r.staged
      updPending := ((load.map (·.1)).filter late).foldl addSet r.updPending }
    let s := (s.event .glbUpdStatus 0 1).eventIf (!missed.isEmpty) .glbUpdStatus 0 2
    issueNext (afterStrobe s)

/-! ### What a write starts -/

/-- OWN_CMD (R447, R465, R470); with block OWN OUT no command is accepted (R593). -/
def ownCmdWrite (s : State) (req x : Nat) (v : W32) : State :=
  let t := bits v.toNat 4 16
  match bits v.toNat 0 4 with
  | 1 => if s.blockOut 13 then s else mapApply s t
  | 2 => if s.blockOut 13 then s else claim s t
  | 3 => if s.blockOut 13 then s else if hwAgent s then writeError s req 13 x 0 werrNotPermitted else tset s t
  | 4 => ownAbort s t
  | _ => writeError s req 13 x 0 werrReserved

/-- TWL_P_CMD of a port (R407, R410, R417, R431). -/
def portCmdWrite (s : State) (req port x : Nat) (v : W32) : State :=
  match bits v.toNat 0 3 with
  | 1 => portRetrain s port
  | 2 => portRetarget s port
  | 3 => portDisable s port
  | 4 => if bits v.toNat 3 3 ≤ 4 then laneFailing s port (bits v.toNat 3 3) else writeError s req 12 x 0 werrReserved
  | _ => writeError s req 12 x 0 werrReserved

/-- MGT_MBX_DOORBELL: a request while one is in progress, or with block MGT OUT, is refused (R593, R632). -/
def doorbellWrite (s : State) (req x : Nat) (v : W32) : State :=
  if !v.getLsbD 0 then s
  else if s.usnea.mbxBusy ∨ s.blockOut 17 then writeError s req 17 x 0 werrNotPermitted
  else s.mapUsnea fun u => { u with mbxBusy := true }

/-- A base write to a register of which each write starts an action. -/
def startAction (s : State) (req : Nat) (r : Reg) (u x : Nat) (v : W32) : State :=
  match r with
  | .glbUpdStrobe => updStrobe s req v
  | .imgCtrl => if bit v.toNat 0 ∧ bits v.toNat 2 2 = 3 then writeError s req 1 x 0 werrReserved else imgCtrl s req v
  | .ownCmd => ownCmdWrite s req x v
  | .rasCmd => if 1 ≤ bits v.toNat 0 3 ∧ bits v.toNat 0 3 ≤ 4 then rasCmd s v.toNat else writeError s req 15 x 0 werrReserved
  | .pwrReset => pwrReset s req 0 v.toNat
  | .mgtMbxDoorbell => doorbellWrite s req x v
  | .twlPCmd => portCmdWrite s req u x v
  | _ => s

/-! ### One register instance written -/

/-- Registers of locked image-owned fields (R57, R688). -/
def lockedRegs : List Reg :=
  [.glbPart, .hqFnInfo, .hqQpImg, .brkCState, .memSUnit, .pwrStatus, .fltPZones, .secPKeygen, .imgPartIndData]

/-- A write to a register whose writable fields are none of RW or SH: through an alias it has no effect, and a bit of it set is an
error (R57, R69). -/
def noCopyWrite (s : State) (req : Nat) (r : Reg) (al x : Nat) (v : W32) (base : State) : State :=
  if al ≠ 0 then (if v ≠ 0 then writeError s req r.row.block x al werrAliasField else s)
  else base

/-- A write to a register instance, at block offset x. -/
def regWrite (s : State) (req : Nat) (r : Reg) (u al x : Nat) (v : W32) : State :=
  match r.row.acc with
  | .rw => copyWrite s req r u al x v
  | .sh => copyWrite s req r u al x v
  | .sqc => noCopyWrite s req r al x v (sqcWrite s req r u x v)
  | .wo => noCopyWrite s req r al x v (startAction s req r u x v)
  | .ro => noCopyWrite s req r al x v (if lockedRegs.contains r then writeError s req r.row.block x 0 werrLocked else s)
  | .ind => noCopyWrite s req r al x v (if lockedRegs.contains r then writeError s req r.row.block x 0 werrLocked else s)

/-! ### Windows -/

/-- A write to a queue pair's window register (R508 to R511): all but the interrupt fields and the delay maximum only while it is
DISABLED. -/
def qpWrite (s : State) (req : Nat) (r : Reg) (d al x : Nat) (v : W32) : State :=
  if [Reg.hqQpSqBaseLo, .hqQpSqBaseHi, .hqQpCqBaseLo, .hqQpCqBaseHi, .hqQpSize].contains r ∧ (s.qp d).st ≠ .disabled then
    writeError s req 2 x al werrNotPermitted
  else
    let s := regWrite s req r d al x v
    if r = .hqQpCtrl ∧ (al = 0 ∨ v.getLsbD 0) then writeEnable s d ((s.reg .hqQpCtrl d).getLsbD 0) else s

/-- Writable bits of a staging word of a composition record (R445). -/
def compMask (w : Nat) : W32 :=
  match w with
  | 0 => 0x1FFFFFFF | 1 => 0x1FFFF | 2 => 0xFFFF | 3 => 0x1FFFF | 4 => 0xFFFFFFFF | 5 => 0xFFFF | _ => 0

/-- Writable bits of a staging word of a segment table entry (R446). -/
def segMask (w : Nat) : W32 :=
  match w with
  | 0 => 0xFFFFFFFF | 1 => 0x3FF | _ => 0

/-- A staging word of a table written under its mask. -/
def stageWrite (s : State) (req al x : Nat) (mask old v : W32) (put : W32 → OwnState → OwnState) : State :=
  let m := mergeWrite mask [] al old v
  werrIf (if mask = 0 then s else s.mapOwn (put m.1)) req 13 x al m.2

/-- A unit's registers stand behind a window of which some can be written, so that parity may have fenced them. -/
def winParity (a : Reg) : Bool :=
  regAll.any fun r => r.row.block == a.row.block && r.row.offset == a.row.offset + 4 && r.row.sub.isSome &&
    (r.row.acc == .rw || r.row.acc == .sh)

/-- A data write through a window, before the address moves. -/
def winStore (s : State) (req : Nat) (a : Reg) (al : Nat) (v : W32) : State :=
  let b := a.row.block
  let x := a.row.offset + 4
  let ro (s : State) : State := if al ≠ 0 ∧ v ≠ 0 then writeError s req b x al werrAliasField else s
  match winTarget s req a with
  | .none => if a = .hqQpIndAddr ∧ !isVf req ∧ bits (indAddr s req a) 19 6 ≠ 0 then writeError s req b x al werrNotPermitted
    else indRange s req a al
  | .reg r u =>
    if winParity a ∧ (regUnit r u).isSome ∧ s.regs.fencedUnits.contains (fencedKey r u) then writeError s req b x al werrUnitFenced
    else if a = .hqQpIndAddr then
      (match qpWriteTarget s req (bits (indAddr s req a) 19 6) (bits (indAddr s req a) 5 14) with
        | (c, none) => writeError s req b x al c
        | (_, some d) => qpWrite s req r d al x v)
    else regWrite s req r u al x v
  | .hist p i age w => (match histWord s p i age w with
    | some _ => ro s
    | none => indRange s req a al)
  | .lchErr _ => ro s
  | .comp c w f => stageWrite s req al x (if f then 0 else compMask w) (compWord s c w f) v fun n o => { o with stageRec := o.stageRec.put (8 * c + w) n }
  | .seg n w f => stageWrite s req al x (if f then 0 else segMask w) (segWord s n w f) v fun y o => { o with stageSeg := o.stageSeg.put (2 * n + w) y }
  | .meas _ _ => ro s
  | .fault _ _ => ro s

/-- A data write through a window. -/
def winPut (s : State) (req : Nat) (a : Reg) (al : Nat) (v : W32) : State :=
  advance (winStore (wakeFor s req a) req a al v) req a false

/-! ### One word written (R63 to R69, R83, R684) -/

/-- A word of the mailbox request; it is closed while a request is in progress (R632). -/
def mbxWrite (s : State) (req i al x : Nat) (v : W32) : State :=
  if s.usnea.mbxBusy then writeError s req 17 x al werrNotPermitted
  else s.mapUsnea fun u => { u with mbxReq := u.mbxReq.put i (regCopy (aliasBits al (s.mbxWord i) v 0xFFFFFFFF)) }

/-- A write with all byte enables to what stands at an offset of a block that is not fenced. -/
def targetWrite (s : State) (req b al x : Nat) (v : W32) : RegTgt → State
  | .unmapped => writeError s req b x al werrUnmapped
  | .common i => if al ≠ 0 then s else if i = 1 then werrWrite s req b v else if i = 3 then faultWrite s req b v else s
  | .reg r u => regWrite s req r u al x v
  | .window a => winPut s req a al v
  | .mbxReq i => mbxWrite s req i al x v
  | .mbxRsp _ => if al ≠ 0 ∧ v ≠ 0 then writeError s req b x al werrAliasField else s

/-- Registers of a fenced block that still take writes (R83). -/
def openInFence : RegTgt → Bool
  | .common i => i == 1 || i == 3
  | _ => false

/-- One aligned word written by a requester; `full` where all four byte enables are set. -/
def wordWrite (s : State) (req addr : Nat) (full : Bool) (v : W32) : State :=
  let b := addr / 2 ^ 20
  let al := addr / 2 ^ 18 % 4
  let x := addr % 2 ^ 18
  if addr % 4 ≠ 0 ∨ addr ≥ 2 ^ 26 ∨ !reaches s req then s
  else if b ≥ 18 then writeError s req 0 x al werrUnmapped
  else
    let t := resolve req b x
    if !blockSeen req b ∨ regHidden req t then violation s req 1 b (x / 4)
    else if t = .unmapped then writeError s req b x al werrUnmapped
    else if isVf req ∧ t = .reg .glbUpdStatus 0 then s
    else if !full then writeError s req b x al werrPartial
    else if s.regs.fencedBlocks.contains b ∧ !openInFence t then writeError s req b x al werrBlockFenced
    else targetWrite s req b al x v t

/-- A BAR0 write of 4 or 8 bytes with its byte enables (R65). -/
def barWrite (s : State) (req addr : Nat) (wide : Bool) (be : BitVec 8) (data : W64) : State :=
  let n := be.toNat
  if addr % (if wide then 8 else 4) ≠ 0 then s
  else
    let one (s : State) (a en : Nat) (v : W32) : State := if en % 16 = 0 then s else wordWrite s req a (en % 16 == 15) v
    let s := one s addr n (data.setWidth 32)
    if wide then one s (addr + 4) (n / 16) ((data >>> 32).setWidth 32) else s

/-! ### The rows of register accesses -/

def execRegisterWrite (req addr : Nat) (wide : Bool) (be : BitVec 8) (data : W64) (s : State) : Out :=
  .next (barWrite s req addr wide be data)

/-- What a BAR0 address leads to for a requester, where it reaches the device. -/
def targetOf (req addr : Nat) : RegTgt := if addr / 2 ^ 20 ≥ 18 then .unmapped else resolve req (addr / 2 ^ 20) (addr % 2 ^ 18)

/-- The address is that of a sequence-clear register, direct or behind the window as it stands. -/
def isSqcTarget (s : State) (req addr : Nat) : Bool :=
  match targetOf req addr with
  | .common i => i == 1 || i == 3
  | .reg r _ => r.row.acc == .sqc
  | .window a => (match winTarget s req a with
    | .reg r _ => r.row.acc == .sqc
    | _ => false)
  | _ => false

def execSqcWrite (req addr : Nat) (v : W32) (s : State) : Out :=
  .next (if isSqcTarget s req addr then wordWrite s req addr true v else s)

/-- The address is a window's data register. -/
def isWindow (req addr : Nat) : Bool :=
  match targetOf req addr with
  | .window _ => true
  | _ => false

def execIndDataAccess (req addr : Nat) (v : Option W32) (s : State) : Out :=
  .next (if isWindow req addr then (match v with
    | some w => wordWrite s req addr true w
    | none => readReg s req addr) else s)

def execLoRegisterRead (req : Nat) (addr : BarRead) (s : State) : Out :=
  .next (if addr.wide then readWide s req addr.addr else readReg s req addr.addr)

def execUpdStrobe (req : Nat) (v : W32) (s : State) : Out := .next (wordWrite s req 0x40 true v)

def execUpdateStrobeDone (missed : List Nat) (s : State) : Out := .next (updStrobeDone s missed)

def execImgStage (req : Nat) (v : W32) (host : HostWrites) (s : State) : Out :=
  .next (if v.getLsbD 0 then wordWrite (hostWrites s host) req 0x100000 true v else s)

def execImgAbort (req : Nat) (v : W32) (s : State) : Out :=
  .next (if v.getLsbD 1 then wordWrite s req 0x100000 true v else s)

/-- A write to OWN_CMD that names a command. -/
def ownCommand (s : State) (cmd req : Nat) (v : W32) : State := if bits v.toNat 0 4 = cmd then wordWrite s req 0xD00014 true v else s

def execMapApply (req : Nat) (v : W32) (s : State) : Out := .next (ownCommand s 1 req v)
def execClaim (req : Nat) (v : W32) (s : State) : Out := .next (ownCommand s 2 req v)
def execTset (req : Nat) (v : W32) (s : State) : Out := .next (ownCommand s 3 req v)
def execOwnAbort (req : Nat) (v : W32) (s : State) : Out := .next (ownCommand s 4 req v)

/-- A write to RAS_CMD that names a command. -/
def rasCommand (s : State) (cmd req : Nat) (v : W32) : State := if bits v.toNat 0 3 = cmd then wordWrite s req 0xF00008 true v else s

def execRasDrain (req : Nat) (v : W32) (s : State) : Out := .next (rasCommand s 1 req v)
def execRasFence (req : Nat) (v : W32) (s : State) : Out := .next (rasCommand s 2 req v)
def execRasRestore (req : Nat) (v : W32) (s : State) : Out := .next (rasCommand s 3 req v)
def execRasRetire (req : Nat) (v : W32) (s : State) : Out := .next (rasCommand s 4 req v)

/-- A command written to TWL_P_CMD of a port, through a window that stands on it. -/
def portCommand (s : State) (req port : Nat) (v : W32) : State :=
  if !reaches s req ∨ port ≥ 12 then s
  else if isVf req then violation s req 1 12 8
  else if s.regs.fencedBlocks.contains 12 then writeError s req 12 0x20 0 werrBlockFenced
  else if s.regs.fencedUnits.contains (fencedKey .twlPCmd port) then writeError s req 12 0x20 0 werrUnitFenced
  else portCmdWrite s req port 0x20 v

def execPortRetrain (req port : Nat) (s : State) : Out := .next (portCommand s req port 1)
def execPortRetarget (req port : Nat) (s : State) : Out := .next (portCommand s req port 2)
def execPortDisable (req port : Nat) (s : State) : Out := .next (portCommand s req port 3)
def execPortSwap (req port lane : Nat) (s : State) : Out := .next (portCommand s req port (BitVec.ofNat 32 (4 + 8 * (lane % 8))))

def execMbxDoorbell (req : Nat) (v : W32) (s : State) : Out := .next (wordWrite s req 0x1100010 true v)

/-! ### Register parity (R80 to R83, R593) -/

/-- An upset of one bit of a stored copy; what stood there is kept for the reload. -/
def upset (s : State) (k i : Nat) : State :=
  let c := copyNow s k
  let d := flipBit c i
  let s := s.mapRegs fun r => { r with good := r.good.put k ((r.good.getD k (c.val, c.val)).1, d.val) }
  match mbxOfKey (k / 2) with
  | some i => s.mapUsnea fun u => { u with mbxReq := u.mbxReq.put i d }
  | none =>
    if k % 2 = 1 ∧ isHeld (k / 2) then s.mapRegs fun r => { r with held := r.held.put (k / 2) d }
    else s.mapRegs fun r => { r with
      force := if k % 2 = 0 then r.force.put (k / 2) d else r.force
      shadow := if k % 2 = 1 then r.shadow.put (k / 2) d else r.shadow }

/-- The register of a scanner's key belongs to a block, has stored copies, and the instance exists. -/
def scanned (b k : Nat) : Bool :=
  match mbxOfKey (k / 2), regOfKey (k / 2) with
  | some _, _ => b == 17 && k % 2 == 0
  | none, some r => r.row.block == b && (r.row.acc == .sh || (r.row.acc == .rw && k % 2 == 0)) && decide (k / 2 % 262144 < r.row.units)
  | none, none => false

/-- The scanner visits a block after upsets of its copies; every copy whose parity fails is found. -/
def parityScan (s : State) (b : Nat) (upsets : List (Nat × Nat)) : State :=
  if b ≥ 18 then s
  else
    let s := (upsets.filter fun x => scanned b x.1 && decide (x.2 < 36)).foldl (fun s x => upset s x.1 x.2) s
    ((s.regs.good.map (·.1)).filter (scanned b)).foldl parityCheck s

def execParityScan (block : Nat) (upsets : List (Nat × Nat)) (s : State) : Out := .next (parityScan s block upsets)

end Sys2Proof.Machine
end

