-- ==== Sys2Proof/Machine/Management.lean ====
section
/-! DEFINITION. Usnea at work: its restarts, its sensors, the management messages and their answers, sessions, subscriptions, and
the board interfaces (19_faults_recovery R606; 20_usnea_management R607 to R637). -/
namespace Sys2Proof.Machine
open Sys2Proof

/-! ### Restarts and firmware on trial (R606 to R610, R616, R619) -/

def execLockstepMismatch (s : State) : Out := .next (usneaClose s 1)
def execUsneaWatchdog (s : State) : Out := .next (usneaClose s 2)
def execUsneaRestart (s : State) : Out := .next (usneaRestart s)
def execUsneaRestartComplete (s : State) : Out := .next (usneaRestarted s)

/-- Network boot tries again, with what the server has sent: a verified image starts, and start-up goes on (R616). -/
def netbootRetry (s : State) (image : Option (List Byte)) : State :=
  match image with
  | none => s
  | some b =>
    if s.usnea.netTrying ∧ !s.power.held ∧ fwValid s b then toStage (fwStart s b false true) .firstStage else s

def execNetbootRetry (image : Option (List Byte)) (s : State) : Out := .next (netbootRetry s image)

/-- New firmware has run 60 s. -/
def trialConfirm (s : State) : State :=
  if usneaUp s ∧ s.usnea.trialRun then
    raiseEvent ((norDirWrite s fun d => { d with trial := false }).mapUsnea fun u => { u with trialRun := false }) 5 (natLe 1 1)
  else s

def execFwTrialConfirm (s : State) : Out := .next (trialConfirm s)

/-! ### Messages: answers (R628, R632, R634) -/

/-- A mailbox response stands in MGT_MBX_RSP. -/
def mbxAnswer (s : State) (b : List Byte) : State :=
  (s.mapUsnea fun u => { u with
    mbxBusy := false
    mbxRsp := (List.range (ceilDiv b.length 4)).foldl (fun m i => Smap.put m i (BitVec.ofNat 32 (field b (4 * i) 4))) u.mbxRsp }).event .mgtEvent 0 0

/-- A message sealed in a session: the payload encrypted, the counter and the tag behind it (DESIGN CHOICE, log entry 43). -/
def sealBytes (x : Session) (num typ tag status flags : Nat) (payload : List Byte) : List Byte :=
  let h := natLe 2 typ ++ natLe 2 payload.length ++ natLe 4 tag ++ natLe 1 status ++ natLe 1 flags ++ natLe 2 num
  let c := Config.gcmSeal x.key (natLe 4 num ++ natLe 8 (x.tx + 1)) (h ++ natLe 4 0) payload
  let body := slice c 0 payload.length
  h ++ natLe 4 (crc32c (h ++ natLe 4 0 ++ body)) ++ body ++ natLe 8 (x.tx + 1) ++ slice c payload.length 16

/-- A response to a request, over its transport, sealed where the request was; the black box records its outcome. -/
def mgmtReply (s : State) (q : MgmtReq) (status : Nat) (payload : List Byte) : State :=
  if !usneaUp s then s
  else
    let s := boxAdd s 3 (natLe 2 q.typ ++ natLe 4 q.tag ++ natLe 1 status)
    let sess := q.session.bind fun n => (s.usnea.sessions.get n).map fun x => (n, x)
    let b := match sess with
      | some (n, x) => sealBytes x n q.typ q.tag status 3 payload
      | none => mgmtBytes q.typ q.tag status 1 0 payload
    let s := match sess with
      | some (n, x) => s.mapUsnea fun u => { u with sessions := u.sessions.put n { x with tx := x.tx + 1 } }
      | none => s
    if q.via = .mailbox then mbxAnswer s b else s.mapUsnea fun u => { u with sent := (q.via, q.src, b) :: u.sent }

/-- The kept response to a request. -/
def keptAnswer (s : State) (q : MgmtReq) : Option (List Byte) :=
  (s.usnea.tags.find? fun t => t.1 == q.via && t.2.1 == q.src && t.2.2.1 == q.tag).map (·.2.2.2)

/-- The newest `n` kept responses of a requester; those of others stay. -/
def trimTags (via : Transport) (src : List Byte) : Nat → List (Transport × List Byte × Nat × List Byte) → List (Transport × List Byte × Nat × List Byte)
  | _, [] => []
  | n, t :: l =>
    if t.1 == via && t.2.1 == src then (match n with
      | 0 => trimTags via src 0 l
      | k + 1 => t :: trimTags via src k l)
    else t :: trimTags via src n l

/-- A response that is kept for a repeat of the TAG, unless it is BUSY. -/
def mgmtReplyOnce (s : State) (q : MgmtReq) (status : Nat) (payload : List Byte) : State :=
  let s := if status = 1 ∨ !usneaUp s then s else s.mapUsnea fun u => { u with
    tags := trimTags q.via q.src 256 ((q.via, q.src, q.tag, natLe 1 status ++ payload) :: u.tags) }
  mgmtReply s q status payload

/-- A request that is carried out at most once: a repeat is answered with the kept response; one that an ADMIN command still runs
for is answered by its end. -/
def once (s : State) (q : MgmtReq) (f : State → State) : State :=
  match keptAnswer s q with
  | some b => mgmtReply s q (field b 0 1) (b.drop 1)
  | none => if s.usnea.admins.any fun a => a.2.via == q.via && a.2.src == q.src && a.2.tag == q.tag then s else f s

/-! ### Messages: requests (R628 to R630) -/

/-- TYPE values that are reserved in a request. -/
def reservedType (t : Nat) : Bool := t == 0 || t == 0x13 || decide (t > 0x15)

/-- Class O messages. -/
def classO (t : Nat) : Bool := [0x0001, 0x0002, 0x0003, 0x0005, 0x0006, 0x0010, 0x0015].contains t

/-- Bytes of the message that stands in MGT_MBX_REQ. -/
def mbxBytes (s : State) (n : Nat) : List Byte :=
  (List.range n).map fun i => BitVec.ofNat 8 ((s.mbxWord (i / 4)).toNat / 256 ^ (i % 4))

/-- Bytes of a message by the LEN and FLAGS of its header. -/
def msgLength (h : List Byte) : Nat := 16 + field h 2 2 + (if bit (field h 9 1) 1 then 24 else 0)

/-- The bytes of a request: the mailbox holds its own. -/
def msgBytes (s : State) (m : MgmtMsg) : List Byte := if m.via = .mailbox then mbxBytes s (msgLength (mbxBytes s 16)) else m.bytes

/-- A request's form: LEN, CRC, no reserved bit, neither a response nor an event, STATUS zero, and SESSION zero unless it is sealed. -/
def msgForm (b : List Byte) : Bool :=
  decide (16 ≤ b.length) && decide (field b 2 2 ≤ 4080) && decide (b.length = msgLength b) && decide (b.length ≤ 4120) &&
    (field b 9 1 == 0 && field b 10 2 == 0 || field b 9 1 == 2) && field b 8 1 == 0 &&
    decide (field b 12 4 = crc32c (slice b 0 12 ++ natLe 4 0 ++ slice b 16 (field b 2 2)))

/-- A sealed request opened: the session with its counter raised, and the payload; none where the counter does not rise or the
tag fails. -/
def unsealMsg (s : State) (b : List Byte) : Option (Nat × Session × List Byte) :=
  let num := field b 10 2
  let n := field b 2 2
  let ctr := field b (16 + n) 8
  match s.usnea.sessions.get num with
  | none => none
  | some x =>
    if ctr ≤ x.rx then none
    else (Config.gcmOpen x.key (natLe 4 num ++ natLe 8 ctr) (slice b 0 12 ++ natLe 4 0) (slice b 16 n ++ slice b (24 + n) 16)).map
      fun p => (num, { x with rx := ctr, last := rtc s }, p)

/-- A class P request may run: from the host mailbox, or sealed. -/
def privileged (q : MgmtReq) : Bool := q.via == .mailbox || q.session.isSome

/-- A request whose TYPE is known: a reserved one is INVALID, a class P one without its rights DENIED; another row's is left to
that row. -/
def dispatchMsg (s : State) (q : MgmtReq) (typ : Nat) (payload : List Byte) (f : State → MgmtReq → List Byte → State) : State :=
  if reservedType q.typ then mgmtReply s q 3 []
  else if q.typ ≠ typ then s
  else if !classO typ && !privileged q then mgmtReply (s.event .mgtEvent 0 8) q 2 []
  else f s q payload

/-- A management message of a type arrives. -/
def onMessage (s : State) (m : MgmtMsg) (typ : Nat) (f : State → MgmtReq → List Byte → State) : State :=
  let b := msgBytes s m
  if !usneaUp s ∨ (m.via = .mailbox ∧ !s.usnea.mbxBusy) ∨ !msgForm b then s
  else if field b 0 2 ≠ typ ∧ !reservedType (field b 0 2) then s
  else
    let src := if m.via = .mailbox then [] else m.src
    let q : MgmtReq := { via := m.via, src := src, typ := field b 0 2, tag := field b 4 4, session := none }
    if bit (field b 9 1) 1 then
      (match unsealMsg s b with
        | none => s.event .mgtEvent 0 8
        | some (n, x, p) =>
          dispatchMsg (s.mapUsnea fun u => { u with sessions := u.sessions.put n x }) { q with session := some n } typ p f)
    else dispatchMsg s q typ (slice b 16 (field b 2 2)) f

/-! ### Class O messages (R629, R637) -/

/-- IDENTIFY (payload layouts: DESIGN CHOICE, log entry 36). -/
def identify (s : State) (q : MgmtReq) (p : List Byte) : State :=
  if p.isEmpty then
    mgmtReply s q 0 (uidBytes ++ natLe 1 2 ++ natLe 4 s.usnea.fwVersion.toNat ++ natLe 4 (nodeId s) ++ natLe 1 (b2n (norDir s).activeB))
  else mgmtReply s q 3 []

def execIdentify (msg : MgmtMsg) (s : State) : Out := .next (onMessage s msg 0x0001 identify)

/-- SENSORS. -/
def sensorsMsg (s : State) (q : MgmtReq) (p : List Byte) : State :=
  let a := field p 0 2
  let n := field p 2 2
  if p.length ≠ 4 ∨ a + n > 120 then mgmtReply s q 3 []
  else mgmtReply s q 0 ((List.range n).flatMap fun i => natLe 4 (regView s 0x7F .mgtSValue (a + i)).toNat)

def execSensors (msg : MgmtMsg) (s : State) : Out := .next (onMessage s msg 0x0002 sensorsMsg)

/-- The 64 bytes of a persistent log record (R621). -/
def logBytes (r : LogRec) : List Byte :=
  let b := natLe 8 r.seq ++ natLe 8 r.rtc ++ natLe 1 r.kind ++ natLe 1 r.part ++ natLe 2 r.qp ++ natLe 4 0 ++ natLe 8 0 ++ slice r.body 0 32
  patch b 20 (natLe 4 (crc32c b))

/-- LOG_READ: without class P rights, the records of kinds 0x01 and 0x02 are left out. -/
def logRead (s : State) (q : MgmtReq) (p : List Byte) : State :=
  let l := s.usnea.log.filter fun r => decide (field p 0 8 ≤ r.seq) && (privileged q || decide (r.kind ≠ 1 ∧ r.kind ≠ 2))
  if p.length ≠ 12 then mgmtReply s q 3 [] else mgmtReply s q 0 ((l.take (min 63 (field p 8 4))).flatMap logBytes)

def execLogRead (msg : MgmtMsg) (s : State) : Out := .next (onMessage s msg 0x0003 logRead)

/-- ATTEST: a partition report is of partition 0, the requester's own. -/
def attestMsg (s : State) (q : MgmtReq) (p : List Byte) : State :=
  let scope := field p 0x30 1
  if p.length ≠ 64 ∨ !zeroAt p 0x31 15 ∨ (scope ≠ 1 ∧ scope ≠ 2) then mgmtReply s q 3 []
  else mgmtReply s q 0 (attestReport s scope 0 (slice p 0 48))

def execMgmtAttest (msg : MgmtMsg) (s : State) : Out := .next (onMessage s msg 0x0005 attestMsg)

/-- CERTIFICATE. -/
def certificateMsg (s : State) (q : MgmtReq) (p : List Byte) : State :=
  if p.length ≠ 4 then mgmtReply s q 3 [] else mgmtReply s q 0 ((s.usnea.certs.drop (field p 0 4)).take 4080)

def execMgmtCertificate (msg : MgmtMsg) (s : State) : Out := .next (onMessage s msg 0x0006 certificateMsg)

/-- PTM_INFO. -/
def ptmInfo (s : State) (q : MgmtReq) (p : List Byte) : State :=
  if p.isEmpty then mgmtReply s q 0 (natLe 4 s.usnea.ptmSeq.toNat ++ natLe 8 s.usnea.ptmRtc.toNat ++ natLe 8 s.usnea.ptmNs.toNat)
  else mgmtReply s q 3 []

def execPtmInfo (msg : MgmtMsg) (s : State) : Out := .next (onMessage s msg 0x0015 ptmInfo)

/-- Usnea publishes a pair: the sequence count passes an odd value and is even again. -/
def ptmPublish (s : State) (ns : W64) : State :=
  if !usneaUp s then s
  else s.mapUsnea fun u => { u with ptmSeq := u.ptmSeq + 2, ptmRtc := BitVec.ofNat 64 (rtc s), ptmNs := ns }

def execPtmPublish (ns : W64) (s : State) : Out := .next (ptmPublish s ns)

/-! ### Sessions (R630) -/

/-- Lowest session number in use by none. -/
def freeSession (s : State) : Option Nat := ((List.range 16).map (· + 1)).find? fun n => !s.usnea.sessions.has n

/-- The signed part of a SESSION_OPEN: slot, nonce, the slot's key, the ephemeral key. -/
def openForm (s : State) (p : List Byte) : Bool :=
  let k := field p 0 1
  let x := slice p 36 48
  let y := slice p 84 48
  slotLive s k && s.sec.digests.get k == some (Config.sha384 (x ++ y)) &&
    Config.ecdsaVerify x y (slice p 228 48) (slice p 276 48) (Config.sha384 (p.take 228 ++ uidBytes))

/-- SESSION_OPEN: a key agreement under both sides' signatures. -/
def sessionOpen (s : State) (q : MgmtReq) (p : List Byte) : State :=
  if p.length ≠ 324 ∨ !zeroAt p 1 3 then mgmtReply s q 3 []
  else if !openForm s p then mgmtReply (s.event .mgtEvent 0 8) q 2 []
  else match freeSession s with
    | none => mgmtReply s q 1 []
    | some n =>
      let nonce := slice (Config.freeBytes s.free 32) 0 32
      let priv := slice (Config.freeBytes (s.free + 1) 48) 0 48
      let eph := slice (Config.publicKey priv) 0 96
      let nonces := slice p 4 32 ++ nonce
      let key := Config.hkdf (Config.ecdh priv (slice p 132 96)) nonces (label "octeo-mgmt") 32
      let x : Session := { slot := field p 0 1, key := key, rx := 0, tx := 0, last := rtc s }
      let sig := slice (Config.ecdsaSign (deviceKey s "octeo-attest") (Config.sha384 (nonces ++ slice p 132 96 ++ eph))) 0 96
      mgmtReply (s.mapUsnea fun u => { u with sessions := u.sessions.put n x }).drawn.drawn q 0 (natLe 2 n ++ nonce ++ eph ++ sig)

def execSessionOpen (msg : MgmtMsg) (s : State) : Out := .next (onMessage s msg 0x0010 sessionOpen)

/-- A session ends. -/
def endSession (s : State) (n : Nat) : State := s.mapUsnea fun u => { u with sessions := u.sessions.del n }

/-- SESSION_CLOSE ends the session in which it was sealed. -/
def sessionClose (s : State) (q : MgmtReq) (p : List Byte) : State :=
  match q.session with
  | some n => if p.isEmpty then endSession (mgmtReply s q 0 []) n else mgmtReply s q 3 []
  | none => mgmtReply s q 3 []

def execSessionClose (msg : MgmtMsg) (s : State) : Out := .next (onMessage s msg 0x0011 sessionClose)

def execSessionIdleExpiry (session : Nat) (s : State) : Out := .next (endSession s session)

/-! ### Reads of class P (R603, R623, R629) -/

/-- A record of a black-box ring, by its place; a place never written reads zero. -/
def boxRecordAt (next : Nat) (l : List (List Byte)) (i : Nat) : List Byte :=
  slice (l.getD ((next + 8191 - i) % 8192) []) 0 32

/-- BLACKBOX_READ of the live ring or of the saved one. -/
def blackboxRead (s : State) (q : MgmtReq) (p : List Byte) : State :=
  let ring : Option (Nat × List (List Byte)) :=
    if field p 0 1 = 0 then some (s.usnea.bbNext, s.usnea.blackbox)
    else if field p 0 1 = 1 then s.usnea.bbSaved.map fun b => (b.1, b.2.2) else none
  let a := field p 2 2
  let n := min 127 (field p 4 2)
  match ring with
  | none => mgmtReply s q 3 []
  | some r =>
    if p.length ≠ 6 ∨ field p 1 1 ≠ 0 ∨ a ≥ 8192 then mgmtReply s q 3 []
    else mgmtReply s q 0 ((List.range n).flatMap fun i => boxRecordAt r.1 r.2 ((a + i) % 8192))

def execBlackboxRead (msg : MgmtMsg) (s : State) : Out := .next (onMessage s msg 0x0004 blackboxRead)

/-- LEDGER_READ of any partition; the records returned count as read. -/
def ledgerMsg (s : State) (q : MgmtReq) (p : List Byte) : State :=
  let part := field p 0 1
  if p.length ≠ 16 ∨ part ≥ 64 ∨ !zeroAt p 1 7 then mgmtReply s q 3 []
  else
    let l := ledgerFrom s part (field p 8 8) 4080
    mgmtReply (ledgerReturned s part l) q 0 (l.flatMap lrecBytes)

def execMgmtLedgerRead (msg : MgmtMsg) (s : State) : Out := .next (onMessage s msg 0x0007 ledgerMsg)

/-! ### Register writes (R583, R633, R634) -/

/-- RAS_COMMAND writes RAS_CMD. -/
def rasMsg (s : State) (q : MgmtReq) (p : List Byte) : State := once s q fun s =>
  if p.length ≠ 4 then mgmtReplyOnce s q 3 []
  else mgmtReplyOnce (wordWrite s 0x7F 0xF00008 true (BitVec.ofNat 32 (field p 0 4))) q 0 []

def execRasCommand (msg : MgmtMsg) (s : State) : Out := .next (onMessage s msg 0x0008 rasMsg)

/-- REG_WRITE: block, alias, offset, value. -/
def regMsg (s : State) (q : MgmtReq) (p : List Byte) : State := once s q fun s =>
  let b := field p 0 1
  let al := field p 1 1
  let x := field p 4 4
  if p.length ≠ 12 ∨ !zeroAt p 2 2 ∨ b ≥ 18 ∨ al ≥ 4 ∨ x ≥ 2 ^ 18 ∨ x % 4 ≠ 0 then mgmtReplyOnce s q 3 []
  else mgmtReplyOnce (wordWrite s 0x7F (2 ^ 20 * b + 2 ^ 18 * al + x) true (BitVec.ofNat 32 (field p 8 4))) q 0 []

def execRegWrite (msg : MgmtMsg) (s : State) : Out := .next (onMessage s msg 0x0009 regMsg)

/-! ### ADMIN (R629) -/

/-- An ADMIN message's form: the entry, its parameter block and input data behind it, a result that a response can hold. -/
def adminForm (p : List Byte) : Bool :=
  decide (64 ≤ p.length) && decide (p.length = 64 + ePbLen p + eDataLen p) && !eDataList p && !eResultList p &&
    decide (eResultLen p ≤ 4048)

/-- ADMIN: the command is admitted with the rights of the physical function; its end answers the message. -/
def adminMsg (s : State) (q : MgmtReq) (p : List Byte) : State := once s q fun s =>
  if !adminForm p then mgmtReplyOnce s q 3 []
  else
    let n := s.host.nextCmd
    (admitEntry s none 0 0 true p).mapUsnea fun u => { u with admins := u.admins ++ [(n, q)] }

def execAdmin (msg : MgmtMsg) (s : State) : Out := .next (onMessage s msg 0x000A adminMsg)

/-! ### The receive area, images and firmware (R617, R618, R631) -/

/-- Bytes written into the receive area. -/
def recvWrite (s : State) (use : RecvUse) (off : Nat) (b : List Byte) : State :=
  s.mapUsnea fun u => { u with recvUse := use, recv := memWrite u.recv off b }

/-- Bytes written into a NOR region that keeps a list of bytes; what lies before them and was never written reads 0xFF. -/
def regionWrite (r : List Byte) (off : Nat) (b : List Byte) : List Byte :=
  let r := r ++ List.replicate (off + b.length - r.length) 0xFF
  patch r off b

/-- IMAGE_CHUNK: up to 2 MiB into the receive area, beyond it into the IMAGE region (DEDUCED, log entry 46). -/
def imageChunk (s : State) (q : MgmtReq) (p : List Byte) : State :=
  let off := field p 0 4
  let b := p.drop 4
  let room := ((norRegion s 3).map (·.2)).getD 0
  if p.length < 4 ∨ (off + b.length > 2097152 ∧ off + b.length > min room 16777216) then mgmtReply s q 3 []
  else if s.usnea.recvUse = .firmware ∨ s.usnea.recvUse = .boot then mgmtReply s q 1 []
  else
    let low := b.take (2097152 - off)
    let high := b.drop (2097152 - off)
    let s := recvWrite s .image off low
    let s := if high.isEmpty then s else s.mapUsnea fun u => { u with imageRegion := regionWrite u.imageRegion (max off 2097152) high }
    mgmtReply s q 0 []

def execImageChunk (msg : MgmtMsg) (s : State) : Out := .next (onMessage s msg 0x000B imageChunk)

/-- The receive area is free again. -/
def recvFree (s : State) : State := s.mapUsnea fun u => { u with recvUse := .free, recv := [] }

/-- Usnea stages bytes: it writes the IMG registers. -/
def stageFrom (s : State) (src addr n : Nat) : State :=
  let s := wordWrite s 0x7F 0x100004 true (BitVec.ofNat 32 addr)
  let s := wordWrite s 0x7F 0x100008 true 0
  let s := wordWrite s 0x7F 0x10000C true (BitVec.ofNat 32 n)
  wordWrite s 0x7F 0x100000 true (BitVec.ofNat 32 (1 + 4 * src))

/-- IMAGE_STAGE: an image of at most 2 MiB from the receive area, a larger one from the IMAGE region, into which the receive area's
part of it is written; images stage once DDR holds the staging slots. -/
def imageStage (s : State) (q : MgmtReq) (p : List Byte) : State := once s q fun s =>
  let n := field p 0 4
  if p.length ≠ 4 then mgmtReplyOnce s q 3 []
  else if s.usnea.recvUse ≠ .image ∨ !s.power.memDone.contains 0 ∨ s.blockOut 1 then mgmtReplyOnce s q 4 []
  else if n ≤ 2097152 then mgmtReplyOnce (recvFree (stageFrom s 2 0 n)) q 0 []
  else
    let low := (List.range 2097152).map fun i => s.usnea.recv.getD i 0xFF
    let s := s.mapUsnea fun u => { u with imageRegion := regionWrite u.imageRegion 0 low }
    mgmtReplyOnce (recvFree (stageFrom s 1 (((norRegion s 3).map (·.1)).getD 0) n)) q 0 []

def execImageStage (msg : MgmtMsg) (s : State) : Out := .next (onMessage s msg 0x000C imageStage)

/-- FW_CHUNK. -/
def fwChunk (s : State) (q : MgmtReq) (p : List Byte) : State :=
  let off := field p 0 4
  let b := p.drop 4
  if p.length < 4 ∨ off + b.length > 1048576 then mgmtReply s q 3 []
  else if s.usnea.recvUse = .image ∨ s.usnea.recvUse = .boot then mgmtReply s q 1 []
  else mgmtReply (recvWrite s .firmware off b) q 0 []

def execFwChunk (msg : MgmtMsg) (s : State) : Out := .next (onMessage s msg 0x000D fwChunk)

/-- The firmware image that the receive area holds: as many bytes as its header names. -/
def recvFirmware (s : State) : List Byte :=
  let head := (List.range 64).map fun i => s.usnea.recv.getD i 0
  (List.range (min 1048576 (fwLength head))).map fun i => s.usnea.recv.getD i 0

/-- A verified image becomes the new copy: with local boot it is written to the copy that is not ACTIVE, and the directory names it
on trial; it is placed in the T3 reserve, its runtime components are measured, and Usnea restarts into it. -/
def activate (s : State) (b : List Byte) : State :=
  let loc := !(norDir s).netboot && (norRegion s 1).isSome && (norRegion s 2).isSome
  let copyB := loc && !(norDir s).activeB
  let s := if !loc then s else
    norDirWrite (s.mapUsnea fun u => if copyB then { u with fwB := b } else { u with fwA := b }) fun d => { d with activeB := copyB, trial := true }
  let s := measureRuntime (fwLoad (recvFree s) b copyB (!loc))
  (usneaHalt (raiseEvent s 5 (natLe 1 2)) 4).event .mgtEvent 0 2

/-- FW_ACTIVATE: the response goes out before the restart. -/
def fwActivate (s : State) (q : MgmtReq) (p : List Byte) : State := once s q fun s =>
  if !p.isEmpty then mgmtReplyOnce s q 3 []
  else if s.usnea.recvUse ≠ .firmware then mgmtReplyOnce s q 4 []
  else
    let b := recvFirmware s
    if fwValid s b then activate (mgmtReply s q 0 []) b else mgmtReplyOnce (recvFree s) q 5 []

def execFwActivate (msg : MgmtMsg) (s : State) : Out := .next (onMessage s msg 0x000E fwActivate)

def execReceiveAreaTimeout (s : State) : Out :=
  .next (if s.usnea.recvUse = .image ∨ s.usnea.recvUse = .firmware then recvFree s else s)

/-- NOR_WRITE: region MEDIA alone. -/
def norWrite (s : State) (q : MgmtReq) (p : List Byte) : State := once s q fun s =>
  let off := field p 4 4
  let b := p.drop 8
  let room := ((norRegion s 4).map (·.2)).getD 0
  if p.length < 8 ∨ !zeroAt p 1 3 ∨ off + b.length > room then mgmtReplyOnce s q 3 []
  else if field p 0 1 ≠ 4 then mgmtReplyOnce s q 2 []
  else mgmtReplyOnce (s.mapUsnea fun u => { u with media := b.zipIdx.foldl (fun m x => Smap.store 0xFF m (off + x.2) x.1) u.media }) q 0 []

def execNorWrite (msg : MgmtMsg) (s : State) : Out := .next (onMessage s msg 0x000F norWrite)

/-! ### Subscriptions (R635) -/

/-- SUBSCRIBE: a destination of 20 bytes and the mask. -/
def subscribe (s : State) (q : MgmtReq) (p : List Byte) : State :=
  let dest := p.take 20
  let mask := field p 20 2
  if p.length ≠ 24 ∨ field p 0 1 > 3 ∨ field p 1 1 ≠ 0 ∨ mask ≥ 512 ∨ !zeroAt p 22 2 then mgmtReply s q 3 []
  else
    let others := s.usnea.subs.filter fun b => b.dest != dest
    if others.length ≥ 8 then mgmtReply s q 1 []
    else
      let b : Sub := { dest := dest, mask := mask, next := 0, events := [], dropped := 0 }
      mgmtReply (s.mapUsnea fun u => { u with subs := others ++ [b] }) q 0 []

def execSubscribe (msg : MgmtMsg) (s : State) : Out := .next (onMessage s msg 0x0012 subscribe)

/-- EVENT_ACK: the requester's own subscription, by its address, holds the event no longer. -/
def eventAck (s : State) (q : MgmtReq) (p : List Byte) : State :=
  if p.length ≠ 4 ∨ !s.usnea.subs.any fun b => b.dest == q.src then mgmtReply s q 3 []
  else mgmtReply (s.mapUsnea fun u => { u with subs := u.subs.map fun b =>
    if b.dest == q.src then { b with events := b.events.filter fun e => decide (e.seq ≠ field p 0 4) } else b }) q 0 []

def execEventAck (msg : MgmtMsg) (s : State) : Out := .next (onMessage s msg 0x0014 eventAck)

/-- An event not acknowledged for 100 ms goes out again; after ten times it is dropped. -/
def eventResend (s : State) (sub seq : Nat) : State :=
  match (s.usnea.subs[sub]?).bind fun b => (b.events.find? fun e => e.seq == seq).map fun e => (b, e) with
  | none => s
  | some (b, e) =>
    if !usneaUp s then s
    else
      let put (b' : Sub) (u : UsneaState) : UsneaState := { u with subs := u.subs.set sub b' }
      if e.sent ≥ 10 then
        (s.mapUsnea (put { b with events := b.events.filter fun x => x.seq != seq, dropped := b.dropped + 1 })).event .mgtEvent 0 7
      else s.mapUsnea fun u =>
        let u := put { b with events := b.events.map (fun x => if x.seq = seq then { x with sent := x.sent + 1 } else x), dropped := 0 } u
        { u with sent := (destVia b.dest, b.dest, eventBytes e b.dropped) :: u.sent }

def execEventResend (sub seq : Nat) (s : State) : Out := .next (eventResend s sub seq)

/-! ### Sensors (R620) -/

/-- One reading: MGT_S_VALUE, MGT_S_MAX, and the alarm above the threshold. -/
def sensorReading (s : State) (x : Nat × BitVec 16) : State :=
  if x.1 ≥ 120 then s
  else
    let m := (s.reg .mgtSMax x.1).toNat % 65536
    let more := if x.1 < 96 then decide (x.2.toInt > toSigned 16 m) else decide (x.2.toNat > m)
    let s := s.mapUsnea fun u => { u with sensors := u.sensors.put x.1 x.2 }
    let s := if more then s.setReg .mgtSMax x.1 (BitVec.ofNat 32 x.2.toNat) else s
    if sensorHigh s x.1 x.2 then raiseEvent (s.event .mgtEvent 0 5) 4 (natLe 1 x.1 ++ natLe 2 x.2.toNat) else s

def execSensorRead (values : List (Nat × BitVec 16)) (s : State) : Out :=
  .next (if usneaUp s then values.foldl sensorReading s else s)

/-! ### Component faults (R610) -/

/-- A runtime component is stopped and reloaded alone: the requests it held are answered FAILED; a third fault within 10 minutes
restarts Usnea. -/
def componentFault (s : State) (c : Nat) : State :=
  if !usneaUp s ∨ c = 0 ∨ c > 8 then s
  else
    let held := if c = 4 then s.usnea.admins else []
    let times := ((s.usnea.compFaults.getD c []).filter fun t => decide (rtc s - t < 600 * 2 ^ 26)) ++ [rtc s]
    let s := s.mapUsnea fun u => { u with compFaults := u.compFaults.put c times, admins := if c = 4 then [] else u.admins }
    let s := held.foldl (fun s a => mgmtReplyOnce s a.2 5 []) s
    let s := raiseEvent ((logAdd (boxAdd s 4 (natLe 1 c)) 3 0 0 (natLe 1 c)).event .mgtEvent 0 4) 5 (natLe 1 4 ++ natLe 1 c)
    if times.length ≥ 3 then usneaHalt s 3 else s

def execComponentFault (comp : Nat) (s : State) : Out := .next (componentFault s comp)

/-! ### Board interfaces (R624, R625, R627) -/

def execMgmtLinkChange (up : Bool) (s : State) : Out := .next (s.mapUsnea fun u => { u with netUp := up })

/-- An MCTP control message over I3C or SMBus is answered, as another standard gives; it may assign the endpoint ID. -/
def mctpControl (s : State) (via : Transport) (b : List Byte) : State :=
  if !usneaUp s ∨ (via ≠ .i3c ∧ via ≠ .smbus) then s
  else s.mapUsnea fun u => { u with
    mctpSent := Config.mctpAnswer b :: u.mctpSent
    eid := match Config.mctpEid b with
      | some e => if via = .i3c then (e % 256, u.eid.2) else (u.eid.1, e % 256)
      | none => u.eid }

def execMctpControlMessage (via : Transport) (bytes : List Byte) (s : State) : Out := .next (mctpControl s via bytes)

def execI3cDynamicAddress (addr : Nat) (s : State) : Out :=
  .next (if addr < 128 then s.mapUsnea fun u => { u with i3cAddr := some addr } else s)

/-- The TAP takes an instruction: on a part whose JTAG fuse is blown, only those of R627. -/
def jtagAccepts (s : State) (i : JtagInstr) : Bool :=
  !s.sec.jtagOff || (match i with
    | .bypass | .idcode | .sample => true
    | .extest => s.power.held
    | .debug => false)

/-- What IDCODE shifts out. -/
def idcode : W32 := (2 : BitVec 4) ++ Config.idcodeLow

def execJtagInstruction (instr : JtagInstr) (s : State) : Out :=
  .next (if jtagAccepts s instr then s.mapUsnea fun u => { u with jtag := instr } else s)

end Sys2Proof.Machine
end

