-- ==== Sys2Proof/Machine/Completion.lean ====
section
/-! DEFINITION. The end of a command: its completion entry, or the answer of the ADMIN message that ran it (17_host_queues R518;
20_usnea_management R629). -/
namespace Sys2Proof.Machine
open Sys2Proof

/-- The end of a command that an ADMIN message ran: the completion entry and the result answer the message. The entry's PHASE has
no ring to alternate in; it is a free value. -/
def completeAdmin (s : State) (n : Nat) (c : Cmd) : State :=
  let result := c.result.foldl (fun b r => patch (b ++ List.replicate (r.1 + r.2.length - b.length) 0) r.1 r.2) []
  let entry := completionBytes s c c.status (Config.freeNat s.free % 2 == 1)
  let s := if c.status = stFaultedPartial ∨ c.status = stFaultedNone then countAffected (s.bump .rasPFaulted c.part 1) n else s
  let s := match s.usnea.admins.find? fun a => a.1 == n with
    | some a => mgmtReplyOnce (s.mapUsnea fun u => { u with admins := u.admins.filter fun a => a.1 != n }).drawn a.2 0 (entry ++ result)
    | none => s
  let s := s.mapHost fun h => { h with cmds := h.cmds.del n }
  let s := s.mapRas fun r => { r with cmdFaults := r.cmdFaults.filter fun f => f.1 != n }
  afterCompletion s c.part

/-- A command that has ended completes (R518). -/
def completionWrite (s : State) (n : Nat) : State :=
  match s.host.cmds.get n with
  | none => s
  | some c =>
    if c.phase ≠ .done then s
    else match c.qp with
      | some d => completeQp s n d c
      | none => completeAdmin s n c

def execCompletionWrite (cmd : Nat) (s : State) : Out := .next (completionWrite s cmd)

end Sys2Proof.Machine
end

