-- ==== Sys2Proof/Machine/ImageApply.lean ====
section
/-! DEFINITION. The apply of a Kelpin image at a boundary, and the scrub of what a partition gives up (02_structure_images R36,
R53 to R60, R694; 12_memory_tiers R336, R363, R367; 14_twill_fabric R429; 16_isolation_security R487, R495; 17_host_queues
R511). -/
namespace Sys2Proof.Machine
open Sys2Proof

/-! ### Held register values (R56) -/

/-- Record of an image and bit field in it that an image-owned register instance stands for. -/
def heldField (k : Nat) : Option (Nat × Nat × Nat) :=
  let u := k % 262144
  let rec_ := 65536 * 7 + 6 * (u / 8) + u % 8
  match regOfKey k with
  | some .memPGuar => some (rec_, 0, 24)
  | some .memPCeil => some (rec_, 24, 24)
  | some .memPDepth => some (rec_, 48, 16)
  | _ => none

/-- Held values put into a configuration, but for records that its image carries. -/
def withHeld (carried : List Nat) (held : Smap RegCopy) (c : ImgCfg) : ImgCfg :=
  ⟨held.foldl (fun m h =>
    match heldField h.1 with
    | some (r, lo, w) => if carried.contains r then m else Smap.store 0 m r (setBits (Smap.getD m r 0) lo w h.2.val.toNat)
    | none => m) c.recs⟩

/-- A held value gives way to the image's own. -/
def heldClash (carried : List Nat) (held : Smap RegCopy) : Bool :=
  held.any fun h => ((heldField h.1).map fun f => carried.contains f.1).getD false

/-! ### Partitions (R58, R59) -/

/-- What a partition has given up enters SCRUBBING: a T2 window; model copies in it are gone. -/
def scrubWindow (s : State) (w o : Nat) : State :=
  copiesLeave (s.mapImg fun i => { i with scrubWin := i.scrubWin.put w o, scrubStep := i.scrubStep.put o 2 }) (· == w)

/-- A released partition: its keys are destroyed at the boundary, which leaves its flash and journal data unreadable, its
shards are gone and its resources enter SCRUBBING (R58, R367). -/
def releasePart (s : State) (was : ImgCfg) (p : Nat) : State :=
  let bs := ((s.felt.map.filter fun e => laddrPart e.1 == p).map (·.2.block)).eraseDups
  let s := unmapAll s ((s.felt.map.filter fun e => laddrPart e.1 == p).map (·.1))
  let s := (bs.filter fun b => (mappedIn s b).isEmpty).foldl eraseBlock s
  let s := s.mapSec fun x => { x with keys := x.keys.del p, oldKeys := x.oldKeys.del p, rekey := x.rekey.del p }
  let s := (s.mapShards fun m => m.filter fun e => e.2.part != p).mapFelt fun f => { f with
    zones := f.zones.filter fun e => e.1 / 2 ^ 24 != p, zoneWait := f.zoneWait.del p, locators := f.locators.filter fun l => l / 64 != p }
  let s := s.mapEpoch fun e => { e with
    journals := e.journals.del p, deferred := e.deferred.filter fun d => d.1 != p, markDue := delSet e.markDue p
    pins := e.pins.filter fun x => x.1 / 2 ^ 48 != p }
  let s := s.mapModel fun m => { m with unavail := m.unavail.filter fun e => e.1 / 4 != p }
  let ddr := cfgDdr was p
  s.mapImg fun i => { i with
    parts := i.parts.put p .scrubbing, firstEpoch := i.firstEpoch.del p, scrubStep := i.scrubStep.put p 2
    scrubDdr := if ddr.2 = 0 then i.scrubDdr else i.scrubDdr.put p ddr
    scrubSheet := (s.mem.sheet.filter fun e => e.2.owner == p).foldl (fun m e => Smap.put m e.1 p) i.scrubSheet }

/-- The state of one partition after an apply, in the epoch that begins. -/
def partMove (was : ImgCfg) (s : State) (p : Nat) : State :=
  let put (x : PState) : State := s.mapImg fun i => { i with parts := i.parts.put p x }
  match cfgPartState s.img.cfg p, partState s p with
  | 1, .absent => (put .active).mapImg fun i => { i with firstEpoch := i.firstEpoch.put p s.epoch.cur }
  | 1, .draining => put .active
  | 1, .drained => put .active
  | 2, .active => partitionDrained (put .draining) p
  | 0, .drained => releasePart s was p
  | _, _ => s

/-- Windows that partitions give up: all of a released one, and those that the image takes from another (R58, R60). -/
def windowsApply (was : ImgCfg) (before : Nat → PState) (s : State) : State :=
  (List.range 480).foldl (fun s w =>
    let o := cfgWinOwner was w
    if o < 64 ∧ before o ≠ .absent ∧ before o ≠ .scrubbing ∧ (partState s o = .scrubbing ∨ cfgWinOwner s.img.cfg w ≠ o) then scrubWindow s w o
    else s) s

/-- Queue pairs that change hands: one that is not DISABLED drains in the losing function's view first; a DISABLED one
appears with its window at reset (R511). -/
def queuesApply (was : ImgCfg) (s : State) : State :=
  let own (c : ImgCfg) (d : Nat) : Option Nat := (queueRange c d).map (·.part)
  let moved (d : Nat) : Bool := (own was d).isSome && own was d != own s.img.cfg d && (s.qp d).leaving.isNone
  let idle (d : Nat) : Bool := moved d && (s.qp d).st == .disabled
  let s := s.mapRegs fun r => { r with
    force := r.force.filter fun e => !((qpRwRegs.any fun x => e.1 / 262144 == x.ctorIdx) && idle (e.1 % 262144)) }
  s.mapHost fun h => { h with qps := (h.qps.filter fun e => !idle e.1).map fun e =>
    (e.1, if moved e.1 then { e.2 with st := .stopping, reenable := false, leaving := own was e.1 } else e.2) }

/-- Keys that an image brings come into force; a raised KEY_GEN of a partition that holds data starts its re-encryption
(R46, R487). -/
def keysApply (s : State) (keys : Smap KeySet) : State :=
  keys.foldl (fun s e =>
    let ddr := cfgDdr s.img.cfg e.1
    match s.sec.keys.get e.1 with
    | some old =>
      let s := s.mapSec fun x => { x with keys := x.keys.put e.1 e.2 }
      if e.2.gen ≤ old.gen then s
      else rekeyCheck (s.mapSec fun x => { x with
        oldKeys := x.oldKeys.put e.1 old
        rekey := x.rekey.put e.1 { t3Active := decide (ddr.2 > 0), mark := ddr.1 * 2 ^ 30, last := (ddr.1 + ddr.2) * 2 ^ 30
                                   t5Active := !(oldCodewords s e.1).isEmpty } }) e.1
    | none => s.mapSec fun x => { x with keys := x.keys.put e.1 e.2 }) s

/-! ### Routes (R429) -/

/-- Keys of the two words of a route table entry. -/
def routeKeys (i : Nat) : List Nat := [regKey .twlRtWord (2 * i), regKey .twlRtWord (2 * i + 1)]

/-- Route entries that an image replaces. -/
def carriesRoute (full : Bool) (carried : List Nat) (k : Nat) : Bool :=
  isRoute k && (full || carried.contains (65536 * 10 + k % 262144 / 2))

/-- The records of an image's ROUTES replace the entries of the shadow table and of the table in force. While block TWL is
OUT they wait in the shadow table for its return (R593). -/
def routesApply (full : Bool) (carried : List Nat) (s : State) : State :=
  let out (k : Nat) : Bool := carriesRoute full carried k
  let recs := (cfgRecs s.img.cfg 10).filter fun e => full || carried.contains (65536 * 10 + e.1)
  let words := recs.flatMap fun e => [(2 * e.1, BitVec.ofNat 32 e.2), (2 * e.1 + 1, BitVec.ofNat 32 (e.2 / 2 ^ 32))]
  if s.blockOut 12 then
    let olds := ((s.regs.force.map (·.1)) ++ s.regs.shadow.map (·.1)).filter out
    let s := olds.foldl (fun s k => s.setShadow .twlRtWord (k % 262144) 0) s
    let s := words.foldl (fun s e => s.setShadow .twlRtWord e.1 e.2) s
    s.mapRegs fun r => { r with
      staged := r.staged.filter fun e => !out e.1
      updPending := (olds ++ words.map fun e => regKey .twlRtWord e.1).foldl addSet r.updPending }
  else
    let s := s.mapRegs fun r => { r with
      force := r.force.filter fun e => !out e.1, shadow := r.shadow.filter fun e => !out e.1, staged := r.staged.filter fun e => !out e.1
      updPending := r.updPending.filter fun k => !out k }
    words.foldl (fun s e => s.setReg .twlRtWord e.1 e.2) s

/-! ### The apply (R54) -/

/-- The configuration in force becomes that of an image, with held values; commands admitted before keep what they had
(R55). -/
def takeConfig (s : State) (x : ImgSlot) : State :=
  let held := s.regs.held
  let was := s.img.cfg
  let wasSeq := s.img.activeSeq
  let used (q : Nat) : Bool := s.host.cmds.any fun c => c.2.imgSeq == q
  let keep (o : Option ImgSlot) : Option ImgSlot := match o with
    | some y => if y.seq = x.seq then none else some { y with cfg := withHeld (x.carried ++ y.carried) held y.cfg }
    | none => none
  let s := s.mapImg fun i => { i with
    cfg := withHeld x.carried held x.cfg, activeSeq := x.seq, applied := true, missedCount := 0, slot0 := keep i.slot0, slot1 := keep i.slot1
    oldCfgs := (if used wasSeq then i.oldCfgs.put wasSeq was else i.oldCfgs).filter fun e => used e.1 }
  (s.mapRegs fun r => { r with
    held := [], force := r.force.filter fun e => (heldField e.1).isNone }).eventIf (heldClash x.carried held) .imgStatus 0 4

/-- The epoch length of the image in force (R36). -/
def lenApply (s : State) : State :=
  let n := cfgEpochLen s.img.cfg
  if n = s.epoch.len then s else (s.mapEpoch fun e => { e with len := n }).event .epcEvent 0 2

/-- Translation and linking modes of every partition that the apply changes (R276, R396). -/
def modesApply (was : ImgCfg) (s : State) : State :=
  let s := (List.range 64).foldl (fun s p => zoneModeApply s p (bit (cfgModes was p) 0)) s
  s.mapShards fun m => m.map fun e =>
    (e.1, if bit (cfgModes was e.2.part) 2 && !hostMode s e.2.part 2 then { e.2 with repairPos := 0, repairOld := [] } else e.2)

/-- Domains of the tiles and clusters that the image in force marks disabled go OFF; those of units no longer disabled run
again, but in deep sleep (R38, R643). -/
def powerApply (was : ImgCfg) (s : State) : State :=
  (List.range 80).foldl (fun s i =>
    let k := if i < 64 then (1, i) else (2, i - 64)
    if cfgTileOwner s.img.cfg i = 0x7F then setPower s k.1 k.2 true
    else if cfgTileOwner was i = 0x7F ∧ !(s.power.deep.contains (unitKey k.1 k.2) && (s.unit k.1 k.2).st == .out) then setPower s k.1 k.2 false
    else s) s

/-- One image applied at the boundary that begins the current epoch. -/
def applyImage (s : State) (x : ImgSlot) : State :=
  let was := s.img.cfg
  let before := partState s
  let first := !s.img.applied
  let s := takeConfig s x
  let s := (List.range 64).foldl (partMove was) s
  let s := windowsApply was before s
  let s := queuesApply was s
  let s := powerApply was (applyRates (sheetApply s))
  let s := routesApply (imgFull x.bytes) x.carried s
  let s := keysApply s x.keys
  let s := modesApply was (lenApply s)
  let s := s.mapMem fun m => if first then { m with cxlGib := cfgCxlWindow s.img.cfg } else m
  let s := s.mapRas fun r => { r with units := r.units.map fun e => (e.1, { e.2 with standin := none }) }
  let s := extendMeas s 4 (Config.sha384 x.bytes)
  raiseEvent (imgShow (s.event .imgStatus 0 1) x.req 3) 3 (natLe 4 x.req ++ natLe 4 3)

/-! ### The scrub (R367) -/

/-- T2 windows, filled with zero. -/
def zeroWindows (s : State) (p : Nat) : State :=
  (s.img.scrubWin.filter fun e => e.2 == p).foldl (fun s e =>
    (clearWin s e.1).mapLichen fun l => { l with t2poison := l.t2poison.filter fun a => a / 2 ^ 25 != e.1 }) s

/-- The next step of the scrub of what a partition has given up: its Sheet units, its T2 windows, its T3 allotment. -/
def scrubStepOf (s : State) (p : Nat) : State :=
  let next (s : State) (n : Nat) : State := s.mapImg fun i => { i with scrubStep := i.scrubStep.put p n }
  match s.img.scrubStep.get p with
  | some 2 => next (s.mapMem fun m => (s.img.scrubSheet.filter fun e => e.2 == p).foldl (fun m e => zeroSheet m e.1) m) 3
  | some 3 => next (zeroWindows s p) 4
  | some 4 =>
    let d := s.img.scrubDdr.getD p (0, 0)
    let inside (l : Nat) : Bool := decide (d.1 ≤ l / 2 ^ 24) && decide (l / 2 ^ 24 < d.1 + d.2)
    next (s.mapMem fun m => { m with t3 := m.t3.filter fun e => !inside e.1, t3poison := m.t3poison.filter fun l => !inside l }) 5
  | _ => s

def execPartitionScrubStep (part : Nat) (s : State) : Out := .next (scrubStepOf s part)

/-- At a boundary, the resources whose scrub has ended become free. -/
def scrubFree (s : State) : State :=
  ((s.img.scrubStep.filter fun e => e.2 == 5).map (·.1)).foldl (fun s p =>
    (s.mapImg fun i => { i with
      scrubStep := i.scrubStep.del p, scrubDdr := i.scrubDdr.del p, scrubWin := i.scrubWin.filter fun e => e.2 != p
      scrubSheet := i.scrubSheet.filter fun e => e.2 != p
      parts := if i.parts.get p = some .scrubbing then i.parts.put p .absent else i.parts }).event .memEvent 0 4) s

end Sys2Proof.Machine
end

