-- ==== Sys2Proof/Machine/EpochCtl.lean ====
section
/-! DEFINITION. The epoch sequencer: PREPARE, the strobe, its acknowledgements, and what takes effect at a boundary
(09_epochs_updates R248 to R260; 19_faults_recovery R582, R586, R592; 05_index_layout R129, R156, R159; 06_search_walk R178 to
R181; 23_register_map R689). -/
namespace Sys2Proof.Machine
open Sys2Proof

/-! ### PREPARE (R255, R256, R259, R586) -/

/-- A clock domain takes part in the handshake of the coming boundary: one that has missed an earlier one rejoins by its
readmission (R592). -/
def domainJoins (s : State) (d : Nat) : Bool :=
  let r := s.unit 0x12 d
  r.st == .inService || (r.st == .waiting && r.joins)

/-- Clock domains that take part. -/
def handshake (s : State) : List Nat := (List.range 236).filter (domainJoins s)

/-- Domains without a running clock, for which the power controller answers (R259). -/
def gatedDomains (s : State) : List Nat := (s.power.domains.filter fun d => d.2.st != .run).map (·.1)

/-- Pending images that a boundary applies; while block IMG is OUT they wait for the boundary that readmits it (R593). -/
def imagesDue (s : State) (n : Nat) : List ImgSlot :=
  let img := s.unit 0x13 1
  if img.st == .inService || (img.st == .waiting && img.joins) then (pendingSlots s).filter fun x => decide (x.target ≤ n) else []

/-- End of the longest run of linked ring entries from a sequence number on; the count bounds the run. -/
def linkedRun (links : Smap LinkParts) : Nat → Nat → Nat
  | 0, q => q
  | k + 1, q => if ((links.get q).map (·.linked)).getD false then linkedRun links k (q + 1) else q

/-- The epoch record of the coming epoch: head counts what has been accepted, tail what is linked (R140, R256). -/
def newRecord (sh : Shard) (n : Nat) : EpochRec :=
  { epoch := n, head := sh.ringHead, tail := linkedRun sh.links (sh.ringHead - sh.ringTail) sh.ringTail }

/-- Compute die of a tile or cluster (R12). -/
def dieOfUnit (kind u : Nat) : Nat := if kind = 1 then u / 32 else u / 8

/-- Owner of a tile or cluster as the draw of spares sees it: under the image that the boundary applies, or in force. -/
def drawOwner (s : State) (img : Option ImgCfg) (kind u : Nat) : Nat :=
  match img with
  | some c => cfgTileOwner c (if kind = 2 then 64 + u else u)
  | none => (ownerRole s kind u).1

/-- The unit for which a tile or cluster works: itself, or the one it stands in for. -/
def servedUnit (s : State) (kind u : Nat) : Nat :=
  ((s.ras.units.find? fun e => e.1 / 8192 == kind && e.2.standin == some u).map fun e => e.1 % 8192).getD u

/-- Spares drawn for the tiles or clusters that are out (R586), as the unit keys replaced and the spares. -/
def drawSpares (s : State) (img : Option ImgCfg) (kind : Nat) : List (Nat × Nat) :=
  let n := unitCount kind
  let out (u : Nat) : Bool :=
    let r := s.unit kind u
    let o := drawOwner s img kind u
    (decide (o < 64) || o == 0x7E) && (r.st == .out || r.st == .returning || r.st == .retired) && (r.standin.isNone || img.isSome) &&
      !s.power.deep.contains (unitKey kind u)
  ((List.range n).filter out).foldl (fun acc u =>
    let free (x : Nat) : Bool := s.serves kind x && drawOwner s img kind x == 0x7D && !(acc.any fun a => a.2 == x)
    let near := (List.range n).find? fun x => free x && dieOfUnit kind x == dieOfUnit kind u
    match (match near with | some x => some x | none => (List.range n).find? free) with
    | some x => acc ++ [(unitKey kind (if img.isSome then u else servedUnit s kind u), x)]
    | none => acc) []

/-- PREPARE: acceptance and the recording of links stop, epoch records are fixed, shadows are staged, spares are drawn, and
units that wait join the boundary. -/
def prepare (s : State) : State :=
  if s.epoch.cur = 0 ∨ s.epoch.prepared then s
  else
    let n := s.epoch.cur + 1
    let s := s.mapRas fun r => { r with units := r.units.map fun e => (e.1, if e.2.st = .waiting then { e.2 with joins := true } else e.2) }
    let due := imagesDue s n
    let img := (due.getLast?).map (·.cfg)
    let drawn := if s.fld .rasCfg 0 0 1 = 1 then drawSpares s img 1 ++ drawSpares s img 2 else []
    let s := (stageShadows s !due.isEmpty).mapRas fun r => { r with drawn := drawn }
    let s := s.mapShards fun m => m.map fun e =>
      (e.1, if (e.2.phase = .serving ∨ e.2.phase = .retiring) ∧ !e.2.lost then { e.2 with nextRec := some (newRecord e.2 n) } else e.2)
    s.mapEpoch fun e => { e with prepared := true, ready := gatedDomains s }

def execPrepare (s : State) : Out := .next (prepare s)

def execDomainReady (domain : Nat) (s : State) : Out :=
  .next (if s.epoch.prepared ∧ domain < 236 then s.mapEpoch fun e => { e with ready := addSet e.ready domain } else s)

/-! ### Shards at a boundary -/

/-- Items linked between PREPARE and the strobe are recorded (R256). -/
def recordLate (sh : Shard) : Shard :=
  { sh with links := sh.linkedLate.foldl (fun m q => m.upd q fun l => { l with linked := true }) sh.links, linkedLate := [] }

/-- An epoch record goes into the lowest position that is unused or names an epoch no longer retained; a record so
overwritten is kept while its epoch is in use (R129). -/
def placeRecord (s : State) (sh : Shard) (r : EpochRec) : Shard :=
  let gone (x : EpochRec) : Bool := x.epoch == 0 || !retained s sh.part x.epoch
  let kept (l : List EpochRec) : List EpochRec := l.filter fun x => x.epoch != 0 && inUse s sh.part x.epoch
  match indexOf? gone sh.epochTable with
  | none => { sh with inUse := kept sh.inUse }
  | some i => { sh with epochTable := sh.epochTable.set i r, inUse := kept (sh.inUse ++ (sh.epochTable[i]?).toList) }

/-- The histogram of the epoch that begins: the running one frozen, the one that host software supplied, or the last one
again (R178 to R181). Whether a shard's histogram is the host's follows the mode of the epoch that ends. -/
def freezeHist (s : State) (hostAssisted : Bool) (sh : Shard) (n : Nat) : State :=
  let was := sh.frozen.get (n - 1)
  let pick : Hist × Bool :=
    if !hostAssisted then ({ sh.running with host := false, reused := false }, false)
    else match sh.hostHist.get n, was with
      | some h, _ => (h, false)
      | none, some h => ({ h with reused := true }, true)
      | none, none => ({ sh.running with host := false, reused := true }, true)
  (s.updShard sh.part sh.index fun h => { h with
    frozen := (h.frozen.put n pick.1).filter fun e => inUse s sh.part e.1, hostHist := h.hostHist.filter fun e => decide (n < e.1) }).eventIf
    pick.2 .plnPevent sh.part 0

/-- Outcome records of the ledger whose items have become GRAPH show LINKED (R602). -/
def ledgerLinked (s : State) (sh : Shard) (lo hi : Nat) : State :=
  let slots := ((List.range (hi - lo)).map (lo + ·)).filterMap fun q => sh.freshSlots.get (ringIdx sh q)
  if slots.isEmpty then s
  else ledgerMap s sh.part fun r =>
    if r.typ = 2 ∧ r.index = some sh.index ∧ slots.contains (field r.body 8 4) ∧ field r.body 12 1 = 0 ∧ bits (field r.body 13 1) 0 3 = 2 then
      { r with body := patch r.body 13 [BitVec.ofNat 8 (field r.body 13 1 + 1)] }
    else r

/-- A sealed shard begins its first SERVING epoch: every item settled and in the code region, the ring empty, a first
checkpoint in flash (R157, R159, R569). -/
def firstServing (s : State) (sh : Shard) (n : Nat) : State :=
  let s := sh.slots.foldl (fun s e => winWrite? s sh (tagAddr sh.desc.codeList e.1) (natLe 2 (tagLive + ruleBits sh (sh.attrs.getD e.1 0)))) s
  let s := s.updShard sh.part sh.index fun h => placeRecord s { h with
    phase := .serving, sealCmd := none, firstServing := n, slots := h.slots.map fun e => (e.1, setBits e.2 110 1 1) } { epoch := n, head := 0, tail := 0 }
  let ls := sh.slots.foldl (fun l e => (vectorLaddrs sh e.1).foldl addSet l) (ckptLaddrs sh n)
  let s := (deviceWrite s sh.part true 0 ls).getD s
  let s := match shardOf s sh.part sh.index with
    | some h => ckptComplete ((pinDescriptor s h).updShard sh.part sh.index fun x => { x with ckpt := some (checkpointOf s h) }) sh.part n
    | none => s
  match sh.sealCmd with
  | some c => finish s c stOk sh.highWater 0
  | none => s

/-- A shard whose window is being relocated switches its window list (R156). -/
def relocSwitch (s : State) (sh : Shard) : State :=
  match sh.reloc with
  | none => s
  | some (c, src, dst) =>
    let sw (w : Nat) : Nat := if w = src then dst else w
    endWith (s.updShard sh.part sh.index fun h => { h with
      reloc := none
      desc := { h.desc with codeList := h.desc.codeList.map sw, normList := h.desc.normList.map sw, freshWin := sw h.desc.freshWin
                            hotWin := sw h.desc.hotWin } }) c stOk

/-- A shard enters RETIRING; one that was being sealed leaves its SEAL without effect (R566). -/
def enterRetiring (s : State) (sh : Shard) (n : Nat) : State :=
  match sh.retire with
  | some (c, 0) =>
    let s := s.updShard sh.part sh.index fun h => { h with phase := .retiring, retire := some (c, n), sealCmd := none }
    match sh.sealCmd with
    | some k => endWith s k stInvalid
    | none => s
  | _ => s

/-- One shard at the boundary that begins epoch n: its record, its late links, its histogram, its transitions. -/
def shardBoundary (hosted : Nat → Bool) (n : Nat) (s : State) (k : Nat) : State :=
  match s.shards.get k with
  | none => s
  | some sh =>
    let s := relocSwitch s sh
    let late := sh.linkedLate.length
    let s := if (sh.phase = .serving ∨ sh.phase = .retiring) ∧ !sh.lost then
        let r := sh.nextRec.getD (newRecord sh n)
        let s := s.updShard sh.part sh.index fun h => placeRecord s { recordLate h with ringTail := r.tail, nextRec := none, backReq := [] } r
        ledgerLinked (if late = 0 then s else s.bump .epcPLinked sh.part late) sh sh.ringTail r.tail
      else s
    let s := enterRetiring s sh n
    let s := if sh.phase = .sealing ∧ sh.retire.isNone then firstServing s sh n else s
    match s.shards.get k with
    | some h => if (h.phase = .serving ∨ h.phase = .retiring) ∧ !h.lost then freezeHist s (hosted h.part) h n else s
    | none => s

/-! ### Units at a boundary (R582, R584, R586) -/

/-- Units that joined at PREPARE are IN_SERVICE again, under a higher generation. -/
def readmit (s : State) : State :=
  ((s.ras.units.filter fun e => e.2.st == .waiting && e.2.joins).map (·.1)).foldl (fun s k =>
    let kind := k / 8192
    let u := k % 8192
    let r := s.unit kind u
    let s := (s.setUnit kind u { r with st := .inService, joins := false, auto := false, vgen := r.vgen + 1 }).event .rasEvent 0 2
    let s := unitEvent s kind u
    if kind = 0x13 ∧ u = 2 then replayDoorbells s else if kind = 0x13 ∧ u = 9 ∧ s.img.applied then applyRates (sheetApply s) else s) s

/-- Units of blocks whose registers parity has fenced and that are no units of R587 take their registers again. -/
def reloadParts (s : State) : State :=
  (s.regs.fencedUnits.filter fun k => !([5, 12, 16].contains (k / 65536))).foldl (fun s k => reloadUnit s (k / 65536) (k % 65536)) s

/-- Units OUT by a fault begin their return where AUTO_RETURN is set (R582); a register block does so twice at most
(R593). -/
def autoReturn (s : State) : State :=
  if s.fld .rasCfg 0 1 1 = 0 then s
  else
    ((s.ras.units.filter fun e => e.2.st == .out && e.2.auto && decide (e.2.tries < 3)).map (·.1)).foldl
      (fun s k => enterReturning s (k / 8192) (k % 8192)) s

/-- Spares drawn at PREPARE begin to serve. -/
def spareServe (s : State) : State :=
  let drawn := s.ras.drawn
  drawn.foldl (fun s d => (s.setUnit (d.1 / 8192) (d.1 % 8192) { s.unit (d.1 / 8192) (d.1 % 8192) with standin := some d.2 }).event .rasEvent 0 4)
    (s.mapRas fun r => { r with drawn := [] })

/-! ### Bindings at a boundary (R47, R307, R308, R495) -/

/-- Bindings of the configuration in force whose model image is present in flash. -/
def bindingsNow (s : State) : List InForce :=
  ((cfgBindings s.img.cfg).filter fun b => (storedImage s b.digest).isSome).map fun b => { part := b.part, role := b.role, profile := b.profile, digest := b.digest }

/-- The bindings of the epoch that begins; each one that comes into force extends M5. -/
def bindingsApply (s : State) (e n : Nat) : State :=
  let l := bindingsNow s
  let old := s.model.bound.getD e []
  let kept (k : Nat) : Bool := decide (k = n) || (List.range 64).any (fun p => retained s p k) || s.host.cmds.any fun c => c.2.local_ == k
  let s := s.mapModel fun m => { m with bound := (m.bound.put n l).filter fun x => kept x.1 }
  (l.filter fun f => !old.contains f).foldl (fun s f => extendMeas s 5 f.digest) (groupsAtBoundary s)

/-! ### Configuration at a boundary (R253, R254, R77 to R79, R689) -/

/-- Epoch-class values of the epoch that ends are kept for its stamps, and those of epochs that nobody uses are dropped. -/
def keepPast (s : State) : State :=
  let e := s.epoch.cur
  let mine := (s.regs.force.filter fun x => ((regOfKey x.1).map fun r => r.row.cls == .epoch).getD false)
  let used (x : Nat) : Bool := (List.range 64).any fun p => inUse s p x
  s.mapEpoch fun p => { p with
    pastEpochs := (addSet p.pastEpochs e).filter used
    pastCfg := (mine.foldl (fun m x => Smap.put m (2 ^ 32 * e + x.1) x.2.val) p.pastCfg).filter fun x => used (x.1 / 2 ^ 32) }

/-- Shadow contents that the strobe carries: those staged at PREPARE, and those of the update strobe merged into it as they
stand. -/
def strobeLoad (s : State) (apply : Bool) : Smap RegCopy :=
  let staged := s.regs.staged.filter fun e => ((regOfKey e.1).map fun r => epochDue s apply r (e.1 % 262144)).getD false
  let merged := match s.regs.updEpoch with
    | some g => shadowsDue s (inGroups s g.toNat)
    | none => []
  merged.foldl (fun m e => Smap.put m e.1 e.2) staged

/-- The strobe of configuration. Domains that were not READY keep what they had; what the others take replaces copies that are
kept until the acknowledgements are in. -/
def configStrobe (s : State) (l : Smap RegCopy) (skip : List Nat) : State :=
  let misses := strobeMissed skip
  let merged := s.regs.updEpoch.isSome
  let old := l.map fun e => (e.1, s.regs.force.get e.1)
  let s := strobeCopies (catchUp (fun d => !skip.contains d) s) (l.filter fun e => !misses e.1)
  let s := (lagBehind skip old s).mapRegs fun r => { r with
    staged := [], updEpoch := none, updMissed := [], updPending := ((l.map (·.1)).filter misses).foldl addSet r.updPending
    replaced := old.filter fun e => !misses e.1 }
  let s := afterStrobe (s.eventIf merged .glbUpdStatus 0 1)
  if merged then issueNext s else s

/-- Domains whose acknowledgement was wrong or late keep the copies that they had before the strobe (R54, R258). -/
def configBack (late : List Nat) (s : State) : State :=
  let l := s.regs.replaced
  let s := (l.filter fun e => strobeMissed late e.1).foldl (fun s e => s.mapRegs fun x => { x with
    shadow := if x.shadow.has e.1 then x.shadow else match x.force.get e.1 with
      | some c => x.shadow.put e.1 c
      | none => x.shadow
    force := match e.2 with
      | some c => x.force.put e.1 c
      | none => x.force.del e.1
    updPending := addSet x.updPending e.1 }) s
  (lagBehind late l s).mapRegs fun x => { x with replaced := [] }

/-! ### The boundary (R254, R257) -/

/-- EPOCH_MARK records: for partitions that have accepted a record since their last one, and for every live partition at the
first boundary after a second (R265). -/
def epochMarks (s : State) (lastRtc : Nat) : State :=
  let second := decide (rtc s / 2 ^ 26 ≠ lastRtc / 2 ^ 26)
  let live (p : Nat) : Bool := partState s p == .active || partState s p == .draining
  ((List.range 64).filter fun p => live p && (second || s.epoch.markDue.contains p)).foldl (fun s p =>
    match journalPlace s p { num := 0, typ := 5, index := 0, epoch := s.epoch.cur, gid := 0, slot := nullSlot, oldSlot := nullSlot, rseq := 0
                             attr := 0, norm := 0, code := [], exact := [], src := none } with
    | .ok s => s.mapEpoch fun e => { e with markDue := delSet e.markDue p }
    | .error _ => s.mapEpoch fun e => { e with markDue := addSet e.markDue p }) s

/-- Records that became durable since PREPARE are accepted in the epoch that has begun, in the order of their durability. -/
def acceptDeferred (s : State) : State :=
  let l := s.epoch.deferred
  l.foldl (fun s d => acceptRec s d.1 d.2) (s.mapEpoch fun e => { e with deferred := [] })

/-- The epoch counter moves on, and the boundary's time is latched. -/
def counterMove (s : State) (n : Nat) (skip : List Nat) (images : Bool) : State :=
  let t := rtc s
  let s := s.mapEpoch fun e => { e with
    cur := n, prepared := false, ready := [], acked := gatedDomains s, missed := skip, awaiting := true, appliedNow := images
    journals := e.journals.map fun j => (j.1, { j.2 with mark := j.2.accepted }) }
  (s.setRo .epcBoundaryRtcLo 0 (BitVec.ofNat 32 t)).setRo .epcBoundaryRtcHi 0 (BitVec.ofNat 32 (t / 2 ^ 32))

/-- Everything that one strobe does: the epoch n begins, the images named come into force, the domains named miss it. -/
def beginEpoch (s : State) (n : Nat) (images : List ImgSlot) (skip : List Nat) : State :=
  let e := s.epoch.cur
  let was := s.img.cfg
  let lastRtc := (s.ro .epcBoundaryRtcLo 0).toNat + (s.ro .epcBoundaryRtcHi 0).toNat * 2 ^ 32
  let s := readmit (counterMove (keepPast s) n skip !images.isEmpty)
  let load := strobeLoad s !images.isEmpty
  let s := images.foldl applyImage s
  let s := spareServe s
  let routed (k : Nat) : Bool := images.any fun x => carriesRoute (imgFull x.bytes) x.carried k
  let s := configStrobe (reloadParts s) (load.filter fun x => !routed x.1) skip
  let s := (s.shards.map (·.1)).foldl (shardBoundary (fun p => bit (cfgModes was p) 4) n) s
  let s := placeModels (releaseModels (bindingsApply s e n))
  let s := freeRetired (scrubFree s)
  let s := autoReturn (if sheetHeld s then sheetApply s else s)
  let s := epochMarks s lastRtc
  let s := acceptDeferred s
  let s := unmapFreed (pruneBindings (anchorBoundary s))
  let s := s.mapHost fun h => { h with qps := h.qps.map fun q =>
    (q.1, { q.2 with inserted := q.2.inserted.filter fun x => !itemLinked s x.2.1 x.2.2 }) }
  checkFences s

/-- Every domain of the handshake has acknowledged: the boundary is complete (R257). -/
def boundaryEnd (s : State) : State :=
  if s.epoch.awaiting ∧ s.epoch.missed.isEmpty ∧ (handshake s).all s.epoch.acked.contains then
    (((s.mapEpoch fun e => { e with awaiting := false }).mapRegs fun r => { r with replaced := [] }).event .epcEvent 0 0).setRo .epcMissed 0
      (BitVec.ofNat 32 ((s.ro .epcMissed 0).toNat / 256 * 256))
  else s

/-- The strobe at a boundary whose PREPARE has been sent. -/
def epochStrobe (s : State) : State :=
  if !s.epoch.prepared then s
  else
    let n := s.epoch.cur + 1
    boundaryEnd (beginEpoch s n (imagesDue s n) ((handshake s).filter fun d => !s.epoch.ready.contains d))

def execEpochStrobe (s : State) : Out := .next (epochStrobe s)

/-- An acknowledgement; wrong epoch bits are a miss. -/
def strobeAck (s : State) (d eb : Nat) : State :=
  if !s.epoch.awaiting ∨ d ≥ 236 then s
  else if eb = s.epoch.cur % 256 ∧ !s.epoch.missed.contains d then boundaryEnd (s.mapEpoch fun e => { e with acked := addSet e.acked d })
  else s.mapEpoch fun e => { e with missed := addSet e.missed d }

def execStrobeAck (domain epochBits : Nat) (s : State) : Out := .next (strobeAck s domain epochBits)

/-- At B + 1 µs the domains that have missed the boundary are recorded, and the units in them leave service (R54, R258,
R592). -/
def ackTimeout (s : State) : State :=
  if !s.epoch.awaiting then s
  else
    let late := (handshake s).filter fun d => s.epoch.missed.contains d || !s.epoch.acked.contains d
    let n := late.length
    let total := (s.ro .epcMissed 0).toNat / 256
    let s := configBack late (s.mapEpoch fun e => { e with awaiting := false, missed := late })
    let s := s.setRo .epcMissed 0 (BitVec.ofNat 32 (min 255 n + 256 * min 0xFFFFFF (total + n)))
    if n = 0 then s
    else
      let s := (s.event .epcEvent 0 1).event .rasEvent 0 7
      let s := if s.epoch.appliedNow then (s.mapImg fun i => { i with missedCount := min 255 n }).event .imgStatus 0 5 else s
      late.foldl (fun s d => fenceUnit s 0x12 d 0x02 0 true) s

def execAckTimeout (s : State) : Out := .next (ackTimeout s)

/-! ### The first strobe (R278, R659) -/

/-- Every shard has been rebuilt. -/
def rebuilt (s : State) : Bool := s.shards.all fun e => !e.2.lost

/-- The first strobe applies the start-up image, discards the other pending ones, and begins the epoch after the largest one
found in flash. -/
def firstStrobe (s : State) : State :=
  if s.power.stage ≠ .rebuild ∨ !rebuilt s then s
  else match s.power.startSlot.bind (getSlot s) with
    | none => s
    | some x =>
      let n := s.epoch.largest + 1
      let s := stageShadows s true
      let s := s.mapEpoch fun e => { e with first := n }
      let s := beginEpoch s n [x] []
      let s := s.mapImg fun i => { i with slot0 := none, slot1 := none }
      boundaryEnd (s.mapPower fun p => { p with stage := .running, startSlot := none })

def execFirstStrobe (s : State) : Out := .next (firstStrobe s)

end Sys2Proof.Machine
end

