-- ==== Sys2Proof/Machine/Dispatch.lean ====
section
/-! DEFINITION. The dispatch: one arm per command, each a direct call of the command's meaning. -/
namespace Sys2Proof.Machine
open Sys2Proof

/-- The effect of a command on everything but the queue. -/
def exec (i : Instr) (s : State) : Host.Outcome State Fault Refusal :=
  match i with
  | .sqDoorbell fn q v host => Sys2Proof.Machine.execSqDoorbell fn q v host s
  | .cqDoorbell fn q v => Sys2Proof.Machine.execCqDoorbell fn q v s
  | .entryFetch qp => Sys2Proof.Machine.execEntryFetch qp s
  | .admissionSlot => Sys2Proof.Machine.execAdmissionSlot s
  | .creditTick => Sys2Proof.Machine.execCreditTick s
  | .completionWrite cmd => Sys2Proof.Machine.execCompletionWrite cmd s
  | .aggTimeExpiry qp => Sys2Proof.Machine.execAggTimeExpiry qp s
  | .eventGapExpiry fn => Sys2Proof.Machine.execEventGapExpiry fn s
  | .qpEnable req fn q => Sys2Proof.Machine.execQpEnable req fn q s
  | .qpDisable req fn q => Sys2Proof.Machine.execQpDisable req fn q s
  | .qpDrainEnd qp => Sys2Proof.Machine.execQpDrainEnd qp s
  | .telemetrySample => Sys2Proof.Machine.execTelemetrySample s
  | .functionLevelReset fn => Sys2Proof.Machine.execFunctionLevelReset fn s
  | .d3hotEntry fn => Sys2Proof.Machine.execD3hotEntry fn s
  | .hostPortReset => Sys2Proof.Machine.execHostPortReset s
  | .vfDisable vf => Sys2Proof.Machine.execVfDisable vf s
  | .t4ReadTimeout use => Sys2Proof.Machine.execT4ReadTimeout use s
  | .t4AccessError use => Sys2Proof.Machine.execT4AccessError use s
  | .linkChange rate width flit cxl => Sys2Proof.Machine.execLinkChange rate width flit cxl s
  | .perstNDeassert => Sys2Proof.Machine.execPerstNDeassert s
  | .cxlMemRequest hpa data => Sys2Proof.Machine.execCxlMemRequest hpa data s
  | .bar4Access off len data => Sys2Proof.Machine.execBar4Access off len data s
  | .hdmDecoderCommit base => Sys2Proof.Machine.execHdmDecoderCommit base s
  | .search cmd => Sys2Proof.Machine.execSearch cmd s
  | .sweep cmd => Sys2Proof.Machine.execSweep cmd s
  | .insert cmd => Sys2Proof.Machine.execInsert cmd s
  | .upsert cmd => Sys2Proof.Machine.execUpsert cmd s
  | .delete cmd => Sys2Proof.Machine.execDelete cmd s
  | .attrSet cmd => Sys2Proof.Machine.execAttrSet cmd s
  | .embed cmd => Sys2Proof.Machine.execEmbed cmd s
  | .embedInsert cmd => Sys2Proof.Machine.execEmbedInsert cmd s
  | .rerank cmd => Sys2Proof.Machine.execRerank cmd s
  | .epochFence cmd => Sys2Proof.Machine.execEpochFence cmd s
  | .epochPin cmd => Sys2Proof.Machine.execEpochPin cmd s
  | .epochUnpin cmd => Sys2Proof.Machine.execEpochUnpin cmd s
  | .indexCreate cmd => Sys2Proof.Machine.execIndexCreate cmd s
  | .indexDescribe cmd => Sys2Proof.Machine.execIndexDescribe cmd s
  | .indexRetire cmd => Sys2Proof.Machine.execIndexRetire cmd s
  | .indexRelocate cmd => Sys2Proof.Machine.execIndexRelocate cmd s
  | .bulkLoad cmd => Sys2Proof.Machine.execBulkLoad cmd s
  | .seal cmd => Sys2Proof.Machine.execSeal cmd s
  | .histLoad cmd => Sys2Proof.Machine.execHistLoad cmd s
  | .linkSupply cmd => Sys2Proof.Machine.execLinkSupply cmd s
  | .zoneOpen cmd => Sys2Proof.Machine.execZoneOpen cmd s
  | .zoneAppend cmd => Sys2Proof.Machine.execZoneAppend cmd s
  | .zoneFinish cmd => Sys2Proof.Machine.execZoneFinish cmd s
  | .zoneReset cmd => Sys2Proof.Machine.execZoneReset cmd s
  | .zoneReport cmd => Sys2Proof.Machine.execZoneReport cmd s
  | .zoneResetErase part zone => Sys2Proof.Machine.execZoneResetErase part zone s
  | .modelStore cmd => Sys2Proof.Machine.execModelStore cmd s
  | .modelRemove cmd => Sys2Proof.Machine.execModelRemove cmd s
  | .modelGroup cmd => Sys2Proof.Machine.execModelGroup cmd s
  | .keyProvision cmd => Sys2Proof.Machine.execKeyProvision cmd s
  | .fuseProvision cmd => Sys2Proof.Machine.execFuseProvision cmd s
  | .fuseRevoke cmd => Sys2Proof.Machine.execFuseRevoke cmd s
  | .fuseRaiseSvn cmd => Sys2Proof.Machine.execFuseRaiseSvn cmd s
  | .attest cmd => Sys2Proof.Machine.execAttest cmd s
  | .certificate cmd => Sys2Proof.Machine.execCertificate cmd s
  | .healthLog cmd => Sys2Proof.Machine.execHealthLog cmd s
  | .ledgerRead cmd => Sys2Proof.Machine.execLedgerRead cmd s
  | .walkStart query tile => Sys2Proof.Machine.execWalkStart query tile s
  | .walkRoundReturn query => Sys2Proof.Machine.execWalkRoundReturn query s
  | .sweepBatchStart part index fresh => Sys2Proof.Machine.execSweepBatchStart part index fresh s
  | .sweepResultRecord bank => Sys2Proof.Machine.execSweepResultRecord bank s
  | .listEntryArrive query => Sys2Proof.Machine.execListEntryArrive query s
  | .rescoreReadDone query => Sys2Proof.Machine.execRescoreReadDone query s
  | .disagreeCrcCheck win rg => Sys2Proof.Machine.execDisagreeCrcCheck win rg s
  | .deadlineExpiry query => Sys2Proof.Machine.execDeadlineExpiry query s
  | .deadlineGraceExpiry query => Sys2Proof.Machine.execDeadlineGraceExpiry query s
  | .gather stack hdr payload tag => Sys2Proof.Machine.execGather stack hdr payload tag s
  | .slotLoad stack hdr payload => Sys2Proof.Machine.execSlotLoad stack hdr payload s
  | .slotThresh stack hdr payload => Sys2Proof.Machine.execSlotThresh stack hdr payload s
  | .slotFree stack hdr payload => Sys2Proof.Machine.execSlotFree stack hdr payload s
  | .sweepStep stack hdr payload flips => Sys2Proof.Machine.execSweepStep stack hdr payload flips s
  | .fill stack hdr payload => Sys2Proof.Machine.execFill stack hdr payload s
  | .scrub stack hdr payload flips => Sys2Proof.Machine.execScrub stack hdr payload flips s
  | .repair stack hdr payload => Sys2Proof.Machine.execRepair stack hdr payload s
  | .sweepStepEnd stack => Sys2Proof.Machine.execSweepStepEnd stack s
  | .gapMaxExpiry stack bank => Sys2Proof.Machine.execGapMaxExpiry stack bank s
  | .bankRequest bank tag addr len data => Sys2Proof.Machine.execBankRequest bank tag addr len data s
  | .scrubTick stack late => Sys2Proof.Machine.execScrubTick stack late s
  | .rowGroupRebuild stack win rg ok => Sys2Proof.Machine.execRowGroupRebuild stack win rg ok s
  | .prepare => Sys2Proof.Machine.execPrepare s
  | .domainReady domain => Sys2Proof.Machine.execDomainReady domain s
  | .epochStrobe => Sys2Proof.Machine.execEpochStrobe s
  | .strobeAck domain epochBits => Sys2Proof.Machine.execStrobeAck domain epochBits s
  | .ackTimeout => Sys2Proof.Machine.execAckTimeout s
  | .partitionScrubStep part => Sys2Proof.Machine.execPartitionScrubStep part s
  | .pinExpiry part epoch => Sys2Proof.Machine.execPinExpiry part epoch s
  | .fullWaitExpiry cmd => Sys2Proof.Machine.execFullWaitExpiry cmd s
  | .journalPageClose part => Sys2Proof.Machine.execJournalPageClose part s
  | .journalProgramDone part jseq copy => Sys2Proof.Machine.execJournalProgramDone part jseq copy s
  | .insertWalkStart part index tile => Sys2Proof.Machine.execInsertWalkStart part index tile s
  | .backLink part index slot => Sys2Proof.Machine.execBackLink part index slot s
  | .vectorStoreWriteDone part index slot => Sys2Proof.Machine.execVectorStoreWriteDone part index slot s
  | .settlerSettle part index => Sys2Proof.Machine.execSettlerSettle part index s
  | .settlerFold part index => Sys2Proof.Machine.execSettlerFold part index s
  | .repairWalk part index => Sys2Proof.Machine.execRepairWalk part index s
  | .checkpointStart part index => Sys2Proof.Machine.execCheckpointStart part index s
  | .checkpointDone part index => Sys2Proof.Machine.execCheckpointDone part index s
  | .shardRebuild part index => Sys2Proof.Machine.execShardRebuild part index s
  | .imgStage req v host => Sys2Proof.Machine.execImgStage req v host s
  | .imgAbort req v => Sys2Proof.Machine.execImgAbort req v s
  | .imageVerifyDone slot => Sys2Proof.Machine.execImageVerifyDone slot s
  | .registerWrite req addr wide be data => Sys2Proof.Machine.execRegisterWrite req addr wide be data s
  | .sqcWrite req addr v => Sys2Proof.Machine.execSqcWrite req addr v s
  | .indDataAccess req addr v => Sys2Proof.Machine.execIndDataAccess req addr v s
  | .loRegisterRead req addr => Sys2Proof.Machine.execLoRegisterRead req addr s
  | .updStrobe req v => Sys2Proof.Machine.execUpdStrobe req v s
  | .updateStrobeDone missed => Sys2Proof.Machine.execUpdateStrobeDone missed s
  | .parityScan block upsets => Sys2Proof.Machine.execParityScan block upsets s
  | .trainingStateTimeout port => Sys2Proof.Machine.execTrainingStateTimeout port s
  | .downRetry port => Sys2Proof.Machine.execDownRetry port s
  | .trainingFrame port lane bytes => Sys2Proof.Machine.execTrainingFrame port lane bytes s
  | .flitReceive port bytes => Sys2Proof.Machine.execFlitReceive port bytes s
  | .nakHoldExpiry port => Sys2Proof.Machine.execNakHoldExpiry port s
  | .laneFailing port lane => Sys2Proof.Machine.execLaneFailing port lane s
  | .swapReq port lane => Sys2Proof.Machine.execSwapReq port lane s
  | .mirroredGroupsDecoded port => Sys2Proof.Machine.execMirroredGroupsDecoded port s
  | .swapDone port => Sys2Proof.Machine.execSwapDone port s
  | .retrainReq port => Sys2Proof.Machine.execRetrainReq port s
  | .portRetrain req port => Sys2Proof.Machine.execPortRetrain req port s
  | .portRetarget req port => Sys2Proof.Machine.execPortRetarget req port s
  | .portDisable req port => Sys2Proof.Machine.execPortDisable req port s
  | .portSwap req port lane => Sys2Proof.Machine.execPortSwap req port lane s
  | .retargetDrainEnd port => Sys2Proof.Machine.execRetargetDrainEnd port s
  | .portDown port => Sys2Proof.Machine.execPortDown port s
  | .packetForward pkt => Sys2Proof.Machine.execPacketForward pkt s
  | .readRequest pkt => Sys2Proof.Machine.execReadRequest pkt s
  | .readRsp pkt => Sys2Proof.Machine.execReadRsp pkt s
  | .writeRequest pkt => Sys2Proof.Machine.execWriteRequest pkt s
  | .writeAck pkt => Sys2Proof.Machine.execWriteAck pkt s
  | .scoreRequest pkt => Sys2Proof.Machine.execScoreRequest pkt s
  | .scoreRsp pkt => Sys2Proof.Machine.execScoreRsp pkt s
  | .expandRequest pkt => Sys2Proof.Machine.execExpandRequest pkt s
  | .expandRsp pkt => Sys2Proof.Machine.execExpandRsp pkt s
  | .queryMessage pkt => Sys2Proof.Machine.execQueryMessage pkt s
  | .listMessage pkt => Sys2Proof.Machine.execListMessage pkt s
  | .collective pkt => Sys2Proof.Machine.execCollective pkt s
  | .undelivered pkt => Sys2Proof.Machine.execUndelivered pkt s
  | .requestResendTimer reqId => Sys2Proof.Machine.execRequestResendTimer reqId s
  | .requestTimeout reqId => Sys2Proof.Machine.execRequestTimeout reqId s
  | .listProgressTimer node reqId => Sys2Proof.Machine.execListProgressTimer node reqId s
  | .mapApply req v => Sys2Proof.Machine.execMapApply req v s
  | .claim req v => Sys2Proof.Machine.execClaim req v s
  | .tset req v => Sys2Proof.Machine.execTset req v s
  | .ownAbort req v => Sys2Proof.Machine.execOwnAbort req v s
  | .offer pkt => Sys2Proof.Machine.execOffer pkt s
  | .accept pkt => Sys2Proof.Machine.execAccept pkt s
  | .confirm pkt => Sys2Proof.Machine.execConfirm pkt s
  | .taken pkt => Sys2Proof.Machine.execTaken pkt s
  | .withdraw pkt => Sys2Proof.Machine.execWithdraw pkt s
  | .revoke pkt => Sys2Proof.Machine.execRevoke pkt s
  | .revokeAck pkt => Sys2Proof.Machine.execRevokeAck pkt s
  | .announce pkt => Sys2Proof.Machine.execAnnounce pkt s
  | .drainTimerExpiry comp => Sys2Proof.Machine.execDrainTimerExpiry comp s
  | .tokenResend seg => Sys2Proof.Machine.execTokenResend seg s
  | .handoverTimeout seg => Sys2Proof.Machine.execHandoverTimeout seg s
  | .anchorSilent comp => Sys2Proof.Machine.execAnchorSilent comp s
  | .heldResponseTimer node reqId => Sys2Proof.Machine.execHeldResponseTimer node reqId s
  | .holdDrainExpiry node reqId => Sys2Proof.Machine.execHoldDrainExpiry node reqId s
  | .unreachableExpiry node => Sys2Proof.Machine.execUnreachableExpiry node s
  | .rekeySwatch part => Sys2Proof.Machine.execRekeySwatch part s
  | .rasDrain req v => Sys2Proof.Machine.execRasDrain req v s
  | .rasFence req v => Sys2Proof.Machine.execRasFence req v s
  | .rasRestore req v => Sys2Proof.Machine.execRasRestore req v s
  | .rasRetire req v => Sys2Proof.Machine.execRasRetire req v s
  | .unitFault kind unit cls addr => Sys2Proof.Machine.execUnitFault kind unit cls addr s
  | .drainComplete kind unit => Sys2Proof.Machine.execDrainComplete kind unit s
  | .returnWorkDone kind unit ok => Sys2Proof.Machine.execReturnWorkDone kind unit ok s
  | .poisonedDataRead reader data => Sys2Proof.Machine.execPoisonedDataRead reader data s
  | .modelRefetchDone model ok again => Sys2Proof.Machine.execModelRefetchDone model ok again s
  | .persistentLogCopy => Sys2Proof.Machine.execPersistentLogCopy s
  | .usneaRestart => Sys2Proof.Machine.execUsneaRestart s
  | .adminWaitTimeout cmd => Sys2Proof.Machine.execAdminWaitTimeout cmd s
  | .swatchMove src dst cmd crcOk => Sys2Proof.Machine.execSwatchMove src dst cmd crcOk s
  | .regulatorRefill => Sys2Proof.Machine.execRegulatorRefill s
  | .ddrTraining ch ok org => Sys2Proof.Machine.execDdrTraining ch ok org s
  | .dqsOscTick temps => Sys2Proof.Machine.execDqsOscTick temps s
  | .ddrPatrolRead ch line result => Sys2Proof.Machine.execDdrPatrolRead ch line result s
  | .nandTraining ch ok ids => Sys2Proof.Machine.execNandTraining ch ok ids s
  | .codewordRead laddr step => Sys2Proof.Machine.execCodewordRead laddr step s
  | .nandProgramFail block => Sys2Proof.Machine.execNandProgramFail block s
  | .nandEraseFail block => Sys2Proof.Machine.execNandEraseFail block s
  | .dieFence die => Sys2Proof.Machine.execDieFence die s
  | .garbageCollection block dest => Sys2Proof.Machine.execGarbageCollection block dest s
  | .wearLevelMove block dest => Sys2Proof.Machine.execWearLevelMove block dest s
  | .blockRefresh block dest => Sys2Proof.Machine.execBlockRefresh block dest s
  | .fastCellFold block dest => Sys2Proof.Machine.execFastCellFold block dest s
  | .flashPatrol block corrected => Sys2Proof.Machine.execFlashPatrol block corrected s
  | .mapCheckpoint => Sys2Proof.Machine.execMapCheckpoint s
  | .mapRebuild => Sys2Proof.Machine.execMapRebuild s
  | .dieTempRead temps => Sys2Proof.Machine.execDieTempRead temps s
  | .healthRecordWrite => Sys2Proof.Machine.execHealthRecordWrite s
  | .modelCopyDone model ok => Sys2Proof.Machine.execModelCopyDone model ok s
  | .batchClose batch => Sys2Proof.Machine.execBatchClose batch s
  | .streamRoundStart lane => Sys2Proof.Machine.execStreamRoundStart lane s
  | .laneHalfRefill lane half => Sys2Proof.Machine.execLaneHalfRefill lane half s
  | .collectiveTimeout batch => Sys2Proof.Machine.execCollectiveTimeout batch s
  | .domainIdleGate domain => Sys2Proof.Machine.execDomainIdleGate domain s
  | .domainWake domain => Sys2Proof.Machine.execDomainWake domain s
  | .powerEstimate watts => Sys2Proof.Machine.execPowerEstimate watts s
  | .powerCalibrate meanW inputW => Sys2Proof.Machine.execPowerCalibrate meanW inputW s
  | .tempSample temps => Sys2Proof.Machine.execTempSample temps s
  | .overvoltage monitor above => Sys2Proof.Machine.execOvervoltage monitor above s
  | .voltageDroop domain mhz => Sys2Proof.Machine.execVoltageDroop domain mhz s
  | .regulatorPoll replies => Sys2Proof.Machine.execRegulatorPoll replies s
  | .warmReset req pin => Sys2Proof.Machine.execWarmReset req pin s
  | .coldReset aonLow => Sys2Proof.Machine.execColdReset aonLow s
  | .aonPwrokRise => Sys2Proof.Machine.execAonPwrokRise s
  | .mainPwrokRise => Sys2Proof.Machine.execMainPwrokRise s
  | .mainPwrokFall aonToo => Sys2Proof.Machine.execMainPwrokFall aonToo s
  | .clockLoss => Sys2Proof.Machine.execClockLoss s
  | .rtcOscStop => Sys2Proof.Machine.execRtcOscStop s
  | .startupStage outcome => Sys2Proof.Machine.execStartupStage outcome s
  | .firstStrobe => Sys2Proof.Machine.execFirstStrobe s
  | .lockstepMismatch => Sys2Proof.Machine.execLockstepMismatch s
  | .usneaWatchdog => Sys2Proof.Machine.execUsneaWatchdog s
  | .componentFault comp => Sys2Proof.Machine.execComponentFault comp s
  | .netbootRetry image => Sys2Proof.Machine.execNetbootRetry image s
  | .fwTrialConfirm => Sys2Proof.Machine.execFwTrialConfirm s
  | .sensorRead values => Sys2Proof.Machine.execSensorRead values s
  | .mbxDoorbell req v => Sys2Proof.Machine.execMbxDoorbell req v s
  | .identify msg => Sys2Proof.Machine.execIdentify msg s
  | .sensors msg => Sys2Proof.Machine.execSensors msg s
  | .logRead msg => Sys2Proof.Machine.execLogRead msg s
  | .blackboxRead msg => Sys2Proof.Machine.execBlackboxRead msg s
  | .mgmtAttest msg => Sys2Proof.Machine.execMgmtAttest msg s
  | .mgmtCertificate msg => Sys2Proof.Machine.execMgmtCertificate msg s
  | .mgmtLedgerRead msg => Sys2Proof.Machine.execMgmtLedgerRead msg s
  | .rasCommand msg => Sys2Proof.Machine.execRasCommand msg s
  | .regWrite msg => Sys2Proof.Machine.execRegWrite msg s
  | .admin msg => Sys2Proof.Machine.execAdmin msg s
  | .imageChunk msg => Sys2Proof.Machine.execImageChunk msg s
  | .imageStage msg => Sys2Proof.Machine.execImageStage msg s
  | .fwChunk msg => Sys2Proof.Machine.execFwChunk msg s
  | .fwActivate msg => Sys2Proof.Machine.execFwActivate msg s
  | .norWrite msg => Sys2Proof.Machine.execNorWrite msg s
  | .sessionOpen msg => Sys2Proof.Machine.execSessionOpen msg s
  | .sessionClose msg => Sys2Proof.Machine.execSessionClose msg s
  | .subscribe msg => Sys2Proof.Machine.execSubscribe msg s
  | .eventAck msg => Sys2Proof.Machine.execEventAck msg s
  | .eventResend sub seq => Sys2Proof.Machine.execEventResend sub seq s
  | .unresolvedEventRepeat seg => Sys2Proof.Machine.execUnresolvedEventRepeat seg s
  | .ptmInfo msg => Sys2Proof.Machine.execPtmInfo msg s
  | .ptmPublish ns => Sys2Proof.Machine.execPtmPublish ns s
  | .sessionIdleExpiry session => Sys2Proof.Machine.execSessionIdleExpiry session s
  | .receiveAreaTimeout => Sys2Proof.Machine.execReceiveAreaTimeout s
  | .signalDetected port lanes => Sys2Proof.Machine.execSignalDetected port lanes s
  | .receiverAdaptationDone port => Sys2Proof.Machine.execReceiverAdaptationDone port s
  | .msixVectorUnmask fn vector => Sys2Proof.Machine.execMsixVectorUnmask fn vector s
  | .vfEnable vf => Sys2Proof.Machine.execVfEnable vf s
  | .rtcEdge => Sys2Proof.Machine.execRtcEdge s
  | .alwaysOnClockReturn => Sys2Proof.Machine.execAlwaysOnClockReturn s
  | .t5RekeyRewrite part laddr => Sys2Proof.Machine.execT5RekeyRewrite part laddr s
  | .writeRecordExpiry node reqId => Sys2Proof.Machine.execWriteRecordExpiry node reqId s
  | .d2dLaneSwap link lane => Sys2Proof.Machine.execD2dLaneSwap link lane s
  | .usneaRestartComplete => Sys2Proof.Machine.execUsneaRestartComplete s
  | .mgmtLinkChange up => Sys2Proof.Machine.execMgmtLinkChange up s
  | .mctpControlMessage via bytes => Sys2Proof.Machine.execMctpControlMessage via bytes s
  | .i3cDynamicAddress addr => Sys2Proof.Machine.execI3cDynamicAddress addr s
  | .jtagInstruction instr => Sys2Proof.Machine.execJtagInstruction instr s

end Sys2Proof.Machine
end

