-- ==== Sys2Proof/Safety.lean ====
section
/-! DEFINITION. The terms that statements use: what counts as a safe step, which parts of the state a command may change, the
canonical form of the memories, and when a management message reaches its row. -/
namespace Sys2Proof.Machine
open Sys2Proof

/-- The step from `s` answers a next state. -/
def safeStep (s : State) : Prop := ∃ t, step s = .next t

/-! ### Parts of the state -/

/-- The parts of State, by the names of its fields. -/
inductive Part where
  | regs | img | host | shards | lichen | epoch | model | mem | felt | twill | own | sec | ras | usnea | power | free | pending
  deriving DecidableEq, Repr

/-- A part is the same in two states. -/
def samePart (p : Part) (s t : State) : Prop :=
  match p with
  | .regs => t.regs = s.regs
  | .img => t.img = s.img
  | .host => t.host = s.host
  | .shards => t.shards = s.shards
  | .lichen => t.lichen = s.lichen
  | .epoch => t.epoch = s.epoch
  | .model => t.model = s.model
  | .mem => t.mem = s.mem
  | .felt => t.felt = s.felt
  | .twill => t.twill = s.twill
  | .own => t.own = s.own
  | .sec => t.sec = s.sec
  | .ras => t.ras = s.ras
  | .usnea => t.usnea = s.usnea
  | .power => t.power = s.power
  | .free => t.free = s.free
  | .pending => t.pending = s.pending

/-- Where a command answers a next state, no part but those listed has changed. -/
def changesOnly (c : Instr) (parts : List Part) : Prop :=
  ∀ s t : State, exec c s = .next t → ∀ p : Part, p ∉ parts → samePart p s t

/-! ### Memories -/

/-- Every memory of the block stands in its canonical form: T1, T2 and T3 in lines of 64 bytes, host memory in bytes. -/
def memoryOk (s : State) : Bool := memWf 0 s.mem.t1 && memWf 0 s.mem.t3 && memWf 0 s.lichen.t2 && memWf 0 s.host.mem

/-! ### Management messages (R628, R629) -/

/-- A request as it reaches its row. -/
def msgReq (s : State) (m : MgmtMsg) : MgmtReq :=
  { via := m.via, src := if m.via = .mailbox then [] else m.src, typ := field (msgBytes s m) 0 2
    tag := field (msgBytes s m) 4 4, session := none }

/-- The payload of a request that is not sealed. -/
def msgPayload (s : State) (m : MgmtMsg) : List Byte := slice (msgBytes s m) 16 (field (msgBytes s m) 2 2)

/-- A well-formed request of a TYPE reaches a running Usnea; one from the mailbox after its doorbell. -/
def msgArrives (s : State) (m : MgmtMsg) (typ : Nat) : Prop :=
  usneaUp s = true ∧ (m.via = .mailbox → s.usnea.mbxBusy = true) ∧ msgForm (msgBytes s m) = true ∧ field (msgBytes s m) 0 2 = typ

/-- An unsealed request that its transport may make. -/
def msgOpenFor (s : State) (m : MgmtMsg) (typ : Nat) : Prop :=
  msgArrives s m typ ∧ bit (field (msgBytes s m) 9 1) 1 = false ∧ (classO typ = true ∨ m.via = .mailbox)

/-- No kept response and no running command answers the request's TAG. -/
def freshTag (s : State) (q : MgmtReq) : Prop :=
  keptAnswer s q = none ∧ (s.usnea.admins.any fun a => a.2.via == q.via && a.2.src == q.src && a.2.tag == q.tag) = false

/-! ### Commands and packets (R434, R518, R527) -/

/-- Command `n` is admitted, has not begun, and its entry's opcode is `op`. -/
def admittedAs (s : State) (n : Nat) (c : Cmd) (op : Nat) : Prop :=
  s.host.cmds.get n = some c ∧ c.phase = .admitted ∧ eOpcode c.entry = op

/-- A whole packet of a type for this node, of which nothing breaks R434. -/
def packetFor (s : State) (typ : Nat) (p : Packet) : Prop :=
  p.typ = typ ∧ p.dst = nodeId s ∧ s.img.applied = true ∧ badPacket p false = false ∧ clearOk p = true

/-- A whole token message for this node about a segment of a composition that it has, under the hardware agent. -/
def tokenFor (s : State) (msg : Nat) (p : Packet) (key g arg : Nat) : Prop :=
  field p.payload 0 1 = msg ∧ packetFor s 0xC p ∧ readToken p = some (key, g, arg) ∧ hwAgent s = true ∧
    (s.own.comps.get (key / 2 ^ 25)).isSome = true

/-- Command `n` has ended with a status. -/
def endedWith (t : State) (n st : Nat) : Prop := ∃ c, t.host.cmds.get n = some c ∧ c.phase = .done ∧ c.status = st

/-! ### Blocks of flash (R389, R397) -/

/-- Every codeword of a block stands in another block with its kind and key, and the block is erased once more. -/
def blockMoved (s t : State) (b dest : Nat) : Prop :=
  (∀ l w, s.felt.map.get l = some w → w.block = b →
    ∃ w', t.felt.map.get l = some w' ∧ w'.block = dest ∧ w'.kind = w.kind ∧ w'.keyGen = w.keyGen) ∧
  (t.block b).erased = true ∧ (t.block b).pe = (s.block b).pe + 1

end Sys2Proof.Machine
end

