-- ==== Sys2Proof/Certificates/Slice0/Obligations.lean ====
section
/-! DEFINITION. The statements for the provers: what each row of the command table does (completion and result), what it leaves
unchanged (frames), the stated rules of the register conventions and of batches, and the rules of the whole machine. -/
open Sys2Proof Sys2Proof.Machine

/-- Rows of the power unit that act on one thing each (R640 to R642, R648, R649). -/
def Obligations.PowerRowsComplete : Prop :=
  (∀ s : State, s.power.held = false →
    exec .rtcEdge s = .next (s.mapPower fun p => { p with rtcBase := (rtc s / 2048 + 1) * 2048 % 2 ^ 64, rtcCycles := 0, oscStopped := false })) ∧
  (∀ s : State, ∃ t, exec .rtcOscStop s = .next t ∧ t.power.oscStopped = true ∧ (t.sqc .pwrEvent 0).ev.getLsbD 4 = true) ∧
  (∀ (s : State) (d : Nat), mayGate d = true → (s.dom d).st = .run → s.fld .pwrDIdle d 0 16 ≠ 0 →
    s.fld .pwrCfg 0 1 1 = 1 → domBusy s d = false → s.blockOut 16 = false →
    ∃ t, exec (.domainIdleGate d) s = .next t ∧ (t.dom d).st = .gated ∧ ∀ e, e ≠ d → t.dom e = s.dom e) ∧
  (∀ (s : State) (d : Nat), d < 236 → (s.dom d).st = .gated →
    exec (.domainWake d) s = .next (s.setDom d fun x => { x with st := .run, wakes := x.wakes + 1 })) ∧
  (∀ (s : State) (m : Nat), m < 24 →
    ∃ t, exec (.overvoltage m true) s = .next t ∧ t.power.overvolt.contains m = true ∧ (t.sqc .pwrEvent 0).ev.getLsbD 2 = true) ∧
  (∀ (s : State) (m : Nat), m < 24 →
    ∃ t, exec (.overvoltage m false) s = .next t ∧ t.power.overvolt.contains m = false ∧ t.regs = s.regs) ∧
  (∀ (s : State) (d f : Nat), d < 235 → f < domMax d →
    ∃ t, exec (.voltageDroop d f) s = .next t ∧ (t.dom d).railCap = some f ∧ ∀ e, e ≠ d → t.dom e = s.dom e) ∧
  (∀ (s : State) (d f : Nat), d < 235 → f ≥ domMax d →
    exec (.voltageDroop d f) s = .next (s.setDom d fun x => { x with railCap := none }))

/-- Rows of the power policy and the hardwired guards (R645, R646, R650, R651, R653). -/
def Obligations.PowerPolicyCompletes : Prop :=
  (∀ (s : State) (w : List (Nat × Nat)), hostPolicy s = false →
    4 * (w.foldl (fun n e => n + e.2) 0 * s.power.scale / 1024) > 5 * limitHeld s →
    exec (.powerEstimate w) s =
      .next ((lowerStep s).eventIf (!powerThrottled s && powerThrottled (lowerStep s)) .pwrEvent 0 0)) ∧
  (∀ (s : State) (m i : Nat), m ≠ 0 →
    ∃ t, exec (.powerCalibrate m i) s = .next t ∧ t.power.scale = i * 1024 / m ∧
      t.power.powerW = min 1023 (m * (i * 1024 / m) / 1024)) ∧
  (∀ (s : State) (l : List Int),
    ∃ t, exec (.tempSample l) s = .next t ∧ t.power.samples = s.power.samples + 1 ∧
      ∀ k v, (l.take 96)[k]? = some v → (v ≥ 1680 → t.power.hot.contains k = true) ∧ (v < 1648 → t.power.hot.contains k = false)) ∧
  (∀ (s : State) (v : Int), s.power.thermtrip = false → s.power.tripCount = [(0, 2)] → v ≥ 1840 →
    ∃ t, exec (.tempSample [v]) s = .next t ∧ t.power.thermtrip = true ∧ t.power.stopped = true ∧ t.power.mainEn = false) ∧
  (∀ (s : State) (r : List (Option (List Nat))), usneaUp s = true →
    ∃ t, exec (.regulatorPoll r) s = .next t ∧
      t.power.badRegs = ((r.take 8).zipIdx.filter fun x => regulatorBad x.1).map (·.2))

/-- What the resets leave (R640, R654, R670). -/
def Obligations.ResetRowsComplete : Prop :=
  (∀ (s : State) (req : Nat), s.power.held = false → freshTrip s = false →
    ∃ t, exec (.warmReset req true) s = .next t ∧ t.power.stage = .rom ∧ rtc t = rtc s ∧ t.regs.force = [] ∧ t.regs.shadow = [] ∧
      t.mem.t1 = [] ∧ t.lichen.t2 = [] ∧ t.mem.t3 = [] ∧ t.usnea.blackbox = s.usnea.blackbox ∧ t.host.mem = s.host.mem) ∧
  (∀ (s : State) (low : Bool),
    ∃ t, exec (.coldReset low) s = .next t ∧ t.power.stage = .aon ∧ rtc t = 0 ∧ t.regs.force = [] ∧ t.regs.shadow = [] ∧
      t.mem.t1 = [] ∧ t.lichen.t2 = [] ∧ t.mem.t3 = [] ∧ t.usnea.blackbox = [] ∧ t.host.mem = s.host.mem ∧
      (low = true → t.power.held = true)) ∧
  (∀ s : State, ∃ t, exec .clockLoss s = .next t ∧ t.power.held = true ∧ t.power.clockLost = true ∧ rtc t = 0) ∧
  (∀ s : State, s.power.clockLost = true →
    exec .alwaysOnClockReturn s = .next (s.mapPower fun p => { p with clockLost := false, held := !p.aonOk })) ∧
  (∀ s : State, s.power.aonOk = false →
    exec .aonPwrokRise s = .next (s.mapPower fun p => { p with aonOk := true, held := p.clockLost }))

/-- Pins and stages (R356, R656, R657). -/
def Obligations.StartupRowsComplete : Prop :=
  (∀ s : State, s.power.mainEn = true → s.power.held = false →
    exec .mainPwrokRise s = .next (s.mapPower fun p => { p with mainOk := true, linkTrains := p.perst })) ∧
  (∀ s : State, s.power.mainEn = true →
    ∃ t, exec (.mainPwrokFall false) s = .next t ∧ t.power.mainEn = false ∧ t.power.mainOk = false ∧ t.power.stopped = true) ∧
  (∀ s : State, exec .perstNDeassert s = .next (s.mapPower fun p => { p with perst := true, linkTrains := p.mainOk })) ∧
  (∀ s : State, s.power.held = false → s.power.stopped = false → s.power.stage = .aon →
    exec (.startupStage .done) s = .next ((extendMeas s 0 (Config.bootDigest (fuseBytes s))).mapPower fun p => { p with stage := .rom })) ∧
  (∀ (s : State) (c : Nat), s.power.held = false → s.power.stopped = false → (haltCauses s.power.stage).contains c = true →
    ∃ t, exec (.startupStage (.failed c)) s = .next t ∧ t.power.stage = .halted ∧ t.power.halt = c) ∧
  (∀ (s : State) (ch org : Nat), s.power.stage = .memory → ch < 16 → bit (s.ro .ddrCState ch).toNat 0 = false →
    ∃ t, exec (.ddrTraining ch true org) s = .next t ∧ bit (t.ro .ddrCState ch).toNat 0 = true) ∧
  (∀ (s : State) (ch org : Nat), s.power.stage = .memory → ch < 16 → bit (s.ro .ddrCState ch).toNat 0 = false →
    s.mem.trainTries.getD ch 0 = 3 →
    ∃ t, exec (.ddrTraining ch false org) s = .next t ∧ t.power.stage = .halted ∧ t.power.halt = 6)

/-- Class O requests (R629, R630, R637). -/
def Obligations.OpenMessagesAnswered : Prop :=
  (∀ (s : State) (m : MgmtMsg), msgOpenFor s m 0x0001 → msgPayload s m = [] →
    exec (.identify m) s = .next (mgmtReply s (msgReq s m) 0
      (uidBytes ++ natLe 1 2 ++ natLe 4 s.usnea.fwVersion.toNat ++ natLe 4 (nodeId s) ++ natLe 1 (b2n (norDir s).activeB)))) ∧
  (∀ (s : State) (m : MgmtMsg), msgOpenFor s m 0x0002 → (msgPayload s m).length = 4 →
    field (msgPayload s m) 0 2 + field (msgPayload s m) 2 2 ≤ 120 →
    exec (.sensors m) s = .next (mgmtReply s (msgReq s m) 0 ((List.range (field (msgPayload s m) 2 2)).flatMap fun i =>
      natLe 4 (regView s 0x7F .mgtSValue (field (msgPayload s m) 0 2 + i)).toNat))) ∧
  (∀ (s : State) (m : MgmtMsg), msgOpenFor s m 0x0003 → (msgPayload s m).length = 12 →
    exec (.logRead m) s = .next (mgmtReply s (msgReq s m) 0
      (((s.usnea.log.filter fun r => decide (field (msgPayload s m) 0 8 ≤ r.seq) && (m.via == .mailbox || decide (r.kind ≠ 1 ∧ r.kind ≠ 2))).take
        (min 63 (field (msgPayload s m) 8 4))).flatMap logBytes))) ∧
  (∀ (s : State) (m : MgmtMsg), msgOpenFor s m 0x0005 → (msgPayload s m).length = 64 → zeroAt (msgPayload s m) 0x31 15 = true →
    (field (msgPayload s m) 0x30 1 = 1 ∨ field (msgPayload s m) 0x30 1 = 2) →
    exec (.mgmtAttest m) s = .next (mgmtReply s (msgReq s m) 0
      (attestReport s (field (msgPayload s m) 0x30 1) 0 (slice (msgPayload s m) 0 48)))) ∧
  (∀ (s : State) (m : MgmtMsg), msgOpenFor s m 0x0006 → (msgPayload s m).length = 4 →
    exec (.mgmtCertificate m) s = .next (mgmtReply s (msgReq s m) 0 ((s.usnea.certs.drop (field (msgPayload s m) 0 4)).take 4080))) ∧
  (∀ (s : State) (m : MgmtMsg), msgOpenFor s m 0x0015 → msgPayload s m = [] →
    exec (.ptmInfo m) s = .next (mgmtReply s (msgReq s m) 0
      (natLe 4 s.usnea.ptmSeq.toNat ++ natLe 8 s.usnea.ptmRtc.toNat ++ natLe 8 s.usnea.ptmNs.toNat))) ∧
  (∀ (s : State) (m : MgmtMsg) (n : Nat), msgOpenFor s m 0x0010 → (msgPayload s m).length = 324 → zeroAt (msgPayload s m) 1 3 = true →
    freeSession s = some n →
    ∃ t, exec (.sessionOpen m) s = .next t ∧
      (openForm s (msgPayload s m) = true → t.usnea.sessions.has n = true ∧ t.free = s.free + 2) ∧
      (openForm s (msgPayload s m) = false → t = mgmtReply (s.event .mgtEvent 0 8) (msgReq s m) 2 []))

/-- Class P requests of the host mailbox (R623, R629, R631, R634, R635). -/
def Obligations.PrivilegedMessagesRun : Prop :=
  (∀ (s : State) (m : MgmtMsg), msgOpenFor s m 0x0004 → (msgPayload s m).length = 6 → field (msgPayload s m) 0 1 = 0 →
    field (msgPayload s m) 1 1 = 0 → field (msgPayload s m) 2 2 < 8192 →
    exec (.blackboxRead m) s = .next (mgmtReply s (msgReq s m) 0 ((List.range (min 127 (field (msgPayload s m) 4 2))).flatMap fun i =>
      boxRecordAt s.usnea.bbNext s.usnea.blackbox ((field (msgPayload s m) 2 2 + i) % 8192)))) ∧
  (∀ (s : State) (m : MgmtMsg), msgOpenFor s m 0x0007 → (msgPayload s m).length = 16 → field (msgPayload s m) 0 1 < 64 →
    zeroAt (msgPayload s m) 1 7 = true →
    exec (.mgmtLedgerRead m) s = .next (mgmtReply
      (ledgerReturned s (field (msgPayload s m) 0 1) (ledgerFrom s (field (msgPayload s m) 0 1) (field (msgPayload s m) 8 8) 4080)) (msgReq s m) 0
      ((ledgerFrom s (field (msgPayload s m) 0 1) (field (msgPayload s m) 8 8) 4080).flatMap lrecBytes))) ∧
  (∀ (s : State) (m : MgmtMsg), msgOpenFor s m 0x0008 → freshTag s (msgReq s m) → (msgPayload s m).length = 4 →
    exec (.rasCommand m) s = .next (mgmtReplyOnce (wordWrite s 0x7F 0xF00008 true (BitVec.ofNat 32 (field (msgPayload s m) 0 4))) (msgReq s m) 0 [])) ∧
  (∀ (s : State) (m : MgmtMsg) (b al x : Nat), msgOpenFor s m 0x0009 → freshTag s (msgReq s m) → (msgPayload s m).length = 12 →
    zeroAt (msgPayload s m) 2 2 = true → field (msgPayload s m) 0 1 = b → field (msgPayload s m) 1 1 = al → field (msgPayload s m) 4 4 = x →
    b < 18 → al < 4 → x < 2 ^ 18 → x % 4 = 0 →
    exec (.regWrite m) s = .next (mgmtReplyOnce
      (wordWrite s 0x7F (2 ^ 20 * b + 2 ^ 18 * al + x) true (BitVec.ofNat 32 (field (msgPayload s m) 8 4))) (msgReq s m) 0 [])) ∧
  (∀ (s : State) (m : MgmtMsg), msgOpenFor s m 0x000A → freshTag s (msgReq s m) → adminForm (msgPayload s m) = true →
    exec (.admin m) s = .next ((admitEntry s none 0 0 true (msgPayload s m)).mapUsnea fun u => { u with
      admins := u.admins ++ [(s.host.nextCmd, msgReq s m)] })) ∧
  (∀ (s : State) (m : MgmtMsg), msgOpenFor s m 0x000B → 4 ≤ (msgPayload s m).length →
    field (msgPayload s m) 0 4 + (msgPayload s m).length ≤ 2097156 → (s.usnea.recvUse = .free ∨ s.usnea.recvUse = .image) →
    exec (.imageChunk m) s = .next (mgmtReply (recvWrite s .image (field (msgPayload s m) 0 4) ((msgPayload s m).drop 4)) (msgReq s m) 0 [])) ∧
  (∀ (s : State) (m : MgmtMsg), msgOpenFor s m 0x000C → freshTag s (msgReq s m) → (msgPayload s m).length = 4 →
    s.usnea.recvUse = .image → s.power.memDone.contains 0 = true → s.blockOut 1 = false → field (msgPayload s m) 0 4 ≤ 2097152 →
    exec (.imageStage m) s = .next (mgmtReplyOnce (recvFree (stageFrom s 2 0 (field (msgPayload s m) 0 4))) (msgReq s m) 0 [])) ∧
  (∀ (s : State) (m : MgmtMsg), msgOpenFor s m 0x000D → 4 ≤ (msgPayload s m).length →
    field (msgPayload s m) 0 4 + (msgPayload s m).length ≤ 1048580 → (s.usnea.recvUse = .free ∨ s.usnea.recvUse = .firmware) →
    exec (.fwChunk m) s = .next (mgmtReply (recvWrite s .firmware (field (msgPayload s m) 0 4) ((msgPayload s m).drop 4)) (msgReq s m) 0 [])) ∧
  (∀ (s : State) (m : MgmtMsg), msgOpenFor s m 0x000E → freshTag s (msgReq s m) → msgPayload s m = [] → s.usnea.recvUse = .firmware →
    exec (.fwActivate m) s = .next (if fwValid s (recvFirmware s) then activate (mgmtReply s (msgReq s m) 0 []) (recvFirmware s)
      else mgmtReplyOnce (recvFree s) (msgReq s m) 5 [])) ∧
  (∀ (s : State) (m : MgmtMsg), msgOpenFor s m 0x000F → freshTag s (msgReq s m) → 8 ≤ (msgPayload s m).length →
    field (msgPayload s m) 0 1 = 4 → zeroAt (msgPayload s m) 1 3 = true →
    field (msgPayload s m) 4 4 + (msgPayload s m).length ≤ ((norRegion s 4).map (·.2)).getD 0 + 8 →
    exec (.norWrite m) s = .next (mgmtReplyOnce (s.mapUsnea fun u => { u with
      media := ((msgPayload s m).drop 8).zipIdx.foldl (fun l x => Smap.store 0xFF l (field (msgPayload s m) 4 4 + x.2) x.1) u.media }) (msgReq s m) 0 [])) ∧
  (∀ (s : State) (m : MgmtMsg), msgOpenFor s m 0x0012 → (msgPayload s m).length = 24 → field (msgPayload s m) 0 1 ≤ 3 →
    field (msgPayload s m) 1 1 = 0 → field (msgPayload s m) 20 2 < 512 → zeroAt (msgPayload s m) 22 2 = true →
    (s.usnea.subs.filter fun b => b.dest != (msgPayload s m).take 20).length < 8 →
    exec (.subscribe m) s = .next (mgmtReply (s.mapUsnea fun u => { u with
      subs := (u.subs.filter fun b => b.dest != (msgPayload s m).take 20) ++
        [{ dest := (msgPayload s m).take 20, mask := field (msgPayload s m) 20 2, next := 0, events := [], dropped := 0 }] }) (msgReq s m) 0 [])) ∧
  (∀ (s : State) (m : MgmtMsg), msgOpenFor s m 0x0014 → (msgPayload s m).length = 4 →
    (s.usnea.subs.any fun b => b.dest == (msgReq s m).src) = true →
    exec (.eventAck m) s = .next (mgmtReply (s.mapUsnea fun u => { u with subs := u.subs.map fun b =>
      if b.dest == (msgReq s m).src then { b with events := b.events.filter fun e => decide (e.seq ≠ field (msgPayload s m) 0 4) } else b })
      (msgReq s m) 0 []))

/-- Sealed requests (R630). -/
def Obligations.SealedMessagesReachTheirRows : Prop :=
  (∀ (s : State) (m : MgmtMsg) (c : Instr) (typ : Nat) (f : State → MgmtReq → List Byte → State),
    (c, typ, f) ∈ [(.identify m, 0x0001, identify), (.sensors m, 0x0002, sensorsMsg), (.logRead m, 0x0003, logRead),
      (.blackboxRead m, 0x0004, blackboxRead), (.mgmtAttest m, 0x0005, attestMsg), (.mgmtCertificate m, 0x0006, certificateMsg),
      (.mgmtLedgerRead m, 0x0007, ledgerMsg), (.rasCommand m, 0x0008, rasMsg), (.regWrite m, 0x0009, regMsg), (.admin m, 0x000A, adminMsg),
      (.imageChunk m, 0x000B, imageChunk), (.imageStage m, 0x000C, imageStage), (.fwChunk m, 0x000D, fwChunk),
      (.fwActivate m, 0x000E, fwActivate), (.norWrite m, 0x000F, norWrite), (.sessionOpen m, 0x0010, sessionOpen),
      (.sessionClose m, 0x0011, sessionClose), (.subscribe m, 0x0012, subscribe), (.eventAck m, 0x0014, eventAck), (.ptmInfo m, 0x0015, ptmInfo)] →
    msgArrives s m typ → bit (field (msgBytes s m) 9 1) 1 = true →
    exec c s = .next (match unsealMsg s (msgBytes s m) with
      | none => s.event .mgtEvent 0 8
      | some (n, x, p) => f (s.mapUsnea fun u => { u with sessions := u.sessions.put n x }) { msgReq s m with session := some n } p)) ∧
  (∀ (s : State) (m : MgmtMsg), msgArrives s m 0x0011 → bit (field (msgBytes s m) 9 1) 1 = true →
    ∃ t, exec (.sessionClose m) s = .next t ∧
      (∀ n x, unsealMsg s (msgBytes s m) = some (n, x, []) →
        t = endSession (mgmtReply (s.mapUsnea fun u => { u with sessions := u.sessions.put n x }) { msgReq s m with session := some n } 0 []) n) ∧
      (unsealMsg s (msgBytes s m) = none → t = s.event .mgtEvent 0 8))

/-- Faults of Usnea (R606, R608, R610, R616, R619). -/
def Obligations.UsneaFaultRowsComplete : Prop :=
  (∀ s : State, s.usnea.fwImage ≠ [] → ∃ t, exec .lockstepMismatch s = .next t ∧ t.usnea.closed = true ∧ t.usnea.restarting = true ∧
    t.usnea.running = false ∧ t.usnea.haltCause = some 1 ∧ t.usnea.sessions = [] ∧ t.usnea.subs = [] ∧ t.usnea.tags = []) ∧
  (∀ s : State, s.usnea.fwImage ≠ [] → ∃ t, exec .usneaWatchdog s = .next t ∧ t.usnea.closed = true ∧ t.usnea.restarting = true ∧
    t.usnea.running = false ∧ t.usnea.haltCause = some 2 ∧ t.usnea.sessions = [] ∧ t.usnea.subs = [] ∧ t.usnea.tags = []) ∧
  (∀ s : State, s.usnea.fwImage ≠ [] → s.usnea.restarting = true → (norDir s).trial = false →
    ∃ t, exec .usneaRestart s = .next t ∧ t.usnea.restarts = s.usnea.restarts + 1 ∧ t.usnea.closed = false ∧ t.usnea.haltCause = none ∧
      (t.sqc .rasEvent 0).ev.getLsbD 10 = true) ∧
  (∀ s : State, s.usnea.restarting = true → s.usnea.haltCause = none → s.power.stage ≠ .firstStage →
    exec .usneaRestartComplete s =
      .next ((s.mapUsnea fun u => { u with running := true, restarting := false, closed := false }).event .mgtEvent 0 1)) ∧
  (∀ (s : State) (b : List Byte), s.usnea.netTrying = true → s.power.held = false →
    ∃ t, exec (.netbootRetry (some b)) s = .next t ∧
      (fwValid s b = true → t.power.stage = .firstStage ∧ t.usnea.fwImage = b ∧ t.usnea.netbooted = true) ∧ (fwValid s b = false → t = s)) ∧
  (∀ s : State, usneaUp s = true → s.usnea.trialRun = true →
    ∃ t, exec .fwTrialConfirm s = .next t ∧ t.usnea.trialRun = false ∧ (norDir t).trial = false ∧
      (norDir t).activeB = (norDir s).activeB ∧ (norDir t).dseq = (norDir s).dseq + 1) ∧
  (∀ (s : State) (c : Nat), usneaUp s = true → 0 < c → c ≤ 8 → s.usnea.compFaults.getD c [] = [] →
    ∃ t, exec (.componentFault c) s = .next t ∧ t.usnea.compFaults.getD c [] = [rtc s] ∧ (t.sqc .mgtEvent 0).ev.getLsbD 4 = true)

/-- Rows of Usnea's interfaces (R617, R620, R624, R625, R627, R630, R635, R637). -/
def Obligations.UsneaRowsComplete : Prop :=
  (∀ (s : State) (ns : W64), usneaUp s = true → ∃ t, exec (.ptmPublish ns) s = .next t ∧ t.usnea.ptmNs = ns ∧
    t.usnea.ptmRtc.toNat = rtc s ∧ t.usnea.ptmSeq = s.usnea.ptmSeq + 2) ∧
  (∀ (s : State) (n : Nat), exec (.sessionIdleExpiry n) s = .next (s.mapUsnea fun u => { u with sessions := u.sessions.del n })) ∧
  (∀ s : State, (s.usnea.recvUse = .image ∨ s.usnea.recvUse = .firmware) →
    exec .receiveAreaTimeout s = .next (s.mapUsnea fun u => { u with recvUse := .free, recv := [] })) ∧
  (∀ (s : State) (k seq : Nat) (b : Sub) (e : Event), usneaUp s = true → s.usnea.subs[k]? = some b →
    (b.events.find? fun e => e.seq == seq) = some e → e.sent < 10 →
    ∃ t, exec (.eventResend k seq) s = .next t ∧ t.usnea.sent = (destVia b.dest, b.dest, eventBytes e b.dropped) :: s.usnea.sent) ∧
  (∀ (s : State) (i : Nat) (v : BitVec 16), usneaUp s = true → i < 120 →
    ∃ t, exec (.sensorRead [(i, v)]) s = .next t ∧ t.usnea.sensors.get i = some v) ∧
  (∀ (s : State) (up : Bool), exec (.mgmtLinkChange up) s = .next (s.mapUsnea fun u => { u with netUp := up })) ∧
  (∀ (s : State) (a : Nat), a < 128 → exec (.i3cDynamicAddress a) s = .next (s.mapUsnea fun u => { u with i3cAddr := some a })) ∧
  (∀ (s : State) (v : Transport) (b : List Byte), usneaUp s = true → (v = .i3c ∨ v = .smbus) →
    ∃ t, exec (.mctpControlMessage v b) s = .next t ∧ t.usnea.mctpSent = Config.mctpAnswer b :: s.usnea.mctpSent) ∧
  (∀ (s : State) (i : JtagInstr), jtagAccepts s i = true → exec (.jtagInstruction i) s = .next (s.mapUsnea fun u => { u with jtag := i })) ∧
  (∀ (s : State) (i : JtagInstr), s.sec.jtagOff = true → i = .debug → exec (.jtagInstruction i) s = .next s)

/-- Commands that Usnea serves (R484, R495 to R497, R575, R576). -/
def Obligations.SecurityCommandsComplete : Prop :=
  (∀ (s : State) (n : Nat) (c : Cmd), admittedAs s n c 0xA0 → s.blockOut 14 = false → usneaUp s = true →
    ∃ t, exec (.keyProvision n) s = .next t ∧ ∀ u, u = s.mapUsnea (fun x => { x with waitCmds := delSet x.waitCmds n }) →
      (∀ k, provisionedKek u (inputData u c.entry) = some k →
        t.sec.kek.get (field (inputData u c.entry) 0x04 1) = some k ∧ t.sec.counter.get (field (inputData u c.entry) 0x04 1) = some (field (inputData u c.entry) 0x10 8) ∧
        (t.sqc .secEvent 0).ev.getLsbD 5 = true ∧ endedWith t n stOk) ∧
      (provisionedKek u (inputData u c.entry) = none → t = endWith u n stInvalid)) ∧
  (∀ (s : State) (n k : Nat) (c : Cmd) (b : List Byte), admittedAs s n c 0xA1 → s.blockOut 14 = false → usneaUp s = true →
    inputData s c.entry = b → field b 0x04 1 = 1 → field b 0x05 1 = k → k < 4 → zeroAt b 0x100 256 = true →
    (∀ i, i < 4 → s.sec.slots.getD i .unprovisioned = .unprovisioned) →
    ∃ t, exec (.fuseProvision n) s = .next t ∧ (fuseForm b = false → endedWith t n stInvalid ∧ t.sec = s.sec) ∧
      (fuseForm b = true → t.sec.slots.get k = some .provisioned ∧ t.sec.digests.get k = some (slice b 0x20 48) ∧ endedWith t n stOk)) ∧
  (∀ (s : State) (n k g : Nat) (c : Cmd) (b : List Byte), admittedAs s n c 0xA1 → s.blockOut 14 = false → usneaUp s = true →
    inputData s c.entry = b → field b 0x04 1 = 2 → field b 0x05 1 = k → field b 0x06 1 = g → slotLive s k = true → g ≠ k →
    ∃ t, exec (.fuseRevoke n) s = .next t ∧
      (fuseForm b = true → signedBy s b g = true → t.sec.slots.get k = some .revoked ∧ endedWith t n stOk) ∧
      ((fuseForm b = false ∨ signedBy s b g = false) → t.sec.slots = s.sec.slots ∧ endedWith t n stInvalid)) ∧
  (∀ (s : State) (n k v : Nat) (c : Cmd) (b : List Byte), admittedAs s n c 0xA1 → s.blockOut 14 = false → usneaUp s = true →
    inputData s c.entry = b → field b 0x04 1 = 3 → field b 0x07 1 = k → field b 0x10 4 = v → 0 < k → k ≤ 3 →
    s.sec.svn.getD k 0 < v → s.sec.rows.getD k 0 < 64 →
    ∃ t, exec (.fuseRaiseSvn n) s = .next t ∧
      (fuseForm b = true → signedBy s b (field b 0x06 1) = true →
        t.sec.svn.get k = some v ∧ t.sec.rows.get k = some (s.sec.rows.getD k 0 + 1) ∧ endedWith t n stOk) ∧
      ((fuseForm b = false ∨ signedBy s b (field b 0x06 1) = false) → t.sec.svn = s.sec.svn ∧ endedWith t n stInvalid)) ∧
  (∀ (s : State) (n : Nat) (c : Cmd) (u : State), admittedAs s n c 0xA2 → usneaUp s = true →
    u = s.mapUsnea (fun x => { x with waitCmds := delSet x.waitCmds n }) → ePbLen c.entry = 64 → eResultLen c.entry ≥ 864 →
    zeroAt (paramBlock u c.entry) 0x31 15 = true →
    (field (paramBlock u c.entry) 0x30 1 = 2 ∨ (field (paramBlock u c.entry) 0x30 1 = 1 ∧ c.byPf = true)) →
    ∀ r, r = attestReport u (field (paramBlock u c.entry) 0x30 1) c.part (slice (paramBlock u c.entry) 0 48) →
    exec (.attest n) s = .next (finish (putResult u n 0 r) n stOk r.length 0)) ∧
  (∀ (s : State) (n : Nat) (c : Cmd) (u : State), admittedAs s n c 0xA3 → usneaUp s = true → eResultLen c.entry ≥ 8192 →
    u = s.mapUsnea (fun x => { x with waitCmds := delSet x.waitCmds n }) →
    exec (.certificate n) s = .next (finish (putResult u n 0 (s.usnea.certs.take 8192)) n stOk (s.usnea.certs.take 8192).length 0)) ∧
  (∀ (s : State) (n : Nat) (c : Cmd), admittedAs s n c 0xA3 → usneaUp s = false →
    exec (.certificate n) s = .next (s.mapUsnea fun u => { u with waitCmds := addSet u.waitCmds n }))

/-- Rekeying of T3 and T5 (R487, R488). -/
def Obligations.RekeyRowsComplete : Prop :=
  (∀ (s : State) (p : Nat) (k : Rekey), s.sec.rekey.get p = some k → k.t3Active = true → k.t5Active = true → zeroRate s p tT3 = false →
    ∃ t, exec (.rekeySwatch p) s = .next t ∧
      t.sec.rekey.get p = some { k with mark := k.mark + 4096, t3Active := decide (k.mark + 4096 < k.last) }) ∧
  (∀ (s : State) (p l : Nat) (k : Rekey), s.sec.rekey.get p = some k → k.t3Active = true → k.t5Active = true → s.felt.ready = true →
    zeroRate s p tT5 = false → s.felt.map.get l = none → oldCodewords s p = [] →
    ∃ t, exec (.t5RekeyRewrite p l) s = .next t ∧ t.sec.rekey.get p = some { k with t5Active := false })

/-- ZONE commands (R391 to R395, R572). -/
def Obligations.ZoneCommandsComplete : Prop :=
  (∀ (s : State) (n z : Nat) (c : Cmd), admittedAs s n c 0x88 → bits (eArg0 c.entry) 0 3 = 1 → cmdZone s c = some z →
    (s.zone c.part z).st = .empty → bits (eArg0 c.entry) 3 2 = 1 → openZone s c.part false (eIndex c.entry) = none →
    (shardOf s c.part (eIndex c.entry)).isSome = true →
    hostMode s c.part 0 = true → (∀ sh, shardOf s c.part (eIndex c.entry) = some sh → sh.phase ≠ .retiring) →
    exec (.zoneOpen n) s = .next (endWith ((s.setZone c.part z { Zone.empty with st := .opened, ckpt := false, index := eIndex c.entry }).mapFelt
      fun f => { f with zoneWait := f.zoneWait.del c.part }) n stOk)) ∧
  (∀ (s : State) (n z : Nat) (c : Cmd), admittedAs s n c 0x88 → bits (eArg0 c.entry) 0 3 = 1 → cmdZone s c = some z →
    (s.zone c.part z).st ≠ .empty → exec (.zoneOpen n) s = .next (zonesRelease (endWith s n stInvalid) c.part)) ∧
  (∀ (s : State) (n z : Nat) (c : Cmd), admittedAs s n c 0x88 → bits (eArg0 c.entry) 0 3 = 3 → cmdZone s c = some z →
    (s.zone c.part z).st = .opened →
    exec (.zoneFinish n) s = .next (zonesRelease (endWith (s.setZone c.part z { s.zone c.part z with st := .full }) n stOk) c.part)) ∧
  (∀ (s : State) (n z : Nat) (c : Cmd), admittedAs s n c 0x88 → bits (eArg0 c.entry) 0 3 = 4 → cmdZone s c = some z →
    (s.zone c.part z).mapped = [] → (s.zone c.part z).st ≠ .offline → (s.zone c.part z).resetCmd = none →
    exec (.zoneReset n) s = .next (zonesRelease ((markRunning s n).setZone c.part z { s.zone c.part z with resetCmd := some n }) c.part)) ∧
  (∀ (s : State) (p z n : Nat), (s.zone p z).resetCmd = some n → (s.zone p z).mapped = [] →
    exec (.zoneResetErase p z) s =
      .next (zonesRelease (endWith (((zoneBlocks s p z).foldl eraseBlock s).setZone p z Zone.empty) n stOk) p)) ∧
  (∀ (s : State) (p : Nat), hostMode s p 0 = true → zonesRelease s p = s) ∧
  (∀ (s : State) (p : Nat) (e : Nat × Zone), hostMode s p 0 = false → zoneBusy s p = false → e ∈ (zonesRelease s p).felt.zones →
    e.1 / 2 ^ 24 ≠ p) ∧
  (∀ (s : State) (n k : Nat) (c : Cmd), admittedAs s n c 0x88 → bits (eArg0 c.entry) 0 3 = 5 → zeroRate s c.part tT4 = false →
    c.mode 0 = true → k = min (eResultLen c.entry / 16) (zoneTotal s c.part - bits (eArg1 c.entry) 0 24) →
    exec (.zoneReport n) s = .next (zonesRelease (finish (putResult s n 0 ((List.range k).flatMap fun i =>
      zoneRecord (bits (eArg1 c.entry) 0 24 + i) (s.zone c.part (bits (eArg1 c.entry) 0 24 + i)))) n stOk k 0) c.part)) ∧
  (∀ (s : State) (n z l : Nat) (c : Cmd) (r : State × Nat), admittedAs s n c 0x88 → bits (eArg0 c.entry) 0 3 = 2 →
    zeroRate s c.part tT4 = false → zeroRate s c.part tT5 = false → cmdZone s c = some z → eDataLen c.entry = 8 → eResultLen c.entry ≥ 8 →
    bits (eArg0 c.entry) 3 2 = 0 → field (inputData s c.entry) 0 8 = l → appendEntry s c.part z l = r →
    exec (.zoneAppend n) s = .next (zonesRelease (finish (putResult r.1 n 0 (natLe 8 (l % 2 ^ 40 + r.2 * 2 ^ 40))) n
      (if r.2 = stOk then stOk else stInvalid) (if r.2 = stOk then 1 else 0) 0) c.part))

/-- Rows of Felt's own work (R371, R389, R390, R397, R402, R403). -/
def Obligations.FlashMaintenanceCompletes : Prop :=
  (∀ (s : State) (b d : Nat), gcVictim s b = true → destOk s b d = true → erasedBlocks s * 50 < goodBlocks s →
    ∃ t, exec (.garbageCollection b d) s = .next t ∧ blockMoved s t b d) ∧
  (∀ (s : State) (b d : Nat), denseFull s b = true → destOk s b d = true →
    10 * ((densePe s).1 - (densePe s).2 * (s.block b).pe) > (densePe s).2 * mdPeRated s.felt.desc →
    ∃ t, exec (.wearLevelMove b d) s = .next t ∧ blockMoved s t b d) ∧
  (∀ (s : State) (b d : Nat), (s.block b).refresh = true → (s.block b).erased = false → (s.block b).retired = false → destOk s b d = true →
    ∃ t, exec (.blockRefresh b d) s = .next t ∧ blockMoved s t b d) ∧
  (∀ (s : State) (b d : Nat), (s.block b).fast = true → (s.block b).erased = false → (s.block b).retired = false → destOk s b d = true →
    ∃ t, exec (.fastCellFold b d) s = .next t ∧ blockMoved s t b d) ∧
  (∀ (s : State) (b k : Nat), (s.block b).erased = false → (s.block b).retired = false → k > s.fld .fltCfg2 0 0 9 →
    ∃ t, exec (.flashPatrol b k) s = .next t ∧ t.felt.patrol = b + 1 ∧ (t.block b).refresh = true) ∧
  (∀ s : State, s.felt.ready = true → exec .mapCheckpoint s = .next (s.mapFelt fun f => { f with mapCkpt := f.map, sinceCkpt := [] })) ∧
  (∀ s : State, s.power.stage = .media → s.felt.ready = false →
    exec .mapRebuild s = .next (s.mapFelt fun f => { f with map := f.sinceCkpt.foldl mapTake f.mapCkpt, ready := true })) ∧
  (∀ (s : State) (d : Nat) (t : Int), (s.die d).used = true →
    ∃ u, exec (.dieTempRead [(d, t)]) s = .next u ∧ (u.die d).temp = t ∧ (u.die d).maxTemp = max (s.die d).maxTemp t ∧
      (t ≥ (mdTempMax s.felt.desc : Nat) → (u.die d).hot = true ∧ (u.sqc .fltEvent 0).ev.getLsbD 7 = true)) ∧
  (∀ s : State, s.felt.ready = true →
    ∃ t, exec .healthRecordWrite s = .next t ∧ (t.felt.health = s.regs.ro.filter fun e => healthRegs.any fun r => r.ctorIdx == e.1 / 262144) ∧
      t.felt.healthTemps = s.felt.dies.map fun d => (d.1, (d.2.maxTemp, d.2.maxAt))) ∧
  (∀ (s : State) (ch r : Nat), s.power.stage = .memory → ch < 32 → s.felt.trained = [] → s.felt.dead.contains ch = false → s.felt.dead.length < 31 →
    trainingRate s ch = some r →
    ∃ t, exec (.nandTraining ch true []) s = .next t ∧ t.felt.trained.get ch = some r)

/-- Rows of failing flash (R378, R398 to R400). -/
def Obligations.FlashFailureRowsComplete : Prop :=
  (∀ (s : State) (l k : Nat) (w : Codeword), laddrSpace l ≠ 1 → s.felt.map.get l = some w →
    s.fencedUnit 0x0B (dieOf s w.block) = false → s.fencedUnit 0x0A (dieChannel (dieOf s w.block)) = false →
    exec (.codewordRead l (.hard k)) s = .next (readNote s l w.block k)) ∧
  (∀ (s : State) (l : Nat) (w : Codeword), laddrSpace l ≠ 1 → s.felt.map.get l = some w →
    ∃ t, exec (.codewordRead l .failed) s = .next t ∧ (t.sqc .fltEvent 0).ev.getLsbD 2 = true) ∧
  (∀ (s : State) (b : Nat), (s.block b).retired = false → (s.die (dieOf s b)).used = true → mappedIn s b = [] →
    exec (.nandEraseFail b) s = .next (retireBlock (s.bumpSat .fltDEfail (dieOf s b) 1) b)) ∧
  (∀ (s : State) (b : Nat) (u : State), (s.block b).retired = false → (s.die (dieOf s b)).used = true →
    u = rewritePages (s.bumpSat .fltDPfail (dieOf s b) 1) (dieOf s b) →
    exec (.nandProgramFail b) s = .next (retireBlock ((mappedIn u b).foldl
      (fun s l => copyCodeword s l (freeBlock u (u.block b).fast).1) (freeBlock u (u.block b).fast).2) b)) ∧
  (∀ (s : State) (d : Nat), d < 1024 → (s.die d).used = true → s.fencedUnit 0x0B d = false →
    exec (.dieFence d) s = .next (dieLost ((unitFault s 0x0B d 0x08 0 true).event .fltEvent 0 4) d))

/-- Swatches, DDR5 and regulators (R340, R341, R357, R359 to R361, R364). -/
def Obligations.MemoryRowsComplete : Prop :=
  (∀ (s : State) (src dst n a b : Nat) (c : Cmd) (u : State), src % 4096 = 0 → dst % 4096 = 0 → s.serves 0x0E 0 = true →
    s.host.cmds.get n = some c → c.phase ≠ .done → localPlace s src = .t1 a → localPlace s dst = .t1 b →
    placeOwner s (.t1 a) = some c.part → placeOwner s (.t1 b) = some c.part → zeroRate s c.part tT1 = false →
    u = charge (charge s c.part tT1 4096) c.part tT1 4096 →
    exec (.swatchMove src dst n true) s = .next ((placeWrite u (.t1 b) (placeRead u (.t1 a) 4096)).mapMem fun m => { m with
      moves := m.moves.filter fun x => !(x.src == src && x.dst == dst && x.cmd == n) })) ∧
  (∀ (s : State) (src dst n a b : Nat) (c : Cmd), src % 4096 = 0 → dst % 4096 = 0 → s.serves 0x0E 0 = true →
    s.host.cmds.get n = some c → c.phase ≠ .done → localPlace s src = .t1 a → localPlace s dst = .t1 b →
    placeOwner s (.t1 a) = some c.part → placeOwner s (.t1 b) = some c.part → zeroRate s c.part tT1 = false → s.mem.moves = [] →
    ∃ t, exec (.swatchMove src dst n false) s = .next t ∧ t.mem.moves = [{ src := src, dst := dst, cmd := n, part := c.part }] ∧
      t.mem.t1 = s.mem.t1 ∧ (t.sqc .memEvent 0).ev.getLsbD 0 = true) ∧
  (∀ (s : State) (ch l : Nat), ch < 16 → l + 1 < channelLines s → s.fencedUnit 0x09 ch = false →
    exec (.ddrPatrolRead ch l .clean) s = .next (s.mapMem fun m => { m with patrol := m.patrol.put ch (l + 1) })) ∧
  (∀ (s : State) (ch l row : Nat) (sp : Bool), ch < 16 → l + 1 < channelLines s → s.fencedUnit 0x09 ch = false →
    ∃ t, exec (.ddrPatrolRead ch l (.corrected row sp)) s = .next t ∧ t.ro .ddrCCe ch = s.ro .ddrCCe ch + 1 ∧
      (t.sqc .ddrEvent 0).ev.getLsbD 0 = true ∧ t.mem.t3 = s.mem.t3) ∧
  (∀ (s : State) (ch l : Nat), ch < 16 → l + 1 < channelLines s → s.fencedUnit 0x09 ch = false →
    ∃ t, exec (.ddrPatrolRead ch l .uncorrectable) s = .next t ∧ t.ro .ddrCUe ch = s.ro .ddrCUe ch + 1 ∧
      t.mem.t3poison.contains (ddrLocal ch l / 64) = true ∧ (t.sqc .ddrEvent 0).ev.getLsbD 1 = true) ∧
  (∀ (s : State) (temps : List Nat), s.mem.ddrGib ≠ 0 →
    ∃ t, exec (.dqsOscTick temps) s = .next t ∧ ∀ ch, ch < 16 → channelHot t ch = decide (temps.getD ch 0 > 0)) ∧
  (∀ s : State, s.mem.waiting = [] → s.mem.cxlWait = [] →
    exec .regulatorRefill s = .next (s.mapMem fun m => { m with
      bucket := m.rate.foldl (fun b e => Smap.store 0 b e.1 (min
        ((if (cfgRegulator s.img.cfg (e.1 / 6) (e.1 % 6)).2.2 = 0 then e.2 else (cfgRegulator s.img.cfg (e.1 / 6) (e.1 % 6)).2.2 : Nat) : Int)
        (Smap.getD b e.1 0 + (e.2 : Nat)))) m.bucket }))

/-- The window of CXL.mem and BAR4 (R349, R351, R505, R506). -/
def Obligations.CxlRowsComplete : Prop :=
  (∀ (s : State) (b : W64), s.mem.cxlGib ≠ 0 →
    exec (.hdmDecoderCommit b) s = .next (s.mapMem fun m => { m with cxlDecoded := true, hdmBase := b.toNat })) ∧
  (∀ (s : State) (h : W64) (d : Option (List Byte)), s.mem.cxlDecoded = false →
    exec (.cxlMemRequest h d) s = .next (s.mapMem fun m => { m with cxlData := ([], false) })) ∧
  (∀ (s : State) (h : W64) (off : Nat), s.mem.cxlDecoded = true → h.toNat = s.mem.hdmBase + off → off < s.mem.cxlGib * 2 ^ 30 →
    s.mem.cxlWait = [] → s.mem.bucket.getD tT3 0 ≥ 1 →
    ∃ t, exec (.cxlMemRequest h none) s = .next t ∧ t.mem.cxlData.1 = tierRead s.mem.t3 (cxlLocal s (off / 64 * 64)) 64 ∧ t.mem.t3 = s.mem.t3) ∧
  (∀ (s : State) (h : W64) (off : Nat), s.mem.cxlDecoded = true → h.toNat = s.mem.hdmBase + off → off < s.mem.cxlGib * 2 ^ 30 →
    s.mem.bucket.getD tT3 0 < 1 →
    ∃ t, exec (.cxlMemRequest h none) s = .next t ∧ t.mem.cxlWait = s.mem.cxlWait ++ [(cxlLocal s (off / 64 * 64), 64, [])]) ∧
  (∀ (s : State) (off n : Nat), off ≥ s.mem.cxlGib * 2 ^ 30 →
    exec (.bar4Access off n none) s = .next (s.mapMem fun m => { m with cxlData := (List.replicate n 0, false) })) ∧
  (∀ (s : State) (off n : Nat) (b : List Byte), off ≥ s.mem.cxlGib * 2 ^ 30 → exec (.bar4Access off n (some b)) s = .next s) ∧
  (∀ (s : State) (off n : Nat), off + n ≤ s.mem.cxlGib * 2 ^ 30 → 0 < n → s.mem.cxlWait = [] → s.mem.bucket.getD tT3 0 ≥ 1 →
    ∃ t, exec (.bar4Access off n none) s = .next t ∧ t.mem.cxlData.1 = tierRead s.mem.t3 (cxlLocal s off) n)

/-- Register access (R62 to R66, R76, R82, R83, R88). -/
def Obligations.RegisterRowsComplete : Prop :=
  (∀ (s : State) (b x u : Nat) (r : Reg) (d : W64), b < 18 → x < 2 ^ 18 → x % 4 = 0 → resolve 0 b x = .reg r u →
    s.regs.fencedBlocks.contains b = false →
    exec (.registerWrite 0 (2 ^ 20 * b + x) false 0x0F d) s = .next (regWrite s 0 r u 0 x (d.setWidth 32))) ∧
  (∀ (s : State) (a : Nat) (d : W64), 18 * 2 ^ 20 ≤ a → a < 2 ^ 26 → a % 4 = 0 →
    exec (.registerWrite 0 a false 0x0F d) s = .next (writeError s 0 0 (a % 2 ^ 18) (a / 2 ^ 18 % 4) werrUnmapped)) ∧
  (∀ (s : State) (b x u : Nat) (r : Reg) (d : W64) (be : BitVec 8), b < 18 → x < 2 ^ 18 → x % 4 = 0 → resolve 0 b x = .reg r u →
    be.toNat % 16 ≠ 0 → be.toNat % 16 ≠ 15 →
    exec (.registerWrite 0 (2 ^ 20 * b + x) false be d) s = .next (writeError s 0 b x 0 werrPartial)) ∧
  (∀ (s : State) (b x u : Nat) (r : Reg) (v : W32), b < 18 → x < 2 ^ 18 → x % 4 = 0 → resolve 0 b x = .reg r u → r.row.acc = .sqc →
    s.regs.fencedBlocks.contains b = false →
    exec (.sqcWrite 0 (2 ^ 20 * b + x) v) s = .next (sqcWrite s 0 r u x v)) ∧
  (∀ (s : State) (b x u i : Nat) (r : Reg) (v : W32), b < 18 → x < 2 ^ 18 → x % 4 = 0 → resolve 0 b x = .reg r u → r.row.acc = .sqc →
    s.regs.fencedBlocks.contains b = false → r ≠ .pwrEvent → ((s.sqc r u).seq - BitVec.ofNat 8 (v.toNat / 2 ^ 24)).toNat < 128 → i < 24 →
    ∃ t, exec (.sqcWrite 0 (2 ^ 20 * b + x) v) s = .next t ∧ (t.sqc r u).seq = (s.sqc r u).seq ∧
      ((t.sqc r u).ev.getLsbD i = true ↔ (s.sqc r u).ev.getLsbD i = true ∧ (v.getLsbD i = true →
        ((s.sqc r u).seq - (s.sqc r u).stamps.getD i 0).toNat < ((s.sqc r u).seq - BitVec.ofNat 8 (v.toNat / 2 ^ 24)).toNat))) ∧
  (∀ (s : State) (b x : Nat) (a : Reg) (v : W32), b < 18 → x < 2 ^ 18 → x % 4 = 0 → resolve 0 b x = .window a →
    s.regs.fencedBlocks.contains b = false →
    exec (.indDataAccess 0 (2 ^ 20 * b + x) (some v)) s = .next (winPut s 0 a 0 v)) ∧
  (∀ (s : State) (c w : Nat) (v : W32), s.regs.fencedBlocks.contains 13 = false → c < 256 → w < 6 →
    s.reg .ownCompIndAddr 0 = BitVec.ofNat 32 (w + 8 * c) → v &&& ~~~compMask w = 0 →
    ∃ t, exec (.indDataAccess 0 (2 ^ 20 * 13 + 0x20) (some v)) s = .next t ∧ t.own.stageRec.get (8 * c + w) = some v) ∧
  (∀ (s : State) (b x : Nat) (a : Reg), b < 18 → x < 2 ^ 18 → x % 4 = 0 → resolve 0 b x = .window a →
    ∃ t, exec (.indDataAccess 0 (2 ^ 20 * b + x) none) s = .next t ∧ t.regs.readData.get 0 = some ((winRead s 0 a 0).2.setWidth 64)) ∧
  (∀ (s : State) (b x : Nat) (a : Reg), b < 18 → x < 2 ^ 18 → x % 4 = 0 → resolve 0 b x = .window a →
    exec (.indDataAccess 0 (2 ^ 20 * b + x) none) s = .next ((winRead s 0 a 0).1.mapRegs fun g => { g with
      readData := g.readData.put 0 ((winRead s 0 a 0).2.setWidth 64) })) ∧
  (∀ (s : State) (b x u : Nat) (r : Reg), b < 18 → x < 2 ^ 18 → x % 4 = 0 → resolve 0 b x = .reg r u →
    exec (.loRegisterRead 0 ⟨2 ^ 20 * b + x, false⟩) s = .next ((regRead s 0 r u 0).1.mapRegs fun g => { g with
      readData := g.readData.put 0 ((regRead s 0 r u 0).2.setWidth 64) })) ∧
  (∀ (s : State) (req a : Nat), a % 8 = 0 → a < 2 ^ 26 → ∃ t, exec (.loRegisterRead req ⟨a, true⟩) s = .next t ∧
    t.regs.readData.get (min req 127) = some ((wordRead (wordRead s req a).1 req (a + 4)).2 ++ (wordRead s req a).2)) ∧
  (∀ (s : State) (v : W32), s.regs.fencedBlocks.contains 0 = false → s.blockOut 0 = false → v ≠ 0 →
    v &&& BitVec.ofNat 32 (cfgEpochMask s.img.cfg) = 0 → s.regs.updNow = none → s.regs.updEpoch = none →
    exec (.updStrobe 0 v) s = .next (issueUpdate s v)) ∧
  (∀ (s : State) (v : W32), s.regs.fencedBlocks.contains 0 = false → s.blockOut 0 = false → v ≠ 0 →
    v &&& BitVec.ofNat 32 (cfgEpochMask s.img.cfg) = 0 → s.regs.updNow = none → s.regs.updEpoch = none →
    ∃ t, exec (.updStrobe 0 v) s = .next t ∧ (strobeNear s = false → t.regs.updNow = some v) ∧ (strobeNear s = true → t.regs.updEpoch = some v)) ∧
  (∀ (s : State) (v w : W32), s.regs.fencedBlocks.contains 0 = false → s.blockOut 0 = false → v ≠ 0 →
    v &&& BitVec.ofNat 32 (cfgEpochMask s.img.cfg) = 0 → s.regs.updNow = some w → s.regs.updNext = none →
    ∃ t, exec (.updStrobe 0 v) s = .next t ∧ t.regs.updNow = some w ∧ t.regs.updNext = some v) ∧
  (∀ (s : State) (g : W32), s.regs.updNow = some g → s.regs.updNext = none →
    ∃ t, exec (.updateStrobeDone []) s = .next t ∧ t.regs.updNow = none ∧ t.regs.updMissed = [] ∧ (t.sqc .glbUpdStatus 0).ev.getLsbD 1 = true) ∧
  (∀ (s : State) (k i : Nat) (r : Reg), k % 2 = 0 → regOfKey (k / 2) = some r → r.row.acc = .rw → r.row.block < 18 →
    k / 2 % 262144 < r.row.units → regUnit r (k / 2 % 262144) = none → i < 32 → s.regs.good = [] →
    s.regs.fencedBlocks.contains r.row.block = false → (copyNow s k).par = parityOf (copyNow s k).val →
    ∃ t, exec (.parityScan r.row.block [(k, i)]) s = .next t ∧ t.regs.fencedBlocks.contains r.row.block = true)

/-- Commands of IMG_CTRL, OWN_CMD, RAS_CMD, TWL_P_CMD and MGT_MBX_DOORBELL. -/
def Obligations.RegisterCommandsComplete : Prop :=
  (∀ (s u : State) (h : HostWrites), u = hostWrites s h → s.regs.fencedBlocks.contains 1 = false → s.blockOut 1 = false →
    (s.reg .imgStageLen 0).toNat ≤ 16777216 →
    exec (.imgStage 0 1 h) s = .next (imgStageBytes u
      (hostRead u ((s.reg .imgStageAddrLo 0).toNat + (s.reg .imgStageAddrHi 0).toNat * 2 ^ 32) (s.reg .imgStageLen 0).toNat))) ∧
  (∀ (s u : State) (h : HostWrites), u = hostWrites s h → s.regs.fencedBlocks.contains 1 = false → s.blockOut 1 = false →
    (s.reg .imgStageLen 0).toNat ≤ 16777216 → s.img.slot0 = none →
    ∃ t x, exec (.imgStage 0 1 h) s = .next t ∧ t.img.slot0 = some x ∧ x.phase = .verifying ∧ x.req = s.img.newest + 1 ∧
      x.bytes = hostRead u ((s.reg .imgStageAddrLo 0).toNat + (s.reg .imgStageAddrHi 0).toNat * 2 ^ 32) (s.reg .imgStageLen 0).toNat ∧
      t.img.newest = s.img.newest + 1 ∧ t.img.reqState = 1) ∧
  (∀ s : State, s.regs.fencedBlocks.contains 1 = false → exec (.imgAbort 0 2) s = .next (imgAbort s)) ∧
  (∀ (s : State) (k : Nat), s.regs.fencedBlocks.contains 1 = false → latestPending s = some k →
    ∃ t, exec (.imgAbort 0 2) s = .next t ∧ (k = 0 → t.img.slot0 = none ∧ t.img.slot1 = s.img.slot1) ∧
      (k ≠ 0 → t.img.slot1 = none ∧ t.img.slot0 = s.img.slot0) ∧ t.img.newest = s.img.newest + 1 ∧ t.img.reqState = 5 ∧
      (t.sqc .imgStatus 0).ev.getLsbD 3 = true) ∧
  (∀ s : State, s.regs.fencedBlocks.contains 1 = false → latestPending s = none → exec (.imgAbort 0 2) s = .next s) ∧
  (∀ (s : State) (v : W32), s.regs.fencedBlocks.contains 13 = false → s.blockOut 13 = false → bits v.toNat 0 4 = 1 →
    exec (.mapApply 0 v) s = .next (mapApply s (bits v.toNat 4 16))) ∧
  (∀ (s : State) (v : W32) (k : Nat), s.regs.fencedBlocks.contains 13 = false → s.blockOut 13 = false → bits v.toNat 0 4 = 1 → k = bits v.toNat 4 16 →
    k < 256 → genFieldsOk s k (stagedGen s k) = true → genStateOk (s.own.comps.get k) (stagedGen s k) = true → s.own.held = [] →
    ∃ t c, exec (.mapApply 0 v) s = .next t ∧ t.own.comps.get k = some c ∧ c.now = stagedGen s k ∧
      c.prev = (s.own.comps.get k).map (·.now) ∧ t.own.cmdStatus = 2 * ownDone + 16 * k ∧ (t.sqc .ownEvent 0).ev.getLsbD 0 = true) ∧
  (∀ (s : State) (v : W32), s.regs.fencedBlocks.contains 13 = false → s.blockOut 13 = false → bits v.toNat 0 4 = 2 →
    exec (.claim 0 v) s = .next (claim s (bits v.toNat 4 16))) ∧
  (∀ (s : State) (v : W32) (key g : Nat), s.regs.fencedBlocks.contains 13 = false → s.blockOut 13 = false → bits v.toNat 0 4 = 2 →
    segKey s (bits v.toNat 4 16) = some key → g = (s.reg .ownArg0 0).toNat → g ≤ maxTgen → (s.token key).tgen < g → (s.token key).st ≠ .claiming →
    (s.reg .ownArg1 0).toNat = 0 → (s.reg .ownArg2 0).toNat = 0 → s.own.held = [] → devMode s 0 = true →
    ∃ t, exec (.claim 0 v) s = .next t ∧ (t.token key).st = .held ∧ (t.token key).tgen = g ∧ (t.token key).ceasing = none ∧
      (t.sqc .ownEvent 0).ev.getLsbD 5 = true) ∧
  (∀ (s : State) (v : W32) (key g n : Nat), s.regs.fencedBlocks.contains 13 = false → s.blockOut 13 = false → bits v.toNat 0 4 = 2 →
    segKey s (bits v.toNat 4 16) = some key → g = (s.reg .ownArg0 0).toNat → g ≤ maxTgen → (s.token key).tgen < g → (s.token key).st ≠ .claiming →
    n < noNode → n ≠ nodeId s → (s.reg .ownArg1 0).toNat = 2 ^ 17 + n → (s.reg .ownArg2 0).toNat = 0 → devMode s 0 = false →
    ∃ t, exec (.claim 0 v) s = .next t ∧ (t.token key).st = .claiming ∧ (t.token key).tgen = g ∧ (t.token key).peer = some n ∧
      (t.token key).waitAck = [n] ∧ t.own.cmdStatus = 1 + 2 * ownWaiting + 16 * bits v.toNat 4 16) ∧
  (∀ (s : State) (v : W32), s.regs.fencedBlocks.contains 13 = false → s.blockOut 13 = false → hwAgent s = false → bits v.toNat 0 4 = 3 →
    exec (.tset 0 v) s = .next (tset s (bits v.toNat 4 16))) ∧
  (∀ (s : State) (v : W32) (key : Nat) (st : Token), s.regs.fencedBlocks.contains 13 = false → s.blockOut 13 = false → devMode s 0 = true →
    bits v.toNat 0 4 = 3 → segKey s (bits v.toNat 4 16) = some key → (s.reg .ownArg1 0).toNat < 2 ^ 20 → (s.reg .ownArg0 0).toNat ≤ maxTgen →
    tokenOf (bits (s.reg .ownArg1 0).toNat 17 3) = some st → tsetOk (s.token key) st (s.reg .ownArg0 0).toNat = true → s.own.held = [] →
    (st = .confirmed → inService s key = false) →
    ∃ t, exec (.tset 0 v) s = .next t ∧ (t.token key).st = st ∧ (t.token key).tgen = (s.reg .ownArg0 0).toNat ∧
      (t.token key).peer = (if bits (s.reg .ownArg1 0).toNat 0 17 = noNode then none else some (bits (s.reg .ownArg1 0).toNat 0 17)) ∧
      t.own.cmdStatus = 2 * ownDone + 16 * bits v.toNat 4 16) ∧
  (∀ (s : State) (v : W32), s.regs.fencedBlocks.contains 13 = false → bits v.toNat 0 4 = 4 →
    exec (.ownAbort 0 v) s = .next (ownAbort s (bits v.toNat 4 16))) ∧
  (∀ (s : State) (v : W32) (key g : Nat) (st : Token) (n : Option Nat), s.regs.fencedBlocks.contains 13 = false → s.blockOut 13 = false →
    bits v.toNat 0 4 = 4 → segKey s (bits v.toNat 4 16) = some key → (s.token key).st = .claiming → (s.token key).before = some (st, g, n) →
    s.own.held = [] →
    ∃ t, exec (.ownAbort 0 v) s = .next t ∧ (t.token key).st = st ∧ (t.token key).tgen = g ∧ (t.token key).peer = n ∧ (t.token key).waitAck = [] ∧
      t.own.cmdStatus = 2 * ownDone + 16 * bits v.toNat 4 16) ∧
  (∀ (s : State) (v : W32), s.regs.fencedBlocks.contains 15 = false →
    (bits v.toNat 0 3 = 1 → exec (.rasDrain 0 v) s = .next (rasCmd s v.toNat)) ∧
    (bits v.toNat 0 3 = 2 → exec (.rasFence 0 v) s = .next (rasCmd s v.toNat)) ∧
    (bits v.toNat 0 3 = 3 → exec (.rasRestore 0 v) s = .next (rasCmd s v.toNat)) ∧
    (bits v.toNat 0 3 = 4 → exec (.rasRetire 0 v) s = .next (rasCmd s v.toNat))) ∧
  (∀ (s : State) (v : W32) (k u : Nat), s.regs.fencedBlocks.contains 15 = false → s.blockOut 15 = false → k = bits v.toNat 3 5 → u = bits v.toNat 8 13 →
    u < unitCount k →
    (bits v.toNat 0 3 = 1 → k < 0x12 → (s.unit k u).st = .inService → strands s k u = false →
      ∃ t, exec (.rasDrain 0 v) s = .next t ∧ (t.unit k u).st = .draining ∧ t.ras.result = 0 ∧ t.ras.kind = k ∧ t.ras.unit = u) ∧
    (bits v.toNat 0 3 = 2 → k = 7 → (s.unit k u).st = .inService → (s.unit k u).tries < 3 →
      ∃ t, exec (.rasFence 0 v) s = .next t ∧ (t.unit k u).st = .out ∧ t.ras.result = 0 ∧ t.ras.kind = k ∧ t.ras.unit = u) ∧
    (bits v.toNat 0 3 = 3 → (s.unit k u).st = .draining →
      ∃ t, exec (.rasRestore 0 v) s = .next t ∧ (t.unit k u).st = .draining ∧ (t.unit k u).reenable = true ∧ t.ras.result = 0) ∧
    (bits v.toNat 0 3 = 4 → k < 0x12 → (s.unit k u).st = .out →
      ∃ t, exec (.rasRetire 0 v) s = .next t ∧ (t.unit k u).st = .retired ∧ unitKey k u ∈ t.ras.retired ∧ t.ras.result = 0) ∧
    (bits v.toNat 0 3 = 2 → k < 0x12 → (s.unit k u).st = .out →
      ∃ t, exec (.rasFence 0 v) s = .next t ∧ t.ras.units = s.ras.units ∧ t.ras.result = 1)) ∧
  (∀ (s : State) (p : Nat), p < 12 → s.regs.fencedBlocks.contains 12 = false → s.regs.fencedUnits.contains (fencedKey .twlPCmd p) = false →
    exec (.portRetrain 0 p) s = .next (portRetrain s p) ∧ exec (.portRetarget 0 p) s = .next (portRetarget s p) ∧
    exec (.portDisable 0 p) s = .next (portDisable s p) ∧ ∀ l, l < 5 → exec (.portSwap 0 p l) s = .next (laneFailing s p l)) ∧
  (∀ (s : State) (p : Nat), p < 12 → s.regs.fencedBlocks.contains 12 = false → s.regs.fencedUnits.contains (fencedKey .twlPCmd p) = false →
    ((s.port p).st = .active → ∃ t, exec (.portRetrain 0 p) s = .next t ∧ (t.port p).st = .cal) ∧
    ((s.port p).st = .param → (s.port p).mismatch = true → ∃ t, exec (.portRetrain 0 p) s = .next t ∧ (t.port p).st = .cal) ∧
    ((s.port p).st ≠ .disabled → ∃ t, exec (.portRetarget 0 p) s = .next t ∧ (t.port p).st = .draining) ∧
    ((s.port p).outq = [] → ∃ t, exec (.portDisable 0 p) s = .next t ∧ (t.port p).st = .disabled ∧ (t.port p).cmdOff = true ∧ (t.port p).width = 0) ∧
    (∀ l, l < 5 → (s.port p).st = .active → (s.port p).failed.contains l = false → indexOf? (· == l) (s.port p).rx = none →
      ∃ t, exec (.portSwap 0 p l) s = .next t ∧ l ∈ (t.port p).failed) ∧
    (∀ l n f, l < 5 → (s.port p).st = .active → (s.port p).failed.contains l = false → indexOf? (· == l) (s.port p).rx = some n →
      (s.port p).swapRx = none → (List.range 5).find? (fun m => !(s.port p).rx.contains m && !(addSet (s.port p).failed l).contains m) = some f →
      ∃ t, exec (.portSwap 0 p l) s = .next t ∧ l ∈ (t.port p).failed ∧ (t.port p).swapRx = some n)) ∧
  (∀ s : State, s.regs.fencedBlocks.contains 17 = false → s.usnea.mbxBusy = false → s.blockOut 17 = false →
    exec (.mbxDoorbell 0 1) s = .next (s.mapUsnea fun u => { u with mbxBusy := true }))

/-- Doorbells, fetch, credit and the life of a queue pair (R508, R516, R522 to R530). -/
def Obligations.QueueRowsComplete : Prop :=
  (∀ (s u : State) (fn q d n : Nat) (v : W32) (h : HostWrites), u = hostWrites s h → fnDisabled u fn = false → q < 16384 → u.blockOut 2 = false →
    deviceQp u fn q = some d → (u.qp d).leaving = none → (u.qp d).st = .active → n = sqSize u d →
    (v.toNat < n → subMod v.toNat (u.qp d).sqHead n ≥ subMod (u.qp d).sqTail (u.qp d).sqHead n → n ≤ 2 ^ 16 →
      exec (.sqDoorbell fn q v h) s = .next (u.updQp d fun x => { x with
        sqTail := v.toNat, exposedAt := x.exposedAt ++ List.replicate (subMod v.toNat x.sqTail n) (rtc u) })) ∧
    (2 ^ 16 ≤ v.toNat → exec (.sqDoorbell fn q v h) s = .next (failQp u d 4))) ∧
  (∀ (s : State) (fn q d m : Nat) (v : W32), fnDisabled s fn = false → q < 16384 → s.blockOut 2 = false →
    deviceQp s fn q = some d → (s.qp d).leaving = none → (s.qp d).st = .active → m = cqSize s d →
    (v.toNat < m → m ≤ 2 ^ 16 → subMod (s.qp d).cqTail v.toNat m ≤ subMod (s.qp d).cqTail (s.qp d).cqHead m →
      exec (.cqDoorbell fn q v) s = .next (s.updQp d fun x => { x with
        cqHead := v.toNat, unconsumed := x.unconsumed - subMod v.toNat x.cqHead m })) ∧
    (2 ^ 16 ≤ v.toNat → exec (.cqDoorbell fn q v) s = .next (failQp s d 4))) ∧
  (∀ (s : State) (d k n : Nat), (s.qp d).st = .active → s.blockOut 2 = false → s.partOut 2 d = false → fnDisabled s ((qpPart s d).getD 0) = false →
    n = sqSize s d → k = min (4 - (s.qp d).fetched.length) (min (s.qp d).exposedAt.length (subMod (s.qp d).sqTail (s.qp d).sqHead n)) → 0 < k →
    exec (.entryFetch d) s = .next ((charge s ((qpPart s d).getD 0) tT4 (64 * k)).updQp d fun x => { x with
      sqHead := (x.sqHead + k) % n
      fetched := x.fetched ++ (fetchEntries s d (qpBase s .hqQpSqBaseLo .hqQpSqBaseHi d) n (s.qp d).sqHead k).zip (x.exposedAt.take k)
      exposedAt := x.exposedAt.drop k })) ∧
  (∀ s : State, exec .creditTick s = .next ((s.host.qps.map (·.1)).foldl (fun s' d => s'.updQp d fun x => { x with
    credit := if s.fld .hqRcCfg 0 0 12 = 0 ∨ (x.fetched.isEmpty ∧ x.exposedAt.isEmpty) then 0
      else min ((s.fld .hqRcCfg 0 12 20 : Nat) : Int) (x.credit + (s.fld .hqRcCfg 0 0 12 : Nat)) }) s)) ∧
  (∀ (s : State) (q d : Nat) (o : Nat), s.regs.fencedBlocks.contains 2 = false → qpWriteTarget s 0 0 q = (o, some d) → s.partOut 2 d = false →
    exec (.qpEnable 0 0 q) s = .next (writeEnable (s.setReg .hqQpCtrl d 1) d true) ∧
    exec (.qpDisable 0 0 q) s = .next (writeEnable (s.setReg .hqQpCtrl d 0) d false) ∧
    ((s.qp d).st = .disabled → ∃ t, exec (.qpEnable 0 0 q) s = .next t ∧
      (qpConfigOk (s.setReg .hqQpCtrl d 1) d = true → (t.qp d).st = .active ∧ (t.qp d).cause = 0 ∧ (t.qp d).sqHead = 0 ∧ (t.qp d).sqTail = 0 ∧
        (t.qp d).cqTail = 0 ∧ (t.qp d).cqHead = 0 ∧ (t.qp d).phase = true) ∧
      (qpConfigOk (s.setReg .hqQpCtrl d 1) d = false → (t.qp d).st = .failed ∧ (t.qp d).cause = 1)) ∧
    ((s.qp d).st = .stopping → ∃ t, exec (.qpEnable 0 0 q) s = .next t ∧ (t.qp d).st = .stopping ∧ (t.qp d).reenable = true) ∧
    ((s.qp d).st = .active ∨ (s.qp d).st = .failed → ∃ t, exec (.qpDisable 0 0 q) s = .next t ∧ (t.qp d).st = .stopping ∧ (t.qp d).reenable = false)) ∧
  (∀ (s : State) (d : Nat), (s.qp d).st = .stopping → (s.qp d).fetched = [] → (s.qp d).running = 0 → (s.qp d).reenable = false →
    (s.qp d).leaving = none →
    exec (.qpDrainEnd d) s = .next (flrEnd (s.updQp d fun x => { x with st := .disabled, exposedAt := [], deficit := 0, credit := 0 }) ((qpPart s d).getD 0)) ∧
    ((s.host.fns.getD ((qpPart s d).getD 0) Fn.reset).flr = false → ∃ t, exec (.qpDrainEnd d) s = .next t ∧
      t.qp d = { s.qp d with st := .disabled, exposedAt := [], deficit := 0, credit := 0 })) ∧
  (∀ (s : State) (d : Nat) (q : Qp), s.host.qps = [(d, q)] →
    ∃ t, exec .telemetrySample s = .next t ∧
      (t.qp d).depthSample = BitVec.ofNat 32 ((q.fetched.length + q.exposedAt.length) % 2 ^ 16 + q.running % 2 ^ 16 * 2 ^ 16))

/-- Admission, completion and interrupts (R518, R527 to R533). -/
def Obligations.AdmissionAndCompletion : Prop :=
  (∀ (s v : State) (p d a : Nat) (e : List Byte) (l : List (List Byte × Nat)), p = s.host.slotNext →
    v = (s.mapHost fun h => { h with slotNext := (p + 1) % 64 }) → v.blockOut 2 = false → fnDisabled v p = false →
    slotQps v p = [d] → slotReady v d = true → v.partOut 2 d = false → cqRoom v d = true → drrRounds v [d] = 0 →
    (v.qp d).deficit ≥ headCost v d → (v.qp d).fetched = (e, a) :: l →
    exec .admissionSlot s = .next (admitEntry (afterAdmit v d (entryCost e)) (some d) p p (localQp v d == 0) e) ∧
    ∃ t c, exec .admissionSlot s = .next t ∧ t.host.slotNext = (p + 1) % 64 ∧ (t.qp d).fetched = l ∧
      (t.qp d).admitted = (s.qp d).admitted + 1 ∧ (t.qp d).running = (s.qp d).running + 1 ∧ t.host.nextCmd = s.host.nextCmd + 1 ∧
      t.host.cmds.get s.host.nextCmd = some c ∧ c.entry = e ∧ c.qp = some d ∧ c.part = p ∧
      (admissionCheck (afterAdmit v d (entryCost e)) p p (localQp v d == 0) e = none → c.phase = .admitted) ∧
      (∀ x, admissionCheck (afterAdmit v d (entryCost e)) p p (localQp v d == 0) e = some x → c.phase = .done ∧ c.status = x)) ∧
  (∀ (s : State) (n d : Nat) (c : Cmd), s.host.cmds.get n = some c → c.phase = .done → c.qp = some d →
    exec (.completionWrite n) s = .next (completeQp s n d c)) ∧
  (∀ (s : State) (n d : Nat) (c : Cmd), s.host.cmds.get n = some c → c.phase = .done → c.qp = some d → functionDown s c.fn = false →
    (s.qp d).cqBad = false → c.t4Failed = false → c.result = [] → c.status ≠ stFaultedPartial → c.status ≠ stFaultedNone →
    ∃ t, exec (.completionWrite n) s = .next t ∧
      t.host.mem = memWrite s.host.mem (qpBase s .hqQpCqBaseLo .hqQpCqBaseHi d + 32 * (s.qp d).cqTail) (completionBytes s c c.status (s.qp d).phase) ∧
      (t.qp d).cqTail = ((s.qp d).cqTail + 1) % cqSize s d ∧ (t.qp d).completed = (s.qp d).completed + 1 ∧
      (t.qp d).running = (s.qp d).running - 1 ∧ (s.host.cmds.wf = true → t.host.cmds.get n = none)) ∧
  (∀ (s : State) (n : Nat) (c : Cmd), s.host.cmds.get n = some c → c.phase = .done → c.qp = none → s.host.cmds.wf = true →
    ∃ t, exec (.completionWrite n) s = .next t ∧ t.host.cmds.get n = none ∧ t.host.mem = s.host.mem) ∧
  (∀ (s : State) (d : Nat), bit (s.reg .hqQpInt d).toNat 11 = true → 0 < (s.qp d).pendingInt →
    exec (.aggTimeExpiry d) s = .next (sendMsix (s.updQp d fun q => { q with pendingInt := 0, pendErr := false }) ((qpPart s d).getD 0) (s.fld .hqQpInt d 0 11)) ∧
    ∀ f, f = s.host.fns.getD ((qpPart s d).getD 0) Fn.reset → f.quiet = false → s.img.vfOff.contains ((qpPart s d).getD 0) = false →
      ∃ t, exec (.aggTimeExpiry d) s = .next t ∧ (t.qp d).pendingInt = 0 ∧ (t.qp d).pendErr = false ∧
        (f.unmasked.contains (s.fld .hqQpInt d 0 11) = true → t.host.msix = ((qpPart s d).getD 0, s.fld .hqQpInt d 0 11) :: s.host.msix) ∧
        (f.unmasked.contains (s.fld .hqQpInt d 0 11) = false → t.host.msix = s.host.msix ∧
          (t.host.fns.getD ((qpPart s d).getD 0) Fn.reset).pba.contains (s.fld .hqQpInt d 0 11) = true)) ∧
  (∀ (s : State) (fn : Nat) (f : Fn), s.host.fns.getD fn Fn.reset = f → f.gap = true →
    exec (.eventGapExpiry fn) s = .next (if f.inGap then signalFn (s.mapHost fun h => { h with fns := h.fns.put fn { f with gap := false, inGap := false } }) fn
      else s.mapHost fun h => { h with fns := h.fns.put fn { f with gap := false, inGap := false } }) ∧
    (f.inGap = false → ∃ t, exec (.eventGapExpiry fn) s = .next t ∧ (t.host.fns.getD fn Fn.reset).gap = false ∧ t.host.msix = s.host.msix) ∧
    (f.inGap = true → bit (s.reg .hqFnEventVec fn).toNat 11 = true → f.quiet = false → s.img.vfOff.contains fn = false →
      f.unmasked.contains (bits (s.reg .hqFnEventVec fn).toNat 0 11) = true →
      ∃ t, exec (.eventGapExpiry fn) s = .next t ∧ t.host.msix = (fn, bits (s.reg .hqFnEventVec fn).toNat 0 11) :: s.host.msix ∧
        (t.host.fns.getD fn Fn.reset).gap = true ∧ (t.host.fns.getD fn Fn.reset).inGap = false)) ∧
  (∀ (s : State) (fn v : Nat) (f : Fn), s.host.fns.getD fn Fn.reset = f → fnDisabled s fn = false → v < 2048 → f.pba.contains v = false →
    exec (.msixVectorUnmask fn v) s = .next (s.mapHost fun h => { h with fns := h.fns.put fn { f with unmasked := addSet f.unmasked v, pba := delSet f.pba v } }))

/-- Functions, failed host accesses and the link (R61, R346, R501, R534, R535). -/
def Obligations.FunctionRowsComplete : Prop :=
  (∀ (s : State) (fn : Nat), 0 < fn → fn < 64 → exec (.functionLevelReset fn) s = .next (functionReset s fn) ∧
    exec (.d3hotEntry fn) s = .next (functionReset s fn)) ∧
  (∀ (s : State) (fn : Nat) (c : Instr), fn < 64 → s.host.qps.wf = true → (c = .functionLevelReset fn ∨ c = .d3hotEntry fn) →
    ∃ t, exec c s = .next t ∧ (∀ d, d ∈ fnQps s fn → (t.qp d).st = .disabled ∨ (t.qp d).st = .stopping) ∧
      t.host.mem = s.host.mem ∧
      (fn = 0 → t.img.vfOff = (List.range 64).drop 1)) ∧
  (∀ s : State, exec .hostPortReset s = .next ((List.range 64).foldl (fun t i => flr t (63 - i)) s) ∧
    ∃ t, exec .hostPortReset s = .next t ∧ t.img.vfOff = (List.range 64).drop 1 ∧ t.host.mem = s.host.mem ∧
      ∀ d p, qpPart s d = some p → p < 64 → s.host.qps.wf = true → s.host.qps.has d = true → (t.qp d).st = .disabled ∨ (t.qp d).st = .stopping) ∧
  (∀ (s : State) (v : Nat), 0 < v → v < 64 → ∃ t, exec (.vfDisable v) s = .next t ∧ t.img.vfOff.contains v = true ∧ t.img.parts = s.img.parts ∧ t.host = s.host) ∧
  (∀ (s : State) (v : Nat), ∃ t, exec (.vfEnable v) s = .next t ∧ t.img.vfOff.contains v = false ∧ t.img.parts = s.img.parts) ∧
  (∀ (s : State) (d : Nat), (s.qp d).st = .active →
    exec (.t4ReadTimeout (.entries d)) s = .next (failQp (t4Count s ((qpPart s d).getD 0)) d 5) ∧
    exec (.t4AccessError (.entries d)) s = .next (failQp (t4Count s ((qpPart s d).getD 0)) d 5)) ∧
  (∀ (s : State) (n : Nat) (c : Cmd), s.host.cmds.get n = some c → c.phase ≠ .done →
    exec (.t4ReadTimeout (.input n)) s = .next (endWith (faultRecord (t4Count s c.part) 0x09 0 0 0 [c.part] [n]) n stFaultedNone) ∧
    exec (.t4AccessError (.input n)) s = .next (endWith (faultRecord (t4Count s c.part) 0x09 0 0 0 [c.part] [n]) n stFaultedNone)) ∧
  (∀ (s : State) (n : Nat) (c : Cmd), s.host.cmds.get n = some c →
    exec (.t4AccessError (.result n)) s = .next ((faultRecord (t4Count s c.part) 0x09 0 0 0 [c.part] [n]).updCmd n fun c => { c with t4Failed := true })) ∧
  (∀ (s : State) (n d : Nat) (c : Cmd), s.host.cmds.get n = some c → c.qp = some d →
    exec (.t4AccessError (.completion n)) s = .next (failQp (t4Count s c.part) d 6)) ∧
  (∀ (s : State) (rate width : Nat) (flit cxl : Bool), 0 < rate → ∃ t, exec (.linkChange rate width flit cxl) s = .next t ∧
    t.host.link = BitVec.ofNat 32 (rate % 8 + width % 32 * 8 + b2n flit * 256 + b2n cxl * 512))

/-- SEARCH and SWEEP (R182, R183, R541, R543, R544). -/
def Obligations.SearchCommandsComplete : Prop :=
  (∀ (s : State) (n st : Nat) (c : Cmd), admittedAs s n c 0x01 → searchCheck s c false = .error (.ends st) →
    ∃ t, exec (.search n) s = .next t ∧ endedWith t n st) ∧
  (∀ (s : State) (n : Nat) (c : Cmd), admittedAs s n c 0x01 → searchCheck s c false = .error .planRejected →
    ∃ t, exec (.search n) s = .next t ∧ endedWith t n stInvalid ∧ (t.sqc .plnPevent c.part).ev.getLsbD 1 = true) ∧
  (∀ (s : State) (n : Nat) (c : Cmd), admittedAs s n c 0x01 → searchCheck s c false = .error .profileDiffers →
    ∃ t, exec (.search n) s = .next t ∧ endedWith t n stInvalid ∧ (t.sqc .brkEvent 0).ev.getLsbD 4 = true) ∧
  (∀ (s : State) (n st : Nat) (c : Cmd), admittedAs s n c 0x03 → searchCheck s c true = .error (.ends st) →
    ∃ t, exec (.sweep n) s = .next t ∧ endedWith t n st) ∧
  (∀ (s : State) (n vf : Nat) (c : Cmd) (sh : Shard) (sw : Bool), admittedAs s n c 0x01 → searchCheck s c false = .ok () →
    plannerReady s c.part = true → vectorUnit s c.part = true → queryOf s n = none →
    zeroRate s c.part tT4 = false → shardOf s c.part (eIndex c.entry) = some sh →
    (holders s c).contains (nodeId s) = true → (cmdParams s c).tokens = false → vf = bits (eArg0 c.entry) 0 2 →
    sw = planSweep sh.desc.schema (histOf sh c.local_) (cmdParams s c) (bits c.pcfg.toNat 0 5) →
    exec (.search n) s = .next (searchVector
      ((addQuery ((markRunning s n).updCmd n fun c => { c with cflags := if (histOf sh c.local_).reused then 2 ^ 8 else 0 })
        (newQuery .search n sh c.local_ c.mapgen (cmdParams s c) sw)).bump (if sw then .plnSweeps else .plnWalks) c.part 1)
      n c (inputVector vf (eDataLen c.entry / vfmtBytes vf) (inputData s c.entry)))) ∧
  (∀ (s : State) (n vf : Nat) (c : Cmd) (sh : Shard), admittedAs s n c 0x03 → searchCheck s c true = .ok () →
    vectorUnit s c.part = true → queryOf s n = none →
    zeroRate s c.part tT4 = false → shardOf s c.part (eIndex c.entry) = some sh →
    (holders s c).contains (nodeId s) = true → (cmdParams s c).tokens = false → vf = bits (eArg0 c.entry) 0 2 →
    exec (.sweep n) s = .next (searchVector
      ((addQuery ((markRunning s n).updCmd n fun c => { c with cflags := 0 })
        (newQuery .search n sh c.local_ c.mapgen (cmdParams s c) true)).bump .plnSweeps c.part 1)
      n c (inputVector vf (eDataLen c.entry / vfmtBytes vf) (inputData s c.entry))))

/-- Walks, sweeps, the stream list, rescoring and deadlines (R162, R168, R174, R175, R186 to R190, R211, R231). -/
def Obligations.WalkRowsComplete : Prop :=
  (∀ (s : State) (n tile : Nat) (q : Query) (sh : Shard), s.host.queries.get n = some q → shardOf s q.part q.index = some sh →
    q.tile = none → q.kind ≠ .insert → q.planned = true → q.sketch ≠ [] → q.late = false → s.blockOut 4 = false → s.blockOut 6 = false →
    tileGives (queryCfg s q) s tile q.part q.kind = true → listUnit s tile ≠ none →
    (pagesUsed s q.part + queryPages q ≤ pagesTotal s q.part → zeroRate s q.part tT1 = false → zeroRate s q.part tTF = false →
      ∃ t r, exec (.walkStart n tile) s = .next t ∧ t.host.queries.get n = some r ∧ r.tile = some tile ∧ r.ctx = freeCtx s tile ∧
        r.unit = (listUnit s tile).getD 0 ∧ (q.sweep = false → r.frontier = sh.desc.entry)) ∧
    (pagesTotal s q.part < pagesUsed s q.part + queryPages q → exec (.walkStart n tile) s = .next (s.event .mslEvent 0 0))) ∧
  (∀ (s : State) (n : Nat) (q r : Query) (sh : Shard), s.host.queries.get n = some q → shardOf s q.part q.index = some sh → q.kind = .search →
    roundReady q = true → zeroRate s q.part tT1 = false → zeroRate s q.part tT2 = false → zeroRate s q.part tT3 = false →
    zeroRate s q.part tTF = false → r = roundState s sh q → (r.queue.filter fun e => !e.expanded) = [] →
    exec (.walkRoundReturn n) s = .next (advanceQuery (((roundCharge s sh q).bump .wlkTRounds (q.tile.getD 0) 1).updQuery n
      fun _ => { r with walkDone := true }) n) ∧
    (q.freshDone = false → ∃ t, exec (.walkRoundReturn n) s = .next t ∧ t.host.queries.get n = some { r with walkDone := true })) ∧
  (∀ (s u : State) (p x n : Nat) (q : Query) (sh : Shard), s.blockOut 5 = false → shardOf s p x = some sh → s.host.freshWait = [n] →
    s.host.queries.get n = some q → q.part = p → q.index = x → q.tile ≠ none → winUp s sh.desc.freshWin = true →
    u = (s.mapHost fun h => { h with freshWait := [] }).updStack (sh.desc.freshWin / 80) (fun k => { k with batches := k.batches ++
      [{ part := p, index := x, fresh := true, queries := [n], todo := sweepSteps [(sh.desc.freshWin, 0)], done := [], range := sweepRange sh [q] }] }) →
    exec (.sweepBatchStart p x true) s = .next (sweepsOver (if (u.stack (sh.desc.freshWin / 80)).step.isNone then issueStep u (sh.desc.freshWin / 80) else u)) ∧
    ((s.stack (sh.desc.freshWin / 80)).step = none → (s.stack (sh.desc.freshWin / 80)).batches = [] →
      ∃ t, exec (.sweepBatchStart p x true) s = .next t ∧ (t.stack (sh.desc.freshWin / 80)).step.isSome = true)) ∧
  (∀ (s u v w : State) (st : Nat) (banks : List Nat), st < 6 → (s.stack st).step ≠ none →
    u = (s.stack st).gapOpen.foldl (fun s b => gapEnd s st (b % 1024)) s →
    v = (u.stack st).thresh.foldl (fun s t => threshApply s st t.1 t.2.1 t.2.2) u →
    banks = (v.lichen.queue.filter fun e => e.1 / 1024 == st && !e.2.isEmpty).map (·.1) →
    w = runLater st ((banks.foldl serveGap (v.updStack st fun k => { k with
      step := none, ran := [], own := false, thresh := [], gapOpen := banks, batches := batchesAfter k })).stack st).later.length
      (banks.foldl serveGap (v.updStack st fun k => { k with
        step := none, ran := [], own := false, thresh := [], gapOpen := banks, batches := batchesAfter k })) →
    exec (.sweepStepEnd st) s = .next (sweepsOver (if (w.stack st).step.isSome then w else issueStep w st))) ∧
  (∀ (s : State) (st : Nat), st < 6 → (s.stack st).step ≠ none → (s.stack st).gapOpen = [] → (s.stack st).thresh = [] →
    (s.stack st).later = [] → (s.stack st).batches = [] → s.lichen.queue = [] →
    ∃ t, exec (.sweepStepEnd st) s = .next t ∧ (t.stack st).step = none) ∧
  (∀ (s u : State) (bank n : Nat) (r : SweepRec) (q : Query) (sh : Shard), s.lichen.fifo.getD bank [] = [r] → ctxQuery s r.ctx = some n →
    s.host.queries.get n = some q → shardOf s q.part q.index = some sh → zeroRate s q.part tT2 = false → zeroRate s q.part tT3 = false →
    u = s.mapLichen (fun l => { l with fifo := l.fifo.del bank }) →
    exec (.sweepResultRecord bank) s = .next (sweepsOver (sweepTake u sh n q r)) ∧
    (sweepTake u sh n q r).host.queries.get n = some { q with
      suspect := q.suspect || r.suspect
      partial_ := q.partial_ || (sweepPasses sh q r && (sweepEntry u sh q r).isNone)
      arrivals := if q.late || !sweepPasses sh q r then q.arrivals else q.arrivals ++ (sweepEntry u sh q r).toList }) ∧
  (∀ (s : State) (n : Nat) (q : Query) (e : LEnt) (l : List LEnt), s.host.queries.get n = some q → q.arrivals = e :: l →
    zeroRate s q.part tT1 = false → (q.stream.add e).1.bound = q.stream.bound →
    exec (.listEntryArrive n) s = .next (advanceQuery (countList (chargeUnits (s.updQuery n fun _ => { q with arrivals := l, stream := (q.stream.add e).1 })
      q.part tT1 1) q (b2n (q.stream.add e).2.1) (q.stream.add e).2.2.1 (q.stream.add e).2.2.2) n) ∧
    (q.walkDone = false → ∃ t, exec (.listEntryArrive n) s = .next t ∧
      t.host.queries.get n = some { q with arrivals := l, stream := (q.stream.add e).1 })) ∧
  (∀ (s : State) (n : Nat) (q : Query) (e f : LEnt) (l : List LEnt) (sh : Shard), s.host.queries.get n = some q → shardOf s q.part q.index = some sh →
    q.reads = some (e :: f :: l) → zeroRate s q.part tT2 = false → zeroRate s q.part tT5 = false →
    ∃ t, exec (.rescoreReadDone n) s = .next t ∧
      (∀ x, exactOf sh e.slot = some x → t = rescored (chargeUnits (charge (s.updQuery n fun y => { y with reads := some (f :: l), done := y.done + 1 })
        q.part tT5 x.length) q.part tT2 1) sh n q e x ∧
        (t.host.queries.get n).map (·.node) = some (q.node.add { e with key := exactKey sh.desc.numrec (exactDist sh.desc.numrec (exactRead sh.desc.numrec x) q.q) }).1) ∧
      (exactOf sh e.slot = none → t.host.queries.get n = some { q with reads := some (f :: l), done := q.done + 1, partial_ := true })) ∧
  (∀ (s : State) (n : Nat) (q : Query) (e : LEnt) (l : List LEnt), s.host.queries.get n = some q → q.kind ≠ .insert → q.late = false → q.deadline ≠ 0 →
    q.tile ≠ none → q.reads = none → (finalize q.stream).take q.topk = e :: l →
    ∃ t, exec (.deadlineExpiry n) s = .next t ∧ t.host.queries.get n = some { q with
      late := true, walkDone := true, freshDone := true, arrivals := [], remote := [], answers := [], frontier := [], reads := some (e :: l) }) ∧
  (∀ (s : State) (n : Nat) (q : Query) (e : LEnt) (l : List LEnt), s.host.queries.get n = some q → q.kind ≠ .insert → q.late = false → q.deadline ≠ 0 →
    q.tile ≠ none → q.reads = some (e :: l) → q.done < q.topk →
    ∃ t, exec (.deadlineExpiry n) s = .next t ∧ (t.host.queries.get n).bind (·.reads) = some ((e :: l).take (q.topk - q.done))) ∧
  (∀ (s : State) (n : Nat) (q : Query), s.host.queries.get n = some q → q.late = true →
    exec (.deadlineGraceExpiry n) s = .next (endQuery (s.updQuery n fun x => { x with reads := some [] }) n)) ∧
  (∀ (s : State) (n : Nat) (q : Query), s.host.queries.get n = some q → q.late = true → q.kind = .served → s.host.queries.wf = true →
    ∃ t, exec (.deadlineGraceExpiry n) s = .next t ∧ t.host.queries.get n = none)

/-- The bank commands (R202 to R204, R209, R214, R215, R221). -/
def Obligations.BankCommandsComplete : Prop :=
  (∀ (s : State) (st tag : Nat) (h : W64) (p : List Byte), st < 6 → s.fencedUnit 0x08 st = false → bankCmdOk 1 h p = true →
    1024 * st + hBank h < 6144 → (s.stack ((1024 * st + hBank h) / 1024)).step = none → (1024 * st + hBank h) / 1024 = st →
    cfgWinBare s.img.cfg (80 * st + hWin h) = true → cfgWinOwner s.img.cfg (80 * st + hWin h) = hPart h →
    ∃ t, exec (.gather st h p tag) s = .next t ∧ t.lichen.answers.get tag = some (natLe 4 (hArg h / 8) ++
      ((List.range (hArg h % 8 + 1)).map fun i => field p (132 + 2 * i) 2).flatMap fun r => natLe 4 (ofSigned 32 (lichenA
        (((stripeAddr st (hWin h) (stripeK (hWin h) (hBank h) (r % 8)) (r / 8 / 64 * 4096 + r / 8 % 64 * 64)).map fun a => t2Read s a 64).getD
          (List.replicate 64 0)) p)))) ∧
  (∀ (s : State) (st : Nat) (h : W64) (p : List Byte), st < 6 → s.fencedUnit 0x08 st = false → bankCmdOk 2 h p = true →
    exec (.slotLoad st h p) s = .next (s.mapLichen fun l => { l with qslots := l.qslots.put (32 * st + hArg h) (patch p 0x81 [1]) })) ∧
  (∀ (s : State) (st : Nat) (h : W64) (p : List Byte), st < 6 → s.fencedUnit 0x08 st = false → bankCmdOk 3 h p = true →
    exec (.slotThresh st h p) s = .next (if (s.stack st).step.isSome
      then s.updStack st fun k => { k with thresh := k.thresh ++ [(hArg h, none, BitVec.ofNat 32 (leNat p))] }
      else setThresh s st (hArg h) (BitVec.ofNat 32 (leNat p)))) ∧
  (∀ (s : State) (st : Nat) (h : W64) (p : List Byte), st < 6 → s.fencedUnit 0x08 st = false → bankCmdOk 4 h p = true →
    exec (.slotFree st h p) s = .next (s.mapLichen fun l => { l with qslots := l.qslots.upd (32 * st + hArg h) fun r => patch r 0x81 [0] })) ∧
  (∀ (s : State) (st : Nat) (h : W64) (p : List Byte), st < 6 → s.fencedUnit 0x08 st = false → bankCmdOk 5 h p = true →
    ((s.stack st).step = none → cfgWinBare s.img.cfg (80 * st + hWin h) = true →
      ∃ t, exec (.sweepStep st h p []) s = .next t ∧ t.ro .lchSSteps st = s.ro .lchSSteps st + 1 ∧
        ((t.stack st).step = some ⟨h, p⟩ ∨ t.fencedUnit 0x08 st = true)) ∧
    ((s.stack st).step = none → cfgWinBare s.img.cfg (80 * st + hWin h) = false →
      exec (.sweepStep st h p []) s = .next (s.event .lchEvent 0 5)) ∧
    ((s.stack st).step ≠ none → exec (.sweepStep st h p []) s =
      .next (s.updStack st fun k => { k with later := k.later ++ [⟨h, p⟩] }))) ∧
  (∀ (s : State) (st : Nat) (h : W64) (p : List Byte), st < 6 → s.fencedUnit 0x08 st = false → (s.stack st).step ≠ none →
    (bankCmdOk 6 h p = true → exec (.fill st h p) s = .next (s.updStack st fun k => { k with later := k.later ++ [⟨h, p⟩] })) ∧
    (bankCmdOk 7 h p = true → exec (.scrub st h p []) s = .next (s.updStack st fun k => { k with later := k.later ++ [⟨h, p⟩] })) ∧
    (bankCmdOk 8 h p = true → exec (.repair st h p) s = .next (s.updStack st fun k => { k with later := k.later ++ [⟨h, p⟩] }))) ∧
  (∀ (s : State) (st a : Nat) (h : W64) (p : List Byte), st < 6 → s.fencedUnit 0x08 st = false → bankCmdOk 6 h p = true → (s.stack st).step = none →
    hBcast h = false → hArg h = 0 → rowAddr s st (hBank h) (field p 0 4) = some a →
    exec (.fill st h p) s = .next (t2Write s a (List.replicate 16 (slice p 4 32)).flatten)) ∧
  (∀ (s : State) (st : Nat) (h : W64) (p : List Byte), st < 6 → s.fencedUnit 0x08 st = false → bankCmdOk 7 h p = true → (s.stack st).step = none →
    exec (.scrub st h p []) s = .next ((List.range 1024).foldl (fun t b => match rowAddr t st b (field p 0 4 / 8 * 8) with
      | some a => if cfgWinBare t.img.cfg (a / 2 ^ 30) then rgCheck t (a / 4096) 0 else t
      | none => t) s)) ∧
  (∀ (s : State) (st a : Nat) (h : W64) (p : List Byte), st < 6 → s.fencedUnit 0x08 st = false → bankCmdOk 8 h p = true → (s.stack st).step = none →
    rowAddr s st (hBank h) (field p 0 4 / 8 * 8) = some a →
    exec (.repair st h p) s = .next (if cfgWinBare s.img.cfg (a / 2 ^ 30) then s.mapLichen fun l => { l with
      t2 := tierWrite l.t2 (4096 * (a / 4096)) (slice p 4 4096), shadow := l.shadow.store zeroRgCrc (a / 4096) (crc32c (slice p 4 4096)) }
      else t2Write s a (slice p 4 4096))) ∧
  (∀ (s : State) (st tag : Nat) (h : W64) (p : List Byte), st < 6 → s.fencedUnit 0x08 st = false →
    (bankCmdOk 1 h p = false → exec (.gather st h p tag) s = .next (s.event .lchEvent 0 6)) ∧
    (bankCmdOk 2 h p = false → exec (.slotLoad st h p) s = .next (s.event .lchEvent 0 6)) ∧
    (bankCmdOk 3 h p = false → exec (.slotThresh st h p) s = .next (s.event .lchEvent 0 6)) ∧
    (bankCmdOk 4 h p = false → exec (.slotFree st h p) s = .next (s.event .lchEvent 0 6)) ∧
    (bankCmdOk 6 h p = false → exec (.fill st h p) s = .next (s.event .lchEvent 0 6)) ∧
    (bankCmdOk 8 h p = false → exec (.repair st h p) s = .next (s.event .lchEvent 0 6)))

/-- Banks, the scrubber and repair (R211, R221, R223 to R225). -/
def Obligations.BankRowsComplete : Prop :=
  (∀ (s : State) (bank tag addr len : Nat) (data : List Byte), bank < 6144 → s.fencedUnit 0x08 (bank / 1024) = false →
    ((s.stack (bank / 1024)).step = none → 0 < len → winUp s (addr / 2 ^ 30) = true →
      exec (.bankRequest bank tag addr len data) s = .next (s.mapLichen fun l => { l with answers := l.answers.put tag (t2Read s addr len) })) ∧
    ((s.stack (bank / 1024)).step = none → exec (.bankRequest bank tag addr 0 data) s = .next (t2Write s addr data)) ∧
    ((s.stack (bank / 1024)).step ≠ none → (s.stack (bank / 1024)).gapOpen.contains bank = false →
      exec (.bankRequest bank tag addr len data) s = .next (s.mapLichen fun l => { l with queue := l.queue.put bank ((l.queue.getD bank []) ++
        [{ tag := tag, gather := none, addr := addr, len := len, wdata := data }]) }))) ∧
  (∀ (s : State) (st bank : Nat), st < 6 → bank < 1024 →
    ((s.stack st).step = none → (s.stack st).gapOpen.contains (1024 * st + bank) = true →
      exec (.gapMaxExpiry st bank) s = .next (s.updStack st fun k => { k with gapOpen := delSet k.gapOpen (1024 * st + bank) })) ∧
    ∃ t, exec (.gapMaxExpiry st bank) s = .next t ∧ (t.stack st).gapOpen.contains (1024 * st + bank) = false) ∧
  (∀ (s u : State) (st p : Nat) (late : Bool), st < 6 → s.fencedUnit 0x08 st = false → u = beginRebuilds (s.eventIf late .lchEvent 0 3) st →
    p = (u.stack st).scrubPos → p / 264 < 80 → cfgWinBare u.img.cfg (80 * st + p / 264) = true → (p + 1) % 264 ≠ 0 →
    exec (.scrubTick st late) s = .next ((scrubCmd u st (scrubRow p)).updStack st fun k => { k with scrubPos := p + 1 }) ∧
    ∃ t, exec (.scrubTick st late) s = .next t ∧ (t.stack st).scrubPos = p + 1) ∧
  (∀ (s : State) (st win rg : Nat) (d : Damage) (sh : Shard), st < 6 → win / 80 = st →
    ((s.stack st).damage.find? fun d => d.win == win && d.rg == rg && d.st != .failed) = some d → winShard s win = some sh →
    ∃ t, exec (.rowGroupRebuild st win rg true) s = .next t ∧
      t.lichen.t2 = tierWrite s.lichen.t2 (4096 * (2 ^ 18 * win + rg)) (rebuiltRg s sh win rg) ∧
      (t.stack st).damage = (s.stack st).damage.filter (fun x => !(x.win == win && x.rg == rg)) ∧
      (t.sqc .lchEvent 0).ev.getLsbD 1 = true) ∧
  (∀ (s : State) (st win rg : Nat) (d : Damage), st < 6 → win / 80 = st →
    ((s.stack st).damage.find? fun d => d.win == win && d.rg == rg && d.st != .failed) = some d → winShard s win = none →
    ∃ t, exec (.rowGroupRebuild st win rg true) s = .next t ∧
      t.lichen.t2 = tierWrite s.lichen.t2 (4096 * (2 ^ 18 * win + rg)) (List.replicate 4096 0) ∧
      (t.stack st).damage = (s.stack st).damage.filter (fun x => !(x.win == win && x.rg == rg))) ∧
  (∀ (s : State) (st win rg : Nat) (d : Damage), st < 6 → win / 80 = st →
    ((s.stack st).damage.find? fun d => d.win == win && d.rg == rg && d.st != .failed) = some d →
    ∃ t, exec (.rowGroupRebuild st win rg false) s = .next t ∧ t.lichen.t2 = s.lichen.t2 ∧ t.free = s.free + 1 ∧
      (t.stack st).damage = (s.stack st).damage.filter (fun x => !(x.win == win && x.rg == rg)) ++ [{ d with st := .failed }] ∧
      (t.sqc .lchEvent 0).ev.getLsbD 2 = true) ∧
  (∀ (s u : State) (win rg x : Nat) (sh : Shard) (r : Nat × Nat × Nat), (s.lichen.reports.find? fun r => r.1 == 2 ^ 18 * win + rg) = some r →
    u = (s.mapLichen fun l => { l with reports := dropFirst (fun x => x == r) l.reports }) → x = 2 ^ 18 * win + rg →
    (∃ t, exec (.disagreeCrcCheck win rg) s = .next t ∧ t.lichen.reports = dropFirst (fun x => x == r) s.lichen.reports) ∧
    (rgDirty u x = true → exec (.disagreeCrcCheck win rg) s = .next u) ∧
    (rgDirty u x = false →
    (crc32c (rgBytes u x) ≠ shadowCrc u x → exec (.disagreeCrcCheck win rg) s = .next (rgCheck u x 2)) ∧
    (crc32c (rgBytes u x) = shadowCrc u x → s.shards.get r.2.1 = some sh → ringSeq sh r.2.2 = none →
      exec (.disagreeCrcCheck win rg) s = .next (if slotCode u sh r.2.2 = some (rebuiltCode sh r.2.2) then rgCheck u x 2 else rgDamage u x 2))))

/-- Update batches and journal pages (R261, R262, R268, R384, R551 to R554). -/
def Obligations.UpdateCommandsComplete : Prop :=
  (∀ (s : State) (n op st : Nat) (i : Instr) (c : Cmd), (op, i) ∈ [(0x10, .insert n), (0x11, .upsert n), (0x12, .delete n), (0x13, .attrSet n)] →
    admittedAs s n c op → earlierUnplaced s n c = false → batchCheck s c = .error st → ∃ t, exec i s = .next t ∧ endedWith t n st) ∧
  (∀ (s : State) (n op k : Nat) (i : Instr) (c : Cmd), (op, i) ∈ [(0x10, .insert n), (0x11, .upsert n), (0x12, .delete n), (0x13, .attrSet n)] →
    admittedAs s n c op → earlierUnplaced s n c = false → batchCheck s c = .ok k →
    exec i s = .next (checkFences (endBatch (placeAll (fun s c i => placeEntry s n c i) k (s.updCmd n fun c => { c with
      phase := .running, total := k, gids := (List.range k).map fun i => field (inputData s c.entry) (i * (eDataLen c.entry / k)) 8 }) n) n))) ∧
  (∀ (s : State) (n b : Nat) (c : Cmd), s.host.cmds.get n = some c → c.phase ≠ .done → c.fullWait = some b →
    exec (.fullWaitExpiry n) s = .next (checkFences (refuseRest (s.event .epcPevent c.part b) n stQuota))) ∧
  (∀ (s : State) (n b : Nat) (c : Cmd), s.host.cmds.get n = some c → c.phase = .running → c.fullWait = some b → s.epoch.fences = [] →
    c.outs.length < c.total → (c.outs.any EntryOut.open_) = false →
    ∃ t, exec (.fullWaitExpiry n) s = .next t ∧ endedWith t n (batchStatus (c.outs ++ [refusedAt c c.outs.length (c.gids.getD c.outs.length 0) stQuota] ++
      (List.range (c.total - (c.outs.length + 1))).map fun i => { refused (c.gids.getD (c.outs.length + 1 + i) 0) stQuota with flags := 8 }))) ∧
  (∀ (s : State) (p : Nat) (g : JPage) (l : List JPage), (journalOf s p).pages = l ++ [g] → g.closed = false → g.recs ≠ [] →
    closedRunning (journalOf s p) < 8 → zeroRate s p tT5 = false →
    exec (.journalPageClose p) s = .next (charge (setJournal s p { journalOf s p with pages := l ++ [{ g with closed := true }] }) p tT5 (2 * flashPage s))) ∧
  (∀ (s : State) (p : Nat) (g : JPage), (journalOf s p).pages = [g] → g.closed = true → g.copy0 = false → s.epoch.prepared = false →
    (g.copy1 = true → exec (.journalProgramDone p g.jseq 0) s = .next (checkFences (g.recs.foldl (fun t r => acceptRec t p r)
      ((setJournal s p { journalOf s p with
        pages := [], durable := (journalOf s p).durable ++ [{ g with copy0 := true, image0 := pageImage s p 0 g }] }).mapEpoch fun e => { e with
          largest := g.recs.foldl (fun m r => if r.typ = 5 then max m r.epoch else m) e.largest })))) ∧
    (g.copy1 = false → exec (.journalProgramDone p g.jseq 0) s = .next (checkFences (setJournal s p { journalOf s p with
      pages := [{ g with copy0 := true, image0 := pageImage s p 0 g }] }))))

/-- EPOCH_FENCE, EPOCH_PIN, EPOCH_UNPIN and the end of pins (R251, R252, R263, R561, R562). -/
def Obligations.FencesAndPinsComplete : Prop :=
  (∀ (s u : State) (n : Nat) (c : Cmd), admittedAs s n c 0x30 →
    u = ((markRunning s n).mapEpoch fun e => { e with fences := addSet e.fences n }) →
    (earlierOpen u n { c with phase := .running } = true → exec (.epochFence n) s = .next u) ∧
    (earlierOpen u n { c with phase := .running } = false →
      (((c.qp.map (u.host.qps.getD · Qp.reset)).getD Qp.reset).vis.all fun v => decide (v.2 ≤ s.epoch.cur)) = true →
      bit (eArg0 c.entry) 0 = false → ∃ t, exec (.epochFence n) s = .next t ∧ endedWith t n stOk)) ∧
  (∀ (s : State) (n : Nat) (c : Cmd), admittedAs s n c 0x31 → eIndex c.entry = 0 →
    (retained s c.part c.epoch = false → ∃ t, exec (.epochPin n) s = .next t ∧ endedWith t n stEpochExpired) ∧
    (retained s c.part c.epoch = true → 65535 ≤ pinRefs s c.part c.epoch → ∃ t, exec (.epochPin n) s = .next t ∧ endedWith t n stQuota) ∧
    (retained s c.part c.epoch = true → pinRefs s c.part c.epoch = 0 → 16 - cfgRetain s.img.cfg c.part ≤ (pinned s c.part).length →
      ∃ t, exec (.epochPin n) s = .next t ∧ endedWith t n stQuota) ∧
    (retained s c.part c.epoch = true → pinRefs s c.part c.epoch < 65535 →
      (pinRefs s c.part c.epoch = 0 → (pinned s c.part).length < 16 - cfgRetain s.img.cfg c.part) →
      ∃ t, exec (.epochPin n) s = .next t ∧ endedWith t n stOk ∧ pinRefs t c.part c.epoch = pinRefs s c.part c.epoch + 1 ∧
        (t.host.cmds.get n).map (·.progress) = some (pinProgress t c.part c.epoch))) ∧
  (∀ (s : State) (n : Nat) (c : Cmd), admittedAs s n c 0x32 → eIndex c.entry = 0 →
    (pinRefs s c.part c.epoch = 0 → ∃ t, exec (.epochUnpin n) s = .next t ∧ endedWith t n stInvalid) ∧
    (0 < pinRefs s c.part c.epoch → ∃ t, exec (.epochUnpin n) s = .next t ∧ endedWith t n stOk) ∧
    (1 < pinRefs s c.part c.epoch →
      ∃ t, exec (.epochUnpin n) s = .next t ∧ endedWith t n stOk ∧ pinRefs t c.part c.epoch = pinRefs s c.part c.epoch - 1 ∧
        (t.host.cmds.get n).map (·.progress) = some (pinProgress t c.part c.epoch))) ∧
  (∀ (s : State) (n : Nat) (c : Cmd), eIndex c.entry ≠ 0 →
    (admittedAs s n c 0x31 → ∃ t, exec (.epochPin n) s = .next t ∧ endedWith t n stInvalid ∧ t.epoch = s.epoch) ∧
    (admittedAs s n c 0x32 → ∃ t, exec (.epochUnpin n) s = .next t ∧ endedWith t n stInvalid ∧ t.epoch = s.epoch)) ∧
  (∀ (s : State) (p e : Nat), pinRefs s p e ≠ 0 →
    exec (.pinExpiry p e) s = .next ((s.mapEpoch fun x => { x with pins := x.pins.del (2 ^ 48 * p + e) }).event .epcPevent p 3))

/-- Index administration (R563 to R570). -/
def Obligations.IndexAdminCompletes : Prop :=
  (∀ (s : State) (n : Nat) (c : Cmd) (b r : List Byte) (d : ShardDesc), admittedAs s n c 0x80 → [tT4, tT3].any (zeroRate s c.part) = false →
    b = paramBlock s c.entry → r = inputData s c.entry → d = createDesc b r → shardOf s c.part (eIndex c.entry) = none → 192 ≤ b.length →
    numrecOk r = true → createFieldsOk b d = true → (descWins d).all (winIs s c.part) = true → ((descWins d).map (·.1)).Nodup →
    ((descWins d).map (·.1)).any (heldWins s c.part).contains = false →
    (createRoom s c.part d = true → ∃ t, exec (.indexCreate n) s = .next t ∧ endedWith t n stOk ∧
      shardOf t c.part (eIndex c.entry) = some (newShard c.part (eIndex c.entry) d ((t3Home s c.part d).getD []))) ∧
    (createRoom s c.part d = false → ∃ t, exec (.indexCreate n) s = .next t ∧ endedWith t n stQuota ∧ t.shards = s.shards)) ∧
  (∀ (s : State) (n : Nat) (c : Cmd), admittedAs s n c 0x81 → zeroRate s c.part tT3 = false → 1024 ≤ eResultLen c.entry →
    ∃ t, exec (.indexDescribe n) s = .next t ∧ endedWith t n stOk ∧ t.shards = s.shards ∧
      (t.host.cmds.get n).map (·.result) = some (c.result ++ [(0, match shardOf s c.part (eIndex c.entry) with
        | none => natLe 1024 0
        | some sh => slice (descriptorBytes sh) 0 1024)])) ∧
  (∀ (s : State) (n : Nat) (c : Cmd) (sh : Shard), admittedAs s n c 0x82 → shardOf s c.part (eIndex c.entry) = some sh → sh.retire = none →
    compOf s c.part sh.index = none →
    exec (.indexRetire n) s = .next (markRunning (s.updShard c.part sh.index fun h => { h with retire := some (n, 0) }) n)) ∧
  (∀ (s : State) (n : Nat) (c : Cmd), admittedAs s n c 0x82 → shardOf s c.part (eIndex c.entry) = none →
    ∃ t, exec (.indexRetire n) s = .next t ∧ endedWith t n stInvalid) ∧
  (∀ (s : State) (n src dst : Nat) (c : Cmd) (sh : Shard) (w : Nat × Bool × Nat), admittedAs s n c 0x83 → [tT2, tT4].any (zeroRate s c.part) = false →
    shardOf s c.part (eIndex c.entry) = some sh → src = field (paramBlock s c.entry) 0 2 → dst = field (paramBlock s c.entry) 2 2 →
    ((descWins sh.desc).find? fun w => w.1 == src) = some w → (paramBlock s c.entry).length = 64 → zeroAt (paramBlock s c.entry) 4 60 = true →
    sh.phase ≠ .retiring → winIs s c.part (dst, w.2) = true → (heldWins s c.part).contains dst = false → sh.reloc = none →
    exec (.indexRelocate n) s = .next ((if winUp (markRunning s n) src then copyWin (markRunning s n) src dst else
      buildWin (markRunning s n) sh src dst).updShard c.part sh.index fun h => { h with reloc := some (n, src, dst) })) ∧
  (∀ (s t : State) (n vf w k : Nat) (c : Cmd) (sh : Shard) (l : List BulkItem), admittedAs s n c 0x84 →
    [tT4, tT2, tT3, tT5].any (zeroRate s c.part) = false → shardOf s c.part (eIndex c.entry) = some sh → sh.phase = .building → sh.loadQp = none →
    vf = bits (eArg0 c.entry) 0 2 → vf ≠ 3 →
    w = 64 * ceilDiv (16 + nrDim sh.desc.numrec * vfmtBytes vf + (if bit (eArg0 c.entry) 2 then 4 * sh.desc.degree else 0)) 64 →
    k = eDataLen c.entry / w → eDataLen c.entry % w = 0 → 0 < k → k ≤ 4096 → sh.highWater + k ≤ sh.desc.slotLimit →
    bulkItems sh vf w (bit (eArg0 c.entry) 2) sh.highWater (inputData s c.entry) k 0 = some l → (l.map (·.gid)).Nodup →
    ((l.map (·.gid)).any fun g => (idSlot s sh g).isSome) = false → bulkPuts c.part sh.index l s = some t →
    exec (.bulkLoad n) s = .next (finish (t.updShard c.part sh.index fun h => { h with
      loadQp := some (c.qp.getD 16384), hostAdj := bit (eArg0 c.entry) 2 }) n stOk (sh.highWater + k) 0)) ∧
  (∀ (s : State) (n k : Nat) (c : Cmd) (sh : Shard) (b : List Byte) (es : List Nat), admittedAs s n c 0x85 → [tT4, tT3].any (zeroRate s c.part) = false →
    shardOf s c.part (eIndex c.entry) = some sh → sh.phase = .building → b = paramBlock s c.entry → b.length = 128 → k = field b 0 1 → k ≤ 16 →
    zeroAt b 1 0x3F = true → es = ((List.range 16).map fun i => field b (0x40 + 4 * i) 4) → (es.drop k).any (· != nullSlot) = false →
    (es.take k).any (fun x => decide (x ≥ sh.highWater)) = false →
    ∀ bt, bt = (if sh.hostAdj ∧ sh.loadQp.isSome then sh else buildGraph s sh (if k = 0 then [0] else es.take k)) →
    exec (.seal n) s = .next (markRunning ((bt.adj.foldl (fun t e => hotWrite t sh e.1 e.2) s).updShard c.part sh.index fun h => { h with
      phase := .sealing, sealCmd := some n, adj := bt.adj, desc := { h.desc with entry := if k = 0 then [0] else es.take k } }) n)) ∧
  (∀ (s : State) (n : Nat) (c : Cmd) (sh : Shard) (h : Hist), admittedAs s n c 0x86 → [tT4, tT3].any (zeroRate s c.part) = false →
    shardOf s c.part (eIndex c.entry) = some sh → c.mode 4 = true → sh.phase ≠ .retiring → eDataLen c.entry = 9232 → hostHistogram sh c.epoch (inputData s c.entry) = some h →
    (s.epoch.cur < c.epoch →
      exec (.histLoad n) s = .next (endWith (s.updShard c.part sh.index fun x => { x with hostHist := x.hostHist.put c.epoch h }) n stOk)) ∧
    (c.epoch ≤ s.epoch.cur → ∃ t, exec (.histLoad n) s = .next t ∧ endedWith t n stEpochExpired))

/-- Insert walks, back-links, the settler, repair and LINK_SUPPLY (R151, R270 to R275, R571). -/
def Obligations.LinkingRowsComplete : Prop :=
  (∀ (s : State) (p x tile q slot : Nat) (sh : Shard) (l : LinkParts), shardOf s p x = some sh → serving sh = true → sh.lost = false →
    s.blockOut 4 = false → s.blockOut 6 = false → s.partOut 4 p = false → listUnit s tile ≠ none →
    (s.host.queries.find? fun e => e.2.kind == .insert && e.2.part == p && e.2.index == x && e.2.tile.isNone) = none →
    nextWalk s sh (headTail sh s.epoch.cur).1 = some (q, slot) → sh.links.get q = some l → hostMode s p 2 = false →
    (srDeleted (slotRec sh slot) = false → tileGives s.img.cfg s tile p .insert = true →
      (pagesUsed s p + queryPages (walkQuery s sh q slot tile) ≤ pagesTotal s p → zeroRate s p tT1 = false → zeroRate s p tTF = false →
        ∃ t r h, exec (.insertWalkStart p x tile) s = .next t ∧ t.host.queries.get s.host.nextQuery = some r ∧ r.kind = .insert ∧ r.slot = slot ∧
          r.tile = some tile ∧ r.frontier = sh.desc.entry ∧ shardOf t p x = some h ∧ h.links.get q = some { l with walked := true }) ∧
      (pagesTotal s p < pagesUsed s p + queryPages (walkQuery s sh q slot tile) →
        exec (.insertWalkStart p x tile) s = .next (s.event .mslEvent 0 0))) ∧
    (srDeleted (slotRec sh slot) = true → canWrite s sh slot = true →
      exec (.insertWalkStart p x tile) s = .next (((writeAdj s sh slot []).updShard p x fun h => { h with
        links := h.links.upd q fun l => { l with walked := true, recDone := true, linked := true } }).bump .epcPLinked p 1))) ∧
  (∀ (s : State) (p x c : Nat) (sh : Shard) (pend new : List Nat), shardOf s p x = some sh → sh.backPend.get c = some pend → canWrite s sh c = true → servedHere s sh c = true →
    zeroRate s p tT3 = false → zeroRate s p tT5 = false → new = backRecord sh c s.epoch.cur (pend.foldl addSet (sh.backReq.getD c [])) →
    (sortAsc id new == sortAsc id (adjFor sh c s.epoch.cur)) = false →
    exec (.backLink p x c) s = .next (pend.foldl (fun t y => match shardOf t p x with
      | none => t
      | some h => if h.backPend.any fun e => e.2.contains y then t else match ringSeq h y with
        | some q => linkPart t p x q fun l => { l with backDone := true }
        | none => t)
      ((writeAdj (charge s p tT5 ((new.length + 1) * exactBytes sh.desc.numrec * nrDim sh.desc.numrec)) sh c new).updShard p x fun h => { h with
        backPend := h.backPend.del c, backReq := h.backReq.put c (pend.foldl addSet (sh.backReq.getD c [])) }))) ∧
  (∀ (s : State) (p x m : Nat) (sh : Shard), shardOf s p x = some sh → serving sh = true → sh.lost = false → s.epoch.prepared = false →
    zeroRate s p tT3 = false → m = (settledEnd s sh).getD sh.settled - sh.settled →
    exec (.settlerSettle p x) s = .next (freeSlots (settleDels ((List.range m).foldl (fun t i => settleLink t p x (sh.settled + i))
      (charge s p tT3 (16 * m))) p x) p x) ∧
    ∃ t h, exec (.settlerSettle p x) s = .next t ∧ shardOf t p x = some h ∧ h.settled = sh.settled + m) ∧
  (∀ (s : State) (p x : Nat) (sh : Shard) (v : Version), shardOf s p x = some sh → serving sh = true → sh.lost = false → s.epoch.prepared = false →
    zeroRate s p tT3 = false → sh.versions = [v] → v.isAttr = false → v.pub ≤ oldestInUse s p →
    exec (.settlerFold p x) s = .next (freeSlots ((hotWrite (primaryTouch (charge s p tT3 (32 + 4 * sh.desc.degree)) sh v.slot true) sh v.slot v.adj).updShard p x
      fun h => { dropVersions h (fun w => decide (w.pub ≤ oldestInUse s p)) with
        replaces := h.replaces.filter fun r => !decide (r.2 ≤ oldestInUse s p), adj := Smap.store [] h.adj v.slot v.adj }) p x) ∧
    ∃ t h, exec (.settlerFold p x) s = .next t ∧ shardOf t p x = some h ∧ h.versions = []) ∧
  (∀ (s : State) (p x : Nat) (sh : Shard), shardOf s p x = some sh → hostMode s p 2 = false → serving sh = true → sh.lost = false →
    s.fld .epcPcfg2 p 0 12 ≠ 0 → zeroRate s p tT3 = false →
    (sh.highWater ≤ sh.repairPos → exec (.repairWalk p x) s = .next ((freeSlots (s.updShard p x fun h => { h with
      repairPos := 0, repairOld := [], unref := h.repairOld.foldl addSet h.unref }) p x).event .epcPevent p 5)) ∧
    (sh.repairPos < sh.highWater → (servedHere s sh sh.repairPos = false ∨ repairPool s sh sh.repairPos = none) → 0 < sh.repairPos →
      exec (.repairWalk p x) s = .next ((charge s p tT3 (4 * sh.desc.degree)).updShard p x fun h => { h with repairPos := sh.repairPos + 1 }))) ∧
  (∀ (s : State) (n : Nat) (c : Cmd) (sh : Shard) (es : List LinkEntry), admittedAs s n c 0x87 → shardOf s c.part (eIndex c.entry) = some sh →
    serving sh = true → sh.lost = false → c.mode 2 = true → linkEntries sh.desc.degree 4096 (inputData s c.entry) = some es → es ≠ [] →
    8 * es.length ≤ eResultLen c.entry →
    exec (.linkSupply n) s = .next (endBatch (placeAll (fun s c i => linkEntry s n c (es.getD i (3, nullSlot, []))) es.length
      (s.updCmd n fun c => { c with phase := .running, total := es.length }) n) n)) ∧
  (∀ (s : State) (n : Nat) (c : Cmd) (sh : Shard), admittedAs s n c 0x87 → shardOf s c.part (eIndex c.entry) = some sh →
    linkEntries sh.desc.degree 4096 (inputData s c.entry) = none → ∃ t, exec (.linkSupply n) s = .next t ∧ endedWith t n stInvalid)

/-- The vector store, checkpoints and the rebuild of a shard (R269, R277, R278, R386, R590). -/
def Obligations.CheckpointRowsComplete : Prop :=
  (∀ (s t : State) (p x slot q : Nat) (sh : Shard) (v : List Byte) (l : LinkParts), shardOf s p x = some sh → ringSeq sh slot = some q →
    sh.jvectors.get slot = some v → sh.links.get q = some l → l.vecDone = false → zeroRate s p tT5 = false →
    (deviceWrite s p false x (vectorLaddrs sh slot) = some t →
      exec (.vectorStoreWriteDone p x slot) s = .next (linkPart ((charge t p tT5 v.length).updShard p x fun h => { h with
        vectors := h.vectors.put slot v }) p x q fun l => { l with vecDone := true })) ∧
    (deviceWrite s p false x (vectorLaddrs sh slot) = none → exec (.vectorStoreWriteDone p x slot) s = .next (zoneNeeded s p))) ∧
  (∀ (s : State) (p x : Nat) (sh : Shard), shardOf s p x = some sh → sh.phase = .serving → sh.lost = false → sh.ckptNow = none → s.epoch.cur ≠ 0 →
    s.epoch.prepared = false → hostMode s p 0 = false →
    exec (.checkpointStart p x) s = .next (s.updShard p x fun h => { h with ckptNow := some (checkpointOf s sh) })) ∧
  (∀ (s t : State) (p x : Nat) (sh : Shard) (c : Checkpoint), shardOf s p x = some sh → sh.ckptNow = some c → sh.ckptPrev = none → zeroRate s p tT5 = false →
    deviceWrite s p true 0 (ckptLaddrs sh c.epoch) = some t →
    exec (.checkpointDone p x) s = .next (ckptComplete ((charge t p tT5 (4096 * (ckptLaddrs sh c.epoch).length)).updShard p x fun h => { h with
      ckptPrev := h.ckpt, ckpt := some c, ckptNow := none }) p c.epoch)) ∧
  (∀ (s t : State) (p x : Nat) (sh : Shard) (c : Checkpoint), shardOf s p x = some sh → sh.ckptNow = some c → zeroRate s p tT5 = false →
    deviceWrite s p true 0 (ckptLaddrs sh c.epoch) = some t →
    ∃ u h, exec (.checkpointDone p x) s = .next u ∧ shardOf u p x = some h ∧ h.ckpt = some c ∧ h.ckptPrev = sh.ckpt ∧ h.ckptNow = none ∧
      c.epoch ≤ u.epoch.largest ∧ (u.sqc .epcPevent p).ev.getLsbD 4 = true) ∧
  (∀ (s : State) (p x : Nat) (sh : Shard) (c : Checkpoint), shardOf s p x = some sh → sh.ckpt = some c → s.power.stage = .rebuild → sh.lost = true →
    s.felt.ready = true → (List.range 16).any (s.fencedUnit 0x09) = false →
    ∃ t h, exec (.shardRebuild p x) s = .next t ∧ shardOf t p x = some h ∧ h.lost = false ∧ h.phase = .serving ∧
      h.firstServing = s.epoch.cur + 1 ∧ h.ckpt = some c)

/-- EMBED, EMBED_INSERT, RERANK, MODEL_STORE, MODEL_GROUP (R556 to R560, R573, R574, R696). -/
def Obligations.ModelCommandsComplete : Prop :=
  (∀ (s : State) (n k : Nat) (c : Cmd) (docs : List DocRec) (b : List Byte), admittedAs s n c 0x20 → cmdDocs s c = some docs → k = docs.length →
    bits (eArg0 c.entry) 0 2 = 1 → eIndex c.entry = 0 → 32 * k + ((boundImage s c.part .doc c.local_).map embedStride).getD 0 * k ≤ eResultLen c.entry →
    profileClash s c .doc = false → (runTiers (boundImage s c.part .doc c.local_)).any (zeroRate s c.part) = false →
    (modelAvail s c.part .doc c.local_ = .ready b → exec (.embed n) s = .next (embedEnd (submitDocs (s.updCmd n fun x => { x with
      phase := .running, total := k, gids := List.replicate k 0
      outs := docs.map fun d => if docOk (some b) c.prof false d then { refused 0 stOk with status := stOk } else refused 0 stInvalid }) n c .doc b false docs)
      n (some b))) ∧
    (modelAvail s c.part .doc c.local_ = .missing → boundImage s c.part .doc c.local_ = none → k ≠ 0 →
      ∃ t, exec (.embed n) s = .next t ∧ endedWith t n stModelUnavailable)) ∧
  (∀ (s : State) (n : Nat) (c : Cmd) (docs : List DocRec) (b : List Byte) (sh : Shard), admittedAs s n c 0x21 → earlierUnplaced s n c = false →
    cmdDocs s c = some docs → shardOf s c.part (eIndex c.entry) = some sh → serving sh = true → sh.lost = false → 32 * docs.length ≤ eResultLen c.entry →
    profileClash s c .doc = false → modelAvail s c.part .doc c.local_ = .ready b → (runTiers (some b)).any (zeroRate s c.part) = false →
    exec (.embedInsert n) s = .next (placeDocs (submitDocs (s.updCmd n fun x => { x with
      phase := .running, total := docs.length, gids := docs.map (·.gid), outputs := [] }) n c .doc b true docs) n)) ∧
  (∀ (s : State) (n nt nc : Nat) (c : Cmd) (sh : Shard) (d b : List Byte) (ids : List Nat), admittedAs s n c 0x22 → shardOf s c.part (eIndex c.entry) = some sh →
    serving sh = true → sh.lost = false → d = inputData s c.entry → nt = field d 0 2 → nc = field d 2 2 → 0 < nc → nc ≤ 1024 → zeroAt d 4 28 = true →
    eDataLen c.entry = 32 + 32 * ceilDiv (4 * nt) 32 + 8 * nc → zeroAt d (32 + 4 * nt) (32 * ceilDiv (4 * nt) 32 - 4 * nt) = true →
    16 * nc ≤ eResultLen c.entry → ids = ((List.range nc).map fun i => field d (32 + 32 * ceilDiv (4 * nt) 32 + 8 * i) 8) → ids.Nodup →
    c.local_ ≠ 0 → c.kept = true → sh.firstServing ≤ c.local_ →
    tokensOk (boundImage s c.part .rerank c.local_) c.prof (tokensOf (slice d 32 (4 * nt))) = true → profileClash s c .rerank = false →
    (modelAvail s c.part .rerank c.local_ = .missing → ∃ t, exec (.rerank n) s = .next t ∧ endedWith t n stModelUnavailable) ∧
    (modelAvail s c.part .rerank c.local_ = .ready b → (runTiers (some b)).any (zeroRate s c.part) = false →
      exec (.rerank n) s = .next (startRerank (markRunning s n) n c (ids.map (rerankCand s sh c.local_)) (tokensOf (slice d 32 (4 * nt)))))) ∧
  (∀ (s : State) (n r : Nat) (c : Cmd) (b : List Byte), admittedAs s n c 0x90 → bit (eArg0 c.entry) 0 = false → zeroRate s c.part tT4 = false →
    b = inputData s c.entry → r = storeReason s c b →
    exec (.modelStore n) s = .next (if r ≠ 0 then finish s n (if r = 0x0B then stQuota else stInvalid) 0 (r * 256) else
      endWith (s.mapModel fun m => { m with
        store := if m.store.any (fun x => miDigest x == miDigest b) then m.store else m.store ++ [b]
        lost := m.lost.filter fun d => d != miDigest b }) n stOk)) ∧
  (∀ (s : State) (n : Nat) (c : Cmd), admittedAs s n c 0x90 → bit (eArg0 c.entry) 0 = true →
    (∀ b, (s.model.store.find? fun b => miModelId b == eArg1 c.entry && miRank b == bits (eArg0 c.entry) 8 8) = some b → digestBound s (miDigest b) = false →
      exec (.modelRemove n) s = .next (endWith (s.mapModel fun m => { m with store := m.store.filter fun x => x != b }) n stOk)) ∧
    ((s.model.store.find? fun b => miModelId b == eArg1 c.entry && miRank b == bits (eArg0 c.entry) 8 8) = none →
      ∃ t, exec (.modelRemove n) s = .next t ∧ endedWith t n stInvalid)) ∧
  (∀ (s : State) (n g : Nat) (c : Cmd) (b : List Byte) (nodes : List Nat), admittedAs s n c 0x91 → b = paramBlock s c.entry → ePbLen c.entry = 64 →
    zeroAt b 5 3 = true → zeroAt b 0x18 8 = true → field b 0x10 8 < 2 ^ 48 → g = field b 4 1 → g ∈ [1, 2, 4, 8] →
    nodes = ((List.range (min g 8)).map fun i => field b (0x20 + 4 * i) 4) → nodes.any (fun x => x ≥ noNode) = false →
    zeroAt b (0x20 + 4 * g) (32 - 4 * g) = true → nodes.contains (nodeId s) = true →
    (s.epoch.cur + 2 ≤ field b 0x10 8 → exec (.modelGroup n) s = .next ((markRunning s n).mapModel fun m => { m with
      forming := m.forming ++ [(field b 0 4, { modelId := field b 8 8, nodes := nodes, target := field b 0x10 8, cmd := some n })] })) ∧
    (field b 0x10 8 < s.epoch.cur + 2 → ∃ t, exec (.modelGroup n) s = .next t ∧ endedWith t n stEpochExpired))

/-- Batches, rounds, copies and split models (R309 to R313, R327, R328, R595, R596). -/
def Obligations.BatchRowsComplete : Prop :=
  (∀ (s : State) (n : Nat) (b : Batch), (s.model.batches.find? fun b => b.num == n) = some b → b.closed = false →
    ∃ t, exec (.batchClose n) s = .next t ∧
      t.model.batches = s.model.batches.map fun x => if x.num = n then { x with closed := true } else x) ∧
  (∀ (s : State) (lane : Nat) (d : List Byte), s.blockOut 8 = false → lane < cfgWeightWindow s.img.cfg / 2 → s.model.lanes.get lane = none →
    (((waitModels s).take ((List.range (cfgWeightWindow s.img.cfg / 2)).filter fun x => !s.model.lanes.has x).length).find? fun d =>
      s.model.batches.any fun b => b.digest == d && batchWaits s b && !(freeClusters s b).isEmpty) = some d →
    ∃ t b, exec (.streamRoundStart lane) s = .next t ∧
      t.model.lanes.get lane = some { digest := some d, pos := 0, left := ((storedImage s d).map imageBytes).getD 0 } ∧
      b ∈ t.model.batches ∧ b.lane = some lane ∧ b.cluster.isSome = true) ∧
  (∀ (s : State) (lane half : Nat) (l : Lane), s.model.lanes.get lane = some l → half = l.pos % 2 → streams s (l.digest.getD []) = true →
    (2 ^ 22 < l.left → exec (.laneHalfRefill lane half) s = .next (fillHalf (s.mapModel fun m => { m with
        lanes := m.lanes.put lane { l with pos := l.pos + 1, left := l.left - 2 ^ 22 } }) lane (l.digest.getD []) (l.pos + 1)) ∧
      ∃ t, exec (.laneHalfRefill lane half) s = .next t ∧ t.model.lanes.get lane = some { l with pos := l.pos + 1, left := l.left - 2 ^ 22 }) ∧
    (l.left ≤ 2 ^ 22 → (s.model.batches.any fun b => b.lane == some lane && b.cluster.isSome) = false →
      exec (.laneHalfRefill lane half) s = .next (s.mapModel fun m => { m with lanes := m.lanes.del lane }))) ∧
  (∀ (s : State) (i : Nat) (r : Resident), s.model.resident[i]? = some r → r.done = false → r.lost = false → r.spans ≠ [] →
    (∃ t, exec (.modelCopyDone i true) s = .next t ∧
      t.model.resident = s.model.resident.map fun x => if x.digest = r.digest then { x with done := true } else x) ∧
    exec (.modelCopyDone i false) s = .next (modelLost s r.digest)) ∧
  (∀ (s : State) (i : Nat) (r : Resident), s.model.resident[i]? = some r → r.poison ≠ [] →
    (∃ t, exec (.modelRefetchDone i true false) s = .next t ∧
      t.model.resident = (s.model.resident.map fun x => if x.digest = r.digest then { x with poison := [] } else x) ∧
      t.model.batches = (s.model.batches.map fun b => if b.digest = r.digest ∧ b.cluster.isSome then { b with rerun := true, sent := [] } else b)) ∧
    exec (.modelRefetchDone i true true) s = .next (modelLost s r.digest) ∧
    exec (.modelRefetchDone i false false) s = .next (modelLost s r.digest)) ∧
  (∀ (s : State) (p : Packet) (k : Nat) (g : Group), p.typ = 0xB → s.twill.inbox = [p] → p.last = false →
    (s.model.groups.find? fun g => g.2.nodes.contains p.src && g.2.nodes.contains (nodeId s)) = some (k, g) →
    ∃ t, exec (.collective p) s = .next t ∧ t.twill.inbox = [] ∧ t.model.partials = s.model.partials ++
      [{ group := k, rank := (indexOf? (· == p.src) g.nodes).getD 0, req := p.reqId, payload := p.payload }]) ∧
  (∀ (s : State) (n : Nat) (b : Batch) (img : List Byte), batchOf s n = some b → storedImage s b.digest = some img → 1 < miSplit img →
    b.cluster ≠ none → (batchRun s b img).waits = true →
    (b.lead = none → exec (.collectiveTimeout n) s = .next (failBatch (faultRecord s 0x10 0 0 0 [b.part] []) b) ∧
      ∃ t, exec (.collectiveTimeout n) s = .next t ∧ (t.sqc .rasEvent 0).ev.getLsbD 0 = true) ∧
    (b.lead ≠ none → exec (.collectiveTimeout n) s = .next (s.mapModel fun m => { m with batches := m.batches.filter fun x => x.num != b.num })))

/-- Epoch boundaries, the first strobe, image verification and scrubs (R54, R57, R59, R254 to R259, R278, R659). Whether an image verifies
also depends on `Config.ecdsaVerify`, which has no body (log entry 57). -/
def Obligations.EpochRowsComplete : Prop :=
  (∀ s : State, s.epoch.cur ≠ 0 → s.epoch.prepared = false →
    ∃ t, exec .prepare s = .next t ∧ t.epoch.prepared = true ∧ t.epoch.ready = gatedDomains s ∧ t.epoch.cur = s.epoch.cur) ∧
  (∀ (s : State) (d : Nat), s.epoch.prepared = true → d < 236 →
    exec (.domainReady d) s = .next (s.mapEpoch fun e => { e with ready := addSet e.ready d })) ∧
  (∀ s : State, s.epoch.prepared = true →
    exec .epochStrobe s = .next (boundaryEnd (beginEpoch s (s.epoch.cur + 1) (imagesDue s (s.epoch.cur + 1))
      ((handshake s).filter fun d => !s.epoch.ready.contains d))) ∧
    ∃ t, exec .epochStrobe s = .next t ∧ t.epoch.cur = s.epoch.cur + 1 ∧ t.epoch.prepared = false) ∧
  (∀ (s : State) (d : Nat), s.epoch.awaiting = true → d < 236 → s.epoch.missed.contains d = false →
    exec (.strobeAck d (s.epoch.cur % 256)) s = .next (boundaryEnd (s.mapEpoch fun e => { e with acked := addSet e.acked d })) ∧
    ∃ t, exec (.strobeAck d (s.epoch.cur % 256)) s = .next t ∧ t.epoch.acked = addSet s.epoch.acked d) ∧
  (∀ (s : State) (d b : Nat), s.epoch.awaiting = true → d < 236 → b ≠ s.epoch.cur % 256 →
    exec (.strobeAck d b) s = .next (s.mapEpoch fun e => { e with missed := addSet e.missed d })) ∧
  (∀ s : State, s.epoch.awaiting = true → ((handshake s).filter fun d => s.epoch.missed.contains d || !s.epoch.acked.contains d) = [] →
    ∃ t, exec .ackTimeout s = .next t ∧ t.epoch.awaiting = false ∧ t.epoch.missed = [] ∧
      t.ro .epcMissed 0 = BitVec.ofNat 32 (256 * min 0xFFFFFF ((s.ro .epcMissed 0).toNat / 256))) ∧
  (∀ (s : State) (d : Nat), s.epoch.awaiting = true → ((handshake s).filter fun d => s.epoch.missed.contains d || !s.epoch.acked.contains d) = [d] →
    s.epoch.appliedNow = false →
    exec .ackTimeout s = .next (fenceUnit ((((configBack [d] (s.mapEpoch fun e => { e with awaiting := false, missed := [d] })).setRo .epcMissed 0
      (BitVec.ofNat 32 (1 + 256 * min 0xFFFFFF ((s.ro .epcMissed 0).toNat / 256 + 1)))).event .epcEvent 0 1).event .rasEvent 0 7) 0x12 d 0x02 0 true)) ∧
  (∀ (s : State) (x : ImgSlot), s.power.stage = .rebuild → rebuilt s = true → s.power.startSlot.bind (getSlot s) = some x →
    exec .firstStrobe s = .next (boundaryEnd (((beginEpoch ((stageShadows s true).mapEpoch fun e => { e with first := s.epoch.largest + 1 })
      (s.epoch.largest + 1) [x] []).mapImg fun i => { i with slot0 := none, slot1 := none }).mapPower fun p => { p with stage := .running, startSlot := none })) ∧
    ∃ t, exec .firstStrobe s = .next t ∧ t.epoch.cur = s.epoch.largest + 1 ∧ t.epoch.first = s.epoch.largest + 1 ∧ t.power.stage = .running ∧
      t.img.slot0 = none ∧ t.img.slot1 = none) ∧
  (∀ (s : State) (p : Nat),
    (s.img.scrubStep.get p = some 2 → exec (.partitionScrubStep p) s = .next ((s.mapMem fun m =>
      (s.img.scrubSheet.filter fun e => e.2 == p).foldl (fun m e => zeroSheet m e.1) m).mapImg fun i => { i with scrubStep := i.scrubStep.put p 3 })) ∧
    (s.img.scrubStep.get p = some 3 → exec (.partitionScrubStep p) s = .next ((zeroWindows s p).mapImg fun i => { i with scrubStep := i.scrubStep.put p 4 })) ∧
    (s.img.scrubStep.get p = some 4 → ∃ t, exec (.partitionScrubStep p) s = .next t ∧ t.img.scrubStep.get p = some 5 ∧
      ∀ e, e ∈ t.mem.t3 ↔ e ∈ s.mem.t3 ∧ ¬((s.img.scrubDdr.getD p (0, 0)).1 ≤ e.1 / 2 ^ 24 ∧
        e.1 / 2 ^ 24 < (s.img.scrubDdr.getD p (0, 0)).1 + (s.img.scrubDdr.getD p (0, 0)).2))) ∧
  (∀ (s : State) (k : Nat) (x : ImgSlot), getSlot s k = some x → x.phase = .verifying → s.blockOut 1 = false →
    exec (.imageVerifyDone k) s = .next (match verifyImage s x.bytes x.req with
      | .error r => imgReject (setSlot s k none) x.req r
      | .ok y => raiseEvent (imgShow ((setSlot s k (some y)).event .imgStatus 0 0) x.req 2) 3 (natLe 4 x.req ++ natLe 4 2)) ∧
    (∀ y, verifyImage s x.bytes x.req = .ok y → ∃ t, exec (.imageVerifyDone k) s = .next t ∧ getSlot t k = some y ∧
      (t.sqc .imgStatus 0).ev.getLsbD 0 = true) ∧
    (∀ r, verifyImage s x.bytes x.req = .error r → ∃ t, exec (.imageVerifyDone k) s = .next t ∧ getSlot t k = none ∧
      (t.sqc .imgStatus 0).ev.getLsbD 2 = true ∧
      t.ro .imgReject 0 = BitVec.ofNat 32 (r.1 % 256 + r.2.1 % 16 * 256 + r.2.2 % 65536 * 65536)))

/-- Faults, drains, return work and lanes (R581 to R584, R587). -/
def Obligations.UnitRowsComplete : Prop :=
  (∀ (s : State) (u cls : Nat), u < 8 → 1 ≤ cls → cls ≤ 0x12 → (s.unit 0x0D u).st = .inService → (s.unit 0x0D u).tries < 3 →
    ∃ t, exec (.unitFault 0x0D u cls 0) s = .next t ∧ (t.unit 0x0D u).st = .out ∧ (t.unit 0x0D u).lastClass = cls ∧ (t.unit 0x0D u).auto = true) ∧
  (∀ (s : State) (kind u cls addr : Nat), u < unitCount kind → 1 ≤ cls → cls ≤ 0x12 → kind ≠ 0x10 → kind ≠ 0x12 → kind ≠ 0x13 →
    exec (.unitFault kind u cls addr) s = .next (fenceOne s kind u cls addr true)) ∧
  (∀ (s : State) (u cls addr : Nat), u < 2 → 1 ≤ cls → cls ≤ 0x12 →
    exec (.unitFault 0x10 u cls addr) s = .next ((dieUnits u).foldl (fun t x => fenceOne t x.1 x.2 cls 0 true) (fenceOne s 0x10 u cls addr true))) ∧
  (∀ (s : State) (kind u : Nat), (s.unit kind u).st = .draining → holdsWork s kind u = false → (s.unit kind u).reenable = false →
    s.power.deep.contains (unitKey kind u) = false →
    exec (.drainComplete kind u) s = .next (outWork (fenceWork (enterOut s kind u false false) kind u) kind u)) ∧
  (∀ (s : State) (u : Nat), (s.unit 7 u).st = .draining → holdsWork s 7 u = false → (s.unit 7 u).reenable = false →
    s.power.deep.contains (unitKey 7 u) = false → (s.unit 7 u).tries < 3 →
    ∃ t, exec (.drainComplete 7 u) s = .next t ∧ (t.unit 7 u).st = .out ∧ (t.unit 7 u).auto = false ∧ (t.sqc .rasEvent 0).ev.getLsbD 1 = true) ∧
  (∀ (s : State) (kind u : Nat), (s.unit kind u).st = .returning →
    ((kind = 2 → noCores s u = false) → exec (.returnWorkDone kind u true) s =
      .next (setService (returnWork s kind u) kind u fun x => { x with st := .waiting, joins := false }) ∧
      ∃ t, exec (.returnWorkDone kind u true) s = .next t ∧ (t.unit kind u).st = .waiting) ∧
    (kind ≠ 0x13 → exec (.returnWorkDone kind u false) s = .next (enterOut s kind u true true)) ∧
    ((s.unit 0x13 u).st = .returning → (s.unit 0x13 u).tries = 2 → usneaUp s = true →
      exec (.returnWorkDone 0x13 u false) s = .next (warmReset (enterOut s 0x13 u true true)))) ∧
  (∀ (s : State) (link lane : Nat) (l : List Nat), link < 2 → s.ras.d2d.getD link [] = l → l.contains lane = false →
    (l.length < 4 → exec (.d2dLaneSwap link lane) s = .next (s.mapRas fun x => { x with d2d := x.d2d.put link (l ++ [lane]) })) ∧
    (4 ≤ l.length → exec (.d2dLaneSwap link lane) s = .next (fenceUnit s 0x10 link 0x0F 0 true)))

/-- Damaged data, the ledger, the log and health (R577, R578, R594, R595, R603 to R606). -/
def Obligations.DamageAndLedgerComplete : Prop :=
  (∀ (s : State) (n p i x : Nat), exec (.poisonedDataRead n (.slotRecord p i x)) s = .next (skipSlot (faultRecord s 0x07 0 0 0 [p] []) n x)) ∧
  (∀ (s : State) (n p i x : Nat), exec (.poisonedDataRead n (.attrWord p i x)) s = .next ((skipAttr (faultRecord s 0x07 0 0 0 [p] []) n x).updShard p i
    fun sh => putVersion sh x true (s.epoch.cur + 1) [] (attrNewest sh x))) ∧
  (∀ (s : State) (n p i x : Nat), exec (.poisonedDataRead n (.adjacency p i x)) s = .next ((skipAdj (faultRecord s 0x07 0 0 0 [p] []) n x).updShard p i
    fun sh => putVersion sh x false (s.epoch.cur + 1) ((sh.ckpt.map fun c => c.adj.getD x []).getD []) 0)) ∧
  (∀ (s : State) (n p i b : Nat), exec (.poisonedDataRead n (.idMapBucket p i b)) s = .next (cutBatch (faultRecord s 0x07 0 0 0 [p] []) n)) ∧
  (∀ (s : State) (n p i x : Nat) (sh : Shard), shardOf s p i = some sh → exec (.poisonedDataRead n (.norm p i x)) s = .next (
    if needsNorm sh.desc.numrec then skipSlot (faultRecord s 0x05 0 0 0 [p] []) n x else markPartial (faultRecord s 0x05 0 0 0 [p] []) n)) ∧
  (∀ (s : State) (n w rg : Nat), exec (.poisonedDataRead n (.crcShadow w rg)) s = .next (rgDamage s (2 ^ 18 * w + rg) 0)) ∧
  (∀ (s : State) (n p i x : Nat), exec (.poisonedDataRead n (.latent p i x)) s = .next ((t2Poison (faultRecord s 0x05 0 0 0 [p] [])
    (((shardOf s p i).bind fun sh => sh.latents.get x).getD [])).updShard p i fun sh => { sh with latents := sh.latents.del x })) ∧
  (∀ (s : State) (n i sw : Nat) (r : Resident), s.model.resident[i]? = some r → r.lost = false → r.done = true →
    exec (.poisonedDataRead n (.weights i sw)) s = .next ((t2Poison (faultRecord s 0x0C 0 0 0 (boundParts s r.digest) []) (swatchSpans r sw)).mapModel fun m => { m with
      resident := m.resident.map fun x => if x.digest = r.digest then { x with poison := addSet x.poison sw } else x })) ∧
  (∀ (s : State) (n q : Nat) (x : Query), s.host.queries.get q = some x →
    exec (.poisonedDataRead n (.workArea q)) s = .next (restartQuery (faultRecord s 0x04 0 0 0 [x.part] []) q)) ∧
  (∀ (s : State) (n : Nat), exec (.poisonedDataRead n .feltMap) s = .next (faultRecord s 0x07 0 0 0 [] [])) ∧
  (∀ (s : State) (n p i x : Nat) (sh : Shard), shardOf s p i = some sh →
    exec (.poisonedDataRead n (.hotAdjacency p i x)) s = .next (hotWrite (faultRecord s 0x05 0 0 0 [p] []) sh x (sh.adj.getD x []))) ∧
  (∀ (s : State) (n p i : Nat) (sh : Shard), shardOf s p i = some sh → sh.phase = .serving → s.host.cmds = [] →
    exec (.poisonedDataRead n (.descriptor p i)) s = .next ((faultRecord s 0x07 0 0 0 [p] []).updShard p i fun sh =>
      if sh.phase = .serving then { sh with lost := true } else sh)) ∧
  (∀ (s : State) (n p l : Nat), ((s.ledger p).recs.any fun r => r.lseq == l) = true →
    ∃ t, exec (.poisonedDataRead n (.ledger p l)) s = .next t ∧ ((t.ledger p).recs.any fun r => r.lseq == l) = false ∧
      t.ro .rasPLedgerLost p = s.ro .rasPLedgerLost p + 1) ∧
  (∀ s : State, usneaUp s = true →
    exec .persistentLogCopy s = .next ((((s.ras.logWait.take (s.fld .rasCfg 0 2 10)).foldl logRecord s).mapRas fun x => { x with
      logWait := (s.ras.logWait.drop (s.fld .rasCfg 0 2 10)).take (s.ras.logHeld - s.fld .rasCfg 0 2 10)
      logHeld := s.ras.logHeld - s.fld .rasCfg 0 2 10 }).eventIf
        (decide ((s.ras.logWait.drop (s.fld .rasCfg 0 2 10)).length > s.ras.logHeld - s.fld .rasCfg 0 2 10)) .rasEvent 0 8)) ∧
  (∀ (s : State) (n : Nat) (c : Cmd), s.host.cmds.get n = some c → usneaUp s = false → c.phase ≠ .done → s.usnea.waitCmds.contains n = true →
    ∃ t, exec (.adminWaitTimeout n) s = .next t ∧ endedWith t n stFaultedNone ∧ t.usnea.waitCmds.contains n = false) ∧
  (∀ (s : State) (n k : Nat) (c : Cmd), admittedAs s n c 0xB0 → usneaUp s = true → 64 ≤ eResultLen c.entry →
    k = min ((eResultLen c.entry - 64) / 128) (1024 - eArg1 c.entry) →
    ∃ t d, exec (.healthLog n) s = .next t ∧ t.host.cmds.get n = some d ∧ d.phase = .done ∧ d.status = stOk ∧ d.progress = k ∧
      d.result = c.result ++ [(0, healthDevice s ++ (List.range k).flatMap fun i => healthDie s (eArg1 c.entry + i))]) ∧
  (∀ (s : State) (n : Nat) (c : Cmd), admittedAs s n c 0xB1 → c.byPf = true →
    ∃ t d, exec (.ledgerRead n) s = .next t ∧ t.host.cmds.get n = some d ∧ d.phase = .done ∧ d.status = stOk ∧
      d.progress = (ledgerFrom s (eArg0 c.entry) (eArg1 c.entry) (eResultLen c.entry)).length ∧
      d.result = c.result ++ [(0, (ledgerFrom s (eArg0 c.entry) (eArg1 c.entry) (eResultLen c.entry)).flatMap lrecBytes)])

/-- Training (R407 to R409). -/
def Obligations.PortTrainingCompletes : Prop :=
  (∀ (s : State) (i : Nat) (l : List Nat), i < 12 → (s.port i).st = .detect → 4 ≤ ((List.range 5).filter l.contains).length →
    exec (.signalDetected i l) s = .next (s.updPort i fun p => { p with
      st := .cal, failed := (List.range 5).filter fun x => !((List.range 5).filter l.contains).contains x })) ∧
  (∀ (s : State) (i : Nat), i < 12 → (s.port i).st = .cal →
    exec (.receiverAdaptationDone i) s = .next (s.updPort i fun p => { p with st := .txeq, rxReady := true })) ∧
  (∀ (s : State) (i lane : Nat) (b : List Byte), i < 12 → lane < 5 → (s.port i).failed.contains lane = false → frameOk b = true →
    ((s.port i).st = .txeq → ∃ t, exec (.trainingFrame i lane b) s = .next t ∧
      (t.port i).peerReady = ((s.port i).peerReady || bit (field b 7 1) 7) ∧
      (t.port i).taps = (eqRequest (s.port i) lane (field b 6 1)).taps ∧
      (t.port i).st = if (s.port i).rxReady && ((s.port i).peerReady || bit (field b 7 1) 7) then .align else .txeq) ∧
    ((s.port i).st = .align → ∃ t, exec (.trainingFrame i lane b) s = .next t ∧ (t.port i).seen = (s.port i).seen.put lane (field b 4 1) ∧
      (t.port i).st = if (s.port i).good.all ((s.port i).seen.put lane (field b 4 1)).has then .param else .align) ∧
    ((s.port i).st = .param → exec (.trainingFrame i lane b) s = .next (paramFrame s i b))) ∧
  (∀ (s : State) (i : Nat), i < 12 → boundedState (s.port i) = true →
    ((s.port i).fails < 2 → exec (.trainingStateTimeout i) s = .next (enterDetect (s.updPort i fun p => { p with fails := p.fails + 1 }) i)) ∧
    (2 ≤ (s.port i).fails → exec (.trainingStateTimeout i) s = .next (enterDown s i))) ∧
  (∀ (s : State) (i : Nat), i < 12 → (s.port i).st = .down →
    ∃ t, exec (.downRetry i) s = .next t ∧ (t.port i).st = .detect ∧ (t.port i).failed = [] ∧ (t.port i).rate = (s.fld .twlPCfg i 1 1 == 1))

/-- Flits, swaps, retraining, the end of a port's work and forwarding (R410, R414 to R418, R425 to R431). -/
def Obligations.PortRowsComplete : Prop :=
  (∀ (s u : State) (i h : Nat) (b : List Byte), i < 12 → ((s.port i).st = .active ∨ (s.port i).st = .draining) → b.length = 256 →
    field b 252 4 = crc32c (b.take 252) → h = field b 0 9 → u = takeAck s i h →
    (bits h 0 2 = 1 → exec (.flitReceive i b) s = .next (portSend u i)) ∧
    (bits h 0 2 ≠ 1 → bits h 0 2 < 3 → bits h 2 12 = ((u.port i).ackSeq + 1) % 4096 →
      exec (.flitReceive i b) s = .next (portSend (takeFlit u i h (slice b 9 243)) i)) ∧
    (bits h 0 2 ≠ 1 → bits h 2 12 ≠ ((u.port i).ackSeq + 1) % 4096 → (u.port i).nakHold = false → (u.port i).swapRx = none →
      exec (.flitReceive i b) s = .next (portSend (u.updPort i fun p => p.sendIdle true) i))) ∧
  (∀ (s : State) (i : Nat), i < 12 →
    exec (.nakHoldExpiry i) s = .next (s.updPort i fun p => { p with nakHold := p.nakHold && p.swapRx.isSome })) ∧
  (∀ (s : State) (i lane n : Nat), i < 12 → lane < 5 → (s.port i).st = .active → (s.port i).failed.contains lane = false →
    indexOf? (· == lane) (s.port i).rx = some n → (s.port i).swapRx = none →
    freeLane { s.port i with failed := addSet (s.port i).failed lane } (s.port i).rx ≠ none →
    ∃ t, exec (.laneFailing i lane) s = .next t ∧ (t.port i).swapRx = some n ∧ (t.port i).nakHold = true ∧
      (t.port i).failed = addSet (s.port i).failed lane) ∧
  (∀ (s : State) (i lane : Nat), i < 12 → (s.port i).st = .active → lane < (s.port i).tx.length → freeLane (s.port i) (s.port i).tx ≠ none →
    ∃ t, exec (.swapReq i lane) s = .next t ∧ (t.port i).mirror = some lane ∧ (t.port i).tx = (s.port i).tx) ∧
  (∀ (s : State) (i n l : Nat), i < 12 → (s.port i).swapRx = some n → freeLane (s.port i) (s.port i).rx = some l →
    ∃ t, exec (.mirroredGroupsDecoded i) s = .next t ∧ (t.port i).rx = (s.port i).rx.set n l ∧ (t.port i).swapRx = none) ∧
  (∀ (s u : State) (i n l : Nat), i < 12 → u = takeLctrl s i 2 → (u.port i).mirror = some n → freeLane (u.port i) (u.port i).tx = some l →
    exec (.swapDone i) s = .next (portSend (resendAll (swapEnded (u.updPort i fun p => { p with
      tx := p.tx.set n l, failed := addSet p.failed (p.tx.getD n 0), mirror := none }) i) i) i)) ∧
  (∀ (s : State) (i : Nat), i < 12 → (s.port i).st = .active → ∃ t, exec (.retrainReq i) s = .next t ∧ (t.port i).st = .cal ∧ (t.port i).width = 0) ∧
  (∀ (s : State) (i : Nat), i < 12 → (s.port i).st = .draining → exec (.retargetDrainEnd i) s = .next (enterDetect (reroute s i) i) ∧
    ∃ t, exec (.retargetDrainEnd i) s = .next t ∧ (t.port i).st = .detect ∧ (t.port i).outq = []) ∧
  (∀ (s : State) (i : Nat), i < 12 → ((s.port i).st = .active ∨ (s.port i).st = .draining) → exec (.portDown i) s = .next (enterDown s i) ∧
    ∃ t, exec (.portDown i) s = .next t ∧ (t.port i).st = .down ∧ (t.sqc .twlEvent 0).ev.getLsbD 1 = true) ∧
  (∀ (s : State) (k : Packet) (i : Nat), s.twill.transit = [(i, k)] → badPacket k false = false → k.dst ≠ nodeId s →
    ∀ v, v = (oweCredits (s.mapTwill fun t => { t with transit := [] }) i k).updPort i (fun q => Port.sendCredits 16 q) →
    (0 < k.hops → exec (.packetForward k) s = .next (routePkt v { k with hops := k.hops - 1 } (some i)) ∧
      ∃ t, exec (.packetForward k) s = .next t ∧ t.twill.transit = []) ∧
    (k.hops = 0 → k.typ = 0xD → exec (.packetForward k) s = .next ((v.event .twlEvent 0 7).event .twlEvent 0 6)) ∧
    (k.hops = 0 → k.typ ≠ 0xD → exec (.packetForward k) s =
      .next (routePkt ((v.event .twlEvent 0 7).event .twlEvent 0 6) (undeliveredOf ((v.event .twlEvent 0 7).event .twlEvent 0 6) k) none))) ∧
  (∀ (s : State) (k : Packet) (i : Nat), s.twill.transit = [(i, k)] → badPacket k false = true →
    ∃ t, exec (.packetForward k) s = .next t ∧ t.twill.transit = [] ∧ (t.sqc .twlEvent 0).ev.getLsbD 9 = true)

/-- Packets served (R433 to R435, R439, R441, R455, R456). -/
def Obligations.ServedPacketsComplete : Prop :=
  (∀ (s u : State) (p : Packet) (n t : Nat), packetFor s 0x1 p → u = takePkt s p → n = field p.payload 0 4 → t = (localPlace u p.addr).tier →
    ((partServes u p.part && spanOwned u p.part p.addr n) = false → exec (.readRequest p) s = .next (refuse u p 2)) ∧
    ((partServes u p.part && spanOwned u p.part p.addr n) = true → retained u p.part p.epoch = false →
      exec (.readRequest p) s = .next (answer u p 2 stEpochExpired 0)) ∧
    ((partServes u p.part && spanOwned u p.part p.addr n) = true → retained u p.part p.epoch = true → zeroRate u p.part t = false →
      exec (.readRequest p) s = .next (answerData (spanTouch (charge u p.part t n) p.part p.addr n false).drawn p 2 stOk
        (placeRead u (localPlace u p.addr) n)))) ∧
  (∀ (s u : State) (p : Packet) (t : Nat), packetFor s 0x3 p → u = takePkt s p → t = (localPlace u p.addr).tier →
    (u.twill.writes.contains (reqKey p.src p.reqId) = true → exec (.writeRequest p) s = .next (answer u p 4 stOk 0)) ∧
    (u.twill.writes.contains (reqKey p.src p.reqId) = false → partServes u p.part = true → spanOwned u p.part p.addr p.payload.length = true →
      retained u p.part p.epoch = true → zeroRate u p.part t = false → ∀ w v,
      w = placeWrite (spanTouch (charge u p.part t p.payload.length) p.part p.addr p.payload.length true) (localPlace u p.addr) p.payload →
      v = (match localPlace w p.addr with
        | .t3 a => match structAt w a with
          | some (sh, 7, _) => versionArrived w sh ((a - sh.t3.getD 7 0) / 32) p.payload
          | _ => w
        | _ => w) →
      exec (.writeRequest p) s = .next (answer (v.mapTwill fun x => { x with writes := addSet x.writes (reqKey p.src p.reqId) }) p 4 stOk 0))) ∧
  (∀ (s : State) (node r : Nat), exec (.writeRecordExpiry node r) s = .next (s.mapTwill fun t => { t with writes := delSet t.writes (reqKey node r) })) ∧
  (∀ (s u : State) (p : Packet) (typ k x : Nat) (i : Instr) (c : Comp) (l : List Nat), (typ, i) ∈ [(0x5, .scoreRequest p), (0x7, .expandRequest p)] →
    packetFor s typ p → u = takePkt s p → partServes u p.part = true → compOf u p.part p.index = some (k, c) → askedSlots p = x :: l →
    (newerGen p.mapgen (genMapgen c.now) = true → exec i s = .next (holdRequest u p true)) ∧
    (newerGen p.mapgen (genMapgen c.now) = false → p.mapgen = genMapgen c.now →
      (u.token (ledgerKey k (x / 2 ^ 24) p.src)).st = .held → (u.token (ledgerKey k (x / 2 ^ 24) p.src)).ceasing = none →
      exec i s = .next (serveRemote u p)) ∧
    (newerGen p.mapgen (genMapgen c.now) = false → p.mapgen ≠ genMapgen c.now → c.draining = false → exec i s = .next (answerStale u p))) ∧
  (∀ (s u : State) (p : Packet), packetFor s 0x9 p → u = takePkt s p → p.seq = 0 → u.twill.asm.getD (reqKey p.src p.reqId) [] = [] →
    (p.last = true → exec (.queryMessage p) s = .next (startQuery (u.mapTwill fun t => { t with asm := t.asm.del (reqKey p.src p.reqId) }) [p])) ∧
    (p.last = false → exec (.queryMessage p) s = .next (u.mapTwill fun t => { t with asm := t.asm.put (reqKey p.src p.reqId) [(0, p)] }))) ∧
  (∀ (s : State) (p : Packet) (typ : Nat) (i : Instr), (typ, i) ∈ [(0x1, .readRequest p), (0x3, .writeRequest p), (0x5, .scoreRequest p),
    (0x7, .expandRequest p), (0x9, .queryMessage p)] → p.typ = typ → p.dst = nodeId s → s.img.applied = true → (badPacket p false = true ∨ clearOk p = false) →
    exec i s = .next ((takePkt s p).event .twlEvent 0 9))

/-- Answers and timers of requests (R433, R437, R438, R442, R456, R457, R460, R471). -/
def Obligations.AnswersAndTimersComplete : Prop :=
  (∀ (s : State) (p : Packet) (o : OutReq), packetFor s 0x2 p → outOf (takePkt s p) p .read = some o → o.got = [] → p.seq = 0 → p.last = true →
    p.status = stOk → exec (.readRsp p) s = .next (ceaseCheck (serveData (dropReq ((twillCharge (takePkt s p) p).mapTwill fun t => { t with
      out := t.out.put p.reqId { o with got := [(0, p)] } }) p.reqId) p.reqId p.payload))) ∧
  (∀ (s u : State) (p : Packet) (o : OutReq) (v : Serve) (a : Nat), packetFor s 0x2 p → u = takePkt s p → outOf u p .read = some o → o.got = [] →
    p.seq = 0 → p.last = true → p.status = stOk → u.twill.serves = [v] → v.wait.length = 2 → (v.wait.find? fun w => w.1 == p.reqId) = some (p.reqId, a) →
    (v.wait.filter fun w => w.1 != p.reqId).length = 1 → s.own.ledger = [] →
    ∃ t, exec (.readRsp p) s = .next t ∧ t.twill.serves =
      [{ v with wait := v.wait.filter fun w => w.1 != p.reqId, lines := addLines v.lines a p.payload }]) ∧
  (∀ (s : State) (p : Packet) (o : OutReq), packetFor s 0x2 p → outOf (takePkt s p) p .read = some o → p.status ≠ stOk →
    exec (.readRsp p) s = .next (ceaseCheck (serveFails (dropReq (takePkt s p) p.reqId) p.reqId p.status))) ∧
  (∀ (s : State) (p : Packet) (o : OutReq), packetFor s 0x4 p → outOf (takePkt s p) p .write = some o →
    exec (.writeAck p) s = .next (dropReq (takePkt s p) p.reqId)) ∧
  (∀ (s u : State) (p : Packet) (o : OutReq), packetFor s 0x6 p → u = takePkt s p → outOf u p .score = some o →
    (p.status = stOk → p.payload = [] → bit p.addr 0 = true → exec (.scoreRsp p) s = .next (restartTimers u p.reqId)) ∧
    (p.status = stNotOwner → exec (.scoreRsp p) s = .next (notOwnerForward u p.reqId o p)) ∧
    (p.status = stStaleMap → exec (.scoreRsp p) s = .next (staleMap u p.reqId o p)) ∧
    (p.status = stOk → p.payload ≠ [] → p.last = true → p.seq = 0 → o.got = [] →
      exec (.scoreRsp p) s = .next (scoreData ((dropReq ((twillCharge u p).mapTwill fun t => { t with out := t.out.put p.reqId { o with got := [(0, p)] } }) p.reqId).updQuery
        o.query fun q => { q with remote := delSet q.remote p.reqId }) o p.payload))) ∧
  (∀ (s u : State) (p : Packet) (o : OutReq), packetFor s 0x8 p → u = takePkt s p → outOf u p .expand = some o → p.status = stOk → p.payload ≠ [] →
    p.last = true → p.seq = 0 → o.got = [] →
    exec (.expandRsp p) s = .next (expandData ((dropReq ((twillCharge u p).mapTwill fun t => { t with out := t.out.put p.reqId { o with got := [(0, p)] } }) p.reqId).updQuery
      o.query fun q => { q with remote := delSet q.remote p.reqId }) o p.payload)) ∧
  (∀ (s u : State) (p : Packet) (o : OutReq), packetFor s 0xA p → u = takePkt s p → outOf u p .query = some o →
    (bit p.addr 18 = true → exec (.listMessage p) s = .next (restartTimers u p.reqId)) ∧
    (bit p.addr 18 = false → p.last = true → p.seq = 0 → o.got = [] →
      exec (.listMessage p) s = .next (mergeList (dropReq ((twillCharge u p).mapTwill fun t => { t with
        out := t.out.put p.reqId { o with got := [(0, p)] } }) p.reqId) o.query p.src p.status
        (((List.range (min (bits p.addr 0 17) (p.payload.length / 16))).map (listEntry p.payload)).takeWhile fun e => e.key != 0xFFFFFFFF) (bit p.addr 17)))) ∧
  (∀ (s u : State) (p : Packet) (o : OutReq), packetFor s 0xD p → u = takePkt s p → u.twill.out.get p.reqId = some o →
    isResponse (bits (field p.payload 0 8) 0 4) = false → bits (field p.payload 0 8) 25 17 = nodeId u →
    exec (.undelivered p) s = .next (ceaseCheck (if p.retry || bit (field p.payload 0 8) 62 then unreachable u p.reqId else resend u p.reqId))) ∧
  (∀ (s : State) (r : Nat) (o : OutReq), s.twill.out.get r = some o →
    (o.resent = false → exec (.requestResendTimer r) s = .next (sendMsg (s.mapTwill fun t => { t with out := t.out.put r { o with resent := true } })
      (o.pkts.map fun p => { p with retry := true }))) ∧
    (o.kind = .read → s.own.unreachable.contains o.dst = true → exec (.requestTimeout r) s =
      .next (ceaseCheck (((serveFails (dropReq ((s.bump .twlTimeouts 0 1).event .twlEvent 0 10) r) r stUnreachable).mapOwn
        fun w => { w with unreachable := addSet w.unreachable o.dst }).event .ownEvent 0 8)))) ∧
  (∀ (s : State) (node r n : Nat) (q : Query), s.twill.serving.get (reqKey node r) = some n → s.host.queries.get n = some q →
    exec (.listProgressTimer node r) s = .next (sendMsg s [{ mkPkt 0xA node q.part with
      reqId := r, epoch := q.epoch, index := q.index, addr := 2 ^ 18, last := false, enc := false }])) ∧
  (∀ (s : State) (node r : Nat) (h : Held), heldOf s node r = some h →
    exec (.heldResponseTimer node r) s = .next (answer s h.pkt (answerType h.pkt) stOk 1) ∧
    (∃ t, exec (.heldResponseTimer node r) s = .next t ∧ heldOf t node r = some h) ∧
    (h.forGen = true → exec (.holdDrainExpiry node r) s = .next (answerStale (s.mapOwn fun o => { o with
      held := o.held.filter fun x => !(x.pkt.src == node && x.pkt.reqId == r) }) h.pkt))) ∧
  (∀ (s : State) (node : Nat), exec (.unreachableExpiry node) s = .next (s.mapOwn fun o => { o with unreachable := delSet o.unreachable node }))

/-- Token messages (R450, R462 to R468). -/
def Obligations.TokenMessagesComplete : Prop :=
  (∀ (s u : State) (p : Packet) (key g arg : Nat) (e : LedgerEnt), tokenFor s 1 p key g arg → u = takePkt s p → e = u.token key → e.tgen < g → g ≤ maxTgen →
    e.st = .none →
    exec (.offer p) s = .next (sendToken (u.setToken key { e with st := .accepted, tgen := g, peer := some p.src }) key p.src 2 g 0)) ∧
  (∀ (s u : State) (p : Packet) (key g arg : Nat) (e : LedgerEnt), tokenFor s 2 p key g arg → u = takePkt s p → e = u.token key → e.st = .offered →
    e.peer = some p.src → g = e.tgen + 1 →
    (inService u key = false → exec (.accept p) s = .next (sendToken (u.setToken key { e with st := .confirmed, tgen := g, ceasing := none }) key p.src 3 g 0)) ∧
    (inService u key = true → exec (.accept p) s = .next (u.setToken key { e with ceasing := some { kind := .confirm, node := some p.src, gen := g } }))) ∧
  (∀ (s u : State) (p : Packet) (key g arg : Nat) (e : LedgerEnt), tokenFor s 3 p key g arg → u = takePkt s p → e = u.token key → e.st = .accepted →
    e.peer = some p.src → g = e.tgen →
    exec (.confirm p) s = .next (enterHeld (sendToken u key p.src 4 g 0) key g (some p.src))) ∧
  (∀ (s u : State) (p : Packet) (key g arg : Nat) (e : LedgerEnt), tokenFor s 4 p key g arg → u = takePkt s p → e = u.token key → e.st = .confirmed →
    e.peer = some p.src → g = e.tgen →
    exec (.taken p) s = .next ((u.setToken key { e with st := .none }).event .ownEvent 0 2)) ∧
  (∀ (s u : State) (p : Packet) (key g arg : Nat) (e : LedgerEnt), tokenFor s 5 p key g arg → u = takePkt s p → e = u.token key → e.st = .accepted →
    e.peer = some p.src → g = e.tgen →
    exec (.withdraw p) s = .next (releaseHeld (u.setToken key { e with st := .none }))) ∧
  (∀ (s u : State) (p : Packet) (key g arg : Nat), tokenFor s 6 p key g arg → u = takePkt s p →
    ((u.token key).tgen < g → inService u key = false → exec (.revoke p) s = .next (releaseHeld (sendToken (u.setToken key { LedgerEnt.initial with
      st := .none, tgen := g, peer := some p.src }) key p.src 7 g 0))) ∧
    ((u.token key).tgen < g → inService u key = true → exec (.revoke p) s = .next (releaseHeld (u.setToken key { u.token key with
      ceasing := some { kind := .revoke, node := some p.src, gen := g } }))) ∧
    (g ≤ (u.token key).tgen → exec (.revoke p) s = .next (sendToken u key p.src 7 (u.token key).tgen 1))) ∧
  (∀ (s u : State) (p : Packet) (key g arg : Nat) (e : LedgerEnt), tokenFor s 7 p key g arg → u = takePkt s p → e = u.token key → e.st = .claiming →
    e.waitAck.contains p.src = true → e.tgen ≤ g → bit arg 0 = false →
    exec (.revokeAck p) s = .next (if (delSet e.waitAck p.src).isEmpty
      then claimDone (u.setToken key { e with waitAck := delSet e.waitAck p.src }) key { e with waitAck := delSet e.waitAck p.src }
      else u.setToken key { e with waitAck := delSet e.waitAck p.src })) ∧
  (∀ (s u : State) (p : Packet) (key g arg : Nat) (c : Comp), tokenFor s 8 p key g arg → u = takePkt s p → liveComp u (key / 2 ^ 25) = some c →
    genAnchor c.now = p.src →
    exec (.announce p) s = .next (releaseQueries (bindTo u (key / 2 ^ 25) (bits arg 0 48))))

/-- Timers of ownership (R450, R458, R463, R464, R636). -/
def Obligations.TokenTimersComplete : Prop :=
  (∀ (s : State) (k : Nat) (c : Comp), s.own.comps.get k = some c → c.draining = true →
    exec (.drainTimerExpiry k) s = .next ((compKeys s k).foldl offer (s.mapOwn fun o => { o with
      comps := o.comps.upd k fun c => { c with draining := false } }))) ∧
  (∀ (s : State) (n key : Nat) (e : LedgerEnt), segKey s n = some key → e = s.token key → hwAgent s = true →
    (e.st = .offered → exec (.tokenResend n) s = .next (sendToken s key (e.peer.getD noNode) 1 (e.tgen + 1) 0)) ∧
    (e.st = .accepted → exec (.tokenResend n) s = .next (sendToken s key (e.peer.getD noNode) 2 e.tgen 0)) ∧
    (e.st = .confirmed → exec (.tokenResend n) s = .next (sendToken s key (e.peer.getD noNode) 3 e.tgen 0)) ∧
    (e.st = .offered → exec (.handoverTimeout n) s = .next (((sendToken s key (e.peer.getD noNode) 5 (e.tgen + 1) 0).setToken key { e with
      st := .held, again := true, ceasing := none }).event .ownEvent 0 3) ∧
      ∃ t, exec (.handoverTimeout n) s = .next t ∧ (t.token key).st = .held ∧ (t.sqc .ownEvent 0).ev.getLsbD 3 = true)) ∧
  (∀ (s : State) (n key : Nat) (e : LedgerEnt), segKey s n = some key → e = s.token key →
    (e.st = .accepted → exec (.handoverTimeout n) s = .next (releaseHeld (markUnresolved ((s.setToken key { e with st := .none }).event .ownEvent 0 3) key))) ∧
    (e.st = .confirmed → exec (.handoverTimeout n) s = .next (markUnresolved s key))) ∧
  (∀ (s : State) (k : Nat) (c : Comp), liveComp s k = some c → genAnchor c.now ≠ nodeId s →
    exec (.anchorSilent k) s = .next (releaseQueries ((bindTo s k (c.bound + 1)).event .ownEvent 0 9))) ∧
  (∀ (s : State) (n key : Nat), segKey s n = some key → s.own.unresolved.has key = true →
    exec (.unresolvedEventRepeat n) s = .next (sendUnresolved s key) ∧
    ∃ t, exec (.unresolvedEventRepeat n) s = .next t ∧ t.own.unresolved = s.own.unresolved.put key 0)

/-- Setting and clearing event bits (R84): `State.event` is the one operation that sets an event of a register, `writeError` that of a block's
common write-error register, and `sqcAfter` what a write leaves. -/
def Obligations.EventBitsAreStamped : Prop :=
  (∀ (s : State) (r : Reg) (u b j : Nat), b < 24 → j < 24 → j ≠ b →
    ((s.event r u b).sqc r u).seq = (s.sqc r u).seq + 1 ∧
    ((s.event r u b).sqc r u).ev.getLsbD b = true ∧
    ((s.event r u b).sqc r u).stamps.get b = some ((s.sqc r u).seq + 1) ∧
    ((s.event r u b).sqc r u).ev.getLsbD j = (s.sqc r u).ev.getLsbD j ∧
    ((s.event r u b).sqc r u).stamps.get j = (s.sqc r u).stamps.get j) ∧
  (∀ (s : State) (req k off al cause b : Nat) (c d : SqcCell), c = s.regs.werr.getD (werrKey req k) SqcCell.clear →
    d = (writeError s req k off al cause).regs.werr.getD (werrKey req k) SqcCell.clear → b = (if c.ev.getLsbD 0 then 1 else 0) →
    d.seq = c.seq + 1 ∧ d.ev.getLsbD b = true ∧ d.stamps.get b = some (c.seq + 1)) ∧
  (∀ (c : SqcCell) (v : W32), (sqcAfter c v).seq = c.seq ∧ (sqcAfter c v).stamps = c.stamps)

/-- A write to an SQC register whose S is not stale (R85): `sqcWrite` is what every path to such a register does. -/
def Obligations.WriteClearsEventsUpToItsSeq : Prop :=
  (∀ (c : SqcCell) (v : W32) (b : Nat), b < 24 →
    ((sqcAfter c v).ev.getLsbD b = false ↔ c.ev.getLsbD b = false ∨
      (v.getLsbD b = true ∧ (c.seq - BitVec.ofNat 8 (v.toNat / 2 ^ 24)).toNat ≤ (c.seq - c.stamps.getD b 0).toNat)) ∧
    (sqcAfter c v).seq = c.seq ∧ (sqcAfter c v).stamps = c.stamps) ∧
  (∀ (s t u : State) (req : Nat) (r : Reg) (n x : Nat) (v : W32), staleSeq (s.sqc r n) v = false → t = sqcWrite s req r n x v →
    u = s.mapRegs (fun g => { g with sqc := g.sqc.put (regKey r n) (sqcAfter (s.sqc r n) v) }) →
    (r = .pwrEvent ∧ s.power.overvolt ≠ [] ∧ (s.sqc r n).ev.getLsbD 2 = true ∧ (u.sqc r n).ev.getLsbD 2 = false →
      t = u.event .pwrEvent 0 2) ∧
    (¬ (r = .pwrEvent ∧ s.power.overvolt ≠ [] ∧ (s.sqc r n).ev.getLsbD 2 = true ∧ (u.sqc r n).ev.getLsbD 2 = false) →
      t = u ∧ t.sqc r n = sqcAfter (s.sqc r n) v)) ∧
  (∀ (s : State) (b x u : Nat) (r : Reg) (v : W32), b < 18 → x < 2 ^ 18 → x % 4 = 0 → resolve 0 b x = .reg r u → r.row.acc = .sqc →
    s.regs.fencedBlocks.contains b = false →
    exec (.sqcWrite 0 (2 ^ 20 * b + x) v) s = .next (sqcWrite s 0 r u x v))

/-- A stale write (R86); the first latched error stays (R69). -/
def Obligations.StaleWriteClearsNothing : Prop :=
  (∀ (s t : State) (req : Nat) (r : Reg) (n x : Nat) (v : W32) (c : SqcCell),
    128 ≤ ((s.sqc r n).seq - BitVec.ofNat 8 (v.toNat / 2 ^ 24)).toNat → t = sqcWrite s req r n x v →
    c = s.regs.werr.getD (werrKey req r.row.block) SqcCell.clear →
    t.regs.sqc = s.regs.sqc ∧
    (t.regs.werr.getD (werrKey req r.row.block) SqcCell.clear).ev.getLsbD 0 = true ∧
    (c.ev.getLsbD 0 = false → t.regs.werrInfo.get (werrKey req r.row.block) = some
      { offset := x, alias_ := 0, cause := werrStaleSeq, fn := req })) ∧
  (∀ (s : State) (b x u : Nat) (r : Reg) (v : W32), b < 18 → x < 2 ^ 18 → x % 4 = 0 → resolve 0 b x = .reg r u → r.row.acc = .sqc →
    s.regs.fencedBlocks.contains b = false →
    exec (.sqcWrite 0 (2 ^ 20 * b + x) v) s = .next (sqcWrite s 0 r u x v))

/-- Unmapped addresses (R63). -/
def Obligations.UnmappedAddressesReadZero : Prop :=
  (∀ (s : State) (req b x al : Nat), reaches s req = true → b < 18 → x < 2 ^ 18 → al < 4 → x % 4 = 0 → blockSeen req b = true → resolve req b x = .unmapped →
    exec (.loRegisterRead req ⟨2 ^ 20 * b + 2 ^ 18 * al + x, false⟩) s = .next (s.mapRegs fun g => { g with readData := g.readData.put (min req 127) 0 }) ∧
    ∀ (be : BitVec 8) (d : W64), be.toNat % 16 ≠ 0 →
      exec (.registerWrite req (2 ^ 20 * b + 2 ^ 18 * al + x) false be d) s = .next (writeError s req b x al werrUnmapped)) ∧
  (∀ (s : State) (req a : Nat), reaches s req = true → 0x1200000 ≤ a → a ≤ 0x3FFFFFF → a % 4 = 0 →
    exec (.loRegisterRead req ⟨a, false⟩) s = .next (s.mapRegs fun g => { g with readData := g.readData.put (min req 127) 0 }) ∧
    ∀ (be : BitVec 8) (d : W64), be.toNat % 16 ≠ 0 →
      exec (.registerWrite req a false be d) s = .next (writeError s req 0 (a % 2 ^ 18) (a / 2 ^ 18 % 4) werrUnmapped)) ∧
  (∀ (s : State) (req b off al cause : Nat),
    (∃ w i a f, writeError s req b off al cause =
      (s.mapRegs fun g => { g with werr := w, werrInfo := i }).mapHost fun h => { h with msix := a, fns := f }) ∧
    ((writeError s req b off al cause).regs.werr.getD (werrKey req b) SqcCell.clear).ev.getLsbD 0 = true ∧
    ((s.regs.werr.getD (werrKey req b) SqcCell.clear).ev.getLsbD 0 = false →
      (writeError s req b off al cause).regs.werrInfo.get (werrKey req b) = some { offset := off, alias_ := al, cause := cause, fn := req }))

/-- LO and HI pairs (R66). -/
def Obligations.LowReadLatchesHigh : Prop :=
  (∀ (s : State) (req u : Nat) (lo hi : Reg), (lo, hi) ∈ hiPairs →
    regRead s req lo u 0 = (s.mapRegs fun g => { g with hiLatch := g.hiLatch.put (latchKey req hi u) (regView s req hi u) }, regView s req lo u) ∧
    (regRead s req lo u 0).1.regs.hiLatch.get (latchKey req hi u) = some (regView s req hi u) ∧
    ∀ q, q < 127 → req < 127 → q ≠ req →
      (regRead s req lo u 0).1.regs.hiLatch.get (latchKey q hi u) = s.regs.hiLatch.get (latchKey q hi u)) ∧
  (∀ (s : State) (req u : Nat) (lo hi : Reg) (h : W32), (lo, hi) ∈ hiPairs → s.regs.hiLatch.get (latchKey req hi u) = some h →
    regRead s req hi u 0 = (s.mapRegs fun g => { g with hiLatch := g.hiLatch.del (latchKey req hi u) }, h)) ∧
  (∀ (s : State) (req u : Nat) (lo hi : Reg), (lo, hi) ∈ hiPairs → s.regs.hiLatch.get (latchKey req hi u) = none →
    regRead s req hi u 0 = (s, regView s req hi u))

/-- The status of a batch (R555). -/
def Obligations.BatchStatusIsTheFirstFailure : Prop :=
  (∀ (s : State) (n : Nat) (c : Cmd), s.host.cmds.get n = some c → c.phase = .running → c.total ≤ c.next → c.total ≤ c.outs.length →
    c.outs.any EntryOut.open_ = false →
    ∃ d, (endBatch s n).host.cmds.get n = some d ∧ d.phase = .done ∧ d.outs = c.outs ∧ d.status = batchStatus c.outs) ∧
  (∀ outs : List EntryOut, (∀ o ∈ outs, o.status = 0) → batchStatus outs = 0) ∧
  (∀ (a b : List EntryOut) (o : EntryOut), (∀ p ∈ a, p.status = 0) → o.status ≠ 0 →
    (o.status = stFaultedNone → (∃ p ∈ a ++ o :: b, p.status = 0) → batchStatus (a ++ o :: b) = stFaultedPartial) ∧
    (o.status ≠ stFaultedNone ∨ (∀ p ∈ a ++ o :: b, p.status ≠ 0) → batchStatus (a ++ o :: b) = o.status))

/-- The step and the queue. -/
def Obligations.StepRunsFrontCommand : Prop :=
  (∀ (s : State) (c : Instr) (q : List Instr), s.pending = c :: q → step s = exec c { s with pending := q }) ∧
  (∀ s : State, s.pending = [] → step s = .next (tickAlwaysOn s)) ∧
  (∀ s : State, (tickAlwaysOn s).pending = s.pending ∧
    tickAlwaysOn s = if s.power.held then s else s.mapPower fun p => { p with rtcCycles := p.rtcCycles + 1 })

/-- The queue belongs to the step alone. -/
def Obligations.ExecAnswersAndKeepsTheQueue : Prop :=
  ∀ (c : Instr) (s : State), ∃ t, exec c s = .next t ∧ t.pending = s.pending

/-- Memory at reset (log entries 2 and 4). -/
def Obligations.ResetMemoriesCanonical : Prop :=
  memoryOk State.reset = true ∧
  State.reset.mem.t1 = [] ∧ State.reset.mem.t3 = [] ∧ State.reset.lichen.t2 = [] ∧ State.reset.host.mem = [] ∧
  (∀ a, tierRead State.reset.mem.t1 a 1 = [0]) ∧ (∀ a, tierRead State.reset.lichen.t2 a 1 = [0])

/-- The canonical form of the memories is an invariant of every step, from every state that has it. -/
def Obligations.StepKeepsMemoriesCanonical : Prop :=
  ∀ s t : State, memoryOk s = true → step s = .next t → memoryOk t = true

/-- Reading a byte after a store. -/
def Obligations.StoresChangeTheirBytesOnly : Prop :=
  (∀ (m : Smap Nat) (a i : Nat) (b : List Byte), memWf 0 m = true →
    tierRead (tierWrite m a b) i 1 = if a ≤ i ∧ i < a + b.length then [b.getD (i - a) 0] else tierRead m i 1) ∧
  (∀ (m : Smap Byte) (a i : Nat) (b : List Byte), memWf 0 m = true →
    (memWrite m a b).getD i 0 = if a ≤ i ∧ i < a + b.length then b.getD (i - a) 0 else m.getD i 0)

/-- The active configuration and the epoch (R19, R22, R29). -/
def Obligations.ConfigChangesOnlyAtBoundaryOrReset : Prop :=
  ∀ (c : Instr) (s t : State), exec c s = .next t →
    (match c with
      | .epochStrobe .. => False
      | .firstStrobe .. => False
      | .warmReset .. => False
      | .coldReset .. => False
      | .clockLoss .. => False
      | .mainPwrokFall .. => False
      | .registerWrite .. => False
      | .regWrite .. => False
      | _ => True) →
    t.img.cfg = s.img.cfg ∧ t.epoch.cur = s.epoch.cur

/-- Frames of power, start-up and register access: an equation names each field that a command may change, `changesOnly` the parts. -/
def Obligations.PowerAndRegisterFrames : Prop :=
  (∀ (s t : State), exec Instr.perstNDeassert s = .next t →
    t = { s with power := { s.power with linkTrains := t.power.linkTrains, perst := t.power.perst } }) ∧
  (∀ (s t : State) (part : Nat), exec (Instr.partitionScrubStep part) s = .next t →
    t = { s with
      img := { s.img with scrubStep := t.img.scrubStep }
      lichen := { s.lichen with shadow := t.lichen.shadow, t2 := t.lichen.t2, t2poison := t.lichen.t2poison }
      mem := { s.mem with lines := t.mem.lines, t1 := t.mem.t1, t3 := t.mem.t3, t3poison := t.mem.t3poison } }) ∧
  (∀ (req : Nat) (v : W32) (host : HostWrites), changesOnly (Instr.imgStage req v host) [.regs, .img, .host, .shards, .sec, .usnea, .power]) ∧
  (∀ (req : Nat) (v : W32), changesOnly (Instr.imgAbort req v) [.regs, .img, .host, .shards, .sec, .usnea, .power]) ∧
  (∀ (slot : Nat), changesOnly (Instr.imageVerifyDone slot) [.regs, .img, .host, .usnea]) ∧
  (∀ (req addr : Nat) (wide : Bool) (be : BitVec 8) (data : W64), changesOnly (Instr.registerWrite req addr wide be data)
    [.regs, .img, .host, .shards, .lichen, .epoch, .model, .mem, .felt, .twill, .own, .sec, .ras, .usnea, .power, .free]) ∧
  (∀ (req addr : Nat) (v : W32), changesOnly (Instr.sqcWrite req addr v) [.regs, .host, .sec, .power]) ∧
  (∀ (req addr : Nat) (v : Option W32), changesOnly (Instr.indDataAccess req addr v)
    [.regs, .host, .twill, .own, .sec, .ras, .usnea, .power, .free]) ∧
  (∀ (req : Nat) (addr : BarRead), changesOnly (Instr.loRegisterRead req addr)
    [.regs, .host, .shards, .lichen, .epoch, .model, .mem, .felt, .twill, .ras, .usnea, .power, .free]) ∧
  (∀ (req : Nat) (v : W32), changesOnly (Instr.updStrobe req v) [.regs, .host, .sec]) ∧
  (∀ (missed : List Nat), changesOnly (Instr.updateStrobeDone missed)
    [.regs, .host, .shards, .lichen, .epoch, .model, .mem, .felt, .twill, .ras, .usnea, .power, .free]) ∧
  (∀ (block : Nat) (upsets : List (Nat × Nat)), changesOnly (Instr.parityScan block upsets)
    [.regs, .host, .shards, .lichen, .epoch, .model, .mem, .felt, .twill, .ras, .usnea, .free]) ∧
  (∀ (req port : Nat), changesOnly (Instr.portRetrain req port) [.regs, .host, .twill, .sec, .ras, .usnea]) ∧
  (∀ (req port : Nat), changesOnly (Instr.portRetarget req port) [.regs, .host, .twill, .sec, .ras, .usnea]) ∧
  (∀ (req port : Nat), changesOnly (Instr.portDisable req port) [.regs, .host, .twill, .sec, .ras, .usnea]) ∧
  (∀ (req port lane : Nat), changesOnly (Instr.portSwap req port lane) [.regs, .host, .twill, .sec, .ras, .usnea]) ∧
  (∀ (req : Nat) (v : W32), changesOnly (Instr.mapApply req v) [.regs, .host, .mem, .twill, .own, .sec, .usnea]) ∧
  (∀ (req : Nat) (v : W32), changesOnly (Instr.claim req v) [.regs, .host, .mem, .twill, .own, .sec, .usnea]) ∧
  (∀ (req : Nat) (v : W32), changesOnly (Instr.tset req v) [.regs, .host, .mem, .twill, .own, .sec, .usnea]) ∧
  (∀ (req : Nat) (v : W32), changesOnly (Instr.ownAbort req v) [.regs, .host, .mem, .twill, .own, .sec, .usnea]) ∧
  (∀ (req : Nat) (v : W32), changesOnly (Instr.rasDrain req v)
    [.regs, .host, .shards, .lichen, .epoch, .model, .mem, .felt, .twill, .sec, .ras, .usnea, .power, .free]) ∧
  (∀ (req : Nat) (v : W32), changesOnly (Instr.rasFence req v)
    [.regs, .host, .shards, .lichen, .epoch, .model, .mem, .felt, .twill, .sec, .ras, .usnea, .power, .free]) ∧
  (∀ (req : Nat) (v : W32), changesOnly (Instr.rasRestore req v)
    [.regs, .host, .shards, .lichen, .epoch, .model, .mem, .felt, .twill, .sec, .ras, .usnea, .power, .free]) ∧
  (∀ (req : Nat) (v : W32), changesOnly (Instr.rasRetire req v)
    [.regs, .host, .shards, .lichen, .epoch, .model, .mem, .felt, .twill, .sec, .ras, .usnea, .power, .free]) ∧
  (∀ (kind unit cls : Nat) (addr : Nat), changesOnly (Instr.unitFault kind unit cls addr)
    [.regs, .img, .host, .shards, .lichen, .epoch, .model, .mem, .felt, .twill, .own, .sec, .ras, .usnea, .power, .free]) ∧
  (∀ (kind unit : Nat) (ok : Bool), changesOnly (Instr.returnWorkDone kind unit ok)
    [.regs, .img, .host, .shards, .lichen, .epoch, .model, .mem, .felt, .twill, .own, .sec, .ras, .usnea, .power]) ∧
  (∀ (ch : Nat) (ok : Bool) (org : Nat), changesOnly (Instr.ddrTraining ch ok org) [.regs, .host, .mem, .usnea, .power]) ∧
  (∀ (s t : State) (domain : Nat), exec (Instr.domainIdleGate domain) s = .next t →
    t = { s with power := { s.power with domains := t.power.domains } }) ∧
  (∀ (s t : State) (domain : Nat), exec (Instr.domainWake domain) s = .next t →
    t = { s with power := { s.power with domains := t.power.domains } }) ∧
  (∀ (s t : State) (watts : List (Nat × Nat)), exec (Instr.powerEstimate watts) s = .next t →
    t = { s with
      regs := { s.regs with sqc := t.regs.sqc }
      host := { s.host with fns := t.host.fns, msix := t.host.msix }
      power := { s.power with domains := t.power.domains } }) ∧
  (∀ (s t : State) (meanW inputW : Nat), exec (Instr.powerCalibrate meanW inputW) s = .next t →
    t = { s with
      regs := { s.regs with sqc := t.regs.sqc }
      host := { s.host with fns := t.host.fns, msix := t.host.msix }
      power := { s.power with adedan := t.power.adedan, domains := t.power.domains, powerW := t.power.powerW, scale := t.power.scale } }) ∧
  (∀ (temps : List Int), changesOnly (Instr.tempSample temps) [.regs, .host, .ras, .usnea, .power]) ∧
  (∀ (s t : State) (monitor : Nat) (above : Bool), exec (Instr.overvoltage monitor above) s = .next t →
    t = { s with
      regs := { s.regs with sqc := t.regs.sqc }
      host := { s.host with fns := t.host.fns, msix := t.host.msix }
      power := { s.power with overvolt := t.power.overvolt } }) ∧
  (∀ (s t : State) (domain mhz : Nat), exec (Instr.voltageDroop domain mhz) s = .next t →
    t = { s with power := { s.power with domains := t.power.domains } }) ∧
  (∀ (s t : State) (replies : List (Option (List Nat))), exec (Instr.regulatorPoll replies) s = .next t →
    t = { s with
      regs := { s.regs with sqc := t.regs.sqc }
      host := { s.host with fns := t.host.fns, msix := t.host.msix }
      power := { s.power with badRegs := t.power.badRegs, telemetry := t.power.telemetry } }) ∧
  (∀ (req : Nat) (pin : Bool), changesOnly (Instr.warmReset req pin)
    [.regs, .img, .host, .shards, .lichen, .epoch, .model, .mem, .felt, .twill, .own, .sec, .ras, .usnea, .power]) ∧
  (∀ (aonLow : Bool), changesOnly (Instr.coldReset aonLow)
    [.regs, .img, .host, .shards, .lichen, .epoch, .model, .mem, .felt, .twill, .own, .sec, .ras, .usnea, .power]) ∧
  (∀ (s t : State), exec Instr.aonPwrokRise s = .next t →
    t = { s with power := { s.power with aonOk := t.power.aonOk, held := t.power.held } }) ∧
  (∀ (s t : State), exec Instr.mainPwrokRise s = .next t →
    t = { s with power := { s.power with linkTrains := t.power.linkTrains, mainOk := t.power.mainOk } }) ∧
  (∀ (aonToo : Bool), changesOnly (Instr.mainPwrokFall aonToo)
    [.regs, .img, .host, .shards, .lichen, .epoch, .model, .mem, .felt, .twill, .own, .sec, .ras, .usnea, .power]) ∧
  (changesOnly Instr.clockLoss [.regs, .img, .host, .shards, .lichen, .epoch, .model, .mem, .felt, .twill, .own, .sec, .ras, .usnea, .power]) ∧
  (∀ (s t : State), exec Instr.rtcOscStop s = .next t →
    t = { s with
      regs := { s.regs with sqc := t.regs.sqc }
      host := { s.host with fns := t.host.fns, msix := t.host.msix }
      power := { s.power with oscStopped := t.power.oscStopped } }) ∧
  (∀ (outcome : StageOutcome), changesOnly (Instr.startupStage outcome) [.regs, .img, .host, .sec, .usnea, .power]) ∧
  (∀ (req : Nat) (v : W32), changesOnly (Instr.mbxDoorbell req v) [.regs, .host, .sec, .usnea]) ∧
  (∀ (s t : State), exec Instr.rtcEdge s = .next t →
    t = { s with
      power := { s.power with oscStopped := t.power.oscStopped, rtcBase := t.power.rtcBase, rtcCycles := t.power.rtcCycles } }) ∧
  (∀ (s t : State), exec Instr.alwaysOnClockReturn s = .next t →
    t = { s with power := { s.power with clockLost := t.power.clockLost, held := t.power.held } })

/-- Frames of the host queues and search: an equation names each field that a command may change, `changesOnly` the parts. -/
def Obligations.QueueAndSearchFrames : Prop :=
  (∀ (fn q : Nat) (v : W32) (host : HostWrites), changesOnly (Instr.sqDoorbell fn q v host) [.regs, .host, .sec]) ∧
  (∀ (fn q : Nat) (v : W32), changesOnly (Instr.cqDoorbell fn q v) [.regs, .host, .sec]) ∧
  (∀ (s t : State) (qp : Nat), exec (Instr.entryFetch qp) s = .next t →
    t = { s with
      regs := { s.regs with ro := t.regs.ro }
      host := { s.host with qps := t.host.qps }
      mem := { s.mem with bucket := t.mem.bucket, waiting := t.mem.waiting } }) ∧
  (changesOnly Instr.admissionSlot [.regs, .host, .lichen, .mem, .twill, .sec]) ∧
  (∀ (s t : State), exec Instr.creditTick s = .next t →
    t = { s with host := { s.host with qps := t.host.qps } }) ∧
  (∀ (cmd : Nat), changesOnly (Instr.completionWrite cmd)
    [.regs, .img, .host, .shards, .lichen, .epoch, .model, .mem, .felt, .twill, .ras, .usnea, .free]) ∧
  (∀ (s t : State) (qp : Nat), exec (Instr.aggTimeExpiry qp) s = .next t →
    t = { s with host := { s.host with fns := t.host.fns, msix := t.host.msix, qps := t.host.qps } }) ∧
  (∀ (s t : State) (fn : Nat), exec (Instr.eventGapExpiry fn) s = .next t →
    t = { s with host := { s.host with fns := t.host.fns, msix := t.host.msix } }) ∧
  (∀ (s t : State) (req fn q : Nat), exec (Instr.qpEnable req fn q) s = .next t →
    t = { s with
      regs := { s.regs with force := t.regs.force, sqc := t.regs.sqc, werr := t.regs.werr, werrInfo := t.regs.werrInfo }
      host := { s.host with fns := t.host.fns, msix := t.host.msix, qps := t.host.qps } }) ∧
  (∀ (s t : State) (req fn q : Nat), exec (Instr.qpDisable req fn q) s = .next t →
    t = { s with
      regs := { s.regs with force := t.regs.force, sqc := t.regs.sqc, werr := t.regs.werr, werrInfo := t.regs.werrInfo }
      host := { s.host with fns := t.host.fns, msix := t.host.msix, qps := t.host.qps } }) ∧
  (∀ (s t : State) (qp : Nat), exec (Instr.qpDrainEnd qp) s = .next t →
    t = { s with
      regs := { s.regs with force := t.regs.force, sqc := t.regs.sqc }
      host := { s.host with fns := t.host.fns, msix := t.host.msix, qps := t.host.qps } }) ∧
  (∀ (s t : State), exec Instr.telemetrySample s = .next t →
    t = { s with regs := { s.regs with force := t.regs.force }, host := { s.host with qps := t.host.qps } }) ∧
  (∀ (s t : State) (fn : Nat), exec (Instr.functionLevelReset fn) s = .next t →
    t = { s with
      regs := { s.regs with force := t.regs.force, sqc := t.regs.sqc, werr := t.regs.werr, werrInfo := t.regs.werrInfo }
      img := { s.img with vfOff := t.img.vfOff }
      host := { s.host with fns := t.host.fns, msix := t.host.msix, qps := t.host.qps } }) ∧
  (∀ (s t : State) (fn : Nat), exec (Instr.d3hotEntry fn) s = .next t →
    t = { s with
      regs := { s.regs with force := t.regs.force, sqc := t.regs.sqc, werr := t.regs.werr, werrInfo := t.regs.werrInfo }
      img := { s.img with vfOff := t.img.vfOff }
      host := { s.host with fns := t.host.fns, msix := t.host.msix, qps := t.host.qps } }) ∧
  (changesOnly Instr.hostPortReset [.regs, .img, .host]) ∧
  (∀ (s t : State) (vf : Nat), exec (Instr.vfDisable vf) s = .next t →
    t = { s with img := { s.img with vfOff := t.img.vfOff } }) ∧
  (∀ (use : T4Use), changesOnly (Instr.t4ReadTimeout use) [.regs, .host, .lichen, .twill, .ras, .usnea]) ∧
  (∀ (use : T4Use), changesOnly (Instr.t4AccessError use) [.regs, .host, .lichen, .twill, .ras, .usnea]) ∧
  (∀ (rate width : Nat) (flit cxl : Bool), changesOnly (Instr.linkChange rate width flit cxl) [.regs, .img, .host]) ∧
  (∀ (cmd : Nat), changesOnly (Instr.search cmd) [.regs, .host, .lichen, .model, .mem, .twill, .free]) ∧
  (∀ (cmd : Nat), changesOnly (Instr.sweep cmd) [.regs, .host, .lichen, .model, .mem, .twill, .free]) ∧
  (∀ (query tile : Nat), changesOnly (Instr.walkStart query tile) [.regs, .host, .lichen, .model, .mem, .twill, .ras]) ∧
  (∀ (part index : Nat) (fresh : Bool), changesOnly (Instr.sweepBatchStart part index fresh)
    [.regs, .host, .shards, .lichen, .epoch, .model, .mem, .twill, .sec, .ras, .usnea, .free]) ∧
  (∀ (bank : Nat), changesOnly (Instr.sweepResultRecord bank) [.regs, .host, .lichen, .model, .mem, .twill, .ras, .free]) ∧
  (∀ (query : Nat), changesOnly (Instr.listEntryArrive query) [.regs, .host, .lichen, .model, .mem, .twill, .ras]) ∧
  (∀ (query : Nat), changesOnly (Instr.rescoreReadDone query) [.regs, .host, .lichen, .model, .mem, .twill, .ras]) ∧
  (∀ (win rg : Nat), changesOnly (Instr.disagreeCrcCheck win rg)
    [.regs, .host, .shards, .lichen, .epoch, .model, .mem, .twill, .ras, .usnea, .free]) ∧
  (∀ (query : Nat), changesOnly (Instr.deadlineExpiry query) [.regs, .host, .lichen, .model, .mem, .twill, .ras]) ∧
  (∀ (query : Nat), changesOnly (Instr.deadlineGraceExpiry query) [.regs, .host, .lichen, .model, .mem, .twill, .ras]) ∧
  (∀ (stack : Nat), changesOnly (Instr.sweepStepEnd stack)
    [.regs, .host, .shards, .lichen, .epoch, .model, .mem, .twill, .sec, .ras, .usnea, .free]) ∧
  (∀ (s t : State) (fn vector : Nat), exec (Instr.msixVectorUnmask fn vector) s = .next t →
    t = { s with host := { s.host with fns := t.host.fns, msix := t.host.msix } }) ∧
  (∀ (s t : State) (vf : Nat), exec (Instr.vfEnable vf) s = .next t →
    t = { s with img := { s.img with vfOff := t.img.vfOff } })

/-- Frames of the banks, the memory tiers and flash: an equation names each field that a command may change, `changesOnly` the parts. -/
def Obligations.MemoryAndFlashFrames : Prop :=
  (∀ (hpa : W64) (data : Option (List Byte)), changesOnly (Instr.cxlMemRequest hpa data) [.regs, .lichen, .mem]) ∧
  (∀ (off len : Nat) (data : Option (List Byte)), changesOnly (Instr.bar4Access off len data) [.regs, .lichen, .mem]) ∧
  (∀ (s t : State) (base : W64), exec (Instr.hdmDecoderCommit base) s = .next t →
    t = { s with mem := { s.mem with cxlDecoded := t.mem.cxlDecoded, hdmBase := t.mem.hdmBase } }) ∧
  (∀ (cmd : Nat), changesOnly (Instr.zoneOpen cmd) [.host, .lichen, .felt, .twill]) ∧
  (∀ (cmd : Nat), changesOnly (Instr.zoneAppend cmd) [.regs, .host, .lichen, .mem, .felt, .twill]) ∧
  (∀ (cmd : Nat), changesOnly (Instr.zoneFinish cmd) [.host, .lichen, .felt, .twill]) ∧
  (∀ (cmd : Nat), changesOnly (Instr.zoneReset cmd) [.host, .lichen, .felt, .twill]) ∧
  (∀ (cmd : Nat), changesOnly (Instr.zoneReport cmd) [.regs, .host, .lichen, .felt, .twill]) ∧
  (∀ (part zone : Nat), changesOnly (Instr.zoneResetErase part zone) [.host, .lichen, .felt, .twill]) ∧
  (∀ (stack : Nat) (hdr : W64) (payload : List Byte) (tag : Nat), changesOnly (Instr.gather stack hdr payload tag)
    [.regs, .host, .lichen, .sec]) ∧
  (∀ (s t : State) (stack : Nat) (hdr : W64) (payload : List Byte), exec (Instr.slotLoad stack hdr payload) s = .next t →
    t = { s with
      regs := { s.regs with sqc := t.regs.sqc }
      host := { s.host with fns := t.host.fns, msix := t.host.msix }
      lichen := { s.lichen with qslots := t.lichen.qslots } }) ∧
  (∀ (s t : State) (stack : Nat) (hdr : W64) (payload : List Byte), exec (Instr.slotThresh stack hdr payload) s = .next t →
    t = { s with
      regs := { s.regs with sqc := t.regs.sqc }
      host := { s.host with fns := t.host.fns, msix := t.host.msix }
      lichen := { s.lichen with qslots := t.lichen.qslots, stk := t.lichen.stk } }) ∧
  (∀ (s t : State) (stack : Nat) (hdr : W64) (payload : List Byte), exec (Instr.slotFree stack hdr payload) s = .next t →
    t = { s with
      regs := { s.regs with sqc := t.regs.sqc }
      host := { s.host with fns := t.host.fns, msix := t.host.msix }
      lichen := { s.lichen with qslots := t.lichen.qslots } }) ∧
  (∀ (stack : Nat) (hdr : W64) (payload : List Byte) (flips : List (Nat × Nat)), changesOnly (Instr.sweepStep stack hdr payload flips)
    [.regs, .host, .shards, .lichen, .epoch, .model, .mem, .twill, .sec, .ras, .usnea, .free]) ∧
  (∀ (stack : Nat) (hdr : W64) (payload : List Byte), changesOnly (Instr.fill stack hdr payload)
    [.regs, .host, .shards, .lichen, .epoch, .model, .mem, .twill, .sec, .ras, .usnea, .free]) ∧
  (∀ (stack : Nat) (hdr : W64) (payload : List Byte) (flips : List (Nat × Nat)), changesOnly (Instr.scrub stack hdr payload flips)
    [.regs, .host, .shards, .lichen, .epoch, .model, .mem, .twill, .sec, .ras, .usnea, .free]) ∧
  (∀ (stack : Nat) (hdr : W64) (payload : List Byte), changesOnly (Instr.repair stack hdr payload)
    [.regs, .host, .shards, .lichen, .epoch, .model, .mem, .twill, .sec, .ras, .usnea, .free]) ∧
  (∀ (stack bank : Nat), changesOnly (Instr.gapMaxExpiry stack bank)
    [.regs, .host, .shards, .lichen, .epoch, .model, .mem, .twill, .ras, .usnea, .free]) ∧
  (∀ (bank tag addr len : Nat) (data : List Byte), changesOnly (Instr.bankRequest bank tag addr len data) [.regs, .host, .lichen, .sec]) ∧
  (∀ (stack : Nat) (late : Bool), changesOnly (Instr.scrubTick stack late)
    [.regs, .host, .shards, .lichen, .epoch, .model, .mem, .twill, .sec, .ras, .usnea, .free]) ∧
  (∀ (stack win rg : Nat) (ok : Bool), changesOnly (Instr.rowGroupRebuild stack win rg ok) [.regs, .host, .lichen, .ras, .usnea, .free]) ∧
  (∀ (src dst cmd : Nat) (crcOk : Bool), changesOnly (Instr.swatchMove src dst cmd crcOk)
    [.regs, .host, .shards, .lichen, .epoch, .mem, .twill, .sec, .ras, .usnea]) ∧
  (changesOnly Instr.regulatorRefill [.regs, .lichen, .mem]) ∧
  (∀ (s t : State) (temps : List Nat), exec (Instr.dqsOscTick temps) s = .next t →
    t = { s with
      regs := { s.regs with ro := t.regs.ro, sqc := t.regs.sqc }
      host := { s.host with fns := t.host.fns, msix := t.host.msix } }) ∧
  (∀ (ch line : Nat) (result : LineRead), changesOnly (Instr.ddrPatrolRead ch line result) [.regs, .host, .mem, .ras, .usnea]) ∧
  (∀ (ch : Nat) (ok : Bool) (ids : List (Nat × Nat × List Nat)), changesOnly (Instr.nandTraining ch ok ids)
    [.regs, .host, .felt, .sec, .ras, .power]) ∧
  (∀ (laddr : Nat) (step : LadderStep), changesOnly (Instr.codewordRead laddr step)
    [.regs, .host, .shards, .epoch, .felt, .ras, .usnea, .free]) ∧
  (∀ (block : Nat), changesOnly (Instr.nandProgramFail block) [.regs, .host, .epoch, .felt, .free]) ∧
  (∀ (block : Nat), changesOnly (Instr.nandEraseFail block) [.regs, .host, .felt]) ∧
  (∀ (die : Nat), changesOnly (Instr.dieFence die)
    [.regs, .host, .shards, .lichen, .epoch, .model, .mem, .felt, .twill, .ras, .usnea, .free]) ∧
  (∀ (s t : State) (block dest : Nat), exec (Instr.garbageCollection block dest) s = .next t →
    t = { s with
      regs := { s.regs with ro := t.regs.ro }
      felt := { s.felt with blocks := t.felt.blocks, map := t.felt.map, parity := t.felt.parity, sinceCkpt := t.felt.sinceCkpt, wseq := t.felt.wseq } }) ∧
  (∀ (s t : State) (block dest : Nat), exec (Instr.wearLevelMove block dest) s = .next t →
    t = { s with
      regs := { s.regs with ro := t.regs.ro }
      felt := { s.felt with blocks := t.felt.blocks, map := t.felt.map, parity := t.felt.parity, sinceCkpt := t.felt.sinceCkpt, wseq := t.felt.wseq } }) ∧
  (∀ (s t : State) (block dest : Nat), exec (Instr.blockRefresh block dest) s = .next t →
    t = { s with
      regs := { s.regs with ro := t.regs.ro }
      felt := { s.felt with blocks := t.felt.blocks, map := t.felt.map, parity := t.felt.parity, sinceCkpt := t.felt.sinceCkpt, wseq := t.felt.wseq } }) ∧
  (∀ (s t : State) (block dest : Nat), exec (Instr.fastCellFold block dest) s = .next t →
    t = { s with
      regs := { s.regs with ro := t.regs.ro }
      felt := { s.felt with blocks := t.felt.blocks, map := t.felt.map, parity := t.felt.parity, sinceCkpt := t.felt.sinceCkpt, wseq := t.felt.wseq } }) ∧
  (∀ (s t : State) (block corrected : Nat), exec (Instr.flashPatrol block corrected) s = .next t →
    t = { s with regs := { s.regs with ro := t.regs.ro }, felt := { s.felt with blocks := t.felt.blocks, patrol := t.felt.patrol } }) ∧
  (∀ (s t : State), exec Instr.mapCheckpoint s = .next t →
    t = { s with felt := { s.felt with mapCkpt := t.felt.mapCkpt, sinceCkpt := t.felt.sinceCkpt } }) ∧
  (∀ (s t : State), exec Instr.mapRebuild s = .next t →
    t = { s with felt := { s.felt with map := t.felt.map, ready := t.felt.ready } }) ∧
  (∀ (s t : State) (temps : List (Nat × Int)), exec (Instr.dieTempRead temps) s = .next t →
    t = { s with
      regs := { s.regs with ro := t.regs.ro, sqc := t.regs.sqc }
      host := { s.host with fns := t.host.fns, msix := t.host.msix }
      felt := { s.felt with dies := t.felt.dies } }) ∧
  (∀ (s t : State), exec Instr.healthRecordWrite s = .next t →
    t = { s with felt := { s.felt with health := t.felt.health, healthTemps := t.felt.healthTemps } })

/-- Frames of updates, indexes, epochs and models: an equation names each field that a command may change, `changesOnly` the parts. -/
def Obligations.UpdateAndModelFrames : Prop :=
  (∀ (cmd : Nat), changesOnly (Instr.insert cmd) [.regs, .host, .shards, .lichen, .epoch, .twill, .free]) ∧
  (∀ (cmd : Nat), changesOnly (Instr.upsert cmd) [.regs, .host, .shards, .lichen, .epoch, .twill, .free]) ∧
  (∀ (cmd : Nat), changesOnly (Instr.delete cmd) [.regs, .host, .shards, .lichen, .epoch, .twill, .free]) ∧
  (∀ (cmd : Nat), changesOnly (Instr.attrSet cmd) [.regs, .host, .shards, .lichen, .epoch, .twill, .free]) ∧
  (∀ (cmd : Nat), changesOnly (Instr.embed cmd) [.regs, .host, .lichen, .model, .mem, .twill]) ∧
  (∀ (cmd : Nat), changesOnly (Instr.embedInsert cmd) [.regs, .host, .shards, .lichen, .epoch, .model, .mem, .twill, .free]) ∧
  (∀ (cmd : Nat), changesOnly (Instr.rerank cmd) [.regs, .host, .lichen, .model, .mem, .twill]) ∧
  (∀ (cmd : Nat), changesOnly (Instr.epochFence cmd) [.host, .lichen, .epoch, .twill]) ∧
  (∀ (cmd : Nat), changesOnly (Instr.epochPin cmd) [.host, .lichen, .epoch, .twill]) ∧
  (∀ (cmd : Nat), changesOnly (Instr.epochUnpin cmd) [.host, .lichen, .epoch, .twill]) ∧
  (∀ (cmd : Nat), changesOnly (Instr.indexCreate cmd) [.regs, .host, .shards, .lichen, .felt, .twill, .free]) ∧
  (∀ (cmd : Nat), changesOnly (Instr.indexDescribe cmd) [.regs, .host, .lichen, .twill]) ∧
  (∀ (cmd : Nat), changesOnly (Instr.indexRetire cmd) [.host, .shards, .lichen, .twill]) ∧
  (∀ (cmd : Nat), changesOnly (Instr.indexRelocate cmd) [.regs, .host, .shards, .lichen, .twill]) ∧
  (∀ (cmd : Nat), changesOnly (Instr.bulkLoad cmd) [.regs, .host, .shards, .lichen, .twill, .free]) ∧
  (∀ (cmd : Nat), changesOnly (Instr.seal cmd) [.regs, .host, .shards, .lichen, .twill]) ∧
  (∀ (cmd : Nat), changesOnly (Instr.histLoad cmd) [.regs, .host, .shards, .lichen, .twill]) ∧
  (∀ (cmd : Nat), changesOnly (Instr.linkSupply cmd) [.regs, .host, .shards, .lichen, .mem, .twill, .free]) ∧
  (∀ (cmd : Nat), changesOnly (Instr.modelStore cmd) [.regs, .host, .lichen, .model, .twill]) ∧
  (∀ (cmd : Nat), changesOnly (Instr.modelRemove cmd) [.host, .lichen, .model, .twill]) ∧
  (∀ (cmd : Nat), changesOnly (Instr.modelGroup cmd) [.host, .lichen, .model, .twill]) ∧
  (∀ (query : Nat), changesOnly (Instr.walkRoundReturn query) [.regs, .host, .shards, .lichen, .model, .mem, .twill, .ras, .free]) ∧
  (∀ (s t : State), exec Instr.prepare s = .next t →
    t = { s with
      regs := { s.regs with staged := t.regs.staged }
      shards := t.shards
      epoch := { s.epoch with prepared := t.epoch.prepared, ready := t.epoch.ready }
      ras := { s.ras with drawn := t.ras.drawn, units := t.ras.units } }) ∧
  (∀ (s t : State) (domain : Nat), exec (Instr.domainReady domain) s = .next t →
    t = { s with epoch := { s.epoch with ready := t.epoch.ready } }) ∧
  (changesOnly Instr.epochStrobe [.regs, .img, .host, .shards, .lichen, .epoch, .model, .mem, .felt, .twill, .own, .sec, .ras, .usnea, .power, .free]) ∧
  (∀ (s t : State) (domain : Nat) (epochBits : Nat), exec (Instr.strobeAck domain epochBits) s = .next t →
    t = { s with
      regs := { s.regs with replaced := t.regs.replaced, ro := t.regs.ro, sqc := t.regs.sqc }
      host := { s.host with fns := t.host.fns, msix := t.host.msix }
      epoch := { s.epoch with acked := t.epoch.acked, awaiting := t.epoch.awaiting, missed := t.epoch.missed } }) ∧
  (changesOnly Instr.ackTimeout [.regs, .img, .host, .shards, .lichen, .epoch, .model, .mem, .felt, .twill, .ras, .usnea, .free]) ∧
  (∀ (s t : State) (part epoch : Nat), exec (Instr.pinExpiry part epoch) s = .next t →
    t = { s with
      regs := { s.regs with sqc := t.regs.sqc }
      host := { s.host with fns := t.host.fns, msix := t.host.msix }
      epoch := { s.epoch with pins := t.epoch.pins } }) ∧
  (∀ (cmd : Nat), changesOnly (Instr.fullWaitExpiry cmd) [.regs, .host, .lichen, .epoch, .twill]) ∧
  (∀ (s t : State) (part : Nat), exec (Instr.journalPageClose part) s = .next t →
    t = { s with
      regs := { s.regs with ro := t.regs.ro }
      epoch := { s.epoch with journals := t.epoch.journals }
      mem := { s.mem with bucket := t.mem.bucket, waiting := t.mem.waiting } }) ∧
  (∀ (part jseq copy : Nat), changesOnly (Instr.journalProgramDone part jseq copy)
    [.regs, .host, .shards, .lichen, .epoch, .mem, .twill, .free]) ∧
  (∀ (part index tile : Nat), changesOnly (Instr.insertWalkStart part index tile)
    [.regs, .host, .shards, .lichen, .model, .mem, .twill, .ras, .free]) ∧
  (∀ (part index slot : Nat), changesOnly (Instr.backLink part index slot) [.regs, .host, .shards, .mem, .free]) ∧
  (∀ (part index slot : Nat), changesOnly (Instr.vectorStoreWriteDone part index slot) [.regs, .host, .shards, .mem, .felt, .free]) ∧
  (∀ (part index : Nat), changesOnly (Instr.settlerSettle part index) [.regs, .shards, .lichen, .mem, .free]) ∧
  (∀ (part index : Nat), changesOnly (Instr.settlerFold part index) [.regs, .shards, .lichen, .mem, .free]) ∧
  (∀ (part index : Nat), changesOnly (Instr.repairWalk part index) [.regs, .host, .shards, .lichen, .mem, .free]) ∧
  (∀ (s t : State) (part index : Nat), exec (Instr.checkpointStart part index) s = .next t →
    t = { s with
      regs := { s.regs with sqc := t.regs.sqc }
      host := { s.host with fns := t.host.fns, msix := t.host.msix }
      shards := t.shards
      felt := { s.felt with zoneWait := t.felt.zoneWait } }) ∧
  (∀ (part index : Nat), changesOnly (Instr.checkpointDone part index) [.regs, .host, .shards, .epoch, .mem, .felt, .sec, .free]) ∧
  (∀ (part index : Nat), changesOnly (Instr.shardRebuild part index) [.shards, .lichen, .mem, .free]) ∧
  (∀ (pkt : Packet), changesOnly (Instr.collective pkt) [.regs, .host, .model, .mem, .twill]) ∧
  (∀ (model : Nat) (ok again : Bool), changesOnly (Instr.modelRefetchDone model ok again)
    [.regs, .host, .shards, .lichen, .epoch, .model, .twill, .free]) ∧
  (∀ (model : Nat) (ok : Bool), changesOnly (Instr.modelCopyDone model ok) [.regs, .host, .shards, .lichen, .epoch, .model, .twill, .free]) ∧
  (∀ (batch : Nat), changesOnly (Instr.batchClose batch) [.regs, .host, .model, .mem, .twill]) ∧
  (∀ (lane : Nat), changesOnly (Instr.streamRoundStart lane) [.regs, .host, .model, .mem, .twill]) ∧
  (∀ (lane half : Nat), changesOnly (Instr.laneHalfRefill lane half) [.regs, .host, .shards, .lichen, .epoch, .model, .mem, .twill, .free]) ∧
  (∀ (batch : Nat), changesOnly (Instr.collectiveTimeout batch)
    [.regs, .host, .shards, .lichen, .epoch, .model, .twill, .ras, .usnea, .free]) ∧
  (changesOnly Instr.firstStrobe [.regs, .img, .host, .shards, .lichen, .epoch, .model, .mem, .felt, .twill, .own, .sec, .ras, .usnea, .power, .free])

/-- Frames of the Twill fabric and ownership: an equation names each field that a command may change, `changesOnly` the parts. -/
def Obligations.FabricAndOwnershipFrames : Prop :=
  (∀ (port : Nat), changesOnly (Instr.trainingStateTimeout port) [.regs, .host, .twill, .ras, .usnea]) ∧
  (∀ (s t : State) (port : Nat), exec (Instr.downRetry port) s = .next t →
    t = { s with twill := { s.twill with ports := t.twill.ports } }) ∧
  (∀ (port lane : Nat) (bytes : List Byte), changesOnly (Instr.trainingFrame port lane bytes) [.regs, .host, .twill, .ras, .usnea]) ∧
  (∀ (port : Nat) (bytes : List Byte), changesOnly (Instr.flitReceive port bytes) [.regs, .host, .twill]) ∧
  (∀ (s t : State) (port : Nat), exec (Instr.nakHoldExpiry port) s = .next t →
    t = { s with twill := { s.twill with ports := t.twill.ports } }) ∧
  (∀ (port lane : Nat), changesOnly (Instr.laneFailing port lane) [.regs, .host, .twill, .ras, .usnea]) ∧
  (∀ (s t : State) (port lane : Nat), exec (Instr.swapReq port lane) s = .next t →
    t = { s with twill := { s.twill with ports := t.twill.ports } }) ∧
  (∀ (s t : State) (port : Nat), exec (Instr.mirroredGroupsDecoded port) s = .next t →
    t = { s with
      regs := { s.regs with ro := t.regs.ro, sqc := t.regs.sqc }
      host := { s.host with fns := t.host.fns, msix := t.host.msix }
      twill := { s.twill with ports := t.twill.ports } }) ∧
  (∀ (port : Nat), changesOnly (Instr.swapDone port) [.regs, .host, .twill]) ∧
  (∀ (s t : State) (port : Nat), exec (Instr.retrainReq port) s = .next t →
    t = { s with twill := { s.twill with ports := t.twill.ports } }) ∧
  (∀ (port : Nat), changesOnly (Instr.retargetDrainEnd port) [.regs, .host, .twill]) ∧
  (∀ (port : Nat), changesOnly (Instr.portDown port) [.regs, .host, .twill, .ras, .usnea]) ∧
  (∀ (pkt : Packet), changesOnly (Instr.packetForward pkt) [.regs, .host, .twill]) ∧
  (∀ (pkt : Packet), changesOnly (Instr.readRequest pkt) [.regs, .host, .mem, .twill, .sec, .free]) ∧
  (∀ (pkt : Packet), changesOnly (Instr.readRsp pkt) [.regs, .host, .mem, .twill, .own, .sec, .usnea]) ∧
  (∀ (pkt : Packet), changesOnly (Instr.writeRequest pkt) [.regs, .host, .shards, .lichen, .mem, .twill, .sec, .free]) ∧
  (∀ (s t : State) (pkt : Packet), exec (Instr.writeAck pkt) s = .next t →
    t = { s with
      regs := { s.regs with sqc := t.regs.sqc }
      host := { s.host with fns := t.host.fns, msix := t.host.msix }
      twill := { s.twill with inbox := t.twill.inbox, out := t.twill.out } }) ∧
  (∀ (pkt : Packet), changesOnly (Instr.scoreRequest pkt) [.regs, .host, .mem, .twill, .own, .sec, .usnea]) ∧
  (∀ (pkt : Packet), changesOnly (Instr.scoreRsp pkt) [.regs, .host, .mem, .twill, .own, .usnea]) ∧
  (∀ (pkt : Packet), changesOnly (Instr.expandRequest pkt) [.regs, .host, .mem, .twill, .own, .sec, .usnea]) ∧
  (∀ (pkt : Packet), changesOnly (Instr.expandRsp pkt) [.regs, .host, .lichen, .model, .mem, .twill, .own, .ras, .usnea]) ∧
  (∀ (pkt : Packet), changesOnly (Instr.queryMessage pkt) [.regs, .host, .mem, .twill, .sec, .usnea]) ∧
  (∀ (pkt : Packet), changesOnly (Instr.listMessage pkt) [.regs, .host, .lichen, .model, .mem, .twill]) ∧
  (∀ (pkt : Packet), changesOnly (Instr.undelivered pkt) [.regs, .host, .lichen, .model, .mem, .twill, .own, .sec, .ras, .usnea]) ∧
  (∀ (reqId : Nat), changesOnly (Instr.requestResendTimer reqId) [.regs, .host, .mem, .twill]) ∧
  (∀ (reqId : Nat), changesOnly (Instr.requestTimeout reqId) [.regs, .host, .lichen, .model, .mem, .twill, .own, .sec, .ras, .usnea]) ∧
  (∀ (node reqId : Nat), changesOnly (Instr.listProgressTimer node reqId) [.regs, .host, .mem, .twill]) ∧
  (∀ (pkt : Packet), changesOnly (Instr.offer pkt) [.regs, .host, .mem, .twill, .own]) ∧
  (∀ (pkt : Packet), changesOnly (Instr.accept pkt) [.regs, .host, .mem, .twill, .own]) ∧
  (∀ (pkt : Packet), changesOnly (Instr.confirm pkt) [.regs, .host, .mem, .twill, .own, .sec, .usnea]) ∧
  (∀ (s t : State) (pkt : Packet), exec (Instr.taken pkt) s = .next t →
    t = { s with
      regs := { s.regs with sqc := t.regs.sqc }
      host := { s.host with fns := t.host.fns, msix := t.host.msix }
      twill := { s.twill with inbox := t.twill.inbox }
      own := { s.own with ledger := t.own.ledger, unresolved := t.own.unresolved } }) ∧
  (∀ (pkt : Packet), changesOnly (Instr.withdraw pkt) [.regs, .host, .mem, .twill, .own, .sec, .usnea]) ∧
  (∀ (pkt : Packet), changesOnly (Instr.revoke pkt) [.regs, .host, .mem, .twill, .own, .sec, .usnea]) ∧
  (∀ (pkt : Packet), changesOnly (Instr.revokeAck pkt) [.regs, .host, .mem, .twill, .own, .sec, .usnea]) ∧
  (∀ (pkt : Packet), changesOnly (Instr.announce pkt) [.regs, .host, .mem, .twill, .own, .sec, .usnea]) ∧
  (∀ (comp : Nat), changesOnly (Instr.drainTimerExpiry comp) [.regs, .host, .mem, .twill, .own]) ∧
  (∀ (seg : Nat), changesOnly (Instr.tokenResend seg) [.regs, .host, .mem, .twill]) ∧
  (∀ (seg : Nat), changesOnly (Instr.handoverTimeout seg) [.regs, .host, .mem, .twill, .own, .sec, .usnea]) ∧
  (∀ (comp : Nat), changesOnly (Instr.anchorSilent comp) [.regs, .host, .mem, .twill, .own, .sec, .usnea]) ∧
  (∀ (node reqId : Nat), changesOnly (Instr.heldResponseTimer node reqId) [.regs, .host, .mem, .twill]) ∧
  (∀ (node reqId : Nat), changesOnly (Instr.holdDrainExpiry node reqId) [.regs, .host, .mem, .twill, .own]) ∧
  (∀ (s t : State) (node : Nat), exec (Instr.unreachableExpiry node) s = .next t →
    t = { s with own := { s.own with unreachable := t.own.unreachable } }) ∧
  (∀ (s t : State) (seg : Nat), exec (Instr.unresolvedEventRepeat seg) s = .next t →
    t = { s with
      regs := { s.regs with sqc := t.regs.sqc }
      host := { s.host with fns := t.host.fns, msix := t.host.msix }
      own := { s.own with unresolved := t.own.unresolved }
      usnea := { s.usnea with sent := t.usnea.sent, subs := t.usnea.subs } }) ∧
  (∀ (s t : State) (port : Nat) (lanes : List Nat), exec (Instr.signalDetected port lanes) s = .next t →
    t = { s with twill := { s.twill with ports := t.twill.ports } }) ∧
  (∀ (s t : State) (port : Nat), exec (Instr.receiverAdaptationDone port) s = .next t →
    t = { s with twill := { s.twill with ports := t.twill.ports } }) ∧
  (∀ (s t : State) (node reqId : Nat), exec (Instr.writeRecordExpiry node reqId) s = .next t →
    t = { s with twill := { s.twill with writes := t.twill.writes } })

/-- Frames of management, security and RAS: an equation names each field that a command may change, `changesOnly` the parts. -/
def Obligations.ManagementAndRasFrames : Prop :=
  (∀ (cmd : Nat), changesOnly (Instr.keyProvision cmd) [.regs, .host, .lichen, .twill, .sec, .usnea]) ∧
  (∀ (cmd : Nat), changesOnly (Instr.fuseProvision cmd) [.regs, .host, .lichen, .twill, .sec, .usnea]) ∧
  (∀ (cmd : Nat), changesOnly (Instr.fuseRevoke cmd) [.regs, .host, .lichen, .twill, .sec, .usnea]) ∧
  (∀ (cmd : Nat), changesOnly (Instr.fuseRaiseSvn cmd) [.regs, .host, .lichen, .twill, .sec, .usnea]) ∧
  (∀ (cmd : Nat), changesOnly (Instr.attest cmd) [.host, .lichen, .twill, .usnea]) ∧
  (∀ (cmd : Nat), changesOnly (Instr.certificate cmd) [.host, .lichen, .twill, .usnea]) ∧
  (∀ (cmd : Nat), changesOnly (Instr.healthLog cmd) [.host, .lichen, .twill, .usnea]) ∧
  (∀ (cmd : Nat), changesOnly (Instr.ledgerRead cmd) [.host, .lichen, .twill, .ras]) ∧
  (∀ (s t : State) (part : Nat), exec (Instr.rekeySwatch part) s = .next t →
    t = { s with
      regs := { s.regs with ro := t.regs.ro, sqc := t.regs.sqc }
      host := { s.host with fns := t.host.fns, msix := t.host.msix }
      mem := { s.mem with bucket := t.mem.bucket, waiting := t.mem.waiting }
      sec := { s.sec with oldKeys := t.sec.oldKeys, rekey := t.sec.rekey } }) ∧
  (∀ (kind unit : Nat), changesOnly (Instr.drainComplete kind unit)
    [.regs, .host, .shards, .lichen, .epoch, .model, .mem, .felt, .twill, .ras, .usnea, .power, .free]) ∧
  (∀ (reader : Nat) (data : DamagedData), changesOnly (Instr.poisonedDataRead reader data)
    [.regs, .host, .shards, .lichen, .epoch, .model, .mem, .twill, .ras, .usnea, .free]) ∧
  (changesOnly Instr.persistentLogCopy [.regs, .host, .ras, .usnea]) ∧
  (changesOnly Instr.usneaRestart [.regs, .host, .ras, .usnea]) ∧
  (∀ (cmd : Nat), changesOnly (Instr.adminWaitTimeout cmd) [.regs, .host, .lichen, .twill, .ras, .usnea]) ∧
  (changesOnly Instr.lockstepMismatch [.regs, .ras, .usnea]) ∧
  (changesOnly Instr.usneaWatchdog [.regs, .ras, .usnea]) ∧
  (∀ (comp : Nat), changesOnly (Instr.componentFault comp) [.regs, .host, .ras, .usnea]) ∧
  (∀ (image : Option (List Byte)), changesOnly (Instr.netbootRetry image) [.sec, .usnea, .power]) ∧
  (∀ (s t : State), exec Instr.fwTrialConfirm s = .next t →
    t = { s with
      regs := { s.regs with sqc := t.regs.sqc }
      host := { s.host with fns := t.host.fns, msix := t.host.msix }
      usnea := { s.usnea with dir0 := t.usnea.dir0, dir1 := t.usnea.dir1, sent := t.usnea.sent, subs := t.usnea.subs, trialRun := t.usnea.trialRun } }) ∧
  (∀ (s t : State) (values : List (Nat × BitVec 16)), exec (Instr.sensorRead values) s = .next t →
    t = { s with
      regs := { s.regs with force := t.regs.force, sqc := t.regs.sqc }
      host := { s.host with fns := t.host.fns, msix := t.host.msix }
      usnea := { s.usnea with sensors := t.usnea.sensors, sent := t.usnea.sent, subs := t.usnea.subs } }) ∧
  (∀ (msg : MgmtMsg), changesOnly (Instr.identify msg) [.regs, .host, .usnea]) ∧
  (∀ (msg : MgmtMsg), changesOnly (Instr.sensors msg) [.regs, .host, .usnea]) ∧
  (∀ (msg : MgmtMsg), changesOnly (Instr.logRead msg) [.regs, .host, .usnea]) ∧
  (∀ (msg : MgmtMsg), changesOnly (Instr.blackboxRead msg) [.regs, .host, .usnea]) ∧
  (∀ (msg : MgmtMsg), changesOnly (Instr.mgmtAttest msg) [.regs, .host, .usnea]) ∧
  (∀ (msg : MgmtMsg), changesOnly (Instr.mgmtCertificate msg) [.regs, .host, .usnea]) ∧
  (∀ (msg : MgmtMsg), changesOnly (Instr.mgmtLedgerRead msg) [.regs, .host, .ras, .usnea]) ∧
  (∀ (msg : MgmtMsg), changesOnly (Instr.rasCommand msg)
    [.regs, .host, .shards, .lichen, .epoch, .model, .mem, .felt, .twill, .sec, .ras, .usnea, .power, .free]) ∧
  (∀ (msg : MgmtMsg), changesOnly (Instr.regWrite msg)
    [.regs, .img, .host, .shards, .lichen, .epoch, .model, .mem, .felt, .twill, .own, .sec, .ras, .usnea, .power, .free]) ∧
  (∀ (msg : MgmtMsg), changesOnly (Instr.admin msg) [.regs, .host, .lichen, .mem, .twill, .sec, .usnea]) ∧
  (∀ (msg : MgmtMsg), changesOnly (Instr.imageChunk msg) [.regs, .host, .usnea]) ∧
  (∀ (msg : MgmtMsg), changesOnly (Instr.imageStage msg) [.regs, .img, .host, .shards, .sec, .usnea, .power]) ∧
  (∀ (msg : MgmtMsg), changesOnly (Instr.fwChunk msg) [.regs, .host, .usnea]) ∧
  (∀ (msg : MgmtMsg), changesOnly (Instr.fwActivate msg) [.regs, .host, .sec, .ras, .usnea]) ∧
  (∀ (msg : MgmtMsg), changesOnly (Instr.norWrite msg) [.regs, .host, .usnea]) ∧
  (∀ (msg : MgmtMsg), changesOnly (Instr.sessionOpen msg) [.regs, .host, .usnea, .free]) ∧
  (∀ (msg : MgmtMsg), changesOnly (Instr.sessionClose msg) [.regs, .host, .usnea]) ∧
  (∀ (msg : MgmtMsg), changesOnly (Instr.subscribe msg) [.regs, .host, .usnea]) ∧
  (∀ (msg : MgmtMsg), changesOnly (Instr.eventAck msg) [.regs, .host, .usnea]) ∧
  (∀ (s t : State) (sub seq : Nat), exec (Instr.eventResend sub seq) s = .next t →
    t = { s with
      regs := { s.regs with sqc := t.regs.sqc }
      host := { s.host with fns := t.host.fns, msix := t.host.msix }
      usnea := { s.usnea with sent := t.usnea.sent, subs := t.usnea.subs } }) ∧
  (∀ (msg : MgmtMsg), changesOnly (Instr.ptmInfo msg) [.regs, .host, .usnea]) ∧
  (∀ (s t : State) (ns : W64), exec (Instr.ptmPublish ns) s = .next t →
    t = { s with usnea := { s.usnea with ptmNs := t.usnea.ptmNs, ptmRtc := t.usnea.ptmRtc, ptmSeq := t.usnea.ptmSeq } }) ∧
  (∀ (s t : State) (session : Nat), exec (Instr.sessionIdleExpiry session) s = .next t →
    t = { s with usnea := { s.usnea with sessions := t.usnea.sessions } }) ∧
  (∀ (s t : State), exec Instr.receiveAreaTimeout s = .next t →
    t = { s with usnea := { s.usnea with recv := t.usnea.recv, recvUse := t.usnea.recvUse } }) ∧
  (∀ (part laddr : Nat), changesOnly (Instr.t5RekeyRewrite part laddr) [.regs, .host, .mem, .felt, .sec, .free]) ∧
  (∀ (link lane : Nat), changesOnly (Instr.d2dLaneSwap link lane)
    [.regs, .host, .shards, .lichen, .epoch, .model, .mem, .felt, .twill, .ras, .usnea, .free]) ∧
  (∀ (s t : State), exec Instr.usneaRestartComplete s = .next t →
    t = { s with
      regs := { s.regs with sqc := t.regs.sqc }
      host := { s.host with fns := t.host.fns, msix := t.host.msix }
      usnea := { s.usnea with closed := t.usnea.closed, restarting := t.usnea.restarting, running := t.usnea.running } }) ∧
  (∀ (s t : State) (up : Bool), exec (Instr.mgmtLinkChange up) s = .next t →
    t = { s with usnea := { s.usnea with netUp := t.usnea.netUp } }) ∧
  (∀ (s t : State) (via : Transport) (bytes : List Byte), exec (Instr.mctpControlMessage via bytes) s = .next t →
    t = { s with usnea := { s.usnea with eid := t.usnea.eid, mctpSent := t.usnea.mctpSent } }) ∧
  (∀ (s t : State) (addr : Nat), exec (Instr.i3cDynamicAddress addr) s = .next t →
    t = { s with usnea := { s.usnea with i3cAddr := t.usnea.i3cAddr } }) ∧
  (∀ (s t : State) (instr : JtagInstr), exec (Instr.jtagInstruction instr) s = .next t →
    t = { s with usnea := { s.usnea with jtag := t.usnea.jtag } })
end

