-- ==== Sys2Proof/Laws/State.lean ====
section
/-! SUPPORT. What each update of the state leaves of each part: one lemma per part and update, true by computation. -/
namespace Sys2Proof.Machine
open Sys2Proof

variable (s : State)

@[simp] theorem State.mapRegs_regs (f : RegFile → RegFile) : (s.mapRegs f).regs = f s.regs := rfl
@[simp] theorem State.mapRegs_img (f : RegFile → RegFile) : (s.mapRegs f).img = s.img := rfl
@[simp] theorem State.mapRegs_host (f : RegFile → RegFile) : (s.mapRegs f).host = s.host := rfl
@[simp] theorem State.mapRegs_shards (f : RegFile → RegFile) : (s.mapRegs f).shards = s.shards := rfl
@[simp] theorem State.mapRegs_lichen (f : RegFile → RegFile) : (s.mapRegs f).lichen = s.lichen := rfl
@[simp] theorem State.mapRegs_epoch (f : RegFile → RegFile) : (s.mapRegs f).epoch = s.epoch := rfl
@[simp] theorem State.mapRegs_model (f : RegFile → RegFile) : (s.mapRegs f).model = s.model := rfl
@[simp] theorem State.mapRegs_mem (f : RegFile → RegFile) : (s.mapRegs f).mem = s.mem := rfl
@[simp] theorem State.mapRegs_felt (f : RegFile → RegFile) : (s.mapRegs f).felt = s.felt := rfl
@[simp] theorem State.mapRegs_twill (f : RegFile → RegFile) : (s.mapRegs f).twill = s.twill := rfl
@[simp] theorem State.mapRegs_own (f : RegFile → RegFile) : (s.mapRegs f).own = s.own := rfl
@[simp] theorem State.mapRegs_sec (f : RegFile → RegFile) : (s.mapRegs f).sec = s.sec := rfl
@[simp] theorem State.mapRegs_ras (f : RegFile → RegFile) : (s.mapRegs f).ras = s.ras := rfl
@[simp] theorem State.mapRegs_usnea (f : RegFile → RegFile) : (s.mapRegs f).usnea = s.usnea := rfl
@[simp] theorem State.mapRegs_power (f : RegFile → RegFile) : (s.mapRegs f).power = s.power := rfl
@[simp] theorem State.mapRegs_free (f : RegFile → RegFile) : (s.mapRegs f).free = s.free := rfl
@[simp] theorem State.mapRegs_pending (f : RegFile → RegFile) : (s.mapRegs f).pending = s.pending := rfl
@[simp] theorem State.mapImg_regs (f : ImgState → ImgState) : (s.mapImg f).regs = s.regs := rfl
@[simp] theorem State.mapImg_img (f : ImgState → ImgState) : (s.mapImg f).img = f s.img := rfl
@[simp] theorem State.mapImg_host (f : ImgState → ImgState) : (s.mapImg f).host = s.host := rfl
@[simp] theorem State.mapImg_shards (f : ImgState → ImgState) : (s.mapImg f).shards = s.shards := rfl
@[simp] theorem State.mapImg_lichen (f : ImgState → ImgState) : (s.mapImg f).lichen = s.lichen := rfl
@[simp] theorem State.mapImg_epoch (f : ImgState → ImgState) : (s.mapImg f).epoch = s.epoch := rfl
@[simp] theorem State.mapImg_model (f : ImgState → ImgState) : (s.mapImg f).model = s.model := rfl
@[simp] theorem State.mapImg_mem (f : ImgState → ImgState) : (s.mapImg f).mem = s.mem := rfl
@[simp] theorem State.mapImg_felt (f : ImgState → ImgState) : (s.mapImg f).felt = s.felt := rfl
@[simp] theorem State.mapImg_twill (f : ImgState → ImgState) : (s.mapImg f).twill = s.twill := rfl
@[simp] theorem State.mapImg_own (f : ImgState → ImgState) : (s.mapImg f).own = s.own := rfl
@[simp] theorem State.mapImg_sec (f : ImgState → ImgState) : (s.mapImg f).sec = s.sec := rfl
@[simp] theorem State.mapImg_ras (f : ImgState → ImgState) : (s.mapImg f).ras = s.ras := rfl
@[simp] theorem State.mapImg_usnea (f : ImgState → ImgState) : (s.mapImg f).usnea = s.usnea := rfl
@[simp] theorem State.mapImg_power (f : ImgState → ImgState) : (s.mapImg f).power = s.power := rfl
@[simp] theorem State.mapImg_free (f : ImgState → ImgState) : (s.mapImg f).free = s.free := rfl
@[simp] theorem State.mapImg_pending (f : ImgState → ImgState) : (s.mapImg f).pending = s.pending := rfl
@[simp] theorem State.mapHost_regs (f : HostState → HostState) : (s.mapHost f).regs = s.regs := rfl
@[simp] theorem State.mapHost_img (f : HostState → HostState) : (s.mapHost f).img = s.img := rfl
@[simp] theorem State.mapHost_host (f : HostState → HostState) : (s.mapHost f).host = f s.host := rfl
@[simp] theorem State.mapHost_shards (f : HostState → HostState) : (s.mapHost f).shards = s.shards := rfl
@[simp] theorem State.mapHost_lichen (f : HostState → HostState) : (s.mapHost f).lichen = s.lichen := rfl
@[simp] theorem State.mapHost_epoch (f : HostState → HostState) : (s.mapHost f).epoch = s.epoch := rfl
@[simp] theorem State.mapHost_model (f : HostState → HostState) : (s.mapHost f).model = s.model := rfl
@[simp] theorem State.mapHost_mem (f : HostState → HostState) : (s.mapHost f).mem = s.mem := rfl
@[simp] theorem State.mapHost_felt (f : HostState → HostState) : (s.mapHost f).felt = s.felt := rfl
@[simp] theorem State.mapHost_twill (f : HostState → HostState) : (s.mapHost f).twill = s.twill := rfl
@[simp] theorem State.mapHost_own (f : HostState → HostState) : (s.mapHost f).own = s.own := rfl
@[simp] theorem State.mapHost_sec (f : HostState → HostState) : (s.mapHost f).sec = s.sec := rfl
@[simp] theorem State.mapHost_ras (f : HostState → HostState) : (s.mapHost f).ras = s.ras := rfl
@[simp] theorem State.mapHost_usnea (f : HostState → HostState) : (s.mapHost f).usnea = s.usnea := rfl
@[simp] theorem State.mapHost_power (f : HostState → HostState) : (s.mapHost f).power = s.power := rfl
@[simp] theorem State.mapHost_free (f : HostState → HostState) : (s.mapHost f).free = s.free := rfl
@[simp] theorem State.mapHost_pending (f : HostState → HostState) : (s.mapHost f).pending = s.pending := rfl
@[simp] theorem State.mapLichen_regs (f : Lichen → Lichen) : (s.mapLichen f).regs = s.regs := rfl
@[simp] theorem State.mapLichen_img (f : Lichen → Lichen) : (s.mapLichen f).img = s.img := rfl
@[simp] theorem State.mapLichen_host (f : Lichen → Lichen) : (s.mapLichen f).host = s.host := rfl
@[simp] theorem State.mapLichen_shards (f : Lichen → Lichen) : (s.mapLichen f).shards = s.shards := rfl
@[simp] theorem State.mapLichen_lichen (f : Lichen → Lichen) : (s.mapLichen f).lichen = f s.lichen := rfl
@[simp] theorem State.mapLichen_epoch (f : Lichen → Lichen) : (s.mapLichen f).epoch = s.epoch := rfl
@[simp] theorem State.mapLichen_model (f : Lichen → Lichen) : (s.mapLichen f).model = s.model := rfl
@[simp] theorem State.mapLichen_mem (f : Lichen → Lichen) : (s.mapLichen f).mem = s.mem := rfl
@[simp] theorem State.mapLichen_felt (f : Lichen → Lichen) : (s.mapLichen f).felt = s.felt := rfl
@[simp] theorem State.mapLichen_twill (f : Lichen → Lichen) : (s.mapLichen f).twill = s.twill := rfl
@[simp] theorem State.mapLichen_own (f : Lichen → Lichen) : (s.mapLichen f).own = s.own := rfl
@[simp] theorem State.mapLichen_sec (f : Lichen → Lichen) : (s.mapLichen f).sec = s.sec := rfl
@[simp] theorem State.mapLichen_ras (f : Lichen → Lichen) : (s.mapLichen f).ras = s.ras := rfl
@[simp] theorem State.mapLichen_usnea (f : Lichen → Lichen) : (s.mapLichen f).usnea = s.usnea := rfl
@[simp] theorem State.mapLichen_power (f : Lichen → Lichen) : (s.mapLichen f).power = s.power := rfl
@[simp] theorem State.mapLichen_free (f : Lichen → Lichen) : (s.mapLichen f).free = s.free := rfl
@[simp] theorem State.mapLichen_pending (f : Lichen → Lichen) : (s.mapLichen f).pending = s.pending := rfl
@[simp] theorem State.mapEpoch_regs (f : EpochState → EpochState) : (s.mapEpoch f).regs = s.regs := rfl
@[simp] theorem State.mapEpoch_img (f : EpochState → EpochState) : (s.mapEpoch f).img = s.img := rfl
@[simp] theorem State.mapEpoch_host (f : EpochState → EpochState) : (s.mapEpoch f).host = s.host := rfl
@[simp] theorem State.mapEpoch_shards (f : EpochState → EpochState) : (s.mapEpoch f).shards = s.shards := rfl
@[simp] theorem State.mapEpoch_lichen (f : EpochState → EpochState) : (s.mapEpoch f).lichen = s.lichen := rfl
@[simp] theorem State.mapEpoch_epoch (f : EpochState → EpochState) : (s.mapEpoch f).epoch = f s.epoch := rfl
@[simp] theorem State.mapEpoch_model (f : EpochState → EpochState) : (s.mapEpoch f).model = s.model := rfl
@[simp] theorem State.mapEpoch_mem (f : EpochState → EpochState) : (s.mapEpoch f).mem = s.mem := rfl
@[simp] theorem State.mapEpoch_felt (f : EpochState → EpochState) : (s.mapEpoch f).felt = s.felt := rfl
@[simp] theorem State.mapEpoch_twill (f : EpochState → EpochState) : (s.mapEpoch f).twill = s.twill := rfl
@[simp] theorem State.mapEpoch_own (f : EpochState → EpochState) : (s.mapEpoch f).own = s.own := rfl
@[simp] theorem State.mapEpoch_sec (f : EpochState → EpochState) : (s.mapEpoch f).sec = s.sec := rfl
@[simp] theorem State.mapEpoch_ras (f : EpochState → EpochState) : (s.mapEpoch f).ras = s.ras := rfl
@[simp] theorem State.mapEpoch_usnea (f : EpochState → EpochState) : (s.mapEpoch f).usnea = s.usnea := rfl
@[simp] theorem State.mapEpoch_power (f : EpochState → EpochState) : (s.mapEpoch f).power = s.power := rfl
@[simp] theorem State.mapEpoch_free (f : EpochState → EpochState) : (s.mapEpoch f).free = s.free := rfl
@[simp] theorem State.mapEpoch_pending (f : EpochState → EpochState) : (s.mapEpoch f).pending = s.pending := rfl
@[simp] theorem State.mapModel_regs (f : ModelState → ModelState) : (s.mapModel f).regs = s.regs := rfl
@[simp] theorem State.mapModel_img (f : ModelState → ModelState) : (s.mapModel f).img = s.img := rfl
@[simp] theorem State.mapModel_host (f : ModelState → ModelState) : (s.mapModel f).host = s.host := rfl
@[simp] theorem State.mapModel_shards (f : ModelState → ModelState) : (s.mapModel f).shards = s.shards := rfl
@[simp] theorem State.mapModel_lichen (f : ModelState → ModelState) : (s.mapModel f).lichen = s.lichen := rfl
@[simp] theorem State.mapModel_epoch (f : ModelState → ModelState) : (s.mapModel f).epoch = s.epoch := rfl
@[simp] theorem State.mapModel_model (f : ModelState → ModelState) : (s.mapModel f).model = f s.model := rfl
@[simp] theorem State.mapModel_mem (f : ModelState → ModelState) : (s.mapModel f).mem = s.mem := rfl
@[simp] theorem State.mapModel_felt (f : ModelState → ModelState) : (s.mapModel f).felt = s.felt := rfl
@[simp] theorem State.mapModel_twill (f : ModelState → ModelState) : (s.mapModel f).twill = s.twill := rfl
@[simp] theorem State.mapModel_own (f : ModelState → ModelState) : (s.mapModel f).own = s.own := rfl
@[simp] theorem State.mapModel_sec (f : ModelState → ModelState) : (s.mapModel f).sec = s.sec := rfl
@[simp] theorem State.mapModel_ras (f : ModelState → ModelState) : (s.mapModel f).ras = s.ras := rfl
@[simp] theorem State.mapModel_usnea (f : ModelState → ModelState) : (s.mapModel f).usnea = s.usnea := rfl
@[simp] theorem State.mapModel_power (f : ModelState → ModelState) : (s.mapModel f).power = s.power := rfl
@[simp] theorem State.mapModel_free (f : ModelState → ModelState) : (s.mapModel f).free = s.free := rfl
@[simp] theorem State.mapModel_pending (f : ModelState → ModelState) : (s.mapModel f).pending = s.pending := rfl
@[simp] theorem State.mapMem_regs (f : MemState → MemState) : (s.mapMem f).regs = s.regs := rfl
@[simp] theorem State.mapMem_img (f : MemState → MemState) : (s.mapMem f).img = s.img := rfl
@[simp] theorem State.mapMem_host (f : MemState → MemState) : (s.mapMem f).host = s.host := rfl
@[simp] theorem State.mapMem_shards (f : MemState → MemState) : (s.mapMem f).shards = s.shards := rfl
@[simp] theorem State.mapMem_lichen (f : MemState → MemState) : (s.mapMem f).lichen = s.lichen := rfl
@[simp] theorem State.mapMem_epoch (f : MemState → MemState) : (s.mapMem f).epoch = s.epoch := rfl
@[simp] theorem State.mapMem_model (f : MemState → MemState) : (s.mapMem f).model = s.model := rfl
@[simp] theorem State.mapMem_mem (f : MemState → MemState) : (s.mapMem f).mem = f s.mem := rfl
@[simp] theorem State.mapMem_felt (f : MemState → MemState) : (s.mapMem f).felt = s.felt := rfl
@[simp] theorem State.mapMem_twill (f : MemState → MemState) : (s.mapMem f).twill = s.twill := rfl
@[simp] theorem State.mapMem_own (f : MemState → MemState) : (s.mapMem f).own = s.own := rfl
@[simp] theorem State.mapMem_sec (f : MemState → MemState) : (s.mapMem f).sec = s.sec := rfl
@[simp] theorem State.mapMem_ras (f : MemState → MemState) : (s.mapMem f).ras = s.ras := rfl
@[simp] theorem State.mapMem_usnea (f : MemState → MemState) : (s.mapMem f).usnea = s.usnea := rfl
@[simp] theorem State.mapMem_power (f : MemState → MemState) : (s.mapMem f).power = s.power := rfl
@[simp] theorem State.mapMem_free (f : MemState → MemState) : (s.mapMem f).free = s.free := rfl
@[simp] theorem State.mapMem_pending (f : MemState → MemState) : (s.mapMem f).pending = s.pending := rfl
@[simp] theorem State.mapFelt_regs (f : FeltState → FeltState) : (s.mapFelt f).regs = s.regs := rfl
@[simp] theorem State.mapFelt_img (f : FeltState → FeltState) : (s.mapFelt f).img = s.img := rfl
@[simp] theorem State.mapFelt_host (f : FeltState → FeltState) : (s.mapFelt f).host = s.host := rfl
@[simp] theorem State.mapFelt_shards (f : FeltState → FeltState) : (s.mapFelt f).shards = s.shards := rfl
@[simp] theorem State.mapFelt_lichen (f : FeltState → FeltState) : (s.mapFelt f).lichen = s.lichen := rfl
@[simp] theorem State.mapFelt_epoch (f : FeltState → FeltState) : (s.mapFelt f).epoch = s.epoch := rfl
@[simp] theorem State.mapFelt_model (f : FeltState → FeltState) : (s.mapFelt f).model = s.model := rfl
@[simp] theorem State.mapFelt_mem (f : FeltState → FeltState) : (s.mapFelt f).mem = s.mem := rfl
@[simp] theorem State.mapFelt_felt (f : FeltState → FeltState) : (s.mapFelt f).felt = f s.felt := rfl
@[simp] theorem State.mapFelt_twill (f : FeltState → FeltState) : (s.mapFelt f).twill = s.twill := rfl
@[simp] theorem State.mapFelt_own (f : FeltState → FeltState) : (s.mapFelt f).own = s.own := rfl
@[simp] theorem State.mapFelt_sec (f : FeltState → FeltState) : (s.mapFelt f).sec = s.sec := rfl
@[simp] theorem State.mapFelt_ras (f : FeltState → FeltState) : (s.mapFelt f).ras = s.ras := rfl
@[simp] theorem State.mapFelt_usnea (f : FeltState → FeltState) : (s.mapFelt f).usnea = s.usnea := rfl
@[simp] theorem State.mapFelt_power (f : FeltState → FeltState) : (s.mapFelt f).power = s.power := rfl
@[simp] theorem State.mapFelt_free (f : FeltState → FeltState) : (s.mapFelt f).free = s.free := rfl
@[simp] theorem State.mapFelt_pending (f : FeltState → FeltState) : (s.mapFelt f).pending = s.pending := rfl
@[simp] theorem State.mapTwill_regs (f : Twill → Twill) : (s.mapTwill f).regs = s.regs := rfl
@[simp] theorem State.mapTwill_img (f : Twill → Twill) : (s.mapTwill f).img = s.img := rfl
@[simp] theorem State.mapTwill_host (f : Twill → Twill) : (s.mapTwill f).host = s.host := rfl
@[simp] theorem State.mapTwill_shards (f : Twill → Twill) : (s.mapTwill f).shards = s.shards := rfl
@[simp] theorem State.mapTwill_lichen (f : Twill → Twill) : (s.mapTwill f).lichen = s.lichen := rfl
@[simp] theorem State.mapTwill_epoch (f : Twill → Twill) : (s.mapTwill f).epoch = s.epoch := rfl
@[simp] theorem State.mapTwill_model (f : Twill → Twill) : (s.mapTwill f).model = s.model := rfl
@[simp] theorem State.mapTwill_mem (f : Twill → Twill) : (s.mapTwill f).mem = s.mem := rfl
@[simp] theorem State.mapTwill_felt (f : Twill → Twill) : (s.mapTwill f).felt = s.felt := rfl
@[simp] theorem State.mapTwill_twill (f : Twill → Twill) : (s.mapTwill f).twill = f s.twill := rfl
@[simp] theorem State.mapTwill_own (f : Twill → Twill) : (s.mapTwill f).own = s.own := rfl
@[simp] theorem State.mapTwill_sec (f : Twill → Twill) : (s.mapTwill f).sec = s.sec := rfl
@[simp] theorem State.mapTwill_ras (f : Twill → Twill) : (s.mapTwill f).ras = s.ras := rfl
@[simp] theorem State.mapTwill_usnea (f : Twill → Twill) : (s.mapTwill f).usnea = s.usnea := rfl
@[simp] theorem State.mapTwill_power (f : Twill → Twill) : (s.mapTwill f).power = s.power := rfl
@[simp] theorem State.mapTwill_free (f : Twill → Twill) : (s.mapTwill f).free = s.free := rfl
@[simp] theorem State.mapTwill_pending (f : Twill → Twill) : (s.mapTwill f).pending = s.pending := rfl
@[simp] theorem State.mapOwn_regs (f : OwnState → OwnState) : (s.mapOwn f).regs = s.regs := rfl
@[simp] theorem State.mapOwn_img (f : OwnState → OwnState) : (s.mapOwn f).img = s.img := rfl
@[simp] theorem State.mapOwn_host (f : OwnState → OwnState) : (s.mapOwn f).host = s.host := rfl
@[simp] theorem State.mapOwn_shards (f : OwnState → OwnState) : (s.mapOwn f).shards = s.shards := rfl
@[simp] theorem State.mapOwn_lichen (f : OwnState → OwnState) : (s.mapOwn f).lichen = s.lichen := rfl
@[simp] theorem State.mapOwn_epoch (f : OwnState → OwnState) : (s.mapOwn f).epoch = s.epoch := rfl
@[simp] theorem State.mapOwn_model (f : OwnState → OwnState) : (s.mapOwn f).model = s.model := rfl
@[simp] theorem State.mapOwn_mem (f : OwnState → OwnState) : (s.mapOwn f).mem = s.mem := rfl
@[simp] theorem State.mapOwn_felt (f : OwnState → OwnState) : (s.mapOwn f).felt = s.felt := rfl
@[simp] theorem State.mapOwn_twill (f : OwnState → OwnState) : (s.mapOwn f).twill = s.twill := rfl
@[simp] theorem State.mapOwn_own (f : OwnState → OwnState) : (s.mapOwn f).own = f s.own := rfl
@[simp] theorem State.mapOwn_sec (f : OwnState → OwnState) : (s.mapOwn f).sec = s.sec := rfl
@[simp] theorem State.mapOwn_ras (f : OwnState → OwnState) : (s.mapOwn f).ras = s.ras := rfl
@[simp] theorem State.mapOwn_usnea (f : OwnState → OwnState) : (s.mapOwn f).usnea = s.usnea := rfl
@[simp] theorem State.mapOwn_power (f : OwnState → OwnState) : (s.mapOwn f).power = s.power := rfl
@[simp] theorem State.mapOwn_free (f : OwnState → OwnState) : (s.mapOwn f).free = s.free := rfl
@[simp] theorem State.mapOwn_pending (f : OwnState → OwnState) : (s.mapOwn f).pending = s.pending := rfl
@[simp] theorem State.mapSec_regs (f : SecState → SecState) : (s.mapSec f).regs = s.regs := rfl
@[simp] theorem State.mapSec_img (f : SecState → SecState) : (s.mapSec f).img = s.img := rfl
@[simp] theorem State.mapSec_host (f : SecState → SecState) : (s.mapSec f).host = s.host := rfl
@[simp] theorem State.mapSec_shards (f : SecState → SecState) : (s.mapSec f).shards = s.shards := rfl
@[simp] theorem State.mapSec_lichen (f : SecState → SecState) : (s.mapSec f).lichen = s.lichen := rfl
@[simp] theorem State.mapSec_epoch (f : SecState → SecState) : (s.mapSec f).epoch = s.epoch := rfl
@[simp] theorem State.mapSec_model (f : SecState → SecState) : (s.mapSec f).model = s.model := rfl
@[simp] theorem State.mapSec_mem (f : SecState → SecState) : (s.mapSec f).mem = s.mem := rfl
@[simp] theorem State.mapSec_felt (f : SecState → SecState) : (s.mapSec f).felt = s.felt := rfl
@[simp] theorem State.mapSec_twill (f : SecState → SecState) : (s.mapSec f).twill = s.twill := rfl
@[simp] theorem State.mapSec_own (f : SecState → SecState) : (s.mapSec f).own = s.own := rfl
@[simp] theorem State.mapSec_sec (f : SecState → SecState) : (s.mapSec f).sec = f s.sec := rfl
@[simp] theorem State.mapSec_ras (f : SecState → SecState) : (s.mapSec f).ras = s.ras := rfl
@[simp] theorem State.mapSec_usnea (f : SecState → SecState) : (s.mapSec f).usnea = s.usnea := rfl
@[simp] theorem State.mapSec_power (f : SecState → SecState) : (s.mapSec f).power = s.power := rfl
@[simp] theorem State.mapSec_free (f : SecState → SecState) : (s.mapSec f).free = s.free := rfl
@[simp] theorem State.mapSec_pending (f : SecState → SecState) : (s.mapSec f).pending = s.pending := rfl
@[simp] theorem State.mapRas_regs (f : RasState → RasState) : (s.mapRas f).regs = s.regs := rfl
@[simp] theorem State.mapRas_img (f : RasState → RasState) : (s.mapRas f).img = s.img := rfl
@[simp] theorem State.mapRas_host (f : RasState → RasState) : (s.mapRas f).host = s.host := rfl
@[simp] theorem State.mapRas_shards (f : RasState → RasState) : (s.mapRas f).shards = s.shards := rfl
@[simp] theorem State.mapRas_lichen (f : RasState → RasState) : (s.mapRas f).lichen = s.lichen := rfl
@[simp] theorem State.mapRas_epoch (f : RasState → RasState) : (s.mapRas f).epoch = s.epoch := rfl
@[simp] theorem State.mapRas_model (f : RasState → RasState) : (s.mapRas f).model = s.model := rfl
@[simp] theorem State.mapRas_mem (f : RasState → RasState) : (s.mapRas f).mem = s.mem := rfl
@[simp] theorem State.mapRas_felt (f : RasState → RasState) : (s.mapRas f).felt = s.felt := rfl
@[simp] theorem State.mapRas_twill (f : RasState → RasState) : (s.mapRas f).twill = s.twill := rfl
@[simp] theorem State.mapRas_own (f : RasState → RasState) : (s.mapRas f).own = s.own := rfl
@[simp] theorem State.mapRas_sec (f : RasState → RasState) : (s.mapRas f).sec = s.sec := rfl
@[simp] theorem State.mapRas_ras (f : RasState → RasState) : (s.mapRas f).ras = f s.ras := rfl
@[simp] theorem State.mapRas_usnea (f : RasState → RasState) : (s.mapRas f).usnea = s.usnea := rfl
@[simp] theorem State.mapRas_power (f : RasState → RasState) : (s.mapRas f).power = s.power := rfl
@[simp] theorem State.mapRas_free (f : RasState → RasState) : (s.mapRas f).free = s.free := rfl
@[simp] theorem State.mapRas_pending (f : RasState → RasState) : (s.mapRas f).pending = s.pending := rfl
@[simp] theorem State.mapUsnea_regs (f : UsneaState → UsneaState) : (s.mapUsnea f).regs = s.regs := rfl
@[simp] theorem State.mapUsnea_img (f : UsneaState → UsneaState) : (s.mapUsnea f).img = s.img := rfl
@[simp] theorem State.mapUsnea_host (f : UsneaState → UsneaState) : (s.mapUsnea f).host = s.host := rfl
@[simp] theorem State.mapUsnea_shards (f : UsneaState → UsneaState) : (s.mapUsnea f).shards = s.shards := rfl
@[simp] theorem State.mapUsnea_lichen (f : UsneaState → UsneaState) : (s.mapUsnea f).lichen = s.lichen := rfl
@[simp] theorem State.mapUsnea_epoch (f : UsneaState → UsneaState) : (s.mapUsnea f).epoch = s.epoch := rfl
@[simp] theorem State.mapUsnea_model (f : UsneaState → UsneaState) : (s.mapUsnea f).model = s.model := rfl
@[simp] theorem State.mapUsnea_mem (f : UsneaState → UsneaState) : (s.mapUsnea f).mem = s.mem := rfl
@[simp] theorem State.mapUsnea_felt (f : UsneaState → UsneaState) : (s.mapUsnea f).felt = s.felt := rfl
@[simp] theorem State.mapUsnea_twill (f : UsneaState → UsneaState) : (s.mapUsnea f).twill = s.twill := rfl
@[simp] theorem State.mapUsnea_own (f : UsneaState → UsneaState) : (s.mapUsnea f).own = s.own := rfl
@[simp] theorem State.mapUsnea_sec (f : UsneaState → UsneaState) : (s.mapUsnea f).sec = s.sec := rfl
@[simp] theorem State.mapUsnea_ras (f : UsneaState → UsneaState) : (s.mapUsnea f).ras = s.ras := rfl
@[simp] theorem State.mapUsnea_usnea (f : UsneaState → UsneaState) : (s.mapUsnea f).usnea = f s.usnea := rfl
@[simp] theorem State.mapUsnea_power (f : UsneaState → UsneaState) : (s.mapUsnea f).power = s.power := rfl
@[simp] theorem State.mapUsnea_free (f : UsneaState → UsneaState) : (s.mapUsnea f).free = s.free := rfl
@[simp] theorem State.mapUsnea_pending (f : UsneaState → UsneaState) : (s.mapUsnea f).pending = s.pending := rfl
@[simp] theorem State.mapPower_regs (f : PowerState → PowerState) : (s.mapPower f).regs = s.regs := rfl
@[simp] theorem State.mapPower_img (f : PowerState → PowerState) : (s.mapPower f).img = s.img := rfl
@[simp] theorem State.mapPower_host (f : PowerState → PowerState) : (s.mapPower f).host = s.host := rfl
@[simp] theorem State.mapPower_shards (f : PowerState → PowerState) : (s.mapPower f).shards = s.shards := rfl
@[simp] theorem State.mapPower_lichen (f : PowerState → PowerState) : (s.mapPower f).lichen = s.lichen := rfl
@[simp] theorem State.mapPower_epoch (f : PowerState → PowerState) : (s.mapPower f).epoch = s.epoch := rfl
@[simp] theorem State.mapPower_model (f : PowerState → PowerState) : (s.mapPower f).model = s.model := rfl
@[simp] theorem State.mapPower_mem (f : PowerState → PowerState) : (s.mapPower f).mem = s.mem := rfl
@[simp] theorem State.mapPower_felt (f : PowerState → PowerState) : (s.mapPower f).felt = s.felt := rfl
@[simp] theorem State.mapPower_twill (f : PowerState → PowerState) : (s.mapPower f).twill = s.twill := rfl
@[simp] theorem State.mapPower_own (f : PowerState → PowerState) : (s.mapPower f).own = s.own := rfl
@[simp] theorem State.mapPower_sec (f : PowerState → PowerState) : (s.mapPower f).sec = s.sec := rfl
@[simp] theorem State.mapPower_ras (f : PowerState → PowerState) : (s.mapPower f).ras = s.ras := rfl
@[simp] theorem State.mapPower_usnea (f : PowerState → PowerState) : (s.mapPower f).usnea = s.usnea := rfl
@[simp] theorem State.mapPower_power (f : PowerState → PowerState) : (s.mapPower f).power = f s.power := rfl
@[simp] theorem State.mapPower_free (f : PowerState → PowerState) : (s.mapPower f).free = s.free := rfl
@[simp] theorem State.mapPower_pending (f : PowerState → PowerState) : (s.mapPower f).pending = s.pending := rfl
@[simp] theorem State.mapShards_regs (f : Smap Shard → Smap Shard) : (s.mapShards f).regs = s.regs := rfl
@[simp] theorem State.mapShards_img (f : Smap Shard → Smap Shard) : (s.mapShards f).img = s.img := rfl
@[simp] theorem State.mapShards_host (f : Smap Shard → Smap Shard) : (s.mapShards f).host = s.host := rfl
@[simp] theorem State.mapShards_shards (f : Smap Shard → Smap Shard) : (s.mapShards f).shards = f s.shards := rfl
@[simp] theorem State.mapShards_lichen (f : Smap Shard → Smap Shard) : (s.mapShards f).lichen = s.lichen := rfl
@[simp] theorem State.mapShards_epoch (f : Smap Shard → Smap Shard) : (s.mapShards f).epoch = s.epoch := rfl
@[simp] theorem State.mapShards_model (f : Smap Shard → Smap Shard) : (s.mapShards f).model = s.model := rfl
@[simp] theorem State.mapShards_mem (f : Smap Shard → Smap Shard) : (s.mapShards f).mem = s.mem := rfl
@[simp] theorem State.mapShards_felt (f : Smap Shard → Smap Shard) : (s.mapShards f).felt = s.felt := rfl
@[simp] theorem State.mapShards_twill (f : Smap Shard → Smap Shard) : (s.mapShards f).twill = s.twill := rfl
@[simp] theorem State.mapShards_own (f : Smap Shard → Smap Shard) : (s.mapShards f).own = s.own := rfl
@[simp] theorem State.mapShards_sec (f : Smap Shard → Smap Shard) : (s.mapShards f).sec = s.sec := rfl
@[simp] theorem State.mapShards_ras (f : Smap Shard → Smap Shard) : (s.mapShards f).ras = s.ras := rfl
@[simp] theorem State.mapShards_usnea (f : Smap Shard → Smap Shard) : (s.mapShards f).usnea = s.usnea := rfl
@[simp] theorem State.mapShards_power (f : Smap Shard → Smap Shard) : (s.mapShards f).power = s.power := rfl
@[simp] theorem State.mapShards_free (f : Smap Shard → Smap Shard) : (s.mapShards f).free = s.free := rfl
@[simp] theorem State.mapShards_pending (f : Smap Shard → Smap Shard) : (s.mapShards f).pending = s.pending := rfl
@[simp] theorem State.setReg_img (r : Reg) (u : Nat) (v : W32) : (s.setReg r u v).img = s.img := rfl
@[simp] theorem State.setReg_host (r : Reg) (u : Nat) (v : W32) : (s.setReg r u v).host = s.host := rfl
@[simp] theorem State.setReg_shards (r : Reg) (u : Nat) (v : W32) : (s.setReg r u v).shards = s.shards := rfl
@[simp] theorem State.setReg_lichen (r : Reg) (u : Nat) (v : W32) : (s.setReg r u v).lichen = s.lichen := rfl
@[simp] theorem State.setReg_epoch (r : Reg) (u : Nat) (v : W32) : (s.setReg r u v).epoch = s.epoch := rfl
@[simp] theorem State.setReg_model (r : Reg) (u : Nat) (v : W32) : (s.setReg r u v).model = s.model := rfl
@[simp] theorem State.setReg_mem (r : Reg) (u : Nat) (v : W32) : (s.setReg r u v).mem = s.mem := rfl
@[simp] theorem State.setReg_felt (r : Reg) (u : Nat) (v : W32) : (s.setReg r u v).felt = s.felt := rfl
@[simp] theorem State.setReg_twill (r : Reg) (u : Nat) (v : W32) : (s.setReg r u v).twill = s.twill := rfl
@[simp] theorem State.setReg_own (r : Reg) (u : Nat) (v : W32) : (s.setReg r u v).own = s.own := rfl
@[simp] theorem State.setReg_sec (r : Reg) (u : Nat) (v : W32) : (s.setReg r u v).sec = s.sec := rfl
@[simp] theorem State.setReg_ras (r : Reg) (u : Nat) (v : W32) : (s.setReg r u v).ras = s.ras := rfl
@[simp] theorem State.setReg_usnea (r : Reg) (u : Nat) (v : W32) : (s.setReg r u v).usnea = s.usnea := rfl
@[simp] theorem State.setReg_power (r : Reg) (u : Nat) (v : W32) : (s.setReg r u v).power = s.power := rfl
@[simp] theorem State.setReg_free (r : Reg) (u : Nat) (v : W32) : (s.setReg r u v).free = s.free := rfl
@[simp] theorem State.setReg_pending (r : Reg) (u : Nat) (v : W32) : (s.setReg r u v).pending = s.pending := rfl
@[simp] theorem State.setShadow_img (r : Reg) (u : Nat) (v : W32) : (s.setShadow r u v).img = s.img := rfl
@[simp] theorem State.setShadow_host (r : Reg) (u : Nat) (v : W32) : (s.setShadow r u v).host = s.host := rfl
@[simp] theorem State.setShadow_shards (r : Reg) (u : Nat) (v : W32) : (s.setShadow r u v).shards = s.shards := rfl
@[simp] theorem State.setShadow_lichen (r : Reg) (u : Nat) (v : W32) : (s.setShadow r u v).lichen = s.lichen := rfl
@[simp] theorem State.setShadow_epoch (r : Reg) (u : Nat) (v : W32) : (s.setShadow r u v).epoch = s.epoch := rfl
@[simp] theorem State.setShadow_model (r : Reg) (u : Nat) (v : W32) : (s.setShadow r u v).model = s.model := rfl
@[simp] theorem State.setShadow_mem (r : Reg) (u : Nat) (v : W32) : (s.setShadow r u v).mem = s.mem := rfl
@[simp] theorem State.setShadow_felt (r : Reg) (u : Nat) (v : W32) : (s.setShadow r u v).felt = s.felt := rfl
@[simp] theorem State.setShadow_twill (r : Reg) (u : Nat) (v : W32) : (s.setShadow r u v).twill = s.twill := rfl
@[simp] theorem State.setShadow_own (r : Reg) (u : Nat) (v : W32) : (s.setShadow r u v).own = s.own := rfl
@[simp] theorem State.setShadow_sec (r : Reg) (u : Nat) (v : W32) : (s.setShadow r u v).sec = s.sec := rfl
@[simp] theorem State.setShadow_ras (r : Reg) (u : Nat) (v : W32) : (s.setShadow r u v).ras = s.ras := rfl
@[simp] theorem State.setShadow_usnea (r : Reg) (u : Nat) (v : W32) : (s.setShadow r u v).usnea = s.usnea := rfl
@[simp] theorem State.setShadow_power (r : Reg) (u : Nat) (v : W32) : (s.setShadow r u v).power = s.power := rfl
@[simp] theorem State.setShadow_free (r : Reg) (u : Nat) (v : W32) : (s.setShadow r u v).free = s.free := rfl
@[simp] theorem State.setShadow_pending (r : Reg) (u : Nat) (v : W32) : (s.setShadow r u v).pending = s.pending := rfl
@[simp] theorem State.setRo_img (r : Reg) (u : Nat) (v : W32) : (s.setRo r u v).img = s.img := rfl
@[simp] theorem State.setRo_host (r : Reg) (u : Nat) (v : W32) : (s.setRo r u v).host = s.host := rfl
@[simp] theorem State.setRo_shards (r : Reg) (u : Nat) (v : W32) : (s.setRo r u v).shards = s.shards := rfl
@[simp] theorem State.setRo_lichen (r : Reg) (u : Nat) (v : W32) : (s.setRo r u v).lichen = s.lichen := rfl
@[simp] theorem State.setRo_epoch (r : Reg) (u : Nat) (v : W32) : (s.setRo r u v).epoch = s.epoch := rfl
@[simp] theorem State.setRo_model (r : Reg) (u : Nat) (v : W32) : (s.setRo r u v).model = s.model := rfl
@[simp] theorem State.setRo_mem (r : Reg) (u : Nat) (v : W32) : (s.setRo r u v).mem = s.mem := rfl
@[simp] theorem State.setRo_felt (r : Reg) (u : Nat) (v : W32) : (s.setRo r u v).felt = s.felt := rfl
@[simp] theorem State.setRo_twill (r : Reg) (u : Nat) (v : W32) : (s.setRo r u v).twill = s.twill := rfl
@[simp] theorem State.setRo_own (r : Reg) (u : Nat) (v : W32) : (s.setRo r u v).own = s.own := rfl
@[simp] theorem State.setRo_sec (r : Reg) (u : Nat) (v : W32) : (s.setRo r u v).sec = s.sec := rfl
@[simp] theorem State.setRo_ras (r : Reg) (u : Nat) (v : W32) : (s.setRo r u v).ras = s.ras := rfl
@[simp] theorem State.setRo_usnea (r : Reg) (u : Nat) (v : W32) : (s.setRo r u v).usnea = s.usnea := rfl
@[simp] theorem State.setRo_power (r : Reg) (u : Nat) (v : W32) : (s.setRo r u v).power = s.power := rfl
@[simp] theorem State.setRo_free (r : Reg) (u : Nat) (v : W32) : (s.setRo r u v).free = s.free := rfl
@[simp] theorem State.setRo_pending (r : Reg) (u : Nat) (v : W32) : (s.setRo r u v).pending = s.pending := rfl
@[simp] theorem State.bump_img (r : Reg) (u n : Nat) : (s.bump r u n).img = s.img := rfl
@[simp] theorem State.bump_host (r : Reg) (u n : Nat) : (s.bump r u n).host = s.host := rfl
@[simp] theorem State.bump_shards (r : Reg) (u n : Nat) : (s.bump r u n).shards = s.shards := rfl
@[simp] theorem State.bump_lichen (r : Reg) (u n : Nat) : (s.bump r u n).lichen = s.lichen := rfl
@[simp] theorem State.bump_epoch (r : Reg) (u n : Nat) : (s.bump r u n).epoch = s.epoch := rfl
@[simp] theorem State.bump_model (r : Reg) (u n : Nat) : (s.bump r u n).model = s.model := rfl
@[simp] theorem State.bump_mem (r : Reg) (u n : Nat) : (s.bump r u n).mem = s.mem := rfl
@[simp] theorem State.bump_felt (r : Reg) (u n : Nat) : (s.bump r u n).felt = s.felt := rfl
@[simp] theorem State.bump_twill (r : Reg) (u n : Nat) : (s.bump r u n).twill = s.twill := rfl
@[simp] theorem State.bump_own (r : Reg) (u n : Nat) : (s.bump r u n).own = s.own := rfl
@[simp] theorem State.bump_sec (r : Reg) (u n : Nat) : (s.bump r u n).sec = s.sec := rfl
@[simp] theorem State.bump_ras (r : Reg) (u n : Nat) : (s.bump r u n).ras = s.ras := rfl
@[simp] theorem State.bump_usnea (r : Reg) (u n : Nat) : (s.bump r u n).usnea = s.usnea := rfl
@[simp] theorem State.bump_power (r : Reg) (u n : Nat) : (s.bump r u n).power = s.power := rfl
@[simp] theorem State.bump_free (r : Reg) (u n : Nat) : (s.bump r u n).free = s.free := rfl
@[simp] theorem State.bump_pending (r : Reg) (u n : Nat) : (s.bump r u n).pending = s.pending := rfl
@[simp] theorem hostWrite_regs (a : Nat) (b : List Byte) : (hostWrite s a b).regs = s.regs := rfl
@[simp] theorem hostWrite_img (a : Nat) (b : List Byte) : (hostWrite s a b).img = s.img := rfl
@[simp] theorem hostWrite_shards (a : Nat) (b : List Byte) : (hostWrite s a b).shards = s.shards := rfl
@[simp] theorem hostWrite_lichen (a : Nat) (b : List Byte) : (hostWrite s a b).lichen = s.lichen := rfl
@[simp] theorem hostWrite_epoch (a : Nat) (b : List Byte) : (hostWrite s a b).epoch = s.epoch := rfl
@[simp] theorem hostWrite_model (a : Nat) (b : List Byte) : (hostWrite s a b).model = s.model := rfl
@[simp] theorem hostWrite_mem (a : Nat) (b : List Byte) : (hostWrite s a b).mem = s.mem := rfl
@[simp] theorem hostWrite_felt (a : Nat) (b : List Byte) : (hostWrite s a b).felt = s.felt := rfl
@[simp] theorem hostWrite_twill (a : Nat) (b : List Byte) : (hostWrite s a b).twill = s.twill := rfl
@[simp] theorem hostWrite_own (a : Nat) (b : List Byte) : (hostWrite s a b).own = s.own := rfl
@[simp] theorem hostWrite_sec (a : Nat) (b : List Byte) : (hostWrite s a b).sec = s.sec := rfl
@[simp] theorem hostWrite_ras (a : Nat) (b : List Byte) : (hostWrite s a b).ras = s.ras := rfl
@[simp] theorem hostWrite_usnea (a : Nat) (b : List Byte) : (hostWrite s a b).usnea = s.usnea := rfl
@[simp] theorem hostWrite_power (a : Nat) (b : List Byte) : (hostWrite s a b).power = s.power := rfl
@[simp] theorem hostWrite_free (a : Nat) (b : List Byte) : (hostWrite s a b).free = s.free := rfl
@[simp] theorem hostWrite_pending (a : Nat) (b : List Byte) : (hostWrite s a b).pending = s.pending := rfl
@[simp] theorem State.drawn_regs : (s.drawn).regs = s.regs := rfl
@[simp] theorem State.drawn_img : (s.drawn).img = s.img := rfl
@[simp] theorem State.drawn_host : (s.drawn).host = s.host := rfl
@[simp] theorem State.drawn_shards : (s.drawn).shards = s.shards := rfl
@[simp] theorem State.drawn_lichen : (s.drawn).lichen = s.lichen := rfl
@[simp] theorem State.drawn_epoch : (s.drawn).epoch = s.epoch := rfl
@[simp] theorem State.drawn_model : (s.drawn).model = s.model := rfl
@[simp] theorem State.drawn_mem : (s.drawn).mem = s.mem := rfl
@[simp] theorem State.drawn_felt : (s.drawn).felt = s.felt := rfl
@[simp] theorem State.drawn_twill : (s.drawn).twill = s.twill := rfl
@[simp] theorem State.drawn_own : (s.drawn).own = s.own := rfl
@[simp] theorem State.drawn_sec : (s.drawn).sec = s.sec := rfl
@[simp] theorem State.drawn_ras : (s.drawn).ras = s.ras := rfl
@[simp] theorem State.drawn_usnea : (s.drawn).usnea = s.usnea := rfl
@[simp] theorem State.drawn_power : (s.drawn).power = s.power := rfl
@[simp] theorem State.drawn_pending : (s.drawn).pending = s.pending := rfl

end Sys2Proof.Machine
end

