-- ==== Sys2Proof/Laws/Tables.lean ====
section
/-! SUPPORT. Laws of the sparse tables: what a read after a write gives, and that every operation keeps the canonical form. -/
namespace Sys2Proof

section
variable {α : Type}

@[simp] theorem Smap.get_nil (i : Nat) : Smap.get ([] : Smap α) i = none := rfl

@[simp] theorem Smap.get_put_same (m : Smap α) (i : Nat) (x : α) : (m.put i x).get i = some x := by
  induction m with
  | nil => simp [Smap.put, Smap.get]
  | cons e t ih =>
    obtain ⟨k, v⟩ := e
    by_cases h : i = k
    · simp [Smap.put, Smap.get, h]
    · by_cases g : i < k <;> simp [Smap.put, Smap.get, h, g, ih]

theorem Smap.get_put_ne (m : Smap α) (i j : Nat) (x : α) (h : j ≠ i) : (m.put i x).get j = m.get j := by
  induction m with
  | nil => simp [Smap.put, Smap.get, h]
  | cons e t ih =>
    obtain ⟨k, v⟩ := e
    by_cases g : i = k
    · subst g; simp [Smap.put, Smap.get, h]
    · by_cases l : i < k
      · by_cases a : j < i
        · simp [Smap.put, Smap.get, g, l, h, a, show j ≠ k by omega, show j < k by omega]
        · simp [Smap.put, Smap.get, g, l, h, a]
      · simp [Smap.put, Smap.get, g, l, ih]

@[simp] theorem Smap.getD_put_same (m : Smap α) (i : Nat) (x d : α) : (m.put i x).getD i d = x := by simp [Smap.getD]

theorem Smap.getD_put_ne (m : Smap α) (i j : Nat) (x d : α) (h : j ≠ i) : (m.put i x).getD j d = m.getD j d := by
  simp [Smap.getD, Smap.get_put_ne m i j x h]

theorem Smap.getD_store_of_ne [DecidableEq α] (d : α) (m : Smap α) (i : Nat) (x : α) (h : x ≠ d) :
    (m.store d i x).getD i d = x := by simp [Smap.store, h]

theorem Smap.getD_store_other [DecidableEq α] (d : α) (m : Smap α) (i j : Nat) (x : α) (h : x ≠ d) (g : j ≠ i) :
    (m.store d i x).getD j d = m.getD j d := by simp [Smap.store, h, Smap.getD_put_ne m i j x d g]

/-- Every key of a well-formed table's tail lies above its head's. -/
theorem Smap.wf_tail {k : Nat} {v : α} {t : Smap α} (h : Smap.wf ((k, v) :: t) = true) : Smap.wf t = true := by
  cases t with
  | nil => rfl
  | cons e t => obtain ⟨k', v'⟩ := e; simp [Smap.wf] at h; exact h.2

theorem Smap.wf_lt {k : Nat} {v : α} {t : Smap α} (h : Smap.wf ((k, v) :: t) = true) : ∀ e ∈ t, k < e.1 := by
  induction t generalizing k v with
  | nil => simp
  | cons e t ih =>
    obtain ⟨k', v'⟩ := e
    simp only [Smap.wf, Bool.and_eq_true, decide_eq_true_eq] at h
    intro e he
    rcases List.mem_cons.1 he with rfl | he
    · exact h.1
    · exact Nat.lt_trans h.1 (ih h.2 e he)

theorem Smap.wf_cons {k : Nat} {v : α} {t : Smap α} (h : Smap.wf t = true) (g : ∀ e ∈ t, k < e.1) : Smap.wf ((k, v) :: t) = true := by
  cases t with
  | nil => rfl
  | cons e t => obtain ⟨k', v'⟩ := e; simp [Smap.wf]; exact ⟨g (k', v') (by simp), h⟩

theorem Smap.mem_put {m : Smap α} {i : Nat} {x : α} {e : Nat × α} (h : e ∈ m.put i x) : e = (i, x) ∨ e ∈ m := by
  induction m with
  | nil => left; simpa [Smap.put] using h
  | cons a t ih =>
    obtain ⟨k, v⟩ := a
    by_cases p : i = k
    · subst p
      simp only [Smap.put, if_true] at h
      rcases List.mem_cons.1 h with q | q
      · exact .inl q
      · exact .inr (List.mem_cons_of_mem _ q)
    · by_cases q : i < k
      · simp only [Smap.put, if_neg p, if_pos q] at h
        exact List.mem_cons.1 h
      · simp only [Smap.put, if_neg p, if_neg q] at h
        rcases List.mem_cons.1 h with r | r
        · exact .inr (by simp [r])
        · rcases ih r with r | r
          · exact .inl r
          · exact .inr (List.mem_cons_of_mem _ r)

theorem Smap.wf_put {m : Smap α} (h : m.wf = true) (i : Nat) (x : α) : (m.put i x).wf = true := by
  induction m with
  | nil => rfl
  | cons a t ih =>
    obtain ⟨k, v⟩ := a
    by_cases p : i = k
    · subst p; simp only [Smap.put, if_true]; exact Smap.wf_cons (Smap.wf_tail h) (Smap.wf_lt h)
    · by_cases q : i < k
      · simp only [Smap.put, if_neg p, if_pos q]
        refine Smap.wf_cons h fun e he => ?_
        rcases List.mem_cons.1 he with rfl | he
        · exact q
        · exact Nat.lt_trans q (Smap.wf_lt h e he)
      · simp only [Smap.put, if_neg p, if_neg q]
        refine Smap.wf_cons (ih (Smap.wf_tail h)) fun e he => ?_
        rcases Smap.mem_put he with rfl | he
        · show k < i; omega
        · exact Smap.wf_lt h e he

theorem Smap.mem_del {m : Smap α} {i : Nat} {e : Nat × α} (h : e ∈ m.del i) : e ∈ m := by
  induction m with
  | nil => exact h
  | cons a t ih =>
    obtain ⟨k, v⟩ := a
    by_cases p : i = k
    · simp [Smap.del, p] at h; exact List.mem_cons_of_mem _ h
    · by_cases q : i < k
      · simpa [Smap.del, p, q] using h
      · simp only [Smap.del, if_neg p, if_neg q] at h
        rcases List.mem_cons.1 h with r | r
        · simp [r]
        · exact List.mem_cons_of_mem _ (ih r)

theorem Smap.wf_del {m : Smap α} (h : m.wf = true) (i : Nat) : (m.del i).wf = true := by
  induction m with
  | nil => rfl
  | cons a t ih =>
    obtain ⟨k, v⟩ := a
    by_cases p : i = k
    · simp only [Smap.del, if_pos p]; exact Smap.wf_tail h
    · by_cases q : i < k
      · simpa [Smap.del, p, q] using h
      · simp only [Smap.del, if_neg p, if_neg q]
        exact Smap.wf_cons (ih (Smap.wf_tail h)) fun e he => Smap.wf_lt h e (Smap.mem_del he)

theorem Smap.wf_store [DecidableEq α] {m : Smap α} (h : m.wf = true) (d : α) (i : Nat) (x : α) : (m.store d i x).wf = true := by
  unfold Smap.store; split
  · exact Smap.wf_del h i
  · exact Smap.wf_put h i x

end

end Sys2Proof

namespace Sys2Proof.Machine
open Sys2Proof

/-- A canonical write keeps the canonical form. -/
theorem memWf_store {α : Type} [DecidableEq α] {d : α} {m : Smap α} (h : memWf d m = true) (i : Nat) (x : α) :
    memWf d (m.store d i x) = true := by
  simp only [memWf, Bool.and_eq_true, List.all_eq_true, decide_eq_true_eq] at h ⊢
  refine ⟨Smap.wf_store h.1 d i x, fun e he => ?_⟩
  unfold Smap.store at he
  split at he
  · exact h.2 e (Smap.mem_del he)
  · rcases Smap.mem_put he with rfl | he
    · assumption
    · exact h.2 e he

/-- Removing an entry keeps the canonical form. -/
theorem memWf_del {α : Type} [DecidableEq α] {d : α} {m : Smap α} (h : memWf d m = true) (i : Nat) : memWf d (m.del i) = true := by
  simp only [memWf, Bool.and_eq_true, List.all_eq_true, decide_eq_true_eq] at h ⊢
  exact ⟨Smap.wf_del h.1 i, fun e he => h.2 e (Smap.mem_del he)⟩

/-- Host memory keeps its canonical form under a write. -/
theorem memWf_memWrite {m : Smap Byte} (h : memWf 0 m = true) (a : Nat) (b : List Byte) : memWf 0 (memWrite m a b) = true := by
  induction b generalizing m a with
  | nil => exact h
  | cons x t ih => exact ih (memWf_store h a x) (a + 1)

/-- The lines of a tier keep their canonical form under a write of lines. -/
theorem memWf_tierLines {m : Smap Nat} (h : memWf 0 m = true) (l : Nat) (b : List (List Byte)) : memWf 0 (tierLines m l b) = true := by
  induction b generalizing m l with
  | nil => exact h
  | cons x t ih => exact ih (memWf_store h l (leNat x)) (l + 1)

/-- A tier keeps its canonical form under a write of bytes. -/
theorem memWf_tierWrite {m : Smap Nat} (h : memWf 0 m = true) (a : Nat) (b : List Byte) : memWf 0 (tierWrite m a b) = true := by
  unfold tierWrite; split
  · exact h
  · exact memWf_tierLines h _ _

end Sys2Proof.Machine
end

