-- ==== Sys2Proof/Laws/Commands.lean ====
section
/-! SUPPORT. What ending a command can do: it writes the command's record, forgets the command's queries with their sweep
records and requests, its merge and its rerank, and touches no other part of the state. -/
namespace Sys2Proof.Machine
open Sys2Proof

/-- Ending a command changes host, Lichen and Twill state at most, and of the command table the command's own record. -/
theorem finish_eq (s : State) (n st pr cf : Nat) : ∃ h l t, finish s n st pr cf = ((s.mapHost fun _ => h).mapLichen fun _ => l).mapTwill (fun _ => t) ∧
    h.cmds = (s.updCmd n fun c => if c.phase = .done then c else { c with phase := .done, status := st, progress := pr, cflags := cf }).host.cmds ∧
    h.mem = s.host.mem ∧ l.t2 = s.lichen.t2 := by
  suffices h : ∀ (qs : List Nat) (u : State), ∃ h l t,
      qs.foldl (fun s q => dropRequests (dropSweeps s q) q) u = ((u.mapHost fun _ => h).mapLichen fun _ => l).mapTwill (fun _ => t) ∧
      h.cmds = u.host.cmds ∧ h.mem = u.host.mem ∧ l.t2 = u.lichen.t2 by
    obtain ⟨h, l, t, e, hc, hm, hl⟩ := h _ (s.updCmd n fun c => if c.phase = .done then c else { c with phase := .done, status := st, progress := pr, cflags := cf })
    unfold finish
    dsimp only
    rw [e]
    exact ⟨_, _, _, rfl, hc, hm, hl⟩
  intro qs
  induction qs with
  | nil => exact fun u => ⟨u.host, u.lichen, u.twill, rfl, rfl, rfl, rfl⟩
  | cons q qs ih =>
    intro u
    obtain ⟨h, l, t, e, hc, hm, hl⟩ := ih (dropRequests (dropSweeps u q) q)
    exact ⟨h, l, t, by rw [List.foldl_cons, e]; rfl, hc, hm, hl⟩

/-- The ended command's record. -/
theorem finish_get (s : State) (n st pr cf : Nat) (c : Cmd) (h : s.host.cmds.get n = some c) (g : c.phase ≠ .done) :
    (finish s n st pr cf).host.cmds.get n = some { c with phase := .done, status := st, progress := pr, cflags := cf } := by
  obtain ⟨a, l, t, e, hc, -⟩ := finish_eq s n st pr cf
  rw [e]
  show a.cmds.get n = _
  rw [hc]
  simp [State.updCmd, State.mapHost, Smap.upd, h, g]

/-- Ending a command that runs leaves it done with the status. -/
theorem endWith_get (s : State) (n st : Nat) (c : Cmd) (h : s.host.cmds.get n = some c) (g : c.phase ≠ .done) :
    (endWith s n st).host.cmds.get n = some { c with phase := .done, status := st, progress := 0, cflags := 0 } :=
  finish_get s n st 0 0 c h g

@[simp] theorem finish_regs (s : State) (n st pr cf : Nat) : (finish s n st pr cf).regs = s.regs := by
  obtain ⟨a, l, t, e, -⟩ := finish_eq s n st pr cf; rw [e]; rfl
@[simp] theorem endWith_regs (s : State) (n st : Nat) : (endWith s n st).regs = s.regs := finish_regs s n st 0 0
@[simp] theorem finish_img (s : State) (n st pr cf : Nat) : (finish s n st pr cf).img = s.img := by
  obtain ⟨a, l, t, e, -⟩ := finish_eq s n st pr cf; rw [e]; rfl
@[simp] theorem endWith_img (s : State) (n st : Nat) : (endWith s n st).img = s.img := finish_img s n st 0 0
@[simp] theorem finish_shards (s : State) (n st pr cf : Nat) : (finish s n st pr cf).shards = s.shards := by
  obtain ⟨a, l, t, e, -⟩ := finish_eq s n st pr cf; rw [e]; rfl
@[simp] theorem endWith_shards (s : State) (n st : Nat) : (endWith s n st).shards = s.shards := finish_shards s n st 0 0
@[simp] theorem finish_epoch (s : State) (n st pr cf : Nat) : (finish s n st pr cf).epoch = s.epoch := by
  obtain ⟨a, l, t, e, -⟩ := finish_eq s n st pr cf; rw [e]; rfl
@[simp] theorem endWith_epoch (s : State) (n st : Nat) : (endWith s n st).epoch = s.epoch := finish_epoch s n st 0 0
@[simp] theorem finish_model (s : State) (n st pr cf : Nat) : (finish s n st pr cf).model = s.model := by
  obtain ⟨a, l, t, e, -⟩ := finish_eq s n st pr cf; rw [e]; rfl
@[simp] theorem endWith_model (s : State) (n st : Nat) : (endWith s n st).model = s.model := finish_model s n st 0 0
@[simp] theorem finish_mem (s : State) (n st pr cf : Nat) : (finish s n st pr cf).mem = s.mem := by
  obtain ⟨a, l, t, e, -⟩ := finish_eq s n st pr cf; rw [e]; rfl
@[simp] theorem endWith_mem (s : State) (n st : Nat) : (endWith s n st).mem = s.mem := finish_mem s n st 0 0
@[simp] theorem finish_felt (s : State) (n st pr cf : Nat) : (finish s n st pr cf).felt = s.felt := by
  obtain ⟨a, l, t, e, -⟩ := finish_eq s n st pr cf; rw [e]; rfl
@[simp] theorem endWith_felt (s : State) (n st : Nat) : (endWith s n st).felt = s.felt := finish_felt s n st 0 0
@[simp] theorem finish_own (s : State) (n st pr cf : Nat) : (finish s n st pr cf).own = s.own := by
  obtain ⟨a, l, t, e, -⟩ := finish_eq s n st pr cf; rw [e]; rfl
@[simp] theorem endWith_own (s : State) (n st : Nat) : (endWith s n st).own = s.own := finish_own s n st 0 0
@[simp] theorem finish_sec (s : State) (n st pr cf : Nat) : (finish s n st pr cf).sec = s.sec := by
  obtain ⟨a, l, t, e, -⟩ := finish_eq s n st pr cf; rw [e]; rfl
@[simp] theorem endWith_sec (s : State) (n st : Nat) : (endWith s n st).sec = s.sec := finish_sec s n st 0 0
@[simp] theorem finish_ras (s : State) (n st pr cf : Nat) : (finish s n st pr cf).ras = s.ras := by
  obtain ⟨a, l, t, e, -⟩ := finish_eq s n st pr cf; rw [e]; rfl
@[simp] theorem endWith_ras (s : State) (n st : Nat) : (endWith s n st).ras = s.ras := finish_ras s n st 0 0
@[simp] theorem finish_usnea (s : State) (n st pr cf : Nat) : (finish s n st pr cf).usnea = s.usnea := by
  obtain ⟨a, l, t, e, -⟩ := finish_eq s n st pr cf; rw [e]; rfl
@[simp] theorem endWith_usnea (s : State) (n st : Nat) : (endWith s n st).usnea = s.usnea := finish_usnea s n st 0 0
@[simp] theorem finish_power (s : State) (n st pr cf : Nat) : (finish s n st pr cf).power = s.power := by
  obtain ⟨a, l, t, e, -⟩ := finish_eq s n st pr cf; rw [e]; rfl
@[simp] theorem endWith_power (s : State) (n st : Nat) : (endWith s n st).power = s.power := finish_power s n st 0 0
@[simp] theorem finish_free (s : State) (n st pr cf : Nat) : (finish s n st pr cf).free = s.free := by
  obtain ⟨a, l, t, e, -⟩ := finish_eq s n st pr cf; rw [e]; rfl
@[simp] theorem endWith_free (s : State) (n st : Nat) : (endWith s n st).free = s.free := finish_free s n st 0 0
@[simp] theorem finish_pending (s : State) (n st pr cf : Nat) : (finish s n st pr cf).pending = s.pending := by
  obtain ⟨a, l, t, e, -⟩ := finish_eq s n st pr cf; rw [e]; rfl
@[simp] theorem endWith_pending (s : State) (n st : Nat) : (endWith s n st).pending = s.pending := finish_pending s n st 0 0
@[simp] theorem finish_hostmem (s : State) (n st pr cf : Nat) : (finish s n st pr cf).host.mem = s.host.mem := by
  obtain ⟨a, l, t, e, -, hm, -⟩ := finish_eq s n st pr cf; rw [e]; exact hm
@[simp] theorem endWith_hostmem (s : State) (n st : Nat) : (endWith s n st).host.mem = s.host.mem := finish_hostmem s n st 0 0
@[simp] theorem finish_t2 (s : State) (n st pr cf : Nat) : (finish s n st pr cf).lichen.t2 = s.lichen.t2 := by
  obtain ⟨a, l, t, e, -, -, hl⟩ := finish_eq s n st pr cf; rw [e]; exact hl
@[simp] theorem endWith_t2 (s : State) (n st : Nat) : (endWith s n st).lichen.t2 = s.lichen.t2 := finish_t2 s n st 0 0
end Sys2Proof.Machine
end

