-- ==== Sys2Proof/Laws/Flags.lean ====
section
/-! SUPPORT. What the event, interrupt and write-error operations can do: they touch the sequence-clear registers, the
interrupt vectors and the write-error registers, and no other part of the state. -/
namespace Sys2Proof.Machine
open Sys2Proof

/-- An MSI-X message changes the messages sent and a function's pending vectors at most. -/
theorem sendMsix_eq (s : State) (fn v : Nat) : ∃ a b, sendMsix s fn v = s.mapHost fun h => { h with msix := a, fns := b } := by
  unfold sendMsix
  dsimp only
  split
  · exact ⟨s.host.msix, s.host.fns, rfl⟩
  · split
    · exact ⟨_, s.host.fns, rfl⟩
    · exact ⟨s.host.msix, _, rfl⟩

/-- A signalled function changes the messages sent and the functions' records at most. -/
theorem signalFn_eq (s : State) (fn : Nat) : ∃ a b, signalFn s fn = s.mapHost fun h => { h with msix := a, fns := b } := by
  unfold signalFn
  dsimp only
  split
  · exact ⟨s.host.msix, s.host.fns, rfl⟩
  · split
    · exact ⟨s.host.msix, _, rfl⟩
    · obtain ⟨a, b, h⟩ := sendMsix_eq s fn (bits (s.reg .hqFnEventVec fn).toNat 0 11)
      rw [h]
      exact ⟨a, _, rfl⟩

theorem foldl_signalFn_eq (l : List Nat) (s : State) :
    ∃ a b, l.foldl signalFn s = s.mapHost fun h => { h with msix := a, fns := b } := by
  induction l generalizing s with
  | nil => exact ⟨s.host.msix, s.host.fns, rfl⟩
  | cons x t ih =>
    obtain ⟨a, b, h⟩ := signalFn_eq s x
    obtain ⟨a', b', h'⟩ := ih (signalFn s x)
    exact ⟨a', b', by rw [List.foldl_cons, h', h]; rfl⟩

/-- An event sets its bit with the next stamp and signals functions; nothing else changes (R84, R533). -/
theorem event_eq (s : State) (r : Reg) (u b : Nat) : ∃ a c, s.event r u b =
    (s.mapRegs fun x => { x with sqc := x.sqc.put (regKey r u) (sqcSet (s.sqc r u) b) }).mapHost fun h => { h with msix := a, fns := c } := by
  unfold State.event
  dsimp only
  split
  · exact ⟨s.host.msix, s.host.fns, rfl⟩
  · exact foldl_signalFn_eq _ _

/-- The event register after an event. -/
@[simp] theorem event_sqc (s : State) (r : Reg) (u b : Nat) : (s.event r u b).sqc r u = sqcSet (s.sqc r u) b := by
  obtain ⟨a, c, h⟩ := event_eq s r u b
  rw [h]
  exact Smap.getD_put_same _ _ _ _

/-- A bit that an event set reads as 1. -/
theorem sqcSet_bit (c : SqcCell) (b : Nat) (h : b < 24) : (sqcSet c b).ev.getLsbD b = true := by
  simp only [sqcSet, BitVec.getLsbD_or, BitVec.getLsbD_ofNat, Nat.testBit_two_pow_self, h, decide_true, Bool.and_true, Bool.or_true]

/-- A write error changes the requester's write-error registers and signals a function (R67). -/
theorem writeError_eq (s : State) (req block off al cause : Nat) : ∃ w i a b, writeError s req block off al cause =
    (s.mapRegs fun x => { x with werr := w, werrInfo := i }).mapHost fun h => { h with msix := a, fns := b } := by
  unfold writeError
  dsimp only
  split
  · split
    · exact ⟨_, s.regs.werrInfo, s.host.msix, s.host.fns, rfl⟩
    · obtain ⟨a, b, h⟩ := signalFn_eq
        (s.mapRegs fun x => { x with werr := x.werr.put (werrKey req block) (sqcSet (s.regs.werr.getD (werrKey req block) SqcCell.clear) 1) })
        (if req ≥ 64 then 0 else req)
      exact ⟨_, s.regs.werrInfo, a, b, h⟩
  · obtain ⟨a, b, h⟩ := signalFn_eq
      (s.mapRegs fun x => { x with
        werr := x.werr.put (werrKey req block) (sqcSet (s.regs.werr.getD (werrKey req block) SqcCell.clear) 0),
        werrInfo := x.werrInfo.put (werrKey req block) { offset := off, alias_ := al, cause := cause, fn := req } }) (if req ≥ 64 then 0 else req)
    exact ⟨_, _, a, b, h⟩

@[simp] theorem event_img (s : State) (r : Reg) (u b : Nat) : (s.event r u b).img = s.img := by
  obtain ⟨a, c, h⟩ := event_eq s r u b; rw [h]; rfl
@[simp] theorem event_shards (s : State) (r : Reg) (u b : Nat) : (s.event r u b).shards = s.shards := by
  obtain ⟨a, c, h⟩ := event_eq s r u b; rw [h]; rfl
@[simp] theorem event_lichen (s : State) (r : Reg) (u b : Nat) : (s.event r u b).lichen = s.lichen := by
  obtain ⟨a, c, h⟩ := event_eq s r u b; rw [h]; rfl
@[simp] theorem event_epoch (s : State) (r : Reg) (u b : Nat) : (s.event r u b).epoch = s.epoch := by
  obtain ⟨a, c, h⟩ := event_eq s r u b; rw [h]; rfl
@[simp] theorem event_model (s : State) (r : Reg) (u b : Nat) : (s.event r u b).model = s.model := by
  obtain ⟨a, c, h⟩ := event_eq s r u b; rw [h]; rfl
@[simp] theorem event_mem (s : State) (r : Reg) (u b : Nat) : (s.event r u b).mem = s.mem := by
  obtain ⟨a, c, h⟩ := event_eq s r u b; rw [h]; rfl
@[simp] theorem event_felt (s : State) (r : Reg) (u b : Nat) : (s.event r u b).felt = s.felt := by
  obtain ⟨a, c, h⟩ := event_eq s r u b; rw [h]; rfl
@[simp] theorem event_twill (s : State) (r : Reg) (u b : Nat) : (s.event r u b).twill = s.twill := by
  obtain ⟨a, c, h⟩ := event_eq s r u b; rw [h]; rfl
@[simp] theorem event_own (s : State) (r : Reg) (u b : Nat) : (s.event r u b).own = s.own := by
  obtain ⟨a, c, h⟩ := event_eq s r u b; rw [h]; rfl
@[simp] theorem event_sec (s : State) (r : Reg) (u b : Nat) : (s.event r u b).sec = s.sec := by
  obtain ⟨a, c, h⟩ := event_eq s r u b; rw [h]; rfl
@[simp] theorem event_ras (s : State) (r : Reg) (u b : Nat) : (s.event r u b).ras = s.ras := by
  obtain ⟨a, c, h⟩ := event_eq s r u b; rw [h]; rfl
@[simp] theorem event_usnea (s : State) (r : Reg) (u b : Nat) : (s.event r u b).usnea = s.usnea := by
  obtain ⟨a, c, h⟩ := event_eq s r u b; rw [h]; rfl
@[simp] theorem event_power (s : State) (r : Reg) (u b : Nat) : (s.event r u b).power = s.power := by
  obtain ⟨a, c, h⟩ := event_eq s r u b; rw [h]; rfl
@[simp] theorem event_free (s : State) (r : Reg) (u b : Nat) : (s.event r u b).free = s.free := by
  obtain ⟨a, c, h⟩ := event_eq s r u b; rw [h]; rfl
@[simp] theorem event_pending (s : State) (r : Reg) (u b : Nat) : (s.event r u b).pending = s.pending := by
  obtain ⟨a, c, h⟩ := event_eq s r u b; rw [h]; rfl
@[simp] theorem event_host_mem (s : State) (r : Reg) (u b : Nat) : (s.event r u b).host.mem = s.host.mem := by
  obtain ⟨a, c, h⟩ := event_eq s r u b; rw [h]; rfl
@[simp] theorem event_host_cmds (s : State) (r : Reg) (u b : Nat) : (s.event r u b).host.cmds = s.host.cmds := by
  obtain ⟨a, c, h⟩ := event_eq s r u b; rw [h]; rfl
@[simp] theorem event_host_qps (s : State) (r : Reg) (u b : Nat) : (s.event r u b).host.qps = s.host.qps := by
  obtain ⟨a, c, h⟩ := event_eq s r u b; rw [h]; rfl
@[simp] theorem event_regs_force (s : State) (r : Reg) (u b : Nat) : (s.event r u b).regs.force = s.regs.force := by
  obtain ⟨a, c, h⟩ := event_eq s r u b; rw [h]; rfl
@[simp] theorem event_regs_ro (s : State) (r : Reg) (u b : Nat) : (s.event r u b).regs.ro = s.regs.ro := by
  obtain ⟨a, c, h⟩ := event_eq s r u b; rw [h]; rfl
@[simp] theorem eventIf_img (s : State) (c : Bool) (r : Reg) (u b : Nat) : (s.eventIf c r u b).img = s.img := by
  cases c <;> simp [State.eventIf]
@[simp] theorem eventIf_shards (s : State) (c : Bool) (r : Reg) (u b : Nat) : (s.eventIf c r u b).shards = s.shards := by
  cases c <;> simp [State.eventIf]
@[simp] theorem eventIf_lichen (s : State) (c : Bool) (r : Reg) (u b : Nat) : (s.eventIf c r u b).lichen = s.lichen := by
  cases c <;> simp [State.eventIf]
@[simp] theorem eventIf_epoch (s : State) (c : Bool) (r : Reg) (u b : Nat) : (s.eventIf c r u b).epoch = s.epoch := by
  cases c <;> simp [State.eventIf]
@[simp] theorem eventIf_model (s : State) (c : Bool) (r : Reg) (u b : Nat) : (s.eventIf c r u b).model = s.model := by
  cases c <;> simp [State.eventIf]
@[simp] theorem eventIf_mem (s : State) (c : Bool) (r : Reg) (u b : Nat) : (s.eventIf c r u b).mem = s.mem := by
  cases c <;> simp [State.eventIf]
@[simp] theorem eventIf_felt (s : State) (c : Bool) (r : Reg) (u b : Nat) : (s.eventIf c r u b).felt = s.felt := by
  cases c <;> simp [State.eventIf]
@[simp] theorem eventIf_twill (s : State) (c : Bool) (r : Reg) (u b : Nat) : (s.eventIf c r u b).twill = s.twill := by
  cases c <;> simp [State.eventIf]
@[simp] theorem eventIf_own (s : State) (c : Bool) (r : Reg) (u b : Nat) : (s.eventIf c r u b).own = s.own := by
  cases c <;> simp [State.eventIf]
@[simp] theorem eventIf_sec (s : State) (c : Bool) (r : Reg) (u b : Nat) : (s.eventIf c r u b).sec = s.sec := by
  cases c <;> simp [State.eventIf]
@[simp] theorem eventIf_ras (s : State) (c : Bool) (r : Reg) (u b : Nat) : (s.eventIf c r u b).ras = s.ras := by
  cases c <;> simp [State.eventIf]
@[simp] theorem eventIf_usnea (s : State) (c : Bool) (r : Reg) (u b : Nat) : (s.eventIf c r u b).usnea = s.usnea := by
  cases c <;> simp [State.eventIf]
@[simp] theorem eventIf_power (s : State) (c : Bool) (r : Reg) (u b : Nat) : (s.eventIf c r u b).power = s.power := by
  cases c <;> simp [State.eventIf]
@[simp] theorem eventIf_free (s : State) (c : Bool) (r : Reg) (u b : Nat) : (s.eventIf c r u b).free = s.free := by
  cases c <;> simp [State.eventIf]
@[simp] theorem eventIf_pending (s : State) (c : Bool) (r : Reg) (u b : Nat) : (s.eventIf c r u b).pending = s.pending := by
  cases c <;> simp [State.eventIf]
@[simp] theorem eventIf_host_mem (s : State) (c : Bool) (r : Reg) (u b : Nat) : (s.eventIf c r u b).host.mem = s.host.mem := by
  cases c <;> simp [State.eventIf]
@[simp] theorem writeError_img (s : State) (req block off al cause : Nat) : (writeError s req block off al cause).img = s.img := by
  obtain ⟨w, i, a, b, h⟩ := writeError_eq s req block off al cause; rw [h]; rfl
@[simp] theorem writeError_shards (s : State) (req block off al cause : Nat) : (writeError s req block off al cause).shards = s.shards := by
  obtain ⟨w, i, a, b, h⟩ := writeError_eq s req block off al cause; rw [h]; rfl
@[simp] theorem writeError_lichen (s : State) (req block off al cause : Nat) : (writeError s req block off al cause).lichen = s.lichen := by
  obtain ⟨w, i, a, b, h⟩ := writeError_eq s req block off al cause; rw [h]; rfl
@[simp] theorem writeError_epoch (s : State) (req block off al cause : Nat) : (writeError s req block off al cause).epoch = s.epoch := by
  obtain ⟨w, i, a, b, h⟩ := writeError_eq s req block off al cause; rw [h]; rfl
@[simp] theorem writeError_model (s : State) (req block off al cause : Nat) : (writeError s req block off al cause).model = s.model := by
  obtain ⟨w, i, a, b, h⟩ := writeError_eq s req block off al cause; rw [h]; rfl
@[simp] theorem writeError_mem (s : State) (req block off al cause : Nat) : (writeError s req block off al cause).mem = s.mem := by
  obtain ⟨w, i, a, b, h⟩ := writeError_eq s req block off al cause; rw [h]; rfl
@[simp] theorem writeError_felt (s : State) (req block off al cause : Nat) : (writeError s req block off al cause).felt = s.felt := by
  obtain ⟨w, i, a, b, h⟩ := writeError_eq s req block off al cause; rw [h]; rfl
@[simp] theorem writeError_twill (s : State) (req block off al cause : Nat) : (writeError s req block off al cause).twill = s.twill := by
  obtain ⟨w, i, a, b, h⟩ := writeError_eq s req block off al cause; rw [h]; rfl
@[simp] theorem writeError_own (s : State) (req block off al cause : Nat) : (writeError s req block off al cause).own = s.own := by
  obtain ⟨w, i, a, b, h⟩ := writeError_eq s req block off al cause; rw [h]; rfl
@[simp] theorem writeError_sec (s : State) (req block off al cause : Nat) : (writeError s req block off al cause).sec = s.sec := by
  obtain ⟨w, i, a, b, h⟩ := writeError_eq s req block off al cause; rw [h]; rfl
@[simp] theorem writeError_ras (s : State) (req block off al cause : Nat) : (writeError s req block off al cause).ras = s.ras := by
  obtain ⟨w, i, a, b, h⟩ := writeError_eq s req block off al cause; rw [h]; rfl
@[simp] theorem writeError_usnea (s : State) (req block off al cause : Nat) : (writeError s req block off al cause).usnea = s.usnea := by
  obtain ⟨w, i, a, b, h⟩ := writeError_eq s req block off al cause; rw [h]; rfl
@[simp] theorem writeError_power (s : State) (req block off al cause : Nat) : (writeError s req block off al cause).power = s.power := by
  obtain ⟨w, i, a, b, h⟩ := writeError_eq s req block off al cause; rw [h]; rfl
@[simp] theorem writeError_free (s : State) (req block off al cause : Nat) : (writeError s req block off al cause).free = s.free := by
  obtain ⟨w, i, a, b, h⟩ := writeError_eq s req block off al cause; rw [h]; rfl
@[simp] theorem writeError_pending (s : State) (req block off al cause : Nat) : (writeError s req block off al cause).pending = s.pending := by
  obtain ⟨w, i, a, b, h⟩ := writeError_eq s req block off al cause; rw [h]; rfl
@[simp] theorem writeError_host_mem (s : State) (req block off al cause : Nat) : (writeError s req block off al cause).host.mem = s.host.mem := by
  obtain ⟨w, i, a, b, h⟩ := writeError_eq s req block off al cause; rw [h]; rfl
@[simp] theorem writeError_host_cmds (s : State) (req block off al cause : Nat) : (writeError s req block off al cause).host.cmds = s.host.cmds := by
  obtain ⟨w, i, a, b, h⟩ := writeError_eq s req block off al cause; rw [h]; rfl
@[simp] theorem writeError_host_qps (s : State) (req block off al cause : Nat) : (writeError s req block off al cause).host.qps = s.host.qps := by
  obtain ⟨w, i, a, b, h⟩ := writeError_eq s req block off al cause; rw [h]; rfl
@[simp] theorem signalFn_regs (s : State) (fn : Nat) : (signalFn s fn).regs = s.regs := by
  obtain ⟨a, b, h⟩ := signalFn_eq s fn; rw [h]; rfl
@[simp] theorem signalFn_img (s : State) (fn : Nat) : (signalFn s fn).img = s.img := by
  obtain ⟨a, b, h⟩ := signalFn_eq s fn; rw [h]; rfl
@[simp] theorem signalFn_shards (s : State) (fn : Nat) : (signalFn s fn).shards = s.shards := by
  obtain ⟨a, b, h⟩ := signalFn_eq s fn; rw [h]; rfl
@[simp] theorem signalFn_lichen (s : State) (fn : Nat) : (signalFn s fn).lichen = s.lichen := by
  obtain ⟨a, b, h⟩ := signalFn_eq s fn; rw [h]; rfl
@[simp] theorem signalFn_epoch (s : State) (fn : Nat) : (signalFn s fn).epoch = s.epoch := by
  obtain ⟨a, b, h⟩ := signalFn_eq s fn; rw [h]; rfl
@[simp] theorem signalFn_model (s : State) (fn : Nat) : (signalFn s fn).model = s.model := by
  obtain ⟨a, b, h⟩ := signalFn_eq s fn; rw [h]; rfl
@[simp] theorem signalFn_mem (s : State) (fn : Nat) : (signalFn s fn).mem = s.mem := by
  obtain ⟨a, b, h⟩ := signalFn_eq s fn; rw [h]; rfl
@[simp] theorem signalFn_felt (s : State) (fn : Nat) : (signalFn s fn).felt = s.felt := by
  obtain ⟨a, b, h⟩ := signalFn_eq s fn; rw [h]; rfl
@[simp] theorem signalFn_twill (s : State) (fn : Nat) : (signalFn s fn).twill = s.twill := by
  obtain ⟨a, b, h⟩ := signalFn_eq s fn; rw [h]; rfl
@[simp] theorem signalFn_own (s : State) (fn : Nat) : (signalFn s fn).own = s.own := by
  obtain ⟨a, b, h⟩ := signalFn_eq s fn; rw [h]; rfl
@[simp] theorem signalFn_sec (s : State) (fn : Nat) : (signalFn s fn).sec = s.sec := by
  obtain ⟨a, b, h⟩ := signalFn_eq s fn; rw [h]; rfl
@[simp] theorem signalFn_ras (s : State) (fn : Nat) : (signalFn s fn).ras = s.ras := by
  obtain ⟨a, b, h⟩ := signalFn_eq s fn; rw [h]; rfl
@[simp] theorem signalFn_usnea (s : State) (fn : Nat) : (signalFn s fn).usnea = s.usnea := by
  obtain ⟨a, b, h⟩ := signalFn_eq s fn; rw [h]; rfl
@[simp] theorem signalFn_power (s : State) (fn : Nat) : (signalFn s fn).power = s.power := by
  obtain ⟨a, b, h⟩ := signalFn_eq s fn; rw [h]; rfl
@[simp] theorem signalFn_free (s : State) (fn : Nat) : (signalFn s fn).free = s.free := by
  obtain ⟨a, b, h⟩ := signalFn_eq s fn; rw [h]; rfl
@[simp] theorem signalFn_pending (s : State) (fn : Nat) : (signalFn s fn).pending = s.pending := by
  obtain ⟨a, b, h⟩ := signalFn_eq s fn; rw [h]; rfl
@[simp] theorem signalFn_host_mem (s : State) (fn : Nat) : (signalFn s fn).host.mem = s.host.mem := by
  obtain ⟨a, b, h⟩ := signalFn_eq s fn; rw [h]; rfl
@[simp] theorem signalFn_host_cmds (s : State) (fn : Nat) : (signalFn s fn).host.cmds = s.host.cmds := by
  obtain ⟨a, b, h⟩ := signalFn_eq s fn; rw [h]; rfl
@[simp] theorem signalFn_host_qps (s : State) (fn : Nat) : (signalFn s fn).host.qps = s.host.qps := by
  obtain ⟨a, b, h⟩ := signalFn_eq s fn; rw [h]; rfl

end Sys2Proof.Machine
end

