-- ==== Sys2Proof/WellFormed.lean ====
section
/-! DEFINITION. Which commands are well formed: every operand names something that exists (the counts of 01_architecture,
the numbering of R67, R587 and R638). A meaning leaves the state alone, or reports what the spec has it report, where an operand
names nothing. -/
namespace Sys2Proof
open Sys2Proof.Machine

/-- A requester of BAR0: a function, or Usnea firmware (R67). -/
def reqOk (req : Nat) : Bool := decide (req < 64) || decide (req = 127)

/-- A management message as a transport delivers it: at most a header, 4,080 bytes and a seal (R628, R630). -/
def msgOk (m : MgmtMsg) : Bool := decide (m.bytes.length ≤ 4120)

/-- The command is well formed. -/
def Instr.wf : Instr → Bool
  | .sqDoorbell fn q _ _ => decide (fn < 64) && decide (q < 16384)
  | .cqDoorbell fn q _ => decide (fn < 64) && decide (q < 16384)
  | .entryFetch qp => decide (qp < 16384)
  | .admissionSlot => true
  | .creditTick => true
  | .completionWrite _ => true
  | .aggTimeExpiry qp => decide (qp < 16384)
  | .eventGapExpiry fn => decide (fn < 64)
  | .qpEnable req fn q => reqOk req && decide (fn < 64) && decide (q < 16384)
  | .qpDisable req fn q => reqOk req && decide (fn < 64) && decide (q < 16384)
  | .qpDrainEnd qp => decide (qp < 16384)
  | .telemetrySample => true
  | .functionLevelReset fn => decide (fn < 64)
  | .d3hotEntry fn => decide (fn < 64)
  | .hostPortReset => true
  | .vfDisable vf => decide (1 ≤ vf && vf < 64)
  | .t4ReadTimeout _ => true
  | .t4AccessError _ => true
  | .linkChange _ _ _ _ => true
  | .perstNDeassert => true
  | .cxlMemRequest _ _ => true
  | .bar4Access _ _ _ => true
  | .hdmDecoderCommit _ => true
  | .search _ => true
  | .sweep _ => true
  | .insert _ => true
  | .upsert _ => true
  | .delete _ => true
  | .attrSet _ => true
  | .embed _ => true
  | .embedInsert _ => true
  | .rerank _ => true
  | .epochFence _ => true
  | .epochPin _ => true
  | .epochUnpin _ => true
  | .indexCreate _ => true
  | .indexDescribe _ => true
  | .indexRetire _ => true
  | .indexRelocate _ => true
  | .bulkLoad _ => true
  | .seal _ => true
  | .histLoad _ => true
  | .linkSupply _ => true
  | .zoneOpen _ => true
  | .zoneAppend _ => true
  | .zoneFinish _ => true
  | .zoneReset _ => true
  | .zoneReport _ => true
  | .zoneResetErase part zone => decide (part < 64) && decide (zone < 16777216)
  | .modelStore _ => true
  | .modelRemove _ => true
  | .modelGroup _ => true
  | .keyProvision _ => true
  | .fuseProvision _ => true
  | .fuseRevoke _ => true
  | .fuseRaiseSvn _ => true
  | .attest _ => true
  | .certificate _ => true
  | .healthLog _ => true
  | .ledgerRead _ => true
  | .walkStart _ tile => decide (tile < 64)
  | .walkRoundReturn _ => true
  | .sweepBatchStart part index _ => decide (part < 64) && decide (index < 64)
  | .sweepResultRecord bank => decide (bank < 6144)
  | .listEntryArrive _ => true
  | .rescoreReadDone _ => true
  | .disagreeCrcCheck win _ => decide (win < 480)
  | .deadlineExpiry _ => true
  | .deadlineGraceExpiry _ => true
  | .gather stack _ _ _ => decide (stack < 6)
  | .slotLoad stack _ _ => decide (stack < 6)
  | .slotThresh stack _ _ => decide (stack < 6)
  | .slotFree stack _ _ => decide (stack < 6)
  | .sweepStep stack _ _ _ => decide (stack < 6)
  | .fill stack _ _ => decide (stack < 6)
  | .scrub stack _ _ _ => decide (stack < 6)
  | .repair stack _ _ => decide (stack < 6)
  | .sweepStepEnd stack => decide (stack < 6)
  | .gapMaxExpiry stack bank => decide (stack < 6) && decide (bank < 1024)
  | .bankRequest bank _ _ _ _ => decide (bank < 6144)
  | .scrubTick stack _ => decide (stack < 6)
  | .rowGroupRebuild stack win _ _ => decide (stack < 6) && decide (win < 480)
  | .prepare => true
  | .domainReady domain => decide (domain < 236)
  | .epochStrobe => true
  | .strobeAck domain _ => decide (domain < 236)
  | .ackTimeout => true
  | .partitionScrubStep part => decide (part < 64)
  | .pinExpiry part _ => decide (part < 64)
  | .fullWaitExpiry _ => true
  | .journalPageClose part => decide (part < 64)
  | .journalProgramDone part _ copy => decide (part < 64) && decide (copy < 2)
  | .insertWalkStart part index tile => decide (part < 64) && decide (index < 64) && decide (tile < 64)
  | .backLink part index _ => decide (part < 64) && decide (index < 64)
  | .vectorStoreWriteDone part index _ => decide (part < 64) && decide (index < 64)
  | .settlerSettle part index => decide (part < 64) && decide (index < 64)
  | .settlerFold part index => decide (part < 64) && decide (index < 64)
  | .repairWalk part index => decide (part < 64) && decide (index < 64)
  | .checkpointStart part index => decide (part < 64) && decide (index < 64)
  | .checkpointDone part index => decide (part < 64) && decide (index < 64)
  | .shardRebuild part index => decide (part < 64) && decide (index < 64)
  | .imgStage req _ _ => reqOk req
  | .imgAbort req _ => reqOk req
  | .imageVerifyDone slot => decide (slot < 2)
  | .registerWrite req addr _ _ _ => reqOk req && decide (addr < 67108864) && decide (addr % 4 = 0)
  | .sqcWrite req addr _ => reqOk req && decide (addr < 67108864) && decide (addr % 4 = 0)
  | .indDataAccess req addr _ => reqOk req && decide (addr < 67108864) && decide (addr % 4 = 0)
  | .loRegisterRead req addr => reqOk req && decide (addr.addr < 67108864) && decide (addr.addr % (if addr.wide then 8 else 4) = 0)
  | .updStrobe req _ => reqOk req
  | .updateStrobeDone _ => true
  | .parityScan block _ => decide (block < 18)
  | .trainingStateTimeout port => decide (port < 12)
  | .downRetry port => decide (port < 12)
  | .trainingFrame port lane _ => decide (port < 12) && decide (lane < 5)
  | .flitReceive port bytes => decide (port < 12) && decide (bytes.length = 256)
  | .nakHoldExpiry port => decide (port < 12)
  | .laneFailing port lane => decide (port < 12) && decide (lane < 5)
  | .swapReq port lane => decide (port < 12) && decide (lane < 5)
  | .mirroredGroupsDecoded port => decide (port < 12)
  | .swapDone port => decide (port < 12)
  | .retrainReq port => decide (port < 12)
  | .portRetrain req port => reqOk req && decide (port < 12)
  | .portRetarget req port => reqOk req && decide (port < 12)
  | .portDisable req port => reqOk req && decide (port < 12)
  | .portSwap req port lane => reqOk req && decide (port < 12) && decide (lane < 5)
  | .retargetDrainEnd port => decide (port < 12)
  | .portDown port => decide (port < 12)
  | .packetForward pkt => decide (pkt.dst < 131071)
  | .readRequest pkt => decide (pkt.dst < 131071)
  | .readRsp pkt => decide (pkt.dst < 131071)
  | .writeRequest pkt => decide (pkt.dst < 131071)
  | .writeAck pkt => decide (pkt.dst < 131071)
  | .scoreRequest pkt => decide (pkt.dst < 131071)
  | .scoreRsp pkt => decide (pkt.dst < 131071)
  | .expandRequest pkt => decide (pkt.dst < 131071)
  | .expandRsp pkt => decide (pkt.dst < 131071)
  | .queryMessage pkt => decide (pkt.dst < 131071)
  | .listMessage pkt => decide (pkt.dst < 131071)
  | .collective pkt => decide (pkt.dst < 131071)
  | .undelivered pkt => decide (pkt.dst < 131071)
  | .requestResendTimer reqId => decide (reqId < 281474976710656)
  | .requestTimeout reqId => decide (reqId < 281474976710656)
  | .listProgressTimer node reqId => decide (node < 131071) && decide (reqId < 281474976710656)
  | .mapApply req _ => reqOk req
  | .claim req _ => reqOk req
  | .tset req _ => reqOk req
  | .ownAbort req _ => reqOk req
  | .offer pkt => decide (pkt.dst < 131071)
  | .accept pkt => decide (pkt.dst < 131071)
  | .confirm pkt => decide (pkt.dst < 131071)
  | .taken pkt => decide (pkt.dst < 131071)
  | .withdraw pkt => decide (pkt.dst < 131071)
  | .revoke pkt => decide (pkt.dst < 131071)
  | .revokeAck pkt => decide (pkt.dst < 131071)
  | .announce pkt => decide (pkt.dst < 131071)
  | .drainTimerExpiry comp => decide (comp < 256)
  | .tokenResend seg => decide (seg < 65536)
  | .handoverTimeout seg => decide (seg < 65536)
  | .anchorSilent comp => decide (comp < 256)
  | .heldResponseTimer node reqId => decide (node < 131071) && decide (reqId < 281474976710656)
  | .holdDrainExpiry node reqId => decide (node < 131071) && decide (reqId < 281474976710656)
  | .unreachableExpiry node => decide (node < 131071)
  | .rekeySwatch part => decide (part < 64)
  | .rasDrain req _ => reqOk req
  | .rasFence req _ => reqOk req
  | .rasRestore req _ => reqOk req
  | .rasRetire req _ => reqOk req
  | .unitFault kind _ _ _ => decide (1 ≤ kind && kind ≤ 0x13)
  | .drainComplete kind _ => decide (1 ≤ kind && kind ≤ 0x13)
  | .returnWorkDone kind _ _ => decide (1 ≤ kind && kind ≤ 0x13)
  | .poisonedDataRead _ _ => true
  | .modelRefetchDone _ _ _ => true
  | .persistentLogCopy => true
  | .usneaRestart => true
  | .adminWaitTimeout _ => true
  | .swatchMove _ _ _ _ => true
  | .regulatorRefill => true
  | .ddrTraining ch _ _ => decide (ch < 16)
  | .dqsOscTick _ => true
  | .ddrPatrolRead ch _ _ => decide (ch < 16)
  | .nandTraining ch _ _ => decide (ch < 32)
  | .codewordRead _ _ => true
  | .nandProgramFail _ => true
  | .nandEraseFail _ => true
  | .dieFence die => decide (die < 1024)
  | .garbageCollection _ _ => true
  | .wearLevelMove _ _ => true
  | .blockRefresh _ _ => true
  | .fastCellFold _ _ => true
  | .flashPatrol _ _ => true
  | .mapCheckpoint => true
  | .mapRebuild => true
  | .dieTempRead _ => true
  | .healthRecordWrite => true
  | .modelCopyDone _ _ => true
  | .batchClose _ => true
  | .streamRoundStart lane => decide (lane < 36)
  | .laneHalfRefill lane half => decide (lane < 36) && decide (half < 2)
  | .collectiveTimeout _ => true
  | .domainIdleGate domain => decide (domain < 236)
  | .domainWake domain => decide (domain < 236)
  | .powerEstimate _ => true
  | .powerCalibrate _ _ => true
  | .tempSample _ => true
  | .overvoltage monitor _ => decide (monitor < 24)
  | .voltageDroop domain _ => decide (domain < 236)
  | .regulatorPoll _ => true
  | .warmReset req _ => reqOk req
  | .coldReset _ => true
  | .aonPwrokRise => true
  | .mainPwrokRise => true
  | .mainPwrokFall _ => true
  | .clockLoss => true
  | .rtcOscStop => true
  | .startupStage _ => true
  | .firstStrobe => true
  | .lockstepMismatch => true
  | .usneaWatchdog => true
  | .componentFault comp => decide (1 ≤ comp && comp ≤ 8)
  | .netbootRetry _ => true
  | .fwTrialConfirm => true
  | .sensorRead _ => true
  | .mbxDoorbell req _ => reqOk req
  | .identify msg => msgOk msg
  | .sensors msg => msgOk msg
  | .logRead msg => msgOk msg
  | .blackboxRead msg => msgOk msg
  | .mgmtAttest msg => msgOk msg
  | .mgmtCertificate msg => msgOk msg
  | .mgmtLedgerRead msg => msgOk msg
  | .rasCommand msg => msgOk msg
  | .regWrite msg => msgOk msg
  | .admin msg => msgOk msg
  | .imageChunk msg => msgOk msg
  | .imageStage msg => msgOk msg
  | .fwChunk msg => msgOk msg
  | .fwActivate msg => msgOk msg
  | .norWrite msg => msgOk msg
  | .sessionOpen msg => msgOk msg
  | .sessionClose msg => msgOk msg
  | .subscribe msg => msgOk msg
  | .eventAck msg => msgOk msg
  | .eventResend sub _ => decide (sub < 8)
  | .unresolvedEventRepeat seg => decide (seg < 65536)
  | .ptmInfo msg => msgOk msg
  | .ptmPublish _ => true
  | .sessionIdleExpiry session => decide (session < 65536)
  | .receiveAreaTimeout => true
  | .signalDetected port _ => decide (port < 12)
  | .receiverAdaptationDone port => decide (port < 12)
  | .msixVectorUnmask fn vector => decide (fn < 64) && decide (vector < 2048)
  | .vfEnable vf => decide (1 ≤ vf && vf < 64)
  | .rtcEdge => true
  | .alwaysOnClockReturn => true
  | .t5RekeyRewrite part _ => decide (part < 64)
  | .writeRecordExpiry node reqId => decide (node < 131071) && decide (reqId < 281474976710656)
  | .d2dLaneSwap link _ => decide (link < 2)
  | .usneaRestartComplete => true
  | .mgmtLinkChange _ => true
  | .mctpControlMessage _ _ => true
  | .i3cDynamicAddress addr => decide (addr < 128)
  | .jtagInstruction _ => true

end Sys2Proof
end

