-- ==== Sys2Proof/Tests/Slice0.lean ====
section
/-! SUPPORT. Tests: for each statement with hypotheses a theorem that shows, clause by clause, a state and operands that meet them
(`test_hyps_…`); ill-formed commands that WellFormed refuses; values worked out by hand from the spec. -/
namespace Sys2Proof.Tests
open Sys2Proof Sys2Proof.Machine
set_option Elab.async false

/-- Usnea's firmware runs. -/
def tUp : State := State.reset.mapUsnea fun u => { u with running := true }

/-- A management message: TYPE, flags, and payload, with its CRC (R628). -/
def tBytes (typ flags : Nat) (p : List Byte) : List Byte :=
  let h := natLe 2 typ ++ natLe 2 p.length ++ natLe 4 7 ++ natLe 1 0 ++ natLe 1 flags ++ natLe 2 0
  h ++ natLe 4 (crc32c (h ++ natLe 4 0 ++ p)) ++ p

/-- The message that the host mailbox holds. -/
def tBox : MgmtMsg := { via := .mailbox, src := [], bytes := [] }

/-- A running Usnea whose mailbox holds a request, its doorbell rung. -/
def tAsk (typ flags : Nat) (p : List Byte) : State :=
  tUp.mapUsnea fun u => { u with
    mbxBusy := true
    mbxReq := (List.range ((tBytes typ flags p).length / 4 + 1)).map fun i => (i, regCopy (BitVec.ofNat 32 (field (tBytes typ flags p) (4 * i) 4))) }

/-- A submission entry, with bytes set at offsets (R513). -/
def tEntry (op : Nat) (l : List (Nat × List Byte)) : List Byte := l.foldl (fun e x => patch e x.1 x.2) (patch (natLe 64 0) 0 (natLe 1 op))

/-- An admitted command of partition 0. -/
def tCmd (e : List Byte) : Cmd :=
  { qp := none, fn := 0, part := 0, entry := e, phase := .admitted, epoch := 0, local_ := 0, comp := none, mapgen := 0, kept := false, pcfg := 0, modes := (0, 0),
    profile := 0, adm := 0, uses := [], imgSeq := 0, at_ := 0, status := 0, progress := 0, cflags := 0, result := [], outs := [], total := 0,
    gids := [], next := 0, fullWait := none, t4Failed := false, outputs := [] }

/-- Command 0 in the table, with the rates of tiers T1 to T5 and Bracken granted to partition 0. -/
def tPut (s : State) (c : Cmd) : State := (s.mapHost fun h => { h with cmds := [(0, c)] }).mapMem fun m => { m with
  rate := (List.range 6).map fun i => (i, 100) }

def tWith (c : Cmd) : State := tPut tUp c

/-- The state with records of the active image (R35): section kind, index, value. -/
def tCfg (s : State) (l : List (Nat × Nat × Nat)) : State :=
  s.mapImg fun i => { i with cfg := ⟨l.foldl (fun m x => m.put (65536 * x.1 + x.2.1) x.2.2) i.cfg.recs⟩ }

/-- A shard descriptor with one code window, one fresh window and 64 slots, and its shard. -/
def tDesc : ShardDesc :=
  { degree := 32, ntag := 0, ncol := 0, slotLimit := 64, hotSlots := 0, ovlSize := 0, freshEntries := 16, codeList := [0], normList := [1],
    freshWin := 2, hotWin := 3, schema := [], tagRules := [], entry := [], numrec := [] }

def tShard : Shard := newShard 0 0 tDesc (List.replicate 9 0)

/-- The shard, serving, of dimension 16. -/
def tServ : Shard := { tShard with phase := .serving, desc := { tDesc with numrec := [0, 0, 16, 0] } }

/-- A parameter block of SEARCH: 10 results, list 64, beam 4 (R541). -/
def tPb : List Byte := [10, 0, 0, 0, 64, 0, 4, 0] ++ natLe 120 0

/-- A query of command 0 on the shard. -/
def tQuery : Query := newQuery .search 0 tServ 1 0 (searchParams 0 tPb) false

/-- Partition 0 with tile 0, scratch pages, windows 0 to 3, a serving shard, one command and one query. -/
def tSearch (c : Cmd) (q : Query) : State :=
  let s := tCfg (tWith c) [(2, 0, 1), (3, 0, 0), (4, 0, 0x100), (4, 1, 0x100), (4, 2, 0x100), (4, 3, 0x100)]
  let s := s.mapMem fun m => { m with sheet := (List.range 8).map fun i => (i, { use := .scratch, owner := 0 }) }
  let s := s.mapHost fun h => { h with queries := [(0, q)] }
  { s with shards := [(0, tServ)], epoch := { s.epoch with cur := 1, first := 1 } }

/-- A packet for node 0. -/
def tPkt (typ src : Nat) (b : List Byte) : Packet :=
  { typ := typ, vc := 0, dclass := false, dst := 0, src := src, part := 0, hops := 0, enc := false, last := true, retry := false, reqId := 0, mapgen := 0,
    addr := 0, seq := 0, index := 0, epoch := 0, status := 0, payload := b, trailer := none }

/-- An image is in force: the node's number is 0. -/
def tNode (s : State) : State := s.mapImg fun i => { i with applied := true }

/-- A packet of a type on its VC. -/
def tPk (typ src : Nat) (b : List Byte) : Packet := { tPkt typ src b with vc := (vcOf typ).getD 7 }

/-- Packet `p` has arrived. -/
def tIn (s : State) (p : Packet) : State := s.mapTwill fun t => { t with inbox := [p] }

/-! ### Power, start-up, Usnea -/

def tGate : State := (State.reset.setReg .pwrDIdle 0 20).setReg .pwrCfg 0 2

theorem test_hyps_PowerRowsComplete :
    State.reset.power.held = false ∧
    (mayGate 0 = true ∧ (tGate.dom 0).st = .run ∧ tGate.fld .pwrDIdle 0 0 16 ≠ 0 ∧ tGate.fld .pwrCfg 0 1 1 = 1 ∧ domBusy tGate 0 = false ∧
      tGate.blockOut 16 = false) ∧
    ((State.reset.setDom 235 fun x => { x with st := .gated }).dom 235).st = .gated ∧
    (0 < domMax 234 ∧ 800 ≥ domMax 234) := by decide

theorem test_hyps_PowerPolicyCompletes :
    (hostPolicy State.reset = false ∧
      4 * ([(0, 1001)].foldl (fun n e => n + e.2) 0 * State.reset.power.scale / 1024) > 5 * limitHeld State.reset) ∧
    (let s := State.reset.mapPower fun p => { p with tripCount := [(0, 2)] };
      s.power.thermtrip = false ∧ s.power.tripCount = [(0, 2)]) ∧
    usneaUp tUp = true := by decide

theorem test_hyps_ResetRowsComplete :
    (State.reset.power.held = false ∧ freshTrip State.reset = false) ∧
    (State.reset.mapPower fun p => { p with clockLost := true }).power.clockLost = true ∧
    (State.reset.mapPower fun p => { p with aonOk := false }).power.aonOk = false := by decide

theorem test_hyps_StartupRowsComplete :
    (let s := State.reset.mapPower fun p => { p with mainEn := true };
      s.power.mainEn = true ∧ s.power.held = false) ∧
    (State.reset.power.held = false ∧ State.reset.power.stopped = false ∧ State.reset.power.stage = .aon ∧
      (haltCauses State.reset.power.stage).contains 1 = true) ∧
    (let s := State.reset.mapPower fun p => { p with stage := .memory };
      s.power.stage = .memory ∧ bit (s.ro .ddrCState 15).toNat 0 = false ∧
        ((s.mapMem fun m => { m with trainTries := [(15, 3)] }).mem.trainTries.getD 15 0 = 3)) := by decide

/-- An unsealed request of the mailbox reaches its row. -/
def tOpens (typ : Nat) (p : List Byte) : Prop := msgOpenFor (tAsk typ 0 p) tBox typ ∧ msgPayload (tAsk typ 0 p) tBox = p

def tOpensB (typ : Nat) (p : List Byte) : Bool :=
  let s := tAsk typ 0 p
  let b := msgBytes s tBox
  msgForm b && decide (field b 0 2 = typ) && !bit (field b 9 1) 1 && decide (slice b 16 (field b 2 2) = p)

theorem tOpens_of {typ : Nat} {p : List Byte} (h : tOpensB typ p = true) : tOpens typ p := by
  simp only [tOpensB, Bool.and_eq_true, decide_eq_true_eq, Bool.not_eq_true'] at h
  exact ⟨⟨⟨by rfl, fun _ => rfl, h.1.1.1, h.1.1.2⟩, h.1.2, Or.inr rfl⟩, h.2⟩

/-- SESSION_OPEN over the network. -/
def tNet : MgmtMsg := { via := .udp, src := [], bytes := tBytes 0x0010 0 (List.replicate 324 0) }

set_option maxRecDepth 100000 in
theorem test_hyps_OpenMessagesAnswered :
    tOpens 0x0001 [] ∧ tOpens 0x0002 [118, 0, 2, 0] ∧ tOpens 0x0003 (natLe 12 0) ∧
    (tOpens 0x0005 (natLe 48 0 ++ [2] ++ natLe 15 0) ∧ zeroAt (natLe 48 0 ++ [2] ++ natLe 15 0) 0x31 15 = true ∧
      field (natLe 48 0 ++ [2] ++ natLe 15 0) 0x30 1 = 2) ∧
    tOpens 0x0006 (natLe 4 0) ∧ tOpens 0x0015 [] ∧
    (msgOpenFor tUp tNet 0x0010 ∧ (msgPayload tUp tNet).length = 324 ∧ zeroAt (msgPayload tUp tNet) 1 3 = true ∧ freeSession tUp = some 1) :=
  ⟨tOpens_of (by decide +kernel), tOpens_of (by decide +kernel), tOpens_of (by decide +kernel),
    ⟨tOpens_of (by decide +kernel), by decide +kernel, by decide +kernel⟩, tOpens_of (by decide +kernel), tOpens_of (by decide +kernel),
    ⟨⟨by decide, by decide, by decide +kernel, by decide +kernel⟩, by decide +kernel, by decide⟩, by decide +kernel, by decide +kernel, by decide⟩

/-- A transfer of ADMIN: entry bytes of 64 with no lists. -/
def tAdmin : List Byte := natLe 64 0

theorem test_hyps_PrivilegedMessagesRun :
    tOpens 0x0004 [0, 0, 0xFF, 0x1F, 127, 0] ∧ tOpens 0x0007 (natLe 16 63) ∧ tOpens 0x0008 (natLe 4 1) ∧
    tOpens 0x0009 ([17, 3, 0, 0] ++ natLe 4 0x3FFFC ++ natLe 4 1) ∧ (tOpens 0x000A tAdmin ∧ adminForm tAdmin = true) ∧
    tOpens 0x000B (natLe 4 2097152) ∧ tOpens 0x000C (natLe 4 2097152) ∧ tOpens 0x000D (natLe 4 1048576) ∧ tOpens 0x000E [] ∧
    tOpens 0x000F ([4, 0, 0, 0] ++ natLe 4 0) ∧ tOpens 0x0012 ([3] ++ natLe 19 0 ++ natLe 4 511) ∧ tOpens 0x0014 (natLe 4 0) ∧
    (∀ typ p, freshTag (tAsk typ 0 p) (msgReq (tAsk typ 0 p) tBox)) ∧
    (let f (r : RecvUse) : State := (tAsk 0x000C 0 (natLe 4 2097152)).mapUsnea fun u => { u with recvUse := r };
      (f .image).usnea.recvUse = .image ∧ ((f .image).mapPower fun p => { p with memDone := [0] }).power.memDone.contains 0 = true ∧
      ((f .image).mapPower fun p => { p with memDone := [0] }).blockOut 1 = false ∧ (f .firmware).usnea.recvUse = .firmware) ∧
    ((tUp.mapUsnea fun u => { u with subs := [{ dest := [], mask := 0, next := 0, events := [], dropped := 0 }] }).usnea.subs.any
      fun b => b.dest == []) = true := by
  refine ⟨tOpens_of (by decide +kernel), tOpens_of (by decide +kernel), tOpens_of (by decide +kernel), tOpens_of (by decide +kernel),
    ⟨tOpens_of (by decide +kernel), by decide +kernel⟩, tOpens_of (by decide +kernel), tOpens_of (by decide +kernel),
    tOpens_of (by decide +kernel), tOpens_of (by decide +kernel), tOpens_of (by decide +kernel), tOpens_of (by decide +kernel),
    tOpens_of (by decide +kernel), fun typ p => ⟨rfl, rfl⟩, by decide +kernel, by decide⟩

/-- A sealed message with no payload over the network. -/
def tSealed : MgmtMsg := { via := .udp, src := [], bytes := tBytes 0x0011 2 [] ++ natLe 24 0 }

theorem test_hyps_SealedMessagesReachTheirRows :
    msgArrives tUp tSealed 0x0011 ∧ bit (field (msgBytes tUp tSealed) 9 1) 1 = true :=
  ⟨⟨by decide, by decide, by decide +kernel, by decide +kernel⟩, by decide +kernel⟩

theorem test_hyps_UsneaFaultRowsComplete :
    (let s := tUp.mapUsnea fun u => { u with fwImage := [1], restarting := true };
      s.usnea.fwImage ≠ [] ∧ s.usnea.restarting = true ∧ (norDir s).trial = false) ∧
    (let s := (tUp.mapUsnea fun u => { u with restarting := true, haltCause := none }).mapPower fun p => { p with stage := .runtime };
      s.usnea.restarting = true ∧ s.usnea.haltCause = none ∧ s.power.stage ≠ .firstStage) ∧
    (let s := tUp.mapUsnea fun u => { u with netTrying := true };
      s.usnea.netTrying = true ∧ s.power.held = false) ∧
    (let s := tUp.mapUsnea fun u => { u with trialRun := true };
      usneaUp s = true ∧ s.usnea.trialRun = true) ∧
    (usneaUp tUp = true ∧ tUp.usnea.compFaults.getD 8 [] = []) := by decide

theorem test_hyps_UsneaRowsComplete :
    usneaUp tUp = true ∧ (tUp.mapUsnea fun u => { u with recvUse := .image }).usnea.recvUse = .image ∧
    (let e : Event := { seq := 5, bit := 0, body := [], sent := 9 };
      let b : Sub := { dest := [], mask := 0, next := 0, events := [e], dropped := 0 };
      let s := tUp.mapUsnea fun u => { u with subs := [b] };
      usneaUp s = true ∧ s.usnea.subs[0]? = some b ∧ (b.events.find? fun e => e.seq == 5) = some e ∧ e.sent < 10) ∧
    jtagAccepts State.reset .bypass = true ∧ State.reset.sec.jtagOff = true := by decide

/-! ### Security -/

def tFuse (l : List (Nat × List Byte)) : List Byte := l.foldl (fun e x => patch e x.1 x.2) (natLe 512 0x46555345)

def tFuseCmd (l : List (Nat × List Byte)) : Cmd := tCmd (tEntry 0xA1 [(0x1C, natLe 4 512)] ++ tFuse l)

def tLive (s : State) : State := s.mapSec fun x => { x with slots := [(3, .provisioned)] }

theorem test_hyps_SecurityCommandsComplete :
    (admittedAs (tWith (tCmd (tEntry 0xA0 []))) 0 (tCmd (tEntry 0xA0 [])) 0xA0 ∧ (tWith (tCmd (tEntry 0xA0 []))).blockOut 14 = false ∧
      usneaUp (tWith (tCmd (tEntry 0xA0 []))) = true) ∧
    (let c := tFuseCmd [(4, [1, 3])];
      admittedAs (tWith c) 0 c 0xA1 ∧ (tWith c).blockOut 14 = false ∧ field (inputData (tWith c) c.entry) 0x04 1 = 1 ∧
        field (inputData (tWith c) c.entry) 0x05 1 = 3 ∧ zeroAt (inputData (tWith c) c.entry) 0x100 256 = true ∧
        ∀ i, i < 4 → (tWith c).sec.slots.getD i .unprovisioned = .unprovisioned) ∧
    (let c := tFuseCmd [(4, [2, 3, 0])];
      admittedAs (tLive (tWith c)) 0 c 0xA1 ∧ field (inputData (tLive (tWith c)) c.entry) 0x04 1 = 2 ∧
        field (inputData (tLive (tWith c)) c.entry) 0x05 1 = 3 ∧ field (inputData (tLive (tWith c)) c.entry) 0x06 1 = 0 ∧
        slotLive (tLive (tWith c)) 3 = true) ∧
    (let c := tFuseCmd [(4, [3, 0, 0, 3]), (0x10, [1])];
      admittedAs (tWith c) 0 c 0xA1 ∧ field (inputData (tWith c) c.entry) 0x04 1 = 3 ∧ field (inputData (tWith c) c.entry) 0x07 1 = 3 ∧
        (tWith c).sec.svn.getD 3 0 < field (inputData (tWith c) c.entry) 0x10 4 ∧ (tWith c).sec.rows.getD 3 0 < 64) ∧
    (let c := tCmd (tEntry 0xA2 [(0x18, [64]), (0x30, natLe 4 864)] ++ patch (natLe 64 0) 0x30 [2]);
      admittedAs (tWith c) 0 c 0xA2 ∧ ePbLen c.entry = 64 ∧ eResultLen c.entry ≥ 864 ∧ zeroAt (paramBlock (tWith c) c.entry) 0x31 15 = true ∧
        field (paramBlock (tWith c) c.entry) 0x30 1 = 2) ∧
    (let c := tCmd (tEntry 0xA3 [(0x30, natLe 4 8192)]);
      admittedAs (tWith c) 0 c 0xA3 ∧ eResultLen c.entry ≥ 8192 ∧ admittedAs (tPut State.reset c) 0 c 0xA3 ∧
        usneaUp (tPut State.reset c) = false) := by
  simp only [admittedAs]
  decide +kernel

def tRekey : State := (tWith (tCmd [])).mapSec fun x => { x with rekey := [(0, { t3Active := true, mark := 0, last := 4096, t5Active := true })] }

theorem test_hyps_RekeyRowsComplete :
    (tRekey.sec.rekey.get 0 = some { t3Active := true, mark := 0, last := 4096, t5Active := true } ∧ zeroRate tRekey 0 tT3 = false) ∧
    (let s := tRekey.mapFelt fun f => { f with ready := true };
      s.felt.ready = true ∧ zeroRate s 0 tT5 = false ∧ s.felt.map.get 7 = none ∧ oldCodewords s 0 = []) := by decide +kernel

/-! ### Felt -/

/-- Host-assisted tiering and 1 GiB of flash for partition 0. -/
def tFlash (c : Cmd) : State := (tCfg (tWith c) [(9, 0, 1), (5, 0, 2 ^ 96)]).mapFelt fun f => { f with ready := true }

def tZone (arg0 arg1 : Nat) : Cmd := tCmd (tEntry 0x88 [(0x34, natLe 4 arg0), (0x38, natLe 8 arg1), (0x1C, natLe 4 8), (0x30, natLe 4 16)] ++ natLe 8 5) |> fun c => { c with modes := (1, 1) }

theorem test_hyps_ZoneCommandsComplete :
    (let c := tZone (1 + 8) 262143;
      let s : State := { tFlash c with shards := [(0, tShard)] };
      admittedAs s 0 c 0x88 ∧ bits (eArg0 c.entry) 0 3 = 1 ∧ cmdZone s c = some 262143 ∧ (s.zone c.part 262143).st = .empty ∧
        bits (eArg0 c.entry) 3 2 = 1 ∧ openZone s c.part false (eIndex c.entry) = none ∧ (shardOf s c.part (eIndex c.entry)).isSome = true ∧
        hostMode s c.part 0 = true ∧ (shardOf s c.part (eIndex c.entry)).all (fun sh => sh.phase != .retiring) = true) ∧
    (let c := tZone 1 0;
      let s := (tFlash c).setZone 0 0 { Zone.empty with st := .opened };
      admittedAs s 0 c 0x88 ∧ cmdZone s c = some 0 ∧ (s.zone c.part 0).st ≠ .empty) ∧
    (let c := tZone 3 0;
      let s := (tFlash c).setZone 0 0 { Zone.empty with st := .opened };
      admittedAs s 0 c 0x88 ∧ bits (eArg0 c.entry) 0 3 = 3 ∧ cmdZone s c = some 0 ∧ (s.zone c.part 0).st = .opened) ∧
    (let c := tZone 4 0;
      let s := (tFlash c).setZone 0 0 { Zone.empty with st := .full };
      admittedAs s 0 c 0x88 ∧ bits (eArg0 c.entry) 0 3 = 4 ∧ cmdZone s c = some 0 ∧ (s.zone c.part 0).mapped = [] ∧ (s.zone c.part 0).st ≠ .offline ∧
        (s.zone c.part 0).resetCmd = none) ∧
    (let s := State.reset.setZone 0 0 { Zone.empty with resetCmd := some 0 };
      (s.zone 0 0).resetCmd = some 0 ∧ (s.zone 0 0).mapped = []) ∧
    (let s := (tWith (tCmd [])).setZone 1 0 { Zone.empty with st := .full };
      hostMode s 0 0 = false ∧ zoneBusy s 0 = false ∧ (16777216, { Zone.empty with st := .full }) ∈ (zonesRelease s 0).felt.zones) ∧
    (let c := tZone 5 262143;
      let s := tFlash c;
      admittedAs s 0 c 0x88 ∧ bits (eArg0 c.entry) 0 3 = 5 ∧ zeroRate s c.part tT4 = false ∧ c.mode 0 = true ∧
        1 = min (eResultLen c.entry / 16) (zoneTotal s c.part - bits (eArg1 c.entry) 0 24)) ∧
    (let c := tZone 2 0;
      let s := tFlash c;
      admittedAs s 0 c 0x88 ∧ bits (eArg0 c.entry) 0 3 = 2 ∧ zeroRate s c.part tT4 = false ∧ zeroRate s c.part tT5 = false ∧ cmdZone s c = some 0 ∧
        eDataLen c.entry = 8 ∧ eResultLen c.entry ≥ 8 ∧ bits (eArg0 c.entry) 3 2 = 0 ∧ field (inputData s c.entry) 0 8 = 5) := by
  simp only [admittedAs]
  decide +kernel

/-- Block 0 of die 0 holds data, block 1 is erased, and the die is in use. -/
def tDie (x : Block) : State := State.reset.mapFelt fun f => { f with
  good := 10000, blocks := [(0, x), (1, Block.fresh)], dies := [(0, { Die.initial with used := true }), (1, { Die.initial with used := true })] }

theorem test_hyps_FlashMaintenanceCompletes :
    (let s := (tDie { Block.fresh with erased := false }).mapFelt fun f => { f with
        good := 2, blocks := f.blocks ++ [(2, { Block.fresh with erased := false, pe := 1 })] };
      gcVictim s 0 = true ∧ destOk s 0 1 = true ∧ erasedBlocks s * 50 < goodBlocks s) ∧
    (let s := (tDie { Block.fresh with erased := false }).mapFelt fun f => { f with good := 2, blocks := f.blocks ++ [(2, { Block.fresh with erased := false, pe := 4 })] };
      denseFull s 0 = true ∧ destOk s 0 1 = true ∧ 10 * ((densePe s).1 - (densePe s).2 * (s.block 0).pe) > (densePe s).2 * mdPeRated s.felt.desc) ∧
    (let s := tDie { Block.fresh with erased := false, refresh := true };
      (s.block 0).refresh = true ∧ (s.block 0).erased = false ∧ (s.block 0).retired = false ∧ destOk s 0 1 = true) ∧
    (let s := tDie { Block.fresh with erased := false, fast := true };
      (s.block 0).fast = true ∧ (s.block 0).erased = false ∧ (s.block 0).retired = false ∧ destOk s 0 1 = true) ∧
    (let s := tDie { Block.fresh with erased := false };
      (s.block 0).erased = false ∧ (s.block 0).retired = false ∧ s.fld .fltCfg2 0 0 9 + 1 > s.fld .fltCfg2 0 0 9 ∧ (s.die 0).used = true) ∧
    (tFlash (tCmd [])).felt.ready = true ∧
    (let s := State.reset.mapPower fun p => { p with stage := .media };
      s.power.stage = .media ∧ s.felt.ready = false) ∧
    (let s := State.reset.mapPower fun p => { p with stage := .memory };
      s.power.stage = .memory ∧ s.felt.trained = [] ∧ s.felt.dead.contains 31 = false ∧ s.felt.dead.length < 31 ∧ trainingRate s 31 = some 3) := by
  decide +kernel

theorem test_hyps_FlashFailureRowsComplete :
    (let s := (tDie { Block.fresh with erased := false }).mapFelt fun f => { f with map := [(9, { block := 0, wseq := 0, keyGen := 0, kind := 0, pos := 0 })] };
      laddrSpace 9 ≠ 1 ∧ s.felt.map.get 9 = some { block := 0, wseq := 0, keyGen := 0, kind := 0, pos := 0 } ∧
        s.fencedUnit 0x0B (dieOf s 0) = false ∧ s.fencedUnit 0x0A (dieChannel (dieOf s 0)) = false) ∧
    (let s := tDie { Block.fresh with erased := false };
      (s.block 0).retired = false ∧ (s.die (dieOf s 0)).used = true ∧ mappedIn s 0 = [] ∧ (s.die 0).used = true ∧ s.fencedUnit 0x0B 0 = false) := by
  decide +kernel

/-! ### Memory -/

/-- 32 GiB of DDR5, of which 1 GiB is the CXL window. -/
def tMem (s : State) : State := s.mapMem fun m => { m with
  ddrGib := 32, cxlGib := 1, cxlDecoded := true, hdmBase := 0x100, sheet := [(0, { use := .cache, owner := 0 })] }

theorem test_hyps_MemoryRowsComplete :
    (let c := tCmd (tEntry 0x01 []);
      let s := tMem (tWith c);
      s.serves 0x0E 0 = true ∧ s.host.cmds.get 0 = some c ∧ c.phase ≠ .done ∧ localPlace s 0x030000000000 = .t1 0 ∧
        localPlace s 0x030000001000 = .t1 4096 ∧ placeOwner s (.t1 0) = some c.part ∧ placeOwner s (.t1 4096) = some c.part ∧
        zeroRate s c.part tT1 = false ∧ s.mem.moves = []) ∧
    (15 < 16 ∧ 33554430 + 1 < channelLines (tMem tUp) ∧ (tMem tUp).fencedUnit 0x09 15 = false ∧ (tMem tUp).mem.ddrGib ≠ 0) ∧
    (State.reset.mem.waiting = [] ∧ State.reset.mem.cxlWait = []) := by decide +kernel

theorem test_hyps_CxlRowsComplete :
    (tMem tUp).mem.cxlGib ≠ 0 ∧ State.reset.mem.cxlDecoded = false ∧
    (let s := (tMem tUp).mapMem fun m => { m with bucket := [(tT3, 1)] };
      s.mem.cxlDecoded = true ∧ (0x4000007F + 0x80 : W64).toNat = s.mem.hdmBase + 0x3FFFFFFF ∧ 0x3FFFFFFF < s.mem.cxlGib * 2 ^ 30 ∧
        s.mem.cxlWait = [] ∧ s.mem.bucket.getD tT3 0 ≥ 1 ∧ (tMem tUp).mem.bucket.getD tT3 0 < 1 ∧
        0x40000000 ≥ s.mem.cxlGib * 2 ^ 30 ∧ 0x3FFFFFC0 + 64 ≤ s.mem.cxlGib * 2 ^ 30) := by decide +kernel

/-! ### Registers -/

theorem test_hyps_RegisterRowsComplete :
    (resolve 0 1 0x004 = .reg .imgStageAddrLo 0 ∧ State.reset.regs.fencedBlocks.contains 1 = false) ∧
    (18 * 2 ^ 20 < 2 ^ 26 ∧ (2 ^ 26 - 4) % 4 = 0) ∧
    ((1 : BitVec 8).toNat % 16 ≠ 0 ∧ (1 : BitVec 8).toNat % 16 ≠ 15) ∧
    (resolve 0 16 0x004 = .reg .pwrEvent 0 ∧ Reg.pwrEvent.row.acc = .sqc ∧ State.reset.regs.fencedBlocks.contains 16 = false) ∧
    (resolve 0 15 Reg.rasEvent.row.offset = .reg .rasEvent 0 ∧ Reg.rasEvent.row.acc = .sqc ∧
      ((State.reset.sqc .rasEvent 0).seq - BitVec.ofNat 8 ((5 : W32).toNat / 2 ^ 24)).toNat < 128) ∧
    resolve 0 1 56 = .window .imgPartIndAddr ∧
    ((State.reset.setReg .ownCompIndAddr 0 2045).reg .ownCompIndAddr 0 = BitVec.ofNat 32 (5 + 8 * 255) ∧ (0xFFFF : W32) &&& ~~~compMask 5 = 0) ∧
    ((2 ^ 26 - 8) % 8 = 0 ∧ 2 ^ 26 - 8 < 2 ^ 26) ∧
    (State.reset.regs.fencedBlocks.contains 0 = false ∧ State.reset.blockOut 0 = false ∧
      (2 : W32) &&& BitVec.ofNat 32 (cfgEpochMask State.reset.img.cfg) = 0 ∧ State.reset.regs.updNow = none ∧ State.reset.regs.updEpoch = none) ∧
    (let s := State.reset.mapRegs fun g => { g with updNow := some 2 };
      s.regs.updNow = some 2 ∧ s.regs.updNext = none) ∧
    (let k := 2 * regKey .imgStageAddrLo 0;
      k % 2 = 0 ∧ regOfKey (k / 2) = some .imgStageAddrLo ∧ Reg.imgStageAddrLo.row.acc = .rw ∧ Reg.imgStageAddrLo.row.block < 18 ∧
        k / 2 % 262144 < Reg.imgStageAddrLo.row.units ∧ regUnit .imgStageAddrLo (k / 2 % 262144) = none ∧ State.reset.regs.good = [] ∧
        (copyNow State.reset k).par = parityOf (copyNow State.reset k).val) := by decide +kernel

theorem test_hyps_RegisterCommandsComplete :
    (∀ b, State.reset.regs.fencedBlocks.contains b = false) ∧ State.reset.blockOut 1 = false ∧ State.reset.blockOut 13 = false ∧
    (State.reset.reg .imgStageLen 0).toNat ≤ 16777216 ∧
    (bits (0x11 : W32).toNat 0 4 = 1 ∧ bits (0x12 : W32).toNat 0 4 = 2 ∧ bits (0x14 : W32).toNat 0 4 = 4) ∧
    (let s := tCfg State.reset [(9, 64, 1)];
      hwAgent s = false ∧ bits (0x13 : W32).toNat 0 4 = 3) ∧
    (bits (9 : W32).toNat 0 3 = 1 ∧ bits (10 : W32).toNat 0 3 = 2 ∧ bits (11 : W32).toNat 0 3 = 3 ∧ bits (12 : W32).toNat 0 3 = 4) ∧
    State.reset.regs.fencedUnits.contains (fencedKey .twlPCmd 11) = false ∧
    (State.reset.usnea.mbxBusy = false ∧ State.reset.blockOut 17 = false) :=
  ⟨fun _ => rfl, by decide +kernel⟩

theorem test_hyps_RegisterCommandsComplete_image :
    State.reset.img.slot0 = none ∧ latestPending State.reset = none ∧
    (let x : ImgSlot := { phase := .pending, bytes := [], seq := 1, target := 0, cfg := ⟨[]⟩, carried := [], keys := [], req := 1 };
      latestPending (State.reset.mapImg fun i => { i with slot0 := some x }) = some 0 ∧
        latestPending (State.reset.mapImg fun i => { i with slot1 := some x }) = some 1) ∧
    (bits (1 : W32).toNat 0 4 = 1 ∧ 0 = bits (1 : W32).toNat 4 16 ∧ genFieldsOk State.reset 0 (stagedGen State.reset 0) = true ∧
      genStateOk (State.reset.own.comps.get 0) (stagedGen State.reset 0) = true ∧ State.reset.own.held = []) := by decide +kernel

theorem test_hyps_RegisterCommandsComplete_units :
    (let w (c : Nat) : W32 := BitVec.ofNat 32 (c + 8 * 7 + 256 * 6143);
      let s (st : SvcSt) := State.reset.mapRas fun r => { r with units := [(unitKey 7 6143, { UnitRec.initial with st := st })] };
      7 = bits (w 1).toNat 3 5 ∧ 6143 = bits (w 1).toNat 8 13 ∧ 6143 < unitCount 7 ∧ bits (w 1).toNat 0 3 = 1 ∧ bits (w 2).toNat 0 3 = 2 ∧
        bits (w 3).toNat 0 3 = 3 ∧ bits (w 4).toNat 0 3 = 4 ∧ (State.reset.unit 7 6143).st = .inService ∧ (State.reset.unit 7 6143).tries < 3 ∧
        strands State.reset 7 6143 = false ∧ ((s .draining).unit 7 6143).st = .draining ∧ ((s .out).unit 7 6143).st = .out ∧
        State.reset.blockOut 15 = false) := by decide +kernel

/-! ### Host queues -/

/-- One queue pair of partition 0 in state `q`, rings of 16 entries. -/
def tQp (q : Qp) : State :=
  ((tCfg tUp [(6, 0, 2 ^ 14 + 2 ^ 35)]).setReg .hqQpSize 0 (4 + 4 * 32)).mapHost fun h => { h with qps := [(0, q)], cmds := [(0, tCmd (tEntry 1 []))] }

def tAct : Qp := { Qp.reset with st := .active }

theorem test_hyps_QueueRowsComplete :
    (let s := tQp tAct;
      fnDisabled s 0 = false ∧ s.blockOut 2 = false ∧ deviceQp s 0 0 = some 0 ∧ (s.qp 0).leaving = none ∧ (s.qp 0).st = .active ∧
        sqSize s 0 = 16 ∧ (15 : W32).toNat < 16 ∧ subMod (15 : W32).toNat (s.qp 0).sqHead 16 ≥ subMod (s.qp 0).sqTail (s.qp 0).sqHead 16 ∧
        2 ^ 16 ≤ (0x10000 : W32).toNat) ∧
    (let s := tQp { tAct with cqTail := 3 };
      deviceQp s 0 0 = some 0 ∧ cqSize s 0 = 16 ∧ (3 : W32).toNat < 16 ∧
        subMod (s.qp 0).cqTail (3 : W32).toNat 16 ≤ subMod (s.qp 0).cqTail (s.qp 0).cqHead 16) ∧
    (let s := tQp { tAct with sqTail := 5, exposedAt := [0, 0, 0, 0, 0] };
      (s.qp 0).st = .active ∧ s.blockOut 2 = false ∧ s.partOut 2 0 = false ∧ fnDisabled s ((qpPart s 0).getD 0) = false ∧
        4 = min (4 - (s.qp 0).fetched.length) (min (s.qp 0).exposedAt.length (subMod (s.qp 0).sqTail (s.qp 0).sqHead (sqSize s 0)))) ∧
    (let s := tQp Qp.reset;
      s.regs.fencedBlocks.contains 2 = false ∧ (qpWriteTarget s 0 0 0).2 = some 0 ∧ s.partOut 2 0 = false ∧ (s.qp 0).st = .disabled ∧
        qpConfigOk (((s.setReg .hqQpSqBaseLo 0 0x1000).setReg .hqQpCqBaseLo 0 0x2000).setReg .hqQpCtrl 0 1) 0 = true ∧ ((tQp tAct).qp 0).st = .active ∧ qpConfigOk (State.reset.setReg .hqQpCtrl 0 1) 0 = false) ∧
    (let s := tQp { Qp.reset with st := .stopping };
      (s.qp 0).st = .stopping ∧ (s.qp 0).fetched = [] ∧ (s.qp 0).running = 0 ∧ (s.qp 0).reenable = false ∧ (s.qp 0).leaving = none ∧
        (s.host.fns.getD ((qpPart s 0).getD 0) Fn.reset).flr = false) ∧
    (tQp tAct).host.qps = [(0, tAct)] := by decide +kernel

theorem test_hyps_AdmissionAndCompletion :
    (let s := tQp { tAct with fetched := [(tEntry 1 [], 0)], deficit := 8 };
      let v := s.mapHost fun h => { h with slotNext := 1 };
      s.host.slotNext = 0 ∧ v.blockOut 2 = false ∧ fnDisabled v 0 = false ∧ slotQps v 0 = [0] ∧ slotReady v 0 = true ∧ v.partOut 2 0 = false ∧
        cqRoom v 0 = true ∧ drrRounds v [0] = 0 ∧ (v.qp 0).deficit ≥ headCost v 0 ∧ (v.qp 0).fetched = [(tEntry 1 [], 0)]) ∧
    (let c : Cmd := { tCmd (tEntry 1 []) with phase := .done, qp := some 0 };
      (tWith c).host.cmds.get 0 = some c ∧ c.phase = .done ∧ c.qp = some 0 ∧ functionDown (tWith c) c.fn = false ∧ ((tWith c).qp 0).cqBad = false ∧
        c.t4Failed = false ∧ c.result = [] ∧ c.status ≠ stFaultedPartial ∧ c.status ≠ stFaultedNone ∧ (tWith c).host.cmds.wf = true) ∧
    (let c : Cmd := { tCmd (tEntry 1 []) with phase := .done };
      (tWith c).host.cmds.get 0 = some c ∧ c.phase = .done ∧ c.qp = none ∧ (tWith c).host.cmds.wf = true) ∧
    (let s := (tQp { tAct with pendingInt := 1 }).setReg .hqQpInt 0 0x800;
      bit (s.reg .hqQpInt 0).toNat 11 = true ∧ 0 < (s.qp 0).pendingInt ∧ (s.host.fns.getD ((qpPart s 0).getD 0) Fn.reset).quiet = false ∧
        s.img.vfOff.contains ((qpPart s 0).getD 0) = false) ∧
    (let s := tUp.mapHost fun h => { h with fns := [(0, { Fn.reset with gap := true })] };
      s.host.fns.getD 0 Fn.reset = { Fn.reset with gap := true }) ∧
    (let f : Fn := { Fn.reset with gap := true, inGap := true, unmasked := [0] };
      let s := (tUp.mapHost fun h => { h with fns := [(0, f)] }).setReg .hqFnEventVec 0 0x800;
      s.host.fns.getD 0 Fn.reset = f ∧ f.gap = true ∧ f.inGap = true ∧ bit (s.reg .hqFnEventVec 0).toNat 11 = true ∧ f.quiet = false ∧
        s.img.vfOff.contains 0 = false ∧ f.unmasked.contains (bits (s.reg .hqFnEventVec 0).toNat 0 11) = true) ∧
    (tUp.host.fns.getD 0 Fn.reset = Fn.reset ∧ fnDisabled tUp 0 = false ∧ Fn.reset.pba.contains 2047 = false) := by decide +kernel

theorem test_hyps_FunctionRowsComplete :
    ((tQp tAct).qp 0).st = .active ∧ ((tQp tAct).host.qps.wf = true ∧ qpPart (tQp tAct) 0 = some 0 ∧ (tQp tAct).host.qps.has 0 = true) ∧
    (let c : Cmd := { tCmd (tEntry 1 []) with qp := some 0 };
      (tWith c).host.cmds.get 0 = some c ∧ c.phase ≠ .done ∧ c.qp = some 0) := by decide +kernel

/-! ### Search -/

/-- A SEARCH of 16 fp32 values with room for 10 results, admitted at epoch 1. -/
def tFind (op : Nat) (pb : List Byte) : Cmd :=
  { tCmd (tEntry op [(0x18, [128]), (0x1C, [64]), (0x30, natLe 4 4096)] ++ pb ++ natLe 64 0) with epoch := 1, local_ := 1, kept := true, pcfg := 0x100800 }

/-- A parameter block of SWEEP: 10 results. -/
def tPbSweep : List Byte := [10] ++ natLe 127 0

def okSearch (s : State) (c : Cmd) (sweep : Bool) : Bool := match searchCheck s c sweep with | .ok () => true | .error _ => false

theorem okSearch_of {s : State} {c : Cmd} {sweep : Bool} (h : okSearch s c sweep = true) : searchCheck s c sweep = .ok () := by
  unfold okSearch at h
  split at h
  · assumption
  · cases h

def errSearch (s : State) (c : Cmd) (sweep : Bool) (st : Nat) : Bool := match searchCheck s c sweep with
  | .error (.ends x) => x == st
  | _ => false

theorem errSearch_of {s : State} {c : Cmd} {sweep : Bool} {st : Nat} (h : errSearch s c sweep st = true) :
    searchCheck s c sweep = .error (.ends st) := by
  unfold errSearch at h
  split at h
  · rename_i x e; rw [e]; simp at h; rw [h]
  · cases h

def planErr (s : State) (c : Cmd) : Bool := match searchCheck s c false with | .error .planRejected => true | _ => false

theorem planErr_of {s : State} {c : Cmd} (h : planErr s c = true) : searchCheck s c false = .error .planRejected := by
  unfold planErr at h
  split at h
  · assumption
  · cases h

theorem test_hyps_SearchCommandsComplete :
    (admittedAs (tWith (tFind 1 tPb)) 0 (tFind 1 tPb) 0x01 ∧ searchCheck (tWith (tFind 1 tPb)) (tFind 1 tPb) false = .error (.ends stInvalid)) ∧
    (admittedAs (tWith (tFind 3 tPbSweep)) 0 (tFind 3 tPbSweep) 0x03 ∧
      searchCheck (tWith (tFind 3 tPbSweep)) (tFind 3 tPbSweep) true = .error (.ends stInvalid)) ∧
    (let c : Cmd := { tFind 1 tPb with modes := (2, 0) };
      admittedAs (tSearch c tQuery) 0 c 0x01 ∧ searchCheck (tSearch c tQuery) c false = .error .planRejected) ∧
    (let c := tFind 1 tPb;
      let s := (tSearch c tQuery).mapHost fun h => { h with queries := [] };
      admittedAs s 0 c 0x01 ∧ searchCheck s c false = .ok () ∧ plannerReady s c.part = true ∧ vectorUnit s c.part = true ∧ queryOf s 0 = none ∧ zeroRate s c.part tT4 = false ∧
        shardOf s c.part (eIndex c.entry) = some tServ ∧ (holders s c).contains (nodeId s) = true ∧ (cmdParams s c).tokens = false) ∧
    (let c := tFind 3 tPbSweep;
      let s := (tSearch c tQuery).mapHost fun h => { h with queries := [] };
      admittedAs s 0 c 0x03 ∧ searchCheck s c true = .ok () ∧ plannerReady s c.part = true ∧ vectorUnit s c.part = true ∧ queryOf s 0 = none ∧ zeroRate s c.part tT4 = false ∧
        shardOf s c.part (eIndex c.entry) = some tServ ∧ (holders s c).contains (nodeId s) = true ∧ (cmdParams s c).tokens = false) := by
  simp only [admittedAs]
  refine ⟨⟨by decide +kernel, errSearch_of (by decide +kernel)⟩, ⟨by decide +kernel, errSearch_of (by decide +kernel)⟩,
    ⟨by decide +kernel, planErr_of (by decide +kernel)⟩, ?_, ?_⟩
  · exact ⟨by decide +kernel, okSearch_of (by decide +kernel), by decide +kernel⟩
  · exact ⟨by decide +kernel, okSearch_of (by decide +kernel), by decide +kernel⟩

def tEnt (k : Nat) : LEnt := { key := k, slot := 0, gid := 5, fresh := false, suspect := false, a := 0 }

theorem test_hyps_WalkRowsComplete :
    (let q : Query := { tQuery with sketch := natLe 16 1 };
      let s := tSearch (tFind 1 tPb) q;
      s.host.queries.get 0 = some q ∧ shardOf s q.part q.index = some tServ ∧ q.tile = none ∧ q.kind ≠ .insert ∧ q.sketch ≠ [] ∧ q.late = false ∧
        s.blockOut 4 = false ∧ s.blockOut 6 = false ∧ tileGives (queryCfg s q) s 0 q.part q.kind = true ∧ q.planned = true ∧ listUnit s 0 ≠ none ∧ zeroRate s q.part tT1 = false ∧
        zeroRate s q.part tTF = false ∧ pagesUsed s q.part + queryPages q ≤ pagesTotal s q.part ∧
        pagesTotal (s.mapMem fun m => { m with sheet := [] }) q.part < pagesUsed s q.part + queryPages q) ∧
    (let q : Query := { tQuery with sketch := natLe 16 1, tile := some 0, freshDone := false };
      let s := tSearch (tFind 1 tPb) q;
      s.host.queries.get 0 = some q ∧ q.kind = .search ∧ roundReady q = true ∧ q.freshDone = false ∧ zeroRate s q.part tT1 = false ∧ zeroRate s q.part tTF = false ∧ zeroRate s q.part tT2 = false ∧ zeroRate s q.part tT3 = false ∧
        ((roundState s tServ q).queue.filter fun e => !e.expanded) = []) ∧
    (let q : Query := { tQuery with tile := some 0 };
      let s := (tSearch (tFind 1 tPb) q).mapHost fun h => { h with freshWait := [0] };
      s.blockOut 5 = false ∧ shardOf s 0 0 = some tServ ∧ s.host.freshWait = [0] ∧ s.host.queries.get 0 = some q ∧ q.part = 0 ∧ q.index = 0 ∧
        q.tile ≠ none ∧ winUp s tServ.desc.freshWin = true ∧ (s.stack 0).step = none ∧ (s.stack 0).batches = []) ∧
    (let s := tUp.updStack 5 fun k => { k with step := some { hdr := 0, payload := [] } };
      (s.stack 5).step ≠ none ∧ (s.stack 5).gapOpen = [] ∧ (s.stack 5).thresh = [] ∧ (s.stack 5).later = [] ∧ (s.stack 5).batches = [] ∧
        s.lichen.queue = []) ∧
    (let r : SweepRec := { slotId := 0, a := 0, qslot := 0, ctx := 0, unsettled := false, fresh := false, suspect := false };
      let q : Query := { tQuery with tile := some 0 };
      let s := (tSearch (tFind 1 tPb) q).mapLichen fun l => { l with fifo := [(0, [r])] };
      s.lichen.fifo.getD 0 [] = [r] ∧ ctxQuery s r.ctx = some 0 ∧ s.host.queries.get 0 = some q ∧ shardOf s q.part q.index = some tServ ∧
        zeroRate s q.part tT2 = false ∧ zeroRate s q.part tT3 = false) ∧
    (let q : Query := { tQuery with arrivals := [tEnt 1] };
      q.arrivals = [tEnt 1] ∧ (q.stream.add (tEnt 1)).1.bound = q.stream.bound ∧ q.walkDone = false ∧
        zeroRate (tSearch (tFind 1 tPb) q) q.part tT1 = false ∧ (tSearch (tFind 1 tPb) q).host.queries.get 0 = some q) ∧
    (let q : Query := { tQuery with reads := some [tEnt 1, tEnt 2] };
      (tSearch (tFind 1 tPb) q).host.queries.get 0 = some q ∧ q.reads = some [tEnt 1, tEnt 2] ∧
        shardOf (tSearch (tFind 1 tPb) q) q.part q.index = some tServ ∧ zeroRate (tSearch (tFind 1 tPb) q) q.part tT2 = false ∧
        zeroRate (tSearch (tFind 1 tPb) q) q.part tT5 = false) ∧
    (let q : Query := { tQuery with deadline := 1, tile := some 0, stream := { tQuery.stream with ents := [tEnt 1] } };
      q.kind ≠ .insert ∧ q.late = false ∧ q.deadline ≠ 0 ∧ q.tile ≠ none ∧ q.reads = none ∧ (finalize q.stream).take q.topk = [tEnt 1]) ∧
    (let q : Query := { tQuery with late := true };
      (tSearch (tFind 1 tPb) q).host.queries.get 0 = some q ∧ q.late = true) ∧
    (let q : Query := { tQuery with deadline := 1, tile := some 0, reads := some [tEnt 1, tEnt 2], done := 9 };
      q.kind ≠ .insert ∧ q.late = false ∧ q.deadline ≠ 0 ∧ q.tile ≠ none ∧ q.reads = some [tEnt 1, tEnt 2] ∧ q.done < q.topk) ∧
    (let q : Query := { tQuery with late := true, kind := .served };
      (tSearch (tFind 1 tPb) q).host.queries.get 0 = some q ∧ q.late = true ∧ q.kind = .served ∧
        (tSearch (tFind 1 tPb) q).host.queries.wf = true) := 
  ⟨by decide +kernel, by decide +kernel, by decide +kernel, by decide +kernel, by decide +kernel, by decide +kernel, by decide +kernel, by decide +kernel, by decide +kernel, by decide +kernel, by decide +kernel⟩

/-! ### Lichen -/

/-- A bank command's header: opcode, broadcast, argument (R202). -/
def tHdr (op : Nat) (bc : Bool) (arg : Nat) : W64 := BitVec.ofNat 64 (op + 16 * b2n bc + 2 ^ 32 * arg)

/-- Window 0 holds bare codes of partition 0. -/
def tBare : State := tCfg tUp [(4, 0, 0x80)]

def tSlotPay : List Byte := natLe 144 0

theorem test_hyps_BankCommandsComplete :
    (tUp.fencedUnit 0x08 5 = false ∧ (tUp.stack 5).step = none ∧ bankCmdOk 1 (tHdr 1 false 7) (natLe 148 0) = true ∧
      1024 * 0 + hBank (tHdr 1 false 7) < 6144 ∧ (1024 * 0 + hBank (tHdr 1 false 7)) / 1024 = 0 ∧
      cfgWinBare tBare.img.cfg (80 * 0 + hWin (tHdr 1 false 7)) = true ∧ cfgWinOwner tBare.img.cfg 0 = hPart (tHdr 1 false 7)) ∧
    bankCmdOk 2 (tHdr 2 true 31) tSlotPay = true ∧ bankCmdOk 3 (tHdr 3 true 31) (natLe 4 0) = true ∧ bankCmdOk 4 (tHdr 4 true 31) [] = true ∧
    bankCmdOk 5 (tHdr 5 true 0) (natLe 16 0) = true ∧
    (bankCmdOk 6 (tHdr 6 false 0) (natLe 36 0) = true ∧ hBcast (tHdr 6 false 0) = false ∧ hArg (tHdr 6 false 0) = 0 ∧
      rowAddr tUp 0 (hBank (tHdr 6 false 0)) 0 = some 0) ∧
    bankCmdOk 7 (tHdr 7 true 1) (natLe 4 0) = true ∧ (bankCmdOk 8 (tHdr 8 false 0) (natLe 4100 0) = true ∧
      rowAddr tUp 0 (hBank (tHdr 8 false 0)) 0 = some 0) ∧ ((tUp.updStack 5 fun k => { k with step := some { hdr := 0, payload := [] } }).stack 5).step ≠ none ∧
    (bankCmdOk 1 (tHdr 1 false 8) [] = false ∧ bankCmdOk 2 (tHdr 2 true 32) tSlotPay = false ∧ bankCmdOk 3 (tHdr 3 true 32) (natLe 4 0) = false ∧
      bankCmdOk 4 (tHdr 4 true 32) [] = false ∧ bankCmdOk 6 (tHdr 6 false 64) (natLe 36 0) = false ∧
      bankCmdOk 8 (tHdr 8 false 1) (natLe 4 0) = false) := by decide +kernel

theorem test_hyps_BankRowsComplete :
    (tUp.fencedUnit 0x08 (6143 / 1024) = false ∧ (tUp.stack (6143 / 1024)).step = none ∧ winUp tUp 479 = true) ∧
    (let s := tUp.updStack 5 fun k => { k with step := some { hdr := 0, payload := [] } };
      (s.stack (6143 / 1024)).step ≠ none ∧ (s.stack (6143 / 1024)).gapOpen.contains 6143 = false) ∧
    (let u := beginRebuilds (tBare.eventIf true .lchEvent 0 3) 0;
      tBare.fencedUnit 0x08 0 = false ∧ (u.stack 0).scrubPos / 264 < 80 ∧ cfgWinBare u.img.cfg (80 * 0 + (u.stack 0).scrubPos / 264) = true ∧ ((u.stack 0).scrubPos + 1) % 264 ≠ 0) ∧
    (let d : Damage := { win := 0, rg := 7, st := .suspect, record := 0 };
      let s := (tSearch (tCmd []) tQuery).updStack 0 fun k => { k with damage := [d] };
      ((s.stack 0).damage.find? fun d => d.win == 0 && d.rg == 7 && d.st != .failed) = some d ∧ winShard s 0 = some tServ ∧ winShard tUp 0 = none) ∧
    (let s := tUp.updStack 5 fun k => { k with gapOpen := [6143] };
      (s.stack 5).step = none ∧ (s.stack 5).gapOpen.contains (1024 * 5 + 1023) = true) ∧
    (let s := (tSearch (tCmd []) tQuery).mapLichen fun l => { l with reports := [(7, 0, 3)] };
      let u := s.mapLichen fun l => { l with reports := [] };
      (s.lichen.reports.find? fun r => r.1 == 2 ^ 18 * 0 + 7) = some (7, 0, 3) ∧ rgDirty u 7 = false ∧ s.shards.get 0 = some tServ ∧
        ringSeq tServ 3 = none) := by decide +kernel

set_option maxRecDepth 100000 in
/-- A row group of zeros matches its shadow CRC, and one with a byte changed does not (R223). -/
theorem test_hyps_disagree :
    crc32c (rgBytes tUp 7) = shadowCrc tUp 7 ∧
    (let s := tUp.mapLichen fun l => { l with shadow := [(7, 0)] };
      crc32c (rgBytes s 7) ≠ shadowCrc s 7) := by decide +kernel

/-! ### Updates, fences and pins -/

/-- An update of one entry of 16 fp32 values: GID 5 (R551). -/
def tUpd (op : Nat) : Cmd := tCmd (tEntry op [(0x1C, natLe 4 128), (0x30, natLe 4 128)] ++ patch (natLe 128 0) 0 [5])

def batchOk (s : State) (c : Cmd) (k : Nat) : Bool := match batchCheck s c with | .ok n => n == k | .error _ => false

theorem batchOk_of {s : State} {c : Cmd} {k : Nat} (h : batchOk s c k = true) : batchCheck s c = .ok k := by
  unfold batchOk at h
  split at h
  · rename_i n e; rw [e]; simp at h; rw [h]
  · cases h

def tRec : JRec :=
  { num := 0, typ := 1, index := 0, epoch := 1, gid := 5, slot := 0, oldSlot := 0, rseq := 0, attr := 0, norm := 0, code := [], exact := [], src := none }

def tPage : JPage := { jseq := 0, recs := [tRec], closed := false, copy0 := false, copy1 := false, die := 0, keyGen := 0, image0 := [], image1 := [] }

theorem test_hyps_UpdateCommandsComplete :
    (admittedAs (tWith (tUpd 0x10)) 0 (tUpd 0x10) 0x10 ∧ earlierUnplaced (tWith (tUpd 0x10)) 0 (tUpd 0x10) = false ∧
      batchCheck (tWith (tUpd 0x10)) (tUpd 0x10) = .error stInvalid) ∧
    (admittedAs (tSearch (tUpd 0x13) tQuery) 0 (tUpd 0x13) 0x13 ∧ earlierUnplaced (tSearch (tUpd 0x13) tQuery) 0 (tUpd 0x13) = false ∧
      ∃ k, batchCheck (tSearch (tUpd 0x13) tQuery) (tUpd 0x13) = .ok k) ∧
    (admittedAs (tSearch (tUpd 0x10) tQuery) 0 (tUpd 0x10) 0x10 ∧ batchCheck (tSearch (tUpd 0x10) tQuery) (tUpd 0x10) = .ok 1) ∧
    (let c : Cmd := { tUpd 0x10 with fullWait := some 2 };
      (tWith c).host.cmds.get 0 = some c ∧ c.phase ≠ .done ∧ c.fullWait = some 2) ∧
    (let c : Cmd := { tUpd 0x10 with fullWait := some 2, phase := .running, total := 2, outs := [] };
      (tWith c).host.cmds.get 0 = some c ∧ c.phase = .running ∧ c.fullWait = some 2 ∧ (tWith c).epoch.fences = [] ∧ c.outs.length < c.total ∧
        (c.outs.any EntryOut.open_) = false) ∧
    (let s := setJournal (tWith (tUpd 0x10)) 0 { Journal.empty with pages := [tPage] };
      (journalOf s 0).pages = [] ++ [tPage] ∧ tPage.closed = false ∧ tPage.recs ≠ [] ∧ closedRunning (journalOf s 0) < 8 ∧ zeroRate s 0 tT5 = false) ∧
    (let g : JPage := { tPage with closed := true };
      let s := setJournal tUp 0 { Journal.empty with pages := [g] };
      (journalOf s 0).pages = [g] ∧ g.copy0 = false ∧ s.epoch.prepared = false) := by
  simp only [admittedAs]
  refine ⟨⟨by decide +kernel, by decide +kernel, rfl⟩, ⟨by decide +kernel, by decide +kernel, 4, batchOk_of (by decide +kernel)⟩,
    ⟨by decide +kernel, batchOk_of (by decide +kernel)⟩, by decide +kernel⟩

/-- Epoch 5 is current; partition 0 retains 4 epochs. -/
def tPin (e refs : Nat) (c : Cmd) : State := (tPut (tCfg tUp [(2, 0, 1)]) c).mapEpoch fun x => { x with
  cur := 5, first := 1, pins := (if refs = 0 then [] else [(e, refs)]) }

theorem test_hyps_FencesAndPinsComplete :
    (let c : Cmd := { tCmd (tEntry 0x30 []) with qp := some 0 };
      let s := tPin 5 0 c;
      let u := ((markRunning s 0).mapEpoch fun e => { e with fences := addSet e.fences 0 });
      admittedAs s 0 c 0x30 ∧ earlierOpen u 0 { c with phase := .running } = false ∧
        (((c.qp.map (u.host.qps.getD · Qp.reset)).getD Qp.reset).vis.all fun v => decide (v.2 ≤ s.epoch.cur)) = true ∧ bit (eArg0 c.entry) 0 = false) ∧
    (let c : Cmd := { tCmd (tEntry 0x30 []) with qp := some 0 };
      let s := (tPin 5 0 c).mapHost fun h => { h with cmds := [(0, { c with entry := tEntry 0x10 [] }), (1, c)] };
      admittedAs s 1 c 0x30 ∧ earlierOpen ((markRunning s 1).mapEpoch fun e => { e with fences := addSet e.fences 1 }) 1 { c with phase := .running } = true) ∧
    (let c (e : Nat) : Cmd := { tCmd (tEntry 0x31 []) with epoch := e };
      admittedAs (tPin 0 0 (c 1)) 0 (c 1) 0x31 ∧ eIndex (c 1).entry = 0 ∧ retained (tPin 0 0 (c 1)) 0 1 = false ∧
        (retained (tPin 2 65535 (c 2)) 0 2 = true ∧ 65535 ≤ pinRefs (tPin 2 65535 (c 2)) 0 2) ∧
        (let s := (tPin 2 0 (c 2)).mapEpoch fun x => { x with pins := (List.range 12).map fun i => (100 + i, 1) };
          retained s 0 2 = true ∧ pinRefs s 0 2 = 0 ∧ 16 - cfgRetain s.img.cfg 0 ≤ (pinned s 0).length) ∧
        (let s := (tPin 2 0 (c 2)).mapEpoch fun x => { x with pins := (List.range 11).map fun i => (100 + i, 1) };
          retained s 0 2 = true ∧ pinRefs s 0 2 < 65535 ∧ (pinned s 0).length < 16 - cfgRetain s.img.cfg 0)) ∧
    (let c : Cmd := { tCmd (tEntry 0x32 []) with epoch := 2 };
      admittedAs (tPin 2 0 c) 0 c 0x32 ∧ eIndex c.entry = 0 ∧ pinRefs (tPin 2 0 c) 0 2 = 0 ∧ pinRefs (tPin 2 2 c) 0 2 = 2 ∧ pinRefs (tPin 2 1 c) 0 2 ≠ 0) ∧
    (let c (op : Nat) : Cmd := tCmd (patch (tEntry op []) 4 [1]);
      eIndex (c 0x31).entry ≠ 0 ∧ eIndex (c 0x32).entry ≠ 0 ∧ admittedAs (tPin 2 0 (c 0x31)) 0 (c 0x31) 0x31 ∧
        admittedAs (tPin 2 0 (c 0x32)) 0 (c 0x32) 0x32) := by
  simp only [admittedAs]
  decide +kernel

/-! ### Indexes -/

/-- The search fixture with host-assisted modes of partition 0 and a shard. -/
def tShd (c : Cmd) (sh : Shard) : State := { tSearch c tQuery with shards := [(0, sh)] }

def tBuild : Shard := { tServ with phase := .building, highWater := 8, desc := { tDesc with numrec := [0, 0, 1, 0] } }

def tDescribe : Cmd := tCmd (tEntry 0x81 [(0x30, natLe 4 1024)])

/-- A BULK_LOAD of one item of one fp32 value. -/
def tBulk : Cmd := tCmd (tEntry 0x84 [(0x1C, natLe 4 64)] ++ patch (natLe 64 0) 0 [5])

/-- A SEAL with entry point 7. -/
def tSeal : Cmd := tCmd (tEntry 0x85 [(0x18, natLe 4 128)] ++ ([1] ++ natLe 63 0 ++ natLe 4 7 ++ List.replicate 60 0xFF))

def tHist : Cmd := { tCmd (tEntry 0x86 [(0x1C, natLe 4 9232)] ++ (natLe 4 2 ++ [0, 0, 1, 0] ++ List.replicate 9224 0)) with epoch := 2, modes := (16, 0) }

def tMove : Cmd := tCmd (tEntry 0x83 [(0x18, natLe 4 64)] ++ (natLe 2 0 ++ natLe 2 4 ++ natLe 60 0))

theorem test_hyps_indexRows :
    (admittedAs (tWith tDescribe) 0 tDescribe 0x81 ∧ zeroRate (tWith tDescribe) 0 tT3 = false ∧ 1024 ≤ eResultLen tDescribe.entry) ∧
    (let c := tCmd (tEntry 0x82 []);
      admittedAs (tShd c tServ) 0 c 0x82 ∧ shardOf (tShd c tServ) c.part (eIndex c.entry) = some tServ ∧ tServ.retire = none ∧
        compOf (tShd c tServ) c.part tServ.index = none ∧ admittedAs (tWith c) 0 c 0x82 ∧ shardOf (tWith c) c.part (eIndex c.entry) = none) ∧
    (let s := tCfg (tShd tMove tServ) [(4, 0, 0x180), (4, 4, 0x180)];
      admittedAs s 0 tMove 0x83 ∧ [tT2, tT4].any (zeroRate s 0) = false ∧ shardOf s 0 (eIndex tMove.entry) = some tServ ∧
        field (paramBlock s tMove.entry) 0 2 = 0 ∧ field (paramBlock s tMove.entry) 2 2 = 4 ∧
        ((descWins tServ.desc).find? fun w => w.1 == 0) = some (0, true, 1) ∧ (paramBlock s tMove.entry).length = 64 ∧
        zeroAt (paramBlock s tMove.entry) 4 60 = true ∧ tServ.phase ≠ .retiring ∧ winIs s 0 (4, true, 1) = true ∧ (heldWins s 0).contains 4 = false ∧
        tServ.reloc = none) ∧
    (let s := tShd tSeal tBuild;
      admittedAs s 0 tSeal 0x85 ∧ [tT4, tT3].any (zeroRate s 0) = false ∧ shardOf s 0 (eIndex tSeal.entry) = some tBuild ∧ tBuild.phase = .building ∧
        (paramBlock s tSeal.entry).length = 128 ∧ field (paramBlock s tSeal.entry) 0 1 = 1 ∧ zeroAt (paramBlock s tSeal.entry) 1 0x3F = true ∧
        ((((List.range 16).map fun i => field (paramBlock s tSeal.entry) (0x40 + 4 * i) 4).drop 1).any (· != nullSlot) = false) ∧
        ((((List.range 16).map fun i => field (paramBlock s tSeal.entry) (0x40 + 4 * i) 4).take 1).any (fun x => decide (x ≥ tBuild.highWater)) = false)) := by
  simp only [admittedAs]
  decide +kernel

def bulkReady (s : State) (sh : Shard) (b : List Byte) : Bool := match bulkItems sh 0 64 false sh.highWater b 1 0 with
  | some l => decide ((l.map (·.gid)).Nodup) && !((l.map (·.gid)).any fun g => (idSlot s sh g).isSome) && (bulkPuts 0 sh.index l s).isSome
  | none => false

theorem bulkReady_of {s : State} {sh : Shard} {b : List Byte} (h : bulkReady s sh b = true) :
    ∃ l t, bulkItems sh 0 64 false sh.highWater b 1 0 = some l ∧ (l.map (·.gid)).Nodup ∧
      ((l.map (·.gid)).any fun g => (idSlot s sh g).isSome) = false ∧ bulkPuts 0 sh.index l s = some t := by
  unfold bulkReady at h
  split at h
  · rename_i l e
    simp only [Bool.and_eq_true, decide_eq_true_eq, Bool.not_eq_true', Option.isSome_iff_exists] at h
    obtain ⟨⟨h1, h2⟩, t, h3⟩ := h
    exact ⟨l, t, e, h1, h2, h3⟩
  · cases h

theorem test_hyps_bulkLoad :
    (let s := tShd tBulk tBuild;
      admittedAs s 0 tBulk 0x84 ∧ [tT4, tT2, tT3, tT5].any (zeroRate s 0) = false ∧ shardOf s 0 (eIndex tBulk.entry) = some tBuild ∧
        tBuild.phase = .building ∧ tBuild.loadQp = none ∧ bits (eArg0 tBulk.entry) 0 2 = 0 ∧
        64 = 64 * ceilDiv (16 + nrDim tBuild.desc.numrec * vfmtBytes 0 + (if bit (eArg0 tBulk.entry) 2 then 4 * tBuild.desc.degree else 0)) 64 ∧
        1 = eDataLen tBulk.entry / 64 ∧ eDataLen tBulk.entry % 64 = 0 ∧ tBuild.highWater + 1 ≤ tBuild.desc.slotLimit) ∧
    ∃ l t, bulkItems tBuild 0 64 false tBuild.highWater (inputData (tShd tBulk tBuild) tBulk.entry) 1 0 = some l ∧ (l.map (·.gid)).Nodup ∧
      ((l.map (·.gid)).any fun g => (idSlot (tShd tBulk tBuild) tBuild g).isSome) = false ∧ bulkPuts 0 tBuild.index l (tShd tBulk tBuild) = some t := by
  simp only [admittedAs]
  exact ⟨by decide +kernel, bulkReady_of (by decide +kernel)⟩

set_option maxRecDepth 100000 in
theorem test_hyps_histLoad :
    (let s := tShd tHist tServ;
      admittedAs s 0 tHist 0x86 ∧ [tT4, tT3].any (zeroRate s 0) = false ∧ shardOf s 0 (eIndex tHist.entry) = some tServ ∧ tHist.mode 4 = true ∧
        eDataLen tHist.entry = 9232 ∧ (hostHistogram tServ tHist.epoch (inputData s tHist.entry)).isSome = true ∧ s.epoch.cur < tHist.epoch ∧
        tServ.phase ≠ .retiring ∧ tHist.epoch ≤ (s.mapEpoch fun e => { e with cur := 9 }).epoch.cur) := by
  simp only [admittedAs]
  decide +kernel

/-- A shard with one entry in its ring, and a slot that waits for a back-link. -/
def tParts : LinkParts := { recDone := true, backDone := false, codeDone := false, vecDone := false, linked := false, walked := false, empty := false }

def tLink : Shard := { tServ with
  highWater := 8, ringHead := 1, links := [(0, tParts)], freshSlots := [(0, 3)], backPend := [(2, [3])], jvectors := [(3, natLe 32 0)]
  desc := { tServ.desc with ovlSize := 1 } }

theorem test_hyps_LinkingRowsComplete :
    (let s := tShd (tCmd []) tLink;
      shardOf s 0 0 = some tLink ∧ hostMode s 0 2 = false ∧ serving tLink = true ∧ tLink.lost = false ∧ s.blockOut 4 = false ∧ s.blockOut 6 = false ∧
        s.partOut 4 0 = false ∧ (s.host.queries.find? fun e => e.2.kind == .insert && e.2.part == 0 && e.2.index == 0 && e.2.tile.isNone) = none ∧
        nextWalk s tLink (headTail tLink s.epoch.cur).1 = some (0, 3) ∧ tLink.links.get 0 = some tParts ∧ srDeleted (slotRec tLink 3) = false ∧
        tileGives s.img.cfg s 0 0 .insert = true ∧ listUnit s 0 ≠ none ∧ zeroRate s 0 tT1 = false ∧ zeroRate s 0 tTF = false ∧
        pagesUsed s 0 + queryPages (walkQuery s tLink 0 3 0) ≤ pagesTotal s 0 ∧
        pagesTotal (s.mapMem fun m => { m with sheet := [] }) 0 = 0) ∧
    (let sh : Shard := { tLink with slots := [(3, 2 ^ 108 + 2 ^ 109)] };
      let s := tShd (tCmd []) sh;
      shardOf s 0 0 = some sh ∧ nextWalk s sh (headTail sh s.epoch.cur).1 = some (0, 3) ∧ srDeleted (slotRec sh 3) = true ∧ canWrite s sh 3 = true) ∧
    (let s := tShd (tCmd []) tLink;
      tLink.backPend.get 2 = some [3] ∧ canWrite s tLink 2 = true ∧ servedHere s tLink 2 = true ∧ zeroRate s 0 tT3 = false ∧ zeroRate s 0 tT5 = false ∧
        backRecord tLink 2 s.epoch.cur ([3].foldl addSet (tLink.backReq.getD 2 [])) = [3] ∧
        (sortAsc id [3] == sortAsc id (adjFor tLink 2 s.epoch.cur)) = false ∧ s.epoch.prepared = false) ∧
    (let v : Version := { slot := 2, isAttr := false, pub := 0, adj := [3], attr := 0, off := 0 };
      let sh : Shard := { tLink with versions := [v] };
      let s := tShd (tCmd []) sh;
      shardOf s 0 0 = some sh ∧ sh.versions = [v] ∧ v.isAttr = false ∧ v.pub ≤ oldestInUse s 0 ∧ zeroRate s 0 tT3 = false) ∧
    (let sh : Shard := { tLink with repairPos := 7 };
      let s := (tShd (tCmd []) sh).setReg .epcPcfg2 0 1;
      s.fld .epcPcfg2 0 0 12 ≠ 0 ∧ sh.repairPos < sh.highWater ∧ repairPool s sh sh.repairPos = none ∧ 0 < sh.repairPos ∧
        ({ sh with repairPos := 8 } : Shard).highWater ≤ 8) ∧
    (let c : Cmd := { tCmd (tEntry 0x87 [(0x1C, [8]), (0x30, [8])] ++ (natLe 4 3 ++ natLe 4 3)) with modes := (4, 0) };
      admittedAs (tShd c tLink) 0 c 0x87 ∧ shardOf (tShd c tLink) c.part (eIndex c.entry) = some tLink ∧ c.mode 2 = true ∧
        linkEntries tLink.desc.degree 4096 (inputData (tShd c tLink) c.entry) = some [(3, 3, [])] ∧ 8 ≤ eResultLen c.entry) ∧
    (let c : Cmd := tCmd (tEntry 0x87 [(0x1C, [8])] ++ natLe 8 0);
      admittedAs (tShd c tLink) 0 c 0x87 ∧ linkEntries tLink.desc.degree 4096 (inputData (tShd c tLink) c.entry) = none) := by
  simp only [admittedAs]
  exact ⟨by decide +kernel, by decide +kernel, by decide +kernel, by decide +kernel, by decide +kernel, by decide +kernel, by decide +kernel⟩

theorem deviceWrite_some (s : State) (p : Nat) (ckpt : Bool) (index : Nat) (ls : List Nat) (h : s.felt.limited = false) (g : hostMode s p 0 = false) :
    ∃ t, deviceWrite s p ckpt index ls = some t := by
  unfold deviceWrite
  simp only [h, g]
  exact ⟨_, rfl⟩

theorem test_hyps_CheckpointRowsComplete :
    (let s := tShd (tCmd []) tLink;
      shardOf s 0 0 = some tLink ∧ ringSeq tLink 3 = some 0 ∧ tLink.jvectors.get 3 = some (natLe 32 0) ∧ tLink.links.get 0 = some tParts ∧
        zeroRate s 0 tT5 = false) ∧
    (∃ t, deviceWrite (tShd (tCmd []) tLink) 0 false 0 (vectorLaddrs tLink 3) = some t) ∧
    deviceWrite ((tShd (tCmd []) tLink).mapFelt fun f => { f with limited := true }) 0 false 0 (vectorLaddrs tLink 3) = none ∧
    (let s := tShd (tCmd []) tLink;
      tLink.phase = .serving ∧ tLink.lost = false ∧ tLink.ckptNow = none ∧ s.epoch.cur ≠ 0 ∧ s.epoch.prepared = false ∧ hostMode s 0 0 = false) ∧
    (let c := checkpointOf (tShd (tCmd []) tLink) tLink;
      let sh : Shard := { tLink with ckptNow := some c };
      shardOf (tShd (tCmd []) sh) 0 0 = some sh ∧ sh.ckptNow = some c ∧ sh.ckptPrev = none ∧ zeroRate (tShd (tCmd []) sh) 0 tT5 = false ∧
        ∃ t, deviceWrite (tShd (tCmd []) sh) 0 true 0 (ckptLaddrs sh c.epoch) = some t) ∧
    (let c := checkpointOf (tShd (tCmd []) tLink) tLink;
      let sh : Shard := { tLink with ckpt := some c, lost := true };
      let s := ((tShd (tCmd []) sh).mapPower fun p => { p with stage := .rebuild }).mapFelt fun f => { f with ready := true };
      shardOf s 0 0 = some sh ∧ sh.ckpt = some c ∧ s.power.stage = .rebuild ∧ sh.lost = true ∧ s.felt.ready = true ∧
        (List.range 16).any (s.fencedUnit 0x09) = false) :=
  ⟨by decide +kernel, deviceWrite_some _ _ _ _ _ (by decide) (by decide +kernel), by decide +kernel, by decide +kernel,
    ⟨rfl, rfl, rfl, by decide +kernel, deviceWrite_some _ _ _ _ _ (by decide) (by decide +kernel)⟩,
    ⟨rfl, rfl, rfl, rfl, rfl, by decide +kernel⟩⟩

/-! ### A NUMREC of 64 dimensions in fp16, with its CRC (R145) -/

theorem leNat_natLe (n c : Nat) : leNat (natLe n c) = c % 256 ^ n := by
  induction n generalizing c with
  | zero => simp [natLe, leNat, Nat.mod_one]
  | succ n ih =>
    simp only [natLe, leNat, BitVec.toNat_ofNat, ih]
    rw [show (2 : Nat) ^ 8 = 256 by rfl, Nat.pow_succ, Nat.mul_comm (256 ^ n) 256, Nat.mod_mul]

theorem crcBit_lt {c : Nat} (h : c < 2 ^ 32) : crcBit c < 2 ^ 32 := by
  unfold crcBit
  split
  · exact Nat.xor_lt_two_pow (by omega) (by decide)
  · omega

theorem crc32c_lt (b : List Byte) : crc32c b < 2 ^ 32 := by
  have h : ∀ (b : List Byte) (c : Nat), c < 2 ^ 32 → b.foldl crcByte c < 2 ^ 32 := by
    intro b
    induction b with
    | nil => intro c h; exact h
    | cons x t ih =>
      intro c h
      apply ih
      have : c ^^^ x.toNat < 2 ^ 32 := Nat.xor_lt_two_pow h (by have := x.isLt; omega)
      exact crcBit_lt (crcBit_lt (crcBit_lt (crcBit_lt (crcBit_lt (crcBit_lt (crcBit_lt (crcBit_lt this)))))))
  exact Nat.xor_lt_two_pow (h b _ (by decide)) (by decide)

/-- The projection rows: 64 x 128 zeros. -/
def tRows : List Byte := List.replicate 32768 0

theorem tRows_length : tRows.length = 32768 := List.length_replicate

def tNumTail : List Byte := natLe 32 0 ++ (List.replicate 128 (natLe 4 0x3F800000)).flatten ++ List.replicate 128 0

def tNum (c : Nat) : List Byte :=
  [1, 1, 64, 0] ++ natLe 4 0x3F800000 ++ natLe 12 0 ++ natLe 4 0x2C0 ++ natLe 4 33472 ++ natLe 4 c ++ (tNumTail ++ tRows)

def tNumrec : List Byte := tNum (crc32c (tNum 0))

theorem natLe_length (n c : Nat) : (natLe n c).length = n := by
  induction n generalizing c with
  | zero => rfl
  | succ n ih => simp [natLe, ih]

theorem tNumTail_length : tNumTail.length = 672 := by decide +kernel

theorem tNum_length (c : Nat) : (tNum c).length = 33472 := by
  simp [tNum, natLe_length, tNumTail_length, tRows_length]

theorem slice_head (a z : List Byte) (off n : Nat) (h : off + n ≤ a.length) : slice (a ++ z) off n = slice a off n := by
  have e : ((a ++ z).drop off).take n = (a.drop off).take n := by
    rw [List.drop_append_of_le_length (by omega), List.take_append_of_le_length (by simp; omega)]
  simp only [slice, e]

theorem slice_mid (a b : List Byte) : slice (a ++ b) a.length b.length = b := by
  simp [slice]

/-- The head of the record, without its CRC. -/
def tNumHead : List Byte := [1, 1, 64, 0] ++ natLe 4 0x3F800000 ++ natLe 12 0 ++ natLe 4 0x2C0 ++ natLe 4 33472

theorem tNum_eq (c : Nat) : tNum c = tNumHead ++ (natLe 4 c ++ (tNumTail ++ tRows)) := by
  simp [tNum, tNumHead]

theorem tNum_field (c off n : Nat) (h : off + n ≤ 28) : field (tNum c) off n = field tNumHead off n := by
  rw [field, tNum_eq, slice_head _ _ _ _ (by rw [show tNumHead.length = 28 by rfl]; exact h), field]

theorem tNum_drop (c off : Nat) (h : 32 ≤ off) : (tNum c).drop off = (tNumTail ++ tRows).drop (off - 32) := by
  rw [tNum_eq, ← List.append_assoc, List.drop_append, List.drop_eq_nil_of_le (by simp [natLe_length]; exact h)]
  simp [natLe_length, show tNumHead.length = 28 by rfl]

theorem tNum_words (c n : Nat) (h : 704 + 4 * n ≤ 33472) : ∀ x ∈ wordsAt (tNum c) 704 n, x = 0 := by
  have e : (tNum c).drop 704 = tRows := by
    rw [tNum_drop c 704 (by decide)]
    exact List.drop_left' tNumTail_length
  intro x hx
  unfold wordsAt at hx
  rw [e] at hx
  obtain ⟨k, hk⟩ : ∃ k, 32768 = 4 * n + k := ⟨32768 - 4 * n, by omega⟩
  have g : ∀ (n k : Nat), wordsAt.go n (List.replicate (4 * n + k) 0) = List.replicate n 0 := by
    intro n
    induction n with
    | zero => intro k; rfl
    | succ n ih =>
      intro k
      rw [show 4 * (n + 1) + k = 4 + (4 * n + k) by omega]
      simp only [wordsAt.go, List.take_replicate, List.drop_replicate, List.replicate_succ]
      rw [show 4 + (4 * n + k) - 4 = 4 * n + k by omega, ih, show min 4 (4 + (4 * n + k)) = 4 by omega]
      rfl
  rw [show tRows = List.replicate (4 * n + k) 0 by rw [← hk]; rfl, g] at hx
  exact List.eq_of_mem_replicate hx

theorem tNum_scale (c : Nat) : (nrScale (tNum c)).all fPosNormal = true := by
  have : nrScale (tNum c) = wordsAt.go 128 ((tNumTail ++ tRows).drop 32) := by
    unfold nrScale wordsAt
    rw [tNum_drop c 0x40 (by decide)]
  rw [this]
  decide +kernel

theorem tNum_slice (c off n : Nat) (h : 32 ≤ off) (g : off + n ≤ 704) : slice (tNum c) off n = slice tNumTail (off - 32) n := by
  unfold slice
  rw [tNum_drop c off h, List.drop_append_of_le_length (by rw [tNumTail_length]; omega),
    List.take_append_of_le_length (by simp [tNumTail_length]; omega)]

theorem numrecOk_tNumrec : numrecOk tNumrec = true := by
  have hf (off n : Nat) (h : off + n ≤ 28) : field tNumrec off n = field tNumHead off n := tNum_field _ off n h
  have hc : nrCrc tNumrec = crc32c (tNum 0) := by
    unfold nrCrc field
    have : slice tNumrec 0x1C 4 = natLe 4 (crc32c (tNum 0)) := by
      unfold tNumrec
      rw [tNum_eq, ← List.append_assoc, slice_head _ _ _ _ (by simp [natLe_length]; decide)]
      have := slice_mid tNumHead (natLe 4 (crc32c (tNum 0)))
      rw [natLe_length] at this
      exact this
    rw [this, leNat_natLe, show (256 : Nat) ^ 4 = 2 ^ 32 by rfl, Nat.mod_eq_of_lt (crc32c_lt _)]
  have hp : patch tNumrec 0x1C [0, 0, 0, 0] = tNum 0 := by
    unfold patch tNumrec
    rw [tNum_length, tNum_eq, tNum_eq]
    have e : (tNumHead ++ (natLe 4 (crc32c (tNum 0)) ++ (tNumTail ++ tRows))).drop (28 + 4) = tNumTail ++ tRows := by
      rw [← List.append_assoc]
      exact List.drop_left' (by simp [natLe_length]; decide)
    have f : (tNumHead ++ (natLe 4 (crc32c (tNum 0)) ++ (tNumTail ++ tRows))).take 28 = tNumHead := List.take_left' (by decide)
    rw [tNum_eq] at e f
    simp only [List.length_cons, List.length_nil]
    rw [e, f]
    simp [natLe]
  have hr : ∀ row ∈ nrRows tNumrec, row.all fFinite = true := by
    intro row hrow
    unfold nrRows at hrow
    simp only [List.mem_map] at hrow
    obtain ⟨j, -, rfl⟩ := hrow
    rw [List.all_eq_true]
    intro x hx
    have h0 : x = 0 := tNum_words (crc32c (tNum 0)) 8192 (by decide) x (by
      have := List.mem_of_mem_drop (List.mem_of_mem_take hx)
      rw [show nrProj tNumrec = 704 by unfold nrProj; rw [hf _ _ (by decide)]; decide,
        show nrDim tNumrec = 64 by unfold nrDim; rw [hf _ _ (by decide)]; decide] at this
      exact this)
    rw [h0]
    decide
  have h3 : nrFmt tNumrec = 1 := by unfold nrFmt; rw [hf _ _ (by decide)]; decide
  unfold numrecOk
  simp only [h3]
  simp only [show (1 == 3) = false by decide, Bool.not_false, Bool.true_or, Bool.and_true, Bool.false_eq_true, if_false]
  have hz : (nrZero tNumrec).all (fun z => decide (z ≤ 15)) = true := by
    unfold nrZero tNumrec
    rw [tNum_slice _ _ _ (by decide) (by decide)]
    decide +kernel
  have hs : zeroAt tNumrec 0x20 32 = true := by
    unfold zeroAt tNumrec
    rw [tNum_slice _ _ _ (by decide) (by decide)]
    decide +kernel
  have hrr : (nrRows tNumrec).all (fun row => row.all fFinite) = true := List.all_eq_true.2 hr
  have hsc : (nrScale tNumrec).all fPosNormal = true := tNum_scale _
  rw [hc, hp, hz, hs, hrr, hsc, show tNumrec.length = 33472 from tNum_length _]
  unfold nrMetric nrSigma nrTolAbs nrTolRel nrProj nrLength nrDim
  rw [hf _ _ (by decide), hf _ _ (by decide), hf _ _ (by decide), hf _ _ (by decide), hf _ _ (by decide), hf _ _ (by decide), hf _ _ (by decide),
    hf _ _ (by decide)]
  simp only [beq_self_eq_true, Bool.and_true]
  decide +kernel

def tMakePb : List Byte :=
  [32, 0, 0, 1] ++ natLe 4 64 ++ natLe 4 0 ++ natLe 4 1024 ++ natLe 4 1 ++ [1, 0, 2, 0, 0xFF, 0xFF] ++ natLe 166 0 ++ natLe 2 0 ++ natLe 2 1 ++ natLe 60 0

def tMake : Cmd := tCmd (tEntry 0x80 [(0x18, natLe 4 256), (0x1C, natLe 4 33472)] ++ (tMakePb ++ tNumrec))

/-- Windows of the new shard; DDR5, Sheet cache and flash for it where `room`. -/
def tRoom (room : Bool) : State := tCfg (tWith tMake) [(4, 0, 0x180), (4, 1, 0x300), (4, 2, 0x280), (5, 0, if room then 2 ^ 32 + 2 ^ 64 + 2 ^ 96 else 0)]

theorem tMake_pb (s : State) : paramBlock s tMake.entry = tMakePb := by
  have h : eInline tMake.entry = true := by
    simp [eInline, tMake, tCmd, tMakePb, natLe_length]
    omega
  rw [paramBlock, if_pos h]
  have e : ePbLen tMake.entry = 256 := by decide +kernel
  rw [e]
  decide +kernel

theorem tMake_data (s : State) : inputData s tMake.entry = tNumrec := by
  have h : eInline tMake.entry = true := by
    simp [eInline, tMake, tCmd, tMakePb, natLe_length]
    omega
  rw [inputData, if_pos h]
  have e : ePbLen tMake.entry = 256 := by decide +kernel
  have f : eDataLen tMake.entry = 33472 := by decide +kernel
  rw [e, f]
  have g := slice_mid (tEntry 0x80 [(0x18, natLe 4 256), (0x1C, natLe 4 33472)] ++ tMakePb) tNumrec
  rw [show tNumrec.length = 33472 from tNum_length _,
    show (tEntry 0x80 [(0x18, natLe 4 256), (0x1C, natLe 4 33472)] ++ tMakePb).length = 64 + 256 by decide +kernel] at g
  rw [show tMake.entry = (tEntry 0x80 [(0x18, natLe 4 256), (0x1C, natLe 4 33472)] ++ tMakePb) ++ tNumrec by simp [tMake, tCmd]]
  exact g

def tMade : ShardDesc := createDesc tMakePb tNumrec

/-- Sizes of the new shard's structures: a NUMREC of 33,472 bytes and those that 64 slots of degree 32 need. -/
def tSizes : List Nat := 33472 :: (t3Sizes { tMade with numrec := [] }).drop 1

theorem tMade_sizes : t3Sizes tMade = tSizes := by
  have h : tMade.numrec.length = 33472 := tNum_length _
  simp only [t3Sizes, h, tSizes, List.map, List.drop]
  exact congrArg (· :: _) (by decide)

/-- The structures find their place whichever of them is placed first. -/
def tHome (r : Nat) : Option (List Nat) :=
  (t3Place (2 ^ 30 - t3Top (tRoom true) 0 tMade.freshEntries) 0 (((tSizes.zipIdx).map fun x => (x.2, x.1)).rotateLeft r) []).map fun l =>
    (sortAsc (·.1) l).map (·.2)

theorem tHome_ok : ∀ r, r < 12 → (tHome r).isSome = true ∧ pinsFit 1 (((tHome r).map (·.getD 11 0)).toList ++ []) = true := by decide +kernel

theorem tMade_room (room : Bool) : createRoom (tRoom room) 0 tMade = room := by
  cases room with
  | false =>
    have h : t3Home (tRoom false) 0 tMade = none := by
      unfold t3Home
      rw [if_pos (by decide +kernel)]
    simp [createRoom, h]
  | true =>
    have h : t3Home (tRoom true) 0 tMade = tHome (Config.freeNat (tRoom true).free % 12) := by
      unfold t3Home
      have a : cfgDdr (tRoom true).img.cfg 0 = (0, 1) := by decide +kernel
      have b : t3Held (tRoom true) 0 = [] := rfl

      rw [if_neg (by decide +kernel), tMade_sizes, a, b]
      rfl
    have g := tHome_ok _ (Nat.mod_lt (Config.freeNat (tRoom true).free) (by decide : 0 < 12))
    unfold createRoom
    rw [h]
    have e : ((tRoom true).shards.filter fun e => e.2.part == 0) = [] := rfl
    have c : cfgSheetCache (tRoom true).img.cfg 0 = 1 := by decide +kernel
    have v : vectorCodewords tMade = 2 := by decide +kernel
    simp only [e, c, List.map_nil, List.filterMap_nil, g.1, g.2, Bool.true_and, List.map_cons, v]
    decide +kernel

theorem test_hyps_IndexAdminCompletes_create (room : Bool) :
    admittedAs (tRoom room) 0 tMake 0x80 ∧ [tT4, tT3].any (zeroRate (tRoom room) 0) = false ∧
    paramBlock (tRoom room) tMake.entry = tMakePb ∧ inputData (tRoom room) tMake.entry = tNumrec ∧
    shardOf (tRoom room) 0 (eIndex tMake.entry) = none ∧ 192 ≤ tMakePb.length ∧ numrecOk tNumrec = true ∧ createFieldsOk tMakePb tMade = true ∧
    (descWins tMade).all (winIs (tRoom room) 0) = true ∧ ((descWins tMade).map (·.1)).Nodup ∧
    ((descWins tMade).map (·.1)).any (heldWins (tRoom room) 0).contains = false ∧ createRoom (tRoom room) 0 tMade = room :=
  ⟨⟨rfl, rfl, by decide +kernel⟩, by cases room <;> decide +kernel, tMake_pb _, tMake_data _, rfl, by decide +kernel, numrecOk_tNumrec,
    by decide +kernel, by cases room <;> decide +kernel, by decide +kernel, by cases room <;> decide +kernel, tMade_room room⟩

/-! ### Models -/

/-- A model image header: roles 7, SPLIT, MAX_SEQ 512, VOCAB 100 (R303). -/
def tImg (split : Nat) : List Byte := patch (patch (natLe 128 0) 6 (natLe 1 7 ++ natLe 1 split)) 0x1A (natLe 2 512 ++ natLe 4 100)

def tForce (b : List Byte) (role : Nat) : InForce := { part := 0, role := role, profile := 0, digest := miDigest b }

def tRes (b : List Byte) : Resident := { digest := miDigest b, done := true, spans := [(0, 256)], poison := [], lost := false }

/-- The state with one model stored, bound to every role of partition 0 and resident. -/
def tModel (s : State) (b : List Byte) : State := s.mapModel fun m => { m with
  store := [b], bound := [(0, [tForce b 1, tForce b 2, tForce b 3]), (1, [tForce b 1, tForce b 2, tForce b 3])], resident := [tRes b] }

theorem stored_tModel (s : State) (b : List Byte) : storedImage (tModel s b) (miDigest b) = some b := by
  have h : (tModel s b).model.store = [b] := rfl
  simp [storedImage, h]

theorem bound_tModel (s : State) (b : List Byte) (r : Role) (e : Nat) (h : e = 0 ∨ e = 1) :
    bindingIn (tModel s b) 0 r e = some (tForce b (roleCode r)) := by
  rcases h with rfl | rfl <;> cases r <;> rfl

theorem image_tModel (s : State) (b : List Byte) (r : Role) (e : Nat) (h : e = 0 ∨ e = 1) : boundImage (tModel s b) 0 r e = some b := by
  simp only [boundImage, bound_tModel s b r e h, Option.bind_some, tForce, stored_tModel]

theorem avail_tModel (s : State) (b : List Byte) (r : Role) (e : Nat) (h : e = 0 ∨ e = 1) (hl : s.model.lost = [])
    (hr : bit (miRoles b) (roleCode r - 1) = true) (hs : miSplit b ≤ 1) : modelAvail (tModel s b) 0 r e = .ready b := by
  have hd : (tForce b (roleCode r)).digest = miDigest b := rfl
  have hm : (tModel s b).model.lost = [] := hl
  have hx : (tModel s b).model.resident = [tRes b] := rfl
  simp only [modelAvail, bound_tModel s b r e h, hd, stored_tModel, hm]
  simp only [hr, residentOf, hx]
  simp [tRes]
  omega

/-- EMBED of one document of two tokens (R556, R558). -/
def tEmbed : Cmd := tCmd (tEntry 0x20 [(0x1C, [64]), (0x30, natLe 4 4096), (0x34, [1])] ++ patch (patch (natLe 64 0) 0x10 [2]) 0x20 [1, 0, 0, 0, 2])

theorem test_hyps_embed :
    (let s := tModel (tWith tEmbed) (tImg 1);
      admittedAs s 0 tEmbed 0x20 ∧ (∃ d, cmdDocs s tEmbed = some [d]) ∧ bits (eArg0 tEmbed.entry) 0 2 = 1 ∧ eIndex tEmbed.entry = 0 ∧
        32 * 1 + ((boundImage s 0 .doc tEmbed.local_).map embedStride).getD 0 * 1 ≤ eResultLen tEmbed.entry ∧ profileClash s tEmbed .doc = false ∧
        (runTiers (boundImage s 0 .doc tEmbed.local_)).any (zeroRate s 0) = false ∧ modelAvail s 0 .doc tEmbed.local_ = .ready (tImg 1)) ∧
    (modelAvail (tWith tEmbed) 0 .doc 0 = .missing ∧ boundImage (tWith tEmbed) 0 .doc 0 = none ∧ profileClash (tWith tEmbed) tEmbed .doc = false ∧
      (runTiers none).any (zeroRate (tWith tEmbed) 0) = false) := by
  refine ⟨⟨⟨rfl, rfl, by decide +kernel⟩, ?_, by decide +kernel, by decide +kernel, ?_, ?_, ?_,
    avail_tModel _ _ _ _ (Or.inl rfl) rfl (by decide +kernel) (by decide +kernel)⟩, rfl, rfl, rfl, by decide +kernel⟩
  · have h : (cmdDocs (tModel (tWith tEmbed) (tImg 1)) tEmbed).map List.length = some 1 := by decide +kernel
    match hh : cmdDocs (tModel (tWith tEmbed) (tImg 1)) tEmbed with
    | some [d] => exact ⟨d, rfl⟩
    | none => rw [hh] at h; cases h
    | some [] => rw [hh] at h; cases h
    | some (_ :: _ :: _) => rw [hh] at h; simp at h
  · rw [show tEmbed.local_ = 0 from rfl, image_tModel _ _ _ _ (Or.inl rfl)]
    decide +kernel
  · simp only [profileClash, show tEmbed.local_ = 0 from rfl, show tEmbed.part = 0 from rfl, bound_tModel _ _ _ 0 (Or.inl rfl)]
    decide +kernel
  · rw [show tEmbed.local_ = 0 from rfl, image_tModel _ _ _ _ (Or.inl rfl)]
    decide +kernel

def tEmbIns : Cmd := { tEmbed with entry := tEntry 0x21 [(0x1C, [64]), (0x30, natLe 4 4096)] ++ tEmbed.entry.drop 64 }

theorem test_hyps_embedInsert :
    (let s := tModel (tSearch tEmbIns tQuery) (tImg 1);
      admittedAs s 0 tEmbIns 0x21 ∧ earlierUnplaced s 0 tEmbIns = false ∧ (cmdDocs s tEmbIns).map List.length = some 1 ∧
        shardOf s 0 (eIndex tEmbIns.entry) = some tServ ∧ serving tServ = true ∧ tServ.lost = false ∧ 32 * 1 ≤ eResultLen tEmbIns.entry ∧
        modelAvail s 0 .doc tEmbIns.local_ = .ready (tImg 1) ∧ (runTiers (some (tImg 1))).any (zeroRate s 0) = false) ∧ profileClash (tModel (tSearch tEmbIns tQuery) (tImg 1)) tEmbIns .doc = false := by
  refine ⟨⟨⟨rfl, rfl, by decide +kernel⟩, by decide +kernel, by decide +kernel, by decide +kernel, rfl, rfl, by decide +kernel,
    avail_tModel _ _ _ _ (Or.inl rfl) rfl (by decide +kernel) (by decide +kernel), by decide +kernel⟩, ?_⟩
  simp only [profileClash, show tEmbIns.local_ = 0 from rfl, show tEmbIns.part = 0 from rfl, bound_tModel _ _ _ 0 (Or.inl rfl)]
  decide +kernel

/-- RERANK of one candidate for a query of two tokens (R559). -/
def tRank : Cmd := { tCmd (tEntry 0x22 [(0x1C, [72]), (0x30, natLe 4 16)] ++ ([2, 0, 1, 0] ++ natLe 28 0 ++ [1, 0, 0, 0, 2] ++ natLe 27 0 ++ natLe 8 5)) with
  epoch := 1, local_ := 1, kept := true }

theorem test_hyps_rerank :
    (let s := tModel (tSearch tRank tQuery) (tImg 1);
      admittedAs s 0 tRank 0x22 ∧ shardOf s 0 (eIndex tRank.entry) = some tServ ∧ field (inputData s tRank.entry) 0 2 = 2 ∧
        field (inputData s tRank.entry) 2 2 = 1 ∧ zeroAt (inputData s tRank.entry) 4 28 = true ∧
        eDataLen tRank.entry = 32 + 32 * ceilDiv (4 * 2) 32 + 8 * 1 ∧
        zeroAt (inputData s tRank.entry) (32 + 4 * 2) (32 * ceilDiv (4 * 2) 32 - 4 * 2) = true ∧ 16 * 1 ≤ eResultLen tRank.entry ∧
        ((List.range 1).map fun i => field (inputData s tRank.entry) (32 + 32 * ceilDiv (4 * 2) 32 + 8 * i) 8).Nodup ∧ tRank.local_ ≠ 0 ∧
        tRank.kept = true ∧ tServ.firstServing ≤ tRank.local_ ∧ (runTiers (some (tImg 1))).any (zeroRate s 0) = false) ∧
    modelAvail (tModel (tSearch tRank tQuery) (tImg 1)) 0 .rerank 1 = .ready (tImg 1) ∧
    tokensOk (boundImage (tModel (tSearch tRank tQuery) (tImg 1)) 0 .rerank 1) tRank.prof
      (tokensOf (slice (inputData (tModel (tSearch tRank tQuery) (tImg 1)) tRank.entry) 32 (4 * 2))) = true ∧
    profileClash (tModel (tSearch tRank tQuery) (tImg 1)) tRank .rerank = false ∧
    (modelAvail (tSearch tRank tQuery) 0 .rerank 1 = .missing ∧ profileClash (tSearch tRank tQuery) tRank .rerank = false ∧
      tokensOk (boundImage (tSearch tRank tQuery) 0 .rerank 1) tRank.prof (tokensOf (slice (inputData (tSearch tRank tQuery) tRank.entry) 32 (4 * 2))) = true) := by
  refine ⟨?_, avail_tModel _ _ _ _ (Or.inr rfl) rfl (by decide +kernel) (by decide +kernel), ?_, ?_, rfl, rfl, by decide +kernel⟩
  · simp only [admittedAs]
    decide +kernel
  · rw [image_tModel _ _ _ _ (Or.inr rfl)]
    decide +kernel
  · simp only [profileClash, show tRank.local_ = 1 from rfl, show tRank.part = 0 from rfl, bound_tModel _ _ _ 1 (Or.inr rfl)]
    decide +kernel

theorem test_hyps_modelStore :
    (let c := tCmd (tEntry 0x90 []);
      admittedAs (tWith c) 0 c 0x90 ∧ bit (eArg0 c.entry) 0 = false ∧ zeroRate (tWith c) 0 tT4 = false) ∧
    (let c := tCmd (tEntry 0x90 [(0x34, [1])]);
      let s := (tWith c).mapModel fun m => { m with store := [natLe 64 0] };
      admittedAs s 0 c 0x90 ∧ bit (eArg0 c.entry) 0 = true ∧
        (s.model.store.find? fun b => miModelId b == eArg1 c.entry && miRank b == bits (eArg0 c.entry) 8 8) = some (natLe 64 0) ∧
        digestBound s (miDigest (natLe 64 0)) = false ∧ (tWith c).model.store = []) := by
  refine ⟨⟨⟨rfl, rfl, by decide +kernel⟩, by decide +kernel, by decide +kernel⟩, ⟨rfl, rfl, by decide +kernel⟩, by decide +kernel, by decide +kernel, rfl, rfl⟩

/-- MODEL_GROUP of 8 nodes, this node (0) among them. -/
def tGroup (target : Nat) : Cmd := tCmd (tEntry 0x91 [(0x18, [64])] ++ (natLe 4 3 ++ natLe 4 8 ++ natLe 8 0 ++ natLe 8 target ++ natLe 8 0 ++ (List.range 8).flatMap (natLe 4)))

theorem test_hyps_modelGroup :
    (let f (t : Nat) : Bool :=
        let s := tNode (tWith (tGroup t));
        let b := paramBlock s (tGroup t).entry;
        ePbLen (tGroup t).entry == 64 && zeroAt b 5 3 && zeroAt b 0x18 8 && decide (field b 0x10 8 < 2 ^ 48) && field b 4 1 == 8 &&
          !((List.range (min 8 8)).map fun i => field b (0x20 + 4 * i) 4).any (fun x => x ≥ noNode) && zeroAt b (0x20 + 4 * 8) (32 - 4 * 8) &&
          ((List.range (min 8 8)).map fun i => field b (0x20 + 4 * i) 4).contains (nodeId s);
      f 2 = true ∧ f 1 = true ∧ admittedAs (tNode (tWith (tGroup 2))) 0 (tGroup 2) 0x91 ∧ (tNode (tWith (tGroup 2))).epoch.cur + 2 ≤ 2) := by
  simp only [admittedAs]
  decide +kernel

/-- A closed batch of the model, waiting for a cluster. -/
def tBatch (b : List Byte) : Batch :=
  { num := 0, digest := miDigest b, role := .doc, part := 0, seqs := [], closed := true, cluster := none, lane := none, rerun := false, lead := none, sent := [] }

def tRound : State :=
  (tModel (tCfg (tSearch (tCmd []) tQuery) [(1, 0, 2 ^ 97)]) (tImg 1)).mapModel fun m => { m with batches := [tBatch (tImg 1)] }

theorem tRound_stored : storedImage tRound (miDigest (tImg 1)) = some (tImg 1) := by
  have h : tRound.model.store = [tImg 1] := rfl
  simp [storedImage, h]

theorem tRound_streams : streams tRound (miDigest (tImg 1)) = true := by
  unfold streams
  rw [tRound_stored]
  have hl : tRound.model.lost = [] := rfl
  have hr : tRound.model.resident = [tRes (tImg 1)] := rfl
  simp [hl, hr, tRes]

theorem tRound_waits : batchWaits tRound (tBatch (tImg 1)) = true := by
  have h : pagesUsed tRound 0 + batchPages tRound (tBatch (tImg 1)) ≤ pagesTotal tRound 0 := by
    have e : storedImage tRound (tBatch (tImg 1)).digest = some (tImg 1) := tRound_stored
    unfold batchPages
    rw [e]
    decide +kernel
  have g : streams tRound (tBatch (tImg 1)).digest = true := tRound_streams
  simp only [batchWaits, g]
  simp only [show (tBatch (tImg 1)).closed = true from rfl, show (tBatch (tImg 1)).cluster = none from rfl, show (tBatch (tImg 1)).part = 0 from rfl]
  simp [h]

theorem tRound_models : waitModels tRound = [miDigest (tImg 1)] := by
  have h : tRound.model.batches = [tBatch (tImg 1)] := rfl
  unfold waitModels
  rw [h, List.filter_cons_of_pos tRound_waits]
  rfl

/-- A split model of five layers: EMBED_LOOKUP, LAYERNORM, LINEAR, ACTIVATE, LINEAR with 8 outputs (R293, R303, R326). -/
def tSplit : List Byte :=
  patch (patch (patch (tImg 2) 0x16 [5, 0, 1, 0]) 0x20 [1])
    0x30 (natLe 4 128) ++
  ([1, 3, 2, 0, 1, 0, 1, 0] ++ natLe 24 0) ++ ([3, 0, 1, 0, 1, 0, 1, 0] ++ natLe 24 0) ++ ([2, 1, 1, 0, 1, 0, 1, 0] ++ natLe 24 0) ++
  ([5, 0, 1, 0, 1, 0, 1, 0] ++ natLe 5 0 ++ [1] ++ natLe 18 0) ++ ([2, 1, 2, 0, 1, 0, 8, 0] ++ natLe 24 0)

/-- A running batch of the split model with one document of one token. -/
def tTogether : Batch := { tBatch tSplit with cluster := some 0, seqs := [{ src := (0, 0), tokens := [1], slot := 0 }] }

def tSums : State := (tModel tUp tSplit).mapModel fun m => { m with batches := [tTogether], resident := [] }

theorem test_hyps_BatchRowsComplete :
    (let b : Batch := { tBatch (tImg 1) with closed := false };
      (([b].find? fun x => x.num == 0) = some b) ∧ b.closed = false) ∧
    (tRound.blockOut 8 = false ∧ 0 < cfgWeightWindow tRound.img.cfg / 2 ∧ tRound.model.lanes.get 0 = none ∧
      (((waitModels tRound).take ((List.range (cfgWeightWindow tRound.img.cfg / 2)).filter fun x => !tRound.model.lanes.has x).length).find? fun d =>
        tRound.model.batches.any fun b => b.digest == d && batchWaits tRound b && !(freeClusters tRound b).isEmpty) = some (miDigest (tImg 1))) ∧
    (let l : Lane := { digest := some (miDigest (tImg 1)), pos := 3, left := 2 ^ 22 + 1 };
      let s := tRound.mapModel fun m => { m with lanes := [(0, l)] };
      s.model.lanes.get 0 = some l ∧ l.pos % 2 = 1 ∧ streams s (l.digest.getD []) = true ∧ 2 ^ 22 < l.left ∧
        ({ l with left := 9 } : Lane).left ≤ 2 ^ 22 ∧ (s.model.batches.any fun b => b.lane == some 0 && b.cluster.isSome) = false) ∧
    (let r : Resident := { tRes (tImg 1) with done := false };
      let s := tRound.mapModel fun m => { m with resident := [r] };
      s.model.resident[0]? = some r ∧ r.done = false ∧ r.lost = false ∧ r.spans ≠ []) ∧
    (let r : Resident := { tRes (tImg 1) with poison := [7] };
      let s := tRound.mapModel fun m => { m with resident := [r] };
      s.model.resident[0]? = some r ∧ r.poison ≠ []) ∧
    (let g : Group := { modelId := 0, nodes := [0, 5], target := 1, cmd := none };
      let p : Packet := { tPkt 0xB 5 [] with last := false };
      let s := ((tNode tUp).mapTwill fun t => { t with inbox := [p] }).mapModel fun m => { m with groups := [(3, g)] };
      p.typ = 0xB ∧ s.twill.inbox = [p] ∧ p.last = false ∧
        (s.model.groups.find? fun g => g.2.nodes.contains p.src && g.2.nodes.contains (nodeId s)) = some (3, g)) ∧
    (batchOf tSums 0 = some tTogether ∧ storedImage tSums tTogether.digest = some tSplit ∧ 1 < miSplit tSplit ∧ tTogether.cluster ≠ none ∧
      tTogether.lead = none ∧ ({ tTogether with lead := some 5 } : Batch).lead ≠ none ∧ (batchRun tSums tTogether tSplit).waits = true) := by
  refine ⟨⟨rfl, rfl⟩, ⟨by decide +kernel, by decide +kernel, by decide +kernel, ?_⟩, ⟨rfl, rfl, tRound_streams, by decide, by decide, rfl⟩,
    ⟨rfl, rfl, rfl, by decide⟩, ⟨rfl, by decide⟩, by decide +kernel, rfl, stored_tModel tUp tSplit, by decide +kernel, by decide, rfl, by decide, ?_⟩
  · have h : tRound.model.batches = [tBatch (tImg 1)] := rfl
    have e : (freeClusters tRound (tBatch (tImg 1))).isEmpty = false := by decide +kernel
    have n : ((List.range (cfgWeightWindow tRound.img.cfg / 2)).filter fun x => !tRound.model.lanes.has x).length = 1 := by decide +kernel
    have d : (tBatch (tImg 1)).digest = miDigest (tImg 1) := rfl
    rw [tRound_models, h, n]
    simp [tRound_waits, e, d]
  · decide +kernel

/-- A SEARCH of one token whose profile is not that of its binding. -/
def tAskTok : Cmd := { tFind 1 (patch tPb 0x0F [1]) with entry := tEntry 1 [(0x18, [128]), (0x1C, [4]), (0x30, natLe 4 4096)] ++ patch tPb 0x0F [1] ++ natLe 64 0, profile := 1 }

/-- The checks of R544 find the profile that differs (`test_hyps_SearchCommandsComplete`, the clause of EV_PROFILE_DIFF). -/
theorem test_hyps_SearchCommandsComplete_profile :
    admittedAs (tModel (tSearch tAskTok tQuery) (tImg 1)) 0 tAskTok 0x01 ∧
    searchCheck (tModel (tSearch tAskTok tQuery) (tImg 1)) tAskTok false = .error .profileDiffers := by
  have hb : boundImage (tModel (tSearch tAskTok tQuery) (tImg 1)) 0 .query 1 = some (tImg 1) := image_tModel _ _ _ _ (Or.inr rfl)
  have hf : bindingIn (tModel (tSearch tAskTok tQuery) (tImg 1)) 0 .query 1 = some (tForce (tImg 1) 2) := bound_tModel _ _ _ 1 (Or.inr rfl)
  refine ⟨⟨rfl, rfl, by decide +kernel⟩, ?_⟩
  have h1 : tAskTok.part = 0 := rfl
  have h2 : tAskTok.local_ = 1 := rfl
  have hs : shardOf (tModel (tSearch tAskTok tQuery) (tImg 1)) 0 (eIndex tAskTok.entry) = some tServ := by decide +kernel
  have hk : tokensOk (some (tImg 1)) tAskTok.prof (tokensOf (inputData (tModel (tSearch tAskTok tQuery) (tImg 1)) tAskTok.entry)) = true := by decide +kernel
  have hp : paramsOk (paramBlock (tModel (tSearch tAskTok tQuery) (tImg 1)) tAskTok.entry)
      (searchParams tAskTok.pcfg.toNat (paramBlock (tModel (tSearch tAskTok tQuery) (tImg 1)) tAskTok.entry)) false (some tServ) = true := by decide +kernel
  have ht : (searchParams tAskTok.pcfg.toNat (paramBlock (tModel (tSearch tAskTok tQuery) (tImg 1)) tAskTok.entry)).tokens = true := by decide +kernel
  have hr : (searchParams tAskTok.pcfg.toNat (paramBlock (tModel (tSearch tAskTok tQuery) (tImg 1)) tAskTok.entry)).rr = 0 := by decide +kernel
  have hw : (searchParams tAskTok.pcfg.toNat (paramBlock (tModel (tSearch tAskTok tQuery) (tImg 1)) tAskTok.entry)).topk = 10 := by decide +kernel
  have hc : profileClash (tModel (tSearch tAskTok tQuery) (tImg 1)) tAskTok .query = true := by
    simp only [profileClash, h1, h2, hf]
    decide
  simp only [searchCheck, h1, h2, hs, hp, ht, hr, hw, hb, hk, hc]
  rfl

/-! ### Epochs and images -/

def tSlot (ph : SlotPhase) : ImgSlot := { phase := ph, bytes := [], seq := 1, target := 0, cfg := ⟨[]⟩, carried := [], keys := [], req := 1 }

theorem test_hyps_EpochRowsComplete :
    (let s := tUp.mapEpoch fun e => { e with cur := 1 };
      s.epoch.cur ≠ 0 ∧ s.epoch.prepared = false) ∧
    (tUp.mapEpoch fun e => { e with prepared := true }).epoch.prepared = true ∧
    (let s := tUp.mapEpoch fun e => { e with awaiting := true, cur := 257 };
      s.epoch.awaiting = true ∧ s.epoch.missed.contains 235 = false ∧ 2 ≠ s.epoch.cur % 256) ∧
    (let s := tUp.mapEpoch fun e => { e with awaiting := true, acked := handshake tUp };
      s.epoch.awaiting = true ∧ ((handshake s).filter fun d => s.epoch.missed.contains d || !s.epoch.acked.contains d) = []) ∧
    (let s := tUp.mapEpoch fun e => { e with awaiting := true, acked := (handshake tUp).drop 1 };
      ((handshake s).filter fun d => s.epoch.missed.contains d || !s.epoch.acked.contains d) = (handshake tUp).take 1 ∧
        ((handshake tUp).take 1).length = 1 ∧ s.epoch.appliedNow = false) ∧
    (let s := (tUp.mapPower fun p => { p with stage := .rebuild, startSlot := some 0 }).mapImg fun i => { i with slot0 := some (tSlot .pending) };
      s.power.stage = .rebuild ∧ rebuilt s = true ∧ s.power.startSlot.bind (getSlot s) = some (tSlot .pending)) ∧
    (let s (n : Nat) := tUp.mapImg fun i => { i with scrubStep := [(63, n)] };
      (s 2).img.scrubStep.get 63 = some 2 ∧ (s 3).img.scrubStep.get 63 = some 3 ∧ (s 4).img.scrubStep.get 63 = some 4) ∧
    (let s := tUp.mapImg fun i => { i with slot1 := some (tSlot .verifying) };
      getSlot s 1 = some (tSlot .verifying) ∧ s.blockOut 1 = false) := by decide +kernel

/-! ### RAS -/

theorem test_hyps_UnitRowsComplete :
    ((tUp.unit 0x0D 7).st = .inService ∧ (tUp.unit 0x0D 7).tries < 3) ∧
    (1023 < unitCount 0x0B ∧ 17 < unitCount 0x13) ∧
    (let s := tUp.mapRas fun r => { r with units := [(unitKey 0x0E 3, { UnitRec.initial with st := .draining })] };
      (s.unit 0x0E 3).st = .draining ∧ holdsWork s 0x0E 3 = false ∧ (s.unit 0x0E 3).reenable = false ∧ s.power.deep.contains (unitKey 0x0E 3) = false) ∧
    (let s := tUp.mapRas fun r => { r with units := [(unitKey 7 6143, { UnitRec.initial with st := .draining })] };
      (s.unit 7 6143).st = .draining ∧ holdsWork s 7 6143 = false ∧ (s.unit 7 6143).reenable = false ∧
        s.power.deep.contains (unitKey 7 6143) = false ∧ (s.unit 7 6143).tries < 3) ∧
    (let s := tUp.mapRas fun r => { r with units := [(unitKey 0x13 17, { UnitRec.initial with st := .returning, tries := 2 })] };
      (s.unit 0x13 17).st = .returning ∧ (s.unit 0x13 17).tries = 2 ∧ usneaUp s = true) ∧
    (let s := tUp.mapRas fun r => { r with units := [(unitKey 0x0B 1023, { UnitRec.initial with st := .returning })] };
      (s.unit 0x0B 1023).st = .returning) ∧
    (tUp.ras.d2d.getD 1 [] = [] ∧
      (let s := tUp.mapRas fun r => { r with d2d := [(1, [0, 1, 2, 3])] };
        s.ras.d2d.getD 1 [] = [0, 1, 2, 3] ∧ [0, 1, 2, 3].contains 4 = false)) := by decide +kernel

theorem test_hyps_DamageAndLedgerComplete :
    (let s := tSearch (tCmd []) tQuery;
      shardOf s 0 0 = some tServ ∧ s.host.queries.get 0 = some tQuery ∧ tServ.phase = .serving ∧ (s.mapHost fun h => { h with cmds := [] }).host.cmds = []) ∧
    (let r : Resident := { digest := [1], done := true, spans := [], poison := [], lost := false };
      (tUp.mapModel fun m => { m with resident := [r] }).model.resident[0]? = some r ∧ r.lost = false ∧ r.done = true) ∧
    (let c := tCmd (tEntry 0xA3 []);
      let s := (tPut State.reset c).mapUsnea fun u => { u with waitCmds := [0] };
      s.host.cmds.get 0 = some c ∧ usneaUp s = false ∧ c.phase ≠ .done ∧ s.usnea.waitCmds.contains 0 = true) ∧
    (let c := tCmd (tEntry 0xB0 [(0x30, natLe 4 192), (0x38, natLe 8 1023)]);
      admittedAs (tWith c) 0 c 0xB0 ∧ usneaUp (tWith c) = true ∧ 64 ≤ eResultLen c.entry ∧ 1 = min ((eResultLen c.entry - 64) / 128) (1024 - eArg1 c.entry)) ∧
    (let r : LRec := { lseq := 4, typ := 1, cause := 0, fn := 0, qp := 0, entry := 0, rtc := 0, ref := 0, body := [], read := false, index := none };
      let s := tUp.mapRas fun x => { x with ledgers := [(63, { Ledger.empty with recs := [r] })] };
      ((s.ledger 63).recs.any fun r => r.lseq == 4) = true) ∧
    (let c := tCmd (tEntry 0xB1 []);
      admittedAs (tWith c) 0 c 0xB1 ∧ c.byPf = true) := by
  simp only [admittedAs]
  decide +kernel

/-! ### Ports -/

def tPort (i : Nat) (p : Port) : State := tUp.mapTwill fun t => { t with ports := [(i, p)] }

/-- A training frame of lane 3 (R408). -/
def tFrame : List Byte :=
  let h := natLe 4 0x54575446 ++ [3, 0, 0, 0] ++ natLe 20 0
  h ++ natLe 4 (crc32c h)

/-- A flit of control kind `kind` and sequence `q`. -/
def tFlit (kind q : Nat) : List Byte :=
  let b := natLe 9 (kind + 4 * q) ++ natLe 243 0
  b ++ natLe 4 (crc32c b)

theorem test_hyps_PortTrainingCompletes :
    (((tPort 11 Port.reset).port 11).st = .detect ∧ 4 ≤ ((List.range 5).filter [0, 1, 3, 4].contains).length) ∧
    ((tPort 11 { Port.reset with st := .cal }).port 11).st = .cal ∧
    (Port.reset.failed.contains 4 = false ∧ frameOk tFrame = true ∧ ((tPort 0 { Port.reset with st := .txeq }).port 0).st = .txeq ∧
      ((tPort 0 { Port.reset with st := .align }).port 0).st = .align ∧ ((tPort 0 { Port.reset with st := .param }).port 0).st = .param) ∧
    (boundedState { Port.reset with st := .param } = true ∧ Port.reset.fails < 2 ∧ boundedState { Port.reset with st := .cal, fails := 2 } = true) ∧
    ((tPort 11 { Port.reset with st := .down }).port 11).st = .down := by decide +kernel

set_option maxRecDepth 100000 in
theorem test_hyps_PortRowsComplete :
    (let s := tPort 11 { Port.reset with st := .active };
      (s.port 11).st = .active ∧ (tFlit 0 1).length = 256 ∧ field (tFlit 0 1) 252 4 = crc32c ((tFlit 0 1).take 252) ∧
        (let h := field (tFlit 0 1) 0 9;
          bits h 0 2 ≠ 1 ∧ bits h 0 2 < 3 ∧ bits h 2 12 = (((takeAck s 11 h).port 11).ackSeq + 1) % 4096) ∧
        (let h := field (tFlit 1 0) 0 9;
          bits h 0 2 = 1) ∧
        (let h := field (tFlit 0 2) 0 9;
          bits h 0 2 ≠ 1 ∧ bits h 2 12 ≠ (((takeAck s 11 h).port 11).ackSeq + 1) % 4096 ∧ ((takeAck s 11 h).port 11).nakHold = false)) ∧
    (let s := tPort 11 { Port.reset with st := .active };
      (s.port 11).failed.contains 3 = false ∧ indexOf? (· == 3) (s.port 11).rx = some 3 ∧ (s.port 11).swapRx = none ∧
        freeLane { s.port 11 with failed := addSet (s.port 11).failed 3 } (s.port 11).rx ≠ none ∧ 3 < (s.port 11).tx.length ∧
        freeLane (s.port 11) (s.port 11).tx ≠ none) ∧
    (let s := tPort 11 { Port.reset with st := .active, swapRx := some 3 };
      (s.port 11).swapRx = some 3 ∧ freeLane (s.port 11) (s.port 11).rx = some 4) ∧
    (let s := tPort 11 { Port.reset with st := .active, mirror := some 3 };
      ((takeLctrl s 11 2).port 11).mirror = some 3 ∧ freeLane ((takeLctrl s 11 2).port 11) ((takeLctrl s 11 2).port 11).tx = some 4) ∧
    ((tPort 11 { Port.reset with st := .draining }).port 11).st = .draining ∧
    (let k (hops : Nat) : Packet := { tPk 0xD 5 (natLe 32 0) with dst := 7, hops := hops };
      let s (hops : Nat) := (tNode tUp).mapTwill fun t => { t with transit := [(0, k hops)] };
      (s 1).twill.transit = [(0, k 1)] ∧ badPacket (k 1) false = false ∧ (k 1).dst ≠ nodeId (s 1) ∧ 0 < (k 1).hops ∧
        badPacket (k 0) false = false ∧ (k 0).hops = 0 ∧ (k 0).typ = 0xD) ∧
    (let k : Packet := { tPk 1 5 [] with dst := 7 };
      ((tNode tUp).mapTwill fun t => { t with transit := [(0, k)] }).twill.transit = [(0, k)] ∧ badPacket k false = true) := by decide +kernel

/-! ### Packets -/

/-- Partition 0 is ACTIVE and has 1 GiB of DDR5; the current epoch is 1; the rates are granted. -/
def tPart : State :=
  let s := tCfg (tWith (tCmd [])) [(2, 0, 1), (5, 0, 2 ^ 32)]
  let s := (tNode s).mapImg fun i => { i with parts := [(0, .active)] }
  (s.mapMem fun m => { m with ddrGib := 1 }).mapEpoch fun e => { e with cur := 1, first := 1 }

def tRead (e : Nat) : Packet := { tPk 1 5 (natLe 16 4096) with epoch := e }

def tWrite : Packet := { tPk 3 5 (natLe 32 7) with epoch := 1 }

/-- A live composition of index 0 of partition 0, generation 3, with slot segment 0 at node 5 and the anchor at node 5. -/
def tGen : MapGen := { words := [3 + 2 ^ 28, 5, 0, 0, 1, 0], entries := [5] }

def tComp : Comp := { now := tGen, prev := none, draining := false, bound := 1, binding := [] }

def tOwn (s : State) : State := s.mapOwn fun o => { o with comps := [(0, tComp)] }

def tAsked (gen : Nat) : Packet := { tPk 7 5 (natLe 4 9 ++ List.replicate 12 0xFF) with mapgen := gen }

theorem test_hyps_ServedPacketsComplete :
    (let s := tIn tPart (tRead 1);
      let u := takePkt s (tRead 1);
      packetFor s 0x1 (tRead 1) ∧ (partServes u 0 && spanOwned u 0 0 4096) = true ∧ retained u 0 1 = true ∧ zeroRate u 0 (localPlace u 0).tier = false ∧
        packetFor s 0x1 (tRead 0) ∧ retained (takePkt s (tRead 0)) 0 0 = false ∧
        (partServes (takePkt (tIn (tNode tUp) (tRead 1)) (tRead 1)) 0 && spanOwned (takePkt (tIn (tNode tUp) (tRead 1)) (tRead 1)) 0 0 4096) = false) ∧
    (let s := tIn tPart tWrite;
      let u := takePkt s tWrite;
      packetFor s 0x3 tWrite ∧ u.twill.writes.contains (reqKey 5 0) = false ∧ partServes u 0 = true ∧ spanOwned u 0 0 tWrite.payload.length = true ∧
        retained u 0 1 = true ∧ zeroRate u 0 (localPlace u 0).tier = false ∧
        (u.mapTwill fun t => { t with writes := [reqKey 5 0] }).twill.writes.contains (reqKey 5 0) = true) ∧
    (let s := tOwn (tIn tPart (tAsked 3));
      let u := takePkt s (tAsked 3);
      packetFor s 0x7 (tAsked 3) ∧ partServes u 0 = true ∧ compOf u 0 0 = some (0, tComp) ∧ askedSlots (tAsked 3) = [9] ∧
        newerGen 4 (genMapgen tGen) = true ∧ newerGen 3 (genMapgen tGen) = false ∧ 3 = genMapgen tGen ∧
        ((u.setToken (ledgerKey 0 0 5) { LedgerEnt.initial with st := .held }).token (ledgerKey 0 (9 / 2 ^ 24) 5)).st = .held ∧
        ((u.setToken (ledgerKey 0 0 5) { LedgerEnt.initial with st := .held }).token (ledgerKey 0 (9 / 2 ^ 24) 5)).ceasing = none ∧
        newerGen 2 (genMapgen tGen) = false ∧ tComp.draining = false) ∧
    (let p := tPk 9 5 (natLe 64 0);
      packetFor (tIn tPart p) 0x9 p ∧ p.seq = 0 ∧ (takePkt (tIn tPart p) p).twill.asm.getD (reqKey 5 0) [] = [] ∧ p.last = true ∧
        packetFor (tIn tPart p) 0x9 { p with last := false }) ∧
    (let p := tPk 1 5 [];
      p.typ = 0x1 ∧ p.dst = nodeId tPart ∧ tPart.img.applied = true ∧ badPacket p false = true ∧
        clearOk { tPk 5 5 (natLe 160 0 ++ [1] ++ natLe 63 0) with addr := 0 } = false) := by
  simp only [packetFor]
  decide +kernel

def tOut (k : ReqKind) : OutReq :=
  { kind := k, pkts := [{ tRead 1 with dst := 5 }], resent := false, forwards := 0, staleOnce := false, query := 0, got := [], slots := [] }

/-- Request 0 of a kind is out, and its answer `p` has arrived. -/
def tAwait (k : ReqKind) (p : Packet) : State := (tIn (tNode tUp) p).mapTwill fun t => { t with out := [(0, tOut k)] }

theorem test_hyps_AnswersAndTimersComplete :
    (let p := tPk 2 5 (natLe 32 1);
      packetFor (tAwait .read p) 0x2 p ∧ outOf (takePkt (tAwait .read p) p) p .read = some (tOut .read) ∧ (tOut .read).got = [] ∧ p.seq = 0 ∧ p.last = true ∧ p.status = stOk ∧
        packetFor (tAwait .read { p with status := stUnreachable }) 0x2 { p with status := stUnreachable } ∧ stUnreachable ≠ stOk) ∧
    (let p := tPk 2 5 (natLe 32 1);
      let v : Serve := { pkt := tAsked 3, wait := [(0, 0), (1, 64)], lines := [] };
      let s := (tAwait .read p).mapTwill fun t => { t with serves := [v] };
      packetFor s 0x2 p ∧ outOf (takePkt s p) p .read = some (tOut .read) ∧ (takePkt s p).twill.serves = [v] ∧ v.wait.length = 2 ∧
        (v.wait.find? fun w => w.1 == p.reqId) = some (p.reqId, 0) ∧ (v.wait.filter fun w => w.1 != p.reqId).length = 1 ∧ s.own.ledger = []) ∧
    (let p := tPk 4 5 [];
      packetFor (tAwait .write p) 0x4 p ∧ outOf (takePkt (tAwait .write p) p) p .write = some (tOut .write)) ∧
    (let p (st a : Nat) (b : List Byte) : Packet := { tPk 6 5 b with status := st, addr := a };
      (packetFor (tAwait .score (p 0 1 [])) 0x6 (p 0 1 []) ∧ outOf (takePkt (tAwait .score (p 0 1 [])) (p 0 1 [])) (p 0 1 []) .score = some (tOut .score)) ∧
        packetFor (tAwait .score (p stNotOwner 0 [])) 0x6 (p stNotOwner 0 []) ∧ packetFor (tAwait .score (p stStaleMap 0 [])) 0x6 (p stStaleMap 0 []) ∧
        packetFor (tAwait .score (p 0 0 [1])) 0x6 (p 0 0 [1]) ∧ bit (p 0 1 []).addr 0 = true) ∧
    (let p := tPk 8 5 [1];
      packetFor (tAwait .expand p) 0x8 p ∧ outOf (takePkt (tAwait .expand p) p) p .expand = some (tOut .expand)) ∧
    (let p (a : Nat) : Packet := { tPk 0xA 5 [] with addr := a };
      packetFor (tAwait .query (p 0)) 0xA (p 0) ∧ outOf (takePkt (tAwait .query (p 0)) (p 0)) (p 0) .query = some (tOut .query) ∧
        bit (p (2 ^ 18)).addr 18 = true ∧ packetFor (tAwait .query (p (2 ^ 18))) 0xA (p (2 ^ 18)) ∧ bit (p 0).addr 18 = false) ∧
    (let p := tPk 0xD 7 (natLe 32 1);
      let u := takePkt (tAwait .read p) p;
      packetFor (tAwait .read p) 0xD p ∧ u.twill.out.get p.reqId = some (tOut .read) ∧ isResponse (bits (field p.payload 0 8) 0 4) = false ∧
        bits (field p.payload 0 8) 25 17 = nodeId u) ∧
    (let s := (tAwait .read (tRead 1)).mapOwn fun o => { o with unreachable := [5] };
      s.twill.out.get 0 = some (tOut .read) ∧ s.own.unreachable.contains (tOut .read).dst = true) ∧
    (let s := (tSearch (tCmd []) tQuery).mapTwill fun t => { t with serving := [(reqKey 5 9, 0)] };
      s.twill.serving.get (reqKey 5 9) = some 0 ∧ s.host.queries.get 0 = some tQuery) ∧
    (let h : Held := { pkt := tRead 1, forGen := true };
      heldOf (tUp.mapOwn fun o => { o with held := [h] }) 5 0 = some h) := by
  simp only [packetFor]
  exact ⟨by decide +kernel, by decide +kernel, by decide +kernel, by decide +kernel, by decide +kernel, by decide +kernel, by decide +kernel, by decide +kernel, by decide +kernel, by decide +kernel⟩

/-! ### Tokens -/

/-- A token message about segment 0 of composition 0 held by node 5: message, generation, argument. -/
def tTok (msg g arg : Nat) : Packet := tPk 0xC 5 (natLe 1 msg ++ natLe 1 0 ++ natLe 2 0 ++ natLe 4 5 ++ natLe 4 g ++ natLe 4 0 ++ natLe 8 arg ++ natLe 8 0)

def tTokens (msg g arg : Nat) (e : LedgerEnt) : State := (tOwn (tIn tPart (tTok msg g arg))).setToken 5 e

/-- A ledger entry whose peer is node 5. -/
def tLedger (st : Token) (g : Nat) : LedgerEnt := { LedgerEnt.initial with st := st, tgen := g, peer := some 5 }

def tClaim : LedgerEnt := { LedgerEnt.initial with st := .claiming, tgen := 4, waitAck := [5, 6] }

theorem test_hyps_offer : tokenFor (tTokens 1 4 0 LedgerEnt.initial) 1 (tTok 1 4 0) 5 4 0 ∧ LedgerEnt.initial.tgen < 4 ∧ 4 ≤ maxTgen ∧
    (takePkt (tTokens 1 4 0 LedgerEnt.initial) (tTok 1 4 0)).token 5 = LedgerEnt.initial := by unfold tokenFor packetFor; decide +kernel

theorem test_hyps_accept : tokenFor (tTokens 2 4 0 (tLedger .offered 3)) 2 (tTok 2 4 0) 5 4 0 ∧
    (takePkt (tTokens 2 4 0 (tLedger .offered 3)) (tTok 2 4 0)).token 5 = tLedger .offered 3 := by unfold tokenFor packetFor; decide +kernel

theorem test_hyps_confirm : tokenFor (tTokens 3 4 0 (tLedger .accepted 4)) 3 (tTok 3 4 0) 5 4 0 := by unfold tokenFor packetFor; decide +kernel

theorem test_hyps_taken : tokenFor (tTokens 4 4 0 (tLedger .confirmed 4)) 4 (tTok 4 4 0) 5 4 0 := by unfold tokenFor packetFor; decide +kernel

theorem test_hyps_withdraw : tokenFor (tTokens 5 4 0 (tLedger .accepted 4)) 5 (tTok 5 4 0) 5 4 0 := by unfold tokenFor packetFor; decide +kernel

theorem test_hyps_revoke : tokenFor (tTokens 6 4 0 (tLedger .held 3)) 6 (tTok 6 4 0) 5 4 0 ∧
    tokenFor (tTokens 6 4 0 (tLedger .held 4)) 6 (tTok 6 4 0) 5 4 0 := by unfold tokenFor packetFor; decide +kernel

theorem test_hyps_revokeAck : tokenFor (tTokens 7 4 0 tClaim) 7 (tTok 7 4 0) 5 4 0 ∧
    (takePkt (tTokens 7 4 0 tClaim) (tTok 7 4 0)).token 5 = tClaim ∧ tClaim.waitAck.contains 5 = true ∧ bit 0 0 = false := by
  unfold tokenFor packetFor; decide +kernel

theorem test_hyps_announce : tokenFor (tTokens 8 0 77 LedgerEnt.initial) 8 (tTok 8 0 77) 5 0 77 ∧
    liveComp (takePkt (tTokens 8 0 77 LedgerEnt.initial) (tTok 8 0 77)) (5 / 2 ^ 25) = some tComp ∧ genAnchor tComp.now = 5 := by
  unfold tokenFor packetFor; decide +kernel

theorem test_hyps_drainTimer :
    (tUp.mapOwn fun o => { o with comps := [(0, { tComp with draining := true })] }).own.comps.get 0 = some { tComp with draining := true } := by
  decide +kernel

/-- Node 0 with segment 0's token in a state. -/
def tHeld (st : Token) : State := (tOwn tPart).setToken 5 (tLedger st 4)

theorem test_hyps_TokenTimersComplete :
    (segKey (tHeld .offered) 0 = some 5 ∧ (tHeld .offered).token 5 = tLedger .offered 4 ∧ hwAgent (tHeld .offered) = true ∧
      (tHeld .accepted).token 5 = tLedger .accepted 4 ∧ (tHeld .confirmed).token 5 = tLedger .confirmed 4) ∧
    (liveComp (tOwn tPart) 0 = some tComp ∧ genAnchor tComp.now ≠ nodeId (tOwn tPart)) ∧
    (((tOwn tPart).mapOwn fun o => { o with unresolved := [(5, 1)] }).own.unresolved.has 5 = true) := by decide +kernel

/-- Node 0, its token of segment 0 in a state at generation 4, with OWN_ARG0 to OWN_ARG2; the host runs ownership if `dev`. -/
def tArgs (dev : Bool) (e : LedgerEnt) (g a b : Nat) : State :=
  let s := ((tHeld .held).setToken 5 e)
  let s := if dev then tCfg s [(9, 64, 1)] else s
  ((s.setReg .ownArg0 0 (BitVec.ofNat 32 g)).setReg .ownArg1 0 (BitVec.ofNat 32 a)).setReg .ownArg2 0 (BitVec.ofNat 32 b)

theorem test_hyps_RegisterCommandsComplete_tokens :
    (let s := tArgs true (tLedger .held 4) 5 0 0;
      bits (0x02 : W32).toNat 0 4 = 2 ∧ segKey s (bits (0x02 : W32).toNat 4 16) = some 5 ∧ 5 = (s.reg .ownArg0 0).toNat ∧ 5 ≤ maxTgen ∧
        (s.token 5).tgen < 5 ∧ (s.token 5).st ≠ .claiming ∧ (s.reg .ownArg1 0).toNat = 0 ∧ (s.reg .ownArg2 0).toNat = 0 ∧ s.own.held = [] ∧
        devMode s 0 = true) ∧
    (let s := tArgs false (tLedger .held 4) 5 (2 ^ 17 + 6) 0;
      segKey s 0 = some 5 ∧ 5 = (s.reg .ownArg0 0).toNat ∧ (s.token 5).tgen < 5 ∧ (s.token 5).st ≠ .claiming ∧ 6 < noNode ∧ 6 ≠ nodeId s ∧
        (s.reg .ownArg1 0).toNat = 2 ^ 17 + 6 ∧ (s.reg .ownArg2 0).toNat = 0 ∧ devMode s 0 = false) ∧
    (let s := tArgs true (tLedger .held 4) 4 (2 ^ 18 + 5) 0;
      bits (0x03 : W32).toNat 0 4 = 3 ∧ segKey s 0 = some 5 ∧ (s.reg .ownArg1 0).toNat < 2 ^ 20 ∧ (s.reg .ownArg0 0).toNat ≤ maxTgen ∧
        tokenOf (bits (s.reg .ownArg1 0).toNat 17 3) = some .offered ∧ tsetOk (s.token 5) .offered (s.reg .ownArg0 0).toNat = true ∧ s.own.held = [] ∧
        devMode s 0 = true) ∧
    (let s := tArgs true (tLedger .offered 4) 5 (2 ^ 19 + 5) 0;
      tokenOf (bits (s.reg .ownArg1 0).toNat 17 3) = some .confirmed ∧ tsetOk (s.token 5) .confirmed (s.reg .ownArg0 0).toNat = true ∧
        inService s 5 = false) ∧
    (let s := tArgs true { tClaim with before := some (.held, 3, some 5) } 0 0 0;
      segKey s 0 = some 5 ∧ (s.token 5).st = .claiming ∧ (s.token 5).before = some (.held, 3, some 5) ∧ s.own.held = []) :=
  ⟨by decide +kernel, by decide +kernel, by decide +kernel, by decide +kernel, by decide +kernel⟩

theorem test_hyps_RegisterCommandsComplete_ports :
    ((tPort 11 { Port.reset with st := .active }).port 11).st = .active ∧
    (((tPort 11 { Port.reset with st := .param, mismatch := true }).port 11).st = .param ∧
      ((tPort 11 { Port.reset with st := .param, mismatch := true }).port 11).mismatch = true) ∧
    (tUp.port 11).outq = [] ∧
    (let p : Port := { Port.reset with st := .active };
      p.failed.contains 4 = false ∧ indexOf? (· == 4) p.rx = none ∧ p.failed.contains 3 = false ∧ indexOf? (· == 3) p.rx = some 3 ∧ p.swapRx = none ∧
        (List.range 5).find? (fun m => !p.rx.contains m && !(addSet p.failed 3).contains m) = some 4) := by decide +kernel

/-! ### Stated rules and the whole machine -/

/-- EV_OVERVOLT set with stamp 5 at SEQ 7 while a rail is over. -/
def tOver : State :=
  (State.reset.mapRegs fun g => { g with sqc := [(regKey .pwrEvent 0, { ev := 4, seq := 7, stamps := [(2, 5)] })] }).mapPower fun p => { p with overvolt := [3] }

theorem test_hyps_WriteClearsEventsUpToItsSeq :
    (staleSeq (tOver.sqc .pwrEvent 0) 0x07000004 = false ∧ tOver.power.overvolt ≠ [] ∧ (tOver.sqc .pwrEvent 0).ev.getLsbD 2 = true ∧
      (sqcAfter (tOver.sqc .pwrEvent 0) 0x07000004).ev.getLsbD 2 = false) ∧
    staleSeq (State.reset.sqc .mgtEvent 0) 0x00000001 = false ∧
    (resolve 0 16 0x004 = .reg .pwrEvent 0 ∧ Reg.pwrEvent.row.acc = .sqc ∧ State.reset.regs.fencedBlocks.contains 16 = false) := by decide +kernel

theorem test_hyps_StaleWriteClearsNothing :
    (128 ≤ ((tOver.sqc .pwrEvent 0).seq - BitVec.ofNat 8 ((0x87000004 : W32).toNat / 2 ^ 24)).toNat ∧
      (tOver.regs.werr.getD (werrKey 0 16) SqcCell.clear).ev.getLsbD 0 = false) ∧
    (resolve 0 16 0x004 = .reg .pwrEvent 0 ∧ Reg.pwrEvent.row.acc = .sqc) := by decide +kernel

theorem test_hyps_UnmappedAddressesReadZero :
    (reaches State.reset 0 = true ∧ blockSeen 0 0 = true ∧ resolve 0 17 0x3FEFC = .unmapped ∧ resolve 0 0 0x3FF14 = .unmapped ∧
      (0x0F : BitVec 8).toNat % 16 ≠ 0) ∧
    (reaches State.reset 63 = false ∧ reaches (State.reset.mapImg fun i => { i with vfOff := [] }) 63 = true ∧ blockSeen 63 2 = true ∧
      resolve 63 2 0x3FF14 = .unmapped) ∧
    (State.reset.regs.werr.getD (werrKey 0 17) SqcCell.clear).ev.getLsbD 0 = false := by decide +kernel

theorem test_hyps_LowReadLatchesHigh :
    (Reg.glbUidLo, Reg.glbUidHi) ∈ hiPairs ∧ (Reg.mgtLogNextLo, Reg.mgtLogNextHi) ∈ hiPairs ∧
    (State.reset.mapRegs fun g => { g with hiLatch := [(latchKey 126 .pwrRtcHi 0, 7)] }).regs.hiLatch.get (latchKey 126 .pwrRtcHi 0) = some 7 ∧
    State.reset.regs.hiLatch.get (latchKey 126 .pwrRtcHi 0) = none := by decide +kernel

def tOutcome (st : Nat) : EntryOut := { slot := 0, status := st, state := 0, flags := 0, gid := 0, old := 0, epoch := 1 }

theorem test_hyps_BatchStatusIsTheFirstFailure :
    (let c : Cmd := { tUpd 0x10 with phase := .running, total := 1, next := 1, outs := [tOutcome 0] };
      (tWith c).host.cmds.get 0 = some c ∧ c.phase = .running ∧ c.total ≤ c.next ∧ c.total ≤ c.outs.length ∧ c.outs.any EntryOut.open_ = false) ∧
    ((∀ o ∈ [tOutcome 0], o.status = 0) ∧ (tOutcome stFaultedNone).status ≠ 0 ∧ (tOutcome stInvalid).status ≠ stFaultedNone ∧ stInvalid ≠ 0) := by
  decide +kernel

theorem test_hyps_StepRunsFrontCommand :
    ({ State.reset with pending := [.rtcEdge, .prepare] } : State).pending = .rtcEdge :: [.prepare] ∧ State.reset.pending = [] := by decide

theorem test_hyps_StepKeepsMemoriesCanonical :
    memoryOk State.reset = true ∧ ∃ t, step State.reset = .next t := ⟨by decide, _, rfl⟩

theorem test_hyps_StoresChangeTheirBytesOnly :
    memWf 0 ([(0, 7), (3, 9)] : Smap Nat) = true ∧ memWf 0 ([(0, 7), (3, 9)] : Smap Byte) = true := by decide

theorem test_hyps_ConfigChangesOnlyAtBoundaryOrReset : ∃ t, exec .rtcEdge State.reset = .next t := ⟨_, rfl⟩

/-! ### Values worked in the spec -/

/-- First values, and a default for the rest of 128. -/
def tRec4 (a : List W32) (d : W32) : List W32 := a ++ List.replicate (128 - a.length) d

/-- The numeric record of the example of 04_vector_formats: s and z of 128 dimensions. -/
def vNum : List Byte := natLe 4 1 ++ natLe 4 0x3E000000 ++ natLe 56 0 ++
  ((tRec4 [0x3F000000, 0x3E800000, 0x3F000000, 0x3F800000] 0x3F800000).flatMap fun x => natLe 4 x.toNat) ++
  ([8, 8, 7, 8] ++ List.replicate 124 8).map (BitVec.ofNat 8)

/-- The item projects to (1.2, -0.625, 2.1, -9) there, and 0 elsewhere. -/
def tItemY : List W32 := tRec4 [0x3F99999A, 0xBF200000, 0x40066666, 0xC1100000] 0

/-- 04_vector_formats, example: code bytes 0x5A, 0x0B, 0x88. -/
theorem test_code_example : (packNibbles (codeValues vNum tItemY)).take 4 = [0x5A, 0x0B, 0x88, 0x88] := by decide +kernel

/-- The query's folded values there. -/
def tFolded : List W32 := List.zipWith fMul (tRec4 [0x40000000, 0x3F800000, 0xBF800000, 0x3F000000] 0) (nrScale vNum)

/-- The same example: t = 2^-7, K = 10.5. -/
theorem test_scale_example : sketchScale tFolded = 0x3C000000 ∧
    treeSum (List.zipWith (fun e z => fMul e (fInt (z : Nat))) tFolded (nrZero vNum)) = 0x41280000 := by decide +kernel

/-- The sketch record of that query: a = (64, -32, -128, 0), then -64; b = -64. -/
def tSketch : List Byte := ([64, -32, -128, 0] ++ List.replicate 124 (-64)).map (fun i => BitVec.ofNat 8 (ofSigned 8 i)) ++ natLe 1 (ofSigned 8 (-64)) ++
  natLe 31 0

/-- The same example: A = 736. -/
theorem test_lichen_example : lichenA (packNibbles (codeValues vNum tItemY)) tSketch = 736 := by decide +kernel

/-- 06_search_walk, example: keys of distances 3.5, 3.9 and 3.6. -/
theorem test_exact_key_example : [0x40600000, 0x4079999A, 0x40666666].map (fun d => orderKey (fNeg d)) = [0x3F9FFFFF, 0x3F866665, 0x3F999999] := by decide

/-- 05_index_layout, example: code and tag of slot 19,088,743, whose second code window is 170. -/
theorem test_slot_address_example : codeAddr [9, 170] 19088743 = some (2 ^ 30 * 170 + 0x0B1969C0) ∧
    tagAddr [9, 170] 19088743 = some (2 ^ 30 * 170 + 0x0B1A1ACE) := by decide

/-- 07_lichen_units, example: bank 935's stripe 1 of window 10 is stripe 1,377; bank row 20,916 there holds that code at byte 448. -/
theorem test_bank_example : stripeK 10 935 1 = 1377 ∧ rowAddr (tCfg State.reset [(4, 170, 0x180)]) 2 935 20916 = some (2 ^ 30 * 170 + 0x0B1969C0 - 448) := by
  decide +kernel

/-- 10_bracken_engine, example: requantized by the layer's and by a privileged rescale. -/
theorem test_requant_example : [1280, 128, -128, 20000].map (requant (0xC00000, 30, -5)) = [10, -3, -7, 127] ∧
    [20000, -640].map (requant (0x800000, 31, 0)) = [78, -3] := by decide

def vEnt (k g : Nat) : LEnt := { key := k, slot := 0, gid := g, fresh := false, suspect := false, a := 0 }

/-- 08_muslin_selection, examples: a compaction keeps E, C and A; a merge drops the second 700 and takes 17 on the tie. -/
theorem test_list_examples :
    ((select [vEnt 0x80001234 9, vEnt 0x800012F0 4, vEnt 0x80001234 2, vEnt 0x80005600 7, vEnt 0x80001200 5, vEnt 0x80009A00 1] 3).1.map (·.gid)) = [5, 2, 9] ∧
    (mergeLists 4 [vEnt 0x3F900010 700, vEnt 0x3F900200 512, vEnt 0x3FA00000 90, vEnt 0x3F900200 311, vEnt 0x3F950000 700, vEnt 0x3FA00000 42,
      vEnt 0x3FA00000 17]).1.map (·.gid) = [700, 311, 512, 17] := by decide +kernel

/-- Histogram of the plan example: 4,000,000,000 live items. -/
def vHist : Hist := { host := false, reused := false, nLive := 4000000000, words := [(4 + 288 * 2 + 17, 2000000), (4 + 288 * 3, 600000000), (4 + 288 * 3 + 1, 400000000), (4 + 288 * 3 + 2, 400000000)] }

/-- 06_search_walk, example: column 2 EQ 17 and column 3 LT 0x0280 are estimated at 600,000 items; with SEL_SHIFT 8 the plan is a sweep. -/
theorem test_plan_example : estimate [0, 0, 0, 0x40] vHist [2 + 17 * 2 ^ 32] = 2000000 ∧
    estimate [0, 0, 0, 0x40] vHist [2 + 17 * 2 ^ 32, 3 + 8 + 0x280 * 2 ^ 32] = 600000 ∧
    planSweep [0, 0, 0, 0x40] vHist { searchParams 0 tPb with filter := [2 + 17 * 2 ^ 32, 3 + 8 + 0x280 * 2 ^ 32] } 8 = true := by decide +kernel

/-- 09_epochs_updates, example: Y and X (RSEQ 500 and 501), Y deleted in 2,003, under the heads and tails of 2,001 to 2,003. -/
def tRing (del : Bool) : Shard := { tShard with
  slots := [(77, 1 + 500 * 2 ^ 64 + 2 ^ 108 + b2n del * (2003 * 2 ^ 88 + 2 ^ 109)), (78, 2 + 501 * 2 ^ 64 + 2 ^ 108)], tomb := if del then [77] else [] }

theorem test_epoch_states_example :
    slotState (tRing false) 77 2001 501 500 = .fresh ∧ slotState (tRing false) 78 2001 501 500 = .absent ∧
    slotState (tRing false) 77 2002 502 501 = .graph ∧ slotState (tRing false) 78 2002 502 501 = .fresh ∧
    slotState (tRing true) 77 2003 502 501 = .ghost ∧ slotState (tRing true) 77 2002 502 501 = .graph := by decide +kernel

/-- 18_command_set, example: eight entries, entry 3 refused, entries 5 to 7 out of quota. -/
theorem test_batch_status_example :
    batchStatus ([0, 0, 0, 0x50, 0].map tOutcome ++ List.replicate 3 (tOutcome stQuota)) = 0x50 := by decide

/-- SQC register with EV_PENDING set twice, at SEQ 0x07 and 0x08 (03_register_conventions, example). -/
def tTwice : SqcCell := sqcSet (sqcSet { SqcCell.clear with seq := 6 } 0) 0

/-- That example: the write at S = 0x07 leaves the event, the one at 0x08 clears it. -/
theorem test_sqc_example : sqcWord { SqcCell.clear with seq := 6 } = 0x06000000 ∧ sqcWord (sqcSet { SqcCell.clear with seq := 6 } 0) = 0x07000001 ∧
    sqcWord (sqcAfter tTwice 0x07000201) = 0x08000001 ∧ sqcWord (sqcAfter tTwice 0x08000201) = 0x08000000 := by decide

/-- 12_memory_tiers, example: four partitions on T3 (R363). -/
def tFour : State := (tCfg State.reset [(7, 2, 4000 + 6000 * 2 ^ 24), (7, 8, 2500 + 2500 * 2 ^ 24), (7, 14, 1000 + 8000 * 2 ^ 24), (7, 20, 200 + 1000 * 2 ^ 24)]).mapImg
  fun i => { i with parts := [(0, .active), (1, .active), (2, .active), (3, .draining)] }

theorem test_rates_example : [2, 8, 14, 20].map (fun i => (applyRates tFour).mem.rate.getD i 0) = [4420, 2500, 1420, 620] := by decide +kernel

/-! ### Ill-formed commands are refused (WellFormed) -/

/-- Function, queue pair, requester and address out of range. -/
theorem test_wf_host : (Instr.sqDoorbell 64 0 0 []).wf = false ∧ (Instr.cqDoorbell 0 16384 0).wf = false ∧ (Instr.entryFetch 16384).wf = false ∧
    (Instr.vfDisable 0).wf = false ∧ (Instr.registerWrite 64 0 false 0 0).wf = false ∧ (Instr.loRegisterRead 0 ⟨0x4000000, false⟩).wf = false ∧
    (Instr.sqcWrite 0 2 0).wf = false ∧ (Instr.registerWrite 127 4 false 0xF 0).wf = true ∧ reqOk 126 = false := by decide

/-- Tile, zone, bank, stack, window and domain out of range. -/
theorem test_wf_units : (Instr.walkStart 0 64).wf = false ∧ (Instr.zoneResetErase 0 16777216).wf = false ∧ (Instr.sweepResultRecord 6144).wf = false ∧
    (Instr.gather 6 0 [] 0).wf = false ∧ (Instr.gapMaxExpiry 0 1024).wf = false ∧ (Instr.disagreeCrcCheck 480 0).wf = false ∧
    (Instr.strobeAck 236 0).wf = false ∧ (Instr.pinExpiry 64 0).wf = false ∧ (Instr.journalProgramDone 0 0 2).wf = false ∧
    (Instr.imageVerifyDone 2).wf = false ∧ (Instr.parityScan 18 []).wf = false ∧ (Instr.unitFault 0 0 0 0).wf = false ∧
    (Instr.unitFault 0x14 0 0 0).wf = false ∧ (Instr.componentFault 9).wf = false ∧ (Instr.dieFence 1024).wf = false ∧
    (Instr.laneHalfRefill 0 2).wf = false ∧ (Instr.overvoltage 24 true).wf = false := by decide

/-- Port, lane, flit length, node and identity out of range. -/
theorem test_wf_fabric : (Instr.downRetry 12).wf = false ∧ (Instr.swapReq 0 5).wf = false ∧ (Instr.flitReceive 0 []).wf = false ∧
    (Instr.readRequest { tPkt 1 0 [] with dst := 131071 }).wf = false ∧ (Instr.requestTimeout (2 ^ 48)).wf = false ∧
    (Instr.drainTimerExpiry 256).wf = false ∧ (Instr.tokenResend 65536).wf = false ∧ (Instr.i3cDynamicAddress 128).wf = false ∧
    (Instr.d2dLaneSwap 2 0).wf = false ∧ (Instr.eventResend 8 0).wf = false ∧ (Instr.readRequest (tPkt 1 0 [])).wf = true := by decide

/-- A management message longer than a transport delivers. -/
theorem test_wf_message : msgOk { tBox with bytes := List.replicate 4121 0 } = false ∧ msgOk tBox = true := by
  refine ⟨?_, by decide⟩
  unfold msgOk
  rw [List.length_replicate]
  rfl

/-- The table gives no row bits: no word spells a command. -/
theorem test_decode_none : decodeTableWord 32 0x12345678 = none ∧ State.reset.withFetchWord 32 0x12345678 = State.reset := ⟨rfl, rfl⟩

end Sys2Proof.Tests
end

section
/-! PROOF. O18, the commands given by register writes. As stated it fails: it quantifies over every value of `State`, and a
table of a `State` need not have rising keys. TSET and ABORT can leave a ledger entry equal to `LedgerEnt.initial`, which
`State.setToken` removes from the ledger; in a ledger that lists the segment twice, the second entry then shows. The two
theorems at the end prove both clauses for a ledger whose keys rise, so that this one hypothesis is what they lack. -/
namespace Sys2Proof
variable {α : Type}

/-! ### Tables: a read after a removal and after a canonical write -/

theorem Smap.get_eq_none_of_lt {m : Smap α} {i : Nat} (h : ∀ e ∈ m, i < e.1) : m.get i = none := by
  cases m with
  | nil => rfl
  | cons e t =>
    have hlt : i < e.1 := h e List.mem_cons_self
    simp [Smap.get, hlt, Nat.ne_of_lt hlt]

theorem Smap.get_del_same {m : Smap α} (h : m.wf = true) (i : Nat) : (m.del i).get i = none := by
  induction m with
  | nil => rfl
  | cons e t ih =>
    obtain ⟨k, v⟩ := e
    by_cases hik : i = k
    · subst hik
      simpa [Smap.del] using Smap.get_eq_none_of_lt (Smap.wf_lt h)
    · by_cases hlt : i < k
      · simp [Smap.del, Smap.get, hik, hlt]
      · simpa [Smap.del, Smap.get, hik, hlt] using ih (Smap.wf_tail h)

/-- Unlike `Smap.getD_store_of_ne`, this covers a write of the default, which is where rising keys are needed. -/
theorem Smap.getD_store_same [DecidableEq α] {m : Smap α} (h : m.wf = true) (d : α) (i : Nat) (x : α) :
    (m.store d i x).getD i d = x := by
  by_cases hx : x = d
  · simp [Smap.store, hx, Smap.getD, Smap.get_del_same h]
  · exact Smap.getD_store_of_ne d m i x hx

end Sys2Proof

namespace Sys2Proof.Machine
open Sys2Proof

/-! ### The ledger and OWN_CMD_STATUS -/

@[simp] theorem setToken_held (s : State) (key : Nat) (e : LedgerEnt) : (s.setToken key e).own.held = s.own.held := rfl
@[simp] theorem ownStatus_held (s : State) (result target : Nat) : (ownStatus s result target).own.held = s.own.held := rfl
@[simp] theorem ownStatus_token (s : State) (result target key : Nat) : (ownStatus s result target).token key = s.token key := rfl

@[simp] theorem eventIf_token (s : State) (c : Bool) (r : Reg) (u b key : Nat) : (s.eventIf c r u b).token key = s.token key := by
  simp [State.token]

theorem token_setToken_same {s : State} (h : s.own.ledger.wf = true) (key : Nat) (e : LedgerEnt) :
    (s.setToken key e).token key = e :=
  Smap.getD_store_same h _ _ _

theorem releaseHeld_of_held_nil {s : State} (h : s.own.held = []) : releaseHeld s = s := by
  obtain ⟨_, _, _, _, _, _, _, _, _, _, ⟨_, _, _, _, held, _, _, _⟩, _⟩ := s
  subst h
  rfl

theorem bits_lt (v lo w : Nat) : bits v lo w < 2 ^ w := Nat.mod_lt _ (Nat.two_pow_pos w)

theorem ownStatus_done (s : State) {target : Nat} (h : target < 2 ^ 16) :
    (ownStatus s ownDone target).own.cmdStatus = 2 * ownDone + 16 * target := by
  simp only [ownStatus, State.mapOwn_own, ownDone, ownWaiting, Nat.mod_eq_of_lt h]
  simp [b2n, Nat.mul_comm]

/-! ### The physical function's write of a direct register -/

/-- A whole-word base write by the physical function reaches the register, unless its block is fenced (R63, R65, R83). -/
theorem wordWrite_directReg {s : State} {b x : Nat} {r : Reg} {u : Nat} (hb : b < 18) (hx : x < 2 ^ 18) (hal : x % 4 = 0)
    (hr : resolve 0 b x = .reg r u) (hf : s.regs.fencedBlocks.contains b = false) (v : W32) :
    wordWrite s 0 (2 ^ 20 * b + x) true v = regWrite s 0 r u 0 x v := by
  have haligned : (2 ^ 20 * b + x) % 4 = 0 := by omega
  have hrange : ¬ 2 ^ 20 * b + x ≥ 2 ^ 26 := by omega
  have hblock : (2 ^ 20 * b + x) / 2 ^ 20 = b := by omega
  have halias : (2 ^ 20 * b + x) / 2 ^ 18 % 4 = 0 := by omega
  have hoff : (2 ^ 20 * b + x) % 2 ^ 18 = x := by omega
  simp only [wordWrite, haligned, hrange, hblock, halias, hoff, hr, hf]
  simp [reaches, isVf, blockSeen, regHidden, hb, targetWrite]

theorem wordWrite_ownCmd {s : State} (h : s.regs.fencedBlocks.contains 13 = false) (v : W32) :
    wordWrite s 0 0xD00014 true v = ownCmdWrite s 0 0x14 v :=
  wordWrite_directReg (b := 13) (x := 0x14) (by decide) (by decide) (by decide)
    (show resolve 0 13 0x14 = .reg .ownCmd 0 by decide +kernel) h v

theorem exec_ownAbort_eq {s : State} {v : W32} (h : s.regs.fencedBlocks.contains 13 = false) (hv : bits v.toNat 0 4 = 4) :
    exec (.ownAbort 0 v) s = .next (ownAbort s (bits v.toNat 4 16)) := by
  show Host.Outcome.next (ownCommand s 4 0 v) = _
  simp only [ownCommand, wordWrite_ownCmd h, ownCmdWrite, hv, if_true]

theorem exec_tset_eq {s : State} {v : W32} (h : s.regs.fencedBlocks.contains 13 = false) (hout : s.blockOut 13 = false)
    (hag : hwAgent s = false) (hv : bits v.toNat 0 4 = 3) :
    exec (.tset 0 v) s = .next (tset s (bits v.toNat 4 16)) := by
  show Host.Outcome.next (ownCommand s 3 0 v) = _
  simp only [ownCommand, wordWrite_ownCmd h, ownCmdWrite, hv, hout, hag, if_true]
  rfl

/-! ### The counterexample: an ABORT in a ledger that lists its segment twice -/

/-- Segment 0 of composition 0, in HELD. -/
def heldLedger : Smap LedgerEnt := [(0, { LedgerEnt.initial with st := .held })]

/-- One composition of one segment, which the ledger lists twice: CLAIMING, claimed from an untouched entry, and behind that HELD. -/
def claimingTwiceListed : State :=
  State.reset.mapOwn fun o => { o with
    comps := [(0, { now := { words := [2 ^ 28], entries := [0] }, prev := none, draining := false, bound := 0, binding := [] })]
    ledger := (0, { LedgerEnt.initial with st := .claiming, before := some (.none, 0, none) }) :: heldLedger }

/-- The aborted claim returns to an untouched entry, whose removal leaves the second one. -/
theorem exec_ownAbort_claimingTwiceListed :
    exec (.ownAbort 0 4) claimingTwiceListed = .next (claimingTwiceListed.mapOwn fun o => { o with ledger := heldLedger }) := by
  rw [exec_ownAbort_eq (by decide +kernel) (by decide)]
  exact congrArg Host.Outcome.next (by decide +kernel)

/-- Refutes O18: in `claimingTwiceListed`, whose ledger does not have rising keys, the segment is HELD after the ABORT, and
not NONE, the state before its claim. -/
theorem not_registerCommandsComplete : ¬ Obligations.RegisterCommandsComplete := by
  unfold Obligations.RegisterCommandsComplete
  rintro ⟨-, -, -, -, -, -, -, -, -, -, -, -, -, hAbort, -⟩
  obtain ⟨t, ht, hst, -⟩ := hAbort claimingTwiceListed 4 0 0 .none none (by decide +kernel) (by decide +kernel) (by decide)
    (by decide +kernel) (by decide +kernel) (by decide +kernel) (by decide +kernel)
  rw [exec_ownAbort_claimingTwiceListed] at ht
  obtain rfl := Host.Outcome.next.inj ht
  exact absurd hst (by decide +kernel)

/-! ### What ABORT and TSET do where the ledger's keys rise (R468, R470) -/

theorem ownAbort_restores_of_ledger_wf {s : State} {v : W32} {key g : Nat} {st : Token} {n : Option Nat} (hwf : s.own.ledger.wf = true)
    (hf : s.regs.fencedBlocks.contains 13 = false) (hv : bits v.toNat 0 4 = 4) (hkey : segKey s (bits v.toNat 4 16) = some key)
    (hcl : (s.token key).st = .claiming) (hb : (s.token key).before = some (st, g, n)) (hheld : s.own.held = []) :
    ∃ t, exec (.ownAbort 0 v) s = .next t ∧ (t.token key).st = st ∧ (t.token key).tgen = g ∧ (t.token key).peer = n ∧
      (t.token key).waitAck = [] ∧ t.own.cmdStatus = 2 * ownDone + 16 * bits v.toNat 4 16 := by
  refine ⟨_, exec_ownAbort_eq hf hv, ?_⟩
  have hwf' : (ownStatus s ownDone (bits v.toNat 4 16)).own.ledger.wf = true := hwf
  simp only [ownAbort, hkey, hcl, unclaim, hb, if_true, Option.getD_some]
  rw [releaseHeld_of_held_nil (by simpa using hheld), token_setToken_same hwf']
  exact ⟨rfl, rfl, rfl, rfl, ownStatus_done s (bits_lt _ _ _)⟩

theorem tset_completes_of_ledger_wf {s : State} {v : W32} {key : Nat} {st : Token} (hwf : s.own.ledger.wf = true)
    (hf : s.regs.fencedBlocks.contains 13 = false) (hout : s.blockOut 13 = false) (hdev : devMode s 0 = true)
    (hv : bits v.toNat 0 4 = 3) (hkey : segKey s (bits v.toNat 4 16) = some key) (ha : (s.reg .ownArg1 0).toNat < 2 ^ 20)
    (hg : (s.reg .ownArg0 0).toNat ≤ maxTgen) (hst : tokenOf (bits (s.reg .ownArg1 0).toNat 17 3) = some st)
    (hok : tsetOk (s.token key) st (s.reg .ownArg0 0).toNat = true) (hheld : s.own.held = [])
    (hserve : st = .confirmed → inService s key = false) :
    ∃ t, exec (.tset 0 v) s = .next t ∧ (t.token key).st = st ∧ (t.token key).tgen = (s.reg .ownArg0 0).toNat ∧
      (t.token key).peer = (if bits (s.reg .ownArg1 0).toNat 0 17 = noNode then none else some (bits (s.reg .ownArg1 0).toNat 0 17)) ∧
      t.own.cmdStatus = 2 * ownDone + 16 * bits v.toNat 4 16 := by
  refine ⟨_, exec_tset_eq hf hout (by simp [hwAgent, hdev]) hv, ?_⟩
  have hrange : ¬ ((s.reg .ownArg1 0).toNat ≥ 2 ^ 20 ∨ (s.reg .ownArg0 0).toNat > maxTgen) := by omega
  simp only [tset, hkey, hst, hrange, hok, if_false, Bool.not_true, Bool.false_eq_true]
  by_cases hc : st = .confirmed
  · subst hc
    simp only [if_true, cease, hserve rfl, Bool.false_eq_true, if_false, ceased, ownStatus_token, token_setToken_same hwf, Option.isSome_none]
    rw [releaseHeld_of_held_nil (by simpa using hheld), ownStatus_token, token_setToken_same hwf]
    exact ⟨rfl, rfl, rfl, ownStatus_done _ (bits_lt _ _ _)⟩
  · simp only [if_neg hc]
    rw [releaseHeld_of_held_nil (by simpa using hheld)]
    simp only [eventIf_token, ownStatus_token, token_setToken_same hwf, eventIf_own]
    exact ⟨trivial, trivial, trivial, ownStatus_done _ (bits_lt _ _ _)⟩

end Sys2Proof.Machine
end

section
/-! PROOF. The sequence-clear registers (03_register_conventions R84 to R86): what one event, one clearing write and one write error
do to a cell, then O42, O43 and O44. -/
namespace Sys2Proof.Machine
open Sys2Proof

/-! ### One cell: an event set, events cleared (R84, R85) -/

@[simp] theorem sqcSet_seq (c : SqcCell) (b : Nat) : (sqcSet c b).seq = c.seq + 1 := rfl

@[simp] theorem sqcSet_stamps_same (c : SqcCell) (b : Nat) : (sqcSet c b).stamps.get b = some (c.seq + 1) :=
  Smap.get_put_same _ _ _

theorem sqcSet_stamps_ne (c : SqcCell) {b j : Nat} (h : j ≠ b) : (sqcSet c b).stamps.get j = c.stamps.get j :=
  Smap.get_put_ne _ _ _ _ h

theorem sqcSet_bit_ne (c : SqcCell) {b j : Nat} (h : j ≠ b) : (sqcSet c b).ev.getLsbD j = c.ev.getLsbD j := by
  simp only [sqcSet, BitVec.getLsbD_or, BitVec.getLsbD_ofNat, Nat.testBit_two_pow, decide_eq_false h.symm, Bool.and_false, Bool.or_false]

/-- The number that `sqcClear` builds from the bits that stay. -/
theorem foldl_two_pow_lt (p : Nat → Bool) (n : Nat) : ((List.range n).filter p).foldl (fun a b => a + 2 ^ b) 0 < 2 ^ n := by
  induction n with
  | zero => simp
  | succ n ih =>
    rw [List.range_succ, List.filter_append, List.foldl_append, Nat.pow_succ]
    cases h : p n <;> simp [h] <;> omega

theorem testBit_foldl_two_pow (p : Nat → Bool) (n i : Nat) :
    (((List.range n).filter p).foldl (fun a b => a + 2 ^ b) 0).testBit i = (decide (i < n) && p i) := by
  induction n with
  | zero => simp
  | succ n ih =>
    rcases Nat.lt_or_ge n i with hi | hi
    · rw [Nat.testBit_lt_two_pow (Nat.lt_of_lt_of_le (foldl_two_pow_lt p (n + 1)) (Nat.pow_le_pow_right (by decide) hi))]
      simp [Nat.not_lt_of_ge hi]
    · rw [List.range_succ, List.filter_append, List.foldl_append, decide_eq_true (Nat.lt_succ_of_le hi)]
      generalize ((List.range n).filter p).foldl (fun a b => a + 2 ^ b) 0 = m at ih ⊢
      rcases Nat.lt_or_eq_of_le hi with hi | rfl
      · cases h : p n
        · simp [h, ih, hi]
        · simp [h, ih, hi, Nat.add_comm m, Nat.testBit_two_pow_add_gt hi]
      · cases h : p i
        · simp [h, ih]
        · simp [h, ih, Nat.add_comm m, Nat.testBit_two_pow_add_eq]

/-- A bit stays set unless the mask names it and its stamp is at or before S (R85). -/
theorem sqcClear_bit (c : SqcCell) (mask : BitVec 24) (sq : BitVec 8) {b : Nat} (hb : b < 24) :
    (sqcClear c mask sq).ev.getLsbD b =
      (c.ev.getLsbD b && !(mask.getLsbD b && decide ((c.seq - sq).toNat ≤ (c.seq - c.stamps.getD b 0).toNat))) := by
  simp only [sqcClear, BitVec.getLsbD_ofNat, testBit_foldl_two_pow, hb, decide_true, Bool.true_and, ge_iff_le]
  cases c.ev.getLsbD b <;> simp

@[simp] theorem sqcAfter_seq (c : SqcCell) (v : W32) : (sqcAfter c v).seq = c.seq := rfl
@[simp] theorem sqcAfter_stamps (c : SqcCell) (v : W32) : (sqcAfter c v).stamps = c.stamps := rfl

theorem sqcAfter_bit (c : SqcCell) (v : W32) {b : Nat} (hb : b < 24) :
    (sqcAfter c v).ev.getLsbD b = (c.ev.getLsbD b && !(v.getLsbD b &&
      decide ((c.seq - BitVec.ofNat 8 (v.toNat / 2 ^ 24)).toNat ≤ (c.seq - c.stamps.getD b 0).toNat))) := by
  rw [sqcAfter, sqcClear_bit _ _ _ hb, BitVec.getLsbD_setWidth, decide_eq_true hb, Bool.true_and]

/-! ### A write error in the requester's copy (R67) -/

/-- The event that a write error sets in a cell: EV_WERR, or EV_LOST where EV_WERR stands. -/
def werrBit (c : SqcCell) : Nat := if c.ev.getLsbD 0 then 1 else 0

theorem werrBit_lt (c : SqcCell) : werrBit c < 24 := by unfold werrBit; split <;> decide

theorem writeError_werr (s : State) (req block off al cause : Nat) :
    (writeError s req block off al cause).regs.werr = s.regs.werr.put (werrKey req block)
      (sqcSet (s.regs.werr.getD (werrKey req block) SqcCell.clear) (werrBit (s.regs.werr.getD (werrKey req block) SqcCell.clear))) := by
  unfold writeError werrBit
  dsimp only
  split
  · split <;> simp
  · simp

/-- The requester's cell after a write error. -/
@[simp] theorem writeError_werr_same (s : State) (req block off al cause : Nat) :
    (writeError s req block off al cause).regs.werr.getD (werrKey req block) SqcCell.clear =
      sqcSet (s.regs.werr.getD (werrKey req block) SqcCell.clear) (werrBit (s.regs.werr.getD (werrKey req block) SqcCell.clear)) := by
  rw [writeError_werr, Smap.getD_put_same]

theorem writeError_sets_evWerr (s : State) (req block off al cause : Nat) :
    ((writeError s req block off al cause).regs.werr.getD (werrKey req block) SqcCell.clear).ev.getLsbD 0 = true := by
  rw [writeError_werr_same, werrBit]
  split
  · next h => rwa [sqcSet_bit_ne _ (by decide)]
  · exact sqcSet_bit _ 0 (by decide)

/-- The first write error latches its place, cause and requester (R67). -/
theorem writeError_latches {s : State} {req block : Nat} (off al cause : Nat)
    (h : (s.regs.werr.getD (werrKey req block) SqcCell.clear).ev.getLsbD 0 = false) :
    (writeError s req block off al cause).regs.werrInfo.get (werrKey req block) =
      some { offset := off, alias_ := al, cause := cause, fn := req } := by
  simp only [writeError, h, Bool.false_eq_true, if_false, signalFn_regs, Smap.get_put_same]

@[simp] theorem writeError_regs_sqc (s : State) (req block off al cause : Nat) :
    (writeError s req block off al cause).regs.sqc = s.regs.sqc := by
  obtain ⟨w, i, a, b, h⟩ := writeError_eq s req block off al cause
  rw [h]
  rfl

/-! ### A write to a sequence-clear register -/

theorem sqcWrite_stale {s : State} {r : Reg} {u : Nat} {v : W32} (h : staleSeq (s.sqc r u) v = true) (req x : Nat) :
    sqcWrite s req r u x v = writeError s req r.row.block x 0 werrStaleSeq := by
  simp [sqcWrite, h]

/-- The state after a clearing write, before EV_OVERVOLT may come back. -/
def sqcCleared (s : State) (r : Reg) (u : Nat) (v : W32) : State :=
  s.mapRegs fun g => { g with sqc := g.sqc.put (regKey r u) (sqcAfter (s.sqc r u) v) }

@[simp] theorem sqcCleared_sqc (s : State) (r : Reg) (u : Nat) (v : W32) : (sqcCleared s r u v).sqc r u = sqcAfter (s.sqc r u) v :=
  Smap.getD_put_same _ _ _ _

/-- The write takes EV_OVERVOLT away while a rail is above its threshold (log entry 105). -/
def overvoltReturns (s t : State) (r : Reg) (u : Nat) : Prop :=
  r = .pwrEvent ∧ s.power.overvolt ≠ [] ∧ (s.sqc r u).ev.getLsbD 2 = true ∧ (t.sqc r u).ev.getLsbD 2 = false

theorem sqcWrite_fresh {s : State} {r : Reg} {u : Nat} {v : W32} (h : staleSeq (s.sqc r u) v = false) (req x : Nat) :
    (overvoltReturns s (sqcCleared s r u v) r u → sqcWrite s req r u x v = (sqcCleared s r u v).event .pwrEvent 0 2) ∧
    (¬ overvoltReturns s (sqcCleared s r u v) r u → sqcWrite s req r u x v = sqcCleared s r u v) := by
  have hw : sqcWrite s req r u x v = (sqcCleared s r u v).eventIf (decide (r = .pwrEvent) && !s.power.overvolt.isEmpty &&
      (s.sqc r u).ev.getLsbD 2 && !((sqcCleared s r u v).sqc r u).ev.getLsbD 2) .pwrEvent 0 2 := by
    simp only [sqcWrite, h, Bool.false_eq_true, if_false]
    rfl
  rw [hw, overvoltReturns]
  constructor
  · rintro ⟨hr, hover, hset, hgone⟩
    exact if_pos (by rw [hset, hgone]; simp [hr, hover])
  · intro hno
    refine if_neg fun hhigh => hno ?_
    simpa only [Bool.and_eq_true, decide_eq_true_eq, Bool.not_eq_true', List.isEmpty_eq_false_iff, and_assoc] using hhigh

/-! ### The row SQC_WRITE of the physical function -/

theorem targetOf_block {b x : Nat} (hb : b < 18) (hx : x < 2 ^ 18) (req : Nat) : targetOf req (2 ^ 20 * b + x) = resolve req b x := by
  have hblock : (2 ^ 20 * b + x) / 2 ^ 20 = b := by omega
  have hoff : (2 ^ 20 * b + x) % 2 ^ 18 = x := by omega
  rw [targetOf, hblock, hoff, if_neg (by omega)]

theorem exec_sqcWrite_directReg {s : State} {b x u : Nat} {r : Reg} (v : W32) (hb : b < 18) (hx : x < 2 ^ 18) (hal : x % 4 = 0)
    (hr : resolve 0 b x = .reg r u) (hacc : r.row.acc = .sqc) (hf : s.regs.fencedBlocks.contains b = false) :
    exec (.sqcWrite 0 (2 ^ 20 * b + x) v) s = .next (sqcWrite s 0 r u x v) := by
  show Host.Outcome.next (if isSqcTarget s 0 (2 ^ 20 * b + x) then wordWrite s 0 (2 ^ 20 * b + x) true v else s) = _
  have htgt : isSqcTarget s 0 (2 ^ 20 * b + x) = true := by
    rw [isSqcTarget, targetOf_block hb hx, hr]
    simp [hacc]
  rw [if_pos htgt, wordWrite_directReg hb hx hal hr hf]
  simp [regWrite, noCopyWrite, hacc]

/-! ### O42, O43, O44 -/

/-- Settles O42: each operation that sets an event puts `sqcSet` of the old cell, and a clearing write keeps SEQ and the stamps. -/
theorem eventBitsAreStamped : Obligations.EventBitsAreStamped := by
  unfold Obligations.EventBitsAreStamped
  refine ⟨?event, ?werr, fun c v => ⟨sqcAfter_seq c v, sqcAfter_stamps c v⟩⟩
  case event =>
    intro s r u b j hb hj hne
    rw [event_sqc]
    exact ⟨sqcSet_seq _ _, sqcSet_bit _ _ hb, sqcSet_stamps_same _ _, sqcSet_bit_ne _ hne, sqcSet_stamps_ne _ hne⟩
  case werr =>
    rintro s req k off al cause b c d rfl rfl rfl
    rw [writeError_werr_same]
    exact ⟨sqcSet_seq _ _, sqcSet_bit _ _ (werrBit_lt _), sqcSet_stamps_same _ _⟩

/-- Settles O43, by what a clearing write leaves of each bit and by the one case in which EV_OVERVOLT comes back. -/
theorem writeClearsEventsUpToItsSeq : Obligations.WriteClearsEventsUpToItsSeq := by
  unfold Obligations.WriteClearsEventsUpToItsSeq
  refine ⟨?cell, ?write, fun s b x u r v hb hx hal hr hacc hf => exec_sqcWrite_directReg v hb hx hal hr hacc hf⟩
  case cell =>
    intro c v b hb
    refine ⟨?_, sqcAfter_seq c v, sqcAfter_stamps c v⟩
    rw [sqcAfter_bit c v hb]
    simp [imp_iff_not_or]
  case write =>
    rintro s t u req r n x v hfresh rfl rfl
    obtain ⟨hback, hplain⟩ := sqcWrite_fresh hfresh req x
    refine ⟨hback, fun hno => ?_⟩
    rw [hplain hno]
    exact ⟨rfl, sqcCleared_sqc s r n v⟩

/-- Settles O44: a stale write is a write error of the block and nothing else. -/
theorem staleWriteClearsNothing : Obligations.StaleWriteClearsNothing := by
  unfold Obligations.StaleWriteClearsNothing
  refine ⟨?stale, fun s b x u r v hb hx hal hr hacc hf => exec_sqcWrite_directReg v hb hx hal hr hacc hf⟩
  rintro s t req r n x v c hold rfl rfl
  rw [sqcWrite_stale (decide_eq_true hold)]
  exact ⟨writeError_regs_sqc .., writeError_sets_evWerr .., writeError_latches x 0 werrStaleSeq⟩

end Sys2Proof.Machine
end

section
/-! PROOF. Reads and writes at addresses that hold no register, and pairs of a low and a high register (03_register_conventions R63,
R66): O45 and O46. -/
namespace Sys2Proof.Machine
open Sys2Proof

/-! ### Addresses past the last block and addresses without a register (R63) -/

theorem readReg_of_wordRead_zero {s : State} {req a : Nat} (hal : a % 4 = 0) (ha : a < 2 ^ 26) (h : wordRead s req a = (s, 0)) :
    readReg s req a = s.mapRegs fun g => { g with readData := g.readData.put (min req 127) 0 } := by
  rw [readReg, if_neg (by omega), h]
  rfl

/-- A 4-byte write with a byte enabled is one word written. -/
theorem exec_registerWrite_word {req a : Nat} {be : BitVec 8} (d : W64) (s : State) (hal : a % 4 = 0) (hbe : be.toNat % 16 ≠ 0) :
    exec (.registerWrite req a false be d) s = .next (wordWrite s req a (be.toNat % 16 == 15) (d.setWidth 32)) := by
  show Host.Outcome.next (barWrite s req a false be d) = _
  simp [barWrite, hal, hbe]

theorem wordRead_pastBlocks {s : State} {req a : Nat} (h : 18 * 2 ^ 20 ≤ a) : wordRead s req a = (s, 0) := by
  have hblock : a / 2 ^ 20 ≥ 18 := by omega
  simp only [wordRead, hblock, true_or, or_true, if_true]

theorem wordWrite_pastBlocks {s : State} {req a : Nat} (full : Bool) (v : W32) (hreach : reaches s req = true) (h : 18 * 2 ^ 20 ≤ a)
    (ha : a < 2 ^ 26) (hal : a % 4 = 0) :
    wordWrite s req a full v = writeError s req 0 (a % 2 ^ 18) (a / 2 ^ 18 % 4) werrUnmapped := by
  have hblock : a / 2 ^ 20 ≥ 18 := by omega
  have hvalid : ¬ (a % 4 ≠ 0 ∨ a ≥ 2 ^ 26 ∨ (!reaches s req) = true) := by rw [hreach]; simp; omega
  simp only [wordWrite, hvalid, hblock, if_false, if_true]

/-- An address is cut into block, form of access and offset (R62). -/
theorem address_parts {b al x : Nat} (hal : al < 4) (hx : x < 2 ^ 18) :
    (2 ^ 20 * b + 2 ^ 18 * al + x) / 2 ^ 20 = b ∧ (2 ^ 20 * b + 2 ^ 18 * al + x) / 2 ^ 18 % 4 = al ∧
      (2 ^ 20 * b + 2 ^ 18 * al + x) % 2 ^ 18 = x := by omega

theorem wordRead_unmapped (s : State) {req b x al : Nat} (hx : x < 2 ^ 18) (hal : al < 4) (hr : resolve req b x = .unmapped) :
    wordRead s req (2 ^ 20 * b + 2 ^ 18 * al + x) = (s, 0) := by
  obtain ⟨hblock, -, hoff⟩ := address_parts (b := b) hal hx
  simp only [wordRead, hblock, hoff, hr]
  split <;> simp [regHidden]

theorem wordWrite_unmapped {s : State} {req b x al : Nat} (full : Bool) (v : W32) (hreach : reaches s req = true) (hb : b < 18)
    (hx : x < 2 ^ 18) (hal : al < 4) (hx4 : x % 4 = 0) (hseen : blockSeen req b = true) (hr : resolve req b x = .unmapped) :
    wordWrite s req (2 ^ 20 * b + 2 ^ 18 * al + x) full v = writeError s req b x al werrUnmapped := by
  obtain ⟨hblock, halias, hoff⟩ := address_parts (b := b) hal hx
  have hvalid : ¬ ((2 ^ 20 * b + 2 ^ 18 * al + x) % 4 ≠ 0 ∨ 2 ^ 20 * b + 2 ^ 18 * al + x ≥ 2 ^ 26 ∨ (!reaches s req) = true) := by
    rw [hreach]; simp; omega
  simp only [wordWrite, if_neg hvalid, hblock, halias, hoff, hr, hseen, regHidden, ge_iff_le, Nat.not_le_of_lt hb]
  simp

/-- Settles O45: `address_parts` cuts such an address, and `writeError_eq` says what a write error can change. -/
theorem unmappedAddressesReadZero : Obligations.UnmappedAddressesReadZero := by
  unfold Obligations.UnmappedAddressesReadZero
  refine ⟨?block, ?past, ?frame⟩
  case block =>
    intro s req b x al hreach hb hx hal hx4 hseen hr
    have ha4 : (2 ^ 20 * b + 2 ^ 18 * al + x) % 4 = 0 := by omega
    have ha : 2 ^ 20 * b + 2 ^ 18 * al + x < 2 ^ 26 := by omega
    refine ⟨congrArg Host.Outcome.next (readReg_of_wordRead_zero ha4 ha (wordRead_unmapped s hx hal hr)), fun be d hbe => ?_⟩
    rw [exec_registerWrite_word d s ha4 hbe, wordWrite_unmapped _ _ hreach hb hx hal hx4 hseen hr]
  case past =>
    intro s req a hreach hlo hhi ha4
    have ha : a < 2 ^ 26 := by omega
    refine ⟨congrArg Host.Outcome.next (readReg_of_wordRead_zero ha4 ha (wordRead_pastBlocks hlo)), fun be d hbe => ?_⟩
    rw [exec_registerWrite_word d s ha4 hbe, wordWrite_pastBlocks _ _ hreach hlo ha ha4]
  case frame =>
    intro s req b off al cause
    exact ⟨writeError_eq s req b off al cause, writeError_sets_evWerr .., writeError_latches off al cause⟩

/-! ### A low half and its high half (R66) -/

/-- Both halves of a pair are read-only and count no time, and no high half is the low half of a pair. -/
theorem hiPairs_halves : ∀ p ∈ hiPairs, (p.1.row.acc = .ro ∧ p.1 ∉ timingRegs ∧ (hiPairs.find? fun q => q.1 == p.1) = some p) ∧
    (p.2.row.acc = .ro ∧ p.2 ∉ timingRegs ∧ (hiPairs.find? fun q => q.1 == p.2) = none) := by decide

section
variable {lo hi : Reg} (hp : (lo, hi) ∈ hiPairs) (s : State) (req u : Nat)
include hp

theorem regRead_lo : regRead s req lo u 0 =
    (s.mapRegs fun g => { g with hiLatch := g.hiLatch.put (latchKey req hi u) (regView s req hi u) }, regView s req lo u) := by
  obtain ⟨⟨hro, htime, hfind⟩, -⟩ := hiPairs_halves _ hp
  simp [regRead, hro, htime, hfind]

theorem regRead_hi_latched {h : W32} (hl : s.regs.hiLatch.get (latchKey req hi u) = some h) :
    regRead s req hi u 0 = (s.mapRegs fun g => { g with hiLatch := g.hiLatch.del (latchKey req hi u) }, h) := by
  obtain ⟨-, hro, htime, hfind⟩ := hiPairs_halves _ hp
  simp [regRead, hro, htime, hfind, hl]

theorem regRead_hi_current (hl : s.regs.hiLatch.get (latchKey req hi u) = none) :
    regRead s req hi u 0 = (s, regView s req hi u) := by
  obtain ⟨-, hro, htime, hfind⟩ := hiPairs_halves _ hp
  simp [regRead, hro, htime, hfind, hl]

end

theorem latchKey_ne {q req : Nat} (hi : Reg) (u : Nat) (hq : q < 127) (hreq : req < 127) (hne : q ≠ req) :
    latchKey q hi u ≠ latchKey req hi u := by
  simp only [latchKey]
  omega

/-- Settles O46: a low half's read puts one entry into the latches, under a key of the requester's own. -/
theorem lowReadLatchesHigh : Obligations.LowReadLatchesHigh := by
  unfold Obligations.LowReadLatchesHigh
  refine ⟨fun s req u lo hi hp => ⟨regRead_lo hp s req u, ?own, ?others⟩,
    fun s req u lo hi h hp => regRead_hi_latched hp s req u, fun s req u lo hi hp => regRead_hi_current hp s req u⟩
  case own =>
    rw [regRead_lo hp]
    exact Smap.get_put_same _ _ _
  case others =>
    intro q hq hreq hne
    rw [regRead_lo hp]
    exact Smap.get_put_ne _ _ _ _ (latchKey_ne hi u hq hreq hne)

end Sys2Proof.Machine
end

section
/-! PROOF. O17, the rows of register access. As stated it fails, in two clauses that quantify over every value of `State`. A write of a
staged composition word keeps the bits outside the word's mask as they were, so that the word becomes the written one only where the
staged word lies in its mask, as every write leaves it. And a scan raises no fault for a copy that it has already found; a copy may
stand in `found` though `good` is empty. The two theorems at the end prove each of these clauses with that hypothesis added. -/
namespace Sys2Proof.Machine
open Sys2Proof

/-! ### A write through a window (R88) -/

theorem wordWrite_window {s : State} {b x : Nat} {a : Reg} (hb : b < 18) (hx : x < 2 ^ 18) (hal : x % 4 = 0)
    (hr : resolve 0 b x = .window a) (hf : s.regs.fencedBlocks.contains b = false) (v : W32) :
    wordWrite s 0 (2 ^ 20 * b + x) true v = winPut s 0 a 0 v := by
  have haligned : (2 ^ 20 * b + x) % 4 = 0 := by omega
  have hrange : ¬ 2 ^ 20 * b + x ≥ 2 ^ 26 := by omega
  have hblock : (2 ^ 20 * b + x) / 2 ^ 20 = b := by omega
  have halias : (2 ^ 20 * b + x) / 2 ^ 18 % 4 = 0 := by omega
  have hoff : (2 ^ 20 * b + x) % 2 ^ 18 = x := by omega
  simp only [wordWrite, haligned, hrange, hblock, halias, hoff, hr, hf]
  simp [reaches, isVf, blockSeen, regHidden, hb, targetWrite]

theorem exec_indDataAccess_write {s : State} {b x : Nat} {a : Reg} (v : W32) (hb : b < 18) (hx : x < 2 ^ 18) (hal : x % 4 = 0)
    (hr : resolve 0 b x = .window a) (hf : s.regs.fencedBlocks.contains b = false) :
    exec (.indDataAccess 0 (2 ^ 20 * b + x) (some v)) s = .next (winPut s 0 a 0 v) := by
  show Host.Outcome.next (if isWindow 0 (2 ^ 20 * b + x) then wordWrite s 0 (2 ^ 20 * b + x) true v else s) = _
  have hwin : isWindow 0 (2 ^ 20 * b + x) = true := by rw [isWindow, targetOf_block hb hx, hr]
  rw [if_pos hwin, wordWrite_window hb hx hal hr hf]

/-! ### A word of the staged composition (R445, R447) -/

@[simp] theorem advance_own (s : State) (req : Nat) (a : Reg) (read : Bool) : (advance s req a read).own = s.own := by
  unfold advance
  dsimp only
  split <;> rfl

@[simp] theorem werrIf_own (s : State) (req block off al : Nat) (c : Option Nat) : (werrIf s req block off al c).own = s.own := by
  cases c with
  | none => rfl
  | some c => exact writeError_own ..

theorem compMask_ne_zero {w : Nat} (hw : w < 6) : compMask w ≠ 0#32 := by
  revert w
  decide

theorem winTarget_stagedComp {s : State} {c w : Nat} (hc : c < 256) (hw : w < 6)
    (ha : s.reg .ownCompIndAddr 0 = BitVec.ofNat 32 (w + 8 * c)) : winTarget s 0 .ownCompIndAddr = .comp c w false := by
  have hv : indAddr s 0 .ownCompIndAddr = w + 8 * c := by
    rw [indAddr, show regInst 0 .ownCompIndAddr = 0 from rfl, ha, BitVec.toNat_ofNat, Nat.mod_eq_of_lt (by omega)]
  have hcomp : bits (w + 8 * c) 3 8 = c := by simp only [bits]; omega
  have hword : bits (w + 8 * c) 0 3 = w := by simp only [bits]; omega
  have hstaged : bit (w + 8 * c) 11 = false := by simp only [bit, beq_eq_false_iff_ne]; omega
  simp only [winTarget, stdWindow, hv, hcomp, hword, hstaged]

/-- A base write of a staged word leaves the bits outside its mask as they were. -/
theorem exec_indDataAccess_stagedComp {s : State} {c w : Nat} (v : W32) (hf : s.regs.fencedBlocks.contains 13 = false) (hc : c < 256)
    (hw : w < 6) (ha : s.reg .ownCompIndAddr 0 = BitVec.ofNat 32 (w + 8 * c)) :
    ∃ t, exec (.indDataAccess 0 (2 ^ 20 * 13 + 0x20) (some v)) s = .next t ∧ t.own.stageRec.get (8 * c + w) =
      some ((s.own.stageRec.getD (8 * c + w) 0 &&& ~~~compMask w) ||| (v &&& compMask w)) := by
  refine ⟨_, exec_indDataAccess_write v (b := 13) (x := 0x20) (by decide) (by decide) (by decide)
    (show resolve 0 13 0x20 = .window .ownCompIndAddr by decide +kernel) hf, ?_⟩
  have hwake : wakeFor s 0 .ownCompIndAddr = s := rfl
  have hold : compWord s c w false = s.own.stageRec.getD (8 * c + w) 0 := by
    simp [compWord, show w ≠ 6 by omega, show w ≠ 7 by omega]
  simp [winPut, hwake, winStore, winTarget_stagedComp hc hw ha, stageWrite, compMask_ne_zero hw, hold, mergeWrite, keepReserved, aliasBits]

/-! ### The counterexample: a staged word with a bit outside its mask -/

/-- The window stands on word 1 of composition 0, whose staged copy has bit 31 set; its mask is 0x1FFFF. -/
def stagedOutsideMask : State :=
  (State.reset.setReg .ownCompIndAddr 0 1).mapOwn fun o => { o with stageRec := [(1, 0x80000000)] }

/-- Refutes O17: a write of 0 to the staged word of `stagedOutsideMask` leaves 0x80000000 there. -/
theorem not_registerRowsComplete : ¬ Obligations.RegisterRowsComplete := by
  unfold Obligations.RegisterRowsComplete
  rintro ⟨-, -, -, -, -, -, hstage, -⟩
  have hf : stagedOutsideMask.regs.fencedBlocks.contains 13 = false := by decide +kernel
  have ha : stagedOutsideMask.reg .ownCompIndAddr 0 = BitVec.ofNat 32 (1 + 8 * 0) := by decide +kernel
  obtain ⟨t, ht, hzero⟩ := hstage stagedOutsideMask 0 1 0 hf (by decide) (by decide) ha (by decide)
  obtain ⟨t', ht', hkept⟩ := exec_indDataAccess_stagedComp 0 hf (by decide) (by decide) ha
  obtain rfl := Host.Outcome.next.inj (ht.symm.trans ht')
  rw [hzero] at hkept
  exact absurd hkept (by decide +kernel)

/-- The clause on the parity scan fails as well: the copy at key k stands in `found`, and its upset fences nothing. -/
theorem exec_parityScan_alreadyFound (k : Nat) (hk : k = 2 * regKey .imgStageAddrLo 0) :
    ∃ t, exec (.parityScan 1 [(k, 0)]) (State.reset.mapRegs fun g => { g with found := [k] }) = .next t ∧ t.regs.fencedBlocks = [] := by
  subst hk
  exact ⟨_, rfl, by decide +kernel⟩

/-! ### The staged word where it lies in its mask -/

theorem and_eq_self_of_and_not_eq_zero {n : Nat} {v m : BitVec n} (h : v &&& ~~~m = 0) : v &&& m = v := by
  ext i hi
  have hbit := congrArg (fun x : BitVec n => x[i]) h
  simp only [BitVec.getElem_and, BitVec.getElem_not, BitVec.ofNat_eq_ofNat, BitVec.getElem_zero] at hbit ⊢
  cases hv : v[i] <;> simp_all

theorem indDataAccess_stages_of_masked {s : State} {c w : Nat} {v : W32} (hf : s.regs.fencedBlocks.contains 13 = false) (hc : c < 256)
    (hw : w < 6) (ha : s.reg .ownCompIndAddr 0 = BitVec.ofNat 32 (w + 8 * c)) (hv : v &&& ~~~compMask w = 0)
    (hmasked : s.own.stageRec.getD (8 * c + w) 0 &&& ~~~compMask w = 0) :
    ∃ t, exec (.indDataAccess 0 (2 ^ 20 * 13 + 0x20) (some v)) s = .next t ∧ t.own.stageRec.get (8 * c + w) = some v := by
  obtain ⟨t, ht, hstaged⟩ := exec_indDataAccess_stagedComp v hf hc hw ha
  refine ⟨t, ht, ?_⟩
  rw [hstaged, hmasked, and_eq_self_of_and_not_eq_zero hv]
  exact congrArg some (BitVec.zero_or)

/-! ### Odd parity: one flipped bit is a mismatch (R80, R81) -/

theorem bit_bits (n lo : Nat) {m : Nat} (hm : m < 8) : bit (bits n lo 8) m = n.testBit (lo + m) := by
  rw [bit, bits, Nat.testBit_eq_decide_div_mod_eq, Nat.pow_add, ← Nat.div_div_eq_div_mul]
  generalize n / 2 ^ lo = y
  interval_cases m <;> exact decide_eq_decide.2 (by omega)

/-- The parity bit of a byte of a number, by the bits of the number. -/
theorem parityBit_bits (n lo : Nat) : parityBit (bits n lo 8) = !(((((((n.testBit lo ^^ n.testBit (lo + 1)) ^^ n.testBit (lo + 2)) ^^
    n.testBit (lo + 3)) ^^ n.testBit (lo + 4)) ^^ n.testBit (lo + 5)) ^^ n.testBit (lo + 6)) ^^ n.testBit (lo + 7)) := by
  simp [parityBit, bit_bits]

theorem parityBit_flip (n lo : Nat) {m : Nat} (hm : m < 8) :
    parityBit (bits (n ^^^ 2 ^ (lo + m)) lo 8) = !parityBit (bits n lo 8) := by
  simp only [parityBit_bits, Nat.testBit_xor, Nat.testBit_two_pow]
  interval_cases m <;> simp

/-- Four bits packed into a number, read again. -/
theorem getLsbD_ofNat_b2n (p : Nat → Bool) {j : Nat} (hj : j < 4) :
    (BitVec.ofNat 4 (b2n (p 0) + 2 * b2n (p 1) + 4 * b2n (p 2) + 8 * b2n (p 3))).getLsbD j = p j := by
  interval_cases j <;> generalize p 0 = p0, p 1 = p1, p 2 = p2, p 3 = p3 <;> revert p0 p1 p2 p3 <;> decide

theorem parityOf_bit (v : W32) {j : Nat} (hj : j < 4) : (parityOf v).getLsbD j = parityBit (bits v.toNat (8 * j) 8) :=
  getLsbD_ofNat_b2n (fun j => parityBit (bits v.toNat (8 * j) 8)) hj

theorem parityOf_flip_ne (v : W32) {i : Nat} (hi : i < 32) : parityOf (v ^^^ BitVec.ofNat 32 (2 ^ i)) ≠ parityOf v := by
  intro h
  have hbyte := congrArg (fun p : BitVec 4 => p.getLsbD (i / 8)) h
  have hval : (v ^^^ BitVec.ofNat 32 (2 ^ i)).toNat = v.toNat ^^^ 2 ^ (8 * (i / 8) + i % 8) := by
    rw [Nat.div_add_mod, BitVec.toNat_xor, BitVec.toNat_ofNat, Nat.mod_eq_of_lt (Nat.pow_lt_pow_right (by decide) hi)]
  simp only [parityOf_bit _ (show i / 8 < 4 by omega), hval, parityBit_flip _ _ (Nat.mod_lt i (by decide : 0 < 8))] at hbyte
  simp at hbyte

/-! ### The scan of a copy that is not yet found (R82) -/

theorem addSet_contains (l : List Nat) (x : Nat) : (addSet l x).contains x = true := by
  unfold addSet
  split
  · assumption
  · simp

theorem mbxOfKey_of_regOfKey {k : Nat} {r : Reg} (h : regOfKey k = some r) : mbxOfKey k = none := by
  have hsmall : ∀ q ∈ regAll, q.ctorIdx < 1000 := by decide +kernel
  have hkey : r.ctorIdx = k / 262144 := by simpa using List.find?_some h
  have hlt := hsmall r (List.mem_of_find?_eq_some h)
  rw [mbxOfKey, if_neg (by omega)]

theorem parityFault_fences_block (s : State) {k : Nat} {r : Reg} (hr : regOfKey (k / 2) = some r)
    (hunit : regUnit r (k / 2 % 262144) = none) : (parityFault s k).regs.fencedBlocks.contains r.row.block = true := by
  simp only [parityFault, keyPlace, mbxOfKey_of_regOfKey hr, hr, hunit, State.mapRegs_regs, addSet_contains]

section
variable {s : State} {k : Nat} {r : Reg} (hk : k % 2 = 0) (hr : regOfKey (k / 2) = some r)
include hk hr

theorem copyNow_upset (i : Nat) : copyNow (upset s k i) k = flipBit (copyNow s k) i := by
  simp only [upset, mbxOfKey_of_regOfKey hr, hk]
  simp [copyNow, mbxOfKey_of_regOfKey hr, hk]

theorem upset_regs_good_nil (i : Nat) (hg : s.regs.good = []) : (upset s k i).regs.good.map (·.1) = [k] := by
  simp only [upset, mbxOfKey_of_regOfKey hr, hk]
  simp [hg, Smap.put]

theorem upset_regs_found (i : Nat) : (upset s k i).regs.found = s.regs.found := by
  simp only [upset, mbxOfKey_of_regOfKey hr, hk]
  simp

theorem scanned_rw (hacc : r.row.acc = .rw) (hu : k / 2 % 262144 < r.row.units) : scanned r.row.block k = true := by
  simp [scanned, mbxOfKey_of_regOfKey hr, hr, hacc, hk, hu]

end

theorem parityScan_fences_of_not_found {s : State} {k i : Nat} {r : Reg} (hk : k % 2 = 0) (hr : regOfKey (k / 2) = some r)
    (hacc : r.row.acc = .rw) (hb : r.row.block < 18) (hu : k / 2 % 262144 < r.row.units) (hunit : regUnit r (k / 2 % 262144) = none)
    (hi : i < 32) (hgood : s.regs.good = []) (hpar : (copyNow s k).par = parityOf (copyNow s k).val)
    (hfound : s.regs.found.contains k = false) :
    ∃ t, exec (.parityScan r.row.block [(k, i)]) s = .next t ∧ t.regs.fencedBlocks.contains r.row.block = true := by
  refine ⟨parityScan s r.row.block [(k, i)], rfl, ?_⟩
  have hscan := scanned_rw hk hr hacc hu
  have hone : parityScan s r.row.block [(k, i)] = parityCheck (upset s k i) k := by
    simp [parityScan, Nat.not_le_of_lt hb, hscan, show i < 36 by omega, upset_regs_good_nil hk hr i hgood]
  have hmismatch : (copyNow (upset s k i) k).par ≠ parityOf (copyNow (upset s k i) k).val := by
    rw [copyNow_upset hk hr, flipBit, if_pos hi, hpar]
    exact (parityOf_flip_ne _ hi).symm
  rw [hone, parityCheck, if_pos ⟨hmismatch, by rw [upset_regs_found hk hr, hfound]; rfl⟩]
  exact parityFault_fences_block _ hr hunit

end Sys2Proof.Machine
end

section
/-! PROOF. What the work of a query leaves alone: transfers, cache lines, events and messages change neither the queries nor the
stacks, and a query that ends neither starts nor ends a step of a stack. -/
namespace Sys2Proof
variable {α : Type}

theorem Smap.get_upd_same (m : Smap α) (i : Nat) (f : α → α) : (m.upd i f).get i = (m.get i).map f := by
  unfold Smap.upd
  split <;> rename_i h <;> simp [h]

theorem Smap.wf_upd {m : Smap α} (h : m.wf = true) (i : Nat) (f : α → α) : (m.upd i f).wf = true := by
  unfold Smap.upd
  split
  · exact Smap.wf_put h i _
  · exact h

theorem Smap.get_map_values (m : Smap α) (g : α → α) (i : Nat) : Smap.get (m.map fun e => (e.1, g e.2)) i = (m.get i).map g := by
  induction m with
  | nil => rfl
  | cons e t ih =>
    obtain ⟨k, v⟩ := e
    simp only [List.map_cons, Smap.get, ih]
    split
    · rfl
    · split <;> rfl

end Sys2Proof

namespace Sys2Proof.Machine
open Sys2Proof

/-! ### Folds of state changes -/

theorem foldl_keeps {α β γ : Type} (p : α → γ) {f : α → β → α} (h : ∀ a b, p (f a b) = p a) (l : List β) (a : α) :
    p (l.foldl f a) = p a :=
  List.foldlRecOn (motive := fun x => p x = p a) l f rfl fun x hx b _ => (h x b).trans hx

/-! ### Transfers and cache lines leave the queries and the stacks alone -/

@[simp] theorem charge_keeps (s : State) (p t n : Nat) : (charge s p t n).host = s.host ∧ (charge s p t n).lichen = s.lichen := by
  unfold charge
  split <;> simp

@[simp] theorem chargeUnits_keeps (s : State) (p t n : Nat) :
    (chargeUnits s p t n).host = s.host ∧ (chargeUnits s p t n).lichen = s.lichen :=
  charge_keeps s p t (64 * n)

@[simp] theorem countList_keeps (s : State) (q : Query) (a b c : Nat) :
    (countList s q a b c).host = s.host ∧ (countList s q a b c).lichen = s.lichen := by
  simp [countList, apply_ite State.host, apply_ite State.lichen]

@[simp] theorem countFinal_keeps (s : State) (q : Query) (l : MList) :
    (countFinal s q l).host = s.host ∧ (countFinal s q l).lichen = s.lichen :=
  countList_keeps s q 0 _ _

@[simp] theorem lineFill_keeps (s : State) (p line : Nat) (d pin : Bool) :
    (lineFill s p line d pin).host = s.host ∧ (lineFill s p line d pin).lichen = s.lichen := by
  unfold lineFill
  dsimp only
  split
  · simp
  · split
    · simp
    · split <;> simp

@[simp] theorem lineTouch_keeps (s : State) (p line : Nat) (w : Bool) :
    (lineTouch s p w line).host = s.host ∧ (lineTouch s p w line).lichen = s.lichen := by
  unfold lineTouch
  dsimp only
  split
  · simp
  · split <;> simp [apply_ite State.host, apply_ite State.lichen]

@[simp] theorem spanTouch_keeps (s : State) (p a n : Nat) (w : Bool) :
    (spanTouch s p a n w).host = s.host ∧ (spanTouch s p a n w).lichen = s.lichen := by
  unfold spanTouch
  split
  · simp
  · exact ⟨foldl_keeps State.host (by simp) _ s, foldl_keeps State.lichen (by simp) _ s⟩

@[simp] theorem structTouch_keeps (s : State) (sh : Shard) (k off n : Nat) (w : Bool) :
    (structTouch s sh k off n w).host = s.host ∧ (structTouch s sh k off n w).lichen = s.lichen := by
  unfold structTouch
  split <;> simp

@[simp] theorem slotTouch_keeps (s : State) (sh : Shard) (x : Nat) (w : Bool) :
    (slotTouch s sh x w).host = s.host ∧ (slotTouch s sh x w).lichen = s.lichen := by
  simp [slotTouch]

@[simp] theorem roundCharge_keeps (s : State) (sh : Shard) (q : Query) :
    (roundCharge s sh q).host = s.host ∧ (roundCharge s sh q).lichen = s.lichen := by
  have hh := fun (t : State) (l : List Nat) => foldl_keeps State.host (f := fun s u => slotTouch s sh u false) (by simp) l t
  have hl := fun (t : State) (l : List Nat) => foldl_keeps State.lichen (f := fun s u => slotTouch s sh u false) (by simp) l t
  simp [roundCharge, apply_ite State.host, apply_ite State.lichen, hh, hl]

/-! ### Events and messages leave the queries and the stacks alone -/

@[simp] theorem event_queries (s : State) (r : Reg) (u b : Nat) : (s.event r u b).host.queries = s.host.queries := by
  obtain ⟨a, c, h⟩ := event_eq s r u b
  rw [h]
  rfl

@[simp] theorem deliver_keeps (s : State) (p : Packet) : (deliver s p).host = s.host ∧ (deliver s p).lichen = s.lichen := ⟨rfl, rfl⟩

@[simp] theorem portSend_keeps (s : State) (i : Nat) : (portSend s i).host = s.host ∧ (portSend s i).lichen = s.lichen := by
  unfold portSend
  dsimp only
  split <;> simp [State.updPort]

@[simp] theorem enqueue_keeps (s : State) (i : Nat) (p : Packet) : (enqueue s i p).host = s.host ∧ (enqueue s i p).lichen = s.lichen := by
  simp [enqueue, State.updPort]

@[simp] theorem routePkt_keeps (s : State) (p : Packet) (i : Option Nat) :
    (routePkt s p i).host.queries = s.host.queries ∧ (routePkt s p i).lichen = s.lichen := by
  unfold routePkt
  dsimp only
  split
  · simp
  · split
    · simp
    · split
      · simp
      · split
        · simp
        · split <;> simp

@[simp] theorem sendMsg_keeps (s : State) (l : List Packet) :
    (sendMsg s l).host.queries = s.host.queries ∧ (sendMsg s l).lichen = s.lichen := by
  unfold sendMsg
  exact ⟨foldl_keeps (fun t => t.host.queries) (by simp [sendPkt, twillCharge, apply_ite State.host]) l s,
    foldl_keeps State.lichen (by simp [sendPkt, twillCharge, apply_ite State.lichen]) l s⟩

@[simp] theorem sendRequest_keeps (s : State) (k : ReqKind) (l : List Packet) (q f : Nat) (st : Bool) (slots : List Nat) :
    (sendRequest s k l q f st slots).1.host.queries = s.host.queries ∧ (sendRequest s k l q f st slots).1.lichen = s.lichen := by
  unfold sendRequest
  dsimp only
  split
  · split <;> simp
  · simp

/-! ### The end of a query -/

@[simp] theorem dropSweeps_queries (s : State) (n : Nat) : (dropSweeps s n).host.queries = s.host.queries := rfl
@[simp] theorem dropRequests_keeps (s : State) (n : Nat) :
    (dropRequests s n).host = s.host ∧ (dropRequests s n).lichen = s.lichen := ⟨rfl, rfl⟩

@[simp] theorem updQuery_get (s : State) (n : Nat) (f : Query → Query) :
    (s.updQuery n f).host.queries.get n = (s.host.queries.get n).map f := Smap.get_upd_same _ _ _

theorem updQuery_wf {s : State} (h : s.host.queries.wf = true) (n : Nat) (f : Query → Query) :
    (s.updQuery n f).host.queries.wf = true := Smap.wf_upd h n f

@[simp] theorem sendList_keeps (s : State) (key part index epoch st : Nat) (l : List LEnt) (sus : Bool) :
    (sendList s key part index epoch st l sus).host.queries = s.host.queries ∧
      (sendList s key part index epoch st l sus).lichen = s.lichen :=
  sendMsg_keeps s _

@[simp] theorem blameLoss_keeps (s : State) (n : Nat) : (blameLoss s n).host = s.host ∧ (blameLoss s n).lichen = s.lichen := by
  unfold blameLoss
  split
  · simp
  · split
    · simp
    · split <;> simp

@[simp] theorem toMember_lichen (s : State) (d p : Nat) (b : List Byte) : (toMember s d p b).lichen = s.lichen := by
  simp [toMember]

@[simp] theorem closeBatch_lichen (s : State) (n : Nat) : (closeBatch s n).lichen = s.lichen := by
  unfold closeBatch
  split
  · rfl
  · split
    · rfl
    · dsimp only
      split
      · rfl
      · exact foldl_keeps State.lichen (by simp) _ _

@[simp] theorem submitSeq_lichen (s : State) (p : Nat) (r : Role) (img : List Byte) (pr : Nat) (q : Seqn) :
    (submitSeq s p r img pr q).lichen = s.lichen := by
  unfold submitSeq
  dsimp only
  split
  · simp [apply_ite State.lichen]
  · simp [apply_ite State.lichen, foldl_keeps State.lichen (f := closeBatch)]

/-! ### A query that ends starts and ends no step of a stack -/

theorem step_of_lichen {s t : State} (h : t.lichen = s.lichen) (st : Nat) : (t.stack st).step = (s.stack st).step := by
  rw [State.stack, h, State.stack]

theorem step_ite {c : Prop} [Decidable c] {a b u : State} {x : Nat} (ha : (a.stack x).step = (u.stack x).step)
    (hb : (b.stack x).step = (u.stack x).step) : ((if c then a else b).stack x).step = (u.stack x).step := by
  split
  · exact ha
  · exact hb

theorem mapHost_stack (s : State) (f : HostState → HostState) (st : Nat) : (s.mapHost f).stack st = s.stack st := rfl

theorem stack_updStack_same (s : State) (st : Nat) (f : Stack → Stack) : (s.updStack st f).stack st = f (s.stack st) :=
  Smap.getD_put_same _ _ _ _

@[simp] theorem dropSweeps_step (s : State) (n st : Nat) : ((dropSweeps s n).stack st).step = (s.stack st).step := by
  have h : (dropSweeps s n).lichen.stk.get st = _ := Smap.get_map_values s.lichen.stk
    (fun k => { k with batches := k.batches.map fun b => { b with queries := delSet b.queries n } }) st
  rw [State.stack, State.stack, Smap.getD, Smap.getD, h]
  cases s.lichen.stk.get st <;> rfl

theorem dropQuery_step (s : State) (n st : Nat) : ((dropQuery s n).stack st).step = (s.stack st).step := dropSweeps_step s n st

theorem finish_step (s : State) (n st pr cf x : Nat) : ((finish s n st pr cf).stack x).step = (s.stack x).step :=
  (step_of_lichen rfl x).trans (foldl_keeps (f := fun t q => dropRequests (dropSweeps t q) q) (fun t => (t.stack x).step)
    (fun t q => dropSweeps_step t q x) _ _)

theorem rerankEnd_step (s : State) (r : Rerank) (failed x : Nat) : ((rerankEnd s r failed).stack x).step = (s.stack x).step := by
  unfold rerankEnd
  split
  · rfl
  · dsimp only
    split
    · split <;> exact finish_step _ _ _ _ _ x
    · exact finish_step _ _ _ _ _ x

theorem startRerank_step (s : State) (n : Nat) (c : Cmd) (l : List LEnt) (ts : List Nat) (x : Nat) :
    ((startRerank s n c l ts).stack x).step = (s.stack x).step := by
  unfold startRerank
  split
  · dsimp only
    split
    · exact rerankEnd_step _ _ _ x
    · exact step_of_lichen (foldl_keeps State.lichen (by simp) _ _) x
  · exact rerankEnd_step _ _ _ x

theorem searchEnd_step (s : State) (n : Nat) (ls : List (Nat × Nat × List LEnt)) (mg su di mi sw : Bool) (x : Nat) :
    ((searchEnd s n ls mg su di mi sw).stack x).step = (s.stack x).step := by
  unfold searchEnd
  split
  · rfl
  · refine step_ite ((finish_step _ _ _ _ _ x).trans (step_of_lichen ?_ x))
      (step_ite ((finish_step _ _ _ _ _ x).trans (step_of_lichen ?_ x)) ((startRerank_step _ _ _ _ _ x).trans (step_of_lichen ?_ x))) <;>
    simp only [putResult, State.updCmd, State.mapHost_lichen, apply_ite State.lichen, State.bump_lichen, event_lichen, ite_self]

theorem mergeCheck_step (s : State) (n x : Nat) : ((mergeCheck s n).stack x).step = (s.stack x).step := by
  unfold mergeCheck
  split
  · rfl
  · split
    · rfl
    · dsimp only
      rw [searchEnd_step]
      exact step_of_lichen (by simp [apply_ite State.lichen]) x

theorem mergeList_step (s : State) (n node st : Nat) (l : List LEnt) (su : Bool) (x : Nat) :
    ((mergeList s n node st l su).stack x).step = (s.stack x).step := mergeCheck_step _ n x

theorem endQuery_step (s : State) (n x : Nat) : ((endQuery s n).stack x).step = (s.stack x).step := by
  unfold endQuery
  split
  · rfl
  · rename_i q _
    have hdrop : ((dropQuery (countFinal s q q.node) n).stack x).step = (s.stack x).step :=
      (dropQuery_step _ n x).trans (step_of_lichen (countFinal_keeps s q q.node).2 x)
    dsimp only
    split
    · exact hdrop
    · exact (step_of_lichen (sendList_keeps _ _ _ _ _ _ _ _).2 x).trans hdrop
    · refine (step_ite ?_ ?_).trans hdrop
      · rw [mergeList_step]
        exact step_of_lichen (by simp [State.updCmd, apply_ite State.lichen]) x
      · rw [searchEnd_step]
        exact step_of_lichen (by simp [apply_ite State.lichen]) x

theorem advanceQuery_step (s : State) (n x : Nat) : ((advanceQuery s n).stack x).step = (s.stack x).step := by
  unfold advanceQuery
  split
  · rfl
  · split
    · dsimp only
      split
      · exact (endQuery_step _ n x).trans (step_of_lichen (by simp) x)
      · exact step_of_lichen (by simp [State.updQuery]) x
    · rfl

theorem sweepsOver_step (s : State) (x : Nat) : ((sweepsOver s).stack x).step = (s.stack x).step := by
  unfold sweepsOver
  refine foldl_keeps (fun t => (t.stack x).step) (fun t e => ?_) _ s
  exact step_ite rfl (step_ite (advanceQuery_step _ _ x) rfl)

end Sys2Proof.Machine
end

section
/-! PROOF. O23, the rows of walks, sweeps, the stream list, rescoring and deadlines (06_search_walk R162 to R190, 07_lichen_units R206
to R211, 08_muslin_selection R231): one lemma or two for each row, and at the end the obligation. -/
namespace Sys2Proof.Machine
open Sys2Proof

/-! ### A walk's first frontier and its end (R162, R168, R172) -/

/-- The state holds a query, save for the requests that it awaits. -/
def HoldsQuery (n : Nat) (q : Query) (s : State) : Prop := ∃ l, s.host.queries.get n = some { q with remote := l }

theorem HoldsQuery.awaits {s t : State} {n : Nat} {q : Query} (h : HoldsQuery n q s) (ht : t.host.queries = s.host.queries) (i : Nat) :
    HoldsQuery n q (t.updQuery n fun x => { x with remote := x.remote ++ [i] }) := by
  obtain ⟨l, hl⟩ := h
  exact ⟨l ++ [i], by rw [updQuery_get, ht, hl]; rfl⟩

theorem sendScores_holdsQuery {s : State} {n : Nat} {q : Query} (slots : List Nat) (hq : s.host.queries.get n = some q) :
    HoldsQuery n q (sendScores s n slots) := by
  simp only [sendScores, hq]
  exact List.foldlRecOn (motive := HoldsQuery n q) _ _ ⟨q.remote, hq⟩ fun t ht g _ =>
    List.foldlRecOn (motive := HoldsQuery n q) _ _ ht fun u hu i _ => hu.awaits (sendRequest_keeps _ _ _ _ _ _ _).1 _

theorem setFrontier_holdsQuery {s : State} {n : Nat} {q : Query} (f : List Nat) (hq : s.host.queries.get n = some q) :
    HoldsQuery n { q with frontier := f, listLast := q.stream.bound.map (· / 2 ^ 64) } (setFrontier s n f) := by
  simp only [setFrontier, updQuery_get, hq, Option.map_some]
  exact sendScores_holdsQuery _ (by simp [hq])

theorem advanceQuery_walking {s : State} {n : Nat} {q : Query} (hq : s.host.queries.get n = some q)
    (h : q.walkDone = false ∨ q.freshDone = false) : advanceQuery s n = s := by
  rcases h with h | h <;> simp [advanceQuery, hq, h]

theorem queryTiers_of_rates {s : State} {n : Nat} {q : Query} {tiers : List Nat} (h : ∀ t ∈ tiers, zeroRate s q.part t = false)
    (go : State → State) : queryTiers s n q tiers go = go s := by
  rw [queryTiers, if_neg]
  simpa using h

theorem queryTwill_of_rate {s : State} {n : Nat} {q : Query} (h : zeroRate s q.part tTF = false) (go : State → State) :
    queryTwill s n q go = go s := by
  simp [queryTwill, h]

/-! ### WALK_START (R162, R164, R365) -/

section
variable {s : State} {n tile : Nat} {q : Query} {sh : Shard} (hq : s.host.queries.get n = some q) (hsh : shardOf s q.part q.index = some sh)
  (htile : q.tile = none) (hkind : q.kind ≠ .insert) (hplan : q.planned = true) (hsk : q.sketch ≠ []) (hlate : q.late = false)
  (h4 : s.blockOut 4 = false) (h6 : s.blockOut 6 = false) (hgives : tileGives (queryCfg s q) s tile q.part q.kind = true)
  (hunit : listUnit s tile ≠ none)
include hq hsh htile hkind hplan hsk hlate h4 h6 hgives hunit

theorem walkStart_withoutRoom (hroom : pagesTotal s q.part < pagesUsed s q.part + queryPages q) :
    walkStart s n tile = s.event .mslEvent 0 0 := by
  simp [walkStart, hq, hsh, htile, hkind, hplan, hsk, hlate, h4, h6, hgives, hunit, hroom]

theorem walkStart_withRoom (hroom : pagesUsed s q.part + queryPages q ≤ pagesTotal s q.part) (h1 : zeroRate s q.part tT1 = false)
    (hF : zeroRate s q.part tTF = false) :
    walkStart s n tile =
      if q.sweep then charge (s.updQuery n fun x => takeContext (queryCfg s q) s x tile) q.part tT1 32768
      else setFrontier (charge (s.updQuery n fun x => takeContext (queryCfg s q) s x tile) q.part tT1 32768) n sh.desc.entry := by
  have hrates : ∀ t ∈ [tT1], zeroRate s q.part t = false := by simpa using h1
  simp [walkStart, hq, hsh, htile, hkind, hplan, hsk, hlate, h4, h6, hgives, hunit, Nat.not_lt.2 hroom, queryTiers_of_rates hrates,
    queryTwill_of_rate hF]

theorem walkStart_obtainsTile (hroom : pagesUsed s q.part + queryPages q ≤ pagesTotal s q.part) (h1 : zeroRate s q.part tT1 = false)
    (hF : zeroRate s q.part tTF = false) :
    ∃ r, (walkStart s n tile).host.queries.get n = some r ∧ r.tile = some tile ∧ r.ctx = freeCtx s tile ∧
      r.unit = (listUnit s tile).getD 0 ∧ (q.sweep = false → r.frontier = sh.desc.entry) := by
  rw [walkStart_withRoom hq hsh htile hkind hplan hsk hlate h4 h6 hgives hunit hroom h1 hF]
  have hctx : (charge (s.updQuery n fun x => takeContext (queryCfg s q) s x tile) q.part tT1 32768).host.queries.get n =
      some (takeContext (queryCfg s q) s q tile) := by simp [hq]
  by_cases hsw : q.sweep = true
  · exact ⟨_, by rw [if_pos hsw, hctx], rfl, rfl, rfl, by simp [hsw]⟩
  · obtain ⟨l, hl⟩ := setFrontier_holdsQuery sh.desc.entry hctx
    exact ⟨_, by rw [if_neg hsw, hl], rfl, rfl, rfl, fun _ => rfl⟩

end

/-! ### WALK_ROUND_RETURN (R168, R186) -/

section
variable {s : State} {n : Nat} {q : Query} {sh : Shard} (hq : s.host.queries.get n = some q) (hsh : shardOf s q.part q.index = some sh)
  (hopen : ((roundState s sh q).queue.filter fun e => !e.expanded) = [])
include hq hsh hopen

theorem roundEnd_noOpenEntry : roundEnd s n = ((roundCharge s sh q).bump .wlkTRounds (q.tile.getD 0) 1).updQuery n
    fun _ => { roundState s sh q with walkDone := true } := by
  simp [roundEnd, hq, hsh, hopen]

theorem walkRoundReturn_walkEnds (hkind : q.kind = .search) (hready : roundReady q = true)
    (hrates : ∀ t ∈ [tT1, tT2, tT3], zeroRate s q.part t = false) (hF : zeroRate s q.part tTF = false) :
    walkRoundReturn s n = advanceQuery (((roundCharge s sh q).bump .wlkTRounds (q.tile.getD 0) 1).updQuery n
      fun _ => { roundState s sh q with walkDone := true }) n := by
  have hround : (roundState s sh q).kind = .search := hkind
  simp [walkRoundReturn, hq, hkind, hready, queryTiers_of_rates hrates, queryTwill_of_rate hF, roundEnd_noOpenEntry hq hsh hopen, hround]

end

/-! ### SWEEP_BATCH_START and SWEEP_STEP_END (R173 to R175, R206 to R211) -/

theorem issueStep_isSome {s : State} {st : Nat} {b : SweepBatch} {bs : List SweepBatch} (hb : (s.stack st).batches = b :: bs)
    (htodo : b.todo ≠ []) : ((issueStep s st).stack st).step.isSome = true := by
  unfold issueStep
  simp only [hb]
  split
  · contradiction
  · simp only [stack_updStack_same, Option.isSome_some]

theorem issueStep_noBatch {s : State} {st : Nat} (hb : (s.stack st).batches = []) : issueStep s st = s := by
  simp [issueStep, hb]

/-- The batch that one waiting query's sweep of the fresh ring is (R174, R175). -/
def freshBatch (sh : Shard) (q : Query) (n : Nat) : SweepBatch :=
  { part := q.part, index := q.index, fresh := true, queries := [n], todo := sweepSteps [(sh.desc.freshWin, 0)], done := []
    range := sweepRange sh [q] }

/-- The state in which one waiting query's fresh batch stands in its stack. -/
def withFreshBatch (s : State) (sh : Shard) (q : Query) (n : Nat) : State :=
  (s.mapHost fun h => { h with freshWait := [] }).updStack (sh.desc.freshWin / 80) fun k =>
    { k with batches := k.batches ++ [freshBatch sh q n] }

theorem sweepSteps_ne_nil (w : Nat × Nat) : sweepSteps [w] ≠ [] := List.cons_ne_nil _ _

section
variable {s : State} {n : Nat} {q : Query} {sh : Shard} (h5 : s.blockOut 5 = false) (hsh : shardOf s q.part q.index = some sh)
  (hwait : s.host.freshWait = [n]) (hq : s.host.queries.get n = some q) (htile : q.tile ≠ none) (hup : winUp s sh.desc.freshWin = true)
include h5 hsh hwait hq htile hup

theorem sweepBatchStart_fresh :
    sweepBatchStart s q.part q.index true = sweepsOver (if ((withFreshBatch s sh q n).stack (sh.desc.freshWin / 80)).step.isNone
      then issueStep (withFreshBatch s sh q n) (sh.desc.freshWin / 80) else withFreshBatch s sh q n) := by
  have htile' : q.tile.isSome = true := Option.isSome_iff_ne_none.2 htile
  have hclear : (s.mapHost fun h => { h with freshWait := h.freshWait.filter fun m => !decide (m = n) }) =
      s.mapHost fun h => { h with freshWait := [] } := by simp [State.mapHost, hwait]
  simp [sweepBatchStart, h5, hsh, hwait, hq, htile', hup, addSet, withFreshBatch, freshBatch, hclear]

theorem sweepBatchStart_startsStep (hstep : (s.stack (sh.desc.freshWin / 80)).step = none)
    (hbat : (s.stack (sh.desc.freshWin / 80)).batches = []) :
    ((sweepBatchStart s q.part q.index true).stack (sh.desc.freshWin / 80)).step.isSome = true := by
  have hu : (withFreshBatch s sh q n).stack (sh.desc.freshWin / 80) =
      { s.stack (sh.desc.freshWin / 80) with batches := [freshBatch sh q n] } := by
    rw [withFreshBatch, stack_updStack_same, mapHost_stack, hbat, List.nil_append]
  have hidle : ((withFreshBatch s sh q n).stack (sh.desc.freshWin / 80)).step.isNone = true := by rw [hu, hstep]; rfl
  rw [sweepBatchStart_fresh h5 hsh hwait hq htile hup, sweepsOver_step, if_pos hidle]
  exact issueStep_isSome (by rw [hu]) (sweepSteps_ne_nil _)

end

theorem stepEnd_running {s : State} {st : Nat} (hst : st < 6) (hstep : (s.stack st).step ≠ none) :
    stepEnd s st =
      let u := (s.stack st).gapOpen.foldl (fun s b => gapEnd s st (b % 1024)) s
      let v := (u.stack st).thresh.foldl (fun s t => threshApply s st t.1 t.2.1 t.2.2) u
      let banks := (v.lichen.queue.filter fun e => e.1 / 1024 == st && !e.2.isEmpty).map (·.1)
      let x := banks.foldl serveGap (v.updStack st fun k => { k with
        step := none, ran := [], own := false, thresh := [], gapOpen := banks, batches := batchesAfter k })
      let w := runLater st (x.stack st).later.length x
      if (w.stack st).step.isSome then w else issueStep w st := by
  simp [stepEnd, hst, hstep]

theorem stepEnd_idle {s : State} {st : Nat} (hst : st < 6) (hstep : (s.stack st).step ≠ none) (hgap : (s.stack st).gapOpen = [])
    (hthresh : (s.stack st).thresh = []) (hlater : (s.stack st).later = []) (hbat : (s.stack st).batches = [])
    (hqueue : s.lichen.queue = []) :
    ((stepEnd s st).stack st).step = none := by
  have hafter : batchesAfter (s.stack st) = [] := by simp [batchesAfter, hbat]
  have hnone : ((s.updStack st fun k => { k with
      step := none, ran := [], own := false, thresh := [], gapOpen := [], batches := batchesAfter k }).stack st).batches = [] := by
    rw [stack_updStack_same]
    exact hafter
  simp [stepEnd_running hst hstep, hgap, hthresh, hqueue, stack_updStack_same, hlater, runLater, issueStep_noBatch hnone]

/-! ### SWEEP_RESULT_RECORD and LIST_ENTRY_ARRIVE (R174, R231) -/

theorem sweepTake_get (s : State) (sh : Shard) {n : Nat} {q : Query} (r : SweepRec) (hq : s.host.queries.get n = some q) :
    (sweepTake s sh n q r).host.queries.get n = some { q with
      suspect := q.suspect || r.suspect
      partial_ := q.partial_ || (sweepPasses sh q r && (sweepEntry s sh q r).isNone)
      arrivals := if q.late || !sweepPasses sh q r then q.arrivals else q.arrivals ++ (sweepEntry s sh q r).toList } := by
  simp [sweepTake, apply_ite State.host, hq]

theorem sweepRecord_lastOfFifo {s u : State} {bank n : Nat} {r : SweepRec} {q : Query} {sh : Shard}
    (hfifo : s.lichen.fifo.getD bank [] = [r]) (hctx : ctxQuery s r.ctx = some n) (hq : s.host.queries.get n = some q)
    (hsh : shardOf s q.part q.index = some sh) (h2 : zeroRate s q.part tT2 = false) (h3 : zeroRate s q.part tT3 = false)
    (hu : u = s.mapLichen fun l => { l with fifo := l.fifo.del bank }) : sweepRecord s bank = sweepsOver (sweepTake u sh n q r) := by
  have hctx' : ctxQuery u r.ctx = some n := hu ▸ hctx
  have hsh' : shardOf u q.part q.index = some sh := hu ▸ hsh
  have hq' : u.host.queries.get n = some q := hu ▸ hq
  have h2' : zeroRate u q.part tT2 = false := hu ▸ h2
  have h3' : zeroRate u q.part tT3 = false := hu ▸ h3
  have hrates : ∀ t ∈ (if needsNorm sh.desc.numrec then [tT2, tT3] else [tT3]), zeroRate u q.part t = false := by
    split <;> simp [h2', h3']
  simp [sweepRecord, hfifo, ← hu, hctx', hq', hsh', queryTiers_of_rates hrates]

section
variable {s : State} {n : Nat} {q : Query} {e : LEnt} {l : List LEnt} (hq : s.host.queries.get n = some q) (harr : q.arrivals = e :: l)
  (h1 : zeroRate s q.part tT1 = false) (hbound : (q.stream.add e).1.bound = q.stream.bound)
include hq harr h1 hbound

theorem listArrive_sameBound : listArrive s n = advanceQuery (countList (chargeUnits
    (s.updQuery n fun _ => { q with arrivals := l, stream := (q.stream.add e).1 }) q.part tT1 1)
    q (b2n (q.stream.add e).2.1) (q.stream.add e).2.2.1 (q.stream.add e).2.2.2) n := by
  have hrates : ∀ t ∈ [tT1], zeroRate s q.part t = false := by simpa using h1
  simp [listArrive, hq, harr, queryTiers_of_rates hrates, hbound]

theorem listArrive_get (hwalk : q.walkDone = false) :
    (listArrive s n).host.queries.get n = some { q with arrivals := l, stream := (q.stream.add e).1 } := by
  have hget : (countList (chargeUnits (s.updQuery n fun _ => { q with arrivals := l, stream := (q.stream.add e).1 }) q.part tT1 1)
      q (b2n (q.stream.add e).2.1) (q.stream.add e).2.2.1 (q.stream.add e).2.2.2).host.queries.get n =
      some { q with arrivals := l, stream := (q.stream.add e).1 } := by simp [hq]
  rw [listArrive_sameBound hq harr h1 hbound, advanceQuery_walking hget (.inl hwalk), hget]

end

/-! ### RESCORE_READ_DONE (R186, R187, R589) -/

theorem rescored_node {s : State} (sh : Shard) {n : Nat} {q r : Query} (e : LEnt) (x : List Byte) (hr : s.host.queries.get n = some r) :
    ((rescored s sh n q e x).host.queries.get n).map (·.node) =
      some (q.node.add { e with key := exactKey sh.desc.numrec (exactDist sh.desc.numrec (exactRead sh.desc.numrec x) q.q) }).1 := by
  unfold rescored
  dsimp only
  rw [(countList_keeps _ _ _ _ _).1, updQuery_get, Option.map_map]
  split
  · simp [hr]
  · split <;> simp [hr]

section
variable {s : State} {n : Nat} {q : Query} {e f : LEnt} {l : List LEnt} {sh : Shard} (hq : s.host.queries.get n = some q)
  (hsh : shardOf s q.part q.index = some sh) (hreads : q.reads = some (e :: f :: l))
  (hrates : ∀ t ∈ [tT2, tT5], zeroRate s q.part t = false)
include hq hsh hreads hrates

theorem rescoreRead_readable {x : List Byte} (hx : exactOf sh e.slot = some x) :
    rescoreRead s n = rescored (chargeUnits (charge (s.updQuery n fun y => { y with reads := some (f :: l), done := y.done + 1 })
      q.part tT5 x.length) q.part tT2 1) sh n q e x := by
  simp [rescoreRead, hq, hreads, hsh, queryTiers_of_rates hrates, hx]

theorem rescoreRead_unreadable (hx : exactOf sh e.slot = none) :
    (rescoreRead s n).host.queries.get n = some { q with reads := some (f :: l), done := q.done + 1, partial_ := true } := by
  simp [rescoreRead, hq, hreads, hsh, queryTiers_of_rates hrates, hx]

end

/-! ### DEADLINE_EXPIRY and DEADLINE_GRACE_EXPIRY (R189, R190) -/

/-- A query whose deadline has passed, with the reads that are left to it. -/
def Query.pastDeadline (q : Query) (l : List LEnt) : Query :=
  { q with late := true, walkDone := true, freshDone := true, arrivals := [], remote := [], answers := [], frontier := [], reads := some l }

section
variable {s : State} {n : Nat} {q : Query} (hq : s.host.queries.get n = some q) (hkind : q.kind ≠ .insert) (hlate : q.late = false)
  (hdead : q.deadline ≠ 0) (htile : q.tile ≠ none)
include hq hkind hlate hdead htile

theorem deadline_get_walking (hreads : q.reads = none) (hl : (finalize q.stream).take q.topk ≠ []) :
    (deadline s n).host.queries.get n = some (q.pastDeadline ((finalize q.stream).take q.topk)) := by
  simp [deadline, hq, hkind, hlate, hdead, htile, hreads, hl, Query.pastDeadline]

theorem deadline_get_rescoring {l : List LEnt} (hreads : q.reads = some l) (hl : l.take (q.topk - q.done) ≠ []) :
    (deadline s n).host.queries.get n = some (q.pastDeadline (l.take (q.topk - q.done))) := by
  simp [deadline, hq, hkind, hlate, hdead, htile, hreads, hl, Query.pastDeadline]

end

theorem deadlineGrace_late {s : State} {n : Nat} {q : Query} (hq : s.host.queries.get n = some q) (hlate : q.late = true) :
    deadlineGrace s n = endQuery (s.updQuery n fun x => { x with reads := some [] }) n := by
  simp [deadlineGrace, hq, hlate]

theorem endQuery_served_gone {s : State} {n : Nat} {q : Query} (hq : s.host.queries.get n = some q) (hkind : q.kind = .served)
    (hwf : s.host.queries.wf = true) : (endQuery s n).host.queries.get n = none := by
  simp [endQuery, hq, hkind, dropQuery, Smap.get_del_same hwf]

/-! ### O23 -/

/-- Settles O23: each clause is the lemma above about the row's function, which `exec` of the row runs. -/
theorem walkRowsComplete : Obligations.WalkRowsComplete := by
  unfold Obligations.WalkRowsComplete
  refine ⟨?walkStart, ?roundReturn, ?batchStart, ?stepEnd, ?stepEndIdle, ?record, ?arrive, ?rescore, ?deadlineWalking, ?deadlineRescoring,
    ?grace, ?graceServed⟩
  case walkStart =>
    intro s n tile q sh hq hsh htile hkind hplan hsk hlate h4 h6 hgives hunit
    refine ⟨fun hroom h1 hF => ?_, fun hroom => ?_⟩
    · obtain ⟨r, hr⟩ := walkStart_obtainsTile hq hsh htile hkind hplan hsk hlate h4 h6 hgives hunit hroom h1 hF
      exact ⟨_, r, rfl, hr⟩
    · exact congrArg Host.Outcome.next (walkStart_withoutRoom hq hsh htile hkind hplan hsk hlate h4 h6 hgives hunit hroom)
  case roundReturn =>
    rintro s n q _ sh hq hsh hkind hready h1 h2 h3 hF rfl hopen
    have hrates : ∀ t ∈ [tT1, tT2, tT3], zeroRate s q.part t = false := by simp [h1, h2, h3]
    have hend := walkRoundReturn_walkEnds hq hsh hopen hkind hready hrates hF
    have hget : (((roundCharge s sh q).bump .wlkTRounds (q.tile.getD 0) 1).updQuery n
        fun _ => { roundState s sh q with walkDone := true }).host.queries.get n = some { roundState s sh q with walkDone := true } := by
      simp [hq]
    refine ⟨congrArg Host.Outcome.next hend, fun hfresh => ⟨_, congrArg Host.Outcome.next hend, ?_⟩⟩
    rw [advanceQuery_walking hget (.inr hfresh), hget]
  case batchStart =>
    rintro s _ _ _ n q sh h5 hsh hwait hq rfl rfl htile hup rfl
    exact ⟨congrArg Host.Outcome.next (sweepBatchStart_fresh h5 hsh hwait hq htile hup), fun hstep hbat =>
      ⟨_, rfl, sweepBatchStart_startsStep h5 hsh hwait hq htile hup hstep hbat⟩⟩
  case stepEnd =>
    rintro s _ _ _ st _ hst hstep rfl rfl rfl rfl
    exact congrArg (fun t => Host.Outcome.next (sweepsOver t)) (stepEnd_running hst hstep)
  case stepEndIdle =>
    intro s st hst hstep hgap hthresh hlater hbat hqueue
    exact ⟨_, rfl, (sweepsOver_step _ st).trans (stepEnd_idle hst hstep hgap hthresh hlater hbat hqueue)⟩
  case record =>
    rintro s _ bank n r q sh hfifo hctx hq hsh h2 h3 rfl
    exact ⟨congrArg Host.Outcome.next (sweepRecord_lastOfFifo hfifo hctx hq hsh h2 h3 rfl), sweepTake_get _ sh r hq⟩
  case arrive =>
    intro s n q e l hq harr h1 hbound
    exact ⟨congrArg Host.Outcome.next (listArrive_sameBound hq harr h1 hbound),
      fun hwalk => ⟨_, rfl, listArrive_get hq harr h1 hbound hwalk⟩⟩
  case rescore =>
    intro s n q e f l sh hq hsh hreads h2 h5
    have hrates : ∀ t ∈ [tT2, tT5], zeroRate s q.part t = false := by simp [h2, h5]
    refine ⟨_, rfl, fun x hx => ?_, fun hx => rescoreRead_unreadable hq hsh hreads hrates hx⟩
    have hread := rescoreRead_readable hq hsh hreads hrates hx
    exact ⟨hread, (congrArg (fun t : State => (t.host.queries.get n).map (·.node)) hread).trans
      (rescored_node (r := { q with reads := some (f :: l), done := q.done + 1 }) sh e x (by simp [hq]))⟩
  case deadlineWalking =>
    intro s n q e l hq hkind hlate hdead htile hreads hl
    exact ⟨_, rfl, hl ▸ deadline_get_walking hq hkind hlate hdead htile hreads (by simp [hl])⟩
  case deadlineRescoring =>
    intro s n q e l hq hkind hlate hdead htile hreads hdone
    have hleft : (e :: l).take (q.topk - q.done) ≠ [] := by simp [List.take_eq_nil_iff]; omega
    exact ⟨_, rfl, congrArg (Option.bind · (·.reads)) (deadline_get_rescoring hq hkind hlate hdead htile hreads hleft)⟩
  case grace =>
    intro s n q hq hlate
    exact congrArg Host.Outcome.next (deadlineGrace_late hq hlate)
  case graceServed =>
    intro s n q hq hlate hkind hwf
    refine ⟨_, congrArg Host.Outcome.next (deadlineGrace_late hq hlate), ?_⟩
    exact endQuery_served_gone (q := { q with reads := some [] }) (by simp [hq]) hkind (updQuery_wf hwf n _)

end Sys2Proof.Machine
end

section
/-! PROOF. What a fault of a Lichen stack, with its record and its messages, leaves alone (07_lichen_units R226, 19_faults_recovery R582
to R603): it runs alike whatever the rest of the Lichen part holds, and changes neither the image nor the clock. -/
namespace Sys2Proof.Machine
open Sys2Proof

/-! ### Operations that commute with a change of the Lichen part -/

theorem mapLichen_ite (c : Prop) [Decidable c] (a b : State) (f : Lichen → Lichen) :
    (if c then a.mapLichen f else b.mapLichen f) = (if c then a else b).mapLichen f := by
  split <;> rfl

theorem foldl_mapLichen {α : Type} {g : State → α → State} {f : Lichen → Lichen}
    (h : ∀ s x, g (s.mapLichen f) x = (g s x).mapLichen f) (l : List α) (s : State) :
    l.foldl g (s.mapLichen f) = (l.foldl g s).mapLichen f := by
  induction l generalizing s with
  | nil => rfl
  | cons x l ih => rw [List.foldl_cons, h, ih, List.foldl_cons]

section
variable (s : State) (f : Lichen → Lichen)

theorem sendMsix_mapLichen (fn v : Nat) : sendMsix (s.mapLichen f) fn v = (sendMsix s fn v).mapLichen f := by
  unfold sendMsix
  dsimp only
  rw [← mapLichen_ite, ← mapLichen_ite]
  rfl

theorem signalFn_mapLichen (fn : Nat) : signalFn (s.mapLichen f) fn = (signalFn s fn).mapLichen f := by
  unfold signalFn
  dsimp only
  rw [sendMsix_mapLichen, ← mapLichen_ite, ← mapLichen_ite]
  rfl

theorem event_mapLichen (r : Reg) (u b : Nat) : (s.mapLichen f).event r u b = (s.event r u b).mapLichen f := by
  unfold State.event
  dsimp only
  rw [← mapLichen_ite, ← foldl_mapLichen (fun t x => signalFn_mapLichen t f x)]
  rfl

theorem eventIf_mapLichen (c : Bool) (r : Reg) (u b : Nat) : (s.mapLichen f).eventIf c r u b = (s.eventIf c r u b).mapLichen f := by
  cases c
  · rfl
  · exact event_mapLichen s f r u b

theorem raiseEvent_mapLichen (b : Nat) (body : List Byte) : raiseEvent (s.mapLichen f) b body = (raiseEvent s b body).mapLichen f := by
  unfold raiseEvent
  rw [← mapLichen_ite]
  dsimp only
  rw [← eventIf_mapLichen]
  rfl

theorem queueLog_mapLichen (p : Nat) (r : LRec) : queueLog (s.mapLichen f) p r = (queueLog s p r).mapLichen f := by
  unfold queueLog
  rw [← mapLichen_ite, event_mapLichen]
  rfl

theorem ledgerAdd_mapLichen (p : Nat) (r : LRec) : ledgerAdd (s.mapLichen f) p r = (ledgerAdd s p r).mapLichen f := by
  unfold ledgerAdd
  dsimp only
  rw [← mapLichen_ite, ← queueLog_mapLichen, ← event_mapLichen, ← mapLichen_ite, ← raiseEvent_mapLichen, ← event_mapLichen]
  rfl

theorem faultRecord_mapLichen (cls kind u addr : Nat) (parts cmds : List Nat) :
    faultRecord (s.mapLichen f) cls kind u addr parts cmds = (faultRecord s cls kind u addr parts cmds).mapLichen f := by
  unfold faultRecord
  dsimp only
  rw [← foldl_mapLichen (fun t p => ?_), ← event_mapLichen]
  · rfl
  · rw [ledgerAdd_mapLichen]
    rfl

theorem setUnit_mapLichen (kind u : Nat) (r : UnitRec) : (s.mapLichen f).setUnit kind u r = (s.setUnit kind u r).mapLichen f := rfl

theorem unitEvent_mapLichen (kind u : Nat) : unitEvent (s.mapLichen f) kind u = (unitEvent s kind u).mapLichen f :=
  raiseEvent_mapLichen s f _ _

theorem retireUnit_mapLichen (kind u : Nat) : retireUnit (s.mapLichen f) kind u = (retireUnit s kind u).mapLichen f := by
  unfold retireUnit
  rw [← unitEvent_mapLichen, ← event_mapLichen]
  rfl

theorem unitParts_mapLichen (kind u : Nat) : unitParts (s.mapLichen f) kind u = unitParts s kind u := rfl

theorem enterOut_mapLichen (kind u : Nat) (auto tried : Bool) :
    enterOut (s.mapLichen f) kind u auto tried = (enterOut s kind u auto tried).mapLichen f := by
  unfold enterOut
  dsimp only
  rw [setUnit_mapLichen, unitEvent_mapLichen, unitParts_mapLichen, event_mapLichen, foldl_mapLichen (fun t p => event_mapLichen t f _ p _),
    retireUnit_mapLichen, mapLichen_ite]
  rfl

theorem placeModel_mapLichen (m : InForce) : placeModel (s.mapLichen f) m = (placeModel s m).mapLichen f := by
  have himage : storedImage (s.mapLichen f) m.digest = storedImage s m.digest := rfl
  unfold placeModel
  rw [himage]
  cases storedImage s m.digest with
  | none => rfl
  | some b =>
    dsimp only
    generalize hu : s.mapModel (fun x => { x with unavail := x.unavail.store 0 (4 * m.part + m.role) (placeCause s m b) }) = u
    have hf : (s.mapLichen f).mapModel (fun x => { x with
        unavail := x.unavail.store 0 (4 * m.part + m.role) (placeCause (s.mapLichen f) m b) }) = u.mapLichen f := by rw [← hu]; rfl
    have hspans : copySpans (u.mapLichen f) m b = copySpans u m b := rfl
    rw [hf, hspans, ← mapLichen_ite]
    cases copySpans u m b with
    | none => rfl
    | some l =>
      dsimp only
      rw [← mapLichen_ite]
      rfl

theorem placeModels_mapLichen : placeModels (s.mapLichen f) = (placeModels s).mapLichen f :=
  foldl_mapLichen (fun t m => placeModel_mapLichen t f m) _ s

end

/-- An operation that takes whatever the Lichen part is leaves it as it is. -/
theorem lichen_of_mapLichen {g : State → State} (h : ∀ s f, g (s.mapLichen f) = (g s).mapLichen f) (s : State) :
    (g s).lichen = s.lichen := by
  have hconst : g s = (g s).mapLichen fun _ => s.lichen := h s fun _ => s.lichen
  rw [hconst]
  rfl

@[simp] theorem faultRecord_lichen (s : State) (cls kind u addr : Nat) (parts cmds : List Nat) :
    (faultRecord s cls kind u addr parts cmds).lichen = s.lichen :=
  lichen_of_mapLichen (g := fun t => faultRecord t cls kind u addr parts cmds) (fun t f => faultRecord_mapLichen t f cls kind u addr parts cmds) s

@[simp] theorem enterOut_lichen (s : State) (kind u : Nat) (auto tried : Bool) : (enterOut s kind u auto tried).lichen = s.lichen :=
  lichen_of_mapLichen (g := fun t => enterOut t kind u auto tried) (fun t f => enterOut_mapLichen t f kind u auto tried) s

/-! ### What the record of a fault leaves alone -/

/-- The parts that no fault record, message or fence of a stack changes: the image, the clock and the counts of sweep steps. -/
structure SameBasis (s t : State) : Prop where
  img : t.img = s.img
  power : t.power = s.power
  sweepSteps : ∀ st < 6, t.ro .lchSSteps st = s.ro .lchSSteps st

/-- What a fault record leaves alone besides: the free values and the service states. -/
structure OnlyReports (s t : State) : Prop extends SameBasis s t where
  free : t.free = s.free
  units : t.ras.units = s.ras.units

theorem SameBasis.refl (s : State) : SameBasis s s := ⟨rfl, rfl, fun _ _ => rfl⟩

theorem SameBasis.trans {s t u : State} (h : SameBasis s t) (g : SameBasis t u) : SameBasis s u :=
  ⟨g.img.trans h.img, g.power.trans h.power, fun st hst => (g.sweepSteps st hst).trans (h.sweepSteps st hst)⟩

theorem OnlyReports.refl (s : State) : OnlyReports s s := ⟨.refl s, rfl, rfl⟩

theorem OnlyReports.trans {s t u : State} (h : OnlyReports s t) (g : OnlyReports t u) : OnlyReports s u :=
  ⟨h.toSameBasis.trans g.toSameBasis, g.free.trans h.free, g.units.trans h.units⟩

theorem OnlyReports.ite {c : Prop} [Decidable c] {s a b : State} (ha : OnlyReports s a) (hb : OnlyReports s b) :
    OnlyReports s (if c then a else b) := by
  split
  · exact ha
  · exact hb

theorem OnlyReports.foldl {α : Type} {g : State → α → State} (h : ∀ s x, OnlyReports s (g s x)) (l : List α) (s : State) :
    OnlyReports s (l.foldl g s) :=
  List.foldlRecOn (motive := OnlyReports s) l g (.refl s) fun t ht x _ => ht.trans (h t x)

/-- Registers and parts that stand as they were give the frame. -/
theorem OnlyReports.of_eq {s t : State} (himg : t.img = s.img) (hpower : t.power = s.power) (hro : t.regs.ro = s.regs.ro)
    (hfree : t.free = s.free) (hunits : t.ras.units = s.ras.units) : OnlyReports s t :=
  ⟨⟨himg, hpower, fun st _ => by rw [State.ro, hro, State.ro]⟩, hfree, hunits⟩

theorem OnlyReports.unit {s t : State} (h : OnlyReports s t) (kind u : Nat) : t.unit kind u = s.unit kind u := by
  rw [State.unit, h.units, State.unit]

theorem ro_bump_other {s : State} {r r' : Reg} {u u' : Nat} (n : Nat) (h : regKey r' u' ≠ regKey r u) :
    (s.bump r u n).ro r' u' = s.ro r' u' :=
  Smap.getD_put_ne _ _ _ _ _ h

theorem event_onlyReports (s : State) (r : Reg) (u b : Nat) : OnlyReports s (s.event r u b) :=
  .of_eq (by simp) (by simp) (by simp) (by simp) (by simp)

/-- The keys of a register that is listed after LCH_S_STEPS lie above the keys of the six counters of LCH_S_STEPS. -/
theorem bump_onlyReports (s : State) {r : Reg} (u n : Nat) (hr : Reg.lchSSteps.ctorIdx < r.ctorIdx) : OnlyReports s (s.bump r u n) := by
  refine ⟨⟨rfl, rfl, fun st hst => ro_bump_other n ?_⟩, rfl, rfl⟩
  unfold regKey
  omega

theorem raiseEvent_onlyReports (s : State) (b : Nat) (body : List Byte) : OnlyReports s (raiseEvent s b body) := by
  unfold raiseEvent State.eventIf
  refine .ite (.refl s) (.ite (.trans ?_ (event_onlyReports _ _ _ _)) ?_) <;> exact .of_eq rfl rfl rfl rfl rfl

theorem queueLog_onlyReports (s : State) (p : Nat) (r : LRec) : OnlyReports s (queueLog s p r) := by
  unfold queueLog
  exact .ite (event_onlyReports _ _ _ _) (.of_eq rfl rfl rfl rfl rfl)

theorem mapRas_onlyReports (s : State) {f : RasState → RasState} (h : ∀ x, (f x).units = x.units) : OnlyReports s (s.mapRas f) :=
  .of_eq rfl rfl rfl rfl (h s.ras)

theorem ledgerAdd_onlyReports (s : State) (p : Nat) (r : LRec) : OnlyReports s (ledgerAdd s p r) := by
  have hlost : ∀ t : State, OnlyReports t (raiseEvent ((t.bump .rasPLedgerLost p 1).event .rasPevent p 1) 7 (natLe 4 p)) := fun t =>
    ((bump_onlyReports t p 1 (by decide)).trans (event_onlyReports _ _ _ _)).trans (raiseEvent_onlyReports _ _ _)
  unfold ledgerAdd
  dsimp only
  refine .trans (.trans (.trans ?_ (.ite (hlost _) (.refl _))) (event_onlyReports _ _ _ _)) (.ite (.refl _) (queueLog_onlyReports _ _ _))
  exact mapRas_onlyReports s fun _ => rfl

theorem faultRecord_onlyReports (s : State) (cls kind u addr : Nat) (parts cmds : List Nat) :
    OnlyReports s (faultRecord s cls kind u addr parts cmds) := by
  unfold faultRecord
  dsimp only
  refine .trans (.trans ?_ (event_onlyReports _ _ _ _)) (.foldl (fun t p => ?_) _ _)
  · exact mapRas_onlyReports s fun _ => rfl
  · exact (ledgerAdd_onlyReports t p _).trans (mapRas_onlyReports _ fun _ => rfl)

theorem unitEvent_onlyReports (s : State) (kind u : Nat) : OnlyReports s (unitEvent s kind u) := raiseEvent_onlyReports s _ _

/-! ### Service states -/

theorem setUnit_sameBasis (s : State) (kind u : Nat) (r : UnitRec) : SameBasis s (s.setUnit kind u r) := ⟨rfl, rfl, fun _ _ => rfl⟩

theorem setUnit_unit_same (s : State) (kind u : Nat) {r : UnitRec} (h : r ≠ UnitRec.initial) : (s.setUnit kind u r).unit kind u = r :=
  Smap.getD_store_of_ne _ _ _ _ h

theorem setUnit_unit_ne (s : State) {kind u v : Nat} {r : UnitRec} (h : r ≠ UnitRec.initial) (hv : v ≠ u) :
    (s.setUnit kind u r).unit kind v = s.unit kind v :=
  Smap.getD_store_other _ _ _ _ _ h (by unfold unitKey; omega)

theorem unitRec_ne_initial {r : UnitRec} (h : r.st ≠ .inService) : r ≠ UnitRec.initial := fun e => h (e ▸ rfl)

theorem faulted_ne_initial (r : UnitRec) (cls : Nat) : r.faulted cls ≠ UnitRec.initial := fun e => by
  have hfaults : min 0xFFFFFFFF (r.faults + 1) = 0 := congrArg UnitRec.faults e
  omega

/-- A unit leaves service: its own record changes, and it is OUT or RETIRED. -/
theorem retireUnit_leaves (s : State) (kind u : Nat) : SameBasis s (retireUnit s kind u) ∧ (retireUnit s kind u).fencedUnit kind u = true ∧
    ∀ v ≠ u, (retireUnit s kind u).unit kind v = s.unit kind v := by
  have hne : ({ s.unit kind u with st := .retired, reenable := false } : UnitRec) ≠ UnitRec.initial := unitRec_ne_initial (by simp)
  have hrep := ((mapRas_onlyReports (s.setUnit kind u { s.unit kind u with st := .retired, reenable := false })
    (f := fun r => { r with retired := addSet r.retired (unitKey kind u) }) fun _ => rfl).trans
    (event_onlyReports _ .rasEvent 0 3)).trans (unitEvent_onlyReports _ kind u)
  refine ⟨(setUnit_sameBasis _ _ _ _).trans hrep.toSameBasis, ?_, fun v hv => (hrep.unit kind v).trans (setUnit_unit_ne s hne hv)⟩
  rw [State.fencedUnit, retireUnit, hrep.unit kind u, setUnit_unit_same s kind u hne]
  rfl

theorem enterOut_leaves (s : State) (kind u : Nat) (auto tried : Bool) :
    SameBasis s (enterOut s kind u auto tried) ∧ (enterOut s kind u auto tried).fencedUnit kind u = true ∧
    ∀ v ≠ u, (enterOut s kind u auto tried).unit kind v = s.unit kind v := by
  unfold enterOut
  dsimp only
  generalize hr : ({ s.unit kind u with
    st := .out, reenable := false, auto := auto, tries := (s.unit kind u).tries + b2n tried, joins := false } : UnitRec) = r
  have hst : r.st = .out := by rw [← hr]
  have hne : r ≠ UnitRec.initial := unitRec_ne_initial (by simp [hst])
  have hrep : OnlyReports (s.setUnit kind u r) ((unitParts (unitEvent (s.setUnit kind u r) kind u) kind u).foldl
      (fun s p => s.event .rasPevent p 2) ((unitEvent (s.setUnit kind u r) kind u).event .rasEvent 0 1)) :=
    ((unitEvent_onlyReports _ kind u).trans (event_onlyReports _ .rasEvent 0 1)).trans (.foldl (fun t p => event_onlyReports t _ p _) _ _)
  have hbasis := (setUnit_sameBasis s kind u r).trans hrep.toSameBasis
  have hother : ∀ v ≠ u, _ = s.unit kind v := fun v hv => (hrep.unit kind v).trans (setUnit_unit_ne s hne hv)
  split
  · obtain ⟨hretired, hfenced, hunits⟩ := retireUnit_leaves _ kind u
    exact ⟨hbasis.trans hretired, hfenced, fun v hv => (hunits v hv).trans (hother v hv)⟩
  · refine ⟨hbasis, ?_, hother⟩
    rw [State.fencedUnit, hrep.unit kind u, setUnit_unit_same s kind u hne, hst]
    rfl

/-! ### A fault of a Lichen stack (R226, R589) -/

/-- The state with other times of the last clean checks. -/
def State.setLastClean (s : State) (m : Smap Nat) : State := s.mapLichen fun l => { l with lastClean := m }

theorem placeModel_keeps (s : State) (m : InForce) : (placeModel s m).regs = s.regs ∧ (placeModel s m).img = s.img ∧
    (placeModel s m).power = s.power ∧ (placeModel s m).ras = s.ras := by
  unfold placeModel
  split
  · simp
  · dsimp only
    split
    · simp
    · split
      · simp
      · split <;> simp

theorem placeModels_keeps (s : State) : (placeModels s).regs = s.regs ∧ (placeModels s).img = s.img ∧
    (placeModels s).power = s.power ∧ (placeModels s).ras = s.ras :=
  ⟨foldl_keeps State.regs (fun t m => (placeModel_keeps t m).1) _ s, foldl_keeps State.img (fun t m => (placeModel_keeps t m).2.1) _ s,
    foldl_keeps State.power (fun t m => (placeModel_keeps t m).2.2.1) _ s, foldl_keeps State.ras (fun t m => (placeModel_keeps t m).2.2.2) _ s⟩

@[simp] theorem placeModels_lichen (s : State) : (placeModels s).lichen = s.lichen := lichen_of_mapLichen placeModels_mapLichen s

/-- A stack made idle, with the requests that wait at its banks dropped. -/
def idleStack (s : State) (st : Nat) : State :=
  s.mapLichen fun l => { l with stk := l.stk.put st Stack.idle, queue := l.queue.filter fun e => e.1 / 1024 != st }

/-- The work of a fenced stack dropped, with the CRC shadow table rebuilt where the stack held it: `stackWork` before the
copies of models and the latents. -/
def dropStack (s : State) (st : Nat) : State :=
  (if heldShadow (idleStack s st) st then rebuildShadow (idleStack s st) else idleStack s st).mapHost fun h => { h with
    queries := ((s.stack st).batches.flatMap (·.queries)).foldl (fun m n => m.upd n fun q => { q with partial_ := true }) h.queries }

theorem stackWork_eq (s : State) (st : Nat) :
    stackWork s st = dropLatents (placeModels (copiesLeave (dropStack s st) fun w => w / 80 == st)) st := rfl

theorem dropStack_setLastClean (s : State) (st : Nat) (m : Smap Nat) :
    dropStack (s.setLastClean m) st = (dropStack s st).setLastClean m := by
  have hidle : idleStack (s.setLastClean m) st = (idleStack s st).setLastClean m := rfl
  have hheld : heldShadow ((idleStack s st).setLastClean m) st = heldShadow (idleStack s st) st := rfl
  have hrebuild : rebuildShadow ((idleStack s st).setLastClean m) = (rebuildShadow (idleStack s st)).setLastClean m := rfl
  unfold dropStack
  rw [hidle, hheld, hrebuild, State.setLastClean, State.setLastClean, mapLichen_ite]
  rfl

theorem stackWork_setLastClean (s : State) (st : Nat) (m : Smap Nat) :
    stackWork (s.setLastClean m) st = (stackWork s st).setLastClean m := by
  have hcopies : ∀ (t : State) (w : Nat → Bool), copiesLeave (t.setLastClean m) w = (copiesLeave t w).setLastClean m := fun _ _ => rfl
  have hplace : ∀ t : State, placeModels (t.setLastClean m) = (placeModels t).setLastClean m := fun t => placeModels_mapLichen t _
  have hlatents : ∀ t : State, dropLatents (t.setLastClean m) st = (dropLatents t st).setLastClean m := fun _ => rfl
  rw [stackWork_eq, stackWork_eq, dropStack_setLastClean, hcopies, hplace, hlatents]

theorem dropStack_keeps (s : State) (st : Nat) : (dropStack s st).regs = s.regs ∧ (dropStack s st).img = s.img ∧
    (dropStack s st).power = s.power ∧ (dropStack s st).ras = s.ras ∧ (dropStack s st).lichen.stk = s.lichen.stk.put st Stack.idle ∧
    (dropStack s st).lichen.reports = s.lichen.reports ∧ (dropStack s st).lichen.lastClean = s.lichen.lastClean := by
  unfold dropStack
  split <;> exact ⟨rfl, rfl, rfl, rfl, rfl, rfl, rfl⟩

theorem modelsAndLatents_keep (s : State) (w : Nat → Bool) (st : Nat) :
    let t := dropLatents (placeModels (copiesLeave s w)) st
    t.regs = s.regs ∧ t.img = s.img ∧ t.power = s.power ∧ t.ras = s.ras ∧ t.lichen = s.lichen := by
  obtain ⟨hregs, himg, hpower, hras⟩ := placeModels_keeps (copiesLeave s w)
  simp only [dropLatents, State.mapShards_regs, State.mapShards_img, State.mapShards_power, State.mapShards_ras, State.mapShards_lichen,
    hregs, himg, hpower, hras, placeModels_lichen]
  exact ⟨rfl, rfl, rfl, rfl, rfl⟩

theorem stackWork_keeps (s : State) (st : Nat) : SameBasis s (stackWork s st) ∧ (stackWork s st).ras = s.ras ∧
    (stackWork s st).lichen.stk = s.lichen.stk.put st Stack.idle ∧ (stackWork s st).lichen.reports = s.lichen.reports ∧
    (stackWork s st).lichen.lastClean = s.lichen.lastClean := by
  obtain ⟨hregs, himg, hpower, hras, hstk, hreports, hclean⟩ := dropStack_keeps s st
  obtain ⟨hregs', himg', hpower', hras', hlichen⟩ := modelsAndLatents_keep (dropStack s st) (fun w => w / 80 == st) st
  rw [stackWork_eq, hlichen]
  exact ⟨⟨himg'.trans himg, hpower'.trans hpower, fun k _ => by rw [State.ro, hregs', hregs, State.ro]⟩, hras'.trans hras, hstk, hreports,
    hclean⟩

/-- The fault of a stack recorded, before the stack leaves service. -/
def stackFaulted (s : State) (u cls addr : Nat) : State :=
  (faultRecord s cls 0x08 u addr (unitParts s 0x08 u) []).setUnit 0x08 u ((s.unit 0x08 u).faulted cls)

/-- How a stack whose fault is recorded leaves service, by the service state in which the fault met it (R582). -/
def stackLeaves (t : State) (u : Nat) (auto : Bool) : SvcSt → State
  | .inService | .draining => stackWork (enterOut t 0x08 u auto false) u
  | .returning | .waiting => enterOut t 0x08 u auto true
  | .out | .retired => t

theorem unitFault_stack {u : Nat} (hu : u < 6) (s : State) (cls addr : Nat) (auto : Bool) :
    unitFault s 0x08 u cls addr auto = stackLeaves (stackFaulted s u cls addr) u auto (s.unit 0x08 u).st := by
  have hcount : ¬ u ≥ unitCount 0x08 := Nat.not_le_of_lt hu
  unfold unitFault stackLeaves
  rw [if_neg hcount]
  dsimp only
  cases (s.unit 0x08 u).st <;> rfl

theorem unitFault_noStack {u : Nat} (hu : 6 ≤ u) (s : State) (cls addr : Nat) (auto : Bool) : unitFault s 0x08 u cls addr auto = s :=
  if_pos hu

theorem unitFault_setLastClean (s : State) (u cls addr : Nat) (auto : Bool) (m : Smap Nat) :
    unitFault (s.setLastClean m) 0x08 u cls addr auto = (unitFault s 0x08 u cls addr auto).setLastClean m := by
  rcases Nat.lt_or_ge u 6 with hu | hu
  · have hunit : (s.setLastClean m).unit 0x08 u = s.unit 0x08 u := rfl
    have hfaulted : stackFaulted (s.setLastClean m) u cls addr = (stackFaulted s u cls addr).setLastClean m := by
      rw [stackFaulted, hunit, State.setLastClean, unitParts_mapLichen, faultRecord_mapLichen, setUnit_mapLichen]
      rfl
    have hout : ∀ t tried, enterOut (t.setLastClean m) 0x08 u auto tried = (enterOut t 0x08 u auto tried).setLastClean m :=
      fun t tried => enterOut_mapLichen t _ 0x08 u auto tried
    rw [unitFault_stack hu, unitFault_stack hu, hfaulted, hunit]
    cases (s.unit 0x08 u).st <;> simp only [stackLeaves, hout, stackWork_setLastClean]
  · rw [unitFault_noStack hu, unitFault_noStack hu]

/-- What a fault of a stack leaves behind: the stack is fenced, and idle unless it was fenced before. -/
structure StackFault (u : Nat) (s t : State) : Prop where
  basis : SameBasis s t
  fenced : t.fencedUnit 0x08 u = true
  others : ∀ v ≠ u, t.unit 0x08 v = s.unit 0x08 v
  stk : t.lichen.stk = s.lichen.stk ∨ t.lichen.stk = s.lichen.stk.put u Stack.idle
  reports : t.lichen.reports = s.lichen.reports
  lastClean : t.lichen.lastClean = s.lichen.lastClean

theorem StackFault.of_enterOut {u : Nat} {s t : State} (hbasis : SameBasis s t) (hothers : ∀ v ≠ u, t.unit 0x08 v = s.unit 0x08 v)
    (hlichen : t.lichen = s.lichen) (auto tried : Bool) : StackFault u s (enterOut t 0x08 u auto tried) := by
  obtain ⟨hb, hfenced, ho⟩ := enterOut_leaves t 0x08 u auto tried
  have hl := (enterOut_lichen t 0x08 u auto tried).trans hlichen
  exact ⟨hbasis.trans hb, hfenced, fun v hv => (ho v hv).trans (hothers v hv), .inl (by rw [hl]), by rw [hl], by rw [hl]⟩

theorem StackFault.after_stackWork {u : Nat} {s t : State} (h : StackFault u s t) (hlichen : t.lichen = s.lichen) :
    StackFault u s (stackWork t u) := by
  obtain ⟨hb, hras, hstk, hreports, hclean⟩ := stackWork_keeps t u
  have hunit : ∀ v, (stackWork t u).unit 0x08 v = t.unit 0x08 v := fun v => by rw [State.unit, hras, State.unit]
  have hfenced : (stackWork t u).fencedUnit 0x08 u = true := by
    rw [State.fencedUnit, hunit]
    exact h.fenced
  exact ⟨h.basis.trans hb, hfenced, fun v hv => (hunit v).trans (h.others v hv), .inr (by rw [hstk, hlichen]), by rw [hreports, hlichen],
    by rw [hclean, hlichen]⟩

theorem unitFault_stackFault {u : Nat} (hu : u < 6) (s : State) (cls addr : Nat) (auto : Bool) :
    StackFault u s (unitFault s 0x08 u cls addr auto) := by
  have hne := faulted_ne_initial (s.unit 0x08 u) cls
  have hrec := faultRecord_onlyReports s cls 0x08 u addr (unitParts s 0x08 u) []
  have hbasis : SameBasis s (stackFaulted s u cls addr) := hrec.toSameBasis.trans (setUnit_sameBasis _ _ _ _)
  have hothers : ∀ v ≠ u, (stackFaulted s u cls addr).unit 0x08 v = s.unit 0x08 v := fun v hv =>
    (setUnit_unit_ne _ hne hv).trans (hrec.unit 0x08 v)
  have hlichen : (stackFaulted s u cls addr).lichen = s.lichen := faultRecord_lichen _ _ _ _ _ _ _
  have hstay : (s.unit 0x08 u).st = .out ∨ (s.unit 0x08 u).st = .retired → StackFault u s (stackFaulted s u cls addr) := fun hst => by
    have hunit : (stackFaulted s u cls addr).unit 0x08 u = (s.unit 0x08 u).faulted cls := setUnit_unit_same _ _ _ hne
    refine ⟨hbasis, ?_, hothers, .inl (by rw [hlichen]), by rw [hlichen], by rw [hlichen]⟩
    rw [State.fencedUnit, hunit]
    rcases hst with hst | hst <;> simp [UnitRec.faulted, hst]
  rw [unitFault_stack hu]
  cases hst : (s.unit 0x08 u).st with
  | inService | draining =>
    exact (StackFault.of_enterOut hbasis hothers hlichen auto false).after_stackWork ((enterOut_lichen _ _ _ _ _).trans hlichen)
  | returning | waiting => exact .of_enterOut hbasis hothers hlichen auto true
  | out => exact hstay (.inl hst)
  | retired => exact hstay (.inr hst)

end Sys2Proof.Machine
end

section
/-! PROOF. Row groups found damaged and row groups checked (07_lichen_units R221 to R226): a list of checks is the same as its checks
one by one, and checks leave the steps and gaps of a stack alone unless they fence it. -/
namespace Sys2Proof
variable {α : Type}

/-! ### Many keys of a table at once -/

/-- Keys above the first one of a table are written behind it. -/
theorem Smap.foldl_put_behind (x : α) (k : Nat) (v : α) (t : Smap α) {l : List Nat} (h : ∀ i ∈ l, k < i) :
    l.foldl (fun m i => Smap.put m i x) ((k, v) :: t) = (k, v) :: l.foldl (fun m i => Smap.put m i x) t := by
  induction l generalizing t with
  | nil => rfl
  | cons i l ih =>
    have hi : k < i := h i List.mem_cons_self
    rw [List.foldl_cons, Smap.put, if_neg (by omega), if_neg (by omega), ih _ fun j hj => h j (List.mem_cons_of_mem _ hj)]
    rfl

/-- In one pass over the table or key by key: rising keys are written the same, in any table. -/
theorem Smap.putRun_eq_foldl (x : α) {n : Nat} {l : List Nat} {m : Smap α} (hn : l.length + m.length ≤ n) (hl : l.Pairwise (· < ·)) :
    Smap.putRun x n l m = l.foldl (fun m i => m.put i x) m := by
  induction n generalizing l m with
  | zero =>
    obtain rfl : l = [] := List.length_eq_zero_iff.1 (by omega)
    rfl
  | succ n ih =>
    cases l with
    | nil => rfl
    | cons i l =>
      rw [List.pairwise_cons] at hl
      cases m with
      | nil => rw [Smap.putRun, ih (by simpa using hn) hl.2, List.foldl_cons, Smap.put, Smap.foldl_put_behind x i x [] hl.1]
      | cons e t =>
        obtain ⟨k, v⟩ := e
        simp only [List.length_cons] at hn
        rw [Smap.putRun, List.foldl_cons, Smap.put]
        split
        · rw [if_neg (by omega), ih (by simp only [List.length_cons]; omega) hl.2, Smap.foldl_put_behind _ _ _ _ hl.1]
        · split
          · next hk => rw [ih (by omega) hl.2, ← hk, Smap.foldl_put_behind _ _ _ _ hl.1]
          · have hki : k < i := by omega
            rw [ih (by simp only [List.length_cons]; omega) (List.pairwise_cons.2 hl), List.foldl_cons,
              Smap.foldl_put_behind _ _ _ _ fun j hj => Nat.lt_trans hki (hl.1 j hj)]

theorem risingRuns_cons_cases (i : Nat) (l : List Nat) :
    risingRuns (i :: l) = [i] :: risingRuns l ∨
      ∃ j r t, i < j ∧ risingRuns l = (j :: r) :: t ∧ risingRuns (i :: l) = (i :: j :: r) :: t := by
  rw [risingRuns]
  split
  · next j r t h =>
    split
    · next hij => exact .inr ⟨j, r, t, hij, h, rfl⟩
    · exact .inl (by rw [h])
  · exact .inl rfl

theorem risingRuns_rise (l : List Nat) : ∀ r ∈ risingRuns l, r.Pairwise (· < ·) := by
  induction l with
  | nil => intro r hr; cases hr
  | cons i l ih =>
    rcases risingRuns_cons_cases i l with h | ⟨j, r, t, hij, hl, h⟩
    · rw [h, List.forall_mem_cons]
      exact ⟨List.pairwise_singleton _ i, ih⟩
    · rw [hl, List.forall_mem_cons] at ih
      rw [h, List.forall_mem_cons]
      refine ⟨List.pairwise_cons.2 ⟨fun k hk => ?_, ih.1⟩, ih.2⟩
      rcases List.mem_cons.1 hk with rfl | hk
      · exact hij
      · exact Nat.lt_trans hij ((List.pairwise_cons.1 ih.1).1 k hk)

theorem risingRuns_flatten (l : List Nat) : (risingRuns l).flatten = l := by
  induction l with
  | nil => rfl
  | cons i l ih =>
    rcases risingRuns_cons_cases i l with h | ⟨j, r, t, -, hl, h⟩
    · rw [h, List.flatten_cons, ih, List.singleton_append]
    · rw [hl, List.flatten_cons] at ih
      rw [h, List.flatten_cons, List.cons_append, ih]

theorem Smap.putAll_eq_foldl (m : Smap α) (l : List Nat) (x : α) : m.putAll l x = l.foldl (fun m i => m.put i x) m := by
  have hruns : ∀ (rs : List (List Nat)) (m : Smap α), (∀ r ∈ rs, r.Pairwise (· < ·)) →
      rs.foldl (fun m r => Smap.putRun x (r.length + m.length) r m) m = rs.flatten.foldl (fun m i => m.put i x) m := by
    intro rs
    induction rs with
    | nil => intros; rfl
    | cons r rs ih =>
      intro m h
      rw [List.foldl_cons, Smap.putRun_eq_foldl x le_rfl (h r List.mem_cons_self), ih _ fun q hq => h q (List.mem_cons_of_mem _ hq),
        List.flatten_cons, List.foldl_append]
  rw [Smap.putAll, hruns _ _ (risingRuns_rise l), risingRuns_flatten]

theorem Smap.getD_putAll_of_notMem {l : List Nat} {i : Nat} (h : i ∉ l) (m : Smap α) (x d : α) : (m.putAll l x).getD i d = m.getD i d := by
  rw [Smap.putAll_eq_foldl]
  exact List.foldlRecOn (motive := fun a : Smap α => a.getD i d = m.getD i d) l _ rfl fun a ha j hj =>
    (Smap.getD_put_ne a j i x d (ne_of_mem_of_not_mem hj h).symm).trans ha

theorem Smap.putAll_append (m : Smap α) (l r : List Nat) (x : α) : m.putAll (l ++ r) x = (m.putAll l x).putAll r x := by
  simp only [Smap.putAll_eq_foldl, List.foldl_append]

end Sys2Proof

namespace Sys2Proof.Machine
open Sys2Proof

/-! ### A row group found damaged (R223, R224, R226) -/

/-- A damaged row group listed in its stack and in the error ring, with its shard's queries suspect: `rgDamage` before the fault
record, for a time `t0` of the last clean check. -/
def listDamage (s : State) (rg src t0 : Nat) : State :=
  let w := rg / 2 ^ 18
  let n := s.lichen.errNext
  let now := rtc s
  let ws := [(0, errWord0 rg src 0), (1, bits t0 0 32), (2, bits t0 32 32), (3, bits now 0 32), (4, bits now 32 32),
    (5, (((winShard s w).map (·.part)).getD 0) + (((winShard s w).map (·.index)).getD 0) * 64), (6, 0), (7, 0)]
  let t := (s.updStack (w / 80) fun k => { k with
    damage := k.damage ++ [{ win := w, rg := rg % 2 ^ 18, st := .suspect, record := n }] }).mapLichen fun l => { l with
      errRing := ws.foldl (fun m x => errWord m n x.1 x.2) l.errRing, errNext := (n + 1) % 64 }
  match winShard s w with
  | none => t
  | some h => t.mapHost fun x => { x with queries := x.queries.map fun e =>
      (e.1, if e.2.part = h.part ∧ e.2.index = h.index ∧ e.2.kind ≠ .insert then { e.2 with suspect := true } else e.2) }

/-- The owner of a window of T2, where it is a partition. -/
def windowParts (s : State) (w : Nat) : List Nat :=
  if cfgWinOwner s.img.cfg w < 64 then [cfgWinOwner s.img.cfg w] else []

/-- A row group detected as damaged is known already, or is one too many for its stack, or is listed and recorded. -/
theorem rgDamage_eq (s : State) (rg src : Nat) : rgDamage s rg src =
    if rgDirty s rg then s
    else if (s.stack (rg / 2 ^ 18 / 80)).damage.length ≥ 64 then
      unitFault s 0x08 (rg / 2 ^ 18 / 80) 0x06 (0x020000000000 + 4096 * rg) true
    else (faultRecord (listDamage s rg src (s.lichen.lastClean.getD rg 0)) 0x06 0 0 (0x020000000000 + 4096 * rg)
      (windowParts (listDamage s rg src (s.lichen.lastClean.getD rg 0)) (rg / 2 ^ 18)) []).event .lchEvent 0 0 := rfl

theorem listDamage_setLastClean (s : State) (rg src t0 : Nat) (m : Smap Nat) :
    listDamage (s.setLastClean m) rg src t0 = (listDamage s rg src t0).setLastClean m := by
  have hshard : winShard (s.setLastClean m) (rg / 2 ^ 18) = winShard s (rg / 2 ^ 18) := rfl
  unfold listDamage
  dsimp only
  rw [hshard]
  cases winShard s (rg / 2 ^ 18) <;> rfl

theorem listDamage_keeps (s : State) (rg src t0 : Nat) : ∃ f, (∀ k, (f k).step = k.step ∧ (f k).gapOpen = k.gapOpen) ∧
    (listDamage s rg src t0).lichen.stk = s.lichen.stk.adj (rg / 2 ^ 18 / 80) Stack.idle f ∧
    (listDamage s rg src t0).lichen.reports = s.lichen.reports ∧
    (listDamage s rg src t0).lichen.lastClean = s.lichen.lastClean ∧ OnlyReports s (listDamage s rg src t0) := by
  refine ⟨fun k => { k with
    damage := k.damage ++ [{ win := rg / 2 ^ 18, rg := rg % 2 ^ 18, st := .suspect, record := s.lichen.errNext }] }, fun _ => ⟨rfl, rfl⟩, ?_⟩
  unfold listDamage
  dsimp only
  split <;> exact ⟨rfl, rfl, rfl, .of_eq rfl rfl rfl rfl rfl⟩

theorem rgDamage_setLastClean {s : State} {rg : Nat} (src : Nat) {m : Smap Nat} (h : m.getD rg 0 = s.lichen.lastClean.getD rg 0) :
    rgDamage (s.setLastClean m) rg src = (rgDamage s rg src).setLastClean m := by
  have hdirty : rgDirty (s.setLastClean m) rg = rgDirty s rg := rfl
  have hstack : ∀ st, (s.setLastClean m).stack st = s.stack st := fun _ => rfl
  have htime : (s.setLastClean m).lichen.lastClean.getD rg 0 = s.lichen.lastClean.getD rg 0 := h
  have hparts : ∀ (t : State) w, windowParts (t.setLastClean m) w = windowParts t w := fun _ _ => rfl
  have hrec : ∀ (t : State) parts, (faultRecord (t.setLastClean m) 0x06 0 0 (0x020000000000 + 4096 * rg) parts []).event .lchEvent 0 0 =
      ((faultRecord t 0x06 0 0 (0x020000000000 + 4096 * rg) parts []).event .lchEvent 0 0).setLastClean m := fun t parts => by
    rw [State.setLastClean, faultRecord_mapLichen, event_mapLichen, State.setLastClean]
  rw [rgDamage_eq, rgDamage_eq, hdirty, hstack, htime, listDamage_setLastClean, hparts, hrec, unitFault_setLastClean]
  split
  · rfl
  · split <;> rfl

/-! ### What checks and steps leave of a stack -/

/-- What checks of row groups and the part of a step leave alone. The step and the open gaps of stack `st` stand, unless its
damage has fenced it. -/
structure StackKept (st : Nat) (s t : State) : Prop extends SameBasis s t where
  reports : t.lichen.reports = s.lichen.reports
  fenced : s.fencedUnit 0x08 st = true → t.fencedUnit 0x08 st = true
  work : ((t.stack st).step = (s.stack st).step ∧ (t.stack st).gapOpen = (s.stack st).gapOpen) ∨
    ((t.stack st).step = none ∧ (t.stack st).gapOpen = [] ∧ t.fencedUnit 0x08 st = true)

section
variable {st : Nat} {s t u : State}

theorem StackKept.refl (st : Nat) (s : State) : StackKept st s s := ⟨.refl s, rfl, id, .inl ⟨rfl, rfl⟩⟩

theorem StackKept.trans (h : StackKept st s t) (g : StackKept st t u) : StackKept st s u := by
  refine ⟨h.toSameBasis.trans g.toSameBasis, g.reports.trans h.reports, fun hf => g.fenced (h.fenced hf), ?_⟩
  rcases g.work with ⟨hstep, hgap⟩ | hidle
  · rcases h.work with ⟨hstep', hgap'⟩ | ⟨hstep', hgap', hf⟩
    · exact .inl ⟨hstep.trans hstep', hgap.trans hgap'⟩
    · exact .inr ⟨hstep.trans hstep', hgap.trans hgap', g.fenced hf⟩
  · exact .inr hidle

/-- Reports, beside a change of the Lichen part that leaves the stack's work and the disagreement reports. -/
theorem StackKept.of_onlyReports (h : OnlyReports s t) (hreports : t.lichen.reports = s.lichen.reports)
    (hwork : (t.stack st).step = (s.stack st).step ∧ (t.stack st).gapOpen = (s.stack st).gapOpen) : StackKept st s t :=
  ⟨h.toSameBasis, hreports, fun hf => by rwa [State.fencedUnit, h.unit], .inl hwork⟩

theorem StackKept.of_lichen (h : OnlyReports s t) (hlichen : t.lichen = s.lichen) : StackKept st s t :=
  .of_onlyReports h (by rw [hlichen]) (by simp only [State.stack, hlichen, and_self])

theorem mapLichen_onlyReports (s : State) (f : Lichen → Lichen) : OnlyReports s (s.mapLichen f) := .of_eq rfl rfl rfl rfl rfl

/-- A change of one stack that leaves every step and gap leaves those of stack `st`, whichever stack it is. -/
theorem work_of_adj {i : Nat} {f : Stack → Stack} (hf : ∀ k, (f k).step = k.step ∧ (f k).gapOpen = k.gapOpen)
    (h : t.lichen.stk = s.lichen.stk.adj i Stack.idle f) (st : Nat) :
    (t.stack st).step = (s.stack st).step ∧ (t.stack st).gapOpen = (s.stack st).gapOpen := by
  rw [State.stack, h, Smap.adj]
  rcases eq_or_ne st i with rfl | hne
  · rw [Smap.getD_put_same]
    exact hf _
  · rw [Smap.getD_put_ne _ _ _ _ _ hne]
    exact ⟨rfl, rfl⟩

theorem StackFault.kept {i : Nat} (h : StackFault i s t) (st : Nat) : StackKept st s t := by
  have hfenced : s.fencedUnit 0x08 st = true → t.fencedUnit 0x08 st = true := fun hf => by
    rcases eq_or_ne st i with rfl | hne
    · exact h.fenced
    · rwa [State.fencedUnit, h.others st hne]
  refine ⟨h.basis, h.reports, hfenced, ?_⟩
  rcases h.stk with hstk | hstk
  · exact .inl (by simp only [State.stack, hstk, and_self])
  · rcases eq_or_ne st i with rfl | hne
    · exact .inr (by simp only [State.stack, hstk, Smap.getD_put_same]; exact ⟨rfl, rfl, h.fenced⟩)
    · exact .inl (by simp only [State.stack, hstk, Smap.getD_put_ne _ _ _ _ _ hne, and_self])

theorem rgDamage_kept (s : State) (rg src st : Nat) :
    StackKept st s (rgDamage s rg src) ∧ (rgDamage s rg src).lichen.lastClean = s.lichen.lastClean := by
  rw [rgDamage_eq]
  split
  · exact ⟨.refl st s, rfl⟩
  · split
    · rcases Nat.lt_or_ge (rg / 2 ^ 18 / 80) 6 with hu | hu
      · have hfault := unitFault_stackFault hu s 0x06 (0x020000000000 + 4096 * rg) true
        exact ⟨hfault.kept st, hfault.lastClean⟩
      · rw [unitFault_noStack hu]
        exact ⟨.refl st s, rfl⟩
    · obtain ⟨f, hf, hstk, hreports, hclean, hlist⟩ := listDamage_keeps s rg src (s.lichen.lastClean.getD rg 0)
      have hrec := (faultRecord_onlyReports (listDamage s rg src (s.lichen.lastClean.getD rg 0)) 0x06 0 0 (0x020000000000 + 4096 * rg)
        (windowParts (listDamage s rg src (s.lichen.lastClean.getD rg 0)) (rg / 2 ^ 18)) []).trans (event_onlyReports _ .lchEvent 0 0)
      exact ⟨.trans (.of_onlyReports hlist hreports (work_of_adj hf hstk st)) (.of_lichen hrec (by simp)), by simpa using hclean⟩

end

/-! ### Checks of row groups, one by one and in a list (R221 to R223) -/

theorem rgChecks_concat (s : State) (src : Nat) (l : List Nat) (rg : Nat) :
    rgChecks s src (l ++ [rg]) =
      if rgCrc (rgChecks s src l).1 rg = shadowCrc (rgChecks s src l).1 rg then
        ((rgChecks s src l).1, (rgChecks s src l).2 ++ if rgDirty (rgChecks s src l).1 rg then [] else [rg])
      else (rgDamage ((rgChecks s src l).1.bump .lchSCrcErrs (rg / 2 ^ 18 / 80) 1) rg src, (rgChecks s src l).2) := by
  unfold rgChecks
  simp only [List.foldl_append, List.foldl_cons, List.foldl_nil]
  split
  · split <;> simp
  · rfl

theorem rgCheck_eq (s : State) (rg src : Nat) : rgCheck s rg src =
    if rgCrc s rg = shadowCrc s rg then checkedClean s (if rgDirty s rg then [] else [rg])
    else rgDamage (s.bump .lchSCrcErrs (rg / 2 ^ 18 / 80) 1) rg src := by
  have hnil : rgChecks s src [] = (s, []) := rfl
  have hsingle := rgChecks_concat s src [] rg
  rw [List.nil_append, hnil] at hsingle
  rw [rgCheck, hsingle]
  split <;> rfl

theorem checkedClean_eq (s : State) (l : List Nat) : checkedClean s l = s.setLastClean (s.lichen.lastClean.putAll l (rtc s)) := rfl

theorem checkedClean_append (s : State) (l r : List Nat) : checkedClean s (l ++ r) = checkedClean (checkedClean s l) r := by
  rw [checkedClean_eq, Smap.putAll_append]
  rfl

theorem rgChecks_kept (s : State) (src st : Nat) (l : List Nat) : StackKept st s (rgChecks s src l).1 ∧
    (rgChecks s src l).1.lichen.lastClean = s.lichen.lastClean ∧ ∀ x ∈ (rgChecks s src l).2, x ∈ l := by
  induction l using List.reverseRecOn with
  | nil => exact ⟨.refl st s, rfl, fun _ => id⟩
  | append_singleton l rg ih =>
    obtain ⟨hkept, hclean, hsub⟩ := ih
    rw [rgChecks_concat]
    split
    · refine ⟨hkept, hclean, fun x hx => ?_⟩
      rcases List.mem_append.1 hx with hx | hx
      · exact List.mem_append_left _ (hsub x hx)
      · split at hx
        · cases hx
        · exact List.mem_append_right _ hx
    · obtain ⟨hdamage, hdamageClean⟩ := rgDamage_kept ((rgChecks s src l).1.bump .lchSCrcErrs (rg / 2 ^ 18 / 80) 1) rg src st
      have hbump : StackKept st (rgChecks s src l).1 ((rgChecks s src l).1.bump .lchSCrcErrs (rg / 2 ^ 18 / 80) 1) :=
        .of_lichen (bump_onlyReports _ _ 1 (by decide)) rfl
      exact ⟨(hkept.trans hbump).trans hdamage, hdamageClean.trans hclean, fun x hx => List.mem_append_left _ (hsub x hx)⟩

theorem checkedClean_kept (s : State) (l : List Nat) (st : Nat) : StackKept st s (checkedClean s l) :=
  .of_onlyReports (mapLichen_onlyReports s _) rfl ⟨rfl, rfl⟩

theorem rgCheck_kept (s : State) (rg src st : Nat) : StackKept st s (rgCheck s rg src) :=
  (rgChecks_kept s src st [rg]).1.trans (checkedClean_kept _ _ st)

/-- Each check may write the time of its own row group at once: a later one of another row group does not see it. -/
theorem foldl_rgCheck (s : State) (src : Nat) {l : List Nat} (hl : l.Nodup) :
    l.foldl (fun t rg => rgCheck t rg src) s = checkedClean (rgChecks s src l).1 (rgChecks s src l).2 := by
  induction l using List.reverseRecOn with
  | nil => rfl
  | append_singleton l rg ih =>
    obtain ⟨hnodup, -, hnew⟩ := List.nodup_append.1 hl
    have hnew : rg ∉ l := fun h => hnew rg h rg (List.mem_singleton_self rg) rfl
    obtain ⟨-, -, hsub⟩ := rgChecks_kept s src 0 l
    rw [List.foldl_append, ih hnodup, List.foldl_cons, List.foldl_nil, rgChecks_concat]
    generalize (rgChecks s src l).1 = t, (rgChecks s src l).2 = clean at hsub
    have hcrc : rgCrc (checkedClean t clean) rg = rgCrc t rg := rfl
    have hshadow : shadowCrc (checkedClean t clean) rg = shadowCrc t rg := rfl
    have hdirty : rgDirty (checkedClean t clean) rg = rgDirty t rg := rfl
    rw [rgCheck_eq, hcrc, hshadow, hdirty]
    split
    · rw [checkedClean_append]
    · obtain ⟨hkept, hclean⟩ := rgDamage_kept (t.bump .lchSCrcErrs (rg / 2 ^ 18 / 80) 1) rg src 0
      have hbump : (checkedClean t clean).bump .lchSCrcErrs (rg / 2 ^ 18 / 80) 1 =
          (t.bump .lchSCrcErrs (rg / 2 ^ 18 / 80) 1).setLastClean (t.lichen.lastClean.putAll clean (rtc t)) := rfl
      have htime : (t.lichen.lastClean.putAll clean (rtc t)).getD rg 0 =
          (t.bump .lchSCrcErrs (rg / 2 ^ 18 / 80) 1).lichen.lastClean.getD rg 0 :=
        Smap.getD_putAll_of_notMem (fun h => hnew (hsub rg h)) _ _ _
      have hrtc : rtc (rgDamage (t.bump .lchSCrcErrs (rg / 2 ^ 18 / 80) 1) rg src) = rtc t := by
        rw [rtc, hkept.power]
        rfl
      rw [hbump, rgDamage_setLastClean src htime, checkedClean_eq, hclean, hrtc]
      rfl

/-! ### SCRUB checks the row group of every bank (R214, R221) -/

theorem stripeAddr_eq_some {st i k off a : Nat} (h : stripeAddr st i k off = some a) : a = 2 ^ 30 * (80 * st + i) + 135168 * k + off := by
  unfold stripeAddr at h
  split at h
  · exact (Option.some.inj h).symm
  · cases h

/-- Distinct banks have the row of one number in distinct row groups. -/
theorem rowAddr_rg_injective {s : State} {st row b b' a a' : Nat} (hb : b < 1024) (hb' : b' < 1024) (h : rowAddr s st b row = some a)
    (h' : rowAddr s st b' row = some a') (hrg : a / 4096 = a' / 4096) : b = b' := by
  unfold rowAddr at h h'
  dsimp only at h h'
  generalize (if decide (row ≥ 163840) = true then (row - 163840) / 64 else row / 2048) = i at h h'
  generalize (if decide (row ≥ 163840) = true then 1048576 + (row - 163840) % 64 * 512 else row % 2048 * 512) = share at h h'
  split at h
  · cases h
  · next hi =>
    rw [if_neg hi] at h'
    split at h
    · next hbare =>
      rw [if_pos hbare] at h'
      have ha := stripeAddr_eq_some h
      have ha' := stripeAddr_eq_some h'
      unfold stripeK at ha ha'
      omega
    · next hbare =>
      rw [if_neg hbare] at h'
      split at h
      · cases h
      · next hovf =>
        rw [if_neg hovf] at h'
        have ha := Option.some.inj h
        have ha' := Option.some.inj h'
        omega

theorem rowAddr_of_img {s t : State} (h : t.img = s.img) (st b row : Nat) : rowAddr t st b row = rowAddr s st b row := by
  rw [rowAddr, h, rowAddr]

/-- The row group of a bare window that a bank holds a row in. -/
def bankRg (s : State) (st row b : Nat) : Option Nat :=
  ((rowAddr s st b row).filter fun a => cfgWinBare s.img.cfg (a / 2 ^ 30)).map (· / 4096)

theorem bankRgs_nodup (s : State) (st row : Nat) : ((List.range 1024).filterMap (bankRg s st row)).Nodup := by
  have haddr : ∀ {b rg}, bankRg s st row b = some rg → ∃ a, rowAddr s st b row = some a ∧ a / 4096 = rg := fun {b rg} h => by
    obtain ⟨a, ha, hrg⟩ := Option.map_eq_some_iff.1 h
    exact ⟨a, (Option.filter_eq_some_iff.1 ha).1, hrg⟩
  rw [List.Nodup, List.pairwise_filterMap]
  refine List.Pairwise.imp_of_mem (fun {b b'} hb hb' hne rg h rg' h' => ?_) List.nodup_range
  obtain ⟨a, ha, rfl⟩ := haddr h
  obtain ⟨a', ha', rfl⟩ := haddr h'
  exact fun e => hne (rowAddr_rg_injective (List.mem_range.1 hb) (List.mem_range.1 hb') ha ha' e)

/-- The check of the row group at a row of one bank. -/
def checkBank (st row : Nat) (t : State) (b : Nat) : State :=
  match rowAddr t st b row with
  | some a => if cfgWinBare t.img.cfg (a / 2 ^ 30) then rgCheck t (a / 4096) 0 else t
  | none => t

theorem checkBank_eq {s t : State} (h : t.img = s.img) (st row b : Nat) :
    checkBank st row t b = (bankRg s st row b).elim t fun rg => rgCheck t rg 0 := by
  unfold checkBank bankRg
  rw [rowAddr_of_img h, h]
  cases rowAddr s st b row with
  | none => rfl
  | some a =>
    dsimp only
    rw [Option.filter_some]
    split <;> rfl

theorem foldl_checkBank {s t : State} (h : t.img = s.img) (st row : Nat) (banks : List Nat) :
    banks.foldl (checkBank st row) t = (banks.filterMap (bankRg s st row)).foldl (fun t rg => rgCheck t rg 0) t := by
  induction banks generalizing t with
  | nil => rfl
  | cons b banks ih =>
    rw [List.foldl_cons, checkBank_eq h, List.filterMap_cons]
    cases bankRg s st row b with
    | none => exact ih h
    | some rg => exact ih ((rgCheck_kept t rg 0 st).img.trans h)

theorem scrubRows_eq (s : State) (st row : Nat) : scrubRows s st row = (List.range 1024).foldl (checkBank st (row / 8 * 8)) s := by
  rw [foldl_checkBank rfl, foldl_rgCheck s 0 (bankRgs_nodup s st _)]
  rfl

end Sys2Proof.Machine
end

section
/-! PROOF. The bank commands (07_lichen_units R199 to R215, R221): a step's part in the banks, then O24. -/
namespace Sys2Proof.Machine
open Sys2Proof

/-! ### A step's part in the banks (R199 to R207, R222) -/

theorem bankStream_kept (st : Nat) (a : StepArgs) (slots : List (Nat × List Byte)) (b k n d : Nat) (s : State) :
    StackKept st s (bankStream a slots b k n d s).1 := by
  induction n generalizing d s with
  | zero => exact .refl st s
  | succ n ih =>
    rw [bankStream]
    split
    · exact .refl st s
    · exact .trans (.of_onlyReports (mapLichen_onlyReports s _) rfl ⟨rfl, rfl⟩) (ih _ _)

theorem bankStep_kept (st : Nat) (a : StepArgs) (slots : List (Nat × List Byte)) (done : Smap Nat) (s : State) (b : Nat) :
    StackKept st s (bankStep a slots done s b).1 := by
  unfold bankStep
  extract_lets k
  split
  · exact .refl st s
  · split
    · split
      · exact .refl st s
      · split
        · exact .refl st s
        · dsimp only
          exact .of_onlyReports (mapLichen_onlyReports s _) rfl ⟨rfl, rfl⟩
    · exact bankStream_kept st a slots b _ _ _ s

theorem sweepChecks_kept (s : State) (i st : Nat) (l : List Nat) : StackKept st s (sweepChecks s i l) := by
  unfold sweepChecks
  split
  · exact (rgChecks_kept s 1 st l).1.trans (checkedClean_kept _ _ st)
  · exact .refl st s

theorem updStack_kept (s : State) (i st : Nat) {f : Stack → Stack} (hf : ∀ k, (f k).step = k.step ∧ (f k).gapOpen = k.gapOpen) :
    StackKept st s (s.updStack i f) :=
  .of_onlyReports (mapLichen_onlyReports s _) rfl (work_of_adj hf rfl st)

theorem banksRun_kept (s : State) (a : StepArgs) (done : Smap Nat) (banks : List Nat) (st : Nat) :
    StackKept st s (banksRun s a done banks) := by
  unfold banksRun
  extract_lets slots r
  have hr : StackKept st s r.1 :=
    List.foldlRecOn (motive := fun x : State × Smap Nat × List (Nat × Nat) => StackKept st s x.1) banks _ (.refl st s)
      fun x hx b _ => by
        have hnext : ∀ y : State × Nat, StackKept st x.1 y.1 → StackKept st s (y.1, x.2.1.put b y.2, x.2.2 ++ [(b, y.2)]).1 :=
          fun y hy => hx.trans hy
        exact hnext (bankStep a slots done x.1 b) (bankStep_kept st a slots done x.1 b)
  clear_value r
  refine (hr.trans (updStack_kept r.1 a.stack st ?_)).trans (sweepChecks_kept _ a.stack st _)
  exact fun _ => ⟨rfl, rfl⟩

theorem lichenFence_onlyReports (s : State) (part w : Nat) : OnlyReports s (lichenFence s part w) := by
  have hlatch : ∀ fn, OnlyReports s (latchViol s fn 4 0 w) := fun fn => .ite (.refl s) (.of_eq rfl rfl rfl rfl rfl)
  exact .trans (.ite (((hlatch _).trans (event_onlyReports _ _ _ _)).trans (bump_onlyReports _ _ 1 (by decide)))
    ((hlatch _).trans (event_onlyReports _ _ _ _))) (event_onlyReports _ _ _ _)

/-- A step over a bare window is counted and runs, unless the damage that it finds fences the stack. -/
theorem startStep_bare {s : State} {st : Nat} {c : BankCmd} (done : Smap Nat)
    (hbare : cfgWinBare s.img.cfg (80 * st + hWin c.hdr) = true) (hst : st < 6) :
    (startStep s st c done).ro .lchSSteps st = s.ro .lchSSteps st + 1 ∧
      (((startStep s st c done).stack st).step = some c ∨ (startStep s st c done).fencedUnit 0x08 st = true) := by
  obtain ⟨t, hcount, hstep, hkept⟩ : ∃ t : State, t.ro .lchSSteps st = s.ro .lchSSteps st + 1 ∧ (t.stack st).step = some c ∧
      StackKept st t (startStep s st c done) := by
    unfold startStep
    dsimp only
    rw [if_neg (by simpa [stepArgs] using hbare)]
    refine ⟨_, ?_, ?_, banksRun_kept _ _ done _ st⟩
    · have hfences := OnlyReports.foldl (g := fun s q => lichenFence s (bits (field q.2 0x88 4) 21 6) (80 * st + (stepArgs st c.hdr c.payload).i))
        (fun s (q : Nat × List Byte) => lichenFence_onlyReports s _ _)
        ((stepSlots s (stepArgs st c.hdr c.payload)).filter fun q => !slotOwns s (stepArgs st c.hdr c.payload) q) s
      exact (Smap.getD_put_same _ _ _ _).trans (congrArg (· + 1) (hfences.sweepSteps st hst))
    · rw [stack_updStack_same]
  refine ⟨(hkept.sweepSteps st hst).trans hcount, ?_⟩
  rcases hkept.work with ⟨hsame, -⟩ | ⟨-, -, hfenced⟩
  · exact .inl (hsame.trans hstep)
  · exact .inr hfenced

theorem startStep_guarded {s : State} {st : Nat} {c : BankCmd} (done : Smap Nat)
    (hguard : cfgWinBare s.img.cfg (80 * st + hWin c.hdr) = false) : startStep s st c done = s.event .lchEvent 0 5 := by
  unfold startStep
  exact if_pos (by simpa [stepArgs] using hguard)

/-! ### Bank commands taken, refused and kept waiting (R202, R208) -/

section
variable {s : State} {op st : Nat} {h : W64} {p : List Byte} (hst : st < 6) (hserves : s.fencedUnit 0x08 st = false)
include hst hserves

theorem bankCmd_wellFormed (hok : bankCmdOk op h p = true) (f : State) : bankCmd s op st h p f = f := by
  simp [bankCmd, Nat.not_le_of_lt hst, hserves, hok]

theorem bankCmd_malformed (hbad : bankCmdOk op h p = false) (f : State) : bankCmd s op st h p f = s.event .lchEvent 0 6 := by
  simp [bankCmd, Nat.not_le_of_lt hst, hserves, hbad]

end

theorem hOp_of_bankCmdOk {op : Nat} {h : W64} {p : List Byte} (hok : bankCmdOk op h p = true) : hOp h = op := by
  simp only [bankCmdOk, Bool.and_eq_true, beq_iff_eq] at hok
  obtain ⟨⟨⟨⟨hop, -⟩, -⟩, -⟩, -⟩ := hok
  exact hop

section
variable {s : State} {st : Nat} {h : W64} {p : List Byte}

theorem stackCmd_waits (c : BankCmd) (hstep : (s.stack st).step ≠ none) :
    stackCmd s st c = s.updStack st fun k => { k with later := k.later ++ [c] } :=
  if_pos (Option.isSome_iff_ne_none.2 hstep)

variable (hstep : (s.stack st).step = none)
include hstep

theorem stackCmd_idle (c : BankCmd) : stackCmd s st c = stackRun s st c := by
  simp [stackCmd, hstep]

theorem stackCmd_sweepStep (hop : hOp h = 5) : stackCmd s st ⟨h, p⟩ = startStep s st ⟨h, p⟩ [] := by
  simp [stackCmd_idle hstep, stackRun, hop]

theorem stackCmd_fill (hop : hOp h = 6) : stackCmd s st ⟨h, p⟩ = fillRows s st h p := by
  simp [stackCmd_idle hstep, stackRun, hop]

theorem stackCmd_scrub (hop : hOp h = 7) : stackCmd s st ⟨h, p⟩ = scrubRows s st (field p 0 4) := by
  simp [stackCmd_idle hstep, stackRun, hop]

theorem stackCmd_repair (hop : hOp h = 8) : stackCmd s st ⟨h, p⟩ = repairRow s st h p := by
  simp [stackCmd_idle hstep, stackRun, hop]

end

/-- The answer of a GATHER: its group, and the score of each code that it names (R203). -/
def gatherAnswer (s : State) (st : Nat) (h : W64) (p : List Byte) : List Byte :=
  natLe 4 (hArg h / 8) ++ ((List.range (hArg h % 8 + 1)).map fun i => field p (132 + 2 * i) 2).flatMap fun r => natLe 4 (ofSigned 32 (lichenA
    (((stripeAddr st (hWin h) (stripeK (hWin h) (hBank h) (r % 8)) (r / 8 / 64 * 4096 + r / 8 % 64 * 64)).map fun a => t2Read s a 64).getD
      (List.replicate 64 0)) p))

theorem gatherServe_answers {s : State} {st : Nat} {h : W64} {p : List Byte} (tag : Nat)
    (hbare : cfgWinBare s.img.cfg (80 * st + hWin h) = true) (howner : cfgWinOwner s.img.cfg (80 * st + hWin h) = hPart h) :
    (gatherServe s st ⟨h, p⟩ tag).lichen.answers.get tag = some (gatherAnswer s st h p) := by
  unfold gatherServe
  extract_lets w refs addr code sus out t
  rw [if_neg (by simp [w, hbare]), if_neg (by simp [w, howner]), apply_ite State.lichen, State.mapHost_lichen, ite_self]
  refine (Smap.get_put_same _ _ _).trans ?_
  have hcode : ∀ r, code r = ((addr r).map fun a => t2Read s a 64).getD (List.replicate 64 0) := fun r => by
    simp only [code]
    cases addr r with
    | none => rfl
    | some a => rfl
  simp only [out, hcode]
  rfl

/-! ### Requests at a bank (R203, R211) -/

section
variable {s : State} {bank : Nat} (hbank : bank < 6144) (hserves : s.fencedUnit 0x08 (bank / 1024) = false)
include hbank hserves

theorem bankArrive_idle (hstep : (s.stack (bank / 1024)).step = none) (r : BankReq) : bankArrive s bank r = bankServe s bank r := by
  simp [bankArrive, Nat.not_le_of_lt hbank, hserves, hstep]

theorem bankArrive_queues (hstep : (s.stack (bank / 1024)).step ≠ none) (hgap : (s.stack (bank / 1024)).gapOpen.contains bank = false)
    (r : BankReq) : bankArrive s bank r = s.mapLichen fun l => { l with queue := l.queue.put bank ((l.queue.getD bank []) ++ [r]) } := by
  simp only [bankArrive, Nat.not_le_of_lt hbank, hserves, hstep, hgap, Bool.false_eq_true, Option.isNone_iff_eq_none, or_self, if_false]

end

theorem bankServe_gather (s : State) (bank tag : Nat) (c : BankCmd) (addr len : Nat) (wdata : List Byte) :
    bankServe s bank { tag := tag, gather := some c, addr := addr, len := len, wdata := wdata } = gatherServe s (bank / 1024) c tag := rfl

theorem bankServe_read {s : State} {addr len : Nat} (hlen : 0 < len) (hup : winUp s (addr / 2 ^ 30) = true) (bank tag : Nat)
    (wdata : List Byte) :
    bankServe s bank { tag := tag, gather := none, addr := addr, len := len, wdata := wdata } =
      s.mapLichen fun l => { l with answers := l.answers.put tag (t2Read s addr len) } := by
  simp only [bankServe, gt_iff_lt, hlen, hup, if_true]

theorem bankServe_write (s : State) (bank tag addr : Nat) (wdata : List Byte) :
    bankServe s bank { tag := tag, gather := none, addr := addr, len := 0, wdata := wdata } = t2Write s addr wdata := rfl

/-! ### O24 -/

/-- Settles O24: each clause is the lemma about the command's function, which `exec` of the row runs where the command is well
formed; SCRUB's checks are `scrubRows_eq`. What counts as malformed in a broadcast, window or bank is the model's choice (log
entry 12). -/
theorem bankCommandsComplete : Obligations.BankCommandsComplete := by
  unfold Obligations.BankCommandsComplete
  refine ⟨?gather, ?slotLoad, ?slotThresh, ?slotFree, ?sweepStep, ?waits, ?fill, ?scrub, ?repair, ?malformed⟩
  case gather =>
    intro s st tag h p hst hserves hok hbank hstep hstack hbare howner
    refine ⟨_, congrArg Host.Outcome.next ((bankCmd_wellFormed hst hserves hok _).trans
      ((bankArrive_idle hbank (by rwa [hstack]) hstep _).trans (bankServe_gather ..))), ?_⟩
    rw [hstack]
    exact gatherServe_answers tag hbare howner
  case slotLoad =>
    intro s st h p hst hserves hok
    exact congrArg Host.Outcome.next (bankCmd_wellFormed hst hserves hok _)
  case slotThresh =>
    intro s st h p hst hserves hok
    exact congrArg Host.Outcome.next (bankCmd_wellFormed hst hserves hok _)
  case slotFree =>
    intro s st h p hst hserves hok
    exact congrArg Host.Outcome.next (bankCmd_wellFormed hst hserves hok _)
  case sweepStep =>
    intro s st h p hst hserves hok
    have hop := hOp_of_bankCmdOk hok
    have hrun := bankCmd_wellFormed hst hserves hok (stackCmd s st ⟨h, p⟩)
    refine ⟨fun hstep hbare => ?_, fun hstep hguard => ?_, fun hstep => ?_⟩
    · exact ⟨_, congrArg Host.Outcome.next (hrun.trans (stackCmd_sweepStep hstep hop)), startStep_bare [] hbare hst⟩
    · exact congrArg Host.Outcome.next ((hrun.trans (stackCmd_sweepStep hstep hop)).trans (startStep_guarded [] hguard))
    · exact congrArg Host.Outcome.next (hrun.trans (stackCmd_waits _ hstep))
  case waits =>
    intro s st h p hst hserves hstep
    have hwait : ∀ op, bankCmdOk op h p = true → bankCmd s op st h p (stackCmd s st ⟨h, p⟩) =
        s.updStack st fun k => { k with later := k.later ++ [⟨h, p⟩] } := fun op hok =>
      (bankCmd_wellFormed hst hserves hok _).trans (stackCmd_waits _ hstep)
    exact ⟨fun hok => congrArg Host.Outcome.next (hwait 6 hok), fun hok => congrArg Host.Outcome.next (hwait 7 hok),
      fun hok => congrArg Host.Outcome.next (hwait 8 hok)⟩
  case fill =>
    intro s st a h p hst hserves hok hstep hbcast harg haddr
    refine congrArg Host.Outcome.next ((bankCmd_wellFormed hst hserves hok _).trans
      ((stackCmd_fill hstep (hOp_of_bankCmdOk hok)).trans ?_))
    simp [fillRows, cmdBanks, hbcast, harg, haddr, List.range_succ]
  case scrub =>
    intro s st h p hst hserves hok hstep
    exact congrArg Host.Outcome.next ((bankCmd_wellFormed hst hserves hok _).trans
      ((stackCmd_scrub hstep (hOp_of_bankCmdOk hok)).trans (scrubRows_eq s st (field p 0 4))))
  case repair =>
    intro s st a h p hst hserves hok hstep haddr
    refine congrArg Host.Outcome.next ((bankCmd_wellFormed hst hserves hok _).trans
      ((stackCmd_repair hstep (hOp_of_bankCmdOk hok)).trans ?_))
    simp only [repairRow, haddr]
    rfl
  case malformed =>
    intro s st tag h p hst hserves
    have hbad : ∀ op f, bankCmdOk op h p = false → Host.Outcome.next (bankCmd s op st h p f) = (.next (s.event .lchEvent 0 6) : Out) :=
      fun op f hmal => congrArg Host.Outcome.next (bankCmd_malformed hst hserves hmal f)
    exact ⟨hbad 1 _, hbad 2 _, hbad 3 _, hbad 4 _, hbad 6 _, hbad 8 _⟩

end Sys2Proof.Machine
end

section
/-! PROOF. The rows of banks, the scrubber and row group repair (07_lichen_units R211, R221 to R225): O25. -/
namespace Sys2Proof.Machine
open Sys2Proof

/-! ### GAP_MAX_EXPIRY and SCRUB_TICK (R210, R211, R221) -/

theorem gapEnd_closed {s : State} {st bank : Nat} (hclosed : (s.stack st).gapOpen.contains (1024 * st + bank) = false) :
    gapEnd s st bank = s := by
  simp only [gapEnd, hclosed, Bool.not_false, if_true]

theorem gapEnd_idle {s : State} {st bank : Nat} (hopen : (s.stack st).gapOpen.contains (1024 * st + bank) = true)
    (hstep : (s.stack st).step = none) :
    gapEnd s st bank = s.updStack st fun k => { k with gapOpen := delSet k.gapOpen (1024 * st + bank) } := by
  simp only [gapEnd, hopen, hstep, Bool.not_true, Bool.false_eq_true, if_false]

theorem delSet_contains (l : List Nat) (x : Nat) : (delSet l x).contains x = false := by
  simp [delSet]

/-- Once its gap has ended, a bank's gap is closed, also where the bank has then run its part of the step. -/
theorem gapEnd_closes (s : State) (st bank : Nat) : ((gapEnd s st bank).stack st).gapOpen.contains (1024 * st + bank) = false := by
  have hclose : ((s.updStack st fun k => { k with gapOpen := delSet k.gapOpen (1024 * st + bank) }).stack st).gapOpen.contains
      (1024 * st + bank) = false := by
    rw [stack_updStack_same]
    exact delSet_contains _ _
  cases hopen : (s.stack st).gapOpen.contains (1024 * st + bank) with
  | false => rwa [gapEnd_closed hopen]
  | true =>
    unfold gapEnd
    simp only [hopen, Bool.not_true, Bool.false_eq_true, if_false]
    split
    · exact hclose
    · split
      · exact hclose
      · rcases (banksRun_kept (s.updStack st fun k => { k with gapOpen := delSet k.gapOpen (1024 * st + bank) }) _ _ [bank] st).work with
          ⟨-, hgap⟩ | ⟨-, hgap, -⟩
        · rw [hgap]
          exact hclose
        · rw [hgap]
          rfl

/-- A tick of the scrubber within a bare window checks the place it has come to and moves on by one row group. -/
theorem scrubTick_withinWindow {s u : State} {st p : Nat} {late : Bool} (hst : st < 6) (hserves : s.fencedUnit 0x08 st = false)
    (hu : u = beginRebuilds (s.eventIf late .lchEvent 0 3) st) (hp : p = (u.stack st).scrubPos) (hwin : p / 264 < 80)
    (hbare : cfgWinBare u.img.cfg (80 * st + p / 264) = true) (hwithin : (p + 1) % 264 ≠ 0) :
    scrubTick s st late = (scrubCmd u st (scrubRow p)).updStack st fun k => { k with scrubPos := p + 1 } := by
  subst hp
  simp [scrubTick, Nat.not_le_of_lt hst, hserves, ← hu, hwin, hbare, hwithin]

/-! ### ROW_GROUP_REBUILD (R224, R225) -/

theorem mapLichen_stack {s : State} {f : Lichen → Lichen} {st : Nat} (hf : ∀ l, (f l).stk = l.stk) : (s.mapLichen f).stack st = s.stack st := by
  rw [State.stack, State.mapLichen_lichen, hf, State.stack]

@[simp] theorem drawn_stack (s : State) (st : Nat) : s.drawn.stack st = s.stack st := rfl

@[simp] theorem event_stack (s : State) (r : Reg) (u b st : Nat) : (s.event r u b).stack st = s.stack st := by
  rw [State.stack, event_lichen, State.stack]

@[simp] theorem faultRecord_stack (s : State) (cls kind u addr : Nat) (parts cmds : List Nat) (st : Nat) :
    (faultRecord s cls kind u addr parts cmds).stack st = s.stack st := by
  rw [State.stack, faultRecord_lichen, State.stack]

/-- The bytes that a rebuild writes: those of the shard that the window serves, or zeros. -/
def rebuiltBytes (s : State) (win rg : Nat) : List Byte :=
  match winShard s win with
  | some sh => rebuiltRg s sh win rg
  | none => List.replicate 4096 0

section
variable {s : State} {st win rg : Nat} {d : Damage}
  (hd : ((s.stack st).damage.find? fun d => d.win == win && d.rg == rg && d.st != .failed) = some d)
include hd

theorem rgRebuild_succeeds :
    (rgRebuild s st win rg true).lichen.t2 = tierWrite s.lichen.t2 (4096 * (2 ^ 18 * win + rg)) (rebuiltBytes s win rg) ∧
    ((rgRebuild s st win rg true).stack st).damage = (s.stack st).damage.filter (fun x => !(x.win == win && x.rg == rg)) ∧
    ((rgRebuild s st win rg true).sqc .lchEvent 0).ev.getLsbD 1 = true := by
  unfold rgRebuild
  rw [hd]
  dsimp only
  rw [if_pos rfl, event_sqc, event_stack, event_lichen]
  refine ⟨?_, ?_, sqcSet_bit _ 1 (by decide)⟩
  · unfold rebuiltBytes
    cases winShard s win <;> rfl
  · rw [mapLichen_stack, stack_updStack_same]
    exact fun _ => rfl

theorem rgRebuild_fails : (rgRebuild s st win rg false).lichen.t2 = s.lichen.t2 ∧ (rgRebuild s st win rg false).free = s.free + 1 ∧
    ((rgRebuild s st win rg false).stack st).damage =
      (s.stack st).damage.filter (fun x => !(x.win == win && x.rg == rg)) ++ [{ d with st := .failed }] ∧
    ((rgRebuild s st win rg false).sqc .lchEvent 0).ev.getLsbD 2 = true := by
  unfold rgRebuild
  rw [hd]
  dsimp only
  rw [if_neg Bool.false_ne_true, event_sqc, event_stack, event_lichen, event_free, faultRecord_stack, drawn_stack, faultRecord_lichen,
    (faultRecord_onlyReports _ _ _ _ _ _ _).free]
  refine ⟨rfl, rfl, ?_, sqcSet_bit _ 2 (by decide)⟩
  rw [mapLichen_stack, stack_updStack_same]
  exact fun _ => rfl

end

/-! ### DISAGREE_CRC_CHECK (R223) -/

/-- The state with a disagreement report taken from those that wait. -/
def takeReport (s : State) (r : Nat × Nat × Nat) : State :=
  s.mapLichen fun l => { l with reports := dropFirst (fun x => x == r) l.reports }

section
variable {s : State} {win rg : Nat} {r : Nat × Nat × Nat} (hr : (s.lichen.reports.find? fun r => r.1 == 2 ^ 18 * win + rg) = some r)
include hr

theorem disagreeCheck_reports : (disagreeCheck s win rg).lichen.reports = dropFirst (fun x => x == r) s.lichen.reports := by
  have hcheck : ∀ g, (rgCheck (takeReport s r) g 2).lichen.reports = (takeReport s r).lichen.reports := fun g => (rgCheck_kept _ g 2 0).reports
  have hdamage : ∀ g, (rgDamage (takeReport s r) g 2).lichen.reports = (takeReport s r).lichen.reports := fun g =>
    (rgDamage_kept _ g 2 0).1.reports
  have heither : ∀ g (c : Prop) [Decidable c], (if c then rgCheck (takeReport s r) g 2 else rgDamage (takeReport s r) g 2).lichen.reports =
      (takeReport s r).lichen.reports := fun g c _ => by
    split
    · exact hcheck g
    · exact hdamage g
  unfold disagreeCheck
  dsimp only
  rw [hr]
  dsimp only
  split
  · rfl
  · split
    · exact hcheck _
    · split
      · rfl
      · exact heither _ _

theorem disagreeCheck_dirty (hdirty : rgDirty (takeReport s r) (2 ^ 18 * win + rg) = true) : disagreeCheck s win rg = takeReport s r := by
  unfold disagreeCheck
  dsimp only
  rw [hr]
  exact if_pos hdirty

variable (hclean : rgDirty (takeReport s r) (2 ^ 18 * win + rg) = false)
include hclean

theorem disagreeCheck_crcFails
    (hcrc : crc32c (rgBytes (takeReport s r) (2 ^ 18 * win + rg)) ≠ shadowCrc (takeReport s r) (2 ^ 18 * win + rg)) :
    disagreeCheck s win rg = rgCheck (takeReport s r) (2 ^ 18 * win + rg) 2 := by
  unfold disagreeCheck
  dsimp only
  rw [hr]
  exact (if_neg (ne_true_of_eq_false hclean)).trans (if_pos hcrc)

theorem disagreeCheck_crcHolds {sh : Shard}
    (hcrc : crc32c (rgBytes (takeReport s r) (2 ^ 18 * win + rg)) = shadowCrc (takeReport s r) (2 ^ 18 * win + rg))
    (hsh : s.shards.get r.2.1 = some sh) (hring : ringSeq sh r.2.2 = none) :
    disagreeCheck s win rg = if slotCode (takeReport s r) sh r.2.2 = some (rebuiltCode sh r.2.2)
      then rgCheck (takeReport s r) (2 ^ 18 * win + rg) 2 else rgDamage (takeReport s r) (2 ^ 18 * win + rg) 2 := by
  unfold disagreeCheck
  dsimp only
  rw [hr]
  refine (if_neg (ne_true_of_eq_false hclean)).trans ((if_neg (not_not.2 hcrc)).trans ?_)
  rw [State.mapLichen_shards, hsh]
  dsimp only
  rw [hring]
  rfl

end

/-! ### O25 -/

/-- Settles O25: each clause is the lemma above about the row's function, which `exec` of the row runs. That rebuilds begin at the
scrubber's tick, and when a gap closes, is the model's choice (log entries 117 and 118). -/
theorem bankRowsComplete : Obligations.BankRowsComplete := by
  unfold Obligations.BankRowsComplete
  refine ⟨?bankRequest, ?gap, ?scrubTick, ?rebuilt, ?rebuiltUnused, ?failed, ?disagree⟩
  case bankRequest =>
    intro s bank tag addr len data hbank hserves
    refine ⟨fun hstep hlen hup => ?_, fun hstep => ?_, fun hstep hgap => ?_⟩
    · exact congrArg Host.Outcome.next ((bankArrive_idle hbank hserves hstep _).trans (bankServe_read hlen hup bank tag data))
    · exact congrArg Host.Outcome.next ((bankArrive_idle hbank hserves hstep _).trans (bankServe_write s bank tag addr data))
    · exact congrArg Host.Outcome.next (bankArrive_queues hbank hserves hstep hgap _)
  case gap =>
    intro s st bank hst hbank
    have hend : exec (.gapMaxExpiry st bank) s = .next (gapEnd s st bank) := congrArg Host.Outcome.next (if_pos ⟨hst, hbank⟩)
    refine ⟨fun hstep hopen => ?_, _, hend, gapEnd_closes s st bank⟩
    rw [hend, gapEnd_idle hopen hstep]
  case scrubTick =>
    intro s u st p late hst hserves hu hp hwin hbare hwithin
    have htick : exec (.scrubTick st late) s = .next ((scrubCmd u st (scrubRow p)).updStack st fun k => { k with scrubPos := p + 1 }) :=
      congrArg Host.Outcome.next (scrubTick_withinWindow hst hserves hu hp hwin hbare hwithin)
    exact ⟨htick, _, htick, congrArg Stack.scrubPos (stack_updStack_same _ _ _)⟩
  case rebuilt =>
    intro s st win rg d sh hst hwin hd hsh
    have hbytes : rebuiltBytes s win rg = rebuiltRg s sh win rg := by rw [rebuiltBytes, hsh]
    exact ⟨_, congrArg Host.Outcome.next (if_pos ⟨hst, hwin⟩), hbytes ▸ rgRebuild_succeeds hd⟩
  case rebuiltUnused =>
    intro s st win rg d hst hwin hd hsh
    have hbytes : rebuiltBytes s win rg = List.replicate 4096 0 := by rw [rebuiltBytes, hsh]
    obtain ⟨ht2, hdamage, -⟩ := rgRebuild_succeeds hd
    exact ⟨_, congrArg Host.Outcome.next (if_pos ⟨hst, hwin⟩), hbytes ▸ ht2, hdamage⟩
  case failed =>
    intro s st win rg d hst hwin hd
    exact ⟨_, congrArg Host.Outcome.next (if_pos ⟨hst, hwin⟩), rgRebuild_fails hd⟩
  case disagree =>
    rintro s u win rg _ sh r hr rfl rfl
    refine ⟨⟨_, rfl, ?_⟩, fun hdirty => ?_, fun hclean => ⟨fun hcrc => ?_, fun hcrc hsh hring => ?_⟩⟩
    · exact disagreeCheck_reports hr
    · exact congrArg Host.Outcome.next (disagreeCheck_dirty hr hdirty)
    · exact congrArg Host.Outcome.next (disagreeCheck_crcFails hr hclean hcrc)
    · exact congrArg Host.Outcome.next (disagreeCheck_crcHolds hr hclean hcrc hsh hring)

end Sys2Proof.Machine
end

section
/-! PROOF. O27, fences and pins (09_epochs_updates R251, R252, R263; 18_command_set R561, R562): what each row does to a command
that is admitted with its opcode, and at the end the obligation. -/
namespace Sys2Proof.Machine
open Sys2Proof

/-! ### Admitted commands -/

theorem onAdmitted_of {s : State} {n op : Nat} {c : Cmd} (h : admittedAs s n c op) (f : Cmd → State) : onAdmitted s n [op] f = f c := by
  obtain ⟨hget, hphase, hop⟩ := h
  simp [onAdmitted, hget, hphase, hop]

theorem admittedAs.get {s : State} {n op : Nat} {c : Cmd} (h : admittedAs s n c op) : s.host.cmds.get n = some c := h.1

theorem admittedAs.not_done {s : State} {n op : Nat} {c : Cmd} (h : admittedAs s n c op) : c.phase ≠ .done := by
  obtain ⟨-, hphase, -⟩ := h
  rw [hphase]
  decide

theorem updCmd_get (s : State) (n : Nat) (f : Cmd → Cmd) : (s.updCmd n f).host.cmds.get n = (s.host.cmds.get n).map f :=
  Smap.get_upd_same _ _ _

/-- A command that runs ends with the status that it is given. -/
theorem finish_endedWith {s : State} {n : Nat} {c : Cmd} (hget : s.host.cmds.get n = some c) (hphase : c.phase ≠ .done) (st pr cf : Nat) :
    endedWith (finish s n st pr cf) n st :=
  ⟨_, finish_get s n st pr cf c hget hphase, rfl, rfl⟩

theorem finish_progress {s : State} {n : Nat} {c : Cmd} (hget : s.host.cmds.get n = some c) (hphase : c.phase ≠ .done) (st pr cf : Nat) :
    ((finish s n st pr cf).host.cmds.get n).map (·.progress) = some pr := by
  rw [finish_get s n st pr cf c hget hphase]
  rfl

/-! ### EPOCH_FENCE (R263, R561) -/

/-- The state in which EPOCH_FENCE begins to wait. -/
def fenceWaits (s : State) (n : Nat) : State := (markRunning s n).mapEpoch fun e => { e with fences := addSet e.fences n }

theorem fenceWaits_get {s : State} {n : Nat} {c : Cmd} (hget : s.host.cmds.get n = some c) :
    (fenceWaits s n).host.cmds.get n = some { c with phase := .running } := by
  rw [fenceWaits, State.mapEpoch_host, markRunning, updCmd_get, hget]
  rfl

theorem foldl_max_le {l : List Nat} {a b : Nat} (ha : a ≤ b) (h : ∀ x ∈ l, x ≤ b) : l.foldl max a ≤ b :=
  List.foldlRecOn (motive := fun m => m ≤ b) l max ha fun _ hm x hx => Nat.max_le.2 ⟨hm, h x hx⟩

section
variable {s : State} {n : Nat} {c : Cmd} (hget : s.host.cmds.get n = some c)
include hget

theorem fenceTry_waits (hopen : earlierOpen s n c = true) : fenceTry s n = s := by
  simp [fenceTry, hget, hopen]

/-- No epoch in which a covered entry becomes visible lies ahead, so that the fence ends. -/
theorem fenceTry_ends (hphase : c.phase = .running) (hopen : earlierOpen s n c = false)
    (hvis : (((c.qp.map (s.host.qps.getD · Qp.reset)).getD Qp.reset).vis.all fun v => decide (v.2 ≤ s.epoch.cur)) = true)
    (hlinked : bit (eArg0 c.entry) 0 = false) : endedWith (fenceTry s n) n stOk := by
  have hev : ¬ s.epoch.cur < ((((c.qp.map (s.host.qps.getD · Qp.reset)).getD Qp.reset).vis.filter fun v => decide (v.1 < n)).map (·.2)).foldl
      max 0 := by
    refine Nat.not_lt.2 (foldl_max_le (Nat.zero_le _) fun x hx => ?_)
    obtain ⟨v, hv, rfl⟩ := List.mem_map.1 hx
    exact of_decide_eq_true (List.all_eq_true.1 hvis v (List.mem_filter.1 hv).1)
  have hdone : c.phase ≠ .done := by rw [hphase]; decide
  simp only [fenceTry, hget, hdone, hopen, hev, hlinked, false_or, false_and, Bool.false_eq_true, if_false]
  exact finish_endedWith (s := s.mapEpoch _) hget hdone _ _ _

end

theorem exec_epochFence {s : State} {n : Nat} {c : Cmd} (h : admittedAs s n c 0x30) :
    exec (.epochFence n) s = .next (fenceTry (fenceWaits s n) n) :=
  congrArg Host.Outcome.next (onAdmitted_of h _)

/-! ### EPOCH_PIN and EPOCH_UNPIN (R251, R562) -/

/-- The state with so many references of a partition on an epoch. -/
def withRefs (s : State) (p e k : Nat) : State := s.mapEpoch fun x => { x with pins := x.pins.store 0 (2 ^ 48 * p + e) k }

theorem pinRefs_withRefs (s : State) (p e : Nat) {k : Nat} (hk : k ≠ 0) : pinRefs (withRefs s p e k) p e = k :=
  Smap.getD_store_of_ne _ _ _ _ hk

theorem pinRefs_of_epoch {s t : State} (h : t.epoch = s.epoch) (p e : Nat) : pinRefs t p e = pinRefs s p e := by
  rw [pinRefs, h, pinRefs]

theorem pinProgress_of_epoch {s t : State} (h : t.epoch = s.epoch) (p e : Nat) : pinProgress t p e = pinProgress s p e := by
  rw [pinProgress, pinned, pinRefs_of_epoch h, h, pinProgress, pinned]

theorem exec_epochPin {s : State} {n : Nat} {c : Cmd} (h : admittedAs s n c 0x31) : exec (.epochPin n) s = .next (epochPin s n c) :=
  congrArg Host.Outcome.next (onAdmitted_of h _)

theorem exec_epochUnpin {s : State} {n : Nat} {c : Cmd} (h : admittedAs s n c 0x32) : exec (.epochUnpin n) s = .next (epochUnpin s n c) :=
  congrArg Host.Outcome.next (onAdmitted_of h _)

theorem epochPin_badIndex (s : State) (n : Nat) {c : Cmd} (hi : eIndex c.entry ≠ 0) :
    epochPin s n c = finish s n stInvalid (pinProgress s c.part c.epoch) 0 := by
  simp [epochPin, hi]

theorem epochUnpin_invalid (s : State) (n : Nat) {c : Cmd} (h : eIndex c.entry ≠ 0 ∨ pinRefs s c.part c.epoch = 0) :
    epochUnpin s n c = finish s n stInvalid (pinProgress s c.part c.epoch) 0 := by
  simp [epochUnpin, h]

section
variable {s : State} {n : Nat} {c : Cmd} (hi : eIndex c.entry = 0)
include hi

theorem epochPin_notRetained (hr : retained s c.part c.epoch = false) :
    epochPin s n c = finish s n stEpochExpired (pinProgress s c.part c.epoch) 0 := by
  simp [epochPin, hi, hr]

theorem epochPin_withoutRoom (hr : retained s c.part c.epoch = true) (hroom : pinRefs s c.part c.epoch ≥ 65535 ∨
      (pinRefs s c.part c.epoch = 0 ∧ (pinned s c.part).length ≥ 16 - cfgRetain s.img.cfg c.part)) :
    epochPin s n c = finish s n stQuota (pinProgress s c.part c.epoch) 0 := by
  unfold epochPin
  dsimp only
  rw [if_neg (not_not.2 hi), if_neg (by simp [hr]), if_pos hroom]

theorem epochPin_withRoom (hr : retained s c.part c.epoch = true) (hroom : ¬ (pinRefs s c.part c.epoch ≥ 65535 ∨
      (pinRefs s c.part c.epoch = 0 ∧ (pinned s c.part).length ≥ 16 - cfgRetain s.img.cfg c.part))) :
    epochPin s n c = finish (withRefs s c.part c.epoch (pinRefs s c.part c.epoch + 1)) n stOk
      (pinProgress (withRefs s c.part c.epoch (pinRefs s c.part c.epoch + 1)) c.part c.epoch) 0 := by
  unfold epochPin
  dsimp only
  rw [if_neg (not_not.2 hi), if_neg (by simp [hr]), if_neg hroom]
  rfl

theorem epochUnpin_pinned (hrefs : pinRefs s c.part c.epoch ≠ 0) :
    epochUnpin s n c = finish (withRefs s c.part c.epoch (pinRefs s c.part c.epoch - 1)) n stOk
      (pinProgress (withRefs s c.part c.epoch (pinRefs s c.part c.epoch - 1)) c.part c.epoch) 0 := by
  unfold epochUnpin
  dsimp only
  rw [if_neg (by simp [hi, hrefs])]
  rfl

end

/-- A pin command that leaves references ends SUCCESS and reports them. -/
theorem finish_withRefs {s : State} {n p e k : Nat} {c : Cmd} (hget : s.host.cmds.get n = some c) (hphase : c.phase ≠ .done) (hk : k ≠ 0) :
    endedWith (finish (withRefs s p e k) n stOk (pinProgress (withRefs s p e k) p e) 0) n stOk ∧
      pinRefs (finish (withRefs s p e k) n stOk (pinProgress (withRefs s p e k) p e) 0) p e = k ∧
      ((finish (withRefs s p e k) n stOk (pinProgress (withRefs s p e k) p e) 0).host.cmds.get n).map (·.progress) =
        some (pinProgress (finish (withRefs s p e k) n stOk (pinProgress (withRefs s p e k) p e) 0) p e) := by
  have hget' : (withRefs s p e k).host.cmds.get n = some c := hget
  refine ⟨finish_endedWith hget' hphase _ _ _, ?_, ?_⟩
  · rw [pinRefs_of_epoch (finish_epoch _ _ _ _ _), pinRefs_withRefs s p e hk]
  · rw [finish_progress hget' hphase, pinProgress_of_epoch (finish_epoch _ _ _ _ _)]

/-! ### O27 -/

/-- Settles O27: each clause is the lemma above about the row's function, which `exec` of the row runs. -/
theorem fencesAndPinsComplete : Obligations.FencesAndPinsComplete := by
  unfold Obligations.FencesAndPinsComplete
  refine ⟨?fence, ?pin, ?unpin, ?badIndex, ?expiry⟩
  case fence =>
    rintro s _ n c h rfl
    rw [exec_epochFence h]
    have hget := fenceWaits_get h.get
    exact ⟨fun hopen => congrArg Host.Outcome.next (fenceTry_waits hget hopen),
      fun hopen hvis hlinked => ⟨_, rfl, fenceTry_ends hget rfl hopen hvis hlinked⟩⟩
  case pin =>
    intro s n c h hi
    have hends := finish_endedWith h.get h.not_done
    rw [exec_epochPin h]
    refine ⟨fun hr => ?_, fun hr hfull => ?_, fun hr hnone hfull => ?_, fun hr hroom hdistinct => ?_⟩
    · exact ⟨_, congrArg Host.Outcome.next (epochPin_notRetained hi hr), hends _ _ _⟩
    · exact ⟨_, congrArg Host.Outcome.next (epochPin_withoutRoom hi hr (.inl hfull)), hends _ _ _⟩
    · exact ⟨_, congrArg Host.Outcome.next (epochPin_withoutRoom hi hr (.inr ⟨hnone, hfull⟩)), hends _ _ _⟩
    · have hfree : ¬ (pinRefs s c.part c.epoch ≥ 65535 ∨
          (pinRefs s c.part c.epoch = 0 ∧ (pinned s c.part).length ≥ 16 - cfgRetain s.img.cfg c.part)) := by
        rintro (hfull | ⟨hnone, hfull⟩)
        · omega
        · exact absurd (hdistinct hnone) (Nat.not_lt.2 hfull)
      exact ⟨_, congrArg Host.Outcome.next (epochPin_withRoom hi hr hfree), finish_withRefs h.get h.not_done (Nat.succ_ne_zero _)⟩
  case unpin =>
    intro s n c h hi
    have hends := finish_endedWith h.get h.not_done
    rw [exec_epochUnpin h]
    refine ⟨fun hnone => ?_, fun hsome => ?_, fun hmore => ?_⟩
    · exact ⟨_, congrArg Host.Outcome.next (epochUnpin_invalid s n (.inr hnone)), hends _ _ _⟩
    · exact ⟨_, congrArg Host.Outcome.next (epochUnpin_pinned hi (Nat.ne_of_gt hsome)),
        finish_endedWith (s := withRefs s c.part c.epoch (pinRefs s c.part c.epoch - 1)) h.get h.not_done _ _ _⟩
    · exact ⟨_, congrArg Host.Outcome.next (epochUnpin_pinned hi (by omega)), finish_withRefs h.get h.not_done (by omega)⟩
  case badIndex =>
    intro s n c hi
    refine ⟨fun h => ?_, fun h => ?_⟩
    · exact ⟨_, exec_epochPin h, by rw [epochPin_badIndex s n hi]; exact finish_endedWith h.get h.not_done _ _ _,
        by rw [epochPin_badIndex s n hi, finish_epoch]⟩
    · exact ⟨_, exec_epochUnpin h, by rw [epochUnpin_invalid s n (.inl hi)]; exact finish_endedWith h.get h.not_done _ _ _,
        by rw [epochUnpin_invalid s n (.inl hi), finish_epoch]⟩
  case expiry =>
    intro s p e hrefs
    exact congrArg Host.Outcome.next (if_neg hrefs)

end Sys2Proof.Machine
end

section
/-! PROOF. What a boundary leaves of the epoch sequencer once its counter has moved (09_epochs_updates R254): none of the work that
a strobe sets off moves the counter again, passes another PREPARE or names another first epoch. One lemma for each operation that the
strobe reaches. -/
namespace Sys2Proof.Machine
open Sys2Proof

/-- The epoch counter, whether PREPARE has passed, and the first epoch. -/
def State.epochNow (s : State) : Nat × Bool × Nat := (s.epoch.cur, s.epoch.prepared, s.epoch.first)

/-! ### Changes of one part, choices and folds

The parentheses of `(rfl)` keep `simp` from taking such a lemma as an equation by definition, which it could not use to show the
hypothesis of `foldl_epochNow`. -/

section
variable (s : State)

@[simp] theorem mapRegs_epochNow (f : RegFile → RegFile) : (s.mapRegs f).epochNow = s.epochNow := (rfl)
@[simp] theorem mapImg_epochNow (f : ImgState → ImgState) : (s.mapImg f).epochNow = s.epochNow := (rfl)
@[simp] theorem mapHost_epochNow (f : HostState → HostState) : (s.mapHost f).epochNow = s.epochNow := (rfl)
@[simp] theorem mapShards_epochNow (f : Smap Shard → Smap Shard) : (s.mapShards f).epochNow = s.epochNow := (rfl)
@[simp] theorem mapLichen_epochNow (f : Lichen → Lichen) : (s.mapLichen f).epochNow = s.epochNow := (rfl)
@[simp] theorem mapModel_epochNow (f : ModelState → ModelState) : (s.mapModel f).epochNow = s.epochNow := (rfl)
@[simp] theorem mapMem_epochNow (f : MemState → MemState) : (s.mapMem f).epochNow = s.epochNow := (rfl)
@[simp] theorem mapFelt_epochNow (f : FeltState → FeltState) : (s.mapFelt f).epochNow = s.epochNow := (rfl)
@[simp] theorem mapTwill_epochNow (f : Twill → Twill) : (s.mapTwill f).epochNow = s.epochNow := (rfl)
@[simp] theorem mapOwn_epochNow (f : OwnState → OwnState) : (s.mapOwn f).epochNow = s.epochNow := (rfl)
@[simp] theorem mapSec_epochNow (f : SecState → SecState) : (s.mapSec f).epochNow = s.epochNow := (rfl)
@[simp] theorem mapRas_epochNow (f : RasState → RasState) : (s.mapRas f).epochNow = s.epochNow := (rfl)
@[simp] theorem mapUsnea_epochNow (f : UsneaState → UsneaState) : (s.mapUsnea f).epochNow = s.epochNow := (rfl)
@[simp] theorem mapPower_epochNow (f : PowerState → PowerState) : (s.mapPower f).epochNow = s.epochNow := (rfl)

@[simp] theorem mapEpoch_epochNow {f : EpochState → EpochState} (hcur : ∀ e, (f e).cur = e.cur)
    (hprepared : ∀ e, (f e).prepared = e.prepared) (hfirst : ∀ e, (f e).first = e.first) : (s.mapEpoch f).epochNow = s.epochNow := by
  simp [State.epochNow, hcur, hprepared, hfirst]

@[simp] theorem ite_epochNow (c : Prop) [Decidable c] (a b : State) :
    (if c then a else b).epochNow = if c then a.epochNow else b.epochNow :=
  apply_ite State.epochNow c a b

@[simp] theorem foldl_epochNow {α : Type} {f : State → α → State} (h : ∀ s x, (f s x).epochNow = s.epochNow) (l : List α) :
    (l.foldl f s).epochNow = s.epochNow :=
  foldl_keeps State.epochNow h l s

end

/-! ### Records, events and the tables of the state -/

section
variable (s : State)

@[simp] theorem setRo_epochNow (r : Reg) (u : Nat) (v : W32) : (s.setRo r u v).epochNow = s.epochNow := (rfl)
@[simp] theorem bump_epochNow (r : Reg) (u n : Nat) : (s.bump r u n).epochNow = s.epochNow := (rfl)
@[simp] theorem bumpSat_epochNow (r : Reg) (u n : Nat) : (s.bumpSat r u n).epochNow = s.epochNow := (rfl)
@[simp] theorem setReg_epochNow (r : Reg) (u : Nat) (v : W32) : (s.setReg r u v).epochNow = s.epochNow := (rfl)
@[simp] theorem setShadow_epochNow (r : Reg) (u : Nat) (v : W32) : (s.setShadow r u v).epochNow = s.epochNow := (rfl)
@[simp] theorem drawn_epochNow : s.drawn.epochNow = s.epochNow := (rfl)

@[simp] theorem event_epochNow (r : Reg) (u b : Nat) : (s.event r u b).epochNow = s.epochNow := by
  obtain ⟨a, c, h⟩ := event_eq s r u b
  rw [h]
  rfl

@[simp] theorem eventIf_epochNow (c : Bool) (r : Reg) (u b : Nat) : (s.eventIf c r u b).epochNow = s.epochNow := by simp [State.eventIf]
@[simp] theorem raiseEvent_epochNow (b : Nat) (body : List Byte) : (raiseEvent s b body).epochNow = s.epochNow := by simp [raiseEvent]
@[simp] theorem updShard_epochNow (part index : Nat) (f : Shard → Shard) : (s.updShard part index f).epochNow = s.epochNow := (rfl)
@[simp] theorem updCmd_epochNow (n : Nat) (f : Cmd → Cmd) : (s.updCmd n f).epochNow = s.epochNow := (rfl)
@[simp] theorem updOut_epochNow (n i : Nat) (f : EntryOut → EntryOut) : (s.updOut n i f).epochNow = s.epochNow := (rfl)
@[simp] theorem addOut_epochNow (n : Nat) (o : EntryOut) : (s.addOut n o).epochNow = s.epochNow := (rfl)
@[simp] theorem setQp_epochNow (d : Nat) (q : Qp) : (s.setQp d q).epochNow = s.epochNow := (rfl)
@[simp] theorem updQp_epochNow (d : Nat) (f : Qp → Qp) : (s.updQp d f).epochNow = s.epochNow := (rfl)
@[simp] theorem setJournal_epochNow (p : Nat) (j : Journal) : (setJournal s p j).epochNow = s.epochNow := (rfl)
@[simp] theorem updBlock_epochNow (b : Nat) (f : Block → Block) : (s.updBlock b f).epochNow = s.epochNow := (rfl)
@[simp] theorem setZone_epochNow (p z : Nat) (x : Zone) : (s.setZone p z x).epochNow = s.epochNow := (rfl)
@[simp] theorem updPort_epochNow (i : Nat) (f : Port → Port) : (s.updPort i f).epochNow = s.epochNow := (rfl)
@[simp] theorem setUnit_epochNow (kind u : Nat) (r : UnitRec) : (s.setUnit kind u r).epochNow = s.epochNow := (rfl)
@[simp] theorem imgShow_epochNow (req code : Nat) : (imgShow s req code).epochNow = s.epochNow := (rfl)
@[simp] theorem extendMeas_epochNow (m : Nat) (d : List Byte) : (extendMeas s m d).epochNow = s.epochNow := (rfl)
@[simp] theorem ledgerMap_epochNow (p : Nat) (f : LRec → LRec) : (ledgerMap s p f).epochNow = s.epochNow := (rfl)
@[simp] theorem queueLog_epochNow (p : Nat) (r : LRec) : (queueLog s p r).epochNow = s.epochNow := by simp [queueLog]
@[simp] theorem ledgerAdd_epochNow (p : Nat) (r : LRec) : (ledgerAdd s p r).epochNow = s.epochNow := by simp [ledgerAdd]

@[simp] theorem faultRecord_epochNow (cls kind u addr : Nat) (parts cmds : List Nat) :
    (faultRecord s cls kind u addr parts cmds).epochNow = s.epochNow := by
  simp [faultRecord]

@[simp] theorem unitEvent_epochNow (kind u : Nat) : (unitEvent s kind u).epochNow = s.epochNow := by simp [unitEvent]

@[simp] theorem setService_epochNow (kind u : Nat) (f : UnitRec → UnitRec) : (setService s kind u f).epochNow = s.epochNow := by
  simp [setService]

end

/-! ### Commands, queries and queue pairs -/

section
variable (s : State)

@[simp] theorem dropRequests_epochNow (n : Nat) : (dropRequests s n).epochNow = s.epochNow := (rfl)
@[simp] theorem dropSweeps_epochNow (n : Nat) : (dropSweeps s n).epochNow = s.epochNow := (rfl)
@[simp] theorem finish_epochNow (n st pr cf : Nat) : (finish s n st pr cf).epochNow = s.epochNow := by simp [State.epochNow]
@[simp] theorem endWith_epochNow (n st : Nat) : (endWith s n st).epochNow = s.epochNow := by simp [endWith]
@[simp] theorem putResult_epochNow (n off : Nat) (b : List Byte) : (putResult s n off b).epochNow = s.epochNow := (rfl)
@[simp] theorem markRunning_epochNow (n : Nat) : (markRunning s n).epochNow = s.epochNow := (rfl)
@[simp] theorem stopBatch_epochNow (n st : Nat) : (stopBatch s n st).epochNow = s.epochNow := (rfl)

@[simp] theorem endBatch_epochNow (n : Nat) : (endBatch s n).epochNow = s.epochNow := by
  unfold endBatch
  split <;> simp

@[simp] theorem joinSweeps_epochNow (n : Nat) (q : Query) : (joinSweeps s n q).epochNow = s.epochNow := (rfl)

@[simp] theorem restartQuery_epochNow (n : Nat) : (restartQuery s n).epochNow = s.epochNow := by
  unfold restartQuery
  split <;> simp

@[simp] theorem restartQueries_epochNow (p : Query → Bool) : (restartQueries s p).epochNow = s.epochNow := by simp [restartQueries]
@[simp] theorem restartBatches_epochNow (p : Batch → Bool) : (restartBatches s p).epochNow = s.epochNow := (rfl)

@[simp] theorem mergeWork_epochNow (u : Nat) : (mergeWork s u).epochNow = s.epochNow := by
  unfold mergeWork
  split <;> simp

@[simp] theorem refetch_epochNow : (refetch s).epochNow = s.epochNow := (rfl)

@[simp] theorem fenceNote_epochNow (n p : Nat) (r : JRec) (visible : Nat) : (fenceNote s n p r visible).epochNow = s.epochNow := by
  unfold fenceNote
  split <;> simp

@[simp] theorem fenceTry_epochNow (n : Nat) : (fenceTry s n).epochNow = s.epochNow := by
  unfold fenceTry
  split <;> simp

@[simp] theorem checkFences_epochNow : (checkFences s).epochNow = s.epochNow := by simp [checkFences]

@[simp] theorem latchViol_epochNow (fn kind block detail : Nat) : (latchViol s fn kind block detail).epochNow = s.epochNow := by
  unfold latchViol
  dsimp only
  split
  · rfl
  · rfl

@[simp] theorem violation_epochNow (fn kind block detail : Nat) : (violation s fn kind block detail).epochNow = s.epochNow := by
  simp [violation]

@[simp] theorem failQp_epochNow (d cause : Nat) : (failQp s d cause).epochNow = s.epochNow := by simp [failQp]
@[simp] theorem cqHeadWrite_epochNow (d : Nat) (v : W32) : (cqHeadWrite s d v).epochNow = s.epochNow := by simp [cqHeadWrite]
@[simp] theorem sqTailWrite_epochNow (d : Nat) (v : W32) : (sqTailWrite s d v).epochNow = s.epochNow := by simp [sqTailWrite]

@[simp] theorem doorbell_epochNow (fn q : Nat) (cq : Bool) (v : W32) : (doorbell s fn q cq v).epochNow = s.epochNow := by
  unfold doorbell
  (repeat' split) <;> simp

@[simp] theorem replayDoorbells_epochNow : (replayDoorbells s).epochNow = s.epochNow := by simp [replayDoorbells]

end

/-! ### Transfers, cache lines and windows -/

section
variable (s : State)

@[simp] theorem charge_epochNow (part tier bytes : Nat) : (charge s part tier bytes).epochNow = s.epochNow := by simp [charge]

@[simp] theorem lineFill_epochNow (p line : Nat) (dirty pinned : Bool) : (lineFill s p line dirty pinned).epochNow = s.epochNow := by
  unfold lineFill
  dsimp only
  (repeat' split) <;> simp

@[simp] theorem linePin_epochNow (p line : Nat) : (linePin s p line).epochNow = s.epochNow := by
  unfold linePin
  split <;> simp

@[simp] theorem pinDescriptor_epochNow (sh : Shard) : (pinDescriptor s sh).epochNow = s.epochNow := by
  unfold pinDescriptor
  split <;> simp

@[simp] theorem pinDescriptors_epochNow : (pinDescriptors s).epochNow = s.epochNow := by simp [pinDescriptors]

@[simp] theorem unpinDescriptor_epochNow (sh : Shard) : (unpinDescriptor s sh).epochNow = s.epochNow := by
  unfold unpinDescriptor
  split <;> simp

@[simp] theorem lineTouch_epochNow (p : Nat) (write : Bool) (line : Nat) : (lineTouch s p write line).epochNow = s.epochNow := by
  unfold lineTouch
  dsimp only
  (repeat' split) <;> simp

@[simp] theorem spanTouch_epochNow (p a n : Nat) (write : Bool) : (spanTouch s p a n write).epochNow = s.epochNow := by simp [spanTouch]

@[simp] theorem structTouch_epochNow (sh : Shard) (k off n : Nat) (write : Bool) :
    (structTouch s sh k off n write).epochNow = s.epochNow := by
  unfold structTouch
  split <;> simp

@[simp] theorem slotTouch_epochNow (sh : Shard) (x : Nat) (write : Bool) : (slotTouch s sh x write).epochNow = s.epochNow := by
  simp [slotTouch]

@[simp] theorem t2Write_epochNow (a : Nat) (b : List Byte) : (t2Write s a b).epochNow = s.epochNow := by simp [t2Write]

@[simp] theorem winWrite_epochNow (sh : Shard) (a : Nat) (b : List Byte) : (winWrite s sh a b).epochNow = s.epochNow := by
  unfold winWrite
  split <;> simp

@[simp] theorem winWrite?_epochNow (sh : Shard) (a : Option Nat) (b : List Byte) : (winWrite? s sh a b).epochNow = s.epochNow := by
  unfold winWrite?
  split <;> simp

@[simp] theorem dropLines_epochNow (p : Nat → Bool) : (dropLines s p).epochNow = s.epochNow := (rfl)
@[simp] theorem sliceLines_epochNow (slice : Nat) : (sliceLines s slice).epochNow = s.epochNow := (rfl)
@[simp] theorem applyRates_epochNow : (applyRates s).epochNow = s.epochNow := by simp [applyRates]
@[simp] theorem sheetApply_epochNow : (sheetApply s).epochNow = s.epochNow := by simp [sheetApply]
@[simp] theorem copiesLeave_epochNow (w : Nat → Bool) : (copiesLeave s w).epochNow = s.epochNow := (rfl)
@[simp] theorem dropLatents_epochNow (st : Nat) : (dropLatents s st).epochNow = s.epochNow := (rfl)
@[simp] theorem rebuildShadow_epochNow : (rebuildShadow s).epochNow = s.epochNow := (rfl)

@[simp] theorem placeModel_epochNow (f : InForce) : (placeModel s f).epochNow = s.epochNow := by
  unfold placeModel
  dsimp only
  (repeat' split) <;> simp

@[simp] theorem placeModels_epochNow : (placeModels s).epochNow = s.epochNow := by simp [placeModels]
@[simp] theorem stackWork_epochNow (st : Nat) : (stackWork s st).epochNow = s.epochNow := by simp [stackWork]

end

/-! ### Writes of flash (R379, R381, R390) -/

/-- Nothing but flash, the read-only registers and the counter of free values differs. -/
def FlashOnly (s t : State) : Prop := ∃ f ro n, t = { s with felt := f, regs := { s.regs with ro := ro }, free := n }

theorem FlashOnly.refl (s : State) : FlashOnly s s := ⟨s.felt, s.regs.ro, s.free, rfl⟩

theorem FlashOnly.trans {s t u : State} (h : FlashOnly s t) (g : FlashOnly t u) : FlashOnly s u := by
  obtain ⟨_, _, _, rfl⟩ := h
  obtain ⟨f, ro, n, rfl⟩ := g
  exact ⟨f, ro, n, rfl⟩

theorem FlashOnly.foldl {α : Type} {g : State → α → State} (h : ∀ s x, FlashOnly s (g s x)) (l : List α) (s : State) :
    FlashOnly s (l.foldl g s) :=
  List.foldlRecOn (motive := FlashOnly s) l g (.refl s) fun t ht x _ => ht.trans (h t x)

theorem mapFelt_flashOnly (s : State) (f : FeltState → FeltState) : FlashOnly s (s.mapFelt f) := ⟨f s.felt, s.regs.ro, s.free, rfl⟩

theorem freeBlock_flashOnly (s : State) (fast : Bool) : FlashOnly s (freeBlock s fast).2 := ⟨_, s.regs.ro, s.free + 1, rfl⟩

theorem stripeParity_flashOnly (s : State) (g pos : Nat) : FlashOnly s (stripeParity s g pos) := by
  unfold stripeParity
  dsimp only
  split
  · split
    · exact .refl s
    · exact ⟨_, s.regs.ro, s.free, rfl⟩
  · exact .refl s

theorem writeCodeword_flashOnly (s : State) (l kind gen b : Nat) : FlashOnly s (writeCodeword s l kind gen b) := by
  have hparity : ∀ (t : State) (g pos : Nat), FlashOnly s t → FlashOnly s (stripeParity t g pos) := fun t g pos h =>
    h.trans (stripeParity_flashOnly t g pos)
  unfold writeCodeword
  dsimp only
  split
  · exact (hparity _ _ _ ⟨_, s.regs.ro, s.free, rfl⟩).trans ⟨_, _, _, rfl⟩
  · exact hparity _ _ _ ⟨_, s.regs.ro, s.free, rfl⟩

theorem zoneWrite_flashOnly (s : State) (p z kind : Nat) (ls : List Nat) : FlashOnly s (zoneWrite s p z kind ls) :=
  (FlashOnly.foldl (fun t _ => writeCodeword_flashOnly t _ _ _ _) _ s).trans ⟨_, _, _, rfl⟩

theorem deviceWrite_flashOnly {s t : State} {p index : Nat} {ckpt : Bool} {ls : List Nat}
    (h : deviceWrite s p ckpt index ls = some t) : FlashOnly s t := by
  unfold deviceWrite at h
  dsimp only at h
  split at h
  · cases h
  · split at h
    · split at h
      · cases h
      · split at h
        · cases h
        · cases h
          exact zoneWrite_flashOnly s p _ _ ls
    · cases h
      exact .foldl (fun t l => (freeBlock_flashOnly t _).trans (writeCodeword_flashOnly _ _ _ _ _)) ls s

theorem FlashOnly.epochNow {s t : State} (h : FlashOnly s t) : t.epochNow = s.epochNow := by
  obtain ⟨_, _, _, rfl⟩ := h
  rfl

/-! ### Flash and the journal -/

section
variable (s : State)

@[simp] theorem unmapAll_epochNow (l : List Nat) : (unmapAll s l).epochNow = s.epochNow := (rfl)
@[simp] theorem unmapFreed_epochNow : (unmapFreed s).epochNow = s.epochNow := (rfl)
@[simp] theorem eraseBlock_epochNow (b : Nat) : (eraseBlock s b).epochNow = s.epochNow := (rfl)

@[simp] theorem writeCodeword_epochNow (l kind gen b : Nat) : (writeCodeword s l kind gen b).epochNow = s.epochNow :=
  (writeCodeword_flashOnly s l kind gen b).epochNow

@[simp] theorem copyCodeword_epochNow (l b : Nat) : (copyCodeword s l b).epochNow = s.epochNow := by
  unfold copyCodeword
  split <;> simp

@[simp] theorem freeBlock_epochNow (fast : Bool) : (freeBlock s fast).2.epochNow = s.epochNow := (rfl)
@[simp] theorem codewordLost_epochNow (l : Nat) : (codewordLost s l).epochNow = s.epochNow := (rfl)
@[simp] theorem rewritePages_epochNow (die : Nat) : (rewritePages s die).epochNow = s.epochNow := (rfl)
@[simp] theorem dieLost_epochNow (die : Nat) : (dieLost s die).epochNow = s.epochNow := by simp [dieLost]
@[simp] theorem mapCheckpoint_epochNow : (mapCheckpoint s).epochNow = s.epochNow := by simp [mapCheckpoint]

@[simp] theorem rekeyCheck_epochNow (p : Nat) : (rekeyCheck s p).epochNow = s.epochNow := by
  unfold rekeyCheck
  split <;> simp

@[simp] theorem releasePages_epochNow (p : Nat) : (releasePages s p).epochNow = s.epochNow := by simp [releasePages]
@[simp] theorem ckptComplete_epochNow (p epoch : Nat) : (ckptComplete s p epoch).epochNow = s.epochNow := by simp [ckptComplete]

theorem journalPlace_epochNow {s t : State} {p : Nat} {r : JRec} (h : journalPlace s p r = .ok t) : t.epochNow = s.epochNow := by
  unfold journalPlace at h
  dsimp only at h
  (repeat' split at h) <;> cases h <;> rfl

@[simp] theorem undoRec_epochNow (p : Nat) (r : JRec) : (undoRec s p r).epochNow = s.epochNow := by
  unfold undoRec
  split <;> simp

@[simp] theorem withdraw_epochNow (p : Nat) (start : JRec → Bool) : (withdraw s p start).epochNow = s.epochNow := by
  unfold withdraw
  dsimp only
  refine (foldl_epochNow _ (fun t n => by simp) _).trans ((foldl_keeps State.epochNow (fun t r => ?_) _ _).trans ?_)
  · split <;> simp
  · simp [-List.foldl_reverse]

@[simp] theorem cutBatch_epochNow (n : Nat) : (cutBatch s n).epochNow = s.epochNow := by
  unfold cutBatch
  split <;> simp

@[simp] theorem faultCmd_epochNow (n : Nat) : (faultCmd s n).epochNow = s.epochNow := by
  unfold faultCmd
  split <;> simp

@[simp] theorem channelWork_epochNow : (channelWork s).epochNow = s.epochNow := by simp [channelWork]
@[simp] theorem acceptInsert_epochNow (sh : Shard) (r : JRec) : (acceptInsert s sh r).epochNow = s.epochNow := by simp [acceptInsert]

@[simp] theorem acceptAttr_epochNow (sh : Shard) (r : JRec) (e : Nat) : (acceptAttr s sh r e).epochNow = s.epochNow := by
  unfold acceptAttr
  split <;> simp

@[simp] theorem applyRec_epochNow (p : Nat) (r : JRec) (e : Nat) : (applyRec s p r e).epochNow = s.epochNow := by
  unfold applyRec
  split <;> simp

@[simp] theorem acceptRec_epochNow (p : Nat) (r : JRec) : (acceptRec s p r).epochNow = s.epochNow := by
  unfold acceptRec
  dsimp only
  (repeat' split) <;> simp

@[simp] theorem acceptDeferred_epochNow : (acceptDeferred s).epochNow = s.epochNow := by simp [acceptDeferred]

@[simp] theorem epochMarks_epochNow (lastRtc : Nat) : (epochMarks s lastRtc).epochNow = s.epochNow := by
  refine foldl_keeps State.epochNow (fun t p => ?_) _ s
  split
  next hu => simp [journalPlace_epochNow hu]
  next => simp

end

/-! ### Packets and ports -/

section
variable (s : State)

@[simp] theorem deliver_epochNow (p : Packet) : (deliver s p).epochNow = s.epochNow := (rfl)
@[simp] theorem portSend_epochNow (i : Nat) : (portSend s i).epochNow = s.epochNow := by simp [portSend]
@[simp] theorem enqueue_epochNow (i : Nat) (p : Packet) : (enqueue s i p).epochNow = s.epochNow := by simp [enqueue]

@[simp] theorem routePkt_epochNow (p : Packet) (from_ : Option Nat) : (routePkt s p from_).epochNow = s.epochNow := by
  unfold routePkt
  dsimp only
  (repeat' split) <;> simp

@[simp] theorem sendPkt_epochNow (p : Packet) : (sendPkt s p).epochNow = s.epochNow := by simp [sendPkt]
@[simp] theorem twillCharge_epochNow (p : Packet) : (twillCharge s p).epochNow = s.epochNow := by simp [twillCharge]
@[simp] theorem sendMsg_epochNow (l : List Packet) : (sendMsg s l).epochNow = s.epochNow := by simp [sendMsg]

@[simp] theorem sendCtrl_epochNow (dst part msg comp segWord tgen arg : Nat) :
    (sendCtrl s dst part msg comp segWord tgen arg).epochNow = s.epochNow := by
  simp [sendCtrl]

@[simp] theorem bindTo_epochNow (k a : Nat) : (bindTo s k a).epochNow = s.epochNow := (rfl)
@[simp] theorem anchorBoundary_epochNow : (anchorBoundary s).epochNow = s.epochNow := by simp [anchorBoundary]
@[simp] theorem pruneBindings_epochNow : (pruneBindings s).epochNow = s.epochNow := (rfl)
@[simp] theorem reroute_epochNow (i : Nat) : (reroute s i).epochNow = s.epochNow := by simp [reroute]
@[simp] theorem enterDisabled_epochNow (i : Nat) : (enterDisabled s i).epochNow = s.epochNow := by simp [enterDisabled]
@[simp] theorem enterDetect_epochNow (i : Nat) : (enterDetect s i).epochNow = s.epochNow := (rfl)
@[simp] theorem enterDown_epochNow (i : Nat) : (enterDown s i).epochNow = s.epochNow := by simp [enterDown]
@[simp] theorem enterCal_epochNow (i : Nat) : (enterCal s i).epochNow = s.epochNow := (rfl)
@[simp] theorem resendAll_epochNow (i : Nat) : (resendAll s i).epochNow = s.epochNow := by simp [resendAll]
@[simp] theorem enterActive_epochNow (i : Nat) : (enterActive s i).epochNow = s.epochNow := by simp [enterActive]

@[simp] theorem portConfig_epochNow (i : Nat) : (portConfig s i).epochNow = s.epochNow := by
  unfold portConfig
  dsimp only
  (repeat' split) <;> simp

@[simp] theorem portsConfig_epochNow : (portsConfig s).epochNow = s.epochNow := by simp [portsConfig]

end

/-! ### Units that leave service and return -/

section
variable (s : State)

@[simp] theorem fenceWork_epochNow (kind u : Nat) : (fenceWork s kind u).epochNow = s.epochNow := by
  unfold fenceWork
  split <;> simp

@[simp] theorem retireUnit_epochNow (kind u : Nat) : (retireUnit s kind u).epochNow = s.epochNow := by simp [retireUnit]

@[simp] theorem enterOut_epochNow (kind u : Nat) (auto tried : Bool) : (enterOut s kind u auto tried).epochNow = s.epochNow := by
  simp [enterOut]

@[simp] theorem unitFault_epochNow (kind u cls addr : Nat) (auto : Bool) : (unitFault s kind u cls addr auto).epochNow = s.epochNow := by
  unfold unitFault
  dsimp only
  (repeat' split) <;> simp

@[simp] theorem outWork_epochNow (kind u : Nat) : (outWork s kind u).epochNow = s.epochNow := by
  unfold outWork
  split <;> simp

@[simp] theorem fenceOne_epochNow (kind u cls addr : Nat) (auto : Bool) : (fenceOne s kind u cls addr auto).epochNow = s.epochNow := by
  simp [fenceOne]

@[simp] theorem fenceUnit_epochNow (kind u cls addr : Nat) (auto : Bool) : (fenceUnit s kind u cls addr auto).epochNow = s.epochNow := by
  simp [fenceUnit]

@[simp] theorem takeOut_epochNow (cmd kind u : Nat) : (takeOut s cmd kind u).1.epochNow = s.epochNow := by
  unfold takeOut
  dsimp only
  (repeat' split) <;> simp

@[simp] theorem setPower_epochNow (kind u : Nat) (off : Bool) : (setPower s kind u off).epochNow = s.epochNow := (rfl)
@[simp] theorem unitPower_epochNow (kind u : Nat) (off : Bool) : (unitPower s kind u off).epochNow = s.epochNow := by simp [unitPower]
@[simp] theorem enterReturning_epochNow (kind u : Nat) : (enterReturning s kind u).epochNow = s.epochNow := by simp [enterReturning]

@[simp] theorem restore_epochNow (kind u : Nat) : (restore s kind u).1.epochNow = s.epochNow := by
  unfold restore
  dsimp only
  split <;> simp

@[simp] theorem deepApply_epochNow : (deepApply s).epochNow = s.epochNow := by simp [deepApply]
@[simp] theorem readmit_epochNow : (readmit s).epochNow = s.epochNow := by simp [readmit]
@[simp] theorem autoReturn_epochNow : (autoReturn s).epochNow = s.epochNow := by simp [autoReturn]
@[simp] theorem spareServe_epochNow : (spareServe s).epochNow = s.epochNow := by simp [spareServe]

end

/-! ### Registers and strobes -/

section
variable (s : State)

@[simp] theorem takeCopy_epochNow (k : Nat) (c : RegCopy) : (takeCopy s k c).epochNow = s.epochNow := (rfl)
@[simp] theorem catchUp_epochNow (p : Nat → Bool) : (catchUp p s).epochNow = s.epochNow := (rfl)

@[simp] theorem lagBehind_epochNow (missed : List Nat) (old : List (Nat × Option RegCopy)) :
    (lagBehind missed old s).epochNow = s.epochNow := (rfl)

@[simp] theorem strobeCopies_epochNow (l : Smap RegCopy) : (strobeCopies s l).epochNow = s.epochNow := by
  unfold strobeCopies
  dsimp only
  rw [foldl_keeps State.epochNow fun t e => by split <;> simp]
  simp

@[simp] theorem ungate_epochNow : (ungate s).epochNow = s.epochNow := (rfl)
@[simp] theorem afterStrobe_epochNow : (afterStrobe s).epochNow = s.epochNow := by simp [afterStrobe]
@[simp] theorem issueUpdate_epochNow (g : W32) : (issueUpdate s g).epochNow = s.epochNow := by simp [issueUpdate]

@[simp] theorem issueNext_epochNow : (issueNext s).epochNow = s.epochNow := by
  unfold issueNext
  split <;> simp

@[simp] theorem configStrobe_epochNow (l : Smap RegCopy) (skip : List Nat) : (configStrobe s l skip).epochNow = s.epochNow := by
  simp [configStrobe]

@[simp] theorem reloadCopies_epochNow (p : Reg → Nat → Bool) : (reloadCopies s p).epochNow = s.epochNow := by
  unfold reloadCopies
  dsimp only
  rw [foldl_keeps State.epochNow fun t k => by split <;> simp]
  simp

@[simp] theorem reloadUnit_epochNow (b u : Nat) : (reloadUnit s b u).epochNow = s.epochNow := by simp [reloadUnit]
@[simp] theorem reloadParts_epochNow : (reloadParts s).epochNow = s.epochNow := by simp [reloadParts]

end

/-! ### The apply of an image -/

section
variable (s : State)

@[simp] theorem takeConfig_epochNow (x : ImgSlot) : (takeConfig s x).epochNow = s.epochNow := by simp [takeConfig]
@[simp] theorem partitionDrained_epochNow (p : Nat) : (partitionDrained s p).epochNow = s.epochNow := by simp [partitionDrained]
@[simp] theorem releasePart_epochNow (was : ImgCfg) (p : Nat) : (releasePart s was p).epochNow = s.epochNow := by simp [releasePart]

@[simp] theorem partMove_epochNow (was : ImgCfg) (p : Nat) : (partMove was s p).epochNow = s.epochNow := by
  unfold partMove
  split <;> simp

@[simp] theorem scrubWindow_epochNow (w o : Nat) : (scrubWindow s w o).epochNow = s.epochNow := (rfl)

@[simp] theorem windowsApply_epochNow (was : ImgCfg) (before : Nat → PState) : (windowsApply was before s).epochNow = s.epochNow := by
  simp [windowsApply]

@[simp] theorem queuesApply_epochNow (was : ImgCfg) : (queuesApply was s).epochNow = s.epochNow := (rfl)
@[simp] theorem powerApply_epochNow (was : ImgCfg) : (powerApply was s).epochNow = s.epochNow := by simp [powerApply]

@[simp] theorem routesApply_epochNow (full : Bool) (carried : List Nat) : (routesApply full carried s).epochNow = s.epochNow := by
  simp [routesApply]

@[simp] theorem keysApply_epochNow (keys : Smap KeySet) : (keysApply s keys).epochNow = s.epochNow := by
  refine foldl_keeps State.epochNow (fun t e => ?_) keys s
  dsimp only
  split <;> simp

@[simp] theorem zonesRelease_epochNow (p : Nat) : (zonesRelease s p).epochNow = s.epochNow := by simp [zonesRelease]
@[simp] theorem zoneModeApply_epochNow (p : Nat) (was : Bool) : (zoneModeApply s p was).epochNow = s.epochNow := by simp [zoneModeApply]
@[simp] theorem modesApply_epochNow (was : ImgCfg) : (modesApply was s).epochNow = s.epochNow := by simp [modesApply]
@[simp] theorem lenApply_epochNow : (lenApply s).epochNow = s.epochNow := by simp [lenApply]
@[simp] theorem applyImage_epochNow (x : ImgSlot) : (applyImage s x).epochNow = s.epochNow := by simp [applyImage]
@[simp] theorem scrubFree_epochNow : (scrubFree s).epochNow = s.epochNow := by simp [scrubFree]

end

/-! ### Shards, models and bindings at a boundary -/

section
variable (s : State)

@[simp] theorem relocSwitch_epochNow (sh : Shard) : (relocSwitch s sh).epochNow = s.epochNow := by
  unfold relocSwitch
  split <;> simp

@[simp] theorem ledgerLinked_epochNow (sh : Shard) (lo hi : Nat) : (ledgerLinked s sh lo hi).epochNow = s.epochNow := by simp [ledgerLinked]

@[simp] theorem enterRetiring_epochNow (sh : Shard) (n : Nat) : (enterRetiring s sh n).epochNow = s.epochNow := by
  unfold enterRetiring
  dsimp only
  (repeat' split) <;> simp

@[simp] theorem freezeHist_epochNow (hostAssisted : Bool) (sh : Shard) (n : Nat) :
    (freezeHist s hostAssisted sh n).epochNow = s.epochNow := by
  simp [freezeHist]

@[simp] theorem firstServing_epochNow (sh : Shard) (n : Nat) : (firstServing s sh n).epochNow = s.epochNow := by
  have hwrite : ∀ (t : State) (ls : List Nat), ((deviceWrite t sh.part true 0 ls).getD t).epochNow = t.epochNow := fun t ls => by
    cases h : deviceWrite t sh.part true 0 ls with
    | none => rfl
    | some u => exact (deviceWrite_flashOnly h).epochNow
  unfold firstServing
  dsimp only
  split
  · rw [finish_epochNow]
    split <;> simp [hwrite]
  · split <;> simp [hwrite]

@[simp] theorem shardBoundary_epochNow (hosted : Nat → Bool) (n k : Nat) : (shardBoundary hosted n s k).epochNow = s.epochNow := by
  unfold shardBoundary
  dsimp only
  (repeat' split) <;> simp

@[simp] theorem freeRetired_epochNow : (freeRetired s).epochNow = s.epochNow :=
  foldl_keeps State.epochNow (fun t sh => by split <;> simp) _ s

@[simp] theorem releaseModels_epochNow : (releaseModels s).epochNow = s.epochNow := (rfl)

@[simp] theorem groupsAtBoundary_epochNow : (groupsAtBoundary s).epochNow = s.epochNow := by
  unfold groupsAtBoundary
  dsimp only
  rw [foldl_keeps State.epochNow fun t g => by split <;> simp]
  simp

@[simp] theorem bindingsApply_epochNow (e n : Nat) : (bindingsApply s e n).epochNow = s.epochNow := by simp [bindingsApply]
@[simp] theorem keepPast_epochNow : (keepPast s).epochNow = s.epochNow := (rfl)

end

/-! ### The whole boundary -/

/-- After the strobe that begins epoch `n` the counter stands at `n` and no PREPARE has passed. -/
theorem beginEpoch_epochNow (s : State) (n : Nat) (images : List ImgSlot) (skip : List Nat) :
    (beginEpoch s n images skip).epochNow = (n, false, s.epoch.first) := by
  have hmove : ∀ apply, (counterMove (keepPast s) n skip apply).epochNow = (n, false, s.epoch.first) := fun _ => rfl
  simp [beginEpoch, hmove]

end Sys2Proof.Machine
end

section
/-! PROOF. Bits of event registers (R84): a bit once set stays set under every later event, whichever register and bit it is of, and
under the reports that end in events. -/
namespace Sys2Proof.Machine
open Sys2Proof

/-- Bit `b` of an event register is set. -/
def State.HasEvent (s : State) (r : Reg) (u b : Nat) : Prop := (s.sqc r u).ev.getLsbD b = true

section
variable {s : State} {r : Reg} {u b : Nat}

theorem hasEvent_event (s : State) (r : Reg) (u : Nat) {b : Nat} (hb : b < 24) : (s.event r u b).HasEvent r u b := by
  rw [State.HasEvent, event_sqc]
  exact sqcSet_bit _ _ hb

theorem sqc_event_other (s : State) {r r' : Reg} {u u' : Nat} (b : Nat) (h : regKey r u ≠ regKey r' u') :
    (s.event r' u' b).sqc r u = s.sqc r u := by
  obtain ⟨a, c, he⟩ := event_eq s r' u' b
  rw [he]
  exact Smap.getD_put_ne _ _ _ _ _ h

theorem sqc_of_regKey (s : State) {r r' : Reg} {u u' : Nat} (h : regKey r u = regKey r' u') : s.sqc r u = s.sqc r' u' := by
  rw [State.sqc, h, State.sqc]

theorem State.HasEvent.event (h : s.HasEvent r u b) (r' : Reg) (u' b' : Nat) : (s.event r' u' b').HasEvent r u b := by
  unfold State.HasEvent at h ⊢
  by_cases hk : regKey r u = regKey r' u'
  · rw [sqc_of_regKey _ hk, event_sqc, ← sqc_of_regKey s hk, sqcSet, BitVec.getLsbD_or, h, Bool.true_or]
  · rw [sqc_event_other s b' hk, h]

theorem State.HasEvent.eventIf (h : s.HasEvent r u b) (c : Bool) (r' : Reg) (u' b' : Nat) : (s.eventIf c r' u' b').HasEvent r u b := by
  unfold State.eventIf
  split
  · exact h.event r' u' b'
  · exact h

theorem State.HasEvent.mapUsnea (h : s.HasEvent r u b) (f : UsneaState → UsneaState) : (s.mapUsnea f).HasEvent r u b := h

theorem State.HasEvent.raiseEvent (h : s.HasEvent r u b) (n : Nat) (body : List Byte) : (raiseEvent s n body).HasEvent r u b := by
  unfold Machine.raiseEvent
  dsimp only
  split
  · exact h
  · exact (h.mapUsnea _).eventIf _ _ _ _

theorem State.HasEvent.imgShow (h : s.HasEvent r u b) (req code : Nat) : (imgShow s req code).HasEvent r u b := h

end

end Sys2Proof.Machine
end

section
/-! PROOF. Epoch boundaries, the first strobe, scrubs and image verification, and O33, which says what each of their rows does
(R54, R57, R59, R254 to R259, R278, R659). -/
namespace Sys2Proof.Machine
open Sys2Proof

/-! ### PREPARE and the strobe -/

theorem prepare_epoch {s : State} (hcur : s.epoch.cur ≠ 0) (hprepared : s.epoch.prepared = false) :
    (prepare s).epoch = { s.epoch with prepared := true, ready := gatedDomains s } := by
  have hwait : ¬(s.epoch.cur = 0 ∨ s.epoch.prepared = true) := by simp [hcur, hprepared]
  unfold prepare
  rw [if_neg hwait]
  rfl

/-- The end of a boundary touches the epoch sequencer only where it awaits acknowledgements (R257). -/
theorem boundaryEnd_epoch (s : State) : ∃ a, (boundaryEnd s).epoch = { s.epoch with awaiting := a } := by
  unfold boundaryEnd
  split
  · exact ⟨false, by simp⟩
  · exact ⟨s.epoch.awaiting, rfl⟩

@[simp] theorem boundaryEnd_epochNow (s : State) : (boundaryEnd s).epochNow = s.epochNow := by
  obtain ⟨a, h⟩ := boundaryEnd_epoch s
  rw [State.epochNow, h, State.epochNow]

@[simp] theorem boundaryEnd_acked (s : State) : (boundaryEnd s).epoch.acked = s.epoch.acked := by
  obtain ⟨a, h⟩ := boundaryEnd_epoch s
  rw [h]

@[simp] theorem boundaryEnd_img (s : State) : (boundaryEnd s).img = s.img := by
  unfold boundaryEnd
  split
  · simp
  · rfl

@[simp] theorem boundaryEnd_power (s : State) : (boundaryEnd s).power = s.power := by
  unfold boundaryEnd
  split
  · simp
  · rfl

theorem epochStrobe_of_prepared {s : State} (h : s.epoch.prepared = true) :
    epochStrobe s = boundaryEnd (beginEpoch s (s.epoch.cur + 1) (imagesDue s (s.epoch.cur + 1))
      ((handshake s).filter fun d => !s.epoch.ready.contains d)) :=
  if_neg (by simp [h])

theorem epochStrobe_epochNow {s : State} (h : s.epoch.prepared = true) :
    (epochStrobe s).epochNow = (s.epoch.cur + 1, false, s.epoch.first) := by
  rw [epochStrobe_of_prepared h, boundaryEnd_epochNow, beginEpoch_epochNow]

/-! ### The first strobe (R278, R659) -/

/-- The state in which the first strobe begins its epoch: shadows staged, the first epoch named. -/
def firstStrobeBase (s : State) : State := (stageShadows s true).mapEpoch fun e => { e with first := s.epoch.largest + 1 }

/-- The strobe's end: both slots empty, the node running. -/
def nowRunning (s : State) : State :=
  (s.mapImg fun i => { i with slot0 := none, slot1 := none }).mapPower fun p => { p with stage := .running, startSlot := none }

@[simp] theorem firstStrobeBase_first (s : State) : (firstStrobeBase s).epoch.first = s.epoch.largest + 1 := rfl

@[simp] theorem nowRunning_epochNow (s : State) : (nowRunning s).epochNow = s.epochNow := (rfl)

theorem firstStrobe_of_rebuilt {s : State} {x : ImgSlot} (hstage : s.power.stage = .rebuild) (hrebuilt : rebuilt s = true)
    (hslot : s.power.startSlot.bind (getSlot s) = some x) :
    firstStrobe s = boundaryEnd (nowRunning (beginEpoch (firstStrobeBase s) (s.epoch.largest + 1) [x] [])) := by
  unfold firstStrobe
  rw [if_neg (by simp [hstage, hrebuilt]), hslot]
  rfl

theorem firstStrobe_epochNow {s : State} {x : ImgSlot} (hstage : s.power.stage = .rebuild) (hrebuilt : rebuilt s = true)
    (hslot : s.power.startSlot.bind (getSlot s) = some x) :
    (firstStrobe s).epochNow = (s.epoch.largest + 1, false, s.epoch.largest + 1) := by
  rw [firstStrobe_of_rebuilt hstage hrebuilt hslot, boundaryEnd_epochNow, nowRunning_epochNow, beginEpoch_epochNow, firstStrobeBase_first]

/-! ### Acknowledgements and their timeout (R257, R258) -/

theorem strobeAck_of_match {s : State} {d : Nat} (hawaiting : s.epoch.awaiting = true) (hd : d < 236)
    (hmissed : s.epoch.missed.contains d = false) :
    strobeAck s d (s.epoch.cur % 256) = boundaryEnd (s.mapEpoch fun e => { e with acked := addSet e.acked d }) := by
  unfold strobeAck
  rw [if_neg (by simp [hawaiting, hd]), if_pos ⟨rfl, by rw [hmissed]; rfl⟩]

theorem strobeAck_of_mismatch {s : State} {d b : Nat} (hawaiting : s.epoch.awaiting = true) (hd : d < 236)
    (hb : b ≠ s.epoch.cur % 256) : strobeAck s d b = s.mapEpoch fun e => { e with missed := addSet e.missed d } := by
  unfold strobeAck
  rw [if_neg (by simp [hawaiting, hd]), if_neg (by simp [hb])]

/-- Domains that go back to their earlier copies leave the epoch sequencer as it is. -/
@[simp] theorem configBack_epoch (late : List Nat) (s : State) : (configBack late s).epoch = s.epoch := by
  unfold configBack lagBehind
  simp only [State.mapRegs_epoch]
  refine foldl_keeps State.epoch (fun t e => ?_) _ s
  rfl

/-- Domains of the handshake that have missed the boundary or have not acknowledged it. -/
def lateDomains (s : State) : List Nat := (handshake s).filter fun d => s.epoch.missed.contains d || !s.epoch.acked.contains d

/-- The domains named go back to the copies that they had, and the awaiting ends. -/
def endAwaiting (s : State) (late : List Nat) : State :=
  configBack late (s.mapEpoch fun e => { e with awaiting := false, missed := late })

theorem ackTimeout_of_none_late {s : State} (hawaiting : s.epoch.awaiting = true) (hlate : lateDomains s = []) :
    ackTimeout s = (endAwaiting s []).setRo .epcMissed 0 (BitVec.ofNat 32 (256 * min 0xFFFFFF ((s.ro .epcMissed 0).toNat / 256))) := by
  unfold lateDomains at hlate
  unfold ackTimeout
  rw [if_neg (by simp [hawaiting]), hlate]
  simp [endAwaiting]

theorem ackTimeout_of_one_late {s : State} {d : Nat} (hawaiting : s.epoch.awaiting = true) (hlate : lateDomains s = [d])
    (happlied : s.epoch.appliedNow = false) :
    ackTimeout s = fenceUnit ((((endAwaiting s [d]).setRo .epcMissed 0
      (BitVec.ofNat 32 (1 + 256 * min 0xFFFFFF ((s.ro .epcMissed 0).toNat / 256 + 1)))).event .epcEvent 0 1).event .rasEvent 0 7)
      0x12 d 0x02 0 true := by
  unfold lateDomains at hlate
  unfold ackTimeout
  rw [if_neg (by simp [hawaiting]), hlate]
  simp [endAwaiting, happlied]

/-! ### Scrubs (R57) -/

theorem scrubStepOf_sheet {s : State} {p : Nat} (h : s.img.scrubStep.get p = some 2) :
    scrubStepOf s p = (s.mapMem fun m => (s.img.scrubSheet.filter fun e => e.2 == p).foldl (fun m e => zeroSheet m e.1) m).mapImg
      fun i => { i with scrubStep := i.scrubStep.put p 3 } := by
  unfold scrubStepOf
  simp only [h]

theorem scrubStepOf_windows {s : State} {p : Nat} (h : s.img.scrubStep.get p = some 3) :
    scrubStepOf s p = (zeroWindows s p).mapImg fun i => { i with scrubStep := i.scrubStep.put p 4 } := by
  unfold scrubStepOf
  simp only [h]

/-- A line lies in the T3 allotment that a partition gives up, which is counted in units of 2^24. -/
def inScrubDdr (s : State) (p line : Nat) : Prop :=
  (s.img.scrubDdr.getD p (0, 0)).1 ≤ line / 2 ^ 24 ∧
    line / 2 ^ 24 < (s.img.scrubDdr.getD p (0, 0)).1 + (s.img.scrubDdr.getD p (0, 0)).2

theorem scrubStepOf_t3_step {s : State} {p : Nat} (h : s.img.scrubStep.get p = some 4) :
    (scrubStepOf s p).img.scrubStep.get p = some 5 := by
  unfold scrubStepOf
  rw [h]
  exact Smap.get_put_same _ _ _

theorem mem_t3_scrubStepOf {s : State} {p : Nat} (h : s.img.scrubStep.get p = some 4) (e : Nat × Nat) :
    e ∈ (scrubStepOf s p).mem.t3 ↔ e ∈ s.mem.t3 ∧ ¬inScrubDdr s p e.1 := by
  unfold scrubStepOf
  rw [h]
  refine List.mem_filter.trans ?_
  simp only [inScrubDdr, Bool.not_eq_true', Bool.and_eq_false_iff, decide_eq_false_iff_not, not_and_or]

/-! ### The end of a verification (R48, R50) -/

theorem imageVerifyDone_of_verifying {s : State} {k : Nat} {x : ImgSlot} (hslot : getSlot s k = some x) (hphase : x.phase = .verifying)
    (hblock : s.blockOut 1 = false) :
    imageVerifyDone s k = match verifyImage s x.bytes x.req with
      | .error r => imgReject (setSlot s k none) x.req r
      | .ok y => raiseEvent (imgShow ((setSlot s k (some y)).event .imgStatus 0 0) x.req 2) 3 (natLe 4 x.req ++ natLe 4 2) := by
  unfold imageVerifyDone
  rw [hslot]
  exact if_neg (by simp [hphase, hblock])

/-- There are two slots. -/
theorem slot_of_getSlot {s : State} {k : Nat} {x : ImgSlot} (h : getSlot s k = some x) : k = 0 ∨ k = 1 := by
  unfold getSlot at h
  split at h
  · exact .inl ‹_›
  · split at h
    · exact .inr ‹_›
    · cases h

theorem getSlot_setSlot (s : State) {k : Nat} (hk : k = 0 ∨ k = 1) (x : Option ImgSlot) : getSlot (setSlot s k x) k = x := by
  rcases hk with rfl | rfl
  · rfl
  · rfl

theorem getSlot_of_img {s t : State} (h : t.img = s.img) (k : Nat) : getSlot t k = getSlot s k := by rw [getSlot, h, getSlot]

/-- What `IMG_STATUS` shows is no part of a slot. -/
@[simp] theorem getSlot_imgShow (s : State) (req code k : Nat) : getSlot (imgShow s req code) k = getSlot s k := by
  unfold getSlot imgShow
  by_cases h : s.img.newest = req <;> simp [h]

@[simp] theorem getSlot_event (s : State) (r : Reg) (u b k : Nat) : getSlot (s.event r u b) k = getSlot s k := getSlot_of_img (by simp) k
@[simp] theorem getSlot_eventIf (s : State) (c : Bool) (r : Reg) (u b k : Nat) : getSlot (s.eventIf c r u b) k = getSlot s k :=
  getSlot_of_img (by simp) k
@[simp] theorem getSlot_setRo (s : State) (r : Reg) (u : Nat) (v : W32) (k : Nat) : getSlot (s.setRo r u v) k = getSlot s k := rfl
@[simp] theorem getSlot_raiseEvent (s : State) (b : Nat) (body : List Byte) (k : Nat) : getSlot (raiseEvent s b body) k = getSlot s k :=
  getSlot_of_img (raiseEvent_onlyReports s b body).img k

@[simp] theorem raiseEvent_regs_ro (s : State) (b : Nat) (body : List Byte) : (raiseEvent s b body).regs.ro = s.regs.ro := by
  unfold raiseEvent State.eventIf
  dsimp only
  split
  · rfl
  · split
    · rw [event_regs_ro]
      rfl
    · rfl

theorem imgReject_hasEvent (s : State) (req : Nat) (r : Rej) : (imgReject s req r).HasEvent .imgStatus 0 2 :=
  (((hasEvent_event _ .imgStatus 0 (by decide)).imgShow req 4).eventIf _ _ _ _).raiseEvent _ _

theorem imgReject_ro (s : State) (req : Nat) (r : Rej) :
    (imgReject s req r).ro .imgReject 0 = BitVec.ofNat 32 (r.1 % 256 + r.2.1 % 16 * 256 + r.2.2 % 65536 * 65536) := by
  have hkept : (imgReject s req r).regs.ro =
      (s.setRo .imgReject 0 (BitVec.ofNat 32 (r.1 % 256 + r.2.1 % 16 * 256 + r.2.2 % 65536 * 65536))).regs.ro := by
    unfold imgReject State.eventIf
    dsimp only
    rw [raiseEvent_regs_ro]
    split
    · rw [event_regs_ro]
      exact event_regs_ro _ _ _ _
    · exact event_regs_ro _ _ _ _
  rw [State.ro, hkept]
  exact Smap.getD_put_same _ _ _ _

theorem getSlot_imgReject (s : State) (req k : Nat) (r : Rej) : getSlot (imgReject s req r) k = getSlot s k := by
  simp [imgReject]

/-- Settles O33: each row by the equation of the branch that its hypotheses choose, and what a strobe leaves of the epoch sequencer by
`beginEpoch_epochNow`. -/
theorem epochRowsComplete : Obligations.EpochRowsComplete := by
  unfold Obligations.EpochRowsComplete
  refine ⟨?_, ?_, ?_, ?_, ?_, ?_, ?_, ?_, ?_, ?_⟩
  · intro s hcur hprepared
    have hepoch := prepare_epoch hcur hprepared
    exact ⟨prepare s, rfl, by rw [hepoch], by rw [hepoch], by rw [hepoch]⟩
  · intro s d hprepared hd
    exact congrArg Host.Outcome.next (if_pos ⟨hprepared, hd⟩)
  · intro s hprepared
    have hnow := epochStrobe_epochNow hprepared
    exact ⟨congrArg Host.Outcome.next (epochStrobe_of_prepared hprepared), epochStrobe s, rfl, congrArg (·.1) hnow,
      congrArg (·.2.1) hnow⟩
  · intro s d hawaiting hd hmissed
    have hack := strobeAck_of_match hawaiting hd hmissed
    exact ⟨congrArg Host.Outcome.next hack, strobeAck s d (s.epoch.cur % 256), rfl, by rw [hack, boundaryEnd_acked]; rfl⟩
  · intro s d b hawaiting hd hb
    exact congrArg Host.Outcome.next (strobeAck_of_mismatch hawaiting hd hb)
  · intro s hawaiting hlate
    refine ⟨_, congrArg Host.Outcome.next (ackTimeout_of_none_late hawaiting hlate), ?_, ?_, Smap.getD_put_same _ _ _ _⟩
    · simp [endAwaiting]
    · simp [endAwaiting]
  · intro s d hawaiting hlate happlied
    exact congrArg Host.Outcome.next (ackTimeout_of_one_late hawaiting hlate happlied)
  · intro s x hstage hrebuilt hslot
    have hnow := firstStrobe_epochNow hstage hrebuilt hslot
    have hstrobe := firstStrobe_of_rebuilt hstage hrebuilt hslot
    refine ⟨congrArg Host.Outcome.next hstrobe, firstStrobe s, rfl, congrArg (·.1) hnow, congrArg (·.2.2) hnow, ?_, ?_, ?_⟩
    · rw [hstrobe, boundaryEnd_power]
      rfl
    · rw [hstrobe, boundaryEnd_img]
      rfl
    · rw [hstrobe, boundaryEnd_img]
      rfl
  · intro s p
    exact ⟨fun h => congrArg Host.Outcome.next (scrubStepOf_sheet h), fun h => congrArg Host.Outcome.next (scrubStepOf_windows h),
      fun h => ⟨scrubStepOf s p, rfl, scrubStepOf_t3_step h, mem_t3_scrubStepOf h⟩⟩
  · intro s k x hslot hphase hblock
    have hk := slot_of_getSlot hslot
    have hdone := imageVerifyDone_of_verifying hslot hphase hblock
    refine ⟨congrArg Host.Outcome.next hdone, ?_, ?_⟩
    · intro y hy
      rw [hy] at hdone
      refine ⟨_, congrArg Host.Outcome.next hdone, by simp [getSlot_setSlot s hk], ?_⟩
      exact ((hasEvent_event _ .imgStatus 0 (by decide)).imgShow _ _).raiseEvent _ _
    · intro r hr
      rw [hr] at hdone
      exact ⟨_, congrArg Host.Outcome.next hdone, by rw [getSlot_imgReject, getSlot_setSlot s hk], imgReject_hasEvent _ _ _,
        imgReject_ro _ _ _⟩

end Sys2Proof.Machine
end

section
/-! PROOF. The vector store, the completion of a checkpoint and the rebuild of a shard, and O30, which says what their rows do (R269,
R277, R278, R386, R590). -/
namespace Sys2Proof.Machine
open Sys2Proof

/-! ### Writes of windows and pinned lines leave the shards alone -/

section
variable (s : State)

@[simp] theorem drawn_shards : s.drawn.shards = s.shards := rfl
@[simp] theorem charge_shards (part tier n : Nat) : (charge s part tier n).shards = s.shards := by
  unfold charge
  split
  · rfl
  · rfl

@[simp] theorem t2Write_shards (a : Nat) (b : List Byte) : (t2Write s a b).shards = s.shards := by
  unfold t2Write
  dsimp only
  (repeat' split) <;> rfl

@[simp] theorem winWrite_shards (sh : Shard) (a : Nat) (b : List Byte) : (winWrite s sh a b).shards = s.shards := by
  unfold winWrite
  dsimp only
  (repeat' split) <;> simp

@[simp] theorem winWrite?_shards (sh : Shard) (a : Option Nat) (b : List Byte) : (winWrite? s sh a b).shards = s.shards := by
  unfold winWrite?
  split <;> simp

@[simp] theorem hotWrite_shards (sh : Shard) (x : Nat) (l : List Nat) : (hotWrite s sh x l).shards = s.shards := by simp [hotWrite]

@[simp] theorem emptyWins_shards (sh : Shard) : (emptyWins s sh).shards = s.shards := by
  unfold emptyWins
  rw [foldl_keeps State.shards fun t x => hotWrite_shards t sh x []]
  exact foldl_keeps State.shards (fun _ _ => by rfl) _ s

@[simp] theorem lineFill_shards (p line : Nat) (dirty pinned : Bool) : (lineFill s p line dirty pinned).shards = s.shards := by
  unfold lineFill
  dsimp only
  (repeat' split) <;> simp

@[simp] theorem linePin_shards (p line : Nat) : (linePin s p line).shards = s.shards := by
  unfold linePin
  split <;> simp

@[simp] theorem pinDescriptor_shards (sh : Shard) : (pinDescriptor s sh).shards = s.shards := by
  unfold pinDescriptor
  split
  · exact foldl_keeps State.shards (fun t l => linePin_shards t _ l) _ s
  · rfl

@[simp] theorem unmapAll_shards (l : List Nat) : (unmapAll s l).shards = s.shards := rfl
@[simp] theorem mapCheckpoint_shards : (mapCheckpoint s).shards = s.shards := by
  unfold mapCheckpoint
  split
  · rfl
  · rfl

@[simp] theorem rekeyCheck_shards (p : Nat) : (rekeyCheck s p).shards = s.shards := by
  unfold rekeyCheck
  (repeat' split) <;> simp

@[simp] theorem releasePages_shards (p : Nat) : (releasePages s p).shards = s.shards := by
  unfold releasePages
  dsimp only
  split <;> simp [setJournal]

@[simp] theorem ckptComplete_shards (p epoch : Nat) : (ckptComplete s p epoch).shards = s.shards := by simp [ckptComplete]

theorem shardOf_of_shards {s t : State} (h : t.shards = s.shards) (p x : Nat) : shardOf t p x = shardOf s p x := by
  rw [shardOf, h, shardOf]

theorem shardOf_updShard (p x : Nat) (f : Shard → Shard) : shardOf (s.updShard p x f) p x = (shardOf s p x).map f :=
  Smap.get_upd_same _ _ _

theorem FlashOnly.shards {s t : State} (h : FlashOnly s t) : t.shards = s.shards := by
  obtain ⟨_, _, _, rfl⟩ := h
  rfl

end

/-! ### The vector store (R269) -/

section
variable {s t : State} {p x slot q : Nat} {sh : Shard} {v : List Byte} {l : LinkParts}

theorem vectorDone_of_write (hsh : shardOf s p x = some sh) (hq : ringSeq sh slot = some q) (hv : sh.jvectors.get slot = some v)
    (hl : sh.links.get q = some l) (hvec : l.vecDone = false) (hrate : zeroRate s p tT5 = false)
    (hwrite : deviceWrite s p false x (vectorLaddrs sh slot) = some t) :
    vectorDone s p x slot = linkPart ((charge t p tT5 v.length).updShard p x fun h => { h with vectors := h.vectors.put slot v }) p x q
      fun l => { l with vecDone := true } := by
  simp [vectorDone, hsh, hq, hv, hl, hvec, hrate, hwrite]

theorem vectorDone_of_wait (hsh : shardOf s p x = some sh) (hq : ringSeq sh slot = some q) (hv : sh.jvectors.get slot = some v)
    (hl : sh.links.get q = some l) (hvec : l.vecDone = false) (hrate : zeroRate s p tT5 = false)
    (hwrite : deviceWrite s p false x (vectorLaddrs sh slot) = none) : vectorDone s p x slot = zoneNeeded s p := by
  simp [vectorDone, hsh, hq, hv, hl, hvec, hrate, hwrite]

end

/-! ### Checkpoints (R277, R278) -/

section
variable {s t : State} {p x : Nat} {sh : Shard} {c : Checkpoint}

theorem checkpointStart_of_serving (hsh : shardOf s p x = some sh) (hphase : sh.phase = .serving) (hlost : sh.lost = false)
    (hnow : sh.ckptNow = none) (hcur : s.epoch.cur ≠ 0) (hprepared : s.epoch.prepared = false) (hmode : hostMode s p 0 = false) :
    checkpointStart s p x = s.updShard p x fun h => { h with ckptNow := some (checkpointOf s sh) } := by
  simp [checkpointStart, hsh, hphase, hlost, hnow, hcur, hprepared, hmode]

/-- The complete checkpoint before the previous one leaves flash, unless one that stays is of its epoch. -/
def dropOldest (s : State) (sh : Shard) (c : Checkpoint) : State :=
  match sh.ckptPrev with
  | some o =>
    if o.epoch = c.epoch ∨ sh.ckpt.any (fun (k : Checkpoint) => k.epoch == o.epoch) then s
    else unmapAll s (ckptLaddrs sh o.epoch)
  | none => s

@[simp] theorem dropOldest_shards (s : State) (sh : Shard) (c : Checkpoint) : (dropOldest s sh c).shards = s.shards := by
  unfold dropOldest
  (repeat' split) <;> rfl

theorem checkpointDone_of_write (hsh : shardOf s p x = some sh) (hnow : sh.ckptNow = some c) (hrate : zeroRate s p tT5 = false)
    (hwrite : deviceWrite s p true 0 (ckptLaddrs sh c.epoch) = some t) :
    checkpointDone s p x = ckptComplete ((dropOldest (charge t p tT5 (4096 * (ckptLaddrs sh c.epoch).length)) sh c).updShard p x fun h =>
      { h with ckptPrev := h.ckpt, ckpt := some c, ckptNow := none }) p c.epoch := by
  simp only [checkpointDone, hsh, hnow, hrate, hwrite]
  rfl

theorem State.HasEvent.mapSec {r : Reg} {u b : Nat} (h : s.HasEvent r u b) (f : SecState → SecState) : (s.mapSec f).HasEvent r u b := h

theorem State.HasEvent.rekeyCheck {r : Reg} {u b : Nat} (h : s.HasEvent r u b) (p : Nat) : (rekeyCheck s p).HasEvent r u b := by
  unfold Machine.rekeyCheck
  split
  · exact h
  · split
    · exact h
    · exact (h.mapSec _).event _ _ _

theorem State.HasEvent.setJournal {r : Reg} {u b : Nat} (h : s.HasEvent r u b) (p : Nat) (j : Journal) :
    (setJournal s p j).HasEvent r u b := h

theorem State.HasEvent.releasePages {r : Reg} {u b : Nat} (h : s.HasEvent r u b) (p : Nat) : (releasePages s p).HasEvent r u b := by
  unfold Machine.releasePages
  dsimp only
  split
  · exact h
  · exact (h.setJournal _ _).rekeyCheck _

theorem State.HasEvent.mapCheckpoint {r : Reg} {u b : Nat} (h : s.HasEvent r u b) : (mapCheckpoint s).HasEvent r u b := by
  unfold Machine.mapCheckpoint
  split
  · exact h
  · exact h

theorem ckptComplete_hasEvent (s : State) (p epoch : Nat) : (ckptComplete s p epoch).HasEvent .epcPevent p 4 :=
  ((hasEvent_event _ .epcPevent p (by decide)).releasePages p).mapCheckpoint

@[simp] theorem mapCheckpoint_epoch (s : State) : (mapCheckpoint s).epoch = s.epoch := by
  unfold mapCheckpoint
  split
  · rfl
  · rfl

@[simp] theorem rekeyCheck_epoch (s : State) (p : Nat) : (rekeyCheck s p).epoch = s.epoch := by
  unfold rekeyCheck
  (repeat' split) <;> simp

@[simp] theorem releasePages_largest (s : State) (p : Nat) : (releasePages s p).epoch.largest = s.epoch.largest := by
  unfold releasePages
  dsimp only
  split <;> simp [setJournal]

theorem ckptComplete_largest (s : State) (p epoch : Nat) : (ckptComplete s p epoch).epoch.largest = max s.epoch.largest epoch := by
  simp [ckptComplete]

end

/-! ### The rebuild of a shard (R278, R590) -/

/-- What a rebuild fixes of a shard at its first step: that it is not lost, its phase, its first serving epoch, its checkpoint. -/
def Shard.standing (h : Shard) : Bool × ShardPhase × Nat × Option Checkpoint := (h.lost, h.phase, h.firstServing, h.ckpt)

/-- What a reading of shards gives of the shard in a place. -/
def shardView {β : Type} (view : Shard → β) (s : State) (p x : Nat) : Option β := (shardOf s p x).map view

section
variable {β : Type} (view : Shard → β)

theorem shardView_of_shards {s t : State} (h : t.shards = s.shards) (p x : Nat) : shardView view t p x = shardView view s p x := by
  rw [shardView, shardOf_of_shards h, shardView]

theorem shardView_updShard (s : State) (p x : Nat) {f : Shard → Shard} (h : ∀ sh, view (f sh) = view sh) :
    shardView view (s.updShard p x f) p x = shardView view s p x := by
  rw [shardView, shardOf_updShard, Option.map_map, shardView]
  exact congrArg (Option.map · _) (funext h)

theorem shardView_foldl (s : State) (p x : Nat) {α : Type} {f : State → α → State}
    (h : ∀ t y, shardView view (f t y) p x = shardView view t p x) (l : List α) :
    shardView view (l.foldl f s) p x = shardView view s p x :=
  foldl_keeps (fun t => shardView view t p x) h l s

end

section
variable (s : State) (p x : Nat)

theorem standing_rebuildFresh (slot gid attr : Nat) (exact : List Byte) :
    shardView Shard.standing (rebuildFresh s p x slot gid attr exact) p x = shardView Shard.standing s p x := by
  unfold rebuildFresh
  split
  · rfl
  · refine (shardView_updShard _ _ p x ?_).trans (shardView_of_shards _ ?_ p x)
    · intro h
      rfl
    · simp

theorem standing_rebuildGone (slot : Nat) :
    shardView Shard.standing (s.updShard p x fun h => rebuildGone h slot) p x = shardView Shard.standing s p x :=
  shardView_updShard _ s p x fun _ => rfl

theorem standing_replayRec (r : JRec) : shardView Shard.standing (replayRec s p x r) p x = shardView Shard.standing s p x := by
  unfold replayRec
  dsimp only
  split
  · split
    · rw [standing_rebuildGone, standing_rebuildFresh]
    · exact standing_rebuildFresh s p x _ _ _ _
  · split
    · rfl
    · split
      · exact standing_rebuildGone s p x _
      · split
        · exact shardView_updShard _ s p x fun _ => rfl
        · rfl

theorem standing_rebuildCode (e : Nat × Nat) : shardView Shard.standing (rebuildCode s p x e) p x = shardView Shard.standing s p x := by
  unfold rebuildCode
  split
  · rfl
  · exact shardView_of_shards _ (by simp) p x

theorem idInsert_standing (sh : Shard) (gid slot : Nat) : ((idInsert s sh gid slot).getD sh).standing = sh.standing := by
  unfold idInsert
  cases cuckoo s sh 64 gid slot s.free with
  | none => rfl
  | some m => rfl

theorem standing_rebuildMaps : shardView Shard.standing (rebuildMaps s p x) p x = shardView Shard.standing s p x := by
  unfold rebuildMaps
  split
  next => rfl
  next sh hsh =>
    refine (shardView_of_shards _ (drawn_shards _) p x).trans ?_
    rw [shardView, shardOf_updShard, hsh, shardView, hsh]
    exact congrArg some (foldl_keeps Shard.standing (fun h e => idInsert_standing s h _ _) _ sh)

/-- The first step: the shard as its checkpoint describes it. -/
def rebuildPlace (c : Checkpoint) : State :=
  (s.updShard p x fun h => rebuildBase s { h with t3 := [] } c).drawn

/-- Its windows emptied and its adjacencies written. -/
def rebuildHot (c : Checkpoint) : State :=
  match shardOf s p x with
  | some h => c.adj.foldl (fun s e => hotWrite s h e.1 e.2) (emptyWins s h)
  | none => s

/-- Its ring filled with the items that were FRESH. -/
def rebuildRing (c : Checkpoint) : State :=
  c.fresh.foldl (fun s y => rebuildFresh s p x y.1 (srGid (c.slots.getD y.1 0)) (c.attrs.getD y.1 0) y.2) s

/-- The shard's durable journal records from the replay point onward. -/
def replayRecs (c : Checkpoint) : List JRec :=
  ((journalOf s p).durable.flatMap fun g => (pageRecs g).filterMap fun y => if posLt (g.jseq, y.1) c.replay then none else some y.2).filter
    fun r => r.index == x && r.typ != 5 && decide (r.num < (journalOf s p).accepted)

/-- The records replayed. -/
def rebuildReplay (c : Checkpoint) : State := (replayRecs s p x c).foldl (fun s r => replayRec s p x r) s

/-- Codes, norms and tags of its settled slots. -/
def rebuildCodes : State :=
  (((shardOf s p x).map fun h => h.slots.filter fun e => srLinkSettled e.2).getD []).foldl (fun s e => rebuildCode s p x e) s

/-- The lines of its descriptor pinned. -/
def rebuildPin : State :=
  match shardOf s p x with
  | some h => pinDescriptor s h
  | none => s

theorem standing_rebuildHot (c : Checkpoint) : shardView Shard.standing (rebuildHot s p x c) p x = shardView Shard.standing s p x := by
  unfold rebuildHot
  split
  · refine shardView_of_shards _ ?_ p x
    exact (foldl_keeps State.shards (fun t e => hotWrite_shards t _ _ _) _ _).trans (emptyWins_shards s _)
  · rfl

theorem standing_rebuildPin : shardView Shard.standing (rebuildPin s p x) p x = shardView Shard.standing s p x := by
  unfold rebuildPin
  split
  · exact shardView_of_shards _ (pinDescriptor_shards s _) p x
  · rfl

/-- The rebuild as the sequence of its steps. -/
def rebuildSteps (c : Checkpoint) : State :=
  rebuildPin (rebuildMaps (rebuildCodes (rebuildReplay (rebuildRing (rebuildHot (rebuildPlace s p x c) p x c) p x c) p x c) p x) p x) p x

theorem standing_rebuildSteps {sh : Shard} (c : Checkpoint) (hsh : shardOf s p x = some sh) :
    shardView Shard.standing (rebuildSteps s p x c) p x = some (false, .serving, s.epoch.cur + 1, some c) := by
  have hplace : shardView Shard.standing (rebuildPlace s p x c) p x = some (false, .serving, s.epoch.cur + 1, some c) := by
    refine (shardView_of_shards _ (drawn_shards _) p x).trans ?_
    rw [shardView, shardOf_updShard, hsh]
    rfl
  rw [rebuildSteps, standing_rebuildPin, standing_rebuildMaps,
    rebuildCodes, shardView_foldl _ _ p x fun t e => standing_rebuildCode t p x e,
    rebuildReplay, shardView_foldl _ _ p x fun t r => standing_replayRec t p x r,
    rebuildRing, shardView_foldl _ _ p x fun t y => standing_rebuildFresh t p x _ _ _ _,
    standing_rebuildHot, hplace]

theorem shardRebuild_of_lost {s : State} {p x : Nat} {sh : Shard} {c : Checkpoint} (hsh : shardOf s p x = some sh)
    (hckpt : sh.ckpt = some c) (hstage : s.power.stage = .rebuild) (hlost : sh.lost = true) (hready : s.felt.ready = true)
    (hclear : (List.range 16).any (s.fencedUnit 0x09) = false) : shardRebuild s p x = rebuildSteps s p x c := by
  have hwait : ¬((s.power.stage ≠ .rebuild ∧ s.power.stage ≠ .running) ∨ !sh.lost ∨ !s.felt.ready ∨
      (List.range 16).any (s.fencedUnit 0x09)) := by simp [hstage, hlost, hready, hclear]
  unfold shardRebuild
  simp only [hsh, hckpt]
  exact if_neg hwait

end

/-- Settles O30: each row by the equation of the branch that its hypotheses choose; what a completed checkpoint keeps by the frame of a
flash write, and a rebuilt shard's standing from the first step of the rebuild, which sets it, and the later ones, which leave it. -/
theorem checkpointRowsComplete : Obligations.CheckpointRowsComplete := by
  unfold Obligations.CheckpointRowsComplete
  refine ⟨?_, ?_, ?_, ?_, ?_⟩
  · intro s t p x slot q sh v l hsh hq hv hl hvec hrate
    exact ⟨fun hwrite => congrArg Host.Outcome.next (vectorDone_of_write hsh hq hv hl hvec hrate hwrite),
      fun hwrite => congrArg Host.Outcome.next (vectorDone_of_wait hsh hq hv hl hvec hrate hwrite)⟩
  · intro s p x sh hsh hphase hlost hnow hcur hprepared hmode
    exact congrArg Host.Outcome.next (checkpointStart_of_serving hsh hphase hlost hnow hcur hprepared hmode)
  · intro s t p x sh c hsh hnow hprev hrate hwrite
    have hdone := checkpointDone_of_write hsh hnow hrate hwrite
    rw [dropOldest, hprev] at hdone
    exact congrArg Host.Outcome.next hdone
  · intro s t p x sh c hsh hnow hrate hwrite
    refine ⟨_, { sh with ckptPrev := sh.ckpt, ckpt := some c, ckptNow := none },
      congrArg Host.Outcome.next (checkpointDone_of_write hsh hnow hrate hwrite), ?_, rfl, rfl, rfl, ?_,
      ckptComplete_hasEvent _ p c.epoch⟩
    · have hkept : (dropOldest (charge t p tT5 (4096 * (ckptLaddrs sh c.epoch).length)) sh c).shards = s.shards := by
        rw [dropOldest_shards, charge_shards, (deviceWrite_flashOnly hwrite).shards]
      rw [shardOf_of_shards (ckptComplete_shards _ p c.epoch), shardOf_updShard, shardOf_of_shards hkept, hsh]
      rfl
    · rw [ckptComplete_largest]
      exact le_max_right _ _
  · intro s p x sh c hsh hckpt hstage hlost hready hclear
    have hrebuild := shardRebuild_of_lost hsh hckpt hstage hlost hready hclear
    have hstanding := standing_rebuildSteps s p x c hsh
    obtain ⟨h, hh, hfields⟩ := Option.map_eq_some_iff.mp hstanding
    obtain ⟨hlost', hphase, hfirst, hckpt'⟩ :
        h.lost = false ∧ h.phase = .serving ∧ h.firstServing = s.epoch.cur + 1 ∧ h.ckpt = some c := by
      simpa [Shard.standing] using hfields
    exact ⟨rebuildSteps s p x c, h, congrArg Host.Outcome.next hrebuild, hh, hlost', hphase, hfirst, hckpt'⟩

end Sys2Proof.Machine
end

section
/-! PROOF. The rows of linking (R151, R270 to R275, R571): O29. As stated it fails, in its first clause, which quantifies over every
shard that stands in the place of partition p and index x, also one whose own fields name another partition. The insert walk is a query
of the partition that the shard names, so it is held back by that partition's rates, while the clause asks only for the rates of p. No
row builds such a shard. For a shard that names p the clause holds (`insertWalkStart_starts`), and the other clauses hold as stated. -/
namespace Sys2Proof.Machine
open Sys2Proof

/-! ### A shard in the place of another partition -/

/-- A descriptor with 16 ring entries and no windows. -/
def bareDesc : ShardDesc :=
  { degree := 32, ntag := 0, ncol := 0, slotLimit := 64, hotSlots := 0, ovlSize := 0, freshEntries := 16, codeList := [], normList := [],
    freshWin := 0, hotWin := 0, schema := [], tagRules := [], entry := [], numrec := [] }

/-- A serving shard that names partition 1 and whose ring holds one FRESH item, in slot 3. -/
def oneFresh : Shard :=
  { newShard 1 0 bareDesc [] with phase := .serving, ringHead := 1, links := [(0, LinkParts.fresh)], freshSlots := [(0, 3)] }

/-- That shard in the place of partition 0, which owns tile 0 and has rates for T1 and the fabric; partition 1 has none. -/
def misplacedShard : State :=
  ((State.reset.mapImg fun i => { i with cfg := ⟨[(65536 * 2, 1)]⟩ }).mapMem fun m => { m with
    rate := [(tT1, 1), (tTF, 1)], sheet := [(0, { use := .scratch, owner := 0 })] }).mapShards fun _ => [(0, oneFresh)]

theorem tile_of_misplacedShard : tileGives misplacedShard.img.cfg misplacedShard 0 0 .insert = true ∧
    listUnit misplacedShard 0 ≠ none ∧ misplacedShard.partOut 4 0 = false := by
  decide +kernel

theorem units_of_misplacedShard : misplacedShard.blockOut 4 = false ∧ misplacedShard.blockOut 6 = false := by decide +kernel

theorem rates_of_misplacedShard : zeroRate misplacedShard 0 tT1 = false ∧ zeroRate misplacedShard 0 tTF = false ∧
    hostMode misplacedShard 0 2 = false := by
  decide +kernel

theorem pages_of_misplacedShard :
    pagesUsed misplacedShard 0 + queryPages (walkQuery misplacedShard oneFresh 0 3 0) ≤ pagesTotal misplacedShard 0 := by
  decide +kernel

theorem nextWalk_of_misplacedShard : nextWalk misplacedShard oneFresh (headTail oneFresh misplacedShard.epoch.cur).1 = some (0, 3) := by
  decide +kernel

theorem no_walk_of_misplacedShard : (insertWalkStart misplacedShard 0 0 0).host.queries.get misplacedShard.host.nextQuery = none := by
  decide +kernel

/-- Refutes O29: in `misplacedShard` no insert walk starts, for the walk is held back by the zero T1 rate of partition 1. -/
theorem not_linkingRowsComplete : ¬ Obligations.LinkingRowsComplete := by
  unfold Obligations.LinkingRowsComplete
  rintro ⟨hwalk, -⟩
  obtain ⟨htile, hunit, hpart⟩ := tile_of_misplacedShard
  obtain ⟨hsearch, hwalker⟩ := units_of_misplacedShard
  obtain ⟨hT1, hTF, hmode⟩ := rates_of_misplacedShard
  obtain ⟨hfresh, -⟩ := hwalk misplacedShard 0 0 0 0 3 oneFresh LinkParts.fresh (by rfl) (by rfl) (by rfl) hsearch hwalker hpart hunit
    (by rfl) nextWalk_of_misplacedShard (by rfl) hmode
  obtain ⟨hstart, -⟩ := hfresh (by decide +kernel) htile
  obtain ⟨t, r, h, ht, hr, -⟩ := hstart pages_of_misplacedShard hT1 hTF
  obtain rfl := Host.Outcome.next.inj ht
  rw [no_walk_of_misplacedShard] at hr
  cases hr

/-! ### Packets, transfers and freed slots leave the shards, or a reading of them, alone -/

section
variable (s : State)

@[simp] theorem deliver_shards (p : Packet) : (deliver s p).shards = s.shards := rfl

@[simp] theorem portSend_shards (i : Nat) : (portSend s i).shards = s.shards := by
  unfold portSend
  dsimp only
  split
  · rfl
  · rfl

@[simp] theorem enqueue_shards (i : Nat) (p : Packet) : (enqueue s i p).shards = s.shards := portSend_shards _ i

@[simp] theorem routePkt_shards (p : Packet) (from_ : Option Nat) : (routePkt s p from_).shards = s.shards := by
  unfold routePkt
  dsimp only
  (repeat' split) <;> simp

@[simp] theorem sendPkt_shards (p : Packet) : (sendPkt s p).shards = s.shards := routePkt_shards s _ none

@[simp] theorem sendMsg_shards (l : List Packet) : (sendMsg s l).shards = s.shards := by
  refine foldl_keeps State.shards (fun t p => ?_) l s
  rw [sendPkt_shards]
  split
  · rfl
  · exact charge_shards t _ _ _

@[simp] theorem sendRequest_shards (k : ReqKind) (l : List Packet) (q f : Nat) (st : Bool) (slots : List Nat) :
    (sendRequest s k l q f st slots).1.shards = s.shards := by
  unfold sendRequest
  dsimp only
  (repeat' split) <;> simp

@[simp] theorem updQuery_shards (n : Nat) (f : Query → Query) : (s.updQuery n f).shards = s.shards := rfl

@[simp] theorem sendScores_shards (n : Nat) (slots : List Nat) : (sendScores s n slots).shards = s.shards := by
  unfold sendScores
  split
  · rfl
  · refine foldl_keeps State.shards (fun t g => ?_) _ s
    refine foldl_keeps State.shards (fun u i => ?_) _ t
    exact sendRequest_shards u _ _ _ _ _ _

@[simp] theorem setFrontier_shards (n : Nat) (f : List Nat) : (setFrontier s n f).shards = s.shards := by
  unfold setFrontier
  dsimp only
  split <;> simp

@[simp] theorem lineTouch_shards (p : Nat) (write : Bool) (line : Nat) : (lineTouch s p write line).shards = s.shards := by
  have hbump : ∀ (c : Prop) [Decidable c] (r : Reg), (if c then s.bump r p 1 else s).shards = s.shards := fun c _ r => by
    split
    · rfl
    · rfl
  unfold lineTouch
  dsimp only
  split
  · rfl
  · split
    · split
      · exact hbump _ _
      · exact hbump _ _
    · rw [lineFill_shards]
      exact hbump _ _

@[simp] theorem spanTouch_shards (p a n : Nat) (write : Bool) : (spanTouch s p a n write).shards = s.shards := by
  unfold spanTouch
  split
  · rfl
  · exact foldl_keeps State.shards (fun t l => lineTouch_shards t p write l) _ s

@[simp] theorem structTouch_shards (sh : Shard) (k off n : Nat) (write : Bool) : (structTouch s sh k off n write).shards = s.shards := by
  unfold structTouch
  split <;> simp

@[simp] theorem primaryTouch_shards (sh : Shard) (x : Nat) (write : Bool) : (primaryTouch s sh x write).shards = s.shards :=
  structTouch_shards s sh _ _ _ write

theorem retag_shards (p x slot : Nat) : (retag s p x slot).shards = s.shards := by
  unfold retag
  split
  · rfl
  · dsimp only
    split
    · rw [winWrite?_shards]
      split <;> simp
    · split <;> simp

end

/-- How far the settler has come with a shard, and the versions that it holds. -/
def Shard.settling (h : Shard) : Nat × List Version := (h.settled, h.versions)

section
variable (s : State) (p x : Nat)

theorem settling_freeSlots : shardView Shard.settling (freeSlots s p x) p x = shardView Shard.settling s p x := by
  have hslot : ∀ (t : State) (y : Nat), shardView Shard.settling (freeSlot t p x y) p x = shardView Shard.settling t p x := fun t y => by
    unfold freeSlot
    split
    · rfl
    · refine (shardView_updShard _ _ p x ?_).trans (shardView_of_shards _ ?_ p x)
      · intro h
        rfl
      · simp
  unfold freeSlots
  split
  · rfl
  · exact shardView_foldl _ s p x hslot _

theorem settling_settleDels : shardView Shard.settling (settleDels s p x) p x = shardView Shard.settling s p x := by
  unfold settleDels
  split
  · rfl
  · refine shardView_foldl _ s p x (fun t y => ?_) _
    refine (shardView_of_shards _ (retag_shards _ p x y) p x).trans (shardView_updShard _ t p x ?_)
    intro h
    rfl

theorem settling_settleLink (q : Nat) :
    shardView Shard.settling (settleLink s p x q) p x = (shardView Shard.settling s p x).map fun v => (q + 1, v.2) := by
  have hset : ∀ (t : State) (f : Shard → Shard), t.shards = s.shards → (∀ h, (f h).settling = (q + 1, h.versions)) →
      shardView Shard.settling (t.updShard p x f) p x = (shardView Shard.settling s p x).map fun v => (q + 1, v.2) := by
    intro t f ht hf
    rw [shardView, shardOf_updShard, shardOf_of_shards ht, Option.map_map, shardView, Option.map_map]
    exact congrArg (Option.map · _) (funext hf)
  unfold settleLink
  split
  next hsh => rw [shardView, hsh]; rfl
  next sh hsh =>
    dsimp only
    split
    · refine hset _ _ ?_ ?_
      · simp
      · intro h
        rfl
    · refine (shardView_of_shards _ (retag_shards _ p x _) p x).trans (hset _ _ ?_ ?_)
      · simp
      · intro h
        rfl

theorem settling_settleLinks {s : State} {a : Nat} {vs : List Version} (h : shardView Shard.settling s p x = some (a, vs)) (m : Nat) :
    shardView Shard.settling ((List.range m).foldl (fun t i => settleLink t p x (a + i)) s) p x = some (a + m, vs) := by
  induction m with
  | zero => exact h
  | succ m ih => rw [List.range_succ, List.foldl_append, List.foldl_cons, List.foldl_nil, settling_settleLink, ih]; rfl

end

/-! ### Insert walks (R270) -/

section
variable {s : State} {p x tile q slot : Nat} {sh : Shard} {l : LinkParts} (hsh : shardOf s p x = some sh) (hserving : serving sh = true)
  (hlost : sh.lost = false) (hsearch : s.blockOut 4 = false) (hwalker : s.blockOut 6 = false) (hpart : s.partOut 4 p = false)
  (hunit : listUnit s tile ≠ none)
  (hredo : (s.host.queries.find? fun e => e.2.kind == .insert && e.2.part == p && e.2.index == x && e.2.tile.isNone) = none)
  (hnext : nextWalk s sh (headTail sh s.epoch.cur).1 = some (q, slot)) (hmode : hostMode s p 2 = false)
include hsh hserving hlost hsearch hwalker hpart hunit hredo hnext hmode

theorem insertWalkStart_of_deleted (hdel : srDeleted (slotRec sh slot) = true) (hwrite : canWrite s sh slot = true) :
    insertWalkStart s p x tile = ((writeAdj s sh slot []).updShard p x fun h => { h with
      links := h.links.upd q fun l => { l with walked := true, recDone := true, linked := true } }).bump .epcPLinked p 1 := by
  simp [insertWalkStart, hsh, hserving, hlost, hsearch, hwalker, hpart, hunit, hredo, hnext, hmode, hdel, hwrite]

variable (hdel : srDeleted (slotRec sh slot) = false) (hgives : tileGives s.img.cfg s tile p .insert = true)
include hdel hgives

theorem insertWalkStart_withoutRoom (hroom : pagesTotal s p < pagesUsed s p + queryPages (walkQuery s sh q slot tile)) :
    insertWalkStart s p x tile = s.event .mslEvent 0 0 := by
  simp [insertWalkStart, hsh, hserving, hlost, hsearch, hwalker, hpart, hunit, hredo, hnext, hmode, hdel, hgives, hroom]

/-- The state in which an insert walk's frontier is set. -/
def walkEntered (s : State) (sh : Shard) (p x tile q slot : Nat) : State :=
  charge ((addQuery s (walkQuery s sh q slot tile)).updShard p x fun h =>
    { h with links := h.links.upd q fun l => { l with walked := true } }) p tT1 32768

variable (hnames : sh.part = p) (hroom : pagesUsed s p + queryPages (walkQuery s sh q slot tile) ≤ pagesTotal s p)
  (hT1 : zeroRate s p tT1 = false) (hTF : zeroRate s p tTF = false)
include hnames hroom hT1 hTF

theorem insertWalkStart_withRoom :
    insertWalkStart s p x tile = setFrontier (walkEntered s sh p x tile q slot) s.host.nextQuery sh.desc.entry := by
  have hwalk : (walkQuery s sh q slot tile).part = p := hnames
  have hrates : ∀ t ∈ [tT1], zeroRate s (walkQuery s sh q slot tile).part t = false := by simpa [hwalk] using hT1
  have hfabric : zeroRate s (walkQuery s sh q slot tile).part tTF = false := by rw [hwalk, hTF]
  simp [insertWalkStart, hsh, hserving, hlost, hsearch, hwalker, hpart, hunit, hredo, hnext, hmode, hdel, hgives, Nat.not_lt.2 hroom,
    queryTiers_of_rates hrates, queryTwill_of_rate hfabric, walkEntered]

/-- The first clause of O29 for a shard that names the partition in whose place it stands. -/
theorem insertWalkStart_starts (hlink : sh.links.get q = some l) :
    ∃ t r h, exec (.insertWalkStart p x tile) s = .next t ∧ t.host.queries.get s.host.nextQuery = some r ∧ r.kind = .insert ∧
      r.slot = slot ∧ r.tile = some tile ∧ r.frontier = sh.desc.entry ∧ shardOf t p x = some h ∧
      h.links.get q = some { l with walked := true } := by
  have hstart := insertWalkStart_withRoom hsh hserving hlost hsearch hwalker hpart hunit hredo hnext hmode hdel hgives hnames hroom hT1 hTF
  have hentered : (walkEntered s sh p x tile q slot).host.queries.get s.host.nextQuery = some (walkQuery s sh q slot tile) := by
    rw [walkEntered, (charge_keeps _ _ _ _).1]
    exact Smap.get_put_same _ _ _
  have hshard : shardOf (walkEntered s sh p x tile q slot) p x =
      some { sh with links := sh.links.upd q fun l => { l with walked := true } } := by
    rw [walkEntered, shardOf_of_shards (charge_shards _ _ _ _), shardOf_updShard]
    exact congrArg (Option.map _) hsh
  obtain ⟨r, hr⟩ := setFrontier_holdsQuery sh.desc.entry hentered
  refine ⟨_, _, { sh with links := sh.links.upd q fun l => { l with walked := true } }, congrArg Host.Outcome.next hstart, hr,
    rfl, rfl, rfl, rfl, ?_, ?_⟩
  · rw [shardOf_of_shards (setFrontier_shards _ _ _), hshard]
  · rw [Smap.get_upd_same, hlink]
    rfl

end

/-! ### Back-links, the settler and repair (R271 to R275) -/

@[simp] theorem dropVersions_attrs (sh : Shard) (gone : Version → Bool) : (dropVersions sh gone).attrs = sh.attrs := rfl

section
variable {s : State} {p x : Nat} {sh : Shard} (hsh : shardOf s p x = some sh)
include hsh

/-- An entry none of whose back-links is pending any more has that part of its linking done. -/
def backDone (p x : Nat) (t : State) (y : Nat) : State :=
  match shardOf t p x with
  | none => t
  | some h => if h.backPend.any fun e => e.2.contains y then t else match ringSeq h y with
    | some q => linkPart t p x q fun l => { l with backDone := true }
    | none => t

theorem backLink_writes {c : Nat} {pend new : List Nat} (hpend : sh.backPend.get c = some pend) (hwrite : canWrite s sh c = true)
    (hserved : servedHere s sh c = true) (hT3 : zeroRate s p tT3 = false) (hT5 : zeroRate s p tT5 = false)
    (hnew : new = backRecord sh c s.epoch.cur (pend.foldl addSet (sh.backReq.getD c [])))
    (hchanged : (sortAsc id new == sortAsc id (adjFor sh c s.epoch.cur)) = false) :
    backLink s p x c = pend.foldl (backDone p x)
      ((writeAdj (charge s p tT5 ((new.length + 1) * exactBytes sh.desc.numrec * nrDim sh.desc.numrec)) sh c new).updShard p x fun h =>
        { h with backPend := h.backPend.del c, backReq := h.backReq.put c (pend.foldl addSet (sh.backReq.getD c [])) }) := by
  subst hnew
  simp only [backLink, hsh, hpend, hwrite, hserved, hT3, hT5, hchanged]
  rfl

section
variable (hserving : serving sh = true) (hlost : sh.lost = false) (hprepared : s.epoch.prepared = false) (hT3 : zeroRate s p tT3 = false)
include hserving hlost hprepared hT3

theorem settle_eq {m : Nat} (hm : m = (settledEnd s sh).getD sh.settled - sh.settled) :
    settle s p x = freeSlots (settleDels ((List.range m).foldl (fun t i => settleLink t p x (sh.settled + i))
      (charge s p tT3 (16 * m))) p x) p x := by
  subst hm
  simp [settle, hsh, hserving, hlost, hprepared, hT3]

theorem settle_settled {m : Nat} (hm : m = (settledEnd s sh).getD sh.settled - sh.settled) :
    ∃ h, shardOf (settle s p x) p x = some h ∧ h.settled = sh.settled + m := by
  have hbefore : shardView Shard.settling (charge s p tT3 (16 * m)) p x = some (sh.settled, sh.versions) := by
    rw [shardView, shardOf_of_shards (charge_shards _ _ _ _), hsh]
    rfl
  have hafter : shardView Shard.settling (settle s p x) p x = some (sh.settled + m, sh.versions) := by
    rw [settle_eq hsh hserving hlost hprepared hT3 hm, settling_freeSlots, settling_settleDels, settling_settleLinks p x hbefore]
  obtain ⟨h, hh, hview⟩ := Option.map_eq_some_iff.mp hafter
  exact ⟨h, hh, congrArg (·.1) hview⟩

variable {v : Version} (hone : sh.versions = [v]) (hadj : v.isAttr = false) (hpub : v.pub ≤ oldestInUse s p)
include hone hadj hpub

theorem foldVersions_one :
    foldVersions s p x = freeSlots ((hotWrite (primaryTouch (charge s p tT3 (32 + 4 * sh.desc.degree)) sh v.slot true)
      sh v.slot v.adj).updShard p x fun h => { dropVersions h (fun w => decide (w.pub ≤ oldestInUse s p)) with
        replaces := h.replaces.filter fun r => !decide (r.2 ≤ oldestInUse s p), adj := Smap.store [] h.adj v.slot v.adj }) p x := by
  simp [foldVersions, hsh, hserving, hlost, hprepared, hT3, hone, hadj, hpub]

theorem foldVersions_versions : ∃ h, shardOf (foldVersions s p x) p x = some h ∧ h.versions = [] := by
  have hafter : shardView Shard.settling (foldVersions s p x) p x = some (sh.settled, []) := by
    rw [foldVersions_one hsh hserving hlost hprepared hT3 hone hadj hpub, settling_freeSlots, shardView, shardOf_updShard,
      shardOf_of_shards (s := s) (by simp), hsh]
    simp [Shard.settling, dropVersions, hone, hpub]
  obtain ⟨h, hh, hview⟩ := Option.map_eq_some_iff.mp hafter
  exact ⟨h, hh, congrArg (·.2) hview⟩

end

section
variable (hmode : hostMode s p 2 = false) (hserving : serving sh = true) (hlost : sh.lost = false) (hcfg : s.fld .epcPcfg2 p 0 12 ≠ 0)
  (hT3 : zeroRate s p tT3 = false)
include hmode hserving hlost hcfg hT3

theorem repairWalk_ends (hend : sh.highWater ≤ sh.repairPos) :
    repairWalk s p x = (freeSlots (s.updShard p x fun h => { h with
      repairPos := 0, repairOld := [], unref := h.repairOld.foldl addSet h.unref }) p x).event .epcPevent p 5 := by
  simp [repairWalk, hsh, hmode, hserving, hlost, hcfg, hT3, hend]

theorem repairWalk_passes (hmore : sh.repairPos < sh.highWater)
    (hkept : servedHere s sh sh.repairPos = false ∨ repairPool s sh sh.repairPos = none) (hrunning : 0 < sh.repairPos) :
    repairWalk s p x = (charge s p tT3 (4 * sh.desc.degree)).updShard p x fun h => { h with repairPos := sh.repairPos + 1 } := by
  have hpool : (if servedHere s sh sh.repairPos then repairPool s sh sh.repairPos else none) = none := by
    rcases hkept with h | h <;> simp [h]
  simp [repairWalk, hsh, hmode, hserving, hlost, hcfg, hT3, Nat.not_le.2 hmore, hpool, hrunning.ne']

end

end

/-! ### LINK_SUPPLY (R571) -/

section
variable {s : State} {n : Nat} {c : Cmd} {sh : Shard} (hadm : admittedAs s n c 0x87)
  (hsh : shardOf s c.part (eIndex c.entry) = some sh)
include hadm hsh

theorem linkSupply_places {es : List LinkEntry} (hserving : serving sh = true) (hlost : sh.lost = false) (hmode : c.mode 2 = true)
    (hes : linkEntries sh.desc.degree 4096 (inputData s c.entry) = some es) (hne : es ≠ [])
    (hroom : 8 * es.length ≤ eResultLen c.entry) :
    linkSupply s n = endBatch (placeAll (fun s c i => linkEntry s n c (es.getD i (3, nullSlot, []))) es.length
      (s.updCmd n fun c => { c with phase := .running, total := es.length }) n) n := by
  obtain ⟨hget, hphase, hop⟩ := hadm
  simp [linkSupply, hget, hphase, hop, hsh, hserving, hlost, hmode, hes, hne, Nat.not_lt.2 hroom]

theorem linkSupply_of_malformed (hes : linkEntries sh.desc.degree 4096 (inputData s c.entry) = none) :
    linkSupply s n = finish s n stInvalid 0 0 := by
  obtain ⟨hget, hphase, hop⟩ := hadm
  simp [linkSupply, hget, hphase, hop, hsh, hes, endWith]

theorem linkSupply_malformed_ends (hes : linkEntries sh.desc.degree 4096 (inputData s c.entry) = none) :
    ∃ t, exec (.linkSupply n) s = .next t ∧ endedWith t n stInvalid :=
  ⟨_, congrArg Host.Outcome.next (linkSupply_of_malformed hadm hsh hes), finish_endedWith hadm.get hadm.not_done stInvalid 0 0⟩

end

end Sys2Proof.Machine
end

section
/-! PROOF. What messages, writes of windows and the end of a batch leave alone: messages and writes change neither the models nor the
image, a packet for another node puts at most its UNDELIVERED into this node's inbox (R425), and an event bit outlives the end of a batch's
sequences (R84, R328). -/
namespace Sys2Proof.Machine
open Sys2Proof

/-! ### Messages and stores leave the models alone -/

section
variable (s : State)

@[simp] theorem charge_model_img (p t n : Nat) : (charge s p t n).model = s.model ∧ (charge s p t n).img = s.img := by
  unfold charge
  split <;> simp

@[simp] theorem deliver_model_img (p : Packet) : (deliver s p).model = s.model ∧ (deliver s p).img = s.img := ⟨rfl, rfl⟩

@[simp] theorem portSend_model_img (i : Nat) : (portSend s i).model = s.model ∧ (portSend s i).img = s.img := by
  unfold portSend
  dsimp only
  split <;> simp [State.updPort]

@[simp] theorem enqueue_model_img (i : Nat) (p : Packet) : (enqueue s i p).model = s.model ∧ (enqueue s i p).img = s.img :=
  portSend_model_img _ i

@[simp] theorem routePkt_model_img (p : Packet) (from_ : Option Nat) :
    (routePkt s p from_).model = s.model ∧ (routePkt s p from_).img = s.img := by
  unfold routePkt
  dsimp only
  (repeat' split) <;> simp

/-- What a message's packet takes of the fabric's regulator before it is sent (R327). -/
def packetCharged (s : State) (p : Packet) : State := if isResponse p.typ ∨ p.vc = 0 then s else twillCharge s p

@[simp] theorem packetCharged_model_img (p : Packet) :
    (packetCharged s p).model = s.model ∧ (packetCharged s p).img = s.img := by
  unfold packetCharged
  split
  · exact ⟨rfl, rfl⟩
  · exact charge_model_img s _ _ _

@[simp] theorem sendMsg_model (l : List Packet) : (sendMsg s l).model = s.model :=
  foldl_keeps State.model (fun t p => ((routePkt_model_img _ _ _).1).trans (packetCharged_model_img t p).1) l s

@[simp] theorem toMember_model (d p : Nat) (body : List Byte) : (toMember s d p body).model = s.model := sendMsg_model s _

@[simp] theorem t2Write_model (a : Nat) (b : List Byte) : (t2Write s a b).model = s.model := by
  unfold t2Write
  dsimp only
  (repeat' split) <;> rfl

@[simp] theorem spansWrite_model (l : List (Nat × Nat)) (b : List Byte) : (spansWrite s l b).model = s.model := by
  induction l generalizing s b with
  | nil => rfl
  | cons x l ih => rw [spansWrite, ih, t2Write_model]

@[simp] theorem refetchSwatch_model (r : Resident) (i : Nat) : (refetchSwatch s r i).model = s.model := by
  unfold refetchSwatch
  refine foldl_keeps (fun a : State × Nat => a.1.model) (fun a x => ?_) r.spans (s, 0)
  split
  · exact t2Write_model _ _ _
  · rfl

@[simp] theorem fillHalf_model (lane : Nat) (d : List Byte) (pos : Nat) : (fillHalf s lane d pos).model = s.model := rfl

end

/-! ### What the router returns to this node (R425) -/

/-- Every packet in the inbox reports one that was dropped (R425). -/
def State.OnlyUndelivered (s : State) : Prop := ∀ q ∈ s.twill.inbox, q.typ = 0xD

section
variable {s t : State}

theorem State.OnlyUndelivered.of_inbox (h : s.OnlyUndelivered) (hinbox : t.twill.inbox = s.twill.inbox) : t.OnlyUndelivered := by
  rw [State.OnlyUndelivered, hinbox]
  exact h

@[simp] theorem portSend_inbox (s : State) (i : Nat) : (portSend s i).twill.inbox = s.twill.inbox := by
  unfold portSend
  dsimp only
  split
  · rfl
  · rfl

@[simp] theorem enqueue_inbox (s : State) (i : Nat) (p : Packet) : (enqueue s i p).twill.inbox = s.twill.inbox := portSend_inbox _ i

theorem State.OnlyUndelivered.deliver (h : s.OnlyUndelivered) {u : Packet} (hu : u.typ = 0xD) : (deliver s u).OnlyUndelivered := by
  intro q hq
  rcases List.mem_append.1 hq with hq | hq
  · exact h q hq
  · rw [List.mem_singleton.1 hq, hu]

/-- A packet for another node is queued or dropped: at most its UNDELIVERED reaches this node. -/
theorem State.OnlyUndelivered.routePkt (h : s.OnlyUndelivered) {p : Packet} (hdst : p.dst ≠ nodeId s) (from_ : Option Nat) :
    (routePkt s p from_).OnlyUndelivered := by
  have hevent : (s.event .twlEvent 0 6).OnlyUndelivered := h.of_inbox (by rw [event_twill])
  unfold Machine.routePkt
  rw [if_neg hdst]
  split
  · exact h.of_inbox (enqueue_inbox _ _ _)
  · dsimp only
    split
    · exact hevent
    · split
      · exact hevent.deliver rfl
      · split
        · exact hevent.of_inbox (enqueue_inbox _ _ _)
        · exact hevent.of_inbox (by rw [event_twill])

theorem State.OnlyUndelivered.sendPkt (h : s.OnlyUndelivered) {p : Packet} (hdst : p.dst ≠ nodeId s) : (sendPkt s p).OnlyUndelivered :=
  h.routePkt (p := { p with src := nodeId s, hops := s.fld .twlCfg 0 14 5 }) hdst none

theorem State.OnlyUndelivered.sendMsg (h : s.OnlyUndelivered) {l : List Packet} (hdst : ∀ p ∈ l, p.dst ≠ nodeId s) :
    (sendMsg s l).OnlyUndelivered := by
  refine (List.foldlRecOn (motive := fun t : State => t.OnlyUndelivered ∧ t.img = s.img) l _ ⟨h, rfl⟩ fun t ht p hp => ?_).1
  obtain ⟨hreports, himg⟩ := ht
  have hpacket : (packetCharged t p).img = t.img := (packetCharged_model_img t p).2
  have hinbox : (packetCharged t p).twill.inbox = t.twill.inbox := by
    unfold packetCharged twillCharge charge
    (repeat' split) <;> rfl
  have hnode : nodeId (packetCharged t p) = nodeId s := by rw [nodeId, hpacket, himg, nodeId]
  exact ⟨(hreports.of_inbox hinbox).sendPkt (fun heq => hdst p hp (heq.trans hnode)),
    (routePkt_model_img _ _ _).2.trans (hpacket.trans himg)⟩

theorem splitPkts_dst {p q : Packet} {b : List Byte} (hq : q ∈ splitPkts p b) : q.dst = p.dst := by
  obtain ⟨x, -, rfl⟩ := List.mem_map.1 hq
  rfl

end

/-! ### An event bit outlives the end of a batch's sequences -/

section
variable {s t : State} {r : Reg} {u b : Nat}

theorem State.HasEvent.of_regs (h : s.HasEvent r u b) (hregs : t.regs.sqc = s.regs.sqc) : t.HasEvent r u b := by
  unfold State.HasEvent State.sqc at h ⊢
  rw [hregs]
  exact h

theorem State.HasEvent.ite {c : Prop} [Decidable c] (hs : s.HasEvent r u b) (ht : t.HasEvent r u b) :
    (if c then s else t).HasEvent r u b := by
  split
  · exact hs
  · exact ht

theorem State.HasEvent.foldl {α : Type} {f : State → α → State} (h : s.HasEvent r u b)
    (hf : ∀ (t : State) (x : α), t.HasEvent r u b → (f t x).HasEvent r u b) (l : List α) : (l.foldl f s).HasEvent r u b :=
  List.foldlRecOn (motive := fun t : State => t.HasEvent r u b) l f h fun t ht x _ => hf t x ht

theorem State.HasEvent.finish (h : s.HasEvent r u b) (n st pr cf : Nat) : (finish s n st pr cf).HasEvent r u b :=
  h.of_regs (by rw [finish_regs])

theorem t2Write_regs (s : State) (a : Nat) (x : List Byte) : (t2Write s a x).regs = s.regs := by
  unfold t2Write
  dsimp only
  (repeat' split) <;> rfl

theorem spansWrite_regs (s : State) (l : List (Nat × Nat)) (x : List Byte) : (spansWrite s l x).regs = s.regs := by
  induction l generalizing s x with
  | nil => rfl
  | cons y l ih => rw [spansWrite, ih, t2Write_regs]

theorem State.HasEvent.endBatch (h : s.HasEvent r u b) (n : Nat) : (endBatch s n).HasEvent r u b := by
  unfold Machine.endBatch
  split
  · exact h
  · dsimp only
    split
    · exact State.HasEvent.finish (s := putResult s n 0 _) h n _ _ 0
    · exact h

theorem State.HasEvent.checkFences (h : s.HasEvent r u b) : (checkFences s).HasEvent r u b := by
  refine h.foldl (fun t n ht => ?_) _
  unfold fenceTry
  split
  · exact ht
  · dsimp only
    split
    · exact ht
    · split
      · exact ht
      · exact State.HasEvent.finish (s := t.mapEpoch _) ht n _ _ 0

theorem State.HasEvent.refuseRest (h : s.HasEvent r u b) (n st : Nat) : (refuseRest s n st).HasEvent r u b := by
  unfold Machine.refuseRest
  split
  · exact h
  · exact State.HasEvent.endBatch (s := stopBatch (s.addOut n _) n st) h n

theorem State.HasEvent.placeAll {place : State → Cmd → Nat → Except (Option Nat) State}
    (hplace : ∀ (s t : State) (c : Cmd) (i : Nat), s.HasEvent r u b → place s c i = .ok t → t.HasEvent r u b) (k n : Nat) {s : State}
    (h : s.HasEvent r u b) : (placeAll place k s n).HasEvent r u b := by
  induction k generalizing s with
  | zero => exact h
  | succ k ih =>
    unfold Machine.placeAll
    split
    · exact h
    next c _ =>
      split
      · exact h
      · split
        · exact (h.event _ _ _).refuseRest n _
        · split
          · exact h
          next t ht => exact ih (s := t.updCmd n _) (hplace s t c _ h ht)

theorem journalPlace_regs {p : Nat} {x : JRec} (h : journalPlace s p x = .ok t) : t.regs = s.regs := by
  unfold journalPlace at h
  dsimp only at h
  (repeat' split at h) <;> cases h <;> rfl

theorem placeInsert_regs {n gid attr state : Nat} {sh : Shard} {f : ItemForms} {up : Bool}
    (h : placeInsert s n sh gid attr f up state = .ok t) : t.regs = s.regs := by
  unfold placeInsert at h
  dsimp only at h
  split at h
  · cases h
  · split at h
    · cases h
    · split at h
      · cases h
      · cases hv : journalPlace s sh.part _ with
        | error e =>
          rw [hv] at h
          cases h
        | ok v =>
          have hregs := journalPlace_regs hv
          rw [hv] at h
          cases h
          exact hregs

theorem storeLatent_regs {c : Cmd} {x gid : Nat} {hidden : List (List W32)} (h : storeLatent s c x gid hidden = some t) :
    t.regs = s.regs := by
  unfold storeLatent at h
  split at h
  · split at h
    · cases h
    · obtain ⟨l, -, rfl⟩ := Option.map_eq_some_iff.1 h
      exact spansWrite_regs s l _
  · cases h

theorem placeDoc_regs {docs : List DocRec} {n i : Nat} {c : Cmd} (h : placeDoc docs s n c i = .ok t) : t.regs = s.regs := by
  unfold placeDoc at h
  dsimp only at h
  split at h
  · split at h
    · cases h; rfl
    · split at h
      · cases h; rfl
      · split at h
        · cases h
        · split at h
          · cases h; rfl
          · split at h
            · cases h; rfl
            · split at h
              · cases h
              next hplace =>
                have hregs := placeInsert_regs hplace
                split at h
                · cases h; exact hregs
                · split at h
                  next hlatent =>
                    obtain ⟨o, -, hstore⟩ := Option.bind_eq_some_iff.1 hlatent
                    cases h
                    exact (storeLatent_regs hstore).trans hregs
                  · cases h; exact hregs
  · cases h; rfl
  · cases h

theorem State.HasEvent.placeDocs (h : s.HasEvent r u b) (n : Nat) : (placeDocs s n).HasEvent r u b := by
  unfold Machine.placeDocs
  split
  · exact h
  · split
    · exact h
    · refine ((State.HasEvent.placeAll (fun s t c i hs ht => ?_) _ n h).endBatch n).checkFences
      exact hs.of_regs (by rw [placeDoc_regs ht])

theorem State.HasEvent.embedEnd (h : s.HasEvent r u b) (n : Nat) (img : Option (List Byte)) : (embedEnd s n img).HasEvent r u b := by
  unfold Machine.embedEnd
  split
  · exact h
  · split
    · exact h
    · exact State.HasEvent.finish (s := putResult s n 0 _) h n _ _ 0

theorem State.HasEvent.rerankEnd (h : s.HasEvent r u b) (x : Rerank) (failed : Nat) : (rerankEnd s x failed).HasEvent r u b := by
  unfold Machine.rerankEnd
  split
  · exact h
  · dsimp only
    split
    · split
      · exact State.HasEvent.finish (s := s.mapHost _) h _ _ _ _
      · exact State.HasEvent.finish (s := putResult (s.mapHost _) _ _ _) h _ _ _ _
    · exact State.HasEvent.finish (s := putResult (s.mapHost _) _ _ _) h _ _ _ _

theorem State.HasEvent.seqFails (h : s.HasEvent r u b) (x : Batch) (q : Seqn) : (seqFails s x q).HasEvent r u b := by
  unfold Machine.seqFails
  split
  · exact h
  · split
    · exact h
    · split
      · exact State.HasEvent.placeDocs (s := s.updCmd _ _) h _
      · split
        · exact State.HasEvent.embedEnd (s := s.updOut _ _ _) h _ _
        · split
          · exact h.rerankEnd _ _
          · exact h.finish _ _ _ _

theorem State.HasEvent.failBatch (h : s.HasEvent r u b) (x : Batch) : (failBatch s x).HasEvent r u b := by
  unfold Machine.failBatch
  split
  · exact h
  · exact State.HasEvent.foldl (s := dropBatch s x) h (fun t q ht => ht.seqFails x q) _

theorem State.HasEvent.ledgerAdd (h : s.HasEvent r u b) (p : Nat) (x : LRec) : (ledgerAdd s p x).HasEvent r u b := by
  have hqueue : ∀ {t : State} (x : LRec), t.HasEvent r u b → (queueLog t p x).HasEvent r u b := fun {t} x ht => by
    unfold queueLog
    split
    · exact ht.event _ _ _
    · exact ht
  have hlost : ∀ (c : Prop) [Decidable c] {t : State}, t.HasEvent r u b →
      (if c then Machine.raiseEvent ((t.bump .rasPLedgerLost p 1).event .rasPevent p 1) 7 (natLe 4 p) else t).HasEvent r u b :=
    fun c _ {t} ht => .ite ((State.HasEvent.event (s := t.bump .rasPLedgerLost p 1) ht _ _ _).raiseEvent _ _) ht
  unfold Machine.ledgerAdd
  dsimp only
  refine .ite (State.HasEvent.event (hlost _ ?_) _ _ _) (hqueue _ (State.HasEvent.event (hlost _ ?_) _ _ _))
  · exact h.of_regs rfl
  · exact h.of_regs rfl

end

/-- A fault record raises the device's fault event (R579). -/
theorem faultRecord_hasEvent (s : State) (cls kind u addr : Nat) (parts cmds : List Nat) :
    (faultRecord s cls kind u addr parts cmds).HasEvent .rasEvent 0 0 := by
  unfold faultRecord
  dsimp only
  refine State.HasEvent.foldl ?_ (fun t p ht => ?_) _
  · exact hasEvent_event _ _ _ (by decide)
  · exact State.HasEvent.of_regs (s := ledgerAdd t p _) (ht.ledgerAdd p _) rfl

end Sys2Proof.Machine
end

section
/-! PROOF. The rows of batches, rounds, copies and split models (R309 to R313, R327, R328, R595, R596): O32. As stated it fails, in its
clause on COLLECTIVE, which asks that the inbox be empty afterwards. With the packet that has arrived, the batches in a round send what
partial sums they have reached; where no route leads to a member, the router drops them with an UNDELIVERED packet to their source
(R425), which is this node, and that packet stands in the inbox. Without it the clause holds (`collective_partials`, `collective_inbox`),
and the other clauses hold as stated. -/
namespace Sys2Proof.Machine
open Sys2Proof

/-! ### COLLECTIVE (R327) -/

/-- The state in which a packet of partial sums has been taken from the inbox and kept for its rank. -/
def sumsKept (s : State) (p : Packet) (k : Nat) (g : Group) : State :=
  (s.mapTwill fun t => { t with inbox := [] }).mapModel fun m => { m with
    partials := m.partials ++ [{ group := k, rank := (indexOf? (· == p.src) g.nodes).getD 0, req := p.reqId, payload := p.payload }] }

theorem collective_of_sums {s : State} {p : Packet} {k : Nat} {g : Group} (htyp : p.typ = 0xB) (hinbox : s.twill.inbox = [p])
    (hlast : p.last = false)
    (hgroup : (s.model.groups.find? fun g => g.2.nodes.contains p.src && g.2.nodes.contains (nodeId s)) = some (k, g)) :
    collective s p = s.model.batches.foldl sendPartials (sumsKept s p k g) := by
  have htake : (s.mapTwill fun t => { t with inbox := dropFirst (· == p) t.inbox }) = s.mapTwill fun t => { t with inbox := [] } := by
    simp [State.mapTwill, hinbox, dropFirst]
  have hgroup' : ((s.mapTwill fun t => { t with inbox := [] }).model.groups.find? fun g =>
      g.2.nodes.contains p.src && g.2.nodes.contains (nodeId (s.mapTwill fun t => { t with inbox := [] }))) = some (k, g) := hgroup
  unfold collective
  rw [if_neg (by simp [htyp, hinbox])]
  dsimp only
  rw [htake, hgroup']
  simp only [hlast]
  rfl

/-- One member of a batch's group gets the bytes that its rank has not been sent. -/
def sendSums (b : Batch) (out : List (List Byte)) (s : State) (x : Nat × Nat) : State :=
  if x.1 = nodeId s ∨ ((out.getD x.2 []).drop (b.sent.getD x.2 0)).isEmpty then s
  else toMember s x.1 b.part ((out.getD x.2 []).drop (b.sent.getD x.2 0))

theorem sendPartials_of_split {s : State} {b : Batch} {img : List Byte} {k : Nat} {g : Group} (himg : storedImage s b.digest = some img)
    (hsplit : 1 < miSplit img) (hcluster : b.cluster.isSome = true) (hgroup : groupOf s img = some (k, g)) :
    sendPartials s b = (g.nodes.zipIdx.foldl (sendSums b (batchRun s b img).out) s).mapModel fun m => { m with
      batches := m.batches.map fun x => if x.num = b.num then { x with sent := (batchRun s b img).out.map List.length } else x } := by
  simp only [sendPartials, himg, hsplit, hcluster, hgroup, and_self, if_true]
  rfl

/-! ### The counterexample: partial sums for a member that no route leads to -/

/-- A document model split over two ranks, this node's image being rank 0 (R293, R304): a token table, a LAYERNORM, a LINEAR, a GELU, a
LINEAR whose products the ranks sum, and the first token's row as output. -/
def twoRankImage : List Byte :=
  [0x49, 0x4C, 0x44, 0x4D, 1, 0, 1, 2] ++ natLe 14 0 ++ [6, 0, 64, 0, 0, 2, 100, 0, 0, 0, 2, 0, 16, 0] ++ natLe 8 0 ++ [64, 0, 0, 0, 64] ++
    natLe 15 0 ++ [[1, 3, 2, 0, 1, 0, 64], [3, 0, 1, 0, 64, 0, 64], [2, 1, 1, 0, 64, 0, 64], [5, 0, 1, 0, 64, 0, 64, 0, 0, 0, 0, 0, 0, 1],
      [2, 1, 2, 0, 64, 0, 64], [8, 0, 3, 0, 64, 0, 64, 0, 0, 0, 0, 0, 0, 1]].flatMap fun r => slice r 0 32

/-- A batch of that model in cluster 0, with one sequence of one token, that has sent nothing yet. -/
def runningBatch : Batch :=
  { num := 0, digest := miDigest twoRankImage, role := .doc, part := 0, seqs := [{ src := (0, 0), tokens := [1], slot := 0 }],
    closed := true, cluster := some 0, lane := some 0, rerun := false, lead := none, sent := [] }

/-- The group of that model: this node, 0, and node 5. -/
def twoNodes : Group := { modelId := 0, nodes := [0, 5], target := 1, cmd := none }

/-- A packet of partial sums of node 5 that does not end its message. -/
def sumsOfPeer : Packet := { mkPkt 0xB 0 0 with src := 5, last := false }

/-- Node 0 runs the batch, its route table is empty, and the packet has arrived. -/
def cutOffNode : State :=
  ((State.reset.mapImg fun i => { i with applied := true }).mapModel fun m => { m with
    store := [twoRankImage], batches := [runningBatch], groups := [(3, twoNodes)] }).mapTwill fun t => { t with inbox := [sumsOfPeer] }

/-- The header and the layer records of that image keep to R292, R293 and R304. -/
theorem twoRankImage_wellFormed : miHeaderOk twoRankImage = true ∧ ∀ k < miNLayers twoRankImage, layerOk twoRankImage k = true := by
  decide +kernel

theorem groupOf_cutOffNode : groupOf (sumsKept cutOffNode sumsOfPeer 3 twoNodes) twoRankImage = some (3, twoNodes) := by decide +kernel

/-- The sums for node 5 come back as UNDELIVERED. -/
theorem inbox_of_cutOffNode :
    (twoNodes.nodes.zipIdx.foldl (sendSums runningBatch (batchRun (sumsKept cutOffNode sumsOfPeer 3 twoNodes) runningBatch twoRankImage).out)
      (sumsKept cutOffNode sumsOfPeer 3 twoNodes)).twill.inbox.map (·.typ) = [0xD] := by
  decide +kernel

theorem collective_cutOffNode : (collective cutOffNode sumsOfPeer).twill.inbox.map (·.typ) = [0xD] := by
  have himg : storedImage (sumsKept cutOffNode sumsOfPeer 3 twoNodes) runningBatch.digest = some twoRankImage := by
    simp [storedImage, sumsKept, cutOffNode, runningBatch]
  have hbatches : cutOffNode.model.batches = [runningBatch] := rfl
  rw [collective_of_sums (k := 3) (g := twoNodes) rfl rfl rfl (by decide +kernel), hbatches, List.foldl_cons, List.foldl_nil,
    sendPartials_of_split himg (by decide +kernel) rfl groupOf_cutOffNode]
  simpa only [State.mapModel_twill] using inbox_of_cutOffNode

/-- Refutes O32: on `cutOffNode` the packet of node 5 is taken, and the UNDELIVERED packet stands in the inbox in its place. -/
theorem not_batchRowsComplete : ¬ Obligations.BatchRowsComplete := by
  unfold Obligations.BatchRowsComplete
  rintro ⟨-, -, -, -, -, hcollective, -⟩
  obtain ⟨t, ht, hempty, -⟩ := hcollective cutOffNode sumsOfPeer 3 twoNodes rfl rfl rfl (by decide +kernel)
  obtain rfl := Host.Outcome.next.inj ht
  have hreport := collective_cutOffNode
  rw [hempty] at hreport
  cases hreport

/-! ### Partial sums sent (R327) -/

theorem foldl_sendSums_model (b : Batch) (out : List (List Byte)) (l : List (Nat × Nat)) (s : State) :
    (l.foldl (sendSums b out) s).model = s.model := by
  refine foldl_keeps State.model (fun t x => ?_) l s
  unfold sendSums
  split
  · rfl
  · exact toMember_model t _ _ _

/-- Sending changes of the models only what the batches note as sent. -/
theorem sendPartials_model (s : State) (b : Batch) : ∃ f : Batch → List Nat,
    (sendPartials s b).model = { s.model with batches := s.model.batches.map fun x => { x with sent := f x } } := by
  have hsame : s.model = { s.model with batches := s.model.batches.map fun x => { x with sent := x.sent } } := by simp
  unfold sendPartials
  split
  next => exact ⟨Batch.sent, hsame⟩
  next img _ =>
    split
    next => exact ⟨Batch.sent, hsame⟩
    next k g _ =>
      refine ⟨fun x => if x.num = b.num then (batchRun s b img).out.map List.length else x.sent, ?_⟩
      show ((g.nodes.zipIdx.foldl (sendSums b (batchRun s b img).out) s).mapModel _).model = _
      rw [State.mapModel_model, foldl_sendSums_model]
      congr 2
      funext x
      split
      next h => simp [h]
      next h => simp [h]

theorem State.OnlyUndelivered.sendPartials {s : State} (h : s.OnlyUndelivered) (b : Batch) : (sendPartials s b).OnlyUndelivered := by
  unfold Machine.sendPartials
  split
  · exact h
  · split
    · exact h
    · refine List.foldlRecOn (motive := State.OnlyUndelivered) _ _ h fun t ht x _ => ?_
      dsimp only
      split
      · exact ht
      next hother =>
        exact ht.sendMsg fun q hq => by
          rw [splitPkts_dst hq]
          exact fun hself => hother (.inl hself)

/-! ### Partial sums are kept (R327) -/

section
variable {s : State} {p : Packet} {k : Nat} {g : Group} (htyp : p.typ = 0xB) (hinbox : s.twill.inbox = [p]) (hlast : p.last = false)
  (hgroup : (s.model.groups.find? fun g => g.2.nodes.contains p.src && g.2.nodes.contains (nodeId s)) = some (k, g))
include htyp hinbox hlast hgroup

theorem collective_partials : (collective s p).model.partials = s.model.partials ++
    [{ group := k, rank := (indexOf? (· == p.src) g.nodes).getD 0, req := p.reqId, payload := p.payload }] := by
  have hsend : ∀ (t : State) (b : Batch), (sendPartials t b).model.partials = t.model.partials := fun t b => by
    obtain ⟨f, h⟩ := sendPartials_model t b
    rw [h]
  rw [collective_of_sums htyp hinbox hlast hgroup]
  exact foldl_keeps (fun t : State => t.model.partials) hsend _ _

end

/-- The clause of O32 on the inbox, without what the router reports of the sums that it could not send. -/
theorem collective_inbox {s : State} {p : Packet} {k : Nat} {g : Group} (htyp : p.typ = 0xB) (hinbox : s.twill.inbox = [p])
    (hlast : p.last = false)
    (hgroup : (s.model.groups.find? fun g => g.2.nodes.contains p.src && g.2.nodes.contains (nodeId s)) = some (k, g)) :
    (collective s p).OnlyUndelivered := by
  have hempty : (sumsKept s p k g).OnlyUndelivered := fun q hq => absurd hq List.not_mem_nil
  rw [collective_of_sums htyp hinbox hlast hgroup]
  exact List.foldlRecOn (motive := State.OnlyUndelivered) _ _ hempty fun t ht b _ => ht.sendPartials b

/-! ### A batch closes (R313, R328) -/

theorem closeBatch_batches {s : State} {n : Nat} {b : Batch} (hfind : (s.model.batches.find? fun b => b.num == n) = some b)
    (hopen : b.closed = false) :
    (closeBatch s n).model.batches = s.model.batches.map fun x => if x.num = n then { x with closed := true } else x := by
  unfold closeBatch
  rw [hfind]
  dsimp only
  rw [if_neg (by simp [hopen])]
  split
  next => rfl
  next k g _ => exact congrArg ModelState.batches (foldl_keeps State.model (fun t d => toMember_model t d _ _) _ _)

/-! ### A round starts (R309, R311, R312) -/

/-- A batch has a cluster in the round of a lane. -/
def State.InRound (s : State) (lane : Nat) : Prop := ∃ b ∈ s.model.batches, b.lane = some lane ∧ b.cluster.isSome = true

theorem mem_waitOrder {l : List Batch} {b : Batch} : b ∈ waitOrder l ↔ b ∈ l := by
  simp only [waitOrder, List.mem_append, List.mem_filter]
  by_cases h : b.role = .doc <;> simp [h]

theorem takeCluster_eq_or (s : State) (lane : Nat) (b : Batch) : takeCluster s lane b = s ∨
    ∃ u, takeCluster s lane b = s.mapModel fun m => { m with
      batches := m.batches.map fun x => if x.num = b.num then { x with cluster := some u, lane := some lane } else x } := by
  unfold takeCluster
  split
  · exact .inl rfl
  · split
    · exact .inl rfl
    · exact .inr ⟨_, rfl⟩

@[simp] theorem takeCluster_lanes (s : State) (lane : Nat) (b : Batch) : (takeCluster s lane b).model.lanes = s.model.lanes := by
  rcases takeCluster_eq_or s lane b with h | ⟨u, h⟩ <;> rw [h]
  rfl

theorem State.InRound.takeCluster {s : State} {lane : Nat} (h : s.InRound lane) (b : Batch) : (takeCluster s lane b).InRound lane := by
  obtain ⟨x, hx, hlane, hcluster⟩ := h
  rcases takeCluster_eq_or s lane b with h | ⟨u, h⟩ <;> rw [h]
  · exact ⟨x, hx, hlane, hcluster⟩
  · refine ⟨_, List.mem_map_of_mem hx, ?_⟩
    split
    · exact ⟨rfl, rfl⟩
    · exact ⟨hlane, hcluster⟩

theorem takeCluster_inRound {s : State} {lane : Nat} {b : Batch} (hmem : b ∈ s.model.batches) (hwaits : batchWaits s b = true)
    (hfree : (freeClusters s b).isEmpty = false) : (takeCluster s lane b).InRound lane := by
  unfold Machine.takeCluster
  rw [if_neg (by simp [hwaits])]
  split
  next hnone => simp [hnone] at hfree
  next u _ _ => exact ⟨{ b with cluster := some u, lane := some lane }, List.mem_map.2 ⟨b, hmem, if_pos rfl⟩, rfl, rfl⟩

/-- Of batches that stand in the table, one that waits and has a free cluster makes sure that some batch takes a cluster. -/
theorem foldl_takeCluster_inRound {s : State} {lane : Nat} {b : Batch} {l : List Batch} (hl : ∀ x ∈ l, x ∈ s.model.batches) (hb : b ∈ l)
    (hwaits : batchWaits s b = true) (hfree : (freeClusters s b).isEmpty = false) :
    (l.foldl (fun s b => takeCluster s lane b) s).InRound lane := by
  have hkeep : ∀ (l : List Batch) (t : State), t.InRound lane → (l.foldl (fun s b => takeCluster s lane b) t).InRound lane := fun l t ht =>
    List.foldlRecOn (motive := (State.InRound · lane)) l _ ht fun _ h x _ => h.takeCluster x
  induction l with
  | nil => cases hb
  | cons x l ih =>
    rw [List.foldl_cons]
    rcases List.mem_cons.1 hb with rfl | hb
    · exact hkeep l _ (takeCluster_inRound (hl _ List.mem_cons_self) hwaits hfree)
    · rcases takeCluster_eq_or s lane x with h | ⟨u, h⟩
      · rw [h]
        exact ih (fun y hy => hl y (List.mem_cons_of_mem _ hy)) hb
      · refine hkeep l _ ?_
        rw [h]
        exact ⟨{ x with cluster := some u, lane := some lane }, List.mem_map.2 ⟨x, hl x List.mem_cons_self, if_pos rfl⟩, rfl, rfl⟩

@[simp] theorem sendPartials_lanes (s : State) (b : Batch) : (sendPartials s b).model.lanes = s.model.lanes := by
  obtain ⟨f, h⟩ := sendPartials_model s b
  rw [h]

theorem State.InRound.sendPartials {s : State} {lane : Nat} (h : s.InRound lane) (b : Batch) : (sendPartials s b).InRound lane := by
  obtain ⟨x, hx, hround⟩ := h
  obtain ⟨f, h⟩ := sendPartials_model s b
  exact ⟨{ x with sent := f x }, by rw [h]; exact List.mem_map_of_mem hx, hround⟩

/-- The state in which a lane has begun to stream a model. -/
def laneBegun (s : State) (lane : Nat) (d : List Byte) : State :=
  fillHalf (s.mapModel fun m => { m with
    lanes := m.lanes.put lane { digest := some d, pos := 0, left := ((storedImage s d).map imageBytes).getD 0 } }) lane d 0

/-- The state in which the batches of that model have taken clusters. -/
def clustersTaken (s : State) (lane : Nat) (d : List Byte) : State :=
  ((waitOrder s.model.batches).filter fun b => b.digest == d).foldl (fun s b => takeCluster s lane b) (laneBegun s lane d)

section
variable {s : State} {lane : Nat} {d : List Byte} (hblock : s.blockOut 8 = false) (hlane : lane < cfgWeightWindow s.img.cfg / 2)
  (hfree : s.model.lanes.get lane = none)
  (hfind : (((waitModels s).take ((List.range (cfgWeightWindow s.img.cfg / 2)).filter fun x => !s.model.lanes.has x).length).find? fun d =>
    s.model.batches.any fun b => b.digest == d && batchWaits s b && !(freeClusters s b).isEmpty) = some d)
include hblock hlane hfree hfind

theorem roundStart_of_model : roundStart s lane =
    ((clustersTaken s lane d).model.batches.filter fun b => b.lane == some lane && b.cluster.isSome).foldl sendPartials
      (clustersTaken s lane d) := by
  unfold roundStart
  rw [if_neg (by simp [hblock, hlane, hfree])]
  dsimp only
  rw [hfind]
  rfl

theorem roundStart_lane : (roundStart s lane).model.lanes.get lane =
    some { digest := some d, pos := 0, left := ((storedImage s d).map imageBytes).getD 0 } := by
  have hlanes : (clustersTaken s lane d).model.lanes = (laneBegun s lane d).model.lanes :=
    foldl_keeps (fun t => t.model.lanes) (fun t b => takeCluster_lanes t lane b) _ _
  have hsent : ∀ (l : List Batch) (t : State), (l.foldl sendPartials t).model.lanes = t.model.lanes := fun l t =>
    foldl_keeps (fun t => t.model.lanes) sendPartials_lanes l t
  rw [roundStart_of_model hblock hlane hfree hfind, hsent, hlanes]
  exact Smap.get_put_same _ _ _

theorem roundStart_inRound : (roundStart s lane).InRound lane := by
  have hany := List.find?_some hfind
  obtain ⟨b, hb, hcan⟩ := List.any_eq_true.1 hany
  simp only [Bool.and_eq_true, beq_iff_eq, Bool.not_eq_true'] at hcan
  obtain ⟨⟨hdigest, hwaits⟩, hcluster⟩ := hcan
  have htaken : (clustersTaken s lane d).InRound lane := by
    refine foldl_takeCluster_inRound (b := b) (fun x hx => ?_) ?_ hwaits hcluster
    · exact mem_waitOrder.1 (List.mem_filter.1 hx).1
    · exact List.mem_filter.2 ⟨mem_waitOrder.2 hb, beq_iff_eq.2 hdigest⟩
  rw [roundStart_of_model hblock hlane hfree hfind]
  exact List.foldlRecOn (motive := (State.InRound · lane)) _ _ htaken fun _ h x _ => h.sendPartials x

end

/-! ### A half of a lane is released (R309, R310) -/

section
variable {s : State} {lane half : Nat} {l : Lane} (hlane : s.model.lanes.get lane = some l) (hhalf : half = l.pos % 2)
  (hstreams : streams s (l.digest.getD []) = true)
include hlane hhalf hstreams

theorem halfRefill_fills (hleft : 2 ^ 22 < l.left) : halfRefill s lane half = fillHalf (s.mapModel fun m => { m with
    lanes := m.lanes.put lane { l with pos := l.pos + 1, left := l.left - 2 ^ 22 } }) lane (l.digest.getD []) (l.pos + 1) := by
  unfold halfRefill
  rw [hlane]
  dsimp only
  rw [if_neg (by simp [hhalf, hstreams]), if_pos hleft]

theorem halfRefill_lane (hleft : 2 ^ 22 < l.left) :
    (halfRefill s lane half).model.lanes.get lane = some { l with pos := l.pos + 1, left := l.left - 2 ^ 22 } := by
  rw [halfRefill_fills hlane hhalf hstreams hleft]
  exact Smap.get_put_same _ _ _

theorem halfRefill_ends (hleft : l.left ≤ 2 ^ 22)
    (hnone : (s.model.batches.any fun b => b.lane == some lane && b.cluster.isSome) = false) :
    halfRefill s lane half = s.mapModel fun m => { m with lanes := m.lanes.del lane } := by
  have hmine : (s.model.batches.filter fun b => b.lane == some lane && b.cluster.isSome) = [] := by
    rwa [List.filter_eq_nil_iff, ← List.any_eq_false]
  unfold halfRefill
  rw [hlane]
  dsimp only
  rw [if_neg (by simp [hhalf, hstreams]), if_neg (Nat.not_lt.2 hleft), hmine, List.foldl_nil, hnone, if_neg Bool.false_ne_true]

end

/-! ### Copies and refetches (R307, R595, R596) -/

section
variable {s : State} {i : Nat} {r : Resident} (hr : s.model.resident[i]? = some r)
include hr

section
variable (hdone : r.done = false) (hlost : r.lost = false) (hspans : r.spans ≠ [])
include hdone hlost hspans

theorem modelCopyDone_resident : (modelCopyDone s i true).model.resident =
    s.model.resident.map fun x => if x.digest = r.digest then { x with done := true } else x := by
  simp [modelCopyDone, hr, hdone, hlost, hspans]

theorem modelCopyDone_unreadable : modelCopyDone s i false = modelLost s r.digest := by
  simp [modelCopyDone, hr, hdone, hlost, hspans]

end

variable (hpoison : r.poison ≠ [])
include hpoison

theorem refetchDone_model : (refetchDone s i true false).model = { s.model with
    resident := s.model.resident.map fun x => if x.digest = r.digest then { x with poison := [] } else x
    batches := s.model.batches.map fun b => if b.digest = r.digest ∧ b.cluster.isSome then { b with rerun := true, sent := [] } else b
    lanes := s.model.lanes.map fun l => (l.1, if l.2.digest = some r.digest then
      { l.2 with pos := 0, left := ((storedImage s r.digest).map imageBytes).getD 0 } else l.2) } := by
  have hswatches : (r.poison.foldl (fun s i => refetchSwatch s r i) s).model = s.model :=
    foldl_keeps State.model (fun t x => refetchSwatch_model t r x) _ s
  have hevents : ∀ (ps : List Nat) (t : State), (ps.foldl (fun s p => s.event .rasPevent p 3) t).model = t.model := fun ps t =>
    foldl_keeps State.model (fun t p => event_model t _ p 3) ps t
  simp [refetchDone, hr, hpoison, hswatches, hevents]

theorem refetchDone_again : refetchDone s i true true = modelLost s r.digest := by
  simp [refetchDone, hr, hpoison]

theorem refetchDone_unreadable : refetchDone s i false false = modelLost s r.digest := by
  simp [refetchDone, hr, hpoison]

end

/-! ### A member does not deliver (R328) -/

section
variable {s : State} {n : Nat} {b : Batch} {img : List Byte} (hb : batchOf s n = some b) (himg : storedImage s b.digest = some img)
  (hsplit : 1 < miSplit img) (hcluster : b.cluster ≠ none) (hwaits : (batchRun s b img).waits = true)
include hb himg hsplit hcluster hwaits

theorem collectiveTimeout_fails : collectiveTimeout s n =
    failBatch (if b.lead.isSome then s else faultRecord s 0x10 0 0 0 [b.part] []) b := by
  simp only [collectiveTimeout, hb, himg]
  rw [if_neg (by simp [hsplit, hcluster, hwaits])]

theorem collectiveTimeout_ofLeader (hlead : b.lead = none) :
    collectiveTimeout s n = failBatch (faultRecord s 0x10 0 0 0 [b.part] []) b := by
  rw [collectiveTimeout_fails hb himg hsplit hcluster hwaits, hlead]
  rfl

theorem collectiveTimeout_hasEvent (hlead : b.lead = none) : (collectiveTimeout s n).HasEvent .rasEvent 0 0 := by
  rw [collectiveTimeout_ofLeader hb himg hsplit hcluster hwaits hlead]
  exact (faultRecord_hasEvent s _ _ _ _ _ _).failBatch b

theorem collectiveTimeout_ofMember (hlead : b.lead ≠ none) :
    collectiveTimeout s n = s.mapModel fun m => { m with batches := m.batches.filter fun x => x.num != b.num } := by
  have hsome : b.lead.isSome = true := Option.isSome_iff_ne_none.2 hlead
  rw [collectiveTimeout_fails hb himg hsplit hcluster hwaits, failBatch, if_pos hsome, if_pos hsome]
  rfl

end

end Sys2Proof.Machine
end

section
/-! PROOF. What the status words and the memory keep under events, transfers and the record of a fault (R362, R579, R600): a record
leaves the memory as it was, and so every status word listed before RAS_P_LEDGER_LOST, the only one that it counts in. -/
namespace Sys2Proof.Machine
open Sys2Proof

/-! ### Status words -/

section
variable {s : State} {r r' : Reg} {u : Nat}

theorem regKey_ne_of_register (h : r.ctorIdx ≠ r'.ctorIdx) : regKey r u ≠ regKey r' u := by
  unfold regKey
  omega

@[simp] theorem event_ro (s : State) (r r' : Reg) (u u' b : Nat) : (s.event r' u' b).ro r u = s.ro r u := by
  rw [State.ro, event_regs_ro, State.ro]

@[simp] theorem eventIf_ro (s : State) (c : Bool) (r r' : Reg) (u u' b : Nat) : (s.eventIf c r' u' b).ro r u = s.ro r u := by
  cases c
  · rfl
  · exact event_ro s r r' u u' b

@[simp] theorem ro_setRo_same (s : State) (r : Reg) (u : Nat) (v : W32) : (s.setRo r u v).ro r u = v :=
  Smap.getD_put_same _ _ _ _

theorem ro_setRo_other {u' : Nat} (v : W32) (h : regKey r u ≠ regKey r' u') : (s.setRo r' u' v).ro r u = s.ro r u :=
  Smap.getD_put_ne _ _ _ _ _ h

@[simp] theorem ro_bump_same (s : State) (r : Reg) (u n : Nat) : (s.bump r u n).ro r u = s.ro r u + BitVec.ofNat 32 n :=
  ro_setRo_same s r u _

end

/-! ### The record of a fault -/

@[simp] theorem raiseEvent_mem (s : State) (b : Nat) (body : List Byte) : (raiseEvent s b body).mem = s.mem := by
  unfold raiseEvent
  split
  · rfl
  · exact eventIf_mem _ _ _ _ _

@[simp] theorem queueLog_mem (s : State) (p : Nat) (x : LRec) : (queueLog s p x).mem = s.mem := by
  unfold queueLog
  split
  · exact event_mem _ _ _ _
  · rfl

theorem raiseEvent_ro (s : State) (b : Nat) (body : List Byte) (r : Reg) (u : Nat) : (raiseEvent s b body).ro r u = s.ro r u := by
  rw [State.ro, raiseEvent_regs_ro, State.ro]

theorem queueLog_ro (s : State) (p : Nat) (x : LRec) (r : Reg) (u : Nat) : (queueLog s p x).ro r u = s.ro r u := by
  unfold queueLog
  split
  · exact event_ro _ _ _ _ _ _
  · rfl

@[simp] theorem ledgerAdd_mem (s : State) (p : Nat) (x : LRec) : (ledgerAdd s p x).mem = s.mem := by
  simp only [ledgerAdd, apply_ite State.mem, queueLog_mem, event_mem, raiseEvent_mem, State.bump_mem, State.mapRas_mem, ite_self]

@[simp] theorem faultRecord_mem (s : State) (cls kind u addr : Nat) (parts cmds : List Nat) :
    (faultRecord s cls kind u addr parts cmds).mem = s.mem := by
  unfold faultRecord
  dsimp only
  rw [foldl_keeps State.mem (fun t p => by rw [State.mapRas_mem, ledgerAdd_mem]), event_mem, State.mapRas_mem]

section
variable {r : Reg} {u : Nat} (hr : r.ctorIdx < Reg.rasPLedgerLost.ctorIdx) (hu : u < 262144)
include hr hu

theorem bump_ledgerLost_ro (s : State) (p n : Nat) : (s.bump .rasPLedgerLost p n).ro r u = s.ro r u :=
  ro_bump_other n (by unfold regKey; omega)

theorem ledgerAdd_ro (s : State) (p : Nat) (x : LRec) : (ledgerAdd s p x).ro r u = s.ro r u := by
  unfold ledgerAdd
  simp only [apply_ite (fun t => State.ro t r u), queueLog_ro, event_ro, raiseEvent_ro, bump_ledgerLost_ro hr hu, ite_self]
  rfl

theorem faultRecord_ro (s : State) (cls kind v addr : Nat) (parts cmds : List Nat) :
    (faultRecord s cls kind v addr parts cmds).ro r u = s.ro r u := by
  unfold faultRecord
  dsimp only
  refine (foldl_keeps (fun t : State => t.ro r u) (fun t p => ?_) _ _).trans (event_ro _ _ _ _ _ _)
  exact ledgerAdd_ro hr hu t p _

end

/-- An event bit outlives the record of a fault. -/
theorem State.HasEvent.faultRecord {s : State} {r : Reg} {u b : Nat} (h : s.HasEvent r u b) (cls kind v addr : Nat) (parts cmds : List Nat) :
    (faultRecord s cls kind v addr parts cmds).HasEvent r u b := by
  unfold Machine.faultRecord
  dsimp only
  refine State.HasEvent.foldl ?_ (fun t p ht => ?_) _
  · exact State.HasEvent.event (s := s.mapRas _) h _ _ _
  · exact State.HasEvent.of_regs (s := Machine.ledgerAdd t p _) (ht.ledgerAdd p _) rfl

/-! ### What a transfer's charge leaves of the memory (R362, R364) -/

@[simp] theorem charge_mem_keeps (s : State) (p t n : Nat) :
    (charge s p t n).mem.t1 = s.mem.t1 ∧ (charge s p t n).mem.t3 = s.mem.t3 ∧ (charge s p t n).mem.moves = s.mem.moves := by
  unfold charge
  split <;> exact ⟨rfl, rfl, rfl⟩

end Sys2Proof.Machine
end

section
/-! PROOF. The window of CXL.mem and BAR4 (12_memory_tiers R348 to R351, 17_host_queues R505 and R506): O16. A request joins the line of
those that wait, and tokens decide whether it is served at once; so every row's effect is one of the two lemmas about `cxlRequest`. -/
namespace Sys2Proof.Machine
open Sys2Proof

/-! ### A request of the host waits for tokens or is served (R351) -/

section
variable {s : State} {a n : Nat}

theorem cxlDrain_withoutTokens (htokens : s.mem.bucket.getD tT3 0 < 1) (k : Nat) : cxlDrain k s = s := by
  cases k with
  | zero => rfl
  | succ k =>
    unfold cxlDrain
    split
    · rfl
    · exact if_pos htokens

theorem cxlRequest_waits (htokens : s.mem.bucket.getD tT3 0 < 1) (data : List Byte) :
    cxlRequest s a n data = s.mapMem fun m => { m with cxlWait := m.cxlWait ++ [(a, n, data)] } :=
  cxlDrain_withoutTokens (s := s.mapMem fun m => { m with cxlWait := m.cxlWait ++ [(a, n, data)] }) htokens _

/-- With nothing waiting before it, a request that finds a token leaves the line of those that wait as it was: empty. -/
theorem cxlRequest_served (hwait : s.mem.cxlWait = []) (htokens : s.mem.bucket.getD tT3 0 ≥ 1) (data : List Byte) :
    cxlRequest s a n data = cxlServe s a n data := by
  have hsame : (s.mapMem fun m => { m with cxlWait := [] }) = s := by
    unfold State.mapMem
    rw [← hwait]
  have hlen : (s.mapMem fun m => { m with cxlWait := m.cxlWait ++ [(a, n, data)] }).mem.cxlWait = [(a, n, data)] := by simp [hwait]
  have hfirst : cxlDrain 1 (s.mapMem fun m => { m with cxlWait := m.cxlWait ++ [(a, n, data)] }) =
      cxlServe (s.mapMem fun m => { m with cxlWait := [] }) a n data := by
    simp only [cxlDrain, hlen]
    exact if_neg (Int.not_lt.2 htokens)
  unfold cxlRequest
  dsimp only
  rw [hlen, List.length_singleton, hfirst, hsame]

theorem cxlServe_read (s : State) (a n : Nat) :
    (cxlServe s a n []).mem.cxlData.1 = tierRead s.mem.t3 a n ∧ (cxlServe s a n []).mem.t3 = s.mem.t3 := by
  simp [cxlServe]

end

/-! ### Which requests reach the window (R349, R505, R506) -/

theorem cxlMem_undecoded {s : State} (h : s.mem.cxlDecoded = false) (hpa : Nat) (data : Option (List Byte)) :
    cxlMem s hpa data = s.mapMem fun m => { m with cxlData := ([], false) } :=
  if_pos (.inl (by simp [h]))

/-- A CXL.mem read within the decoder asks for the whole line that holds its address. -/
theorem cxlMem_read {s : State} {hpa off : Nat} (hdec : s.mem.cxlDecoded = true) (hpa_eq : hpa = s.mem.hdmBase + off)
    (hoff : off < s.mem.cxlGib * 2 ^ 30) : cxlMem s hpa none = cxlRequest s (cxlLocal s (off / 64 * 64)) 64 [] := by
  have hin : ¬((!s.mem.cxlDecoded) = true ∨ hpa < s.mem.hdmBase ∨ hpa ≥ s.mem.hdmBase + s.mem.cxlGib * 2 ^ 30) := by
    simp only [hdec, Bool.not_true, Bool.false_eq_true, false_or]
    omega
  have hdiff : hpa - s.mem.hdmBase = off := by omega
  unfold cxlMem
  dsimp only
  rw [if_neg hin, hdiff]

theorem bar4_beyond {s : State} {off : Nat} (h : off ≥ s.mem.cxlGib * 2 ^ 30) (n : Nat) :
    bar4 s off n none = (s.mapMem fun m => { m with cxlData := (List.replicate n 0, false) }) ∧ ∀ b, bar4 s off n (some b) = s :=
  ⟨if_pos h, fun _ => if_pos h⟩

/-- A BAR4 read that ends within the window asks for its own bytes at the same offset. -/
theorem bar4_read {s : State} {off n : Nat} (hend : off + n ≤ s.mem.cxlGib * 2 ^ 30) (hn : 0 < n) :
    bar4 s off n none = cxlRequest s (cxlLocal s off) n [] := by
  have hlen : min n (s.mem.cxlGib * 2 ^ 30 - off) = n := by omega
  unfold bar4
  dsimp only
  rw [if_neg (by omega), hlen]

/-! ### O16 -/

/-- Settles O16: a row within the window is a request, which its tokens serve or let wait; every other row is one branch of its function. -/
theorem cxlRowsComplete : Obligations.CxlRowsComplete := by
  unfold Obligations.CxlRowsComplete
  refine ⟨?commit, ?undecoded, ?served, ?waits, ?beyondRead, ?beyondWrite, ?bar4Read⟩
  case commit =>
    intro s b hgib
    exact congrArg Host.Outcome.next (if_neg hgib)
  case undecoded =>
    intro s h d hdec
    exact congrArg Host.Outcome.next (cxlMem_undecoded hdec h.toNat d)
  case served =>
    intro s h off hdec hpa hoff hwait htokens
    exact ⟨_, congrArg Host.Outcome.next ((cxlMem_read hdec hpa hoff).trans (cxlRequest_served hwait htokens [])), cxlServe_read s _ _⟩
  case waits =>
    intro s h off hdec hpa hoff htokens
    exact ⟨_, congrArg Host.Outcome.next ((cxlMem_read hdec hpa hoff).trans (cxlRequest_waits htokens [])), rfl⟩
  case beyondRead =>
    intro s off n hoff
    exact congrArg Host.Outcome.next (bar4_beyond hoff n).1
  case beyondWrite =>
    intro s off n b hoff
    exact congrArg Host.Outcome.next ((bar4_beyond hoff n).2 b)
  case bar4Read =>
    intro s off n hend hn hwait htokens
    exact ⟨_, congrArg Host.Outcome.next ((bar4_read hend hn).trans (cxlRequest_served hwait htokens [])), (cxlServe_read s _ _).1⟩

end Sys2Proof.Machine
end

section
/-! PROOF. Swatch moves, the DDR5 channels and the regulators (12_memory_tiers R340 to R364): O15. -/
namespace Sys2Proof.Machine
open Sys2Proof

/-! ### A swatch move within T1 for a live command (R341, R362) -/

/-- A live command's partition owns both ends of a move, both lie in T1, and the move may start. -/
structure MovesWithinT1 (s : State) (src dst n a b : Nat) (c : Cmd) : Prop where
  src_aligned : src % 4096 = 0
  dst_aligned : dst % 4096 = 0
  serves : s.serves 0x0E 0 = true
  get : s.host.cmds.get n = some c
  not_done : c.phase ≠ .done
  src_place : localPlace s src = .t1 a
  dst_place : localPlace s dst = .t1 b
  src_owner : placeOwner s (.t1 a) = some c.part
  dst_owner : placeOwner s (.t1 b) = some c.part
  rate : zeroRate s c.part tT1 = false

/-- The state once both ends of a 4 KiB move within T1 are charged to a partition. -/
def swatchCharged (s : State) (part : Nat) : State := charge (charge s part tT1 4096) part tT1 4096

section
variable {s : State} {src dst n a b : Nat} {c : Cmd} (h : MovesWithinT1 s src dst n a b c)
include h

theorem MovesWithinT1.live : (s.host.cmds.get n).filter (fun c => c.phase != .done) = some c := by
  simp [h.get, h.not_done]

theorem MovesWithinT1.starts :
    ¬(src % 4096 ≠ 0 ∨ dst % 4096 ≠ 0 ∨ (!(List.range 4).any fun u => s.serves 0x0E u) = true) := by
  have hserved : ((List.range 4).any fun u => s.serves 0x0E u) = true := List.any_eq_true.2 ⟨0, by decide, h.serves⟩
  rw [h.src_aligned, h.dst_aligned, hserved]
  decide

theorem MovesWithinT1.owned : ¬(placeOwner s (.t1 a) ≠ some c.part ∨ placeOwner s (.t1 b) ≠ some c.part) := by
  simp [h.src_owner, h.dst_owner]

theorem MovesWithinT1.rated : ¬((some c).isSome = true ∧ (zeroRate s c.part tT1 = true ∨ zeroRate s c.part tT1 = true)) := by
  simp [h.rate]

theorem swatchMove_t1_checked : swatchMove s src dst n true =
    (placeWrite (swatchCharged s c.part) (.t1 b) (placeRead (swatchCharged s c.part) (.t1 a) 4096)).mapMem fun m => { m with
      moves := m.moves.filter fun x => !(x.src == src && x.dst == dst && x.cmd == n) } := by
  unfold swatchMove
  rw [h.live, h.src_place, h.dst_place]
  exact (if_neg h.starts).trans ((if_neg h.owned).trans (if_neg h.rated))

theorem swatchMove_t1_firstMismatch (hmoves : s.mem.moves = []) : swatchMove s src dst n false =
    ((swatchCharged s c.part).mapMem fun m => { m with
      moves := m.moves ++ [{ src := src, dst := dst, cmd := n, part := c.part }] }).event .memEvent 0 0 := by
  unfold swatchMove
  rw [h.live, h.src_place, h.dst_place, hmoves]
  exact (if_neg h.starts).trans ((if_neg h.owned).trans (if_neg h.rated))

end

/-! ### Errors of a DDR5 channel (R359, R360) -/

section
variable {s : State} {ch : Nat}

theorem ddrErr_ro {r : Reg} (hlo : r.ctorIdx ≠ Reg.ddrCErrLo.ctorIdx) (hhi : r.ctorIdx ≠ Reg.ddrCErrHi.ctorIdx) (a : Nat) (ue : Bool) :
    (ddrErr s ch a ue).ro r ch = s.ro r ch := by
  unfold ddrErr
  rw [ro_setRo_other _ (regKey_ne_of_register hhi), ro_setRo_other _ (regKey_ne_of_register hlo)]

@[simp] theorem ddrErr_mem (a : Nat) (ue : Bool) : (ddrErr s ch a ue).mem = s.mem := rfl

theorem softPpr_ro {r : Reg} (h : r.ctorIdx ≠ Reg.ddrCPpr.ctorIdx) (row : Nat) (spare : Bool) : (softPpr s ch row spare).ro r ch = s.ro r ch := by
  cases spare <;> exact (event_ro _ _ _ _ _ _).trans (ro_setRo_other _ (regKey_ne_of_register h))

theorem softPpr_t3 (row : Nat) (spare : Bool) : (softPpr s ch row spare).mem.t3 = s.mem.t3 := by
  cases spare <;> simp [softPpr]

theorem State.HasEvent.softPpr {r : Reg} {u b : Nat} (h : s.HasEvent r u b) (row : Nat) (spare : Bool) :
    (softPpr s ch row spare).HasEvent r u b := by
  cases spare
  · exact State.HasEvent.event (s := s.setRo _ _ _) h _ _ _
  · exact State.HasEvent.event (s := (s.setRo _ _ _).mapMem _) h _ _ _

/-- An error of a channel raises the channel's counter and sets the event; the data stay. -/
theorem ddrErr_counted {r : Reg} (hlo : r.ctorIdx ≠ Reg.ddrCErrLo.ctorIdx) (hhi : r.ctorIdx ≠ Reg.ddrCErrHi.ctorIdx) {b : Nat} (hb : b < 24)
    (a : Nat) (ue : Bool) : (((ddrErr s ch a ue).bump r ch 1).event .ddrEvent 0 b).ro r ch = s.ro r ch + 1 ∧
      (((ddrErr s ch a ue).bump r ch 1).event .ddrEvent 0 b).HasEvent .ddrEvent 0 b ∧
      (((ddrErr s ch a ue).bump r ch 1).event .ddrEvent 0 b).mem.t3 = s.mem.t3 := by
  refine ⟨?_, hasEvent_event _ _ _ hb, by simp⟩
  rw [event_ro, ro_bump_same, ddrErr_ro hlo hhi]
  rfl

/-- A corrected error is counted and shown, and its data stay, whether or not its row is repaired besides. -/
theorem ddrCorrected_counts (a row : Nat) (spare : Bool) : (ddrCorrected s ch a row spare).ro .ddrCCe ch = s.ro .ddrCCe ch + 1 ∧
    (ddrCorrected s ch a row spare).HasEvent .ddrEvent 0 0 ∧ (ddrCorrected s ch a row spare).mem.t3 = s.mem.t3 := by
  obtain ⟨hcount, hshown, hdata⟩ :=
    ddrErr_counted (s := s) (ch := ch) (r := .ddrCCe) (b := 0) (by decide) (by decide) (by decide) a false
  unfold ddrCorrected
  dsimp only
  split
  · exact ⟨(softPpr_ro (by decide) row spare).trans hcount, State.HasEvent.softPpr (s := State.mapMem _ _) hshown row spare,
      (softPpr_t3 row spare).trans hdata⟩
  · exact ⟨hcount, hshown, hdata⟩

/-- An uncorrectable error is counted and shown, and its line is poisoned. -/
theorem ddrUncorrectable_poisons (hch : ch < 16) (a : Nat) : (ddrUncorrectable s ch a).ro .ddrCUe ch = s.ro .ddrCUe ch + 1 ∧
    (ddrUncorrectable s ch a).mem.t3poison.contains (a / 64) = true ∧ (ddrUncorrectable s ch a).HasEvent .ddrEvent 0 1 := by
  obtain ⟨hcount, hshown, -⟩ :=
    ddrErr_counted (s := s) (ch := ch) (r := .ddrCUe) (b := 1) (by decide) (by decide) (by decide) a true
  unfold ddrUncorrectable
  dsimp only
  refine ⟨?_, ?_, ?_⟩
  · exact (faultRecord_ro (by decide) (by omega) _ _ _ _ _ _ _).trans hcount
  · rw [faultRecord_mem, State.mapMem_mem]
    exact addSet_contains _ _
  · exact State.HasEvent.faultRecord (s := State.mapMem _ _) hshown _ _ _ _ _ _

end

/-! ### The patrol scrubber (R361) -/

/-- What the line's own state brings about when the patrol scrubber reads it. -/
def patrolFinds (s : State) (ch a : Nat) : LineRead → State
  | .clean => s
  | .corrected row spare => ddrCorrected s ch a row spare
  | .uncorrectable => ddrUncorrectable s ch a

/-- Before the last line of a channel, the scrubber goes on to the next. -/
theorem patrolRead_goesOn {s : State} {ch l : Nat} (hch : ch < 16) (hl : l + 1 < channelLines s) (hfence : s.fencedUnit 0x09 ch = false)
    (x : LineRead) : patrolRead s ch l x = (patrolFinds s ch (ddrLocal ch l) x).mapMem fun m => { m with patrol := m.patrol.put ch (l + 1) } := by
  have hreads : ¬(ch ≥ 16 ∨ l ≥ channelLines s ∨ s.fencedUnit 0x09 ch = true) := by
    simp only [hfence, Bool.false_eq_true, or_false]
    omega
  unfold patrolRead
  dsimp only
  rw [if_neg hreads, if_pos hl]
  cases x <;> rfl

/-! ### The refresh rate of the channels (R357) -/

/-- The measurement of one channel's oscillators. -/
def dqsChannel (temps : List Nat) (s : State) (ch : Nat) : State :=
  (s.setRo .ddrCState ch (BitVec.ofNat 32 (setBits (s.ro .ddrCState ch).toNat 2 1 (b2n (decide (temps.getD ch 0 > 0)))))).eventIf
    (decide (temps.getD ch 0 > 0) && !channelHot s ch) .ddrEvent 0 6

theorem dqsTick_eq {s : State} (h : s.mem.ddrGib ≠ 0) (temps : List Nat) : dqsTick s temps = (List.range 16).foldl (dqsChannel temps) s :=
  if_neg h

theorem bit_setBits_hot (v : Nat) (hot : Bool) : bit (BitVec.ofNat 32 (setBits v 2 1 (b2n hot))).toNat 2 = hot := by
  cases hot <;> simp [bit, setBits, bits, b2n] <;> omega

theorem channelHot_dqsChannel_same (temps : List Nat) (s : State) (ch : Nat) :
    channelHot (dqsChannel temps s ch) ch = decide (temps.getD ch 0 > 0) := by
  rw [channelHot, dqsChannel, eventIf_ro, ro_setRo_same, bit_setBits_hot]

theorem channelHot_dqsChannel_other (temps : List Nat) (s : State) {ch x : Nat} (h : ch ≠ x) :
    channelHot (dqsChannel temps s x) ch = channelHot s ch := by
  rw [channelHot, dqsChannel, eventIf_ro, ro_setRo_other _ (by unfold regKey; omega), channelHot]

/-- Each channel measured shows its own rate, and every other shows what it did. -/
theorem channelHot_foldl_dqsChannel (temps l : List Nat) (s : State) (ch : Nat) :
    channelHot (l.foldl (dqsChannel temps) s) ch = if ch ∈ l then decide (temps.getD ch 0 > 0) else channelHot s ch := by
  induction l generalizing s with
  | nil => rfl
  | cons x l ih =>
    rw [List.foldl_cons, ih]
    by_cases hx : ch = x
    · subst hx
      simp [channelHot_dqsChannel_same]
    · simp [channelHot_dqsChannel_other temps s hx, hx]

/-! ### The refill of the regulators (R364) -/

/-- The buckets after a refill: each gains its rate, up to its depth, or up to its rate where the depth is zero. -/
def refillBuckets (s : State) (m : MemState) : Smap Int :=
  m.rate.foldl (fun b e => Smap.store 0 b e.1 (min
    ((if (cfgRegulator s.img.cfg (e.1 / 6) (e.1 % 6)).2.2 = 0 then e.2 else (cfgRegulator s.img.cfg (e.1 / 6) (e.1 % 6)).2.2 : Nat) : Int)
    (Smap.getD b e.1 0 + (e.2 : Nat)))) m.bucket

/-- With no transfer and no request waiting, a refill changes the buckets and nothing else. -/
theorem refill_idle {s : State} (hwaiting : s.mem.waiting = []) (hcxl : s.mem.cxlWait = []) :
    refill s = s.mapMem fun m => { m with bucket := refillBuckets s m } := by
  unfold refill
  simp only [hwaiting, List.foldl_nil, State.mapMem_mem, hcxl, List.length_nil, cxlDrain]
  unfold State.mapMem
  dsimp only
  rw [hwaiting]
  rfl

/-! ### O15 -/

/-- Settles O15: each row by the equation of the branch that its hypotheses choose; the tick of the oscillators by what one channel's
measurement leaves of HOT of each channel. -/
theorem memoryRowsComplete : Obligations.MemoryRowsComplete := by
  unfold Obligations.MemoryRowsComplete
  refine ⟨?moved, ?again, ?clean, ?corrected, ?uncorrectable, ?dqs, ?refill⟩
  case moved =>
    rintro s src dst n a b c u hsrc hdst hserves hget hphase ha hb hownA hownB hrate rfl
    exact congrArg Host.Outcome.next (swatchMove_t1_checked ⟨hsrc, hdst, hserves, hget, hphase, ha, hb, hownA, hownB, hrate⟩)
  case again =>
    intro s src dst n a b c hsrc hdst hserves hget hphase ha hb hownA hownB hrate hmoves
    refine ⟨_, congrArg Host.Outcome.next
      (swatchMove_t1_firstMismatch ⟨hsrc, hdst, hserves, hget, hphase, ha, hb, hownA, hownB, hrate⟩ hmoves), ?_, ?_, ?_⟩
    · simp [swatchCharged, hmoves]
    · simp [swatchCharged]
    · exact hasEvent_event _ _ _ (by decide)
  case clean =>
    intro s ch l hch hl hfence
    exact congrArg Host.Outcome.next (patrolRead_goesOn hch hl hfence .clean)
  case corrected =>
    intro s ch l row sp hch hl hfence
    exact ⟨_, congrArg Host.Outcome.next (patrolRead_goesOn hch hl hfence (.corrected row sp)), ddrCorrected_counts _ row sp⟩
  case uncorrectable =>
    intro s ch l hch hl hfence
    exact ⟨_, congrArg Host.Outcome.next (patrolRead_goesOn hch hl hfence .uncorrectable), ddrUncorrectable_poisons hch _⟩
  case dqs =>
    intro s temps hgib
    refine ⟨_, congrArg Host.Outcome.next (dqsTick_eq hgib temps), fun ch hch => ?_⟩
    rw [channelHot_foldl_dqsChannel, if_pos (List.mem_range.2 hch)]
  case refill =>
    intro s hwaiting hcxl
    exact congrArg Host.Outcome.next (refill_idle hwaiting hcxl)

end Sys2Proof.Machine
end

section
/-! PROOF. The ZONE commands (13_felt_flash R391 to R395, 18_command_set R572): O12. -/
namespace Sys2Proof.Machine
open Sys2Proof

/-! ### Which rows act, and what forgetting a partition's zones leaves -/

theorem onTiers_of_rates {s : State} {part : Nat} {tiers : List Nat} (h : ∀ t ∈ tiers, zeroRate s part t = false) (n : Nat)
    (f : State → State) : onTiers s n part tiers f = f s := by
  rw [onTiers, if_neg]
  simpa using h

theorem onZone_of {s : State} {n sub : Nat} {c : Cmd} (h : admittedAs s n c 0x88) (hsub : bits (eArg0 c.entry) 0 3 = sub)
    (f : Cmd → State) : onZone s n sub f = zonesRelease (f c) c.part := by
  rw [onZone, onAdmitted_of h, if_pos hsub]

theorem hostMode_of_img {s t : State} (h : t.img = s.img) (p i : Nat) : hostMode t p i = hostMode s p i := by
  rw [hostMode, h, hostMode]

theorem zonesRelease_hostAssisted {s : State} {p : Nat} (h : hostMode s p 0 = true) : zonesRelease s p = s := if_pos (.inl h)

/-- With no ZONE command left, a partition that Felt translates has no zone left. -/
theorem zonesRelease_forgets {s : State} {p : Nat} (hmode : hostMode s p 0 = false) (hbusy : zoneBusy s p = false) {e : Nat × Zone}
    (he : e ∈ (zonesRelease s p).felt.zones) : e.1 / 2 ^ 24 ≠ p := by
  have hzones : (zonesRelease s p).felt.zones = s.felt.zones.filter fun e => e.1 / 2 ^ 24 != p := by
    rw [zonesRelease, if_neg (by simp [hmode, hbusy]), State.mapFelt_felt]
  rw [hzones] at he
  simpa using (List.mem_filter.1 he).2

/-! ### The sub-operations on a zone that the command names -/

section
variable {s : State} {n z : Nat} {c : Cmd} (hz : cmdZone s c = some z)
include hz

theorem zoneOpen_vector {sh : Shard} (hempty : (s.zone c.part z).st = .empty) (hrole : bits (eArg0 c.entry) 3 2 = 1)
    (hnone : openZone s c.part false (eIndex c.entry) = none) (hsh : shardOf s c.part (eIndex c.entry) = some sh)
    (hphase : sh.phase ≠ .retiring) :
    zoneOpen s n c = endWith ((s.setZone c.part z { Zone.empty with st := .opened, ckpt := false, index := eIndex c.entry }).mapFelt
      fun f => { f with zoneWait := f.zoneWait.del c.part }) n stOk := by
  simp [zoneOpen, hz, hempty, hrole, hnone, hsh, hphase]

theorem zoneOpen_notEmpty (hst : (s.zone c.part z).st ≠ .empty) : zoneOpen s n c = endWith s n stInvalid := by
  simp [zoneOpen, hz, hst]

theorem zoneFinish_opened (hst : (s.zone c.part z).st = .opened) :
    zoneFinish s n c = endWith (s.setZone c.part z { s.zone c.part z with st := .full }) n stOk := by
  simp [zoneFinish, hz, hst]

theorem zoneReset_unmapped (hmapped : (s.zone c.part z).mapped = []) (hst : (s.zone c.part z).st ≠ .offline)
    (hcmd : (s.zone c.part z).resetCmd = none) :
    zoneReset s n c = (markRunning s n).setZone c.part z { s.zone c.part z with resetCmd := some n } := by
  simp [zoneReset, hz, hmapped, hst, hcmd]

/-- With one entry, the command's status is the entry's, and its result is the entry's element. -/
theorem zoneAppend_oneEntry {r : State × Nat} (hdata : eDataLen c.entry = 8) (hroom : eResultLen c.entry ≥ 8)
    (hflags : bits (eArg0 c.entry) 3 2 = 0) (hr : appendEntry s c.part z (field (inputData s c.entry) 0 8) = r) :
    zoneAppend s n c = finish (putResult r.1 n 0 (natLe 8 (field (inputData s c.entry) 0 8 % 2 ^ 40 + r.2 * 2 ^ 40))) n
      (if r.2 = stOk then stOk else stInvalid) (if r.2 = stOk then 1 else 0) 0 := by
  have hone : List.range (eDataLen c.entry / 8) = [0] := by rw [hdata]; rfl
  have hok : ¬(eDataLen c.entry % 8 ≠ 0 ∨ eDataLen c.entry / 8 = 0 ∨ eResultLen c.entry < 8 * (eDataLen c.entry / 8) ∨
      bits (eArg0 c.entry) 3 2 ≠ 0) := by
    rw [hdata, hflags]
    omega
  subst hr
  simp only [zoneAppend, hz]
  rw [if_neg hok, hone]
  by_cases hst : (appendEntry s c.part z (field (inputData s c.entry) 0 8)).2 = stOk
  · simp [hst]
  · simp [hst]

end

theorem zoneErase_unmapped {s : State} {p z n : Nat} (hcmd : (s.zone p z).resetCmd = some n) (hmapped : (s.zone p z).mapped = []) :
    zoneErase s p z = zonesRelease (endWith (((zoneBlocks s p z).foldl eraseBlock s).setZone p z Zone.empty) n stOk) p := by
  simp [zoneErase, hcmd, hmapped]

theorem zoneReport_hostAssisted {s : State} {c : Cmd} (hmode : c.mode 0 = true) (n : Nat) {k : Nat}
    (hk : k = min (eResultLen c.entry / 16) (zoneTotal s c.part - bits (eArg1 c.entry) 0 24)) :
    zoneReport s n c = finish (putResult s n 0 ((List.range k).flatMap fun i =>
      zoneRecord (bits (eArg1 c.entry) 0 24 + i) (s.zone c.part (bits (eArg1 c.entry) 0 24 + i)))) n stOk k 0 := by
  subst hk
  simp [zoneReport, hmode]

/-! ### O12 -/

/-- Settles O12: each row is its sub-operation on the zone that the command names, after which the zones of a partition that Felt
translates are forgotten. -/
theorem zoneCommandsComplete : Obligations.ZoneCommandsComplete := by
  unfold Obligations.ZoneCommandsComplete
  refine ⟨?opens, ?notEmpty, ?finishes, ?resets, ?erases, ?kept, ?forgotten, ?reports, ?appends⟩
  case opens =>
    intro s n z c hadm hsub hz hempty hrole hnone hsome hmode hphase
    obtain ⟨sh, hsh⟩ := Option.isSome_iff_exists.1 hsome
    refine congrArg Host.Outcome.next ((onZone_of hadm hsub _).trans ?_)
    rw [zoneOpen_vector hz hempty hrole hnone hsh (hphase sh hsh)]
    exact zonesRelease_hostAssisted ((hostMode_of_img (by simp [State.setZone]) _ _).trans hmode)
  case notEmpty =>
    intro s n z c hadm hsub hz hst
    exact congrArg Host.Outcome.next ((onZone_of hadm hsub _).trans (by rw [zoneOpen_notEmpty hz hst]))
  case finishes =>
    intro s n z c hadm hsub hz hst
    exact congrArg Host.Outcome.next ((onZone_of hadm hsub _).trans (by rw [zoneFinish_opened hz hst]))
  case resets =>
    intro s n z c hadm hsub hz hmapped hst hcmd
    exact congrArg Host.Outcome.next ((onZone_of hadm hsub _).trans (by rw [zoneReset_unmapped hz hmapped hst hcmd]))
  case erases =>
    intro s p z n hcmd hmapped
    exact congrArg Host.Outcome.next (zoneErase_unmapped hcmd hmapped)
  case kept =>
    intro s p hmode
    exact zonesRelease_hostAssisted hmode
  case forgotten =>
    intro s p e hmode hbusy he
    exact zonesRelease_forgets hmode hbusy he
  case reports =>
    intro s n k c hadm hsub hT4 hmode hk
    refine congrArg Host.Outcome.next ((onZone_of hadm hsub _).trans ?_)
    rw [onTiers_of_rates (by simpa using hT4), zoneReport_hostAssisted hmode n hk]
  case appends =>
    rintro s n z l c r hadm hsub hT4 hT5 hz hdata hroom hflags rfl hr
    refine congrArg Host.Outcome.next ((onZone_of hadm hsub _).trans ?_)
    rw [onTiers_of_rates (by simpa using ⟨hT4, hT5⟩), zoneAppend_oneEntry hz hdata hroom hflags hr]

end Sys2Proof.Machine
end

section
/-! PROOF. Reads, programs and erases that fail, and dies that are fenced (13_felt_flash R378, R398 to R400, R594): O14. -/
namespace Sys2Proof.Machine
open Sys2Proof

/-! ### The read of a codeword (R378) -/

section
variable {s : State} {l : Nat} {w : Codeword} (hspace : laddrSpace l ≠ 1) (hmap : s.felt.map.get l = some w)
include hspace hmap

theorem codewordRead_hard (hdie : s.fencedUnit 0x0B (dieOf s w.block) = false)
    (hchannel : s.fencedUnit 0x0A (dieChannel (dieOf s w.block)) = false) (k : Nat) :
    codewordRead s l (.hard k) = readNote s l w.block k := by
  simp [codewordRead, hspace, hmap, hdie, hchannel]

/-- The event of a failed read outlives the loss of the codeword and the record of the fault. -/
theorem codewordRead_failed_hasEvent : (codewordRead s l .failed).HasEvent .fltEvent 0 2 := by
  unfold codewordRead
  rw [if_neg hspace, hmap]
  refine State.HasEvent.faultRecord (State.HasEvent.of_regs (t := codewordLost _ l) ?_ rfl) _ _ _ _ _ _
  exact State.HasEvent.ite (State.HasEvent.event (hasEvent_event _ _ _ (by decide)) _ _ _) (hasEvent_event _ _ _ (by decide))

end

/-! ### Programs and erases that fail, and the fence of a die (R398 to R400) -/

section
variable {s : State} {b : Nat} (hretired : (s.block b).retired = false) (hused : (s.die (dieOf s b)).used = true)
include hretired hused

theorem eraseFail_unmapped (hmapped : mappedIn s b = []) : eraseFail s b = retireBlock (s.bumpSat .fltDEfail (dieOf s b) 1) b := by
  simp [eraseFail, hretired, hused, hmapped]

theorem programFail_retires {u : State} (hu : u = rewritePages (s.bumpSat .fltDPfail (dieOf s b) 1) (dieOf s b)) :
    programFail s b = retireBlock ((mappedIn u b).foldl (fun t l => copyCodeword t l (freeBlock u (u.block b).fast).1)
      (freeBlock u (u.block b).fast).2) b := by
  subst hu
  simp [programFail, hretired, hused]

end

theorem dieFence_used {s : State} {d : Nat} (hd : d < 1024) (hused : (s.die d).used = true) (hfence : s.fencedUnit 0x0B d = false) :
    dieFence s d = dieLost ((unitFault s 0x0B d 0x08 0 true).event .fltEvent 0 4) d := by
  simp [dieFence, Nat.not_le.2 hd, hused, hfence]

/-! ### O14 -/

/-- Settles O14: each row by the equation of the branch that its hypotheses choose; the event of a failed read by what outlives it. -/
theorem flashFailureRowsComplete : Obligations.FlashFailureRowsComplete := by
  unfold Obligations.FlashFailureRowsComplete
  refine ⟨?hard, ?failed, ?erase, ?program, ?fence⟩
  case hard =>
    intro s l k w hspace hmap hdie hchannel
    exact congrArg Host.Outcome.next (codewordRead_hard hspace hmap hdie hchannel k)
  case failed =>
    intro s l w hspace hmap
    exact ⟨_, rfl, codewordRead_failed_hasEvent hspace hmap⟩
  case erase =>
    intro s b hretired hused hmapped
    exact congrArg Host.Outcome.next (eraseFail_unmapped hretired hused hmapped)
  case program =>
    intro s b u hretired hused hu
    exact congrArg Host.Outcome.next (programFail_retires hretired hused hu)
  case fence =>
    intro s d hd hused hfence
    exact congrArg Host.Outcome.next (dieFence_used hd hused hfence)

end Sys2Proof.Machine
end

section
/-! PROOF. What writing, copying and moving codewords leave of the map and of the blocks (13_felt_flash R375, R376, R389). -/
namespace Sys2Proof
variable {α : Type}

theorem Smap.mem_of_get {m : Smap α} {i : Nat} {x : α} (h : m.get i = some x) : (i, x) ∈ m := by
  induction m with
  | nil => cases h
  | cons e t ih =>
    obtain ⟨k, v⟩ := e
    by_cases hik : i = k
    · subst hik
      obtain rfl : v = x := by simpa [Smap.get] using h
      exact List.mem_cons_self
    · by_cases hlt : i < k
      · simp [Smap.get, hik, hlt] at h
      · exact List.mem_cons_of_mem _ (ih (by simpa [Smap.get, hik, hlt] using h))

end Sys2Proof

namespace Sys2Proof.Machine
open Sys2Proof

/-! ### Blocks after an update -/

@[simp] theorem block_updBlock_same (s : State) (b : Nat) (f : Block → Block) : (s.updBlock b f).block b = f (s.block b) :=
  Smap.getD_put_same _ _ _ _

theorem block_updBlock_other (s : State) {b x : Nat} (h : x ≠ b) (f : Block → Block) : (s.updBlock b f).block x = s.block x :=
  Smap.getD_put_ne _ _ _ _ _ h

theorem block_of_blocks {s t : State} (h : t.felt.blocks = s.felt.blocks) (x : Nat) : t.block x = s.block x := by
  rw [State.block, h, State.block]

theorem block_mapFelt {s : State} {f : FeltState → FeltState} (h : (f s.felt).blocks = s.felt.blocks) (x : Nat) :
    (s.mapFelt f).block x = s.block x :=
  block_of_blocks h x

/-- An update that leaves the count of erases alone leaves that of every block. -/
theorem pe_updBlock (s : State) (b : Nat) {f : Block → Block} (hf : ∀ y, (f y).pe = y.pe) (x : Nat) :
    ((s.updBlock b f).block x).pe = (s.block x).pe := by
  by_cases hx : x = b
  · subst hx
    rw [block_updBlock_same, hf]
  · rw [block_updBlock_other s hx]

@[simp] theorem bumpSat_felt (s : State) (r : Reg) (u n : Nat) : (s.bumpSat r u n).felt = s.felt := rfl

theorem mem_mappedIn {s : State} {l : Nat} {w : Codeword} (h : s.felt.map.get l = some w) : l ∈ mappedIn s w.block :=
  List.mem_map.2 ⟨(l, w), List.mem_filter.2 ⟨Smap.mem_of_get h, by simp⟩, rfl⟩

/-! ### A codeword written and copied -/

@[simp] theorem stripeParity_map (s : State) (g pos : Nat) : (stripeParity s g pos).felt.map = s.felt.map := by
  unfold stripeParity
  dsimp only
  (repeat' split) <;> rfl

theorem stripeParity_pe (s : State) (g pos x : Nat) : ((stripeParity s g pos).block x).pe = (s.block x).pe := by
  unfold stripeParity
  dsimp only
  split
  · split
    · rfl
    · rw [block_mapFelt rfl, pe_updBlock]
      exact fun _ => rfl
  · rfl

/-- A write puts one codeword into the map, with the kind and the key that it was given. -/
theorem writeCodeword_map (s : State) (l kind gen b : Nat) : ∃ w : Codeword, w.block = b ∧ w.kind = kind ∧ w.keyGen = gen ∧
    (writeCodeword s l kind gen b).felt.map = s.felt.map.put l w := by
  refine ⟨{ block := b, wseq := s.felt.wseq, keyGen := gen, kind := kind, pos := if (s.block b).erased then 0 else (s.block b).next },
    rfl, rfl, rfl, ?_⟩
  unfold writeCodeword
  dsimp only
  split
  · exact stripeParity_map _ _ _
  · exact stripeParity_map _ _ _

theorem writeCodeword_pe (s : State) (l kind gen b x : Nat) : ((writeCodeword s l kind gen b).block x).pe = (s.block x).pe := by
  have hwritten : ∀ (t : State) (f : Block → Block) (g pos : Nat), t.felt.blocks = s.felt.blocks → (∀ y, (f y).pe = y.pe) →
      ((stripeParity (t.updBlock b f) g pos).block x).pe = (s.block x).pe := fun t f g pos ht hf => by
    rw [stripeParity_pe, pe_updBlock t b hf, block_of_blocks ht]
  unfold writeCodeword
  dsimp only
  split
  · exact hwritten _ _ _ _ rfl fun _ => rfl
  · exact hwritten _ _ _ _ rfl fun _ => rfl

theorem copyCodeword_pe (s : State) (l b x : Nat) : ((copyCodeword s l b).block x).pe = (s.block x).pe := by
  unfold copyCodeword
  split
  · rfl
  · exact writeCodeword_pe _ _ _ _ _ _

/-- Codeword `l` stands in block `b` with the kind and the key of `w`. -/
def StandsIn (m : Smap Codeword) (l b : Nat) (w : Codeword) : Prop :=
  ∃ w', m.get l = some w' ∧ w'.block = b ∧ w'.kind = w.kind ∧ w'.keyGen = w.keyGen

theorem copyCodeword_standsIn {s : State} {l : Nat} {w : Codeword} (h : s.felt.map.get l = some w) (b : Nat) :
    StandsIn (copyCodeword s l b).felt.map l b w := by
  obtain ⟨w', hblock, hkind, hgen, hmap⟩ := writeCodeword_map s l w.kind w.keyGen b
  refine ⟨w', ?_, hblock, hkind, hgen⟩
  rw [copyCodeword, h, hmap, Smap.get_put_same]

theorem copyCodeword_map_other (s : State) {l x : Nat} (h : l ≠ x) (b : Nat) :
    (copyCodeword s x b).felt.map.get l = s.felt.map.get l := by
  unfold copyCodeword
  split
  · rfl
  · next w _ =>
    obtain ⟨w', -, -, -, hmap⟩ := writeCodeword_map s x w.kind w.keyGen b
    rw [hmap, Smap.get_put_ne _ _ _ _ h]

/-- Once codewords are copied to a block, each of them stands there, and so does each that stood there before. -/
theorem foldl_copyCodeword_standsIn (b : Nat) {ls : List Nat} {s : State} {l : Nat} {w : Codeword} (h : s.felt.map.get l = some w)
    (hl : l ∈ ls ∨ w.block = b) : StandsIn (ls.foldl (fun t x => copyCodeword t x b) s).felt.map l b w := by
  induction ls generalizing s w with
  | nil => exact ⟨w, h, hl.resolve_left List.not_mem_nil, rfl, rfl⟩
  | cons x ls ih =>
    by_cases hx : l = x
    · subst hx
      obtain ⟨w₁, hget, hblock, hkind, hgen⟩ := copyCodeword_standsIn h b
      obtain ⟨w₂, hget₂, hblock₂, hkind₂, hgen₂⟩ := ih hget (.inr hblock)
      exact ⟨w₂, hget₂, hblock₂, hkind₂.trans hkind, hgen₂.trans hgen⟩
    · refine ih ((copyCodeword_map_other s hx b).trans h) (hl.imp_left fun hmem => ?_)
      exact (List.mem_cons.1 hmem).resolve_left hx

/-! ### A block moved (R389) -/

@[simp] theorem eraseBlock_map (s : State) (b : Nat) : (eraseBlock s b).felt.map = s.felt.map := rfl

theorem eraseBlock_block (s : State) (b : Nat) : (eraseBlock s b).block b =
    { s.block b with erased := true, pe := (s.block b).pe + 1, reads := 0, refresh := false, next := 0, group := 0 } :=
  (block_mapFelt rfl b).trans (block_updBlock_same s b _)

theorem moveBlock_blockMoved (s : State) (b dest : Nat) (fast : Bool) : blockMoved s (moveBlock s b dest fast) b dest := by
  unfold moveBlock
  dsimp only
  refine ⟨fun l w hget hw => ?_, ?_, ?_⟩
  · subst hw
    rw [eraseBlock_map]
    exact foldl_copyCodeword_standsIn dest (s := s.updBlock dest _) hget (.inl (mem_mappedIn hget))
  · rw [eraseBlock_block]
  · rw [eraseBlock_block]
    dsimp only
    rw [foldl_keeps (fun t : State => (t.block b).pe) (fun t l => copyCodeword_pe t l dest b), pe_updBlock s dest]
    exact fun _ => rfl

end Sys2Proof.Machine
end

section
/-! PROOF. Felt's own work (13_felt_flash R371, R389, R390, R397, R402, R403): O13. As stated it fails, in its clause on the patrol, which
asks that the corrected bits exceed REFRESH_BITS as in force. The patrol compares them with the copy that the block's channel runs, and
that is an older one where the channel has missed a strobe (R78). Against that copy the clause holds (`flashPatrol_marks`), and the
theorems below prove the other clauses as stated. -/
namespace Sys2Proof.Machine
open Sys2Proof

/-! ### The counterexample: a channel that has missed a strobe -/

/-- Block 0 is programmed. REFRESH_BITS is 96 in force, and channel 0, which has missed a strobe, still runs 400. -/
def laggingChannel : State :=
  (State.reset.mapFelt fun f => { f with blocks := [(0, { Block.fresh with erased := false })] }).mapRegs fun r => { r with
    lagging := [(2 ^ 40 * 124 + regKey .fltCfg2 0, regCopy 400)] }

theorem refreshBits_of_laggingChannel : laggingChannel.fld .fltCfg2 0 0 9 = 96 ∧ refreshBits laggingChannel 0 = 400 := by decide +kernel

theorem flashPatrol_laggingChannel : ((flashPatrol laggingChannel 0 97).block 0).refresh = false := by decide +kernel

/-- Refutes O13: in `laggingChannel` a patrol that corrects 97 bits of block 0 does not mark it, for its channel runs 400. -/
theorem not_flashMaintenanceCompletes : ¬ Obligations.FlashMaintenanceCompletes := by
  unfold Obligations.FlashMaintenanceCompletes
  rintro ⟨-, -, -, -, hpatrol, -⟩
  obtain ⟨hforce, -⟩ := refreshBits_of_laggingChannel
  obtain ⟨t, ht, -, hmarked⟩ := hpatrol laggingChannel 0 97 (by decide +kernel) (by decide +kernel) (by rw [hforce]; decide)
  obtain rfl := Host.Outcome.next.inj ht
  rw [flashPatrol_laggingChannel] at hmarked
  cases hmarked

/-! ### Blocks moved (R389, R381) -/

section
variable {s : State} {b d : Nat} (hdest : destOk s b d = true)
include hdest

theorem garbageCollect_moves (hvictim : gcVictim s b = true) (hlow : erasedBlocks s * 50 < goodBlocks s) :
    blockMoved s (garbageCollect s b d) b d := by
  rw [garbageCollect, if_neg (by simp [hvictim, hdest, hlow])]
  exact moveBlock_blockMoved s b d false

theorem wearLevel_moves (hfull : denseFull s b = true)
    (hworn : 10 * ((densePe s).1 - (densePe s).2 * (s.block b).pe) > (densePe s).2 * mdPeRated s.felt.desc) :
    blockMoved s (wearLevel s b d) b d := by
  rw [wearLevel, if_neg (by simp [hfull, hdest, hworn])]
  exact moveBlock_blockMoved s b d false

variable (herased : (s.block b).erased = false) (hretired : (s.block b).retired = false)
include herased hretired

theorem blockRefresh_moves (hrefresh : (s.block b).refresh = true) : blockMoved s (blockRefresh s b d) b d := by
  rw [blockRefresh, if_neg (by simp [hrefresh, herased, hretired, hdest])]
  exact moveBlock_blockMoved s b d _

theorem fastFold_moves (hfast : (s.block b).fast = true) : blockMoved s (fastFold s b d) b d := by
  rw [fastFold, if_neg (by simp [hfast, herased, hretired, hdest])]
  exact moveBlock_blockMoved s b d false

end

/-! ### The patrol (R397) -/

theorem flashPatrol_marks {s : State} {b k : Nat} (herased : (s.block b).erased = false) (hretired : (s.block b).retired = false)
    (hk : k > refreshBits s b) : (flashPatrol s b k).felt.patrol = b + 1 ∧ ((flashPatrol s b k).block b).refresh = true := by
  have hbits : k > refreshBits (s.bumpSat .fltDCorr (dieOf s b) k) b := hk
  have hmark : flashPatrol s b k = (((s.bumpSat .fltDCorr (dieOf s b) k).updBlock b fun x => { x with refresh := true }).mapFelt
      fun f => { f with patrol := b + 1 }) := by
    rw [flashPatrol, if_neg (by simp [herased, hretired])]
    dsimp only
    rw [if_pos hbits]
  rw [hmark]
  exact ⟨rfl, by rw [block_mapFelt rfl, block_updBlock_same]⟩

/-! ### The map, the temperatures, the health record and training (R371, R390, R402, R403) -/

theorem mapCheckpoint_ready {s : State} (h : s.felt.ready = true) :
    mapCheckpoint s = s.mapFelt fun f => { f with mapCkpt := f.map, sinceCkpt := [] } := if_pos h

theorem mapRebuild_media {s : State} (hstage : s.power.stage = .media) (hready : s.felt.ready = false) :
    mapRebuild s = s.mapFelt fun f => { f with map := f.sinceCkpt.foldl mapTake f.mapCkpt, ready := true } :=
  if_neg (by simp [hstage, hready])

theorem die_of_dies {s t : State} (h : t.felt.dies = s.felt.dies) (d : Nat) : t.die d = s.die d := by
  rw [State.die, h, State.die]

theorem dieTemp_records {s : State} {d : Nat} {t : Int} (hused : (s.die d).used = true) :
    ((dieTemp s d t).die d).temp = t ∧ ((dieTemp s d t).die d).maxTemp = max (s.die d).maxTemp t ∧
      (t ≥ (mdTempMax s.felt.desc : Nat) → ((dieTemp s d t).die d).hot = true ∧ (dieTemp s d t).HasEvent .fltEvent 0 7) := by
  have hused' : ¬(!(s.die d).used) = true := by simp [hused]
  unfold dieTemp
  rw [if_neg hused']
  dsimp only
  rw [die_of_dies (s := State.mapFelt _ _) (by rw [eventIf_felt, bumpSat_felt])]
  simp only [State.die, State.mapFelt_felt, Smap.getD_put_same, true_and]
  intro ht
  simp only [ht, decide_true, Bool.true_or, true_and]
  exact hasEvent_event _ _ _ (by decide)

theorem healthWrite_ready {s : State} (h : s.felt.ready = true) : healthWrite s = s.mapFelt fun f => { f with
    health := s.regs.ro.filter fun e => healthRegs.any fun r => r.ctorIdx == e.1 / 262144
    healthTemps := f.dies.map fun d => (d.1, (d.2.maxTemp, d.2.maxAt)) } := if_neg (by simp [h])

@[simp] theorem mediaFound_trained (s : State) : (mediaFound s).felt.trained = s.felt.trained := by
  unfold mediaFound
  dsimp only
  split <;> simp [extendMeas]

/-- An attempt that succeeds leaves its rate, also where it was the last channel's and the media is found. -/
theorem nandTraining_ok {s : State} {ch r : Nat} (hstage : s.power.stage = .memory) (hch : ch < 32)
    (htrained : s.felt.trained.get ch = none) (hdead : ch ∉ s.felt.dead) (hrate : trainingRate s ch = some r) :
    (nandTraining s ch true []).felt.trained = s.felt.trained.put ch r := by
  unfold nandTraining
  rw [if_neg (by simp [hstage, Nat.not_le.2 hch, htrained, hdead])]
  dsimp only [List.foldl_nil, List.any_nil, State.eventIf]
  rw [show (s.mapFelt fun f => { f with ids := f.ids }) = s from rfl, if_neg Bool.false_ne_true, hrate]
  dsimp only
  split
  · exact mediaFound_trained _
  · rfl

end Sys2Proof.Machine
end

section
/-! PROOF. Ports (14_twill_fabric R404 to R431): what a change of one port leaves of the others, what the flits that a port sends leave of
its lanes, and what the router can do with a packet. -/
namespace Sys2Proof.Machine
open Sys2Proof

/-! ### One port of many -/

section
variable (s : State) (i : Nat)

@[simp] theorem updPort_port_same (f : Port → Port) : (s.updPort i f).port i = f (s.port i) := Smap.getD_put_same _ _ _ _

theorem updPort_port_ne {j : Nat} (f : Port → Port) (h : j ≠ i) : (s.updPort i f).port j = s.port j := Smap.getD_put_ne _ _ _ _ _ h

@[simp] theorem bump_port (r : Reg) (u n : Nat) : (s.bump r u n).port i = s.port i := rfl

@[simp] theorem deliver_port (p : Packet) : (deliver s p).port i = s.port i := rfl

theorem port_of_twill {s t : State} (h : t.twill = s.twill) : t.port i = s.port i := by rw [State.port, h, State.port]

@[simp] theorem event_port (r : Reg) (u b : Nat) : (s.event r u b).port i = s.port i := port_of_twill i (event_twill s r u b)

@[simp] theorem eventIf_port (c : Bool) (r : Reg) (u b : Nat) : (s.eventIf c r u b).port i = s.port i :=
  port_of_twill i (eventIf_twill s c r u b)

end

/-! ### Flits sent leave the lanes alone (R413, R414) -/

/-- The receive lanes, the swap that the receiver has asked for and the failed lanes of two ports are the same. -/
structure Port.SameLanes (p q : Port) : Prop where
  rx : q.rx = p.rx
  swapRx : q.swapRx = p.swapRx
  failed : q.failed = p.failed

theorem Port.SameLanes.trans {p q r : Port} (h : p.SameLanes q) (g : q.SameLanes r) : p.SameLanes r :=
  ⟨g.rx.trans h.rx, g.swapRx.trans h.swapRx, g.failed.trans h.failed⟩

theorem putFlit_sameLanes (p : Port) (hdr : Nat) (stream : List Byte) : p.SameLanes (p.putFlit hdr stream) := by
  unfold Port.putFlit
  dsimp only
  split <;> exact ⟨rfl, rfl, rfl⟩

theorem flitHdr_sameLanes (p : Port) (ftype fseq pstart : Nat) (nak : Bool) : p.SameLanes (flitHdr p ftype fseq pstart nak).2 :=
  ⟨rfl, rfl, rfl⟩

theorem sendIdle_sameLanes (p : Port) (nak : Bool) : p.SameLanes (p.sendIdle nak) :=
  (flitHdr_sameLanes p _ _ _ _).trans (putFlit_sameLanes _ _ _)

theorem sendLctrl_sameLanes (p : Port) (code lane : Nat) : p.SameLanes (p.sendLctrl code lane) := by
  obtain ⟨hrx, hswap, hfailed⟩ :=
    (flitHdr_sameLanes p 2 p.txSeq 0xFF false).trans (putFlit_sameLanes _ _ (natLe 1 code ++ natLe 1 lane))
  exact ⟨hrx, hswap, hfailed⟩

/-! ### What the router can do (R425) -/

theorem portSend_port_ne (s : State) {i j : Nat} (h : j ≠ i) : (portSend s i).port j = s.port j := by
  unfold portSend
  dsimp only
  split
  · rfl
  · rw [bump_port, updPort_port_ne _ _ _ h]

theorem portSend_own (s : State) (i : Nat) : (portSend s i).own = s.own := by
  unfold portSend
  dsimp only
  split <;> rfl

theorem portSend_transit (s : State) (i : Nat) : (portSend s i).twill.transit = s.twill.transit := by
  unfold portSend
  dsimp only
  split <;> rfl

/-- A packet leaves through ACTIVE ports only. -/
theorem pickPort_active {s : State} {p : Packet} {from_ : Option Nat} {i : Nat} (h : pickPort s p from_ = some i) :
    (s.port i).st = .active := by
  unfold pickPort at h
  dsimp only at h
  split at h
  next => cases h
  next r _ =>
    have hup : ∀ {l : List Nat}, (∀ x ∈ l, x ∈ (List.range 12).filter fun i => bit r.2.2 i && (s.port i).st == .active) →
        l[crc32c (natLe 4 p.dst ++ natLe 4 p.src ++ natLe 8 p.reqId) % max 1 l.length]? = some i → (s.port i).st = .active :=
      fun hl hi => by simpa using (Bool.and_eq_true_iff.1 (List.mem_filter.1 (hl _ (List.mem_of_getElem? hi))).2).2
    split at h
    next => exact hup (fun _ hx => hx) h
    next hother => exact hup (fun _ hx => (List.mem_filter.1 (hother ▸ hx)).1) h

/-- Whatever outlives a delivery here, the report of a drop and a packet on the queue of an ACTIVE port outlives the router. -/
theorem routePkt_preserves {P : State → Prop} (hdeliver : ∀ t p, P t → P (deliver t p))
    (hevent : ∀ t, P t → P (t.event .twlEvent 0 6)) (henqueue : ∀ t i p, P t → (t.port i).st = .active → P (enqueue t i p))
    {s : State} (h : P s) (p : Packet) (from_ : Option Nat) :
    P (routePkt s p from_) := by
  unfold routePkt
  split
  · exact hdeliver s p h
  · split
    next hpick => exact henqueue s _ p h (pickPort_active hpick)
    next =>
      have hdropped := hevent s h
      dsimp only
      split
      · exact hdropped
      · split
        · exact hdeliver _ _ hdropped
        · split
          next hpick => exact henqueue _ _ _ hdropped (pickPort_active hpick)
          next => exact hevent _ hdropped

/-- The router leaves a port that is not ACTIVE as it is. -/
theorem routePkt_port {s : State} {i : Nat} (h : (s.port i).st ≠ .active) (p : Packet) (from_ : Option Nat) :
    (routePkt s p from_).port i = s.port i := by
  refine routePkt_preserves (P := fun t => t.port i = s.port i) (fun t p ht => ht) (fun t ht => by rw [event_port, ht])
    (fun t j q ht hj => ?_) rfl p from_
  have hne : i ≠ j := by
    rintro rfl
    exact h (ht ▸ hj)
  rw [enqueue, portSend_port_ne _ hne, updPort_port_ne _ _ _ hne, ht]

@[simp] theorem routePkt_transit (s : State) (p : Packet) (from_ : Option Nat) : (routePkt s p from_).twill.transit = s.twill.transit :=
  routePkt_preserves (P := fun t => t.twill.transit = s.twill.transit) (fun _ _ ht => ht) (fun t ht => by rw [event_twill, ht])
    (fun t j q ht _ => (portSend_transit _ j).trans ht) rfl p from_

@[simp] theorem routePkt_own (s : State) (p : Packet) (from_ : Option Nat) : (routePkt s p from_).own = s.own :=
  routePkt_preserves (P := fun t => t.own = s.own) (fun _ _ ht => ht) (fun t ht => by rw [event_own, ht])
    (fun t j q ht _ => (portSend_own _ j).trans ht) rfl p from_

/-! ### Messages and the record of a fault leave Twill alone -/

@[simp] theorem raiseEvent_twill (s : State) (b : Nat) (body : List Byte) : (raiseEvent s b body).twill = s.twill := by
  unfold raiseEvent
  dsimp only
  split
  · rfl
  · exact eventIf_twill _ _ _ _ _

@[simp] theorem queueLog_twill (s : State) (p : Nat) (x : LRec) : (queueLog s p x).twill = s.twill := by
  unfold queueLog
  split
  · exact event_twill _ _ _ _
  · rfl

@[simp] theorem ledgerAdd_twill (s : State) (p : Nat) (x : LRec) : (ledgerAdd s p x).twill = s.twill := by
  simp only [ledgerAdd, apply_ite State.twill, queueLog_twill, event_twill, raiseEvent_twill, State.bump_twill, State.mapRas_twill,
    ite_self]

@[simp] theorem faultRecord_twill (s : State) (cls kind u addr : Nat) (parts cmds : List Nat) :
    (faultRecord s cls kind u addr parts cmds).twill = s.twill := by
  unfold faultRecord
  dsimp only
  rw [foldl_keeps State.twill (fun t p => by rw [State.mapRas_twill, ledgerAdd_twill]), event_twill, State.mapRas_twill]

/-! ### A port gives up what it has queued (R430, R431) -/

theorem reroute_port {s : State} {i : Nat} (h : (s.port i).st ≠ .active) :
    (reroute s i).port i = { s.port i with outq := [], replay := [], partialIn := [], lctrlIn := [], owed := [] } := by
  refine List.foldlRecOn (motive := fun t : State => t.port i = _) _ _ (updPort_port_same s i _) fun t ht k _ => ?_
  rw [routePkt_port (by rw [ht]; exact h), ht]

end Sys2Proof.Machine
end

section
/-! PROOF. Training (14_twill_fabric R407 to R409): O36. -/
namespace Sys2Proof.Machine
open Sys2Proof

/-! ### The request for a tap (R408) -/

/-- The port that a whole frame of TXEQ with EQ field `e` and RX_READY `ready` leaves, before a change of state. -/
def eqFrame (p : Port) (lane e : Nat) (ready : Bool) : Port := eqRequest { p with peerReady := p.peerReady || ready } lane e

/-- A port in TXEQ moves to ALIGN once both ends are ready. -/
def alignIfReady (p : Port) : Port := if p.rxReady ∧ p.peerReady then { p with st := .align } else p

theorem eqFrame_eq (p : Port) (lane e : Nat) (ready : Bool) :
    eqFrame p lane e ready = { eqRequest p lane e with peerReady := p.peerReady || ready } := by
  unfold eqFrame eqRequest
  dsimp only
  split <;> rfl

theorem eqRequest_keeps (p : Port) (lane e : Nat) : (eqRequest p lane e).rxReady = p.rxReady ∧ (eqRequest p lane e).st = p.st := by
  unfold eqRequest
  dsimp only
  split <;> exact ⟨rfl, rfl⟩

/-! ### The frames of the sender's lanes (R406, R407) -/

/-- The port that a whole frame of ALIGN leaves: the sender's lane is recorded, and the last good lane's frame ends the state. -/
def alignFrame (p : Port) (lane src : Nat) : Port :=
  if p.good.all (p.seen.put lane src).has then { p with seen := p.seen.put lane src, st := .param }
  else { p with seen := p.seen.put lane src }

theorem alignFrame_port {p : Port} (hst : p.st = .align) (lane src : Nat) : (alignFrame p lane src).seen = p.seen.put lane src ∧
    (alignFrame p lane src).st = if p.good.all (p.seen.put lane src).has then .param else .align := by
  unfold alignFrame
  split
  · exact ⟨rfl, rfl⟩
  · exact ⟨rfl, hst⟩

/-! ### A whole training frame (R408, R409) -/

section
variable {s : State} {i lane : Nat} {b : List Byte} (hi : i < 12) (hlane : lane < 5) (hgood : (s.port i).failed.contains lane = false)
  (hframe : frameOk b = true)
include hi hlane hgood hframe

theorem frame_not_discarded : ¬(i ≥ 12 ∨ lane ≥ 5 ∨ (s.port i).failed.contains lane = true ∨ (!frameOk b) = true) := by
  rw [hgood, hframe]
  simp [hi, hlane]

theorem trainingFrame_txeq (hst : (s.port i).st = .txeq) : trainingFrame s i lane b =
    s.updPort i fun p => alignIfReady (eqFrame p lane (field b 6 1) (bit (field b 7 1) 7)) := by
  rw [trainingFrame, if_neg (frame_not_discarded hi hlane hgood hframe)]
  simp only [hst]
  rfl

theorem trainingFrame_txeq_port (hst : (s.port i).st = .txeq) :
    ((trainingFrame s i lane b).port i).peerReady = ((s.port i).peerReady || bit (field b 7 1) 7) ∧
      ((trainingFrame s i lane b).port i).taps = (eqRequest (s.port i) lane (field b 6 1)).taps ∧
      ((trainingFrame s i lane b).port i).st =
        if (s.port i).rxReady && ((s.port i).peerReady || bit (field b 7 1) 7) then .align else .txeq := by
  obtain ⟨hready, hkept⟩ := eqRequest_keeps (s.port i) lane (field b 6 1)
  rw [trainingFrame_txeq hi hlane hgood hframe hst, updPort_port_same, eqFrame_eq, alignIfReady]
  simp only [hready, ← Bool.and_eq_true]
  split
  · exact ⟨rfl, rfl, rfl⟩
  · exact ⟨rfl, rfl, hkept.trans hst⟩

theorem trainingFrame_align (hst : (s.port i).st = .align) :
    trainingFrame s i lane b = s.updPort i fun p => alignFrame p lane (field b 4 1) := by
  rw [trainingFrame, if_neg (frame_not_discarded hi hlane hgood hframe)]
  simp only [hst]
  rfl

theorem trainingFrame_align_port (hst : (s.port i).st = .align) :
    ((trainingFrame s i lane b).port i).seen = (s.port i).seen.put lane (field b 4 1) ∧
      ((trainingFrame s i lane b).port i).st =
        if (s.port i).good.all ((s.port i).seen.put lane (field b 4 1)).has then .param else .align := by
  rw [trainingFrame_align hi hlane hgood hframe hst, updPort_port_same]
  exact alignFrame_port hst lane _

theorem trainingFrame_param (hst : (s.port i).st = .param) : trainingFrame s i lane b = paramFrame s i b := by
  rw [trainingFrame, if_neg (frame_not_discarded hi hlane hgood hframe)]
  simp only [hst]

end

/-! ### A training state beyond its bound (R407) -/

section
variable {s : State} {i : Nat} (hi : i < 12) (hbounded : boundedState (s.port i) = true)
include hi hbounded

theorem trainingTimeout_again (hfails : (s.port i).fails < 2) :
    trainingTimeout s i = enterDetect (s.updPort i fun p => { p with fails := p.fails + 1 }) i := by
  rw [trainingTimeout, if_neg (by simp [hi, hbounded]), if_neg (by omega)]

theorem trainingTimeout_down (hfails : 2 ≤ (s.port i).fails) : trainingTimeout s i = enterDown s i := by
  rw [trainingTimeout, if_neg (by simp [hi, hbounded]), if_pos (by omega)]

end

/-! ### DETECT (R407) -/

/-- A port that enters DETECT: no lane is fenced, RATE is taken afresh, and what it has queued stays. -/
theorem enterDetect_port (s : State) (i : Nat) : ((enterDetect s i).port i).st = .detect ∧ ((enterDetect s i).port i).failed = [] ∧
    ((enterDetect s i).port i).rate = (s.fld .twlPCfg i 1 1 == 1) ∧ ((enterDetect s i).port i).outq = (s.port i).outq := by
  rw [enterDetect, updPort_port_same]
  exact ⟨rfl, rfl, rfl, rfl⟩

/-! ### O36 -/

/-- Settles O36: each row by the equation of the branch that its hypotheses choose, and the port that the row leaves. -/
theorem portTrainingCompletes : Obligations.PortTrainingCompletes := by
  unfold Obligations.PortTrainingCompletes
  refine ⟨?signal, ?adapted, ?frame, ?timeout, ?retry⟩
  case signal =>
    intro s i l hi hst hlanes
    exact congrArg Host.Outcome.next (if_pos ⟨hi, hst, hlanes⟩)
  case adapted =>
    intro s i hi hst
    exact congrArg Host.Outcome.next (if_pos ⟨hi, hst⟩)
  case frame =>
    intro s i lane b hi hlane hgood hframe
    exact ⟨fun hst => ⟨_, rfl, trainingFrame_txeq_port hi hlane hgood hframe hst⟩,
      fun hst => ⟨_, rfl, trainingFrame_align_port hi hlane hgood hframe hst⟩,
      fun hst => congrArg Host.Outcome.next (trainingFrame_param hi hlane hgood hframe hst)⟩
  case timeout =>
    intro s i hi hbounded
    exact ⟨fun hfails => congrArg Host.Outcome.next (trainingTimeout_again hi hbounded hfails),
      fun hfails => congrArg Host.Outcome.next (trainingTimeout_down hi hbounded hfails)⟩
  case retry =>
    intro s i hi hst
    obtain ⟨hdetect, hfailed, hrate, -⟩ := enterDetect_port s i
    exact ⟨_, congrArg Host.Outcome.next (if_pos ⟨hi, hst⟩), hdetect, hfailed, hrate⟩

end Sys2Proof.Machine
end

section
/-! PROOF. The rows of an ACTIVE port (14_twill_fabric R410 to R431): O37. -/
namespace Sys2Proof.Machine
open Sys2Proof

/-! ### Flits (R413, R414) -/

/-- A NAK goes out, unless one is held back. -/
def nakSent (s : State) (i : Nat) : State :=
  if (s.port i).nakHold ∨ (s.port i).swapRx.isSome then s else s.updPort i fun p => p.sendIdle true

section
variable {s : State} {i : Nat} {b : List Byte} (hi : i < 12) (hst : (s.port i).st = .active ∨ (s.port i).st = .draining)
  (hlen : b.length = 256) (hcrc : field b 252 4 = crc32c (b.take 252))
include hi hst hlen hcrc

/-- A flit whose CRC holds: its acknowledgement is taken, then an IDLE flit ends, the next in order is taken and any other gets a NAK. -/
theorem flitReceive_whole : flitReceive s i b = portSend
    (if bits (field b 0 9) 0 2 = 1 then takeAck s i (field b 0 9)
      else if bits (field b 0 9) 0 2 < 3 ∧ bits (field b 0 9) 2 12 = (((takeAck s i (field b 0 9)).port i).ackSeq + 1) % 4096 then
        takeFlit (takeAck s i (field b 0 9)) i (field b 0 9) (slice b 9 243)
      else nakSent (takeAck s i (field b 0 9)) i) i := by
  have htakes : ¬(i ≥ 12 ∨ (s.port i).st ≠ .active ∧ (s.port i).st ≠ .draining) := by
    rcases hst with hst | hst <;> simp [hi, hst]
  have hwhole : ¬(b.length ≠ 256 ∨ field b 252 4 ≠ crc32c (b.take 252)) := by simp [hlen, hcrc]
  unfold flitReceive
  dsimp only
  rw [if_neg htakes, if_neg hwhole]
  rfl

theorem flitReceive_idle (hidle : bits (field b 0 9) 0 2 = 1) : flitReceive s i b = portSend (takeAck s i (field b 0 9)) i := by
  rw [flitReceive_whole hi hst hlen hcrc, if_pos hidle]

theorem flitReceive_inOrder (hidle : bits (field b 0 9) 0 2 ≠ 1) (htype : bits (field b 0 9) 0 2 < 3)
    (hseq : bits (field b 0 9) 2 12 = (((takeAck s i (field b 0 9)).port i).ackSeq + 1) % 4096) :
    flitReceive s i b = portSend (takeFlit (takeAck s i (field b 0 9)) i (field b 0 9) (slice b 9 243)) i := by
  rw [flitReceive_whole hi hst hlen hcrc, if_neg hidle, if_pos ⟨htype, hseq⟩]

theorem flitReceive_outOfOrder (hidle : bits (field b 0 9) 0 2 ≠ 1)
    (hseq : bits (field b 0 9) 2 12 ≠ (((takeAck s i (field b 0 9)).port i).ackSeq + 1) % 4096)
    (hhold : ((takeAck s i (field b 0 9)).port i).nakHold = false) (hswap : ((takeAck s i (field b 0 9)).port i).swapRx = none) :
    flitReceive s i b = portSend ((takeAck s i (field b 0 9)).updPort i fun p => p.sendIdle true) i := by
  rw [flitReceive_whole hi hst hlen hcrc, if_neg hidle, if_neg fun h => hseq h.2, nakSent, if_neg (by simp [hhold, hswap])]

end

/-! ### Lane swaps (R417, R418) -/

/-- The first message of a code is taken off a port's list. -/
theorem takeLctrl_port (s : State) (i code : Nat) : (takeLctrl s i code).port i =
    { s.port i with lctrlIn := dropFirst (fun x => x.1 == code) (s.port i).lctrlIn } := updPort_port_same _ _ _

theorem swapEnded_port (s : State) (i j : Nat) : (swapEnded s i).port j = s.port j := by
  rw [swapEnded, eventIf_port, event_port, bump_port]

section
variable {s : State} {i : Nat}

/-- A failing lane with a spare: the receiver asks for the swap and holds its NAKs back. -/
theorem laneFailing_port {lane n : Nat} (hi : i < 12) (hlane : lane < 5) (hst : (s.port i).st = .active)
    (hgood : (s.port i).failed.contains lane = false) (hn : indexOf? (· == lane) (s.port i).rx = some n)
    (hswap : (s.port i).swapRx = none)
    (hspare : freeLane { s.port i with failed := addSet (s.port i).failed lane } (s.port i).rx ≠ none) :
    ((laneFailing s i lane).port i).swapRx = some n ∧ ((laneFailing s i lane).port i).nakHold = true ∧
      ((laneFailing s i lane).port i).failed = addSet (s.port i).failed lane := by
  have hfails : ¬(i ≥ 12 ∨ lane ≥ 5 ∨ ((s.port i).st ≠ .active ∧ (s.port i).st ≠ .draining) ∨
      (s.port i).failed.contains lane = true) := by
    rw [hgood]
    simp [hi, hlane, hst]
  have hswaps : ¬((freeLane { s.port i with failed := addSet (s.port i).failed lane } (s.port i).rx).isNone = true ∨
      (s.port i).swapRx.isSome = true) := not_or.2 ⟨fun h => hspare (Option.isNone_iff_eq_none.1 h), by simp [hswap]⟩
  unfold laneFailing
  dsimp only
  rw [if_neg hfails, hn]
  dsimp only
  rw [updPort_port_same, if_neg hswaps, updPort_port_same, updPort_port_same]
  exact ⟨rfl, rfl, (sendLctrl_sameLanes _ 1 n).failed⟩

theorem swapReq_port {lane : Nat} (hst : (s.port i).st = .active) (hlane : lane < (s.port i).tx.length)
    (hspare : freeLane (s.port i) (s.port i).tx ≠ none) :
    ((swapReq s i lane).port i).mirror = some lane ∧ ((swapReq s i lane).port i).tx = (s.port i).tx := by
  have hspare' : (freeLane (s.port i) (s.port i).tx).isSome = true := Option.isSome_iff_ne_none.2 hspare
  unfold swapReq
  dsimp only
  rw [takeLctrl_port, if_pos ⟨.inl hst, hlane, hspare'⟩, updPort_port_same, takeLctrl_port]
  exact ⟨rfl, rfl⟩

theorem mirroredDecoded_port {n l : Nat} (hswap : (s.port i).swapRx = some n) (hspare : freeLane (s.port i) (s.port i).rx = some l) :
    ((mirroredDecoded s i).port i).rx = (s.port i).rx.set n l ∧ ((mirroredDecoded s i).port i).swapRx = none := by
  unfold mirroredDecoded
  dsimp only
  rw [hswap, hspare]
  dsimp only
  rw [swapEnded_port, updPort_port_same, updPort_port_same]
  obtain ⟨hrx, hended, -⟩ := (sendIdle_sameLanes { s.port i with rx := (s.port i).rx.set n l, swapRx := none } true).trans
    (sendLctrl_sameLanes _ 2 n)
  exact ⟨hrx, hended⟩

theorem swapDone_mirrored {n l : Nat} (hmirror : ((takeLctrl s i 2).port i).mirror = some n)
    (hspare : freeLane ((takeLctrl s i 2).port i) ((takeLctrl s i 2).port i).tx = some l) :
    swapDone s i = portSend (resendAll (swapEnded ((takeLctrl s i 2).updPort i fun p => { p with
      tx := p.tx.set n l, failed := addSet p.failed (p.tx.getD n 0), mirror := none }) i) i) i := by
  unfold swapDone
  dsimp only
  rw [hmirror, hspare]

/-! ### Retraining, the end of a drain and DOWN (R410, R430, R431) -/

theorem retrainReq_port (hst : (s.port i).st = .active) : ((retrainReq s i).port i).st = .cal ∧ ((retrainReq s i).port i).width = 0 := by
  unfold retrainReq
  dsimp only
  rw [takeLctrl_port, if_pos hst, enterCal, updPort_port_same]
  exact ⟨rfl, rfl⟩

theorem retargetEnd_port (hst : (s.port i).st = .draining) :
    ((enterDetect (reroute s i) i).port i).st = .detect ∧ ((enterDetect (reroute s i) i).port i).outq = [] := by
  obtain ⟨hdetect, -, -, hkept⟩ := enterDetect_port (reroute s i) i
  exact ⟨hdetect, by rw [hkept, reroute_port (by simp [hst])]⟩

/-- A port that enters DOWN stays there while its packets are routed again. -/
theorem enterDown_st (s : State) (i : Nat) : ((enterDown s i).port i).st = .down := by
  unfold enterDown
  dsimp only
  rw [port_of_twill i (raiseEvent_twill _ _ _), event_port, reroute_port] <;> simp

theorem enterDown_hasEvent (s : State) (i : Nat) : (enterDown s i).HasEvent .twlEvent 0 1 :=
  (hasEvent_event _ _ _ (by decide)).raiseEvent _ _

end

/-! ### Packets in transit (R425 to R427) -/

/-- The state in which the only packet in transit has left its port's buffer and the port has returned its credits. -/
def transitFreed (s : State) (i : Nat) (k : Packet) : State :=
  (oweCredits (s.mapTwill fun t => { t with transit := [] }) i k).updPort i fun q => Port.sendCredits 16 q

section
variable {s : State} {i : Nat} {k : Packet} (htransit : s.twill.transit = [(i, k)])
include htransit

theorem forwardPkt_only : forwardPkt s k =
    if badPacket k false then (transitFreed s i k).event .twlEvent 0 9
    else if k.dst = nodeId s then receivePacket (transitFreed s i k) k
    else if k.hops = 0 then
      let v := ((transitFreed s i k).event .twlEvent 0 7).event .twlEvent 0 6
      if k.typ = 0xD then v else routePkt v (undeliveredOf v k) none
    else routePkt (transitFreed s i k) { k with hops := k.hops - 1 } (some i) := by
  have hleaves : (s.mapTwill fun t => { t with transit := dropFirst (fun x : Nat × Packet => x.2 == k) t.transit }) =
      s.mapTwill fun t => { t with transit := [] } := by
    simp [State.mapTwill, htransit, dropFirst]
  have hfrom : (s.twill.transit.find? fun x => x.2 == k).map (·.1) = some i := by simp [htransit]
  unfold forwardPkt
  dsimp only
  rw [hleaves, hfrom]
  rfl

theorem forwardPkt_malformed (hbad : badPacket k false = true) : forwardPkt s k = (transitFreed s i k).event .twlEvent 0 9 := by
  rw [forwardPkt_only htransit, if_pos hbad]

variable (hbad : badPacket k false = false) (hdst : k.dst ≠ nodeId s)
include hbad hdst

theorem forwardPkt_passedOn (hhops : 0 < k.hops) :
    forwardPkt s k = routePkt (transitFreed s i k) { k with hops := k.hops - 1 } (some i) := by
  rw [forwardPkt_only htransit, if_neg (by simp [hbad]), if_neg hdst, if_neg (by omega)]

theorem forwardPkt_dropped (hhops : k.hops = 0) (htyp : k.typ = 0xD) :
    forwardPkt s k = ((transitFreed s i k).event .twlEvent 0 7).event .twlEvent 0 6 := by
  rw [forwardPkt_only htransit, if_neg (by simp [hbad]), if_neg hdst, if_pos hhops]
  exact if_pos htyp

theorem forwardPkt_undelivered (hhops : k.hops = 0) (htyp : k.typ ≠ 0xD) :
    forwardPkt s k = routePkt (((transitFreed s i k).event .twlEvent 0 7).event .twlEvent 0 6)
      (undeliveredOf (((transitFreed s i k).event .twlEvent 0 7).event .twlEvent 0 6) k) none := by
  rw [forwardPkt_only htransit, if_neg (by simp [hbad]), if_neg hdst, if_pos hhops]
  exact if_neg htyp

end

/-! ### O37 -/

/-- Settles O37: each row by the equation of the branch that its hypotheses choose. A port that is given up keeps nothing queued, for
the router selects ACTIVE ports only (`routePkt_port`). -/
theorem portRowsComplete : Obligations.PortRowsComplete := by
  unfold Obligations.PortRowsComplete
  refine ⟨?flit, ?nakHold, ?failing, ?request, ?decoded, ?swapDone, ?retrain, ?drained, ?down, ?forward, ?malformed⟩
  case flit =>
    rintro s u i h b hi hst hlen hcrc rfl rfl
    exact ⟨fun hidle => congrArg Host.Outcome.next (flitReceive_idle hi hst hlen hcrc hidle),
      fun hidle htype hseq => congrArg Host.Outcome.next (flitReceive_inOrder hi hst hlen hcrc hidle htype hseq),
      fun hidle hseq hhold hswap => congrArg Host.Outcome.next (flitReceive_outOfOrder hi hst hlen hcrc hidle hseq hhold hswap)⟩
  case nakHold =>
    intro s i hi
    exact congrArg Host.Outcome.next (if_pos hi)
  case failing =>
    intro s i lane n hi hlane hst hgood hn hswap hspare
    exact ⟨_, rfl, laneFailing_port hi hlane hst hgood hn hswap hspare⟩
  case request =>
    intro s i lane hi hst hlane hspare
    exact ⟨_, congrArg Host.Outcome.next (if_pos hi), swapReq_port hst hlane hspare⟩
  case decoded =>
    intro s i n l hi hswap hspare
    exact ⟨_, congrArg Host.Outcome.next (if_pos hi), mirroredDecoded_port hswap hspare⟩
  case swapDone =>
    rintro s u i n l hi rfl hmirror hspare
    exact congrArg Host.Outcome.next ((if_pos hi).trans (swapDone_mirrored hmirror hspare))
  case retrain =>
    intro s i hi hst
    exact ⟨_, congrArg Host.Outcome.next (if_pos hi), retrainReq_port hst⟩
  case drained =>
    intro s i hi hst
    have hend : exec (.retargetDrainEnd i) s = .next (enterDetect (reroute s i) i) := congrArg Host.Outcome.next (if_pos ⟨hi, hst⟩)
    exact ⟨hend, _, hend, retargetEnd_port hst⟩
  case down =>
    intro s i hi hst
    have hdown : exec (.portDown i) s = .next (enterDown s i) := congrArg Host.Outcome.next (if_pos ⟨hi, hst⟩)
    exact ⟨hdown, _, hdown, enterDown_st s i, enterDown_hasEvent s i⟩
  case forward =>
    rintro s k i htransit hbad hdst v rfl
    refine ⟨fun hhops => ?_, fun hhops htyp => congrArg Host.Outcome.next (forwardPkt_dropped htransit hbad hdst hhops htyp),
      fun hhops htyp => congrArg Host.Outcome.next (forwardPkt_undelivered htransit hbad hdst hhops htyp)⟩
    have hpass : exec (.packetForward k) s = .next (routePkt (transitFreed s i k) { k with hops := k.hops - 1 } (some i)) :=
      congrArg Host.Outcome.next (forwardPkt_passedOn htransit hbad hdst hhops)
    exact ⟨hpass, _, hpass, routePkt_transit _ _ _⟩
  case malformed =>
    intro s k i htransit hbad
    exact ⟨_, congrArg Host.Outcome.next (forwardPkt_malformed htransit hbad), by rw [event_twill]; rfl,
      hasEvent_event _ _ _ (by decide)⟩

end Sys2Proof.Machine
end

section
/-! PROOF. Packets that a node serves (14_twill_fabric R433 to R441, 15_composition_ownership R455 and R456): O38. -/
namespace Sys2Proof.Machine
open Sys2Proof

/-! ### A packet reaches its row (R425, R434) -/

theorem onPacket_whole {s : State} {typ : Nat} {p : Packet} (h : packetFor s typ p) (f : State → State) :
    onPacket s typ p f = f (takePkt s p) := by
  obtain ⟨htyp, hdst, happlied, hgood, hclear⟩ := h
  rw [onPacket, if_neg (by simp [htyp, hdst, happlied])]
  exact if_neg (by simp [hgood, hclear])

/-- A packet's row answers the state that its function gives once the packet has left the inbox. -/
theorem packetRow_next {s t : State} {typ : Nat} {p : Packet} (h : packetFor s typ p) {f : State → State} (ht : f (takePkt s p) = t) :
    (Host.Outcome.next (onPacket s typ p f) : Out) = .next t := congrArg Host.Outcome.next ((onPacket_whole h f).trans ht)

theorem onPacket_malformed {s : State} {typ : Nat} {p : Packet} (htyp : p.typ = typ) (hdst : p.dst = nodeId s)
    (happlied : s.img.applied = true) (hbad : badPacket p false = true ∨ clearOk p = false) (f : State → State) :
    onPacket s typ p f = (takePkt s p).event .twlEvent 0 9 := by
  rw [onPacket, if_neg (by simp [htyp, hdst, happlied])]
  exact if_pos (hbad.imp id fun h => by simp [h])

/-! ### READ and WRITE (R433, R435, R439) -/

section
variable {s : State} {p : Packet}

theorem readRequest_refused (h : (partServes s p.part && spanOwned s p.part p.addr (field p.payload 0 4)) = false) :
    readRequest s p = refuse s p 2 := by
  unfold readRequest
  dsimp only
  rw [if_pos (by rcases Bool.and_eq_false_iff.1 h with h | h <;> simp [h])]

section
variable (h : (partServes s p.part && spanOwned s p.part p.addr (field p.payload 0 4)) = true)
include h

theorem readRequest_expired (hretained : retained s p.part p.epoch = false) : readRequest s p = answer s p 2 stEpochExpired 0 := by
  obtain ⟨hserves, howned⟩ := Bool.and_eq_true_iff.1 h
  unfold readRequest
  dsimp only
  rw [if_neg (by simp [hserves, howned]), if_pos (by simp [hretained])]

theorem readRequest_served (hretained : retained s p.part p.epoch = true)
    (hrate : zeroRate s p.part (localPlace s p.addr).tier = false) :
    readRequest s p = answerData (spanTouch (charge s p.part (localPlace s p.addr).tier (field p.payload 0 4)) p.part p.addr
      (field p.payload 0 4) false).drawn p 2 stOk (placeRead s (localPlace s p.addr) (field p.payload 0 4)) := by
  obtain ⟨hserves, howned⟩ := Bool.and_eq_true_iff.1 h
  unfold readRequest
  dsimp only
  rw [if_neg (by simp [hserves, howned]), if_neg (by simp [hretained]), if_neg (by simp [hrate])]

end

theorem writeRequest_repeated (h : s.twill.writes.contains (reqKey p.src p.reqId) = true) : writeRequest s p = answer s p 4 stOk 0 :=
  if_pos h

/-- Bytes stored at a place: a version of a slot joins the slot's chain (R453). -/
def versionStored (w : State) (b : List Byte) : Place → State
  | .t3 a => match structAt w a with
    | some (sh, 7, _) => versionArrived w sh ((a - sh.t3.getD 7 0) / 32) b
    | _ => w
  | _ => w

theorem writeRequest_stores {w : State} (hfirst : s.twill.writes.contains (reqKey p.src p.reqId) = false)
    (hserves : partServes s p.part = true) (howned : spanOwned s p.part p.addr p.payload.length = true)
    (hretained : retained s p.part p.epoch = true) (hrate : zeroRate s p.part (localPlace s p.addr).tier = false)
    (hw : w = placeWrite (spanTouch (charge s p.part (localPlace s p.addr).tier p.payload.length) p.part p.addr p.payload.length true)
      (localPlace s p.addr) p.payload) :
    writeRequest s p = answer ((versionStored w p.payload (localPlace w p.addr)).mapTwill fun t => { t with
      writes := addSet t.writes (reqKey p.src p.reqId) }) p 4 stOk 0 := by
  unfold writeRequest
  dsimp only
  rw [if_neg (by rw [hfirst]; simp), if_neg (by simp [hserves, howned]), if_neg (by simp [hretained]), if_neg (by simp [hrate]), ← hw]
  cases localPlace w p.addr <;> rfl

/-! ### SCORE and EXPAND under map generations and tokens (R448, R455, R456) -/

section
variable {k x : Nat} {c : Comp} {l : List Nat} (hserves : partServes s p.part = true) (hcomp : compOf s p.part p.index = some (k, c))
  (hslots : askedSlots p = x :: l)
include hserves hcomp hslots

theorem ownedRequest_newer (hnewer : newerGen p.mapgen (genMapgen c.now) = true) : ownedRequest s p = holdRequest s p true := by
  unfold ownedRequest
  rw [if_neg (by simp [hserves]), hcomp, hslots]
  exact if_pos hnewer

variable (hnewer : newerGen p.mapgen (genMapgen c.now) = false)
include hnewer

theorem ownedRequest_held (hgen : p.mapgen = genMapgen c.now) (hst : (s.token (ledgerKey k (x / 2 ^ 24) p.src)).st = .held)
    (hceasing : (s.token (ledgerKey k (x / 2 ^ 24) p.src)).ceasing = none) : ownedRequest s p = serveRemote s p := by
  unfold ownedRequest
  rw [if_neg (by simp [hserves]), hcomp, hslots]
  dsimp only [List.head?_cons]
  rw [if_neg (by simp [hnewer]), if_pos (.inl hgen), hst]
  exact if_neg (by rw [hceasing]; exact Bool.false_ne_true)

theorem ownedRequest_stale (hgen : p.mapgen ≠ genMapgen c.now) (hdrained : c.draining = false) : ownedRequest s p = answerStale s p := by
  unfold ownedRequest
  rw [if_neg (by simp [hserves]), hcomp, hslots]
  dsimp only [List.head?_cons]
  rw [if_neg (by simp [hnewer]), if_neg (by simp [hgen, hdrained])]

end

/-! ### QUERY messages (R441) -/

section
variable (hseq : p.seq = 0) (hnone : s.twill.asm.getD (reqKey p.src p.reqId) [] = [])
include hseq hnone

theorem queryPacket_whole (hlast : p.last = true) :
    queryPacket s p = startQuery (s.mapTwill fun t => { t with asm := t.asm.del (reqKey p.src p.reqId) }) [p] := by
  unfold queryPacket
  dsimp only
  rw [hnone, hseq]
  exact if_pos ⟨hlast, rfl⟩

theorem queryPacket_first (hlast : p.last = false) :
    queryPacket s p = s.mapTwill fun t => { t with asm := t.asm.put (reqKey p.src p.reqId) [(0, p)] } := by
  unfold queryPacket
  dsimp only
  rw [hnone, hseq]
  exact if_neg fun h => Bool.false_ne_true (hlast.symm.trans h.1)

end
end

/-! ### O38 -/

/-- Settles O38: a whole packet's row is its function in the state in which the packet has left the inbox (`onPacket_whole`), and each
function by the equation of the branch that its hypotheses choose. -/
theorem servedPacketsComplete : Obligations.ServedPacketsComplete := by
  unfold Obligations.ServedPacketsComplete
  refine ⟨?read, ?write, ?expiry, ?owned, ?query, ?malformed⟩
  case read =>
    rintro s u p n t hp rfl rfl rfl
    exact ⟨fun hout => packetRow_next hp (readRequest_refused hout),
      fun hin hretained => packetRow_next hp (readRequest_expired hin hretained),
      fun hin hretained hrate => packetRow_next hp (readRequest_served hin hretained hrate)⟩
  case write =>
    rintro s u p t hp rfl rfl
    refine ⟨fun hrepeated => packetRow_next hp (writeRequest_repeated hrepeated), ?_⟩
    intro hfirst hserves howned hretained hrate w v hw hv
    have hversion : v = versionStored w p.payload (localPlace w p.addr) := by
      rw [hv]
      cases localPlace w p.addr <;> rfl
    rw [hversion]
    exact packetRow_next hp (writeRequest_stores hfirst hserves howned hretained hrate hw)
  case expiry =>
    intro s node r
    rfl
  case owned =>
    rintro s u p typ k x i c l hi hp rfl hserves hcomp hslots
    have hrow : exec i s = .next (ownedRequest (takePkt s p) p) := by
      rcases List.mem_pair.1 hi with h | h <;> obtain ⟨rfl, rfl⟩ := Prod.mk.inj h <;>
        exact packetRow_next hp rfl
    rw [hrow]
    exact ⟨fun hnewer => congrArg Host.Outcome.next (ownedRequest_newer hserves hcomp hslots hnewer),
      fun hnewer hgen hst hceasing => congrArg Host.Outcome.next (ownedRequest_held hserves hcomp hslots hnewer hgen hst hceasing),
      fun hnewer hgen hdrained => congrArg Host.Outcome.next (ownedRequest_stale hserves hcomp hslots hnewer hgen hdrained)⟩
  case query =>
    rintro s u p hp rfl hseq hnone
    exact ⟨fun hlast => packetRow_next hp (queryPacket_whole hseq hnone hlast),
      fun hlast => packetRow_next hp (queryPacket_first hseq hnone hlast)⟩
  case malformed =>
    intro s p typ i hi htyp hdst happlied hbad
    simp only [List.mem_cons, List.not_mem_nil, or_false, Prod.mk.injEq] at hi
    rcases hi with ⟨rfl, rfl⟩ | ⟨rfl, rfl⟩ | ⟨rfl, rfl⟩ | ⟨rfl, rfl⟩ | ⟨rfl, rfl⟩ <;>
      exact congrArg Host.Outcome.next (onPacket_malformed htyp hdst happlied hbad _)

end Sys2Proof.Machine
end

section
/-! PROOF. Answers to a node's own requests, and the timers of requests (14_twill_fabric R433 to R442, 15_composition_ownership R456 to
R471): O39. -/
namespace Sys2Proof.Machine
open Sys2Proof

/-! ### Messages leave compositions and tokens alone -/

@[simp] theorem charge_own (s : State) (p t n : Nat) : (charge s p t n).own = s.own := by
  unfold charge
  split <;> rfl

@[simp] theorem twillCharge_own (s : State) (p : Packet) : (twillCharge s p).own = s.own := charge_own s _ _ _

@[simp] theorem twillCharge_twill (s : State) (p : Packet) : (twillCharge s p).twill = s.twill := by
  unfold twillCharge charge
  split <;> rfl

@[simp] theorem sendMsg_own (s : State) (l : List Packet) : (sendMsg s l).own = s.own := by
  refine foldl_keeps State.own (fun t p => ?_) l s
  refine (routePkt_own _ _ _).trans ?_
  split
  · rfl
  · exact twillCharge_own t p

/-! ### An answer of one packet (R437, R440) -/

/-- The state in which a one-packet answer has been charged and put together, and its request is no longer outstanding. -/
def answerTaken (s : State) (p : Packet) (o : OutReq) : State :=
  dropReq ((twillCharge s p).mapTwill fun t => { t with out := t.out.put p.reqId { o with got := [(0, p)] } }) p.reqId

section
variable {s : State} {p : Packet} {o : OutReq}

@[simp] theorem answerTaken_own : (answerTaken s p o).own = s.own := twillCharge_own s p

@[simp] theorem answerTaken_serves : (answerTaken s p o).twill.serves = s.twill.serves :=
  (congrArg Twill.serves (twillCharge_twill s p) :)

section
variable (hgot : o.got = []) (hseq : p.seq = 0) (hlast : p.last = true)
include hgot hseq hlast

theorem gather_onePacket (r : Nat) : gather s r o p =
    (s.mapTwill fun t => { t with out := t.out.put r { o with got := [(0, p)] } }, some p.payload) := by
  unfold gather
  dsimp only
  rw [hgot, hseq]
  refine (if_pos ⟨hlast, rfl⟩).trans ?_
  simp [Smap.put]

theorem readRsp_data (ho : outOf s p .read = some o) (hstatus : p.status = stOk) :
    readRsp s p = serveData (answerTaken s p o) p.reqId p.payload := by
  unfold readRsp
  rw [ho]
  dsimp only
  rw [if_neg (not_not.2 hstatus), gather_onePacket hgot hseq hlast]
  rfl

theorem walkRsp_data {k : ReqKind} (f : State → OutReq → List Byte → State) (ho : outOf s p k = some o) (hstatus : p.status = stOk)
    (hpayload : p.payload ≠ []) :
    walkRsp s k p f = f ((answerTaken s p o).updQuery o.query fun q => { q with remote := delSet q.remote p.reqId }) o p.payload := by
  unfold walkRsp
  rw [ho, hstatus]
  dsimp only
  rw [if_neg (by simp [hpayload]), if_neg (by decide), if_neg (by decide), if_neg (by decide), if_neg (by decide),
    gather_onePacket hgot hseq hlast]
  rfl

theorem listPacket_merges (ho : outOf s p .query = some o) (hprogress : bit p.addr 18 = false) :
    listPacket s p = mergeList (answerTaken s p o) o.query p.src p.status
      (((List.range (min (bits p.addr 0 17) (p.payload.length / 16))).map (listEntry p.payload)).takeWhile fun e => e.key != 0xFFFFFFFF)
      (bit p.addr 17) := by
  unfold listPacket
  rw [ho]
  dsimp only
  rw [hprogress, if_neg Bool.false_ne_true, gather_onePacket hgot hseq hlast]
  rfl

end

/-! ### Answers without data (R437, R442, R457, R460) -/

theorem readRsp_failed (ho : outOf s p .read = some o) (hstatus : p.status ≠ stOk) :
    readRsp s p = serveFails (dropReq s p.reqId) p.reqId p.status := by
  unfold readRsp
  rw [ho]
  exact if_pos hstatus

section
variable {k : ReqKind} (f : State → OutReq → List Byte → State) (ho : outOf s p k = some o)
include ho

theorem walkRsp_held (hstatus : p.status = stOk) (hpayload : p.payload = []) (hheld : bit p.addr 0 = true) :
    walkRsp s k p f = restartTimers s p.reqId := by
  unfold walkRsp
  rw [ho]
  exact if_pos ⟨hstatus, by rw [hpayload]; rfl, hheld⟩

theorem walkRsp_notOwner (hstatus : p.status = stNotOwner) : walkRsp s k p f = notOwnerForward s p.reqId o p := by
  unfold walkRsp
  rw [ho, hstatus]
  dsimp only
  rw [if_neg fun h => absurd h.1 (by decide)]
  rfl

theorem walkRsp_staleMap (hstatus : p.status = stStaleMap) : walkRsp s k p f = staleMap s p.reqId o p := by
  unfold walkRsp
  rw [ho, hstatus]
  dsimp only
  rw [if_neg fun h => absurd h.1 (by decide), if_neg (by decide)]
  rfl

end

theorem listPacket_progress (ho : outOf s p .query = some o) (hprogress : bit p.addr 18 = true) :
    listPacket s p = restartTimers s p.reqId := by
  unfold listPacket
  rw [ho]
  exact if_pos hprogress

end

/-! ### The bytes of a READ reach the request that waits for them (R453) -/

theorem ceaseCheck_noLedger {s : State} (h : s.own.ledger = []) : ceaseCheck s = s := by
  unfold ceaseCheck
  rw [h]
  rfl

/-- A READ whose request waits for others too: its lines join those in hand. -/
theorem serveData_waits {s : State} {v : Serve} {r a : Nat} {b : List Byte} (hserves : s.twill.serves = [v])
    (hread : (v.wait.find? fun w => w.1 == r) = some (r, a)) (hwait : (v.wait.filter fun w => w.1 != r) ≠ []) :
    serveData s r b = s.mapTwill fun t => { t with
      serves := [{ v with wait := v.wait.filter fun w => w.1 != r, lines := addLines v.lines a b }] } := by
  have hmine : (s.twill.serves.find? fun v => v.wait.any fun w => w.1 == r) = some v := by
    rw [hserves]
    exact List.find?_cons_of_pos (List.any_eq_true.2 ⟨_, List.mem_of_find?_eq_some hread, beq_self_eq_true r⟩)
  unfold serveData
  rw [hmine]
  dsimp only
  rw [hread, if_neg (by simpa using hwait)]
  simp [State.mapTwill, hserves]

/-! ### UNDELIVERED and the timers of a request (R438, R471) -/

section
variable {s : State} {r : Nat} {o : OutReq} (ho : s.twill.out.get r = some o)
include ho

theorem resend_first (hfirst : o.resent = false) : resend s r =
    sendMsg (s.mapTwill fun t => { t with out := t.out.put r { o with resent := true } }) (o.pkts.map fun p => { p with retry := true }) := by
  unfold resend
  rw [ho]
  exact if_neg (by simp [hfirst])

theorem unreachable_readMarked (hkind : o.kind = .read) (hmarked : s.own.unreachable.contains o.dst = true) :
    unreachable s r = ((serveFails (dropReq ((s.bump .twlTimeouts 0 1).event .twlEvent 0 10) r) r stUnreachable).mapOwn
      fun w => { w with unreachable := addSet w.unreachable o.dst }).event .ownEvent 0 8 := by
  unfold unreachable
  rw [ho]
  dsimp only
  rw [event_own, State.bump_own, if_pos hmarked, hkind]

end

theorem undelivered_named {s : State} {p : Packet} {o : OutReq} (ho : s.twill.out.get p.reqId = some o)
    (hrequest : isResponse (bits (field p.payload 0 8) 0 4) = false) (hnode : bits (field p.payload 0 8) 25 17 = nodeId s) :
    undelivered s p = if p.retry || bit (field p.payload 0 8) 62 then unreachable s p.reqId else resend s p.reqId := by
  unfold undelivered
  dsimp only
  rw [ho]
  dsimp only
  rw [if_neg (by simp [hrequest, hnode])]
  simp only [Bool.or_eq_true]

/-! ### Progress and held requests (R442, R456, R457) -/

theorem listProgress_runs {s : State} {node r n : Nat} {q : Query} (hn : s.twill.serving.get (reqKey node r) = some n)
    (hq : s.host.queries.get n = some q) : listProgress s node r = sendMsg s [{ mkPkt 0xA node q.part with
      reqId := r, epoch := q.epoch, index := q.index, addr := 2 ^ 18, last := false, enc := false }] := by
  unfold listProgress
  rw [hn]
  dsimp only
  rw [hq]

section
variable {s : State} {node r : Nat} {h : Held} (hheld : heldOf s node r = some h)
include hheld

theorem heldResponse_answers : heldResponse s node r = answer s h.pkt (answerType h.pkt) stOk 1 := by
  unfold heldResponse
  rw [hheld]

theorem heldOf_answer (p : Packet) (typ status arg : Nat) : heldOf (answer s p typ status arg) node r = some h := by
  rw [heldOf, answer, sendMsg_own]
  exact hheld

theorem holdExpiry_forGen (hgen : h.forGen = true) : holdExpiry s node r = answerStale (s.mapOwn fun o => { o with
    held := o.held.filter fun x => !(x.pkt.src == node && x.pkt.reqId == r) }) h.pkt := by
  unfold holdExpiry
  rw [hheld]
  exact if_neg (by simp [hgen])

end

/-! ### O39 -/

/-- Settles O39: a whole packet's row is its function in the state in which the packet has left the inbox, and each function by the
equation of the branch that its hypotheses choose. That a READ that fails ends the request served with it, with its status, is the
model's choice (log entry 137). -/
theorem answersAndTimersComplete : Obligations.AnswersAndTimersComplete := by
  unfold Obligations.AnswersAndTimersComplete
  refine ⟨?read, ?lines, ?readFailed, ?ack, ?score, ?expand, ?list, ?undelivered, ?timers, ?progress, ?held, ?unmarked⟩
  case read =>
    intro s p o hp ho hgot hseq hlast hstatus
    exact packetRow_next hp (congrArg ceaseCheck (readRsp_data hgot hseq hlast ho hstatus))
  case lines =>
    rintro s u p o v a hp rfl ho hgot hseq hlast hstatus hserves - hread hleft hledger
    have hwait : (v.wait.filter fun w => w.1 != p.reqId) ≠ [] := List.ne_nil_of_length_pos (by omega)
    refine ⟨_, packetRow_next hp (congrArg ceaseCheck
      ((readRsp_data hgot hseq hlast ho hstatus).trans (serveData_waits (answerTaken_serves.trans hserves) hread hwait))), ?_⟩
    rw [ceaseCheck_noLedger]
    · rfl
    · rw [State.mapTwill_own, answerTaken_own]
      exact hledger
  case readFailed =>
    intro s p o hp ho hstatus
    exact packetRow_next hp (congrArg ceaseCheck (readRsp_failed ho hstatus))
  case ack =>
    intro s p o hp ho
    exact packetRow_next hp (if_pos (by rw [ho]; rfl))
  case score =>
    rintro s u p o hp rfl ho
    exact ⟨fun hstatus hpayload hheld => packetRow_next hp (walkRsp_held scoreData ho hstatus hpayload hheld),
      fun hstatus => packetRow_next hp (walkRsp_notOwner scoreData ho hstatus),
      fun hstatus => packetRow_next hp (walkRsp_staleMap scoreData ho hstatus),
      fun hstatus hpayload hlast hseq hgot => packetRow_next hp (walkRsp_data hgot hseq hlast scoreData ho hstatus hpayload)⟩
  case expand =>
    rintro s u p o hp rfl ho hstatus hpayload hlast hseq hgot
    exact packetRow_next hp (walkRsp_data hgot hseq hlast expandData ho hstatus hpayload)
  case list =>
    rintro s u p o hp rfl ho
    exact ⟨fun hprogress => packetRow_next hp (listPacket_progress ho hprogress),
      fun hprogress hlast hseq hgot => packetRow_next hp (listPacket_merges hgot hseq hlast ho hprogress)⟩
  case undelivered =>
    rintro s u p o hp rfl ho hrequest hnode
    exact packetRow_next hp (congrArg ceaseCheck (undelivered_named ho hrequest hnode))
  case timers =>
    intro s r o ho
    exact ⟨fun hfirst => congrArg Host.Outcome.next (resend_first ho hfirst),
      fun hkind hmarked => congrArg (fun t => Host.Outcome.next (ceaseCheck t)) (unreachable_readMarked ho hkind hmarked)⟩
  case progress =>
    intro s node r n q hn hq
    exact congrArg Host.Outcome.next (listProgress_runs hn hq)
  case held =>
    intro s node r h hheld
    have hanswer : exec (.heldResponseTimer node r) s = .next (answer s h.pkt (answerType h.pkt) stOk 1) :=
      congrArg Host.Outcome.next (heldResponse_answers hheld)
    exact ⟨hanswer, ⟨_, hanswer, heldOf_answer hheld _ _ _ _⟩,
      fun hgen => congrArg Host.Outcome.next (holdExpiry_forGen hheld hgen)⟩
  case unmarked =>
    intro s node
    rfl

end Sys2Proof.Machine
end

section
/-! PROOF. The token messages and the timers of ownership (15_composition_ownership R450, R458, R462 to R468; 20_usnea_management R636):
O40 and O41. -/
namespace Sys2Proof.Machine
open Sys2Proof

/-! ### A token message reaches its row (R462, R470) -/

/-- Under the hardware agent a whole token message acts on its segment's entry, once the packet has left the inbox. -/
theorem onToken_whole {s : State} {msg key g arg : Nat} {p : Packet} (h : tokenFor s msg p key g arg)
    (f : State → Nat → LedgerEnt → Nat → Nat → State) :
    onToken s msg p f = f (takePkt s p) key ((takePkt s p).token key) g arg := by
  obtain ⟨hmsg, hp, hread, hagent, hcomp⟩ := h
  rw [onToken, if_neg (not_not.2 hmsg), onPacket_whole hp, hread]
  exact if_pos ⟨hagent, hcomp⟩

theorem tokenRow_next {s t : State} {msg key g arg : Nat} {p : Packet} (h : tokenFor s msg p key g arg)
    {f : State → Nat → LedgerEnt → Nat → Nat → State} (ht : f (takePkt s p) key ((takePkt s p).token key) g arg = t) :
    (Host.Outcome.next (onToken s msg p f) : Out) = .next t := congrArg Host.Outcome.next ((onToken_whole h f).trans ht)

/-! ### Ceasing to serve (R463, R468) -/

section
variable {s : State} {key : Nat}

theorem cease_inService (h : inService s key = true) (c : Ceasing) :
    cease s key c = s.setToken key { s.token key with ceasing := some c } := if_pos h

theorem cease_idle (h : inService s key = false) (c : Ceasing) : cease s key c = ceased s key c := if_neg (by simp [h])

/-! ### Handover (R463, R465) -/

variable {x g : Nat} {e : LedgerEnt}

theorem onOffer_accepts (hlow : e.tgen < g) (hmax : g ≤ maxTgen) (hst : e.st = .none) :
    onOffer s x key e g = sendToken (s.setToken key { e with st := .accepted, tgen := g, peer := some x }) key x 2 g 0 :=
  if_pos ⟨hlow, hmax, .inl hst⟩

section
variable (hpeer : e.peer = some x)
include hpeer

theorem onAccept_offered (hst : e.st = .offered) (hgen : g = e.tgen + 1) :
    onAccept s x key e g = cease s key { kind := .confirm, node := some x, gen := g } := if_pos ⟨hst, hpeer, hgen⟩

variable (hgen : g = e.tgen)
include hgen

theorem onConfirm_accepted (hst : e.st = .accepted) : onConfirm s x key e g = enterHeld (sendToken s key x 4 g 0) key g (some x) :=
  if_pos ⟨hpeer, hgen, .inl hst⟩

theorem onTaken_confirmed (hst : e.st = .confirmed) : onTaken s x key e g = (s.setToken key { e with st := .none }).event .ownEvent 0 2 :=
  if_pos ⟨hst, hpeer, hgen⟩

theorem onWithdraw_accepted (hst : e.st = .accepted) : onWithdraw s x key e g = releaseHeld (s.setToken key { e with st := .none }) :=
  if_pos ⟨hst, hpeer, hgen⟩

end

/-! ### Claims (R468) -/

theorem onRevoke_above (h : e.tgen < g) :
    onRevoke s x key e g = releaseHeld (cease s key { kind := .revoke, node := some x, gen := g }) := if_pos h

theorem onRevoke_refused (h : g ≤ e.tgen) : onRevoke s x key e g = sendToken s key x 7 e.tgen 1 := if_neg (by omega)

theorem onRevokeAck_acknowledged {arg : Nat} (hst : e.st = .claiming) (hwaits : e.waitAck.contains x = true) (hgen : e.tgen ≤ g)
    (hgranted : bit arg 0 = false) :
    onRevokeAck s x key e g arg = if (delSet e.waitAck x).isEmpty
      then claimDone (s.setToken key { e with waitAck := delSet e.waitAck x }) key { e with waitAck := delSet e.waitAck x }
      else s.setToken key { e with waitAck := delSet e.waitAck x } := by
  rw [onRevokeAck, if_neg (not_or.2 ⟨not_not.2 hst, not_or.2 ⟨by rw [hwaits]; exact Bool.false_ne_true, Nat.not_lt.2 hgen⟩⟩),
    if_neg (by simp [hgranted])]

end

/-! ### Composition epochs (R450) -/

theorem onAnnounce_anchor {s : State} {p : Packet} {key g arg : Nat} {c : Comp} (hread : readToken p = some (key, g, arg))
    (hlive : liveComp s (key / 2 ^ 25) = some c) (hanchor : genAnchor c.now = p.src) :
    onAnnounce s p = releaseQueries (bindTo s (key / 2 ^ 25) (bits arg 0 48)) := by
  unfold onAnnounce
  rw [hread]
  dsimp only
  rw [hlive]
  exact if_neg (not_not.2 hanchor)

theorem anchorSilent_binds {s : State} {k : Nat} {c : Comp} (hlive : liveComp s k = some c) (hanchor : genAnchor c.now ≠ nodeId s) :
    anchorSilent s k = releaseQueries ((bindTo s k (c.bound + 1)).event .ownEvent 0 9) := by
  unfold anchorSilent
  rw [hlive]
  exact if_neg hanchor

/-! ### O40 -/

/-- Settles O40: a token message's row is its function of the segment's entry in the state in which the packet has left the inbox
(`onToken_whole`), and each function by the equation of the branch that its hypotheses choose. -/
theorem tokenMessagesComplete : Obligations.TokenMessagesComplete := by
  unfold Obligations.TokenMessagesComplete
  refine ⟨?offer, ?accept, ?confirm, ?taken, ?withdraw, ?revoke, ?revokeAck, ?announce⟩
  case offer =>
    rintro s u p key g arg e hp rfl rfl hlow hmax hst
    exact tokenRow_next hp (onOffer_accepts hlow hmax hst)
  case accept =>
    rintro s u p key g arg e hp rfl rfl hst hpeer hgen
    exact ⟨fun hidle => tokenRow_next hp ((onAccept_offered hpeer hst hgen).trans (cease_idle hidle _)),
      fun hbusy => tokenRow_next hp ((onAccept_offered hpeer hst hgen).trans (cease_inService hbusy _))⟩
  case confirm =>
    rintro s u p key g arg e hp rfl rfl hst hpeer hgen
    exact tokenRow_next hp (onConfirm_accepted hpeer hgen hst)
  case taken =>
    rintro s u p key g arg e hp rfl rfl hst hpeer hgen
    exact tokenRow_next hp (onTaken_confirmed hpeer hgen hst)
  case withdraw =>
    rintro s u p key g arg e hp rfl rfl hst hpeer hgen
    exact tokenRow_next hp (onWithdraw_accepted hpeer hgen hst)
  case revoke =>
    rintro s u p key g arg hp rfl
    exact ⟨fun habove hidle => tokenRow_next hp ((onRevoke_above habove).trans (congrArg releaseHeld (cease_idle hidle _))),
      fun habove hbusy => tokenRow_next hp ((onRevoke_above habove).trans (congrArg releaseHeld (cease_inService hbusy _))),
      fun hbelow => tokenRow_next hp (onRevoke_refused hbelow)⟩
  case revokeAck =>
    rintro s u p key g arg e hp rfl rfl hst hwaits hgen hgranted
    exact tokenRow_next hp (onRevokeAck_acknowledged hst hwaits hgen hgranted)
  case announce =>
    rintro s u p key g arg c ⟨hmsg, hp, hread, -, -⟩ rfl hlive hanchor
    exact congrArg Host.Outcome.next ((if_neg (not_not.2 hmsg)).trans ((onPacket_whole hp _).trans (onAnnounce_anchor hread hlive hanchor)))

/-! ### The ledger under reports, and after a write of any entry but the initial one -/

@[simp] theorem raiseEvent_own (s : State) (b : Nat) (body : List Byte) : (raiseEvent s b body).own = s.own := by
  unfold raiseEvent
  dsimp only
  split
  · rfl
  · exact eventIf_own _ _ _ _ _

@[simp] theorem event_token (s : State) (r : Reg) (u b key : Nat) : (s.event r u b).token key = s.token key := by
  rw [State.token, event_own, State.token]

theorem ledgerEnt_ne_initial {e : LedgerEnt} (h : e.st ≠ .none) : e ≠ LedgerEnt.initial := fun he => h (he ▸ rfl)

/-- Unlike `token_setToken_same`, this needs no rising keys: an entry other than the initial one is put, not removed. -/
theorem token_setToken_of_ne (s : State) (key : Nat) {e : LedgerEnt} (h : e ≠ LedgerEnt.initial) : (s.setToken key e).token key = e :=
  Smap.getD_store_of_ne _ _ _ _ h

/-- The reports of a segment count afresh from each that goes out (R636). -/
theorem sendUnresolved_unresolved (s : State) (key : Nat) : (sendUnresolved s key).own.unresolved = s.own.unresolved.put key 0 := by
  unfold sendUnresolved
  dsimp only
  rw [State.mapOwn_own, raiseEvent_own]

/-! ### The drain timer of a composition (R458, R463) -/

theorem drainExpiry_offers {s : State} {k : Nat} {c : Comp} (hc : s.own.comps.get k = some c) (hdraining : c.draining = true) :
    drainExpiry s k = (compKeys s k).foldl offer (s.mapOwn fun o => { o with
      comps := o.comps.upd k fun c => { c with draining := false } }) := by
  unfold drainExpiry
  rw [hc]
  exact if_neg (by simp [hdraining])

/-! ### The timers of a segment (R464, R636) -/

/-- Message and generation that a node waiting in a handover sends again: OFFER, ACCEPT or CONFIRM (R464). -/
def handoverMsg (e : LedgerEnt) : Option (Nat × Nat) :=
  match e.st with
  | .offered => some (1, e.tgen + 1)
  | .accepted => some (2, e.tgen)
  | .confirmed => some (3, e.tgen)
  | _ => none

section
variable {s : State} {n key : Nat} (hkey : segKey s n = some key)
include hkey

theorem tokenResend_sends {msg g : Nat} (hagent : hwAgent s = true) (hmsg : handoverMsg (s.token key) = some (msg, g)) :
    tokenResend s n = sendToken s key ((s.token key).peer.getD noNode) msg g 0 := by
  unfold tokenResend
  rw [hkey]
  dsimp only
  rw [if_neg (by simp [hagent])]
  unfold handoverMsg at hmsg
  cases hst : (s.token key).st <;> rw [hst] at hmsg <;> cases hmsg <;> rfl

theorem handoverTimeout_offered (hagent : hwAgent s = true) (hst : (s.token key).st = .offered) :
    handoverTimeout s n = ((sendToken s key ((s.token key).peer.getD noNode) 5 ((s.token key).tgen + 1) 0).setToken key { s.token key with
      st := .held, again := true, ceasing := none }).event .ownEvent 0 3 := by
  unfold handoverTimeout
  rw [hkey]
  dsimp only
  rw [hst, if_pos hagent]

theorem handoverTimeout_accepted (hst : (s.token key).st = .accepted) :
    handoverTimeout s n = releaseHeld (markUnresolved ((s.setToken key { s.token key with st := .none }).event .ownEvent 0 3) key) := by
  unfold handoverTimeout
  rw [hkey]
  dsimp only
  rw [hst]

theorem handoverTimeout_confirmed (hst : (s.token key).st = .confirmed) : handoverTimeout s n = markUnresolved s key := by
  unfold handoverTimeout
  rw [hkey]
  dsimp only
  rw [hst]

theorem unresolvedRepeat_sends (h : s.own.unresolved.has key = true) : unresolvedRepeat s n = sendUnresolved s key := by
  unfold unresolvedRepeat
  rw [hkey]
  exact if_pos h

end

/-! ### O41 -/

/-- Settles O41: each timer's row by the equation of the branch that its hypotheses choose. A node whose offer timed out stands in HELD
because a HELD entry is not the initial one (`token_setToken_of_ne`). -/
theorem tokenTimersComplete : Obligations.TokenTimersComplete := by
  unfold Obligations.TokenTimersComplete
  refine ⟨?drain, ?waiting, ?unresolved, ?silent, ?repeats⟩
  case drain =>
    intro s k c hc hdraining
    exact congrArg Host.Outcome.next (drainExpiry_offers hc hdraining)
  case waiting =>
    rintro s n key e hkey rfl hagent
    have hresend {msg g : Nat} (hmsg : handoverMsg (s.token key) = some (msg, g)) :
        exec (.tokenResend n) s = .next (sendToken s key ((s.token key).peer.getD noNode) msg g 0) :=
      congrArg Host.Outcome.next (tokenResend_sends hkey hagent hmsg)
    refine ⟨fun hst => hresend (by rw [handoverMsg, hst]), fun hst => hresend (by rw [handoverMsg, hst]),
      fun hst => hresend (by rw [handoverMsg, hst]), fun hst => ?_⟩
    have htimeout : exec (.handoverTimeout n) s = .next (handoverTimeout s n) := rfl
    rw [handoverTimeout_offered hkey hagent hst] at htimeout
    refine ⟨htimeout, _, htimeout, ?_, hasEvent_event _ _ _ (by decide)⟩
    rw [event_token, token_setToken_of_ne _ _ (ledgerEnt_ne_initial Token.noConfusion)]
  case unresolved =>
    rintro s n key e hkey rfl
    exact ⟨fun hst => congrArg Host.Outcome.next (handoverTimeout_accepted hkey hst),
      fun hst => congrArg Host.Outcome.next (handoverTimeout_confirmed hkey hst)⟩
  case silent =>
    intro s k c hlive hanchor
    exact congrArg Host.Outcome.next (anchorSilent_binds hlive hanchor)
  case repeats =>
    intro s n key hkey hunresolved
    have hrepeat : exec (.unresolvedEventRepeat n) s = .next (sendUnresolved s key) :=
      congrArg Host.Outcome.next (unresolvedRepeat_sends hkey hunresolved)
    exact ⟨hrepeat, _, hrepeat, sendUnresolved_unresolved s key⟩

end Sys2Proof.Machine
end

section
/-! PROOF. Re-encryption of T3 and T5 (16_isolation_security R487, R488): O11. -/
namespace Sys2Proof.Machine
open Sys2Proof

@[simp] theorem charge_sec (s : State) (p t n : Nat) : (charge s p t n).sec = s.sec := by
  unfold charge
  split <;> rfl

/-- The check for the sweeps' end may discard the old keys, but it leaves every rekey record as it is. -/
@[simp] theorem rekeyCheck_rekey (s : State) (p : Nat) : (rekeyCheck s p).sec.rekey = s.sec.rekey := by
  unfold rekeyCheck
  split
  · rfl
  · split
    · rfl
    · rw [event_sec, State.mapSec_sec]

section
variable {s : State} {p : Nat} {k : Rekey} (hkey : s.sec.rekey.get p = some k)
include hkey

/-- A swatch is charged twice, once as read and once as written, and the mark passes it. -/
theorem rekeySwatch_moves (hactive : k.t3Active = true) (hrate : zeroRate s p tT3 = false) :
    rekeySwatch s p = rekeyCheck ((charge (charge s p tT3 4096) p tT3 4096).mapSec fun x => { x with
      rekey := x.rekey.put p { k with mark := k.mark + 4096, t3Active := decide (k.mark + 4096 < k.last) } }) p := by
  simp [rekeySwatch, hkey, hactive, hrate]

theorem t5Rewrite_ends {l : Nat} (hactive : k.t5Active = true) (hready : s.felt.ready = true) (hrate : zeroRate s p tT5 = false)
    (hmap : s.felt.map.get l = none) (hold : oldCodewords s p = []) :
    t5Rewrite s p l = rekeyCheck (s.mapSec fun x => { x with rekey := x.rekey.put p { k with t5Active := false } }) p := by
  simp [t5Rewrite, hkey, hactive, hready, hrate, hmap, hold]

end

/-- Settles O11: each row by the equation of the branch that its hypotheses choose; neither its charges nor the check for the sweeps'
end touches the record that it has put. -/
theorem rekeyRowsComplete : Obligations.RekeyRowsComplete := by
  unfold Obligations.RekeyRowsComplete
  refine ⟨?swatch, ?codeword⟩
  case swatch =>
    intro s p k hkey hactive _ hrate
    refine ⟨_, congrArg Host.Outcome.next (rekeySwatch_moves hkey hactive hrate), ?_⟩
    rw [rekeyCheck_rekey, State.mapSec_sec, Smap.get_put_same]
  case codeword =>
    intro s p l k hkey _ hactive hready hrate hmap hold
    refine ⟨_, congrArg Host.Outcome.next (t5Rewrite_ends hkey hactive hready hrate hmap hold), ?_⟩
    rw [rekeyCheck_rekey, State.mapSec_sec, Smap.get_put_same]

end Sys2Proof.Machine
end

section
/-! PROOF. The commands that Usnea serves (16_isolation_security R484, R495 to R497, 18_command_set R575, R576): what serving a
command does, what each security command does while it is served, and at the end O10. -/
namespace Sys2Proof.Machine
open Sys2Proof

/-! ### Serving a command (R606) -/

/-- The state in which Usnea serves command `n`, which no longer waits for it. -/
def served (s : State) (n : Nat) : State := s.mapUsnea fun u => { u with waitCmds := delSet u.waitCmds n }

theorem usneaServed_up {s : State} (hup : usneaUp s = true) (n : Nat) (f : State → State) : usneaServed s n f = f (served s n) :=
  if_pos hup

theorem usneaServed_down {s : State} (hdown : usneaUp s = false) (n : Nat) (f : State → State) :
    usneaServed s n f = s.mapUsnea fun u => { u with waitCmds := addSet u.waitCmds n } :=
  if_neg (by simp [hdown])

@[simp] theorem served_cmds (s : State) (n : Nat) : (served s n).host.cmds = s.host.cmds := rfl

/-- An admitted command ends in every state that keeps the command table. -/
theorem admittedAs.endedWith_endWith {s t : State} {n op : Nat} {c : Cmd} (h : admittedAs s n c op) (hcmds : t.host.cmds = s.host.cmds) (st : Nat) :
    endedWith (endWith t n st) n st :=
  finish_endedWith (hcmds ▸ h.get) h.not_done st 0 0

/-! ### What an accepted message leaves -/

theorem extendMeas_sec (s : State) (m : Nat) (d : List Byte) :
    (extendMeas s m d).sec = { s.sec with meas := s.sec.meas.put m (Config.sha384 (measOf s m ++ d)) } := rfl

@[simp] theorem extendMeas_cmds (s : State) (m : Nat) (d : List Byte) : (extendMeas s m d).host.cmds = s.host.cmds := rfl

/-! ### KEY_PROVISION (R484) -/

/-- The state in which an accepted key provisioning message has put its key and its counter. -/
def kekStored (s : State) (b kek : List Byte) : State :=
  s.mapSec fun x => { x with kek := x.kek.put (field b 0x04 1) kek, counter := x.counter.put (field b 0x04 1) (field b 0x10 8) }

@[simp] theorem kekStored_cmds (s : State) (b kek : List Byte) : (kekStored s b kek).host.cmds = s.host.cmds := rfl

section
variable {s : State} {n : Nat} {c : Cmd} (hblock : s.blockOut 14 = false) (hup : usneaUp s = true)
include hblock hup

theorem keyProvision_rejects (hkek : provisionedKek (served s n) (inputData (served s n) c.entry) = none) :
    keyProvision s n c = endWith (served s n) n stInvalid := by
  simp [keyProvision, hblock, usneaServed_up hup, hkek]

theorem keyProvision_stores {kek : List Byte} (hkek : provisionedKek (served s n) (inputData (served s n) c.entry) = some kek) :
    keyProvision s n c = endWith ((extendMeas (kekStored (served s n) (inputData (served s n) c.entry) kek) 6
      (Config.sha384 (inputData (served s n) c.entry))).event .secEvent 0 5) n stOk := by
  simp [keyProvision, hblock, usneaServed_up hup, hkek, kekStored]

/-! ### The security fuses (R496) -/

section
variable {op : Nat} (hop : field (inputData s c.entry) 0x04 1 = op) {f : State → List Byte → State}
include hop

theorem securityFuse_runs (hform : fuseForm (inputData s c.entry) = true) :
    securityFuse s n op c f = f (served s n) (inputData s c.entry) := by
  simp [securityFuse, hblock, usneaServed_up hup, hop, hform]

/-- A request out of form ends in every row, and one in form ends where the row of its OP ends it. -/
theorem securityFuse_rejects
    (hbad : fuseForm (inputData s c.entry) = false ∨ f (served s n) (inputData s c.entry) = endWith (served s n) n stInvalid) :
    securityFuse s n op c f = endWith (served s n) n stInvalid := by
  cases hform : fuseForm (inputData s c.entry)
  · simp [securityFuse, hblock, usneaServed_up hup, hform]
  · exact (securityFuse_runs hblock hup hop hform).trans (hbad.resolve_left (by simp [hform]))

end

end

theorem fuseDone_sec (s : State) (n : Nat) (b : List Byte) :
    (fuseDone s n b).sec = { s.sec with meas := s.sec.meas.put 6 (Config.sha384 (measOf s 6 ++ Config.sha384 b)) } := by
  rw [fuseDone, endWith_sec, event_sec, extendMeas_sec]

theorem admittedAs.endedWith_fuseDone {s t : State} {n op : Nat} {c : Cmd} (h : admittedAs s n c op) (hcmds : t.host.cmds = s.host.cmds)
    (b : List Byte) : endedWith (fuseDone t n b) n stOk :=
  h.endedWith_endWith (by rw [event_host_cmds, extendMeas_cmds, hcmds]) stOk

section
variable {s : State} {n : Nat} {b : List Byte}

/-- While no slot is provisioned, the first provisioning needs no signature. -/
theorem fuseProvision_first (hk : field b 0x05 1 < 4) (hunsigned : zeroAt b 0x100 256 = true)
    (hfresh : ∀ i, i < 4 → s.sec.slots.getD i .unprovisioned = .unprovisioned) :
    fuseProvision s n b = fuseDone (s.mapSec fun x => { x with
      slots := x.slots.put (field b 0x05 1) .provisioned, digests := x.digests.put (field b 0x05 1) (slice b 0x20 48) }) n b := by
  have hany : ((List.range 4).any fun i => s.sec.slots.getD i .unprovisioned != .unprovisioned) = false := by
    simpa using hfresh
  simp [fuseProvision, hany, hk, hfresh _ hk, hunsigned]

theorem fuseRevoke_signed (hlive : slotLive s (field b 0x05 1) = true) (hother : field b 0x06 1 ≠ field b 0x05 1)
    (hsigned : signedBy s b (field b 0x06 1) = true) :
    fuseRevoke s n b = fuseDone (s.mapSec fun x => { x with slots := x.slots.put (field b 0x05 1) .revoked }) n b :=
  if_pos ⟨hlive, hother, hsigned⟩

theorem fuseRevoke_unsigned (hsigned : signedBy s b (field b 0x06 1) = false) : fuseRevoke s n b = endWith s n stInvalid :=
  if_neg (by simp [hsigned])

theorem fuseRaise_signed (hpos : 0 < field b 0x07 1) (hk : field b 0x07 1 ≤ 3) (hless : s.sec.svn.getD (field b 0x07 1) 0 < field b 0x10 4)
    (hrows : s.sec.rows.getD (field b 0x07 1) 0 < 64) (hsigned : signedBy s b (field b 0x06 1) = true) :
    fuseRaise s n b = fuseDone (s.mapSec fun x => { x with
      svn := x.svn.put (field b 0x07 1) (field b 0x10 4)
      rows := x.rows.put (field b 0x07 1) (x.rows.getD (field b 0x07 1) 0 + 1) }) n b := by
  have hok : ¬(field b 0x07 1 = 0 ∨ field b 0x07 1 > 3 ∨ field b 0x10 4 ≤ s.sec.svn.getD (field b 0x07 1) 0 ∨
      (!signedBy s b (field b 0x06 1)) = true) := by
    rw [hsigned]
    simp only [Bool.not_true, Bool.false_eq_true, or_false]
    omega
  exact (if_neg hok).trans (if_neg (Nat.not_le.2 hrows))

theorem fuseRaise_unsigned (hsigned : signedBy s b (field b 0x06 1) = false) : fuseRaise s n b = endWith s n stInvalid :=
  if_pos (by simp [hsigned])

end

/-! ### ATTEST and CERTIFICATE (R497, R576) -/

/-- Both scopes answer the physical function; the partition's answers every function. -/
theorem attest_reports {s : State} {n : Nat} {c : Cmd} (hup : usneaUp s = true) (hlen : ePbLen c.entry = 64)
    (hroom : eResultLen c.entry ≥ 864) (hzero : zeroAt (paramBlock (served s n) c.entry) 0x31 15 = true)
    (hscope : field (paramBlock (served s n) c.entry) 0x30 1 = 2 ∨
      (field (paramBlock (served s n) c.entry) 0x30 1 = 1 ∧ c.byPf = true)) {r : List Byte}
    (hr : r = attestReport (served s n) (field (paramBlock (served s n) c.entry) 0x30 1) c.part (slice (paramBlock (served s n) c.entry) 0 48)) :
    attest s n c = finish (putResult (served s n) n 0 r) n stOk r.length 0 := by
  have hok : ¬(ePbLen c.entry ≠ 64 ∨ eResultLen c.entry < 864 ∨ (!zeroAt (paramBlock (served s n) c.entry) 0x31 15) = true ∨
      (field (paramBlock (served s n) c.entry) 0x30 1 ≠ 1 ∧ field (paramBlock (served s n) c.entry) 0x30 1 ≠ 2) ∨
      (field (paramBlock (served s n) c.entry) 0x30 1 = 1 ∧ (!c.byPf) = true)) := by
    have hshort : ¬eResultLen c.entry < 864 := Nat.not_lt.2 hroom
    obtain hpart | ⟨hdevice, hpf⟩ := hscope
    · simp [hlen, hshort, hzero, hpart]
    · simp [hlen, hshort, hzero, hdevice, hpf]
  subst hr
  exact (usneaServed_up hup n _).trans (if_neg hok)

theorem certificate_reports {s : State} {n : Nat} {c : Cmd} (hup : usneaUp s = true) (hroom : eResultLen c.entry ≥ 8192) :
    certificate s n c =
      finish (putResult (served s n) n 0 (s.usnea.certs.take 8192)) n stOk (s.usnea.certs.take 8192).length 0 :=
  (usneaServed_up hup n _).trans (if_neg (Nat.not_lt.2 hroom))

/-! ### O10 -/

/-- Settles O10: each row is its function of the command that it finds admitted, and each function by the equation of the branch that
its hypotheses choose in the state in which Usnea serves the command (`served`). -/
theorem securityCommandsComplete : Obligations.SecurityCommandsComplete := by
  unfold Obligations.SecurityCommandsComplete
  refine ⟨?key, ?provision, ?revoke, ?raise, ?attest, ?certificate, ?waits⟩
  case key =>
    intro s n c hadm hblock hup
    refine ⟨_, congrArg Host.Outcome.next (onAdmitted_of hadm _), ?_⟩
    rintro _ rfl
    refine ⟨fun kek hkek => ?_, keyProvision_rejects hblock hup⟩
    rw [keyProvision_stores hblock hup hkek, endWith_sec, event_sec, extendMeas_sec]
    exact ⟨Smap.get_put_same _ _ _, Smap.get_put_same _ _ _, (hasEvent_event _ _ _ (by decide)).finish _ _ _ _,
      hadm.endedWith_endWith (by rw [event_host_cmds, extendMeas_cmds, kekStored_cmds, served_cmds]) _⟩
  case provision =>
    rintro s n k c b hadm hblock hup rfl hop rfl hk hunsigned hfresh
    refine ⟨_, congrArg Host.Outcome.next (onAdmitted_of hadm _), fun hform => ?_, fun hform => ?_⟩
    · rw [securityFuse_rejects hblock hup hop (.inl hform)]
      exact ⟨hadm.endedWith_endWith (served_cmds s n) _, endWith_sec _ _ _⟩
    · rw [securityFuse_runs hblock hup hop hform, fuseProvision_first (s := served s n) hk hunsigned hfresh, fuseDone_sec]
      exact ⟨Smap.get_put_same _ _ _, Smap.get_put_same _ _ _, hadm.endedWith_fuseDone (by rw [State.mapSec_host, served_cmds]) _⟩
  case revoke =>
    rintro s n k g c b hadm hblock hup rfl hop rfl rfl hlive hother
    refine ⟨_, congrArg Host.Outcome.next (onAdmitted_of hadm _), fun hform hsigned => ?_, fun hbad => ?_⟩
    · rw [securityFuse_runs hblock hup hop hform, fuseRevoke_signed (s := served s n) hlive hother hsigned, fuseDone_sec]
      exact ⟨Smap.get_put_same _ _ _, hadm.endedWith_fuseDone (by rw [State.mapSec_host, served_cmds]) _⟩
    · rw [securityFuse_rejects hblock hup hop (hbad.imp_right (fuseRevoke_unsigned (s := served s n))), endWith_sec]
      exact ⟨rfl, hadm.endedWith_endWith (served_cmds s n) _⟩
  case raise =>
    rintro s n k v c b hadm hblock hup rfl hop rfl rfl hpos hk hless hrows
    refine ⟨_, congrArg Host.Outcome.next (onAdmitted_of hadm _), fun hform hsigned => ?_, fun hbad => ?_⟩
    · rw [securityFuse_runs hblock hup hop hform, fuseRaise_signed (s := served s n) hpos hk hless hrows hsigned, fuseDone_sec]
      exact ⟨Smap.get_put_same _ _ _, Smap.get_put_same _ _ _, hadm.endedWith_fuseDone (by rw [State.mapSec_host, served_cmds]) _⟩
    · rw [securityFuse_rejects hblock hup hop (hbad.imp_right (fuseRaise_unsigned (s := served s n))), endWith_sec]
      exact ⟨rfl, hadm.endedWith_endWith (served_cmds s n) _⟩
  case attest =>
    rintro s n c _ hadm hup rfl hlen hroom hzero hscope r hr
    exact congrArg Host.Outcome.next ((onAdmitted_of hadm _).trans (attest_reports hup hlen hroom hzero hscope hr))
  case certificate =>
    rintro s n c _ hadm hup hroom rfl
    exact congrArg Host.Outcome.next ((onAdmitted_of hadm _).trans (certificate_reports hup hroom))
  case waits =>
    intro s n c hadm hdown
    exact congrArg Host.Outcome.next ((onAdmitted_of hadm _).trans (usneaServed_down hdown n _))

end Sys2Proof.Machine
end

section
/-! FRAMES. One relation between two states says what a command may do to the rest of the machine: nothing outside a list of parts
changes, and memories in canonical form stay so. Each function of the model has one lemma, of which the proof follows the function's
text: the last change outermost, `.refl` at the state from which it starts. -/
namespace Sys2Proof.Machine
open Sys2Proof
-- The parts that a lemma lists are decided where it is used, and a proof elaborated on the side would hold a thread until then.
set_option Elab.async false

/-- Between two states nothing but the listed parts differs, and the second has its memories in canonical form where the first has. -/
structure Frame (ps : List Part) (s t : State) : Prop where
  same : ∀ p, p ∉ ps → samePart p s t
  canon : memoryOk s = true → memoryOk t = true

/-- Every part but the queue of waiting commands. -/
def allButQueue : List Part :=
  [.regs, .img, .host, .shards, .lichen, .epoch, .model, .mem, .felt, .twill, .own, .sec, .ras, .usnea, .power, .free]

/-- What a reset of the device can change. -/
def resetParts : List Part :=
  [.regs, .img, .host, .shards, .lichen, .epoch, .model, .mem, .felt, .twill, .own, .sec, .ras, .usnea, .power]

/-- What a unit that is taken out of service or powered down can change. -/
def serviceParts : List Part :=
  [.regs, .host, .shards, .lichen, .epoch, .model, .mem, .felt, .twill, .ras, .usnea, .power, .free]

/-- What a fence of a unit and of those in it can change. -/
def fenceParts : List Part :=
  [.regs, .host, .shards, .lichen, .epoch, .model, .mem, .felt, .twill, .ras, .usnea, .free]

/-- What a step of the sweeps can change. -/
def sweepParts : List Part :=
  [.regs, .host, .shards, .lichen, .epoch, .model, .mem, .twill, .sec, .ras, .usnea, .free]

/-- What a fault of one unit can change. -/
def faultParts : List Part :=
  [.regs, .host, .shards, .lichen, .epoch, .model, .mem, .twill, .ras, .usnea, .free]

theorem samePart_refl (p : Part) (s : State) : samePart p s s := by
  cases p <;> rfl

theorem samePart_trans {p : Part} {s t u : State} (h : samePart p s t) (g : samePart p t u) : samePart p s u := by
  cases p <;> exact Eq.trans g h

theorem memoryOk_iff (s : State) : memoryOk s = true ↔
    ((memWf 0 s.mem.t1 = true ∧ memWf 0 s.mem.t3 = true) ∧ memWf 0 s.lichen.t2 = true) ∧ memWf 0 s.host.mem = true := by
  simp only [memoryOk, Bool.and_eq_true]

theorem Smap.wf_filter {α : Type} {m : Smap α} (h : m.wf = true) (p : Nat × α → Bool) : Smap.wf (m.filter p) = true := by
  induction m with
  | nil => rfl
  | cons e t ih =>
    rw [List.filter_cons]
    split
    · exact Smap.wf_cons (ih (Smap.wf_tail h)) fun x hx => Smap.wf_lt h x (List.mem_filter.1 hx).1
    · exact ih (Smap.wf_tail h)

theorem memWf_filter {α : Type} [DecidableEq α] {d : α} {m : Smap α} (h : memWf d m = true) (p : Nat × α → Bool) :
    memWf d (m.filter p) = true := by
  simp only [memWf, Bool.and_eq_true, List.all_eq_true] at h ⊢
  exact ⟨Smap.wf_filter h.1 p, fun e he => h.2 e (List.mem_filter.1 he).1⟩

theorem memWf_ne {α : Type} [DecidableEq α] {d : α} {m : Smap α} (h : memWf d m = true) {e : Nat × α} (he : e ∈ m) : e.2 ≠ d := by
  simp only [memWf, Bool.and_eq_true, List.all_eq_true, decide_eq_true_eq] at h
  exact h.2 e he

theorem memWf_foldl_put {α : Type} [DecidableEq α] {d : α} {m : Smap α} {k : Nat × α → Nat} (h : memWf d m = true) (l : List (Nat × α))
    (hl : ∀ e ∈ l, e.2 ≠ d) : memWf d (l.foldl (fun m e => Smap.put m (k e) e.2) m) = true := by
  induction l generalizing m with
  | nil => exact h
  | cons e l ih =>
    have hstore := memWf_store h (k e) e.2
    rw [Smap.store, if_neg (hl e List.mem_cons_self)] at hstore
    exact ih hstore fun x hx => hl x (List.mem_cons_of_mem e hx)

theorem memWf_foldl_zeroSheet {α : Type} {k : α → Nat} {m : MemState} (h : memWf 0 m.t1 = true ∧ memWf 0 m.t3 = true) (l : List α) :
    memWf 0 (l.foldl (fun m e => zeroSheet m (k e)) m).t1 = true ∧ memWf 0 (l.foldl (fun m e => zeroSheet m (k e)) m).t3 = true := by
  induction l generalizing m with
  | nil => exact h
  | cons u l ih => exact ih ⟨memWf_filter h.1 _, h.2⟩

theorem except_bind_ok {ε α β : Type} {x : Except ε α} {f : α → Except ε β} {b : β} (h : (x >>= f) = .ok b) : ∃ a, x = .ok a ∧ f a = .ok b := by
  cases x with
  | error e => cases h
  | ok a => exact ⟨a, rfl, h⟩

variable {ps qs : List Part} {s t u : State}

theorem Frame.refl : Frame ps s s := ⟨fun p _ => samePart_refl p s, id⟩

theorem Frame.trans (h : Frame ps s t) (hp : qs ⊆ ps) (g : Frame qs t u) : Frame ps s u :=
  ⟨fun p hn => samePart_trans (h.same p hn) (g.same p fun hq => hn (hp hq)), g.canon ∘ h.canon⟩

theorem Frame.ite {c : Prop} [Decidable c] (h : Frame ps s t) (g : Frame ps s u) : Frame ps s (if c then t else u) := by
  split
  · exact h
  · exact g

theorem Frame.foldl {α : Type} {f : State → α → State} {l : List α} (hf : ∀ {v : State} {x : α}, Frame ps s v → Frame ps s (f v x))
    (h : Frame ps s t) : Frame ps s (l.foldl f t) := by
  induction l generalizing t with
  | nil => exact h
  | cons x l ih => exact ih (hf h)

/-- A fold over pairs whose first half is a state. -/
theorem Frame.foldlFst {α β : Type} {f : State × β → α → State × β} {l : List α} {b : β}
    (hf : ∀ {v : State} {y : β} {x : α}, Frame ps s v → Frame ps s (f (v, y) x).1) (h : Frame ps s t) : Frame ps s (l.foldl f (t, b)).1 := by
  induction l generalizing t b with
  | nil => exact h
  | cons x l ih => exact ih (hf h)

theorem Frame.of_fst {β : Type} {x : State × β} {b : β} (hx : x = (t, b)) (h : Frame ps s x.1) : Frame ps s t := by
  subst hx
  exact h

/-! ### The changes of one part -/

theorem Frame.withRegs {x : RegFile} (h : Frame ps s t) (hp : [.regs] ⊆ ps := by decide) : Frame ps s { t with regs := x } :=
  h.trans hp ⟨fun p hn => by cases p <;> simp_all [samePart], id⟩

theorem Frame.mapRegs {f : RegFile → RegFile} (h : Frame ps s t) (hp : [.regs] ⊆ ps := by decide) : Frame ps s (t.mapRegs f) :=
  h.withRegs hp

theorem Frame.withImg {x : ImgState} (h : Frame ps s t) (hp : [.img] ⊆ ps := by decide) : Frame ps s { t with img := x } :=
  h.trans hp ⟨fun p hn => by cases p <;> simp_all [samePart], id⟩

theorem Frame.mapImg {f : ImgState → ImgState} (h : Frame ps s t) (hp : [.img] ⊆ ps := by decide) : Frame ps s (t.mapImg f) :=
  h.withImg hp

theorem Frame.withShards {x : Smap Shard} (h : Frame ps s t) (hp : [.shards] ⊆ ps := by decide) : Frame ps s { t with shards := x } :=
  h.trans hp ⟨fun p hn => by cases p <;> simp_all [samePart], id⟩

theorem Frame.mapShards {f : Smap Shard → Smap Shard} (h : Frame ps s t) (hp : [.shards] ⊆ ps := by decide) : Frame ps s (t.mapShards f) :=
  h.withShards hp

theorem Frame.withEpoch {x : EpochState} (h : Frame ps s t) (hp : [.epoch] ⊆ ps := by decide) : Frame ps s { t with epoch := x } :=
  h.trans hp ⟨fun p hn => by cases p <;> simp_all [samePart], id⟩

theorem Frame.mapEpoch {f : EpochState → EpochState} (h : Frame ps s t) (hp : [.epoch] ⊆ ps := by decide) : Frame ps s (t.mapEpoch f) :=
  h.withEpoch hp

theorem Frame.withModel {x : ModelState} (h : Frame ps s t) (hp : [.model] ⊆ ps := by decide) : Frame ps s { t with model := x } :=
  h.trans hp ⟨fun p hn => by cases p <;> simp_all [samePart], id⟩

theorem Frame.mapModel {f : ModelState → ModelState} (h : Frame ps s t) (hp : [.model] ⊆ ps := by decide) : Frame ps s (t.mapModel f) :=
  h.withModel hp

theorem Frame.withFelt {x : FeltState} (h : Frame ps s t) (hp : [.felt] ⊆ ps := by decide) : Frame ps s { t with felt := x } :=
  h.trans hp ⟨fun p hn => by cases p <;> simp_all [samePart], id⟩

theorem Frame.mapFelt {f : FeltState → FeltState} (h : Frame ps s t) (hp : [.felt] ⊆ ps := by decide) : Frame ps s (t.mapFelt f) :=
  h.withFelt hp

theorem Frame.withTwill {x : Twill} (h : Frame ps s t) (hp : [.twill] ⊆ ps := by decide) : Frame ps s { t with twill := x } :=
  h.trans hp ⟨fun p hn => by cases p <;> simp_all [samePart], id⟩

theorem Frame.mapTwill {f : Twill → Twill} (h : Frame ps s t) (hp : [.twill] ⊆ ps := by decide) : Frame ps s (t.mapTwill f) :=
  h.withTwill hp

theorem Frame.withOwn {x : OwnState} (h : Frame ps s t) (hp : [.own] ⊆ ps := by decide) : Frame ps s { t with own := x } :=
  h.trans hp ⟨fun p hn => by cases p <;> simp_all [samePart], id⟩

theorem Frame.mapOwn {f : OwnState → OwnState} (h : Frame ps s t) (hp : [.own] ⊆ ps := by decide) : Frame ps s (t.mapOwn f) :=
  h.withOwn hp

theorem Frame.withSec {x : SecState} (h : Frame ps s t) (hp : [.sec] ⊆ ps := by decide) : Frame ps s { t with sec := x } :=
  h.trans hp ⟨fun p hn => by cases p <;> simp_all [samePart], id⟩

theorem Frame.mapSec {f : SecState → SecState} (h : Frame ps s t) (hp : [.sec] ⊆ ps := by decide) : Frame ps s (t.mapSec f) :=
  h.withSec hp

theorem Frame.withRas {x : RasState} (h : Frame ps s t) (hp : [.ras] ⊆ ps := by decide) : Frame ps s { t with ras := x } :=
  h.trans hp ⟨fun p hn => by cases p <;> simp_all [samePart], id⟩

theorem Frame.mapRas {f : RasState → RasState} (h : Frame ps s t) (hp : [.ras] ⊆ ps := by decide) : Frame ps s (t.mapRas f) :=
  h.withRas hp

theorem Frame.withUsnea {x : UsneaState} (h : Frame ps s t) (hp : [.usnea] ⊆ ps := by decide) : Frame ps s { t with usnea := x } :=
  h.trans hp ⟨fun p hn => by cases p <;> simp_all [samePart], id⟩

theorem Frame.mapUsnea {f : UsneaState → UsneaState} (h : Frame ps s t) (hp : [.usnea] ⊆ ps := by decide) : Frame ps s (t.mapUsnea f) :=
  h.withUsnea hp

theorem Frame.withPower {x : PowerState} (h : Frame ps s t) (hp : [.power] ⊆ ps := by decide) : Frame ps s { t with power := x } :=
  h.trans hp ⟨fun p hn => by cases p <;> simp_all [samePart], id⟩

theorem Frame.mapPower {f : PowerState → PowerState} (h : Frame ps s t) (hp : [.power] ⊆ ps := by decide) : Frame ps s (t.mapPower f) :=
  h.withPower hp

theorem Frame.withHost {x : HostState} (h : Frame ps s t)
    (hx : memWf 0 t.host.mem = true → memWf 0 x.mem = true := by exact id) (hp : [.host] ⊆ ps := by decide) :
    Frame ps s { t with host := x } :=
  h.trans hp ⟨fun p hn => by cases p <;> simp_all [samePart], fun hm => by
    obtain ⟨hdev, hhost⟩ := (memoryOk_iff t).1 hm
    exact (memoryOk_iff _).2 ⟨hdev, hx hhost⟩⟩

theorem Frame.mapHost {f : HostState → HostState} (h : Frame ps s t)
    (hf : memWf 0 t.host.mem = true → memWf 0 (f t.host).mem = true := by exact id) (hp : [.host] ⊆ ps := by decide) :
    Frame ps s (t.mapHost f) :=
  h.withHost hf hp

theorem Frame.mapLichen {f : Lichen → Lichen} (h : Frame ps s t)
    (hf : memWf 0 t.lichen.t2 = true → memWf 0 (f t.lichen).t2 = true := by exact id) (hp : [.lichen] ⊆ ps := by decide) :
    Frame ps s (t.mapLichen f) :=
  h.trans hp ⟨fun p hn => by cases p <;> simp_all [samePart], fun hm => by
    obtain ⟨⟨hsheet, hlichen⟩, hhost⟩ := (memoryOk_iff t).1 hm
    exact (memoryOk_iff _).2 ⟨⟨hsheet, hf hlichen⟩, hhost⟩⟩

theorem Frame.mapMem {f : MemState → MemState} (h : Frame ps s t)
    (hf : memWf 0 t.mem.t1 = true ∧ memWf 0 t.mem.t3 = true → memWf 0 (f t.mem).t1 = true ∧ memWf 0 (f t.mem).t3 = true := by exact id)
    (hp : [.mem] ⊆ ps := by decide) : Frame ps s (t.mapMem f) :=
  h.trans hp ⟨fun p hn => by cases p <;> simp_all [samePart], fun hm => by
    obtain ⟨⟨hsheet, hlichen⟩, hhost⟩ := (memoryOk_iff t).1 hm
    exact (memoryOk_iff _).2 ⟨⟨hf hsheet, hlichen⟩, hhost⟩⟩


/-! ### Ops -/

theorem Frame.hostWrite {a : Nat} {b : List Byte} (h : Frame ps s t) (hp : [.host] ⊆ ps := by decide) : Frame ps s (hostWrite t a b) :=
  h.withHost (fun hm => memWf_memWrite hm a b) hp

theorem Frame.hostWrites {w : HostWrites} (h : Frame ps s t) (hp : [.host] ⊆ ps := by decide) : Frame ps s (hostWrites t w) :=
  h.trans hp <| by
    unfold Machine.hostWrites
    exact .foldl (fun h => .hostWrite h) .refl

theorem Frame.tickAlwaysOn (h : Frame ps s t) (hp : [.power] ⊆ ps := by decide) : Frame ps s (tickAlwaysOn t) :=
  .ite h (h.withPower hp)

theorem Frame.drawn (h : Frame ps s t) (hp : [.free] ⊆ ps := by decide) : Frame ps s t.drawn :=
  h.trans hp ⟨fun p hn => by cases p <;> simp_all [samePart], id⟩

/-! ### Operands -/

theorem Frame.writeExtents {l : List (Nat × Nat)} {off : Nat} {b : List Byte} (h : Frame ps s t) (hp : [.host] ⊆ ps := by decide) :
    Frame ps s (writeExtents t l off b) := by
  induction l generalizing t off b with
  | nil => exact h
  | cons x l ih =>
    unfold Machine.writeExtents
    exact .ite h (.ite (ih h) (ih (h.hostWrite hp)))

/-! ### Flags -/

theorem Frame.setReg {r : Reg} {n : Nat} {v : W32} (h : Frame ps s t) (hp : [.regs] ⊆ ps := by decide) : Frame ps s (t.setReg r n v) :=
  h.withRegs hp

theorem Frame.setShadow {r : Reg} {n : Nat} {v : W32} (h : Frame ps s t) (hp : [.regs] ⊆ ps := by decide) :
    Frame ps s (t.setShadow r n v) :=
  h.withRegs hp

theorem Frame.setRo {r : Reg} {n : Nat} {v : W32} (h : Frame ps s t) (hp : [.regs] ⊆ ps := by decide) : Frame ps s (t.setRo r n v) :=
  h.withRegs hp

theorem Frame.bump {r : Reg} {m n : Nat} (h : Frame ps s t) (hp : [.regs] ⊆ ps := by decide) : Frame ps s (t.bump r m n) :=
  h.trans hp <| by
    unfold State.bump
    exact .setRo .refl

theorem Frame.sendMsix {fn v : Nat} (h : Frame ps s t) (hp : [.host] ⊆ ps := by decide) : Frame ps s (sendMsix t fn v) := by
  obtain ⟨a, b, e⟩ := sendMsix_eq t fn v
  exact e ▸ h.mapHost id hp

theorem Frame.signalFn {fn : Nat} (h : Frame ps s t) (hp : [.host] ⊆ ps := by decide) : Frame ps s (signalFn t fn) := by
  obtain ⟨a, b, e⟩ := signalFn_eq t fn
  exact e ▸ h.mapHost id hp

theorem Frame.event {r : Reg} {n b : Nat} (h : Frame ps s t) (hp : [.regs, .host] ⊆ ps := by decide) : Frame ps s (t.event r n b) :=
  h.trans hp <| by
    obtain ⟨a, c, e⟩ := event_eq t r n b
    exact e ▸ .mapHost (.mapRegs .refl) id

theorem Frame.events {r : Reg} {n b k : Nat} (h : Frame ps s t) (hp : [.regs, .host] ⊆ ps := by decide) :
    Frame ps s (t.events r n b k) := by
  induction k generalizing t with
  | zero => exact h
  | succ k ih => exact ih (h.event hp)

theorem Frame.eventIf {c : Bool} {r : Reg} {n b : Nat} (h : Frame ps s t) (hp : [.regs, .host] ⊆ ps := by decide) :
    Frame ps s (t.eventIf c r n b) :=
  h.trans hp <| by
    unfold State.eventIf
    exact .ite (.event .refl) .refl

theorem Frame.writeError {req block off al cause : Nat} (h : Frame ps s t) (hp : [.regs, .host] ⊆ ps := by decide) :
    Frame ps s (writeError t req block off al cause) :=
  h.trans hp <| by
    obtain ⟨w, i, a, b, e⟩ := writeError_eq t req block off al cause
    exact e ▸ .mapHost (.mapRegs .refl) id

theorem Frame.latchViol {fn kind block detail : Nat} (h : Frame ps s t) (hp : [.sec] ⊆ ps := by decide) :
    Frame ps s (latchViol t fn kind block detail) :=
  .ite h (h.withSec hp)

theorem Frame.violation {fn kind block detail : Nat} (h : Frame ps s t) (hp : [.regs, .host, .sec] ⊆ ps := by decide) :
    Frame ps s (violation t fn kind block detail) :=
  h.trans hp <| by
    unfold Machine.violation
    exact .bump (.event (.latchViol .refl))

theorem Frame.fenceRefusal {tag kind detail : Nat} (h : Frame ps s t) (hp : [.regs, .host, .sec] ⊆ ps := by decide) :
    Frame ps s (fenceRefusal t tag kind detail) :=
  h.trans hp <| by
    unfold Machine.fenceRefusal
    exact .ite (.bump (.event (.latchViol .refl))) (.event (.latchViol .refl))

theorem Frame.tierRefusal {tag tier : Nat} (h : Frame ps s t) (hp : [.regs, .host, .sec] ⊆ ps := by decide) :
    Frame ps s (tierRefusal t tag tier) :=
  h.trans hp <| by
    unfold Machine.tierRefusal
    exact .event (.fenceRefusal .refl)

/-! ### Events -/

theorem Frame.raiseEvent {b : Nat} {body : List Byte} (h : Frame ps s t) (hp : [.regs, .host, .usnea] ⊆ ps := by decide) :
    Frame ps s (raiseEvent t b body) :=
  h.trans hp <| by
    unfold Machine.raiseEvent
    exact .ite .refl (.eventIf (.mapUsnea .refl))

/-! ### Faults -/

theorem Frame.setUnit {kind n : Nat} {r : UnitRec} (h : Frame ps s t) (hp : [.ras] ⊆ ps := by decide) : Frame ps s (t.setUnit kind n r) :=
  h.trans hp <| by
    unfold State.setUnit
    exact .mapRas .refl

theorem Frame.queueLog {p : Nat} {r : LRec} (h : Frame ps s t) (hp : [.regs, .host, .ras] ⊆ ps := by decide) :
    Frame ps s (queueLog t p r) :=
  h.trans hp <| by
    unfold Machine.queueLog
    exact .ite (.event .refl) (.mapRas .refl)

theorem Frame.ledgerAdd {p : Nat} {r : LRec} (h : Frame ps s t) (hp : [.regs, .host, .ras, .usnea] ⊆ ps := by decide) :
    Frame ps s (ledgerAdd t p r) :=
  h.trans hp <| by
    unfold Machine.ledgerAdd
    dsimp only
    refine .ite ?_ ?_
    · exact .event (.ite (.raiseEvent (.event (.bump (.mapRas .refl)))) (.mapRas .refl))
    · exact .queueLog (.event (.ite (.raiseEvent (.event (.bump (.mapRas .refl)))) (.mapRas .refl)))

theorem Frame.ledgerMap {p : Nat} {f : LRec → LRec} (h : Frame ps s t) (hp : [.ras] ⊆ ps := by decide) : Frame ps s (ledgerMap t p f) :=
  h.trans hp <| by
    unfold Machine.ledgerMap
    exact .mapRas .refl

theorem Frame.faultRecord {cls kind n addr : Nat} {parts cmds : List Nat}
    (h : Frame ps s t) (hp : [.regs, .host, .ras, .usnea] ⊆ ps := by decide) :
    Frame ps s (faultRecord t cls kind n addr parts cmds) :=
  h.trans hp <| by
    unfold Machine.faultRecord
    exact .foldl (fun h => .mapRas (.ledgerAdd h)) (.event (.mapRas .refl))

theorem Frame.countAffected {n : Nat} (h : Frame ps s t) (hp : [.ras] ⊆ ps := by decide) : Frame ps s (countAffected t n) :=
  h.trans hp <| by
    unfold Machine.countAffected
    exact .foldl (fun h => .ledgerMap h) .refl

theorem Frame.extendMeas {m : Nat} {d : List Byte} (h : Frame ps s t) (hp : [.sec] ⊆ ps := by decide) : Frame ps s (extendMeas t m d) :=
  h.trans hp <| by
    unfold Machine.extendMeas
    exact .mapSec .refl

/-! ### Commands -/

theorem Frame.updCmd {n : Nat} {f : Cmd → Cmd} (h : Frame ps s t) (hp : [.host] ⊆ ps := by decide) : Frame ps s (t.updCmd n f) :=
  h.trans hp <| by
    unfold State.updCmd
    exact .mapHost .refl

theorem Frame.dropSweeps {n : Nat} (h : Frame ps s t) (hp : [.host, .lichen] ⊆ ps := by decide) : Frame ps s (dropSweeps t n) :=
  h.trans hp <| by
    unfold Machine.dropSweeps
    exact .mapLichen (.mapHost .refl)

theorem Frame.dropRequests {n : Nat} (h : Frame ps s t) (hp : [.twill] ⊆ ps := by decide) : Frame ps s (dropRequests t n) :=
  h.trans hp <| by
    unfold Machine.dropRequests
    exact .mapTwill .refl

theorem Frame.finish {n st pr cf : Nat} (h : Frame ps s t) (hp : [.host, .lichen, .twill] ⊆ ps := by decide) :
    Frame ps s (finish t n st pr cf) :=
  h.trans hp <| by
    unfold Machine.finish
    exact .mapHost (.foldl (fun h => .dropRequests (.dropSweeps h)) (.updCmd .refl))

theorem Frame.endWith {n st : Nat} (h : Frame ps s t) (hp : [.host, .lichen, .twill] ⊆ ps := by decide) : Frame ps s (endWith t n st) :=
  h.trans hp <| by
    unfold Machine.endWith
    exact .finish .refl

theorem Frame.putResult {n off : Nat} {b : List Byte} (h : Frame ps s t) (hp : [.host] ⊆ ps := by decide) :
    Frame ps s (putResult t n off b) :=
  h.trans hp <| by
    unfold Machine.putResult
    exact .updCmd .refl

theorem Frame.onAdmitted {n : Nat} {ops : List Nat} {f : Cmd → State} (h : Frame ps s t) (hf : ∀ {c : Cmd}, Frame ps s (f c)) :
    Frame ps s (onAdmitted t n ops f) := by
  unfold Machine.onAdmitted
  split
  · exact .ite hf h
  · exact h

theorem Frame.markRunning {n : Nat} (h : Frame ps s t) (hp : [.host] ⊆ ps := by decide) : Frame ps s (markRunning t n) :=
  h.trans hp <| by
    unfold Machine.markRunning
    exact .updCmd .refl

theorem Frame.charge {part tier bytes : Nat} (h : Frame ps s t) (hp : [.regs, .mem] ⊆ ps := by decide) :
    Frame ps s (charge t part tier bytes) :=
  h.trans hp <| by
    unfold Machine.charge
    exact .ite .refl (.bump (.mapMem .refl))

theorem Frame.zeroRateEnd {n : Nat} (h : Frame ps s t) (hp : [.regs, .host, .lichen, .twill] ⊆ ps := by decide) :
    Frame ps s (zeroRateEnd t n) :=
  h.trans hp <| by
    unfold Machine.zeroRateEnd
    exact .endWith (.event .refl)

theorem Frame.onTiers {n part : Nat} {tiers : List Nat} {f : State → State} (h : Frame ps s t)
    (hf : ∀ {v : State}, Frame ps s v → Frame ps s (f v)) (hp : [.regs, .host, .lichen, .twill] ⊆ ps := by decide) :
    Frame ps s (onTiers t n part tiers f) :=
  .ite (h.zeroRateEnd hp) (hf h)

theorem Frame.updShard {part index : Nat} {f : Shard → Shard} (h : Frame ps s t) (hp : [.shards] ⊆ ps := by decide) :
    Frame ps s (t.updShard part index f) :=
  h.trans hp <| by
    unfold State.updShard
    exact .mapShards .refl

/-! ### ImageLoader -/

theorem Frame.imgShow {req code : Nat} (h : Frame ps s t) (hp : [.img] ⊆ ps := by decide) : Frame ps s (imgShow t req code) :=
  h.trans hp <| by
    unfold Machine.imgShow
    exact .mapImg .refl

theorem Frame.imgReject {req : Nat} {r : Rej} (h : Frame ps s t) (hp : [.regs, .img, .host, .usnea] ⊆ ps := by decide) :
    Frame ps s (imgReject t req r) :=
  h.trans hp <| by
    unfold Machine.imgReject
    exact .raiseEvent (.eventIf (.imgShow (.event (.setRo .refl))))

theorem Frame.imgStageBytes {b : List Byte} (h : Frame ps s t) (hp : [.regs, .img, .host, .usnea] ⊆ ps := by decide) :
    Frame ps s (imgStageBytes t b) :=
  h.trans hp <| by
    unfold Machine.imgStageBytes
    dsimp only
    split
    · exact .imgShow (.mapImg (.mapImg .refl))
    · exact .imgShow (.mapImg (.mapImg .refl))
    · exact .imgReject (.mapImg .refl)

theorem Frame.setSlot {k : Nat} {x : Option ImgSlot} (h : Frame ps s t) (hp : [.img] ⊆ ps := by decide) : Frame ps s (setSlot t k x) :=
  h.trans hp <| by
    unfold Machine.setSlot
    exact .mapImg .refl

theorem Frame.imgAbort (h : Frame ps s t) (hp : [.regs, .img, .host, .shards, .sec, .usnea, .power] ⊆ ps := by decide) :
    Frame ps s (imgAbort t) :=
  h.trans hp <| by
    unfold Machine.imgAbort
    dsimp only
    split
    · exact .refl
    · refine .ite ?_ (.raiseEvent (.imgShow (.event (.mapImg (.setSlot .refl)))))
      exact .mapPower (.mapShards (.mapSec (.raiseEvent (.imgShow (.event (.mapImg (.setSlot .refl)))))))

theorem Frame.imgCtrl {req : Nat} {v : W32}
    (h : Frame ps s t) (hp : [.regs, .img, .host, .shards, .sec, .usnea, .power] ⊆ ps := by decide) :
    Frame ps s (imgCtrl t req v) :=
  h.trans hp <| by
    unfold Machine.imgCtrl
    exact .ite (.writeError .refl) (.ite (.imgStageBytes (.ite (.imgAbort .refl) .refl)) (.ite (.imgAbort .refl) .refl))

theorem Frame.imageVerifyDone {k : Nat} (h : Frame ps s t) (hp : [.regs, .img, .host, .usnea] ⊆ ps := by decide) :
    Frame ps s (imageVerifyDone t k) :=
  h.trans hp <| by
    unfold Machine.imageVerifyDone
    split
    · exact .refl
    · refine .ite .refl ?_
      split
      · exact .imgReject (.setSlot .refl)
      · exact .raiseEvent (.imgShow (.event (.setSlot .refl)))

/-! ### Cache -/

theorem Frame.lineFill {p line : Nat} {dirty pinned : Bool} (h : Frame ps s t) (hp : [.mem, .free] ⊆ ps := by decide) :
    Frame ps s (lineFill t p line dirty pinned) :=
  h.trans hp <| by
    unfold Machine.lineFill
    dsimp only
    split
    · exact .refl
    · split
      · exact .mapMem .refl
      · split
        · exact .refl
        · exact .mapMem (.drawn (.mapMem .refl))

theorem Frame.lineTouch {p : Nat} {write : Bool} {line : Nat} (h : Frame ps s t) (hp : [.regs, .mem, .free] ⊆ ps := by decide) :
    Frame ps s (lineTouch t p write line) :=
  h.trans hp <| by
    unfold Machine.lineTouch
    dsimp only
    refine .ite .refl ?_
    split
    · exact .ite (.mapMem (.ite (.bump .refl) .refl)) (.ite (.bump .refl) .refl)
    · exact .lineFill (.ite (.bump .refl) .refl)

theorem Frame.spanTouch {p a n : Nat} {write : Bool} (h : Frame ps s t) (hp : [.regs, .mem, .free] ⊆ ps := by decide) :
    Frame ps s (spanTouch t p a n write) :=
  h.trans hp <| by
    unfold Machine.spanTouch
    exact .ite .refl (.foldl (fun h => .lineTouch h) .refl)

theorem Frame.linePin {p line : Nat} (h : Frame ps s t) (hp : [.mem, .free] ⊆ ps := by decide) : Frame ps s (linePin t p line) :=
  h.trans hp <| by
    unfold Machine.linePin
    split
    · exact .mapMem .refl
    · exact .lineFill .refl

theorem Frame.pinDescriptor {sh : Shard} (h : Frame ps s t) (hp : [.mem, .free] ⊆ ps := by decide) : Frame ps s (pinDescriptor t sh) :=
  h.trans hp <| by
    unfold Machine.pinDescriptor
    split
    · exact .foldl (fun h => .linePin h) .refl
    · exact .refl

theorem Frame.pinDescriptors (h : Frame ps s t) (hp : [.mem, .free] ⊆ ps := by decide) : Frame ps s (pinDescriptors t) :=
  h.trans hp <| by
    unfold Machine.pinDescriptors
    exact .foldl (fun h => .ite (.pinDescriptor h) h) .refl

theorem Frame.unpinDescriptor {sh : Shard} (h : Frame ps s t) (hp : [.mem] ⊆ ps := by decide) : Frame ps s (unpinDescriptor t sh) :=
  h.trans hp <| by
    unfold Machine.unpinDescriptor
    split
    · exact .mapMem .refl
    · exact .refl

theorem Frame.dropLines {p : Nat → Bool} (h : Frame ps s t) (hp : [.mem] ⊆ ps := by decide) : Frame ps s (dropLines t p) :=
  h.trans hp <| by
    unfold Machine.dropLines
    exact .mapMem .refl

theorem Frame.sliceLines {slice : Nat} (h : Frame ps s t) (hp : [.mem, .free] ⊆ ps := by decide) : Frame ps s (sliceLines t slice) :=
  h.trans hp <| by
    unfold Machine.sliceLines
    exact .drawn (.dropLines (.mapMem .refl))

/-! ### IndexOps -/

theorem Frame.t2Write {a : Nat} {b : List Byte} (h : Frame ps s t) (hp : [.lichen] ⊆ ps := by decide) : Frame ps s (t2Write t a b) :=
  h.trans hp <| by
    unfold Machine.t2Write
    exact .ite .refl (.ite (.mapLichen .refl) (.ite
      (.mapLichen (.mapLichen .refl fun hm => memWf_tierWrite hm _ _)) (.mapLichen .refl fun hm => memWf_tierWrite hm _ _)))

theorem Frame.winWrite {sh : Shard} {a : Nat} {b : List Byte} (h : Frame ps s t) (hp : [.lichen] ⊆ ps := by decide) :
    Frame ps s (winWrite t sh a b) :=
  h.trans hp <| by
    unfold Machine.winWrite
    dsimp only
    split
    · exact .ite (.t2Write (.t2Write .refl)) (.t2Write .refl)
    · exact .t2Write .refl

theorem Frame.winWrite? {sh : Shard} {a : Option Nat} {b : List Byte} (h : Frame ps s t) (hp : [.lichen] ⊆ ps := by decide) :
    Frame ps s (winWrite? t sh a b) :=
  h.trans hp <| by
    unfold Machine.winWrite?
    split
    · exact .winWrite .refl
    · exact .refl

theorem Frame.hotWrite {sh : Shard} {x : Nat} {l : List Nat} (h : Frame ps s t) (hp : [.lichen] ⊆ ps := by decide) :
    Frame ps s (hotWrite t sh x l) :=
  h.trans hp <| by
    unfold Machine.hotWrite
    exact .winWrite? .refl

theorem Frame.structTouch {sh : Shard} {k off n : Nat} {write : Bool} (h : Frame ps s t) (hp : [.regs, .mem, .free] ⊆ ps := by decide) :
    Frame ps s (structTouch t sh k off n write) :=
  h.trans hp <| by
    unfold Machine.structTouch
    split
    · exact .spanTouch .refl
    · exact .refl

theorem Frame.slotTouch {sh : Shard} {x : Nat} {write : Bool} (h : Frame ps s t) (hp : [.regs, .mem, .free] ⊆ ps := by decide) :
    Frame ps s (slotTouch t sh x write) :=
  h.trans hp <| by
    unfold Machine.slotTouch
    exact .structTouch (.structTouch .refl)

theorem Frame.primaryTouch {sh : Shard} {x : Nat} {write : Bool} (h : Frame ps s t) (hp : [.regs, .mem, .free] ⊆ ps := by decide) :
    Frame ps s (primaryTouch t sh x write) :=
  h.trans hp <| by
    unfold Machine.primaryTouch
    exact .structTouch .refl

theorem Frame.adjTouch {sh : Shard} {x f : Nat} {write : Bool} (h : Frame ps s t) (hp : [.regs, .mem, .free] ⊆ ps := by decide) :
    Frame ps s (adjTouch t sh x f write) :=
  h.trans hp <| by
    unfold Machine.adjTouch
    split
    · exact .structTouch .refl
    · exact .ite (.spanTouch .refl) (.primaryTouch .refl)
    · exact .primaryTouch .refl

theorem Frame.freeSlot {part index x : Nat} (h : Frame ps s t) (hp : [.shards, .lichen] ⊆ ps := by decide) :
    Frame ps s (freeSlot t part index x) :=
  h.trans hp <| by
    unfold Machine.freeSlot
    dsimp only
    split
    · exact .refl
    · exact .updShard (.hotWrite (.winWrite? (.winWrite? .refl)))

/-! ### Journal -/

theorem Frame.updOut {n i : Nat} {f : EntryOut → EntryOut} (h : Frame ps s t) (hp : [.host] ⊆ ps := by decide) :
    Frame ps s (t.updOut n i f) :=
  h.trans hp <| by
    unfold State.updOut
    exact .updCmd .refl

theorem Frame.addOut {n : Nat} {o : EntryOut} (h : Frame ps s t) (hp : [.host] ⊆ ps := by decide) : Frame ps s (t.addOut n o) :=
  h.trans hp <| by
    unfold State.addOut
    exact .updCmd .refl

theorem Frame.stopBatch {n st : Nat} (h : Frame ps s t) (hp : [.host] ⊆ ps := by decide) : Frame ps s (stopBatch t n st) :=
  h.trans hp <| by
    unfold Machine.stopBatch
    exact .updCmd .refl

theorem Frame.endBatch {n : Nat} (h : Frame ps s t) (hp : [.host, .lichen, .twill] ⊆ ps := by decide) : Frame ps s (endBatch t n) :=
  h.trans hp <| by
    unfold Machine.endBatch
    dsimp only
    split
    · exact .refl
    · exact .ite (.finish (.putResult .refl)) .refl

theorem Frame.setJournal {p : Nat} {j : Journal} (h : Frame ps s t) (hp : [.epoch] ⊆ ps := by decide) : Frame ps s (setJournal t p j) :=
  h.trans hp <| by
    unfold Machine.setJournal
    exact .mapEpoch .refl

theorem Frame.journalPlace {p : Nat} {r : JRec} (h : Frame ps s t) (hu : journalPlace t p r = .ok u)
    (hp : [.epoch, .free] ⊆ ps := by decide) : Frame ps s u :=
  h.trans hp <| by
    unfold Machine.journalPlace at hu
    dsimp only at hu
    split at hu
    · cases hu
    · split at hu
      · split at hu
        · cases hu; exact .setJournal .refl
        · split at hu
          · cases hu
          · split at hu
            · cases hu
            · cases hu; exact .drawn (.setJournal .refl)
      · split at hu
        · cases hu
        · cases hu; exact .drawn (.setJournal .refl)

theorem Frame.rekeyCheck {p : Nat} (h : Frame ps s t) (hp : [.regs, .host, .sec] ⊆ ps := by decide) : Frame ps s (rekeyCheck t p) :=
  h.trans hp <| by
    unfold Machine.rekeyCheck
    split
    · exact .refl
    · exact .ite .refl (.event (.mapSec .refl))

theorem Frame.acceptInsert {sh : Shard} {r : JRec} (h : Frame ps s t) (hp : [.shards, .lichen] ⊆ ps := by decide) :
    Frame ps s (acceptInsert t sh r) :=
  h.trans hp <| by
    unfold Machine.acceptInsert
    exact .updShard (.winWrite? (.winWrite? (.winWrite? .refl)))

theorem Frame.acceptAttr {sh : Shard} {r : JRec} {e : Nat} (h : Frame ps s t) (hp : [.shards, .lichen] ⊆ ps := by decide) :
    Frame ps s (acceptAttr t sh r e) :=
  h.trans hp <| by
    unfold Machine.acceptAttr
    dsimp only
    refine .updShard (.ite ?_ ?_)
    · refine .winWrite? ?_
      split
      · exact .winWrite? .refl
      · exact .refl
    · split
      · exact .winWrite? .refl
      · exact .refl

theorem Frame.applyRec {p : Nat} {r : JRec} {e : Nat} (h : Frame ps s t) (hp : [.regs, .shards, .lichen, .mem, .free] ⊆ ps := by decide) :
    Frame ps s (applyRec t p r e) :=
  h.trans hp <| by
    unfold Machine.applyRec
    dsimp only
    split
    · exact .refl
    · refine .ite (.acceptInsert (.foldl (fun h => .slotTouch h) .refl)) ?_
      refine .ite ?_ ?_
      · refine .ite (.acceptInsert (.foldl (fun h => .slotTouch h) .refl)) ?_
        exact .updShard (.acceptInsert (.foldl (fun h => .slotTouch h) .refl))
      · refine .ite (.foldl (fun h => .slotTouch h) .refl) ?_
        refine .ite (.updShard (.foldl (fun h => .slotTouch h) .refl)) ?_
        exact .ite (.acceptAttr (.foldl (fun h => .slotTouch h) .refl)) (.foldl (fun h => .slotTouch h) .refl)

theorem Frame.fenceNote {n p : Nat} {r : JRec} {visible : Nat} (h : Frame ps s t) (hp : [.host] ⊆ ps := by decide) :
    Frame ps s (fenceNote t n p r visible) :=
  h.trans hp <| by
    unfold Machine.fenceNote
    dsimp only
    split
    · exact .refl
    · exact .mapHost .refl

theorem Frame.acceptRec {p : Nat} {r : JRec}
    (h : Frame ps s t) (hp : [.regs, .host, .shards, .lichen, .epoch, .mem, .twill, .free] ⊆ ps := by decide) :
    Frame ps s (acceptRec t p r) :=
  h.trans hp <| by
    unfold Machine.acceptRec
    dsimp only
    refine .ite (.mapEpoch .refl) ?_
    split
    · exact .bump (.applyRec (.mapEpoch .refl))
    · exact .endBatch (.fenceNote (.updOut (.bump (.applyRec (.mapEpoch .refl)))))

theorem Frame.takeDurable {p : Nat} {l : List JRec}
    (h : Frame ps s t) (hp : [.regs, .host, .shards, .lichen, .epoch, .mem, .twill, .free] ⊆ ps := by decide) :
    Frame ps s (takeDurable t p l) :=
  h.trans hp <| by
    unfold Machine.takeDurable
    exact .ite (.mapEpoch (.mapEpoch .refl)) (.foldl (fun h => .acceptRec h) (.mapEpoch .refl))

theorem Frame.programDone {p jseq copy : Nat}
    (h : Frame ps s t) (hp : [.regs, .host, .shards, .lichen, .epoch, .mem, .twill, .free] ⊆ ps := by decide) :
    Frame ps s (programDone t p jseq copy) :=
  h.trans hp <| by
    unfold Machine.programDone
    exact .takeDurable (.setJournal .refl)

theorem Frame.undoRec {p : Nat} {r : JRec} (h : Frame ps s t) (hp : [.shards, .lichen] ⊆ ps := by decide) : Frame ps s (undoRec t p r) :=
  h.trans hp <| by
    unfold Machine.undoRec
    split
    · exact .refl
    · extract_lets +onlyGivenNames sh
      clear_value sh
      refine .ite ?_ (.updShard .refl)
      extract_lets +onlyGivenNames i s₁ s₂
      have h₁ : Frame [.shards, .lichen] t s₁ := .winWrite? .refl
      clear_value s₁
      have h₂ : Frame [.shards, .lichen] t s₂ := .winWrite? h₁
      clear_value s₂
      exact .updShard h₂

theorem Frame.withdraw {p : Nat} {start : JRec → Bool}
    (h : Frame ps s t) (hp : [.host, .shards, .lichen, .epoch, .twill] ⊆ ps := by decide) :
    Frame ps s (withdraw t p start) :=
  h.trans hp <| by
    unfold Machine.withdraw
    dsimp only
    refine .foldl (fun h => .endBatch (.stopBatch h)) (.foldl (fun h => ?_) (.setJournal (.foldl (fun h => .undoRec h) .refl)))
    split
    · exact .updOut h
    · exact h

theorem Frame.cutBatch {n : Nat} (h : Frame ps s t) (hp : [.host, .shards, .lichen, .epoch, .twill] ⊆ ps := by decide) :
    Frame ps s (cutBatch t n) :=
  h.trans hp <| by
    unfold Machine.cutBatch
    dsimp only
    split
    · exact .refl
    · refine .endBatch (.stopBatch (.ite ?_ (.ite (.markRunning (.withdraw .refl)) (.withdraw .refl))))
      exact .addOut (.ite (.markRunning (.withdraw .refl)) (.withdraw .refl))

theorem Frame.faultCmd {n : Nat} (h : Frame ps s t) (hp : [.host, .shards, .lichen, .epoch, .twill] ⊆ ps := by decide) :
    Frame ps s (faultCmd t n) :=
  h.trans hp <| by
    unfold Machine.faultCmd
    split
    · exact .refl
    · exact .ite .refl (.ite (.cutBatch .refl) (.endWith .refl))

/-! ### ModelCopies -/

theorem Frame.spansWrite {l : List (Nat × Nat)} {b : List Byte} (h : Frame ps s t) (hp : [.lichen] ⊆ ps := by decide) :
    Frame ps s (spansWrite t l b) := by
  induction l generalizing t b with
  | nil => exact h
  | cons x l ih => exact ih (h.t2Write hp)

theorem Frame.placeModel {f : InForce} (h : Frame ps s t) (hp : [.model, .free] ⊆ ps := by decide) : Frame ps s (placeModel t f) :=
  h.trans hp <| by
    unfold Machine.placeModel
    dsimp only
    split
    · exact .refl
    · refine .ite (.mapModel .refl) ?_
      split
      · exact .mapModel (.mapModel .refl)
      · exact .ite (.mapModel .refl) (.mapModel (.mapModel (.drawn (.mapModel .refl))))

theorem Frame.placeModels (h : Frame ps s t) (hp : [.model, .free] ⊆ ps := by decide) : Frame ps s (placeModels t) :=
  h.trans hp <| by
    unfold Machine.placeModels
    exact .foldl (fun h => .placeModel h) .refl

theorem Frame.copiesLeave {w : Nat → Bool} (h : Frame ps s t) (hp : [.model] ⊆ ps := by decide) : Frame ps s (copiesLeave t w) :=
  h.trans hp <| by
    unfold Machine.copiesLeave
    exact .mapModel .refl

/-! ### Fences -/

theorem Frame.joinSweeps {n : Nat} {q : Query} (h : Frame ps s t) (hp : [.host] ⊆ ps := by decide) : Frame ps s (joinSweeps t n q) :=
  h.trans hp <| by
    unfold Machine.joinSweeps
    exact .mapHost .refl

theorem Frame.restartQuery {n : Nat} (h : Frame ps s t) (hp : [.host, .lichen, .twill] ⊆ ps := by decide) : Frame ps s (restartQuery t n) :=
  h.trans hp <| by
    unfold Machine.restartQuery
    dsimp only
    split
    · exact .refl
    · exact .joinSweeps (.mapHost (.dropRequests (.dropSweeps .refl)))

theorem Frame.restartQueries {p : Query → Bool} (h : Frame ps s t) (hp : [.host, .lichen, .twill] ⊆ ps := by decide) :
    Frame ps s (restartQueries t p) :=
  h.trans hp <| by
    unfold Machine.restartQueries
    exact .foldl (fun h => .restartQuery h) .refl

theorem Frame.restartBatches {p : Batch → Bool} (h : Frame ps s t) (hp : [.model] ⊆ ps := by decide) : Frame ps s (restartBatches t p) :=
  h.trans hp <| by
    unfold Machine.restartBatches
    exact .mapModel .refl

theorem Frame.dropLatents {st : Nat} (h : Frame ps s t) (hp : [.shards] ⊆ ps := by decide) : Frame ps s (dropLatents t st) :=
  h.trans hp <| by
    unfold Machine.dropLatents
    exact .mapShards .refl

theorem Frame.rebuildShadow (h : Frame ps s t) (hp : [.host, .lichen] ⊆ ps := by decide) : Frame ps s (rebuildShadow t) :=
  h.trans hp <| by
    unfold Machine.rebuildShadow
    exact .mapHost (.mapLichen .refl)

theorem Frame.stackWork {st : Nat} (h : Frame ps s t) (hp : [.host, .shards, .lichen, .model, .free] ⊆ ps := by decide) :
    Frame ps s (stackWork t st) :=
  h.trans hp <| by
    unfold Machine.stackWork
    extract_lets +onlyGivenNames k qs s₁ s₂ s₃
    have h₂ : Frame [.host, .shards, .lichen, .model, .free] t s₂ := .ite (.rebuildShadow (.mapLichen .refl)) (.mapLichen .refl)
    clear_value s₂
    exact .dropLatents (.placeModels (.copiesLeave (.mapHost h₂)))

theorem Frame.mergeWork {n : Nat} (h : Frame ps s t) (hp : [.host] ⊆ ps := by decide) : Frame ps s (mergeWork t n) :=
  h.trans hp <| by
    unfold Machine.mergeWork
    split
    · exact .refl
    · exact .mapHost .refl

theorem Frame.channelWork (h : Frame ps s t) (hp : [.host, .shards, .lichen, .epoch, .twill] ⊆ ps := by decide) :
    Frame ps s (channelWork t) :=
  h.trans hp <| by
    unfold Machine.channelWork
    exact .foldl (fun h => .faultCmd h) (.mapShards .refl)

theorem Frame.refetch (h : Frame ps s t) (hp : [.host] ⊆ ps := by decide) : Frame ps s (refetch t) :=
  h.trans hp <| by
    unfold Machine.refetch
    exact .mapHost .refl

theorem Frame.fenceWork {kind n : Nat}
    (h : Frame ps s t) (hp : [.regs, .host, .shards, .lichen, .epoch, .model, .mem, .twill, .free] ⊆ ps := by decide) :
    Frame ps s (fenceWork t kind n) :=
  h.trans hp <| by
    unfold Machine.fenceWork
    dsimp only
    split
    · exact .restartQueries .refl
    · exact .event (.restartBatches .refl)
    · exact .event .refl
    · exact .event (.restartQueries .refl)
    · exact .event (.mergeWork .refl)
    · exact .restartBatches (.foldl (fun h => .restartQuery h) (.pinDescriptors (.sliceLines .refl)))
    · exact .stackWork .refl
    · exact .channelWork .refl
    · exact .ite (.refetch .refl) .refl
    · exact .refl

theorem Frame.unitEvent {kind n : Nat} (h : Frame ps s t) (hp : [.regs, .host, .usnea] ⊆ ps := by decide) :
    Frame ps s (unitEvent t kind n) :=
  h.trans hp <| by
    unfold Machine.unitEvent
    exact .raiseEvent .refl

theorem Frame.retireUnit {kind n : Nat} (h : Frame ps s t) (hp : [.regs, .host, .ras, .usnea] ⊆ ps := by decide) :
    Frame ps s (retireUnit t kind n) :=
  h.trans hp <| by
    unfold Machine.retireUnit
    exact .unitEvent (.event (.mapRas (.setUnit .refl)))

theorem Frame.enterOut {kind n : Nat} {auto tried : Bool} (h : Frame ps s t) (hp : [.regs, .host, .ras, .usnea] ⊆ ps := by decide) :
    Frame ps s (enterOut t kind n auto tried) :=
  h.trans hp <| by
    unfold Machine.enterOut
    dsimp only
    refine .ite ?_ ?_
    · exact .retireUnit (.foldl (fun h => .event h) (.event (.unitEvent (.setUnit .refl))))
    · exact .foldl (fun h => .event h) (.event (.unitEvent (.setUnit .refl)))

theorem Frame.unitFault {kind n cls addr : Nat} {auto : Bool} (h : Frame ps s t) (hp : faultParts ⊆ ps := by decide) :
    Frame ps s (unitFault t kind n cls addr auto) :=
  h.trans hp <| by
    unfold Machine.unitFault
    dsimp only
    refine .ite .refl ?_
    refine .ite (.event (.fenceWork (.setUnit (.faultRecord .refl)))) ?_
    split
    · exact .fenceWork (.enterOut (.setUnit (.faultRecord .refl)))
    · exact .fenceWork (.enterOut (.setUnit (.faultRecord .refl)))
    · exact .enterOut (.setUnit (.faultRecord .refl))
    · exact .enterOut (.setUnit (.faultRecord .refl))
    · exact .setUnit (.faultRecord .refl)
    · exact .setUnit (.faultRecord .refl)

theorem Frame.blameLoss {n : Nat} (h : Frame ps s t) (hp : [.ras] ⊆ ps := by decide) : Frame ps s (blameLoss t n) :=
  h.trans hp <| by
    unfold Machine.blameLoss
    split
    · exact .refl
    · refine .ite .refl ?_
      split
      · exact .refl
      · exact .mapRas .refl

/-! ### LichenUnits -/

theorem Frame.bankCmd {op stack : Nat} {x : W64} {p : List Byte} (h : Frame ps s t) (hf : Frame ps s u)
    (hp : [.regs, .host] ⊆ ps := by decide) : Frame ps s (bankCmd t op stack x p u) :=
  .ite h (.ite hf (h.event hp))

theorem Frame.updStack {st : Nat} {f : Stack → Stack} (h : Frame ps s t) (hp : [.lichen] ⊆ ps := by decide) :
    Frame ps s (t.updStack st f) :=
  h.trans hp <| by
    unfold State.updStack
    exact .mapLichen .refl

theorem Frame.flipT2 {l : List (Nat × Nat)} (h : Frame ps s t) (hp : [.lichen] ⊆ ps := by decide) : Frame ps s (flipT2 t l) :=
  h.trans hp <| by
    unfold Machine.flipT2
    refine .foldl (fun h => h.mapLichen fun hm => ?_) .refl
    dsimp only
    exact memWf_tierWrite hm _ _

theorem Frame.rgDamage {rg src : Nat} (h : Frame ps s t) (hp : faultParts ⊆ ps := by decide) :
    Frame ps s (rgDamage t rg src) :=
  h.trans hp <| by
    unfold Machine.rgDamage
    extract_lets +onlyGivenNames w st
    clear_value w st
    refine .ite .refl ?_
    refine .ite (.unitFault .refl) ?_
    extract_lets +onlyGivenNames n sh t0 now s₁ ws s₂ s₃ owner
    have h₁ : Frame faultParts t s₁ := .updStack .refl
    clear_value s₁
    have h₂ : Frame faultParts t s₂ := .mapLichen h₁
    clear_value s₂
    clear_value n sh t0 now ws
    have h₃ : Frame faultParts t s₃ := by
      unfold s₃
      split
      · exact h₂
      · exact .mapHost h₂
    clear_value s₃
    exact .event (.faultRecord h₃)

theorem Frame.rgChecks {src : Nat} {l : List Nat} (h : Frame ps s t) (hp : faultParts ⊆ ps := by decide) :
    Frame ps s (rgChecks t src l).1 :=
  h.trans hp <| .foldlFst (fun h => by
    split
    · exact h
    · exact .rgDamage (.bump h)) .refl

theorem Frame.checkedClean {l : List Nat} (h : Frame ps s t) (hp : [.lichen] ⊆ ps := by decide) : Frame ps s (checkedClean t l) :=
  h.trans hp <| by
    unfold Machine.checkedClean
    exact .mapLichen .refl

theorem Frame.rgCheck {rg src : Nat} (h : Frame ps s t) (hp : faultParts ⊆ ps := by decide) :
    Frame ps s (rgCheck t rg src) :=
  h.trans hp <| by
    unfold Machine.rgCheck
    exact .checkedClean (.rgChecks .refl)

theorem Frame.lichenFence {part w : Nat} (h : Frame ps s t) (hp : [.regs, .host, .sec] ⊆ ps := by decide) :
    Frame ps s (lichenFence t part w) :=
  h.trans hp <| by
    unfold Machine.lichenFence
    exact .event (.fenceRefusal .refl)

theorem Frame.gatherServe {stack : Nat} {c : BankCmd} {tag : Nat}
    (h : Frame ps s t) (hp : [.regs, .host, .lichen, .sec] ⊆ ps := by decide) :
    Frame ps s (gatherServe t stack c tag) :=
  h.trans hp <| by
    unfold Machine.gatherServe
    dsimp only
    refine .ite (.event .refl) ?_
    exact .ite (.mapHost (.lichenFence .refl)) (.ite (.mapHost (.mapLichen .refl)) (.mapLichen .refl))

theorem Frame.bankServe {bank : Nat} {r : BankReq} (h : Frame ps s t) (hp : [.regs, .host, .lichen, .sec] ⊆ ps := by decide) :
    Frame ps s (bankServe t bank r) :=
  h.trans hp <| by
    unfold Machine.bankServe
    split
    · exact .gatherServe .refl
    · exact .ite (.ite (.mapLichen .refl) .refl) (.t2Write .refl)

theorem Frame.bankArrive {bank : Nat} {r : BankReq} (h : Frame ps s t) (hp : [.regs, .host, .lichen, .sec] ⊆ ps := by decide) :
    Frame ps s (bankArrive t bank r) :=
  h.trans hp <| by
    unfold Machine.bankArrive
    exact .ite .refl (.ite (.bankServe .refl) (.mapLichen .refl))

theorem Frame.loadSlot {stack n : Nat} {rec_ : List Byte} (h : Frame ps s t) (hp : [.lichen] ⊆ ps := by decide) :
    Frame ps s (loadSlot t stack n rec_) :=
  h.trans hp <| by
    unfold Machine.loadSlot
    exact .mapLichen .refl

theorem Frame.setThresh {stack n : Nat} {m : W32} (h : Frame ps s t) (hp : [.lichen] ⊆ ps := by decide) :
    Frame ps s (setThresh t stack n m) :=
  h.trans hp <| by
    unfold Machine.setThresh
    exact .mapLichen .refl

theorem Frame.threshApply {stack n : Nat} {c : Option Nat} {m : W32} (h : Frame ps s t) (hp : [.lichen] ⊆ ps := by decide) :
    Frame ps s (threshApply t stack n c m) :=
  h.trans hp <| by
    unfold Machine.threshApply
    exact .ite (.setThresh .refl) .refl

theorem Frame.threshUpdate {stack n : Nat} {c : Option Nat} {m : W32} (h : Frame ps s t) (hp : [.lichen] ⊆ ps := by decide) :
    Frame ps s (threshUpdate t stack n c m) :=
  h.trans hp <| by
    unfold Machine.threshUpdate
    exact .ite (.updStack .refl) (.threshApply .refl)

theorem Frame.freeQslot {stack n : Nat} (h : Frame ps s t) (hp : [.lichen] ⊆ ps := by decide) : Frame ps s (freeQslot t stack n) :=
  h.trans hp <| by
    unfold Machine.freeQslot
    exact .mapLichen .refl

theorem Frame.sweepChecks {stack : Nat} {l : List Nat} (h : Frame ps s t) (hp : faultParts ⊆ ps := by decide) :
    Frame ps s (sweepChecks t stack l) :=
  h.trans hp <| by
    unfold Machine.sweepChecks
    exact .ite (.checkedClean (.rgChecks .refl)) .refl

theorem Frame.bankStream {a : StepArgs} {slots : List (Nat × List Byte)} {b k n d : Nat} (h : Frame ps s t)
    (hp : [.lichen] ⊆ ps := by decide) : Frame ps s (bankStream a slots b k n d t).1 := by
  induction n generalizing t d with
  | zero => exact h
  | succ n ih =>
    unfold Machine.bankStream
    split
    · exact h
    · exact ih (h.mapLichen id hp)

theorem Frame.bankStep {a : StepArgs} {slots : List (Nat × List Byte)} {done : Smap Nat} {b : Nat} (h : Frame ps s t)
    (hp : [.lichen] ⊆ ps := by decide) : Frame ps s (bankStep a slots done t b).1 := by
  unfold Machine.bankStep
  dsimp only
  split
  · exact h
  · split
    · split
      · exact h
      · split
        · exact h
        · exact h.trans hp (by dsimp only; exact .mapLichen .refl)
    · exact h.bankStream hp

theorem Frame.banksRun {a : StepArgs} {done : Smap Nat} {banks : List Nat} (h : Frame ps s t)
    (hp : faultParts ⊆ ps := by decide) : Frame ps s (banksRun t a done banks) :=
  h.trans hp <| .sweepChecks (.updStack (.foldlFst (fun h => .bankStep h) .refl))

theorem Frame.startStep {stack : Nat} {c : BankCmd} {done : Smap Nat} (h : Frame ps s t) (hp : sweepParts ⊆ ps := by decide) :
    Frame ps s (startStep t stack c done) :=
  h.trans hp <| by
    unfold Machine.startStep
    exact .ite (.event .refl) (.banksRun (.updStack (.bump (.foldl (fun h => .lichenFence h) .refl))))

theorem Frame.fillRows {stack : Nat} {n : W64} {p : List Byte} (h : Frame ps s t) (hp : [.lichen] ⊆ ps := by decide) :
    Frame ps s (fillRows t stack n p) :=
  h.trans hp <| by
    unfold Machine.fillRows
    dsimp only
    refine .foldl (fun h => .foldl (fun h1 => ?_) h) .refl
    split
    · exact .t2Write h1
    · exact h1

theorem Frame.scrubRows {stack row : Nat} (h : Frame ps s t) (hp : faultParts ⊆ ps := by decide) :
    Frame ps s (scrubRows t stack row) :=
  h.trans hp <| by
    unfold Machine.scrubRows
    exact .checkedClean (.rgChecks .refl)

theorem Frame.repairRg {rg : Nat} {b : List Byte} (h : Frame ps s t) (hp : [.lichen] ⊆ ps := by decide) : Frame ps s (repairRg t rg b) :=
  h.mapLichen (fun hm => memWf_tierWrite hm _ _) hp

theorem Frame.repairRow {stack : Nat} {n : W64} {p : List Byte} (h : Frame ps s t) (hp : [.lichen] ⊆ ps := by decide) :
    Frame ps s (repairRow t stack n p) :=
  h.trans hp <| by
    unfold Machine.repairRow
    split
    · exact .ite (.repairRg .refl) (.t2Write .refl)
    · exact .refl

theorem Frame.stackRun {stack : Nat} {c : BankCmd} (h : Frame ps s t) (hp : sweepParts ⊆ ps := by decide) :
    Frame ps s (stackRun t stack c) :=
  h.trans hp <| by
    unfold Machine.stackRun
    split
    · exact .startStep .refl
    · exact .fillRows .refl
    · exact .scrubRows .refl
    · exact .repairRow .refl

theorem Frame.stackCmd {stack : Nat} {c : BankCmd} (h : Frame ps s t) (hp : sweepParts ⊆ ps := by decide) :
    Frame ps s (stackCmd t stack c) :=
  h.trans hp <| by
    unfold Machine.stackCmd
    exact .ite (.updStack .refl) (.stackRun .refl)

theorem Frame.scrubCmd {stack row : Nat} (h : Frame ps s t) (hp : sweepParts ⊆ ps := by decide) :
    Frame ps s (scrubCmd t stack row) :=
  h.trans hp <| by
    unfold Machine.scrubCmd
    exact .stackCmd .refl

theorem Frame.beginRebuilds {stack : Nat} (h : Frame ps s t) (hp : [.lichen] ⊆ ps := by decide) : Frame ps s (beginRebuilds t stack) :=
  h.trans hp <| by
    unfold Machine.beginRebuilds
    exact .mapLichen (.updStack .refl)

theorem Frame.scrubTick {stack : Nat} {late : Bool} (h : Frame ps s t) (hp : sweepParts ⊆ ps := by decide) :
    Frame ps s (scrubTick t stack late) :=
  h.trans hp <| by
    unfold Machine.scrubTick
    refine .ite .refl ?_
    extract_lets +onlyGivenNames s₁ p i
    have h₁ : Frame sweepParts t s₁ := .beginRebuilds (.eventIf .refl)
    clear_value s₁
    clear_value p i
    split
    · split
      · exact h₁
      · exact .updStack (.scrubCmd h₁)
    · extract_lets +onlyGivenNames q s₂ last
      have h₂ : Frame sweepParts t s₂ := .updStack (.scrubCmd h₁)
      clear_value s₂
      exact .ite (.updStack (.bump h₂)) h₂

theorem Frame.loadBatch {stack : Nat} {b : SweepBatch} (h : Frame ps s t) (hp : [.lichen] ⊆ ps := by decide) :
    Frame ps s (loadBatch t stack b) :=
  h.trans hp <| by
    unfold Machine.loadBatch
    refine .foldl (fun h => ?_) .refl
    split
    · exact h
    · exact .ite h (.loadSlot h)

theorem Frame.issueStep {stack : Nat} (h : Frame ps s t) (hp : sweepParts ⊆ ps := by decide) :
    Frame ps s (issueStep t stack) :=
  h.trans hp <| by
    unfold Machine.issueStep
    dsimp only
    split
    · exact .refl
    · split
      · exact .refl
      · exact .updStack (.startStep (.loadBatch .refl))

theorem Frame.serveGap {bank : Nat} (h : Frame ps s t) (hp : [.regs, .host, .lichen, .sec] ⊆ ps := by decide) :
    Frame ps s (serveGap t bank) :=
  h.trans hp <| by
    unfold Machine.serveGap
    exact .foldl (fun h => .bankServe h) (.mapLichen .refl)

theorem Frame.gapEnd {stack bank : Nat} (h : Frame ps s t) (hp : faultParts ⊆ ps := by decide) :
    Frame ps s (gapEnd t stack bank) :=
  h.trans hp <| by
    unfold Machine.gapEnd
    dsimp only
    refine .ite .refl ?_
    split
    · exact .updStack .refl
    · exact .ite (.updStack .refl) (.banksRun (.updStack .refl))

theorem Frame.runLater {stack n : Nat} (h : Frame ps s t) (hp : sweepParts ⊆ ps := by decide) :
    Frame ps s (runLater stack n t) := by
  induction n generalizing t with
  | zero => exact h
  | succ n ih =>
    unfold Machine.runLater
    split
    · exact h
    · exact .ite h (ih (h.trans hp (.stackRun (.updStack .refl))))

theorem Frame.stepEnd {stack : Nat} (h : Frame ps s t) (hp : sweepParts ⊆ ps := by decide) :
    Frame ps s (stepEnd t stack) :=
  h.trans hp <| by
    unfold Machine.stepEnd
    refine .ite .refl ?_
    extract_lets +onlyGivenNames s₁ s₂ banks s₃ s₄ s₅
    have h₁ : Frame sweepParts t s₁ := .foldl (fun h => .gapEnd h) .refl
    clear_value s₁
    have h₂ : Frame sweepParts t s₂ := .foldl (fun h => .threshApply h) h₁
    clear_value s₂
    have h₃ : Frame sweepParts t s₃ := .updStack h₂
    clear_value s₃
    have h₄ : Frame sweepParts t s₄ := .foldl (fun h => .serveGap h) h₃
    clear_value s₄
    have h₅ : Frame sweepParts t s₅ := .runLater h₄
    clear_value s₅
    exact .ite h₅ (.issueStep h₅)

theorem Frame.rgRebuild {stack win rg : Nat} {ok : Bool}
    (h : Frame ps s t) (hp : [.regs, .host, .lichen, .ras, .usnea, .free] ⊆ ps := by decide) :
    Frame ps s (rgRebuild t stack win rg ok) :=
  h.trans hp <| by
    unfold Machine.rgRebuild
    dsimp only
    split
    · exact .refl
    · refine .ite ?_ ?_
      · refine .event (.mapLichen (.updStack ?_))
        split <;> exact .repairRg .refl
      · exact .event (.faultRecord (.drawn (.mapLichen (.updStack .refl))))

/-! ### TwillSend -/

theorem Frame.updPort {i : Nat} {f : Port → Port} (h : Frame ps s t) (hp : [.twill] ⊆ ps := by decide) : Frame ps s (t.updPort i f) :=
  h.trans hp <| by
    unfold State.updPort
    exact .mapTwill .refl

theorem Frame.portSend {i : Nat} (h : Frame ps s t) (hp : [.regs, .twill] ⊆ ps := by decide) : Frame ps s (portSend t i) :=
  h.trans hp <| by
    unfold Machine.portSend
    exact .ite .refl (.bump (.updPort .refl))

theorem Frame.deliver {p : Packet} (h : Frame ps s t) (hp : [.twill] ⊆ ps := by decide) : Frame ps s (deliver t p) :=
  h.trans hp <| by
    unfold Machine.deliver
    exact .mapTwill .refl

theorem Frame.enqueue {i : Nat} {p : Packet} (h : Frame ps s t) (hp : [.regs, .twill] ⊆ ps := by decide) : Frame ps s (enqueue t i p) :=
  h.trans hp <| by
    unfold Machine.enqueue
    exact .portSend (.updPort .refl)

theorem Frame.routePkt {p : Packet} {from_ : Option Nat} (h : Frame ps s t) (hp : [.regs, .host, .twill] ⊆ ps := by decide) :
    Frame ps s (routePkt t p from_) :=
  h.trans hp <| by
    unfold Machine.routePkt
    dsimp only
    refine .ite (.deliver .refl) ?_
    split
    · exact .enqueue .refl
    · refine .ite (.event .refl) ?_
      refine .ite (.deliver (.event .refl)) ?_
      split
      · exact .enqueue (.event .refl)
      · exact .event (.event .refl)

theorem Frame.sendPkt {p : Packet} (h : Frame ps s t) (hp : [.regs, .host, .twill] ⊆ ps := by decide) : Frame ps s (sendPkt t p) :=
  h.trans hp <| by
    unfold Machine.sendPkt
    exact .routePkt .refl

theorem Frame.twillCharge {p : Packet} (h : Frame ps s t) (hp : [.regs, .mem] ⊆ ps := by decide) : Frame ps s (twillCharge t p) :=
  h.trans hp <| by
    unfold Machine.twillCharge
    exact .charge .refl

theorem Frame.sendMsg {l : List Packet} (h : Frame ps s t) (hp : [.regs, .host, .mem, .twill] ⊆ ps := by decide) :
    Frame ps s (sendMsg t l) :=
  h.trans hp <| by
    unfold Machine.sendMsg
    exact .foldl (fun h => .sendPkt (.ite h (.twillCharge h))) .refl

theorem Frame.sendRequest {kind : ReqKind} {l : List Packet} {query forwards : Nat} {stale : Bool} {slots : List Nat} (h : Frame ps s t)
    (hp : [.regs, .host, .mem, .twill] ⊆ ps := by decide) : Frame ps s (sendRequest t kind l query forwards stale slots).1 :=
  h.trans hp <| by
    unfold Machine.sendRequest
    extract_lets +onlyGivenNames n l r s₁
    have h₁ : Frame [.regs, .host, .mem, .twill] t s₁ := .mapTwill .refl
    clear_value n l r s₁
    split
    · rw [apply_ite Prod.fst]
      exact .ite h₁.deliver h₁.sendMsg
    · exact h₁

theorem Frame.setToken {k : Nat} {e : LedgerEnt} (h : Frame ps s t) (hp : [.own] ⊆ ps := by decide) : Frame ps s (t.setToken k e) :=
  h.trans hp <| by
    unfold State.setToken
    exact .mapOwn .refl

/-! ### ModelOps -/

theorem Frame.toMember {d part : Nat} {body : List Byte} (h : Frame ps s t) (hp : [.regs, .host, .mem, .twill] ⊆ ps := by decide) :
    Frame ps s (toMember t d part body) :=
  h.trans hp <| by
    unfold Machine.toMember
    exact .mapTwill (.sendMsg .refl)

theorem Frame.closeBatch {n : Nat} (h : Frame ps s t) (hp : [.regs, .host, .model, .mem, .twill] ⊆ ps := by decide) :
    Frame ps s (closeBatch t n) :=
  h.trans hp <| by
    unfold Machine.closeBatch
    dsimp only
    split
    · exact .refl
    · refine .ite .refl ?_
      split
      · exact .mapModel .refl
      · exact .foldl (fun h => .toMember h) (.mapModel .refl)

theorem Frame.submitSeq {p : Nat} {r : Role} {img : List Byte} {profile : Nat} {q : Seqn}
    (h : Frame ps s t) (hp : [.regs, .host, .model, .mem, .twill] ⊆ ps := by decide) :
    Frame ps s (submitSeq t p r img profile q) :=
  h.trans hp <| by
    unfold Machine.submitSeq
    dsimp only
    split
    · exact .ite (.closeBatch (.mapModel .refl)) (.mapModel .refl)
    · refine .ite ?_ (.mapModel (.foldl (fun h => .closeBatch h) .refl))
      exact .closeBatch (.mapModel (.foldl (fun h => .closeBatch h) .refl))

/-! ### Search -/

theorem Frame.rerankEnd {r : Rerank} {failed : Nat} (h : Frame ps s t) (hp : [.host, .lichen, .twill] ⊆ ps := by decide) :
    Frame ps s (rerankEnd t r failed) :=
  h.trans hp <| by
    unfold Machine.rerankEnd
    dsimp only
    split
    · exact .refl
    · refine .ite ?_ (.finish (.putResult (.mapHost .refl)))
      exact .ite (.endWith (.mapHost .refl)) (.finish (.putResult (.mapHost .refl)))

theorem Frame.rerankScore {n place : Nat} {g : W32} (h : Frame ps s t) (hp : [.host, .lichen, .twill] ⊆ ps := by decide) :
    Frame ps s (rerankScore t n place g) :=
  h.trans hp <| by
    unfold Machine.rerankScore
    dsimp only
    split
    · exact .refl
    · exact .ite (.rerankEnd (.mapHost .refl)) (.mapHost .refl)

theorem Frame.startRerank {n : Nat} {c : Cmd} {cands : List LEnt} {tokens : List Nat}
    (h : Frame ps s t) (hp : [.regs, .host, .lichen, .model, .mem, .twill] ⊆ ps := by decide) :
    Frame ps s (startRerank t n c cands tokens) :=
  h.trans hp <| by
    unfold Machine.startRerank
    dsimp only
    split
    · exact .ite (.rerankEnd (.mapHost .refl)) (.foldl (fun h => .submitSeq h) (.mapHost .refl))
    · exact .rerankEnd .refl

theorem Frame.searchEnd {n : Nat} {lists : List (Nat × Nat × List LEnt)} {merged suspect disagree missing swept : Bool}
    (h : Frame ps s t) (hp : [.regs, .host, .lichen, .model, .mem, .twill] ⊆ ps := by decide) :
    Frame ps s (searchEnd t n lists merged suspect disagree missing swept) :=
  h.trans hp <| by
    unfold Machine.searchEnd
    split
    · exact .refl
    · extract_lets +onlyGivenNames p hm m count st ok s₁ s₂ s₃ s₄ cf pr
      have h₁ : Frame [.regs, .host, .lichen, .model, .mem, .twill] t s₁ := .ite (.bump (.event .refl)) .refl
      clear_value s₁
      have h₂ : Frame [.regs, .host, .lichen, .model, .mem, .twill] t s₂ := .ite (.bump h₁) h₁
      clear_value s₂
      have h₃ : Frame [.regs, .host, .lichen, .model, .mem, .twill] t s₃ := .ite (.bump h₂) h₂
      clear_value s₃
      have h₄ : Frame [.regs, .host, .lichen, .model, .mem, .twill] t s₄ := .putResult h₃
      clear_value s₄
      clear_value p hm m count st ok cf pr
      refine .ite (.finish h₄) ?_
      refine .ite (.finish (.putResult h₄)) ?_
      extract_lets +onlyGivenNames s₅ sh place
      have h₅ : Frame [.regs, .host, .lichen, .model, .mem, .twill] t s₅ := .updCmd h₄
      clear_value s₅
      exact .startRerank h₅

theorem Frame.mergeCheck {n : Nat} (h : Frame ps s t) (hp : [.regs, .host, .lichen, .model, .mem, .twill] ⊆ ps := by decide) :
    Frame ps s (mergeCheck t n) :=
  h.trans hp <| by
    unfold Machine.mergeCheck
    dsimp only
    split
    · exact .refl
    · exact .ite .refl (.searchEnd (.ite (.mapHost .refl) (.bump (.mapHost .refl))))

theorem Frame.mergeList {n node st : Nat} {l : List LEnt} {suspect : Bool}
    (h : Frame ps s t) (hp : [.regs, .host, .lichen, .model, .mem, .twill] ⊆ ps := by decide) :
    Frame ps s (mergeList t n node st l suspect) :=
  h.trans hp <| by
    unfold Machine.mergeList
    exact .mergeCheck (.mapHost .refl)

theorem Frame.sendList {key part index epoch st : Nat} {l : List LEnt} {suspect : Bool}
    (h : Frame ps s t) (hp : [.regs, .host, .mem, .twill] ⊆ ps := by decide) :
    Frame ps s (sendList t key part index epoch st l suspect) :=
  h.trans hp <| by
    unfold Machine.sendList
    exact .sendMsg .refl

theorem Frame.dropQuery {n : Nat} (h : Frame ps s t) (hp : [.host, .lichen, .twill] ⊆ ps := by decide) : Frame ps s (dropQuery t n) :=
  h.trans hp <| by
    unfold Machine.dropQuery
    exact .mapHost (.dropRequests (.dropSweeps .refl))

theorem Frame.countList {q : Query} {stored passes sorts : Nat} (h : Frame ps s t) (hp : [.regs] ⊆ ps := by decide) :
    Frame ps s (countList t q stored passes sorts) :=
  h.trans hp <| by
    unfold Machine.countList
    dsimp only
    refine .ite ?_ ?_
    · exact .bump (.ite (.bump (.bump (.ite (.bump .refl) .refl))) (.ite (.bump .refl) .refl))
    · exact .ite (.bump (.bump (.ite (.bump .refl) .refl))) (.ite (.bump .refl) .refl)

theorem Frame.countFinal {q : Query} {l : MList} (h : Frame ps s t) (hp : [.regs] ⊆ ps := by decide) : Frame ps s (countFinal t q l) :=
  h.trans hp <| by
    unfold Machine.countFinal
    exact .countList .refl

theorem Frame.endQuery {n : Nat} (h : Frame ps s t) (hp : [.regs, .host, .lichen, .model, .mem, .twill, .ras] ⊆ ps := by decide) :
    Frame ps s (endQuery t n) :=
  h.trans hp <| by
    unfold Machine.endQuery
    dsimp only
    split
    · exact .refl
    · split
      · exact .dropQuery (.countFinal .refl)
      · exact .sendList (.mapTwill (.dropQuery (.countFinal .refl)))
      · refine .ite ?_ ?_
        · exact .mergeList (.updCmd (.ite (.blameLoss (.dropQuery (.countFinal .refl))) (.dropQuery (.countFinal .refl))))
        · exact .searchEnd (.ite (.blameLoss (.dropQuery (.countFinal .refl))) (.dropQuery (.countFinal .refl)))

theorem Frame.addQuery {q : Query} (h : Frame ps s t) (hp : [.host] ⊆ ps := by decide) : Frame ps s (addQuery t q) :=
  h.trans hp <| by
    unfold Machine.addQuery
    exact .mapHost .refl

theorem Frame.updQuery {n : Nat} {f : Query → Query} (h : Frame ps s t) (hp : [.host] ⊆ ps := by decide) : Frame ps s (t.updQuery n f) :=
  h.trans hp <| by
    unfold State.updQuery
    exact .mapHost .refl

theorem Frame.queryReady {n : Nat} {q : List W32} {sketch : List Byte} (h : Frame ps s t) (hp : [.host] ⊆ ps := by decide) :
    Frame ps s (queryReady t n q sketch) :=
  h.trans hp <| by
    unfold Machine.queryReady
    dsimp only
    split
    · exact .joinSweeps (.updQuery .refl)
    · exact .updQuery .refl

theorem Frame.fanOut {n : Nat} {c : Cmd} {q : List W32} {sketch : List Byte}
    (h : Frame ps s t) (hp : [.regs, .host, .mem, .twill] ⊆ ps := by decide) :
    Frame ps s (fanOut t n c q sketch) :=
  h.trans hp <| by
    unfold Machine.fanOut
    exact .foldl (fun h => .sendRequest h) .refl

theorem Frame.searchVector {n : Nat} {c : Cmd} {x : List W32}
    (h : Frame ps s t) (hp : [.regs, .host, .lichen, .model, .mem, .twill, .free] ⊆ ps := by decide) :
    Frame ps s (searchVector t n c x) :=
  h.trans hp <| by
    unfold Machine.searchVector
    extract_lets +onlyGivenNames sh prep
    clear_value sh prep
    split
    · exact .endWith .refl
    · extract_lets +onlyGivenNames s₁ hs away
      have h₁ : Frame [.regs, .host, .lichen, .model, .mem, .twill, .free] t s₁ := .ite (.drawn (.drawn .refl)) .refl
      clear_value s₁
      clear_value hs away
      refine .ite (.zeroRateEnd h₁) ?_
      extract_lets +onlyGivenNames s₂ s₃
      have h₂ : Frame [.regs, .host, .lichen, .model, .mem, .twill, .free] t s₂ := .ite (.mapHost h₁) h₁
      clear_value s₂
      have h₃ : Frame [.regs, .host, .lichen, .model, .mem, .twill, .free] t s₃ := .fanOut h₂
      clear_value s₃
      split
      · exact .ite (.queryReady h₃) (.mergeCheck (.dropQuery h₃))
      · exact .mergeCheck h₃

theorem Frame.searchWait {n : Nat} {c : Cmd} (h : Frame ps s t) (hp : [.host] ⊆ ps := by decide) : Frame ps s (searchWait t n c) :=
  h.trans hp <| by
    unfold Machine.searchWait
    exact .ite .refl (.addQuery .refl)

theorem Frame.planOwn {n : Nat} {c : Cmd} {sweep : Bool} (h : Frame ps s t) (hp : [.regs, .host] ⊆ ps := by decide) :
    Frame ps s (planOwn t n c sweep) :=
  h.trans hp <| by
    unfold Machine.planOwn
    dsimp only
    split
    · exact .refl
    · refine .ite .refl ?_
      refine .bump ?_
      split
      · exact .updQuery (.updCmd .refl)
      · exact .addQuery (.updCmd .refl)

theorem Frame.searchCmd {n : Nat} {c : Cmd} {sweep : Bool}
    (h : Frame ps s t) (hp : [.regs, .host, .lichen, .model, .mem, .twill, .free] ⊆ ps := by decide) :
    Frame ps s (searchCmd t n c sweep) :=
  h.trans hp <| by
    unfold Machine.searchCmd
    dsimp only
    split
    · exact .searchWait .refl
    · exact .endWith (.event .refl)
    · exact .endWith (.event .refl)
    · exact .endWith .refl
    · refine .ite (.searchWait .refl) ?_
      refine .onTiers .refl (fun h => .ite ?_ (.searchVector (.planOwn (.markRunning h))))
      split
      · exact .submitSeq (.planOwn (.markRunning h))
      · exact .planOwn (.markRunning h)

theorem Frame.advanceQuery {n : Nat} (h : Frame ps s t) (hp : [.regs, .host, .lichen, .model, .mem, .twill, .ras] ⊆ ps := by decide) :
    Frame ps s (advanceQuery t n) :=
  h.trans hp <| by
    unfold Machine.advanceQuery
    dsimp only
    split
    · exact .refl
    · exact .ite (.ite (.endQuery (.countFinal .refl)) (.updQuery (.countFinal .refl))) .refl

theorem Frame.queryQuota {n : Nat} {q : Query}
    (h : Frame ps s t) (hp : [.regs, .host, .lichen, .model, .mem, .twill, .ras] ⊆ ps := by decide) :
    Frame ps s (queryQuota t n q) :=
  h.trans hp <| by
    unfold Machine.queryQuota
    dsimp only
    split
    · exact .endWith (.dropRequests (.dropSweeps (.event .refl)))
    · exact .endQuery (.updQuery (.event .refl))
    · exact .event .refl

theorem Frame.queryTiers {n : Nat} {q : Query} {tiers : List Nat} {go : State → State} (h : Frame ps s t)
    (hf : ∀ {v : State}, Frame ps s v → Frame ps s (go v))
        (hp : [.regs, .host, .lichen, .model, .mem, .twill, .ras] ⊆ ps := by decide) : Frame ps s (queryTiers t n q tiers go) :=
  .ite (h.queryQuota hp) (hf h)

theorem Frame.queryTwill {n : Nat} {q : Query} {go : State → State} (h : Frame ps s t)
    (hf : ∀ {v : State}, Frame ps s v → Frame ps s (go v))
        (hp : [.regs, .host, .lichen, .model, .mem, .twill, .ras] ⊆ ps := by decide) : Frame ps s (queryTwill t n q go) :=
  .ite (h.queryQuota hp) (hf h)

theorem Frame.chargeUnits {part tier n : Nat} (h : Frame ps s t) (hp : [.regs, .mem] ⊆ ps := by decide) :
    Frame ps s (chargeUnits t part tier n) :=
  h.trans hp <| by
    unfold Machine.chargeUnits
    exact .charge .refl

theorem Frame.sendScores {n : Nat} {slots : List Nat} (h : Frame ps s t) (hp : [.regs, .host, .mem, .twill] ⊆ ps := by decide) :
    Frame ps s (sendScores t n slots) :=
  h.trans hp <| by
    unfold Machine.sendScores
    split
    · exact .refl
    · extract_lets +onlyGivenNames l segs crc
      clear_value l segs crc
      refine .foldl (fun h => ?_) .refl
      extract_lets +onlyGivenNames us
      clear_value us
      refine .foldl (fun h1 => ?_) h
      extract_lets +onlyGivenNames part terms body _ k r
      have h₁ : Frame [.regs, .host, .mem, .twill] t r.1 := .sendRequest h1
      clear_value r
      exact .updQuery h₁

theorem Frame.sendExpands {n : Nat} {slots : List Nat} (h : Frame ps s t) (hp : [.regs, .host, .mem, .twill] ⊆ ps := by decide) :
    Frame ps s (sendExpands t n slots) :=
  h.trans hp <| by
    unfold Machine.sendExpands
    dsimp only
    split
    · exact .refl
    · exact .foldl (fun h => .updQuery (.sendRequest h)) .refl

theorem Frame.setFrontier {n : Nat} {f : List Nat} (h : Frame ps s t) (hp : [.regs, .host, .mem, .twill] ⊆ ps := by decide) :
    Frame ps s (setFrontier t n f) :=
  h.trans hp <| by
    unfold Machine.setFrontier
    dsimp only
    split
    · exact .sendScores (.updQuery .refl)
    · exact .updQuery .refl

theorem Frame.walkStart {n tile : Nat} (h : Frame ps s t) (hp : [.regs, .host, .lichen, .model, .mem, .twill, .ras] ⊆ ps := by decide) :
    Frame ps s (walkStart t n tile) :=
  h.trans hp <| by
    unfold Machine.walkStart
    dsimp only
    split
    · exact .refl
    · split
      · exact .refl
      · refine .ite .refl ?_
        refine .ite (.event .refl) ?_
        refine .queryTiers .refl (fun h => .ite (.charge (.updQuery h)) ?_)
        exact .queryTwill h (fun h1 => .setFrontier (.charge (.updQuery h)))

theorem Frame.roundCharge {sh : Shard} {q : Query} (h : Frame ps s t) (hp : [.regs, .mem, .free] ⊆ ps := by decide) :
    Frame ps s (roundCharge t sh q) :=
  h.trans hp <| by
    unfold Machine.roundCharge
    extract_lets +onlyGivenNames here judged s₁ s₂ s₃
    have h₁ : Frame [.regs, .mem, .free] t s₁ := .chargeUnits .refl
    clear_value s₁
    have h₂ : Frame [.regs, .mem, .free] t s₂ := .foldl (fun h => .slotTouch h) (.chargeUnits h₁)
    clear_value s₂
    have h₃ : Frame [.regs, .mem, .free] t s₃ := .charge h₂
    clear_value s₃
    clear_value here judged
    refine .ite ?_ h₃
    extract_lets +onlyGivenNames r
    exact .countList (.chargeUnits h₃)

theorem Frame.chargeAdj {sh : Shard} {x f : Nat} (h : Frame ps s t) (hp : [.regs, .mem, .free] ⊆ ps := by decide) :
    Frame ps s (chargeAdj t sh x f) :=
  h.trans hp <| by
    unfold Machine.chargeAdj
    exact .adjTouch (.chargeUnits .refl)

theorem Frame.roundEnd {n : Nat} (h : Frame ps s t) (hp : [.regs, .host, .mem, .twill, .free] ⊆ ps := by decide) :
    Frame ps s (roundEnd t n) :=
  h.trans hp <| by
    unfold Machine.roundEnd
    split
    · exact .refl
    · split
      · exact .refl
      · extract_lets +onlyGivenNames r s₁ open_
        have h₁ : Frame [.regs, .host, .mem, .twill, .free] t s₁ := .bump (.roundCharge .refl)
        clear_value s₁
        clear_value r open_
        refine .ite (.updQuery h₁) ?_
        extract_lets +onlyGivenNames pick r here away s₂
        have h₂ : Frame [.regs, .host, .mem, .twill, .free] t s₂ := .foldl (fun h => .chargeAdj h) (.updQuery h₁)
        clear_value s₂
        exact .setFrontier (.sendExpands h₂)

theorem Frame.sweepsOver (h : Frame ps s t) (hp : [.regs, .host, .lichen, .model, .mem, .twill, .ras] ⊆ ps := by decide) :
    Frame ps s (sweepsOver t) :=
  h.trans hp <| .foldl (fun h => .ite h (.ite (.advanceQuery (.updQuery h)) h)) .refl

theorem Frame.sweepBatchStart {part index : Nat} {fresh : Bool} (h : Frame ps s t) (hp : sweepParts ⊆ ps := by decide) :
    Frame ps s (sweepBatchStart t part index fresh) :=
  h.trans hp <| by
    unfold Machine.sweepBatchStart
    refine .ite .refl ?_
    split
    · exact .refl
    · extract_lets +onlyGivenNames wait ready go
      clear_value wait ready go
      refine .ite .refl ?_
      extract_lets +onlyGivenNames ns wins up s₁ sts s₃
      have h₁ : Frame sweepParts t s₁ := .mapHost .refl
      clear_value s₁
      clear_value ns wins up sts
      have h₃ : Frame sweepParts t s₃ := by
        unfold s₃
        refine .foldl (fun h => ?_) h₁
        extract_lets +onlyGivenNames b s₂
        have h₂ : Frame sweepParts t s₂ := .updStack h
        clear_value s₂
        exact .ite (.issueStep h₂) h₂
      clear_value s₃
      exact .sweepsOver h₃

theorem Frame.sweepTake {sh : Shard} {n : Nat} {q : Query} {r : SweepRec}
    (h : Frame ps s t) (hp : [.regs, .host, .mem, .free] ⊆ ps := by decide) :
    Frame ps s (sweepTake t sh n q r) :=
  h.trans hp <| by
    unfold Machine.sweepTake
    exact .updQuery (.ite (.chargeUnits (.slotTouch (.chargeUnits .refl))) (.slotTouch (.chargeUnits .refl)))

theorem Frame.sweepRecord {bank : Nat}
    (h : Frame ps s t) (hp : [.regs, .host, .lichen, .model, .mem, .twill, .ras, .free] ⊆ ps := by decide) :
    Frame ps s (sweepRecord t bank) :=
  h.trans hp <| by
    unfold Machine.sweepRecord
    dsimp only
    split
    · exact .refl
    · refine .sweepsOver ?_
      split
      · exact .mapLichen .refl
      · split
        · exact .mapLichen .refl
        · exact .queryTiers (.mapLichen .refl) (fun h => .sweepTake h)

theorem Frame.lowerThresh {n : Nat} {q : Query} (h : Frame ps s t) (hp : [.lichen] ⊆ ps := by decide) : Frame ps s (lowerThresh t n q) :=
  h.trans hp <| by
    unfold Machine.lowerThresh
    refine .foldl (fun h => .foldl (fun h1 => ?_) h) .refl
    split
    · exact .threshUpdate h1
    · exact h1

theorem Frame.listArrive {n : Nat} (h : Frame ps s t) (hp : [.regs, .host, .lichen, .model, .mem, .twill, .ras] ⊆ ps := by decide) :
    Frame ps s (listArrive t n) :=
  h.trans hp <| by
    unfold Machine.listArrive
    dsimp only
    split
    · exact .refl
    · split
      · exact .refl
      · exact .queryTiers .refl (fun h => .advanceQuery (.ite (.lowerThresh (.countList (.chargeUnits (.updQuery h))))
            (.countList (.chargeUnits (.updQuery h)))))

theorem Frame.rescored {sh : Shard} {n : Nat} {q : Query} {e : LEnt} {x : List Byte}
    (h : Frame ps s t) (hp : [.regs, .host, .lichen] ⊆ ps := by decide) :
    Frame ps s (rescored t sh n q e x) :=
  h.trans hp <| by
    unfold Machine.rescored
    dsimp only
    refine .countList (.updQuery (.ite .refl ?_))
    split
    · exact .mapLichen (.bump (.event .refl))
    · exact .bump (.event .refl)

theorem Frame.rescoreRead {n : Nat} (h : Frame ps s t) (hp : [.regs, .host, .lichen, .model, .mem, .twill, .ras] ⊆ ps := by decide) :
    Frame ps s (rescoreRead t n) :=
  h.trans hp <| by
    unfold Machine.rescoreRead
    dsimp only
    split
    · exact .refl
    · split
      · refine .queryTiers .refl (fun h => .ite ?_ ?_)
        · refine .endQuery ?_
          split
          · exact .rescored (.chargeUnits (.charge (.updQuery h)))
          · exact .updQuery (.updQuery h)
        · split
          · exact .rescored (.chargeUnits (.charge (.updQuery h)))
          · exact .updQuery (.updQuery h)
      · exact .refl

theorem Frame.disagreeCheck {win rg : Nat} (h : Frame ps s t) (hp : faultParts ⊆ ps := by decide) :
    Frame ps s (disagreeCheck t win rg) :=
  h.trans hp <| by
    unfold Machine.disagreeCheck
    extract_lets +onlyGivenNames g
    clear_value g
    split
    · exact .refl
    · extract_lets +onlyGivenNames s₁
      have h₁ : Frame faultParts t s₁ := .mapLichen .refl
      clear_value s₁
      refine .ite h₁ ?_
      refine .ite (.rgCheck h₁) ?_
      split
      · exact h₁
      · extract_lets +onlyGivenNames stored
        exact .ite (.rgCheck h₁) (.rgDamage h₁)

theorem Frame.deadline {n : Nat} (h : Frame ps s t) (hp : [.regs, .host, .lichen, .model, .mem, .twill, .ras] ⊆ ps := by decide) :
    Frame ps s (deadline t n) :=
  h.trans hp <| by
    unfold Machine.deadline
    dsimp only
    split
    · exact .refl
    · refine .ite .refl ?_
      refine .ite ?_ ?_
      · exact .endQuery (.updQuery (.ite (.countFinal (.dropRequests (.dropSweeps .refl))) (.dropRequests (.dropSweeps .refl))))
      · exact .updQuery (.ite (.countFinal (.dropRequests (.dropSweeps .refl))) (.dropRequests (.dropSweeps .refl)))

theorem Frame.deadlineGrace {n : Nat} (h : Frame ps s t) (hp : [.regs, .host, .lichen, .model, .mem, .twill, .ras] ⊆ ps := by decide) :
    Frame ps s (deadlineGrace t n) :=
  h.trans hp <| by
    unfold Machine.deadlineGrace
    split
    · exact .refl
    · exact .ite (.endQuery (.updQuery .refl)) .refl

/-! ### Updates -/

theorem Frame.fenceTry {n : Nat} (h : Frame ps s t) (hp : [.host, .lichen, .epoch, .twill] ⊆ ps := by decide) : Frame ps s (fenceTry t n) :=
  h.trans hp <| by
    unfold Machine.fenceTry
    dsimp only
    split
    · exact .refl
    · exact .ite .refl (.ite .refl (.finish (.mapEpoch .refl)))

theorem Frame.checkFences (h : Frame ps s t) (hp : [.host, .lichen, .epoch, .twill] ⊆ ps := by decide) : Frame ps s (checkFences t) :=
  h.trans hp <| by
    unfold Machine.checkFences
    exact .foldl (fun h => .fenceTry h) .refl

theorem Frame.epochFence {n : Nat} (h : Frame ps s t) (hp : [.host, .lichen, .epoch, .twill] ⊆ ps := by decide) :
    Frame ps s (epochFence t n) :=
  h.trans hp <| by
    unfold Machine.epochFence
    exact .fenceTry (.mapEpoch (.markRunning .refl))

theorem Frame.epochPin {n : Nat} {c : Cmd} (h : Frame ps s t) (hp : [.host, .lichen, .epoch, .twill] ⊆ ps := by decide) :
    Frame ps s (epochPin t n c) :=
  h.trans hp <| by
    unfold Machine.epochPin
    exact .ite (.finish .refl) (.ite (.finish .refl) (.ite (.finish .refl) (.finish (.mapEpoch .refl))))

theorem Frame.epochUnpin {n : Nat} {c : Cmd} (h : Frame ps s t) (hp : [.host, .lichen, .epoch, .twill] ⊆ ps := by decide) :
    Frame ps s (epochUnpin t n c) :=
  h.trans hp <| by
    unfold Machine.epochUnpin
    exact .ite (.finish .refl) (.finish (.mapEpoch .refl))

theorem Frame.pinExpiry {part e : Nat} (h : Frame ps s t) (hp : [.regs, .host, .epoch] ⊆ ps := by decide) :
    Frame ps s (pinExpiry t part e) :=
  h.trans hp <| by
    unfold Machine.pinExpiry
    exact .ite .refl (.event (.mapEpoch .refl))

theorem Frame.placeInsert {n : Nat} {sh : Shard} {gid attr : Nat} {f : ItemForms} {upsert : Bool} {state : Nat} (h : Frame ps s t)
    (hu : placeInsert t n sh gid attr f upsert state = .ok u) (hp : [.host, .shards, .epoch, .free] ⊆ ps := by decide) : Frame ps s u :=
  h.trans hp <| by
    unfold Machine.placeInsert at hu
    dsimp only at hu
    split at hu
    · cases hu
    · split at hu
      · cases hu
      · split at hu
        · cases hu
        · obtain ⟨v, hv, hu⟩ := except_bind_ok hu
          cases hu
          exact .addOut (.drawn (.updShard (.journalPlace .refl hv)))

theorem Frame.placeSmall {n : Nat} {sh : Shard} {gid typ attr : Nat} {x : Option Nat} (h : Frame ps s t)
    (hu : placeSmall t n sh gid typ attr x = .ok u) (hp : [.host, .shards, .epoch, .free] ⊆ ps := by decide) : Frame ps s u :=
  h.trans hp <| by
    unfold Machine.placeSmall at hu
    obtain ⟨v, hv, hu⟩ := except_bind_ok hu
    cases hu
    exact .addOut (.ite (.updShard (.journalPlace .refl hv)) (.journalPlace .refl hv))

theorem Frame.placeEntry {n : Nat} {c : Cmd} {i : Nat} (h : Frame ps s t) (hu : placeEntry t n c i = .ok u)
    (hp : [.host, .shards, .epoch, .free] ⊆ ps := by decide) : Frame ps s u :=
  h.trans hp <| by
    unfold Machine.placeEntry at hu
    dsimp only at hu
    split at hu
    · cases hu; exact .addOut .refl
    · split at hu
      · split at hu
        · cases hu; exact .addOut .refl
        · exact .placeSmall .refl hu
      · split at hu
        · cases hu; exact .addOut .refl
        · split at hu
          · exact .placeSmall .refl hu
          · split at hu
            · cases hu
            · exact .placeSmall .refl hu
      · split at hu
        · cases hu; exact .addOut .refl
        · split at hu
          · cases hu; exact .addOut .refl
          · split at hu
            · cases hu
            · split at hu
              · cases hu; exact .addOut .refl
              · exact .placeInsert .refl hu

theorem Frame.refuseRest {n st : Nat} (h : Frame ps s t) (hp : [.host, .lichen, .twill] ⊆ ps := by decide) :
    Frame ps s (refuseRest t n st) :=
  h.trans hp <| by
    unfold Machine.refuseRest
    split
    · exact .refl
    · exact .endBatch (.stopBatch (.addOut .refl))

theorem Frame.placeAll {place : State → Cmd → Nat → Except (Option Nat) State} {k n : Nat}
    (hf : ∀ {v w : State} {c : Cmd} {i : Nat}, Frame ps s v → place v c i = .ok w → Frame ps s w) (h : Frame ps s t)
    (hp : [.regs, .host, .lichen, .twill] ⊆ ps := by decide) : Frame ps s (placeAll place k t n) := by
  induction k generalizing t with
  | zero => exact h
  | succ k ih =>
    unfold Machine.placeAll
    split
    · exact h
    · split
      · exact h
      · split
        · exact h.trans hp (.refuseRest (.event .refl))
        · split
          · exact h.trans hp (.updCmd .refl)
          · next v hv => exact ih ((hf h hv).trans hp (.updCmd .refl))

theorem Frame.updateCmd {n op : Nat} (h : Frame ps s t) (hp : [.regs, .host, .shards, .lichen, .epoch, .twill, .free] ⊆ ps := by decide) :
    Frame ps s (updateCmd t n op) :=
  h.trans hp <| by
    unfold Machine.updateCmd
    dsimp only
    split
    · exact .refl
    · split
      · exact .refl
      · split
        · split
          · exact .endWith .refl
          · exact .checkFences (.endBatch (.placeAll (fun h hv => .placeEntry h hv) (.updCmd .refl)))
        · exact .checkFences (.endBatch (.placeAll (fun h hv => .placeEntry h hv) .refl))

theorem Frame.fullWaitExpiry {n : Nat} (h : Frame ps s t) (hp : [.regs, .host, .lichen, .epoch, .twill] ⊆ ps := by decide) :
    Frame ps s (fullWaitExpiry t n) :=
  h.trans hp <| by
    unfold Machine.fullWaitExpiry
    split
    · exact .refl
    · split
      · exact .ite .refl (.checkFences (.refuseRest (.event .refl)))
      · exact .refl

theorem Frame.pageClose {p : Nat} (h : Frame ps s t) (hp : [.regs, .epoch, .mem] ⊆ ps := by decide) : Frame ps s (pageClose t p) :=
  h.trans hp <| by
    unfold Machine.pageClose
    dsimp only
    split
    · exact .refl
    · exact .ite .refl (.charge (.setJournal .refl))

/-! ### Linking -/

theorem Frame.linkCheck {part index q : Nat} (h : Frame ps s t) (hp : [.regs, .shards] ⊆ ps := by decide) :
    Frame ps s (linkCheck t part index q) :=
  h.trans hp <| by
    unfold Machine.linkCheck
    split
    · exact .refl
    · split
      · exact .refl
      · exact .ite .refl (.ite (.updShard .refl) (.bump (.updShard .refl)))

theorem Frame.linkPart {part index q : Nat} {f : LinkParts → LinkParts} (h : Frame ps s t) (hp : [.regs, .shards] ⊆ ps := by decide) :
    Frame ps s (linkPart t part index q f) :=
  h.trans hp <| by
    unfold Machine.linkPart
    exact .linkCheck (.updShard .refl)

theorem Frame.writeAdj {sh : Shard} {x : Nat} {l : List Nat} (h : Frame ps s t) (hp : [.regs, .shards, .mem, .free] ⊆ ps := by decide) :
    Frame ps s (writeAdj t sh x l) :=
  h.trans hp <| by
    unfold Machine.writeAdj
    exact .adjTouch (.updShard (.charge .refl))

theorem Frame.overlayHeld {sh : Shard} {x : Nat} (h : Frame ps s t) (hp : [.regs, .host] ⊆ ps := by decide) :
    Frame ps s (overlayHeld t sh x) :=
  h.trans hp <| by
    unfold Machine.overlayHeld
    exact .eventIf .refl

theorem Frame.copyCode {sh : Shard} {x q : Nat} (h : Frame ps s t) (hp : [.lichen] ⊆ ps := by decide) : Frame ps s (copyCode t sh x q) :=
  h.trans hp <| by
    unfold Machine.copyCode
    exact .winWrite? (.winWrite? .refl)

theorem Frame.versionArrived {sh : Shard} {off : Nat} {b : List Byte}
    (h : Frame ps s t) (hp : [.regs, .shards, .lichen] ⊆ ps := by decide) :
    Frame ps s (versionArrived t sh off b) :=
  h.trans hp <| by
    unfold Machine.versionArrived
    extract_lets +onlyGivenNames x pub
    clear_value x pub
    refine .ite .refl ?_
    extract_lets +onlyGivenNames l s₁
    have h₁ : Frame [.regs, .shards, .lichen] t s₁ := .updShard .refl
    clear_value s₁
    clear_value l
    split
    · exact h₁
    · exact .linkPart (.copyCode h₁)

theorem Frame.insertWalkStart {part index tile : Nat}
    (h : Frame ps s t) (hp : [.regs, .host, .shards, .lichen, .model, .mem, .twill, .ras, .free] ⊆ ps := by decide) :
    Frame ps s (insertWalkStart t part index tile) :=
  h.trans hp <| by
    unfold Machine.insertWalkStart
    dsimp only
    split
    · exact .refl
    · refine .ite .refl ?_
      split
      · exact .ite .refl (.queryTiers .refl (fun h => .queryTwill h (fun h1 => .setFrontier (.charge (.updQuery h1)))))
      · exact .refl
      · refine .ite .refl ?_
        refine .ite ?_ ?_
        · exact .ite (.overlayHeld .refl) (.bump (.updShard (.writeAdj .refl)))
        · refine .ite .refl ?_
          refine .ite (.event .refl) ?_
          exact .queryTiers .refl (fun h => .queryTwill h (fun h1 => .setFrontier (.charge (.updShard (.addQuery h1)))))

theorem Frame.insertWalkEnd {n : Nat} {w : Query}
    (h : Frame ps s t) (hp : [.regs, .host, .shards, .lichen, .mem, .twill, .free] ⊆ ps := by decide) :
    Frame ps s (insertWalkEnd t n w) :=
  h.trans hp <| by
    unfold Machine.insertWalkEnd
    dsimp only
    split
    · exact .dropQuery .refl
    · exact .ite (.overlayHeld .refl) (.linkPart (.updShard (.copyCode (.writeAdj (.charge (.dropQuery .refl))))))

theorem Frame.walkRoundReturn {n : Nat}
    (h : Frame ps s t) (hp : [.regs, .host, .shards, .lichen, .model, .mem, .twill, .ras, .free] ⊆ ps := by decide) :
    Frame ps s (walkRoundReturn t n) :=
  h.trans hp <| by
    unfold Machine.walkRoundReturn
    dsimp only
    split
    · exact .refl
    · refine .ite (.insertWalkEnd .refl) ?_
      refine .ite .refl ?_
      refine .queryTiers .refl (fun h => ?_)
      split
      · exact .queryTwill h (fun h1 => .roundEnd h1)
      · refine .ite ?_ (.advanceQuery (.queryTwill h (fun h1 => .roundEnd h1)))
        exact .ite (.insertWalkEnd (.queryTwill h (fun h1 => .roundEnd h1))) (.queryTwill h (fun h1 => .roundEnd h1))

theorem Frame.backLink {part index c : Nat} (h : Frame ps s t) (hp : [.regs, .host, .shards, .mem, .free] ⊆ ps := by decide) :
    Frame ps s (backLink t part index c) :=
  h.trans hp <| by
    unfold Machine.backLink
    dsimp only
    split
    · exact .refl
    · split
      · exact .refl
      · refine .ite (.overlayHeld .refl) ?_
        refine .foldl (fun h => ?_) (.updShard (.ite .refl (.writeAdj (.charge .refl))))
        split
        · exact h
        · refine .ite h ?_
          split
          · exact .linkPart h
          · exact h

theorem Frame.freeSlots {part index : Nat} (h : Frame ps s t) (hp : [.shards, .lichen] ⊆ ps := by decide) :
    Frame ps s (freeSlots t part index) :=
  h.trans hp <| by
    unfold Machine.freeSlots
    split
    · exact .refl
    · exact .foldl (fun h => .freeSlot h) .refl

theorem Frame.retag {part index x : Nat} (h : Frame ps s t) (hp : [.lichen] ⊆ ps := by decide) : Frame ps s (retag t part index x) :=
  h.trans hp <| by
    unfold Machine.retag
    dsimp only
    split
    · exact .refl
    · split
      · exact .winWrite? (.ite (.winWrite? .refl) .refl)
      · exact .ite (.winWrite? .refl) .refl

theorem Frame.settleLink {part index q : Nat} (h : Frame ps s t) (hp : [.regs, .shards, .lichen, .mem, .free] ⊆ ps := by decide) :
    Frame ps s (settleLink t part index q) :=
  h.trans hp <| by
    unfold Machine.settleLink
    dsimp only
    split
    · exact .refl
    · split
      · exact .updShard (.winWrite? .refl)
      · exact .retag (.updShard (.structTouch (.winWrite? .refl)))

theorem Frame.settleDels {part index : Nat} (h : Frame ps s t) (hp : [.shards, .lichen] ⊆ ps := by decide) :
    Frame ps s (settleDels t part index) :=
  h.trans hp <| by
    unfold Machine.settleDels
    dsimp only
    split
    · exact .refl
    · exact .foldl (fun h => .retag (.updShard h)) .refl

theorem Frame.settle {part index : Nat} (h : Frame ps s t) (hp : [.regs, .shards, .lichen, .mem, .free] ⊆ ps := by decide) :
    Frame ps s (settle t part index) :=
  h.trans hp <| by
    unfold Machine.settle
    dsimp only
    split
    · exact .refl
    · exact .ite .refl (.freeSlots (.settleDels (.foldl (fun h => .settleLink h) (.charge .refl))))

theorem Frame.foldVersions {part index : Nat} (h : Frame ps s t) (hp : [.regs, .shards, .lichen, .mem, .free] ⊆ ps := by decide) :
    Frame ps s (foldVersions t part index) :=
  h.trans hp <| by
    unfold Machine.foldVersions
    dsimp only
    split
    · exact .refl
    · refine .ite .refl ?_
      exact .freeSlots (.foldl (fun h => .retag h) (.updShard
          (.foldl (fun h => .structTouch h) (.foldl (fun h => .hotWrite (.primaryTouch h)) (.charge .refl)))))

theorem Frame.repairWalk {part index : Nat} (h : Frame ps s t) (hp : [.regs, .host, .shards, .lichen, .mem, .free] ⊆ ps := by decide) :
    Frame ps s (repairWalk t part index) :=
  h.trans hp <| by
    unfold Machine.repairWalk
    dsimp only
    split
    · exact .refl
    · refine .ite .refl ?_
      refine .ite (.event (.freeSlots (.updShard .refl))) ?_
      refine .ite (.overlayHeld .refl) ?_
      refine .updShard ?_
      split
      · exact .writeAdj (.charge .refl)
      · exact .charge .refl

theorem Frame.linkEntry {n : Nat} {c : Cmd} {e : LinkEntry} (h : Frame ps s t) (hu : linkEntry t n c e = .ok u)
    (hp : [.regs, .host, .shards, .lichen, .mem, .free] ⊆ ps := by decide) : Frame ps s u :=
  h.trans hp <| by
    unfold Machine.linkEntry at hu
    dsimp only at hu
    split at hu
    · cases hu; exact .addOut .refl
    · split at hu
      · split at hu
        · cases hu; exact .addOut .refl
        · cases hu; exact .freeSlots (.addOut (.updShard .refl))
      · split at hu
        · cases hu; exact .addOut .refl
        · split at hu
          · cases hu
          · split at hu
            · cases hu
            · split at hu
              · cases hu; exact .updShard (.addOut (.writeAdj .refl))
              · split at hu
                · cases hu; exact .addOut (.writeAdj .refl)
                · cases hu; exact .linkPart (.copyCode (.addOut (.writeAdj .refl)))

theorem Frame.linkSupply {n : Nat} (h : Frame ps s t) (hp : [.regs, .host, .shards, .lichen, .mem, .twill, .free] ⊆ ps := by decide) :
    Frame ps s (linkSupply t n) :=
  h.trans hp <| by
    unfold Machine.linkSupply
    dsimp only
    split
    · exact .refl
    · split
      · exact .refl
      · split
        · exact .ite (.endWith .refl) .refl
        · split
          · exact .endBatch (.placeAll (fun h hv => .linkEntry h hv) .refl)
          · exact .ite (.endWith .refl) (.ite (.endWith .refl) (.endBatch (.placeAll (fun h hv => .linkEntry h hv) (.updCmd .refl))))

/-! ### IndexAdmin -/

theorem Frame.clearWin {w : Nat} (h : Frame ps s t) (hp : [.lichen] ⊆ ps := by decide) : Frame ps s (clearWin t w) :=
  h.mapLichen (fun hm => memWf_filter hm _) hp

theorem Frame.emptyWins {sh : Shard} (h : Frame ps s t) (hp : [.lichen] ⊆ ps := by decide) : Frame ps s (emptyWins t sh) :=
  h.trans hp <| by
    unfold Machine.emptyWins
    exact .foldl (fun h => .hotWrite h) (.foldl (fun h => .clearWin h) .refl)

theorem Frame.indexCreate {n : Nat} {c : Cmd} (h : Frame ps s t) (hp : [.host, .shards, .lichen, .felt, .twill, .free] ⊆ ps := by decide) :
    Frame ps s (indexCreate t n c) :=
  h.trans hp <| by
    unfold Machine.indexCreate
    exact .ite (.endWith .refl) (.ite (.endWith .refl) (.endWith (.drawn (.emptyWins (.mapFelt (.mapShards .refl))))))

theorem Frame.indexDescribe {n : Nat} {c : Cmd} (h : Frame ps s t) (hp : [.host, .lichen, .twill] ⊆ ps := by decide) :
    Frame ps s (indexDescribe t n c) :=
  h.trans hp <| by
    unfold Machine.indexDescribe
    refine .ite (.finish .refl) ?_
    split <;> exact .finish (.putResult .refl)

theorem Frame.indexRetire {n : Nat} {c : Cmd} (h : Frame ps s t) (hp : [.host, .shards, .lichen, .twill] ⊆ ps := by decide) :
    Frame ps s (indexRetire t n c) :=
  h.trans hp <| by
    unfold Machine.indexRetire
    split
    · exact .endWith .refl
    · exact .ite (.endWith .refl) (.markRunning (.updShard .refl))

theorem Frame.copyWin {src dst : Nat} (h : Frame ps s t) (hp : [.lichen] ⊆ ps := by decide) : Frame ps s (copyWin t src dst) :=
  h.trans hp <| by
    unfold Machine.copyWin
    exact .mapLichen (.clearWin .refl) fun hm => memWf_foldl_put hm _ fun _ he => memWf_ne hm (List.mem_filter.1 he).1

theorem Frame.buildWin {sh : Shard} {src dst : Nat} (h : Frame ps s t) (hp : [.lichen] ⊆ ps := by decide) :
    Frame ps s (buildWin t sh src dst) :=
  h.trans hp <| by
    unfold Machine.buildWin
    dsimp only
    refine .foldl (fun h => ?_) (.foldl (fun h => ?_) (.ite ?_ (.clearWin .refl)))
    · split
      · refine .t2Write ?_
        split
        · exact .t2Write h
        · exact h
      · split
        · exact .t2Write h
        · exact h
    · split
      · split
        · refine .t2Write ?_
          split
          · refine .t2Write ?_
            split
            · exact .t2Write h
            · exact h
          · split
            · exact .t2Write h
            · exact h
        · split
          · refine .t2Write ?_
            split
            · exact .t2Write h
            · exact h
          · split
            · exact .t2Write h
            · exact h
      · split
        · refine .t2Write ?_
          split
          · exact .t2Write h
          · exact h
        · split
          · exact .t2Write h
          · exact h
    · refine .foldl (fun h => ?_) (.clearWin .refl)
      split
      · exact .t2Write h
      · exact h

theorem Frame.indexRelocate {n : Nat} {c : Cmd} (h : Frame ps s t) (hp : [.host, .shards, .lichen, .twill] ⊆ ps := by decide) :
    Frame ps s (indexRelocate t n c) :=
  h.trans hp <| by
    unfold Machine.indexRelocate
    dsimp only
    split
    · exact .endWith .refl
    · split
      · exact .endWith .refl
      · refine .ite (.endWith .refl) ?_
        exact .ite .refl (.updShard (.ite (.copyWin (.markRunning .refl)) (.buildWin (.markRunning .refl))))

theorem Frame.bulkPut {part index : Nat} {e : BulkItem} (h : Frame ps s t) (hu : bulkPut t part index e = some u)
    (hp : [.shards, .lichen, .free] ⊆ ps := by decide) : Frame ps s u :=
  h.trans hp <| by
    unfold Machine.bulkPut at hu
    split at hu
    · cases hu
    · obtain ⟨x, _, rfl⟩ := Option.map_eq_some_iff.1 hu
      exact .drawn (.winWrite? (.hotWrite (.winWrite? (.updShard .refl))))

theorem Frame.bulkPuts {part index : Nat} {l : List BulkItem} (h : Frame ps s t) (hu : bulkPuts part index l t = some u)
    (hp : [.shards, .lichen, .free] ⊆ ps := by decide) : Frame ps s u := by
  induction l generalizing t with
  | nil => cases hu; exact h
  | cons e l ih =>
    obtain ⟨v, hv, hu⟩ := Option.bind_eq_some_iff.1 hu
    exact ih (h.bulkPut hv hp) hu

theorem Frame.endItems {n : Nat} {c : Cmd} {st : Nat} (h : Frame ps s t) (hp : [.host, .lichen, .twill] ⊆ ps := by decide) :
    Frame ps s (endItems t n c st) :=
  h.trans hp <| by
    unfold Machine.endItems
    exact .finish .refl

theorem Frame.bulkLoad {n : Nat} {c : Cmd} (h : Frame ps s t) (hp : [.host, .shards, .lichen, .twill, .free] ⊆ ps := by decide) :
    Frame ps s (bulkLoad t n c) :=
  h.trans hp <| by
    unfold Machine.bulkLoad
    dsimp only
    split
    · exact .endItems .refl
    · refine .ite (.endItems .refl) ?_
      split
      · exact .endItems .refl
      · refine .ite (.endItems .refl) (.ite (.endItems .refl) ?_)
        split
        · exact .endItems .refl
        · next v hv => exact .finish (.updShard (.bulkPuts .refl hv))

theorem Frame.sealShard {n : Nat} {c : Cmd} (h : Frame ps s t) (hp : [.host, .shards, .lichen, .twill] ⊆ ps := by decide) :
    Frame ps s (sealShard t n c) :=
  h.trans hp <| by
    unfold Machine.sealShard
    extract_lets +onlyGivenNames b k es
    clear_value b k es
    split
    · exact .endItems .refl
    · refine .ite (.endItems .refl) ?_
      extract_lets +onlyGivenNames entry built s₁
      have h₁ : Frame [.host, .shards, .lichen, .twill] t s₁ := .foldl (fun h => .hotWrite h) .refl
      clear_value s₁
      exact .markRunning (.updShard h₁)

theorem Frame.histLoad {n : Nat} {c : Cmd} (h : Frame ps s t) (hp : [.host, .shards, .lichen, .twill] ⊆ ps := by decide) :
    Frame ps s (histLoad t n c) :=
  h.trans hp <| by
    unfold Machine.histLoad
    split
    · exact .endWith .refl
    · split
      · exact .endWith .refl
      · exact .ite (.endWith .refl) (.endWith (.updShard .refl))

/-! ### Release -/

theorem Frame.partitionDrained {p : Nat} (h : Frame ps s t) (hp : [.img, .epoch] ⊆ ps := by decide) : Frame ps s (partitionDrained t p) :=
  h.trans hp <| by
    unfold Machine.partitionDrained
    exact .ite (.mapEpoch (.mapImg .refl)) .refl

theorem Frame.freeRetired (h : Frame ps s t) (hp : [.host, .shards, .lichen, .mem, .felt, .twill] ⊆ ps := by decide) :
    Frame ps s (freeRetired t) :=
  h.trans hp <| by
    unfold Machine.freeRetired
    refine .foldl (fun h => ?_) .refl
    split
    · exact .ite (.endWith (.mapFelt (.mapShards (.unpinDescriptor h)))) h
    · exact h

theorem Frame.releaseModels (h : Frame ps s t) (hp : [.model] ⊆ ps := by decide) : Frame ps s (releaseModels t) :=
  h.trans hp <| by
    unfold Machine.releaseModels
    exact .mapModel .refl

theorem Frame.afterCompletion {p : Nat}
    (h : Frame ps s t) (hp : [.img, .host, .shards, .lichen, .epoch, .model, .mem, .felt, .twill] ⊆ ps := by decide) :
    Frame ps s (afterCompletion t p) :=
  h.trans hp <| by
    unfold Machine.afterCompletion
    exact .releaseModels (.freeRetired (.partitionDrained .refl))

/-! ### Models -/

theorem Frame.submitDocs {n : Nat} {c : Cmd} {r : Role} {img : List Byte} {insert : Bool} {docs : List DocRec}
    (h : Frame ps s t) (hp : [.regs, .host, .model, .mem, .twill] ⊆ ps := by decide) :
    Frame ps s (submitDocs t n c r img insert docs) :=
  h.trans hp <| by
    unfold Machine.submitDocs
    exact .foldl (fun h => .ite (.submitSeq h) h) .refl

theorem Frame.embedEnd {n : Nat} {img : Option (List Byte)} (h : Frame ps s t) (hp : [.host, .lichen, .twill] ⊆ ps := by decide) :
    Frame ps s (embedEnd t n img) :=
  h.trans hp <| by
    unfold Machine.embedEnd
    dsimp only
    split
    · exact .refl
    · exact .ite .refl (.finish (.putResult .refl))

theorem Frame.embedCmd {n : Nat} {c : Cmd} (h : Frame ps s t) (hp : [.regs, .host, .lichen, .model, .mem, .twill] ⊆ ps := by decide) :
    Frame ps s (embedCmd t n c) :=
  h.trans hp <| by
    unfold Machine.embedCmd
    dsimp only
    split
    · exact .endWith .refl
    · refine .ite (.endWith .refl) ?_
      refine .ite (.endWith (.event .refl)) ?_
      refine .onTiers .refl (fun h => ?_)
      split
      · exact h
      · exact .embedEnd (.updCmd h)
      · exact .embedEnd (.submitDocs (.updCmd h))

theorem Frame.storeLatent {c : Cmd} {x gid : Nat} {hidden : List (List W32)} (h : Frame ps s t)
    (hu : storeLatent t c x gid hidden = some u) (hp : [.shards, .lichen] ⊆ ps := by decide) : Frame ps s u :=
  h.trans hp <| by
    unfold Machine.storeLatent at hu
    split at hu
    · split at hu
      · cases hu
      · obtain ⟨l, _, rfl⟩ := Option.map_eq_some_iff.1 hu
        exact .updShard (.spansWrite .refl)
    · cases hu

theorem Frame.placeDoc {docs : List DocRec} {n : Nat} {c : Cmd} {i : Nat} (h : Frame ps s t) (hu : placeDoc docs t n c i = .ok u)
    (hp : [.host, .shards, .lichen, .epoch, .free] ⊆ ps := by decide) : Frame ps s u :=
  h.trans hp <| by
    unfold Machine.placeDoc at hu
    dsimp only at hu
    split at hu
    · split at hu
      · cases hu; exact .addOut .refl
      · split at hu
        · cases hu; exact .addOut .refl
        · split at hu
          · cases hu
          · split at hu
            · cases hu; exact .addOut .refl
            · split at hu
              · cases hu; exact .addOut .refl
              · split at hu
                · cases hu
                · next v hv =>
                  split at hu
                  · cases hu; exact .placeInsert .refl hv
                  · split at hu
                    · next w hw =>
                      cases hu
                      obtain ⟨o, _, hw⟩ := Option.bind_eq_some_iff.1 hw
                      exact .storeLatent (.placeInsert .refl hv) hw
                    · cases hu; exact .updOut (.placeInsert .refl hv)
    · cases hu; exact .addOut .refl
    · cases hu

theorem Frame.placeDocs {n : Nat} (h : Frame ps s t) (hp : [.regs, .host, .shards, .lichen, .epoch, .twill, .free] ⊆ ps := by decide) :
    Frame ps s (placeDocs t n) :=
  h.trans hp <| by
    unfold Machine.placeDocs
    split
    · exact .refl
    · split
      · exact .refl
      · exact .checkFences (.endBatch (.placeAll (fun h hv => .placeDoc h hv) .refl))

theorem Frame.embedInsert {n : Nat}
    (h : Frame ps s t) (hp : [.regs, .host, .shards, .lichen, .epoch, .model, .mem, .twill, .free] ⊆ ps := by decide) :
    Frame ps s (embedInsert t n) :=
  h.trans hp <| by
    unfold Machine.embedInsert
    dsimp only
    split
    · exact .refl
    · refine .ite .refl ?_
      refine .ite (.placeDocs .refl) ?_
      split
      · refine .ite (.endWith .refl) ?_
        refine .ite (.endWith .refl) ?_
        refine .ite (.endWith .refl) ?_
        refine .ite (.endWith (.event .refl)) ?_
        split
        · exact .refl
        · exact .placeDocs (.updCmd .refl)
        · exact .ite (.refuseRest (.event (.updCmd .refl))) (.placeDocs (.submitDocs (.updCmd .refl)))
      · exact .endWith .refl

theorem Frame.rerankCmd {n : Nat} {c : Cmd} (h : Frame ps s t) (hp : [.regs, .host, .lichen, .model, .mem, .twill] ⊆ ps := by decide) :
    Frame ps s (rerankCmd t n c) :=
  h.trans hp <| by
    unfold Machine.rerankCmd
    extract_lets +onlyGivenNames b nt nc at_ tokens ids
    clear_value b nt nc at_ tokens ids
    split
    · exact .endWith .refl
    · refine .ite (.endWith .refl) ?_
      refine .ite (.endWith .refl) ?_
      refine .ite (.endWith .refl) ?_
      refine .ite (.endWith .refl) ?_
      refine .ite (.endWith .refl) ?_
      refine .ite (.endWith .refl) ?_
      refine .ite (.endWith (.event .refl)) ?_
      split
      · exact .endWith .refl
      · exact .refl
      · exact .onTiers .refl (fun h => .startRerank (.markRunning h))

theorem Frame.modelStore {n : Nat} {c : Cmd} (h : Frame ps s t) (hp : [.host, .lichen, .model, .twill] ⊆ ps := by decide) :
    Frame ps s (modelStore t n c) :=
  h.trans hp <| by
    unfold Machine.modelStore
    exact .ite (.finish .refl) (.endWith (.mapModel .refl))

theorem Frame.modelRemove {n : Nat} {c : Cmd} (h : Frame ps s t) (hp : [.host, .lichen, .model, .twill] ⊆ ps := by decide) :
    Frame ps s (modelRemove t n c) :=
  h.trans hp <| by
    unfold Machine.modelRemove
    split
    · exact .endWith .refl
    · exact .ite (.endWith .refl) (.endWith (.mapModel .refl))

theorem Frame.modelGroup {n : Nat} {c : Cmd} (h : Frame ps s t) (hp : [.host, .lichen, .model, .twill] ⊆ ps := by decide) :
    Frame ps s (modelGroup t n c) :=
  h.trans hp <| by
    unfold Machine.modelGroup
    extract_lets +onlyGivenNames b g nodes target
    exact .ite (.endWith .refl) (.ite (.endWith .refl) (.mapModel (.markRunning .refl)))

theorem Frame.groupsAtBoundary (h : Frame ps s t) (hp : [.host, .lichen, .model, .twill] ⊆ ps := by decide) :
    Frame ps s (groupsAtBoundary t) :=
  h.trans hp <| by
    unfold Machine.groupsAtBoundary
    dsimp only
    refine .foldl (fun h => ?_) (.mapModel .refl)
    split
    · exact .endWith h
    · exact h

theorem Frame.seqFails {b : Batch} {q : Seqn}
    (h : Frame ps s t) (hp : [.regs, .host, .shards, .lichen, .epoch, .twill, .free] ⊆ ps := by decide) :
    Frame ps s (seqFails t b q) :=
  h.trans hp <| by
    unfold Machine.seqFails
    split
    · exact .refl
    · refine .ite .refl ?_
      refine .ite (.placeDocs (.updCmd .refl)) ?_
      refine .ite (.embedEnd (.updOut .refl)) ?_
      split
      · exact .rerankEnd .refl
      · exact .endWith .refl

theorem Frame.dropBatch {b : Batch} (h : Frame ps s t) (hp : [.model] ⊆ ps := by decide) : Frame ps s (dropBatch t b) :=
  h.trans hp <| by
    unfold Machine.dropBatch
    exact .mapModel .refl

theorem Frame.failBatch {b : Batch}
    (h : Frame ps s t) (hp : [.regs, .host, .shards, .lichen, .epoch, .model, .twill, .free] ⊆ ps := by decide) :
    Frame ps s (failBatch t b) :=
  h.trans hp <| by
    unfold Machine.failBatch
    exact .ite (.dropBatch .refl) (.foldl (fun h => .seqFails h) (.dropBatch .refl))

theorem Frame.seqDone {b : Batch} {img : List Byte} {q : Seqn} {r : SeqSt}
    (h : Frame ps s t) (hp : [.regs, .host, .shards, .lichen, .epoch, .model, .mem, .twill, .free] ⊆ ps := by decide) :
    Frame ps s (seqDone t b img q r) :=
  h.trans hp <| by
    unfold Machine.seqDone
    dsimp only
    split
    · exact .refl
    · refine .ite .refl ?_
      split
      · exact .rerankScore .refl
      · exact .embedEnd (.updOut (.updCmd .refl))
      · exact .placeDocs (.updCmd .refl)
      · exact .searchVector .refl

theorem Frame.sendPartials {b : Batch} (h : Frame ps s t) (hp : [.regs, .host, .model, .mem, .twill] ⊆ ps := by decide) :
    Frame ps s (sendPartials t b) :=
  h.trans hp <| by
    unfold Machine.sendPartials
    dsimp only
    split
    · exact .refl
    · split
      · exact .refl
      · exact .mapModel (.foldl (fun h => .ite h (.toMember h)) .refl)

theorem Frame.usePartials {img : List Byte} {left : List (List Byte)} (h : Frame ps s t) (hp : [.model] ⊆ ps := by decide) :
    Frame ps s (usePartials t img left) :=
  h.trans hp <| by
    unfold Machine.usePartials
    split
    · exact .refl
    · exact .mapModel .refl

theorem Frame.batchDone {b : Batch}
    (h : Frame ps s t) (hp : [.regs, .host, .shards, .lichen, .epoch, .model, .mem, .twill, .free] ⊆ ps := by decide) :
    Frame ps s (batchDone t b) :=
  h.trans hp <| by
    unfold Machine.batchDone
    dsimp only
    split
    · exact .failBatch .refl
    · refine .ite .refl ?_
      refine .ite .refl ?_
      refine .ite ?_ ?_
      · refine .dropBatch (.ite ?_ (.events (.events (.bump (.bump (.bump .refl))))))
        exact .usePartials (.events (.events (.bump (.bump (.bump .refl)))))
      · refine .foldl (fun h => .seqDone h) (.dropBatch (.ite ?_ (.events (.events (.bump (.bump (.bump .refl)))))))
        exact .usePartials (.events (.events (.bump (.bump (.bump .refl)))))

theorem Frame.takeCluster {lane : Nat} {b : Batch} (h : Frame ps s t) (hp : [.model] ⊆ ps := by decide) :
    Frame ps s (takeCluster t lane b) :=
  h.trans hp <| by
    unfold Machine.takeCluster
    refine .ite .refl ?_
    split
    · exact .refl
    · exact .mapModel .refl

theorem Frame.fillHalf {lane : Nat} {d : List Byte} {pos : Nat} (h : Frame ps s t) (hp : [.mem] ⊆ ps := by decide) :
    Frame ps s (fillHalf t lane d pos) :=
  h.trans hp <| by
    unfold Machine.fillHalf
    exact .mapMem .refl fun hm => ⟨memWf_tierWrite hm.1 _ _, hm.2⟩

theorem Frame.roundStart {lane : Nat} (h : Frame ps s t) (hp : [.regs, .host, .model, .mem, .twill] ⊆ ps := by decide) :
    Frame ps s (roundStart t lane) :=
  h.trans hp <| by
    unfold Machine.roundStart
    dsimp only
    refine .ite .refl ?_
    split
    · exact .refl
    · exact .foldl (fun h => .sendPartials h) (.foldl (fun h => .takeCluster h) (.fillHalf (.mapModel .refl)))

theorem Frame.halfRefill {lane half : Nat}
    (h : Frame ps s t) (hp : [.regs, .host, .shards, .lichen, .epoch, .model, .mem, .twill, .free] ⊆ ps := by decide) :
    Frame ps s (halfRefill t lane half) :=
  h.trans hp <| by
    unfold Machine.halfRefill
    dsimp only
    split
    · exact .refl
    · refine .ite .refl ?_
      refine .ite (.fillHalf (.mapModel .refl)) ?_
      exact .ite (.foldl (fun h => .batchDone h) .refl) (.mapModel (.foldl (fun h => .batchDone h) .refl))

theorem Frame.modelLost {d : List Byte}
    (h : Frame ps s t) (hp : [.regs, .host, .shards, .lichen, .epoch, .model, .twill, .free] ⊆ ps := by decide) :
    Frame ps s (modelLost t d) :=
  h.trans hp <| by
    unfold Machine.modelLost
    exact .foldl (fun h => .event h) (.event (.foldl (fun h => .failBatch h) (.mapModel .refl)))

theorem Frame.modelCopyDone {i : Nat} {ok : Bool}
    (h : Frame ps s t) (hp : [.regs, .host, .shards, .lichen, .epoch, .model, .twill, .free] ⊆ ps := by decide) :
    Frame ps s (modelCopyDone t i ok) :=
  h.trans hp <| by
    unfold Machine.modelCopyDone
    dsimp only
    split
    · exact .refl
    · exact .ite .refl (.ite (.mapModel (.spansWrite .refl)) (.modelLost .refl))

theorem Frame.refetchSwatch {r : Resident} {i : Nat} (h : Frame ps s t) (hp : [.lichen] ⊆ ps := by decide) :
    Frame ps s (refetchSwatch t r i) :=
  h.trans hp <| .foldlFst (fun h => .ite h.t2Write h) .refl

theorem Frame.refetchDone {i : Nat} {ok again : Bool}
    (h : Frame ps s t) (hp : [.regs, .host, .shards, .lichen, .epoch, .model, .twill, .free] ⊆ ps := by decide) :
    Frame ps s (refetchDone t i ok again) :=
  h.trans hp <| by
    unfold Machine.refetchDone
    dsimp only
    split
    · exact .refl
    · refine .ite .refl ?_
      refine .ite (.modelLost .refl) ?_
      exact .foldl (fun h => .event h) (.event (.mapModel (.foldl (fun h => .refetchSwatch h) .refl)))

theorem Frame.memberBatch {src part : Nat} {g : Group} {seqs : List (List Nat)} (h : Frame ps s t) (hp : [.model] ⊆ ps := by decide) :
    Frame ps s (memberBatch t src part g seqs) :=
  h.trans hp <| by
    unfold Machine.memberBatch
    split
    · exact .refl
    · exact .mapModel .refl

theorem Frame.collective {p : Packet} (h : Frame ps s t) (hp : [.regs, .host, .model, .mem, .twill] ⊆ ps := by decide) :
    Frame ps s (collective t p) :=
  h.trans hp <| by
    unfold Machine.collective
    dsimp only
    refine .ite .refl ?_
    split
    · exact .mapTwill .refl
    · split
      · exact .memberBatch (.mapModel (.mapModel (.mapTwill .refl)))
      · exact .foldl (fun h => .sendPartials h) (.mapModel (.mapTwill .refl))

theorem Frame.collectiveTimeout {n : Nat}
    (h : Frame ps s t) (hp : [.regs, .host, .shards, .lichen, .epoch, .model, .twill, .ras, .usnea, .free] ⊆ ps := by decide) :
    Frame ps s (collectiveTimeout t n) :=
  h.trans hp <| by
    unfold Machine.collectiveTimeout
    split
    · exact .refl
    · split
      · exact .refl
      · exact .ite .refl (.failBatch (.ite .refl (.faultRecord .refl)))

/-! ### Memory -/

theorem Frame.placeWrite {p : Place} {b : List Byte} (h : Frame ps s t) (hp : [.lichen, .mem] ⊆ ps := by decide) :
    Frame ps s (placeWrite t p b) :=
  h.trans hp <| by
    unfold Machine.placeWrite
    split
    · exact .mapMem .refl fun hm => ⟨hm.1, memWf_tierWrite hm.2 _ _⟩
    · exact .t2Write .refl
    · exact .mapMem .refl fun hm => ⟨memWf_tierWrite hm.1 _ _, hm.2⟩
    · exact .refl

theorem Frame.sheetApply (h : Frame ps s t) (hp : [.mem, .free] ⊆ ps := by decide) : Frame ps s (sheetApply t) :=
  h.trans hp <| by
    unfold Machine.sheetApply
    refine .ite .refl ?_
    extract_lets +onlyGivenNames w parts wanted keep weights free give moved
    exact .pinDescriptors (.mapMem .refl fun hm => memWf_foldl_zeroSheet (m := { t.mem with sheet := give.1 }) hm moved)

theorem Frame.swatchMove {src dst cmd : Nat} {crcOk : Bool}
    (h : Frame ps s t) (hp : [.regs, .host, .shards, .lichen, .epoch, .mem, .twill, .sec, .ras, .usnea] ⊆ ps := by decide) :
    Frame ps s (swatchMove t src dst cmd crcOk) :=
  h.trans hp <| by
    unfold Machine.swatchMove
    extract_lets +onlyGivenNames c tag a b again drop
    have hdrop : ∀ {v}, Frame [.regs, .host, .shards, .lichen, .epoch, .mem, .twill, .sec, .ras, .usnea] t v → Frame [.regs, .host, .shards, .lichen, .epoch, .mem, .twill, .sec, .ras, .usnea] t (drop v) :=
      fun h => .mapMem h
    clear_value c tag a b again drop
    refine .ite .refl (.ite (.ite (.endWith (.tierRefusal .refl)) (.tierRefusal .refl)) (.ite (.zeroRateEnd (hdrop .refl)) ?_))
    extract_lets +onlyGivenNames s₁
    have h₁ : Frame [.regs, .host, .shards, .lichen, .epoch, .mem, .twill, .sec, .ras, .usnea] t s₁ := .ite (.charge (.charge .refl)) .refl
    clear_value s₁
    refine .ite ?_ (.ite ?_ (.event (.mapMem h₁)))
    · have h₂ := hdrop (h₁.placeWrite (p := b) (b := placeRead s₁ a 4096))
      split
      · exact .mapMem h₂
      · exact h₂
    · exact .ite (.faultCmd (.faultRecord (.event (hdrop h₁)))) (.faultRecord (.event (hdrop h₁)))

theorem Frame.ddrErr {ch a : Nat} {ue : Bool} (h : Frame ps s t) (hp : [.regs] ⊆ ps := by decide) : Frame ps s (ddrErr t ch a ue) :=
  h.trans hp <| by
    unfold Machine.ddrErr
    exact .setRo (.setRo .refl)

theorem Frame.softPpr {ch row : Nat} {spare : Bool} (h : Frame ps s t) (hp : [.regs, .host, .mem] ⊆ ps := by decide) :
    Frame ps s (softPpr t ch row spare) :=
  h.trans hp <| by
    unfold Machine.softPpr
    exact .ite (.event (.mapMem (.setRo .refl))) (.event (.setRo .refl))

theorem Frame.ddrCorrected {ch a row : Nat} {spare : Bool} (h : Frame ps s t) (hp : [.regs, .host, .mem] ⊆ ps := by decide) :
    Frame ps s (ddrCorrected t ch a row spare) :=
  h.trans hp <| by
    unfold Machine.ddrCorrected
    exact .ite (.softPpr (.mapMem (.event (.bump (.ddrErr .refl))))) (.mapMem (.event (.bump (.ddrErr .refl))))

theorem Frame.ddrUncorrectable {ch a : Nat} (h : Frame ps s t) (hp : [.regs, .host, .mem, .ras, .usnea] ⊆ ps := by decide) :
    Frame ps s (ddrUncorrectable t ch a) :=
  h.trans hp <| by
    unfold Machine.ddrUncorrectable
    exact .faultRecord (.mapMem (.event (.bump (.ddrErr .refl))))

theorem Frame.patrolRead {ch line : Nat} {r : LineRead} (h : Frame ps s t) (hp : [.regs, .host, .mem, .ras, .usnea] ⊆ ps := by decide) :
    Frame ps s (patrolRead t ch line r) :=
  h.trans hp <| by
    unfold Machine.patrolRead
    dsimp only
    refine .ite .refl ?_
    refine .ite ?_ ?_
    · refine .mapMem ?_
      split
      · exact .refl
      · exact .ddrCorrected .refl
      · exact .ddrUncorrectable .refl
    · refine .event (.bump (.mapMem ?_))
      split
      · exact .refl
      · exact .ddrCorrected .refl
      · exact .ddrUncorrectable .refl

theorem Frame.dqsTick {temps : List Nat} (h : Frame ps s t) (hp : [.regs, .host] ⊆ ps := by decide) : Frame ps s (dqsTick t temps) :=
  h.trans hp <| by
    unfold Machine.dqsTick
    exact .ite .refl (.foldl (fun h => .eventIf (.setRo h)) .refl)

theorem Frame.cxlServe {a n : Nat} {data : List Byte} (h : Frame ps s t) (hp : [.regs, .lichen, .mem] ⊆ ps := by decide) :
    Frame ps s (cxlServe t a n data) :=
  h.trans hp <| by
    unfold Machine.cxlServe
    exact .ite (.mapMem (.charge .refl)) (.placeWrite (.charge .refl))

theorem Frame.cxlDrain {n : Nat} (h : Frame ps s t) (hp : [.regs, .lichen, .mem] ⊆ ps := by decide) : Frame ps s (cxlDrain n t) := by
  induction n generalizing t with
  | zero => exact h
  | succ n ih =>
    unfold Machine.cxlDrain
    split
    · exact h
    · exact .ite h (ih (h.trans hp (.cxlServe (.mapMem .refl))))

theorem Frame.cxlRequest {a n : Nat} {data : List Byte} (h : Frame ps s t) (hp : [.regs, .lichen, .mem] ⊆ ps := by decide) :
    Frame ps s (cxlRequest t a n data) :=
  h.trans hp <| by
    unfold Machine.cxlRequest
    exact .cxlDrain (.mapMem .refl)

theorem Frame.cxlMem {hpa : Nat} {data : Option (List Byte)} (h : Frame ps s t) (hp : [.regs, .lichen, .mem] ⊆ ps := by decide) :
    Frame ps s (cxlMem t hpa data) :=
  h.trans hp <| by
    unfold Machine.cxlMem
    dsimp only
    refine .ite (.mapMem .refl) ?_
    split
    · exact .cxlRequest .refl
    · exact .ite .refl (.cxlRequest .refl)

theorem Frame.bar4 {off len : Nat} {data : Option (List Byte)} (h : Frame ps s t) (hp : [.regs, .lichen, .mem] ⊆ ps := by decide) :
    Frame ps s (bar4 t off len data) :=
  h.trans hp <| by
    unfold Machine.bar4
    refine .ite ?_ ?_
    · split
      · exact .mapMem .refl
      · exact .refl
    · split
      · exact .cxlRequest .refl
      · exact .ite .refl (.cxlRequest .refl)

theorem Frame.hdmCommit {base : Nat} (h : Frame ps s t) (hp : [.mem] ⊆ ps := by decide) : Frame ps s (hdmCommit t base) :=
  h.trans hp <| by
    unfold Machine.hdmCommit
    exact .ite .refl (.mapMem .refl)

theorem Frame.applyRates (h : Frame ps s t) (hp : [.mem] ⊆ ps := by decide) : Frame ps s (applyRates t) :=
  h.trans hp <| by
    unfold Machine.applyRates
    exact .ite .refl (.mapMem .refl)

theorem Frame.refill (h : Frame ps s t) (hp : [.regs, .lichen, .mem] ⊆ ps := by decide) : Frame ps s (refill t) :=
  h.trans hp <| by
    unfold Machine.refill
    extract_lets +onlyGivenNames s₁ s₂
    have h₁ : Frame [.regs, .lichen, .mem] t s₁ := .foldl (fun h => .bump h) .refl
    clear_value s₁
    have h₂ : Frame [.regs, .lichen, .mem] t s₂ := .mapMem h₁
    clear_value s₂
    exact .cxlDrain h₂

/-! ### Felt -/

theorem Frame.updBlock {b : Nat} {f : Block → Block} (h : Frame ps s t) (hp : [.felt] ⊆ ps := by decide) : Frame ps s (t.updBlock b f) :=
  h.trans hp <| by
    unfold State.updBlock
    exact .mapFelt .refl

theorem Frame.bumpSat {r : Reg} {m n : Nat} (h : Frame ps s t) (hp : [.regs] ⊆ ps := by decide) : Frame ps s (t.bumpSat r m n) :=
  h.trans hp <| by
    unfold State.bumpSat
    exact .setRo .refl

theorem Frame.drawSpare (h : Frame ps s t) (hp : [.regs, .host, .felt] ⊆ ps := by decide) : Frame ps s (drawSpare t) :=
  h.trans hp <| by
    unfold Machine.drawSpare
    exact .eventIf (.eventIf (.mapFelt .refl))

theorem Frame.retireBlock {b : Nat} (h : Frame ps s t) (hp : [.regs, .host, .felt] ⊆ ps := by decide) : Frame ps s (retireBlock t b) :=
  h.trans hp <| by
    unfold Machine.retireBlock
    exact .ite .refl (.event (.ite (.mapFelt (.bumpSat (.updBlock .refl))) (.drawSpare (.bumpSat (.updBlock .refl)))))

theorem Frame.stripeParity {g pos : Nat} (h : Frame ps s t) (hp : [.felt] ⊆ ps := by decide) : Frame ps s (stripeParity t g pos) :=
  h.trans hp <| by
    unfold Machine.stripeParity
    dsimp only
    split
    · exact .ite .refl (.mapFelt (.updBlock .refl))
    · exact .refl

theorem Frame.writeCodeword {l kind gen b : Nat} (h : Frame ps s t) (hp : [.regs, .felt] ⊆ ps := by decide) :
    Frame ps s (writeCodeword t l kind gen b) :=
  h.trans hp <| by
    unfold Machine.writeCodeword
    exact .ite (.bump (.stripeParity (.updBlock (.mapFelt .refl)))) (.stripeParity (.updBlock (.mapFelt .refl)))

theorem Frame.freeBlock {fast : Bool} (h : Frame ps s t) (hp : [.felt, .free] ⊆ ps := by decide) : Frame ps s (freeBlock t fast).2 :=
  h.trans hp <| by
    unfold Machine.freeBlock
    exact .updBlock (.drawn .refl)

theorem Frame.copyCodeword {l b : Nat} (h : Frame ps s t) (hp : [.regs, .felt] ⊆ ps := by decide) : Frame ps s (copyCodeword t l b) :=
  h.trans hp <| by
    unfold Machine.copyCodeword
    split
    · exact .refl
    · exact .writeCodeword .refl

theorem Frame.eraseBlock {b : Nat} (h : Frame ps s t) (hp : [.felt] ⊆ ps := by decide) : Frame ps s (eraseBlock t b) :=
  h.trans hp <| by
    unfold Machine.eraseBlock
    exact .mapFelt (.updBlock .refl)

theorem Frame.moveBlock {b dest : Nat} {fast : Bool} (h : Frame ps s t) (hp : [.regs, .felt] ⊆ ps := by decide) :
    Frame ps s (moveBlock t b dest fast) :=
  h.trans hp <| by
    unfold Machine.moveBlock
    exact .eraseBlock (.foldl (fun h => .copyCodeword h) (.updBlock .refl))

theorem Frame.mediaFound (h : Frame ps s t) (hp : [.regs, .host, .felt, .sec, .power] ⊆ ps := by decide) : Frame ps s (mediaFound t) :=
  h.trans hp <| by
    unfold Machine.mediaFound
    extract_lets +onlyGivenNames s₁
    have h₁ : Frame [.regs, .host, .felt, .sec, .power] t s₁ := .extendMeas .refl
    clear_value s₁
    split
    · exact .mapPower (.eventIf h₁)
    · extract_lets +onlyGivenNames all use bad good spare per s₂ s₃ s₄
      have h₂ : Frame [.regs, .host, .felt, .sec, .power] t s₂ := .mapFelt h₁
      clear_value s₂
      have h₃ : Frame [.regs, .host, .felt, .sec, .power] t s₃ := .eventIf h₂
      clear_value s₃
      have h₄ : Frame [.regs, .host, .felt, .sec, .power] t s₄ := .mapRegs h₃
      clear_value s₄
      exact .mapPower h₄

theorem Frame.nandTraining {ch : Nat} {ok : Bool} {ids : List (Nat × Nat × List Nat)}
    (h : Frame ps s t) (hp : [.regs, .host, .felt, .sec, .ras, .power] ⊆ ps := by decide) :
    Frame ps s (nandTraining t ch ok ids) :=
  h.trans hp <| by
    unfold Machine.nandTraining
    refine .ite .refl ?_
    extract_lets +onlyGivenNames s₁ s₂ s₃ _ s₄
    have h₂ : Frame [.regs, .host, .felt, .sec, .ras, .power] t s₂ := .eventIf (.mapFelt .refl)
    clear_value s₂
    have h₃ : Frame [.regs, .host, .felt, .sec, .ras, .power] t s₃ := .mapFelt h₂
    clear_value s₃
    have h₄ : Frame [.regs, .host, .felt, .sec, .ras, .power] t s₄ := by
      unfold s₄
      split
      · exact .mapFelt h₂
      · exact .ite h₃ (.event (.setUnit (.mapFelt h₃)))
    clear_value s₄
    exact .ite (.mediaFound h₄) h₄

theorem Frame.mapCheckpoint (h : Frame ps s t) (hp : [.felt] ⊆ ps := by decide) : Frame ps s (mapCheckpoint t) :=
  h.trans hp <| by
    unfold Machine.mapCheckpoint
    exact .ite (.mapFelt .refl) .refl

theorem Frame.mapRebuild (h : Frame ps s t) (hp : [.felt] ⊆ ps := by decide) : Frame ps s (mapRebuild t) :=
  h.trans hp <| by
    unfold Machine.mapRebuild
    exact .ite .refl (.mapFelt .refl)

theorem Frame.unmapAll {l : List Nat} (h : Frame ps s t) (hp : [.felt] ⊆ ps := by decide) : Frame ps s (unmapAll t l) :=
  h.trans hp <| by
    unfold Machine.unmapAll
    exact .mapFelt .refl

theorem Frame.setZone {p z : Nat} {x : Zone} (h : Frame ps s t) (hp : [.felt] ⊆ ps := by decide) : Frame ps s (t.setZone p z x) :=
  h.trans hp <| by
    unfold State.setZone
    exact .mapFelt .refl

theorem Frame.zoneWrite {p z kind : Nat} {ls : List Nat} (h : Frame ps s t) (hp : [.regs, .felt] ⊆ ps := by decide) :
    Frame ps s (zoneWrite t p z kind ls) :=
  h.trans hp <| by
    unfold Machine.zoneWrite
    extract_lets +onlyGivenNames bs gen at_ s₁ s₂ x n
    have h₁ : Frame [.regs, .felt] t s₁ := .foldl (fun h => .writeCodeword h) .refl
    clear_value s₁
    have h₂ : Frame [.regs, .felt] t s₂ := .mapFelt h₁
    clear_value s₂
    exact .setZone h₂

theorem Frame.deviceWrite {p : Nat} {ckpt : Bool} {index : Nat} {ls : List Nat} (h : Frame ps s t)
    (hu : deviceWrite t p ckpt index ls = some u) (hp : [.regs, .felt, .free] ⊆ ps := by decide) : Frame ps s u :=
  h.trans hp <| by
    unfold Machine.deviceWrite at hu
    dsimp only at hu
    split at hu
    · cases hu
    · split at hu
      · split at hu
        · cases hu
        · split at hu
          · cases hu
          · cases hu; exact .zoneWrite .refl
      · cases hu; exact .foldl (fun h => .writeCodeword (.freeBlock h)) .refl

theorem Frame.zoneNeeded {p : Nat} (h : Frame ps s t) (hp : [.regs, .host, .felt] ⊆ ps := by decide) : Frame ps s (zoneNeeded t p) :=
  h.trans hp <| by
    unfold Machine.zoneNeeded
    exact .ite (.event (.mapFelt .refl)) .refl

theorem Frame.zoneOpen {n : Nat} {c : Cmd} (h : Frame ps s t) (hp : [.host, .lichen, .felt, .twill] ⊆ ps := by decide) :
    Frame ps s (zoneOpen t n c) :=
  h.trans hp <| by
    unfold Machine.zoneOpen
    dsimp only
    split
    · exact .endWith .refl
    · exact .ite (.endWith .refl) (.endWith (.mapFelt (.setZone .refl)))

theorem Frame.zonesRelease {p : Nat} (h : Frame ps s t) (hp : [.felt] ⊆ ps := by decide) : Frame ps s (zonesRelease t p) :=
  h.trans hp <| by
    unfold Machine.zonesRelease
    exact .ite .refl (.mapFelt .refl)

theorem Frame.onZone {n sub : Nat} {f : Cmd → State} (h : Frame ps s t) (hf : ∀ {c : Cmd}, Frame ps s (f c))
    (hp : [.felt] ⊆ ps := by decide) : Frame ps s (onZone t n sub f) :=
  .onAdmitted h (.ite (hf.zonesRelease hp) h)

theorem Frame.appendEntry {p z e : Nat} (h : Frame ps s t) (hp : [.regs, .host, .mem, .felt] ⊆ ps := by decide) :
    Frame ps s (appendEntry t p z e).1 :=
  h.trans hp <| by
    unfold Machine.appendEntry
    dsimp only
    rw [apply_ite Prod.fst]
    exact .ite (.event .refl) (.zoneWrite (.charge (.charge .refl)))

theorem Frame.zoneAppend {n : Nat} {c : Cmd} (h : Frame ps s t) (hp : [.regs, .host, .lichen, .mem, .felt, .twill] ⊆ ps := by decide) :
    Frame ps s (zoneAppend t n c) :=
  h.trans hp <| by
    unfold Machine.zoneAppend
    dsimp only
    split
    · exact .endWith .refl
    · exact .ite (.endWith .refl) (.finish (.putResult (.foldlFst (fun h => .appendEntry h) .refl)))

theorem Frame.zoneFinish {n : Nat} {c : Cmd} (h : Frame ps s t) (hp : [.host, .lichen, .felt, .twill] ⊆ ps := by decide) :
    Frame ps s (zoneFinish t n c) :=
  h.trans hp <| by
    unfold Machine.zoneFinish
    dsimp only
    split
    · exact .endWith .refl
    · exact .ite (.endWith .refl) (.endWith (.setZone .refl))

theorem Frame.zoneReset {n : Nat} {c : Cmd} (h : Frame ps s t) (hp : [.host, .lichen, .felt, .twill] ⊆ ps := by decide) :
    Frame ps s (zoneReset t n c) :=
  h.trans hp <| by
    unfold Machine.zoneReset
    dsimp only
    split
    · exact .endWith .refl
    · exact .ite (.endWith .refl) (.setZone (.markRunning .refl))

theorem Frame.zoneErase {p z : Nat} (h : Frame ps s t) (hp : [.host, .lichen, .felt, .twill] ⊆ ps := by decide) :
    Frame ps s (zoneErase t p z) :=
  h.trans hp <| by
    unfold Machine.zoneErase
    dsimp only
    split
    · exact .refl
    · refine .ite (.zonesRelease (.endWith (.setZone .refl))) ?_
      exact .zonesRelease (.endWith (.setZone (.foldl (fun h => .eraseBlock h) .refl)))

theorem Frame.zoneReport {n : Nat} {c : Cmd} (h : Frame ps s t) (hp : [.host, .lichen, .twill] ⊆ ps := by decide) :
    Frame ps s (zoneReport t n c) :=
  h.trans hp <| by
    unfold Machine.zoneReport
    exact .ite (.endWith .refl) (.finish (.putResult .refl))

theorem Frame.zoneModeApply {p : Nat} {was : Bool} (h : Frame ps s t) (hp : [.felt] ⊆ ps := by decide) :
    Frame ps s (zoneModeApply t p was) :=
  h.trans hp <| by
    unfold Machine.zoneModeApply
    exact .ite .refl (.ite (.foldl (fun h => .setZone h) (.mapFelt .refl)) (.zonesRelease .refl))

theorem Frame.garbageCollect {b dest : Nat} (h : Frame ps s t) (hp : [.regs, .felt] ⊆ ps := by decide) :
    Frame ps s (garbageCollect t b dest) :=
  h.trans hp <| by
    unfold Machine.garbageCollect
    exact .ite .refl (.moveBlock .refl)

theorem Frame.wearLevel {b dest : Nat} (h : Frame ps s t) (hp : [.regs, .felt] ⊆ ps := by decide) : Frame ps s (wearLevel t b dest) :=
  h.trans hp <| by
    unfold Machine.wearLevel
    exact .ite .refl (.moveBlock .refl)

theorem Frame.blockRefresh {b dest : Nat} (h : Frame ps s t) (hp : [.regs, .felt] ⊆ ps := by decide) : Frame ps s (blockRefresh t b dest) :=
  h.trans hp <| by
    unfold Machine.blockRefresh
    exact .ite .refl (.moveBlock .refl)

theorem Frame.fastFold {b dest : Nat} (h : Frame ps s t) (hp : [.regs, .felt] ⊆ ps := by decide) : Frame ps s (fastFold t b dest) :=
  h.trans hp <| by
    unfold Machine.fastFold
    exact .ite .refl (.moveBlock .refl)

theorem Frame.flashPatrol {b corrected : Nat} (h : Frame ps s t) (hp : [.regs, .felt] ⊆ ps := by decide) :
    Frame ps s (flashPatrol t b corrected) :=
  h.trans hp <| by
    unfold Machine.flashPatrol
    exact .ite .refl (.mapFelt (.ite (.updBlock (.bumpSat .refl)) (.bumpSat .refl)))

theorem Frame.readNote {l b corrected : Nat} (h : Frame ps s t) (hp : [.regs, .felt] ⊆ ps := by decide) :
    Frame ps s (readNote t l b corrected) :=
  h.trans hp <| by
    unfold Machine.readNote
    exact .updBlock (.bumpSat (.ite (.bump (.mapFelt .refl)) (.mapFelt .refl)))

theorem Frame.ladderNote {d retries soft : Nat} (h : Frame ps s t) (hp : [.regs] ⊆ ps := by decide) :
    Frame ps s (ladderNote t d retries soft) :=
  h.trans hp <| by
    unfold Machine.ladderNote
    exact .bumpSat (.bumpSat .refl)

theorem Frame.codewordLost {l : Nat} (h : Frame ps s t) (hp : [.shards] ⊆ ps := by decide) : Frame ps s (codewordLost t l) :=
  h.trans hp <| by
    unfold Machine.codewordLost
    extract_lets +onlyGivenNames p gone
    exact .mapShards .refl

theorem Frame.journalPageLost {p jseq : Nat} (h : Frame ps s t) (hp : [.regs, .host, .epoch, .ras, .usnea] ⊆ ps := by decide) :
    Frame ps s (journalPageLost t p jseq) :=
  h.trans hp <| by
    unfold Machine.journalPageLost
    exact .faultRecord (.setJournal .refl)

theorem Frame.codewordRead {l : Nat} {step : LadderStep}
    (h : Frame ps s t) (hp : [.regs, .host, .shards, .epoch, .felt, .ras, .usnea, .free] ⊆ ps := by decide) :
    Frame ps s (codewordRead t l step) :=
  h.trans hp <| by
    unfold Machine.codewordRead
    dsimp only
    refine .ite ?_ ?_
    · split
      · exact .journalPageLost (.event (.event .refl))
      · exact .refl
    · split
      · exact .refl
      · split
        · exact .ite .refl (.readNote .refl)
        · exact .ite .refl (.drawn (.ladderNote (.readNote .refl)))
        · exact .ite .refl (.copyCodeword (.freeBlock (.ladderNote (.readNote .refl))))
        · refine .ite ?_ ?_
          · refine .faultRecord (.codewordLost (.ite ?_ ?_))
            · exact .event (.event (.bumpSat (.ite (.readNote .refl) (.ladderNote (.readNote .refl)))))
            · exact .event (.bumpSat (.ite (.readNote .refl) (.ladderNote (.readNote .refl))))
          · exact .copyCodeword (.freeBlock (.bumpSat (.ite (.readNote .refl) (.ladderNote (.readNote .refl)))))
        · refine .faultRecord (.codewordLost (.ite ?_ ?_))
          · exact .event (.event (.bumpSat (.ite (.readNote .refl) (.ladderNote (.readNote .refl)))))
          · exact .event (.bumpSat (.ite (.readNote .refl) (.ladderNote (.readNote .refl))))

theorem Frame.rewritePages {die : Nat} (h : Frame ps s t) (hp : [.epoch, .free] ⊆ ps := by decide) : Frame ps s (rewritePages t die) :=
  h.trans hp <| by
    unfold Machine.rewritePages
    exact .drawn (.mapEpoch .refl)

theorem Frame.programFail {b : Nat} (h : Frame ps s t) (hp : [.regs, .host, .epoch, .felt, .free] ⊆ ps := by decide) :
    Frame ps s (programFail t b) :=
  h.trans hp <| by
    unfold Machine.programFail
    exact .ite .refl (.retireBlock (.foldl (fun h => .copyCodeword h) (.freeBlock (.rewritePages (.bumpSat .refl)))))

theorem Frame.eraseFail {b : Nat} (h : Frame ps s t) (hp : [.regs, .host, .felt] ⊆ ps := by decide) : Frame ps s (eraseFail t b) :=
  h.trans hp <| by
    unfold Machine.eraseFail
    exact .ite .refl (.retireBlock (.bumpSat .refl))

theorem Frame.dieLost {die : Nat} (h : Frame ps s t) (hp : [.regs, .shards, .epoch, .felt, .free] ⊆ ps := by decide) :
    Frame ps s (dieLost t die) :=
  h.trans hp <| by
    unfold Machine.dieLost
    exact .rewritePages (.foldl (fun h => .ite (.codewordLost h) (.bumpSat (.copyCodeword (.freeBlock h)))) .refl)

theorem Frame.dieFence {die : Nat} (h : Frame ps s t) (hp : fenceParts ⊆ ps := by decide) :
    Frame ps s (dieFence t die) :=
  h.trans hp <| by
    unfold Machine.dieFence
    exact .ite .refl (.dieLost (.event (.unitFault .refl)))

theorem Frame.dieTemp {die : Nat} {n : ℤ} (h : Frame ps s t) (hp : [.regs, .host, .felt] ⊆ ps := by decide) :
    Frame ps s (dieTemp t die n) :=
  h.trans hp <| by
    unfold Machine.dieTemp
    exact .ite .refl (.eventIf (.bumpSat (.mapFelt .refl)))

theorem Frame.healthWrite (h : Frame ps s t) (hp : [.felt] ⊆ ps := by decide) : Frame ps s (healthWrite t) :=
  h.trans hp <| by
    unfold Machine.healthWrite
    exact .ite .refl (.mapFelt .refl)

/-! ### Checkpoints -/

theorem Frame.vectorDone {p index x : Nat} (h : Frame ps s t) (hp : [.regs, .host, .shards, .mem, .felt, .free] ⊆ ps := by decide) :
    Frame ps s (vectorDone t p index x) :=
  h.trans hp <| by
    unfold Machine.vectorDone
    split
    · exact .refl
    · split
      · split
        · exact .refl
        · split
          · exact .zoneNeeded .refl
          · next v hv => exact .linkPart (.updShard (.charge (.deviceWrite .refl hv)))
      · exact .refl

theorem Frame.unmapFreed (h : Frame ps s t) (hp : [.felt] ⊆ ps := by decide) : Frame ps s (unmapFreed t) :=
  h.trans hp <| by
    unfold Machine.unmapFreed
    exact .unmapAll .refl

theorem Frame.checkpointStart {p index : Nat} (h : Frame ps s t) (hp : [.regs, .host, .shards, .felt] ⊆ ps := by decide) :
    Frame ps s (checkpointStart t p index) :=
  h.trans hp <| by
    unfold Machine.checkpointStart
    split
    · exact .refl
    · exact .ite .refl (.ite (.zoneNeeded .refl) (.updShard .refl))

theorem Frame.releasePages {p : Nat} (h : Frame ps s t) (hp : [.regs, .host, .epoch, .sec] ⊆ ps := by decide) :
    Frame ps s (releasePages t p) :=
  h.trans hp <| by
    unfold Machine.releasePages
    exact .ite .refl (.rekeyCheck (.setJournal .refl))

theorem Frame.ckptComplete {p epoch : Nat} (h : Frame ps s t) (hp : [.regs, .host, .epoch, .felt, .sec] ⊆ ps := by decide) :
    Frame ps s (ckptComplete t p epoch) :=
  h.trans hp <| by
    unfold Machine.ckptComplete
    exact .mapCheckpoint (.releasePages (.event (.mapEpoch .refl)))

theorem Frame.checkpointDone {p index : Nat}
    (h : Frame ps s t) (hp : [.regs, .host, .shards, .epoch, .mem, .felt, .sec, .free] ⊆ ps := by decide) :
    Frame ps s (checkpointDone t p index) :=
  h.trans hp <| by
    unfold Machine.checkpointDone
    dsimp only
    split
    · exact .refl
    · split
      · exact .refl
      · split
        · exact .refl
        · split
          · exact .zoneNeeded .refl
          · next v hv =>
            refine .ckptComplete (.updShard ?_)
            have hw : Frame [.regs, .host, .shards, .epoch, .mem, .felt, .sec, .free] t v := .deviceWrite .refl hv
            split
            · exact .ite hw.charge (.unmapAll hw.charge)
            · exact hw.charge

theorem Frame.rebuildFresh {p index x gid attr : Nat} {exact : List Byte} (h : Frame ps s t) (hp : [.shards, .lichen] ⊆ ps := by decide) :
    Frame ps s (rebuildFresh t p index x gid attr exact) :=
  h.trans hp <| by
    unfold Machine.rebuildFresh
    dsimp only
    split
    · exact .refl
    · exact .updShard (.winWrite? (.winWrite? (.winWrite? .refl)))

theorem Frame.replayRec {p index : Nat} {r : JRec} (h : Frame ps s t) (hp : [.shards, .lichen] ⊆ ps := by decide) :
    Frame ps s (replayRec t p index r) :=
  h.trans hp <| by
    unfold Machine.replayRec
    dsimp only
    refine .ite ?_ ?_
    · exact .ite (.updShard (.rebuildFresh .refl)) (.rebuildFresh .refl)
    · exact .ite .refl (.ite (.updShard .refl) (.ite (.updShard .refl) .refl))

theorem Frame.rebuildCode {p index : Nat} {e : Nat × Nat} (h : Frame ps s t) (hp : [.lichen] ⊆ ps := by decide) :
    Frame ps s (rebuildCode t p index e) :=
  h.trans hp <| by
    unfold Machine.rebuildCode
    dsimp only
    split
    · exact .refl
    · exact .winWrite? (.winWrite? (.winWrite? .refl))

theorem Frame.rebuildMaps {p index : Nat} (h : Frame ps s t) (hp : [.shards, .free] ⊆ ps := by decide) :
    Frame ps s (rebuildMaps t p index) :=
  h.trans hp <| by
    unfold Machine.rebuildMaps
    split
    · exact .refl
    · extract_lets +onlyGivenNames live sh run
      exact .drawn (.updShard .refl)

theorem Frame.shardRebuild {p index : Nat} (h : Frame ps s t) (hp : [.shards, .lichen, .mem, .free] ⊆ ps := by decide) :
    Frame ps s (shardRebuild t p index) :=
  h.trans hp <| by
    unfold Machine.shardRebuild
    split
    · exact .refl
    · split
      · exact .refl
      · refine .ite .refl ?_
        extract_lets +onlyGivenNames s₁ s₂ s₃ j recs s₄ s₅ s₆
        have h₁ : Frame [.shards, .lichen, .mem, .free] t s₁ := .drawn (.updShard .refl)
        clear_value s₁
        have h₂ : Frame [.shards, .lichen, .mem, .free] t s₂ := by
          unfold s₂
          split
          · exact .foldl (fun h => .hotWrite h) (.emptyWins h₁)
          · exact h₁
        clear_value s₂
        have h₃ : Frame [.shards, .lichen, .mem, .free] t s₃ := .foldl (fun h => .rebuildFresh h) h₂
        clear_value s₃
        have h₄ : Frame [.shards, .lichen, .mem, .free] t s₄ := .foldl (fun h => .replayRec h) h₃
        clear_value s₄
        have h₅ : Frame [.shards, .lichen, .mem, .free] t s₅ := .foldl (fun h => .rebuildCode h) h₄
        clear_value s₅
        have h₆ : Frame [.shards, .lichen, .mem, .free] t s₆ := .rebuildMaps h₅
        clear_value s₆
        clear_value j recs
        split
        · exact .pinDescriptor h₆
        · exact h₆

/-! ### TwillPort -/

theorem Frame.enterDetect {i : Nat} (h : Frame ps s t) (hp : [.twill] ⊆ ps := by decide) : Frame ps s (enterDetect t i) :=
  h.trans hp <| by
    unfold Machine.enterDetect
    exact .updPort .refl

theorem Frame.enterCal {i : Nat} (h : Frame ps s t) (hp : [.twill] ⊆ ps := by decide) : Frame ps s (enterCal t i) :=
  h.trans hp <| by
    unfold Machine.enterCal
    exact .updPort .refl

theorem Frame.reroute {i : Nat} (h : Frame ps s t) (hp : [.regs, .host, .twill] ⊆ ps := by decide) : Frame ps s (reroute t i) :=
  h.trans hp <| by
    unfold Machine.reroute
    exact .foldl (fun h => .routePkt h) (.updPort .refl)

theorem Frame.enterDown {i : Nat} (h : Frame ps s t) (hp : [.regs, .host, .twill, .ras, .usnea] ⊆ ps := by decide) :
    Frame ps s (enterDown t i) :=
  h.trans hp <| by
    unfold Machine.enterDown
    exact .raiseEvent (.event (.reroute (.updPort (.setUnit (.faultRecord .refl)))))

theorem Frame.enterDisabled {i : Nat} (h : Frame ps s t) (hp : [.regs, .host, .twill] ⊆ ps := by decide) : Frame ps s (enterDisabled t i) :=
  h.trans hp <| by
    unfold Machine.enterDisabled
    exact .reroute (.updPort .refl)

theorem Frame.resendAll {i : Nat} (h : Frame ps s t) (hp : [.regs, .twill] ⊆ ps := by decide) : Frame ps s (resendAll t i) :=
  h.trans hp <| by
    unfold Machine.resendAll
    exact .ite .refl (.ite (.enterCal (.bump (.updPort .refl))) (.bump (.updPort .refl)))

theorem Frame.enterActive {i : Nat} (h : Frame ps s t) (hp : [.regs, .host, .twill, .ras, .usnea] ⊆ ps := by decide) :
    Frame ps s (enterActive t i) :=
  h.trans hp <| by
    unfold Machine.enterActive
    exact .ite (.enterDown .refl) (.portSend (.resendAll (.event (.updPort .refl))))

theorem Frame.portConfig {i : Nat} (h : Frame ps s t) (hp : [.regs, .host, .twill, .ras, .usnea] ⊆ ps := by decide) :
    Frame ps s (portConfig t i) :=
  h.trans hp <| by
    unfold Machine.portConfig
    dsimp only
    refine .ite (.ite .refl (.enterDisabled .refl)) ?_
    refine .ite (.enterDetect .refl) ?_
    refine .ite ?_ .refl
    split
    · exact .ite (.enterActive .refl) .refl
    · exact .refl

theorem Frame.portsConfig (h : Frame ps s t) (hp : [.regs, .host, .twill, .ras, .usnea] ⊆ ps := by decide) : Frame ps s (portsConfig t) :=
  h.trans hp <| by
    unfold Machine.portsConfig
    exact .foldl (fun h => .portConfig h) .refl

theorem Frame.trainingTimeout {i : Nat} (h : Frame ps s t) (hp : [.regs, .host, .twill, .ras, .usnea] ⊆ ps := by decide) :
    Frame ps s (trainingTimeout t i) :=
  h.trans hp <| by
    unfold Machine.trainingTimeout
    exact .ite .refl (.ite (.enterDown .refl) (.enterDetect (.updPort .refl)))

theorem Frame.downRetry {i : Nat} (h : Frame ps s t) (hp : [.twill] ⊆ ps := by decide) : Frame ps s (downRetry t i) :=
  h.trans hp <| by
    unfold Machine.downRetry
    exact .ite (.enterDetect .refl) .refl

theorem Frame.signalDetected {i : Nat} {lanes : List Nat} (h : Frame ps s t) (hp : [.twill] ⊆ ps := by decide) :
    Frame ps s (signalDetected t i lanes) :=
  h.trans hp <| by
    unfold Machine.signalDetected
    exact .ite (.updPort .refl) .refl

theorem Frame.adaptationDone {i : Nat} (h : Frame ps s t) (hp : [.twill] ⊆ ps := by decide) : Frame ps s (adaptationDone t i) :=
  h.trans hp <| by
    unfold Machine.adaptationDone
    exact .ite (.updPort .refl) .refl

theorem Frame.paramFrame {i : Nat} {b : List Byte} (h : Frame ps s t) (hp : [.regs, .host, .twill, .ras, .usnea] ⊆ ps := by decide) :
    Frame ps s (paramFrame t i b) :=
  h.trans hp <| by
    unfold Machine.paramFrame
    exact .ite (.event (.updPort .refl)) (.ite (.enterActive (.updPort .refl)) (.eventIf (.updPort (.updPort .refl))))

theorem Frame.trainingFrame {i lane : Nat} {b : List Byte}
    (h : Frame ps s t) (hp : [.regs, .host, .twill, .ras, .usnea] ⊆ ps := by decide) :
    Frame ps s (trainingFrame t i lane b) :=
  h.trans hp <| by
    unfold Machine.trainingFrame
    extract_lets +onlyGivenNames p
    clear_value p
    refine .ite .refl ?_
    split
    · extract_lets +onlyGivenNames ready
      exact .updPort .refl
    · exact .updPort .refl
    · exact .paramFrame .refl
    · exact .refl

theorem Frame.receivePacket {p : Packet} (h : Frame ps s t) (hp : [.regs, .host, .twill] ⊆ ps := by decide) :
    Frame ps s (receivePacket t p) :=
  h.trans hp <| by
    unfold Machine.receivePacket
    exact .ite (.event .refl) (.deliver .refl)

theorem Frame.oweCredits {i : Nat} {p : Packet} (h : Frame ps s t) (hp : [.twill] ⊆ ps := by decide) : Frame ps s (oweCredits t i p) :=
  h.trans hp <| by
    unfold Machine.oweCredits
    exact .updPort .refl

theorem Frame.packetArrived {i : Nat} {p : Packet} {reserved : Bool} (h : Frame ps s t) (hp : [.regs, .host, .twill] ⊆ ps := by decide) :
    Frame ps s (packetArrived t i p reserved) :=
  h.trans hp <| by
    unfold Machine.packetArrived
    exact .ite (.event (.oweCredits .refl)) (.ite (.receivePacket (.oweCredits .refl)) (.mapTwill .refl))

theorem Frame.takeStream {i pstart : Nat} {b : List Byte} (h : Frame ps s t) (hp : [.regs, .host, .twill] ⊆ ps := by decide) :
    Frame ps s (takeStream t i pstart b) :=
  h.trans hp <| by
    unfold Machine.takeStream
    exact .foldl (fun h => .packetArrived h) (.updPort .refl)

theorem Frame.takeAck {i n : Nat} (h : Frame ps s t) (hp : [.regs, .twill] ⊆ ps := by decide) : Frame ps s (takeAck t i n) :=
  h.trans hp <| by
    unfold Machine.takeAck
    exact .ite (.resendAll (.updPort .refl)) (.updPort .refl)

theorem Frame.takeFlit {i n : Nat} {stream : List Byte} (h : Frame ps s t) (hp : [.regs, .host, .twill] ⊆ ps := by decide) :
    Frame ps s (takeFlit t i n stream) :=
  h.trans hp <| by
    unfold Machine.takeFlit
    exact .updPort (.updPort (.ite (.takeStream (.bump (.updPort .refl))) (.updPort (.updPort .refl))))

theorem Frame.flitReceive {i : Nat} {b : List Byte} (h : Frame ps s t) (hp : [.regs, .host, .twill] ⊆ ps := by decide) :
    Frame ps s (flitReceive t i b) :=
  h.trans hp <| by
    unfold Machine.flitReceive
    dsimp only
    refine .ite .refl ?_
    refine .ite (.ite .refl (.updPort .refl)) ?_
    refine .portSend (.ite (.takeAck .refl) ?_)
    exact .ite (.takeFlit (.takeAck .refl)) (.ite (.takeAck .refl) (.updPort (.takeAck .refl)))

theorem Frame.nakHoldExpiry {i : Nat} (h : Frame ps s t) (hp : [.twill] ⊆ ps := by decide) : Frame ps s (nakHoldExpiry t i) :=
  h.trans hp <| by
    unfold Machine.nakHoldExpiry
    exact .updPort .refl

theorem Frame.retrainFewer {i : Nat} (h : Frame ps s t) (hp : [.regs, .host, .twill, .ras, .usnea] ⊆ ps := by decide) :
    Frame ps s (retrainFewer t i) :=
  h.trans hp <| by
    unfold Machine.retrainFewer
    exact .ite (.enterDown .refl) (.enterCal (.updPort .refl))

theorem Frame.laneFailing {i lane : Nat} (h : Frame ps s t) (hp : [.regs, .host, .twill, .ras, .usnea] ⊆ ps := by decide) :
    Frame ps s (laneFailing t i lane) :=
  h.trans hp <| by
    unfold Machine.laneFailing
    dsimp only
    refine .ite .refl ?_
    split
    · exact .updPort .refl
    · exact .ite (.retrainFewer (.updPort .refl)) (.updPort (.updPort .refl))

theorem Frame.takeLctrl {i code : Nat} (h : Frame ps s t) (hp : [.twill] ⊆ ps := by decide) : Frame ps s (takeLctrl t i code) :=
  h.trans hp <| by
    unfold Machine.takeLctrl
    exact .updPort .refl

theorem Frame.swapReq {i lane : Nat} (h : Frame ps s t) (hp : [.twill] ⊆ ps := by decide) : Frame ps s (swapReq t i lane) :=
  h.trans hp <| by
    unfold Machine.swapReq
    exact .ite (.updPort (.takeLctrl .refl)) (.takeLctrl .refl)

theorem Frame.swapEnded {i : Nat} (h : Frame ps s t) (hp : [.regs, .host] ⊆ ps := by decide) : Frame ps s (swapEnded t i) :=
  h.trans hp <| by
    unfold Machine.swapEnded
    exact .eventIf (.event (.bump .refl))

theorem Frame.mirroredDecoded {i : Nat} (h : Frame ps s t) (hp : [.regs, .host, .twill] ⊆ ps := by decide) :
    Frame ps s (mirroredDecoded t i) :=
  h.trans hp <| by
    unfold Machine.mirroredDecoded
    dsimp only
    split
    · exact .swapEnded (.updPort (.updPort .refl))
    · exact .refl

theorem Frame.swapDone {i : Nat} (h : Frame ps s t) (hp : [.regs, .host, .twill] ⊆ ps := by decide) : Frame ps s (swapDone t i) :=
  h.trans hp <| by
    unfold Machine.swapDone
    dsimp only
    split
    · exact .portSend (.resendAll (.swapEnded (.updPort (.takeLctrl .refl))))
    · exact .takeLctrl .refl

theorem Frame.retrainReq {i : Nat} (h : Frame ps s t) (hp : [.twill] ⊆ ps := by decide) : Frame ps s (retrainReq t i) :=
  h.trans hp <| by
    unfold Machine.retrainReq
    exact .ite (.enterCal (.takeLctrl .refl)) (.takeLctrl .refl)

theorem Frame.portRetrain {i : Nat} (h : Frame ps s t) (hp : [.twill] ⊆ ps := by decide) : Frame ps s (portRetrain t i) :=
  h.trans hp <| by
    unfold Machine.portRetrain
    exact .ite (.enterCal (.updPort .refl)) (.ite (.enterCal .refl) .refl)

theorem Frame.portRetarget {i : Nat} (h : Frame ps s t) (hp : [.twill] ⊆ ps := by decide) : Frame ps s (portRetarget t i) :=
  h.trans hp <| by
    unfold Machine.portRetarget
    exact .ite .refl (.updPort .refl)

theorem Frame.portDisable {i : Nat} (h : Frame ps s t) (hp : [.regs, .host, .twill] ⊆ ps := by decide) : Frame ps s (portDisable t i) :=
  h.trans hp <| by
    unfold Machine.portDisable
    exact .enterDisabled (.updPort .refl)

theorem Frame.retargetEnd {i : Nat} (h : Frame ps s t) (hp : [.regs, .host, .twill] ⊆ ps := by decide) : Frame ps s (retargetEnd t i) :=
  h.trans hp <| by
    unfold Machine.retargetEnd
    exact .ite (.enterDetect (.reroute .refl)) .refl

theorem Frame.portDown {i : Nat} (h : Frame ps s t) (hp : [.regs, .host, .twill, .ras, .usnea] ⊆ ps := by decide) :
    Frame ps s (portDown t i) :=
  h.trans hp <| by
    unfold Machine.portDown
    exact .ite (.enterDown .refl) .refl

theorem Frame.forwardPkt {p : Packet} (h : Frame ps s t) (hp : [.regs, .host, .twill] ⊆ ps := by decide) : Frame ps s (forwardPkt t p) :=
  h.trans hp <| by
    unfold Machine.forwardPkt
    extract_lets +onlyGivenNames from_ s₁ s₂ s₃
    have h₁ : Frame [.regs, .host, .twill] t s₁ := .mapTwill .refl
    clear_value s₁ from_
    have h₂ : Frame [.regs, .host, .twill] t s₂ := by
      unfold s₂
      split
      · exact .updPort (.oweCredits h₁)
      · exact h₁
    clear_value s₂
    have h₃ : Frame [.regs, .host, .twill] t s₃ := .event (.event h₂)
    clear_value s₃
    exact .ite (.event h₂) (.ite (.receivePacket h₂) (.ite (.ite h₃ (.routePkt h₃)) (.routePkt h₂)))

/-! ### TwillPacket -/

theorem Frame.takePkt {p : Packet} (h : Frame ps s t) (hp : [.twill] ⊆ ps := by decide) : Frame ps s (takePkt t p) :=
  h.trans hp <| by
    unfold Machine.takePkt
    exact .mapTwill .refl

theorem Frame.onPacket {typ : Nat} {p : Packet} {f : State → State} (h : Frame ps s t)
    (hf : ∀ {v : State}, Frame ps s v → Frame ps s (f v)) (hp : [.regs, .host, .twill] ⊆ ps := by decide) : Frame ps s (onPacket t typ p f) :=
  .ite h (.ite (h.trans hp (.event (.takePkt .refl))) (hf (h.trans hp (.takePkt .refl))))

theorem Frame.answer {p : Packet} {typ status arg : Nat} (h : Frame ps s t) (hp : [.regs, .host, .mem, .twill] ⊆ ps := by decide) :
    Frame ps s (answer t p typ status arg) :=
  h.trans hp <| by
    unfold Machine.answer
    exact .sendMsg .refl

theorem Frame.answerData {p : Packet} {typ status : Nat} {b : List Byte}
    (h : Frame ps s t) (hp : [.regs, .host, .mem, .twill] ⊆ ps := by decide) :
    Frame ps s (answerData t p typ status b) :=
  h.trans hp <| by
    unfold Machine.answerData
    exact .sendMsg .refl

theorem Frame.refuse {p : Packet} {typ : Nat} (h : Frame ps s t) (hp : [.regs, .host, .mem, .twill, .sec] ⊆ ps := by decide) :
    Frame ps s (refuse t p typ) :=
  h.trans hp <| by
    unfold Machine.refuse
    exact .answer (.event (.fenceRefusal .refl))

theorem Frame.readRequest {p : Packet} (h : Frame ps s t) (hp : [.regs, .host, .mem, .twill, .sec, .free] ⊆ ps := by decide) :
    Frame ps s (readRequest t p) :=
  h.trans hp <| by
    unfold Machine.readRequest
    dsimp only
    refine .ite (.refuse .refl) ?_
    exact .ite (.answer .refl) (.ite (.answer (.event .refl)) (.answerData (.drawn (.spanTouch (.charge .refl)))))

theorem Frame.versionStored {b : List Byte} {pl : Place} (h : Frame ps s t) (hp : [.regs, .shards, .lichen] ⊆ ps := by decide) :
    Frame ps s (versionStored t b pl) := by
  cases pl with
  | t3 a =>
    unfold Machine.versionStored
    dsimp only
    split
    · exact h.versionArrived hp
    · exact h
  | t2 a => exact h
  | t1 a => exact h
  | unmapped => exact h

theorem Frame.writeRequest {p : Packet} (h : Frame ps s t)
    (hp : [.regs, .host, .shards, .lichen, .mem, .twill, .sec, .free] ⊆ ps := by decide) : Frame ps s (writeRequest t p) :=
  h.trans hp <| by
    by_cases hk : t.twill.writes.contains (reqKey p.src p.reqId) = true
    · exact writeRequest_repeated hk ▸ .answer .refl
    by_cases ho : partServes t p.part = true ∧ spanOwned t p.part p.addr p.payload.length = true
    · by_cases he : retained t p.part p.epoch = true
      · by_cases hz : zeroRate t p.part (localPlace t p.addr).tier = true
        · unfold Machine.writeRequest
          rw [if_neg hk, if_neg (by simp [ho]), if_neg (by simp [he]), if_pos hz]
          exact .answer (.event .refl)
        · rw [writeRequest_stores (by simpa using hk) ho.1 ho.2 he (by simpa using hz) rfl]
          exact .answer (.mapTwill (.versionStored (.placeWrite (.spanTouch (.charge .refl)))))
      · unfold Machine.writeRequest
        rw [if_neg hk, if_neg (by simp [ho]), if_pos (by simp [he])]
        exact .answer .refl
    · unfold Machine.writeRequest
      rw [if_neg hk, if_pos (by simpa [imp_iff_not_or] using ho)]
      exact .refuse .refl

theorem Frame.writeExpiry {node reqId : Nat} (h : Frame ps s t) (hp : [.twill] ⊆ ps := by decide) : Frame ps s (writeExpiry t node reqId) :=
  h.trans hp <| by
    unfold Machine.writeExpiry
    exact .mapTwill .refl

theorem Frame.notOwner {c : Comp} {p : Packet} {seg : Nat} {e : LedgerEnt}
    (h : Frame ps s t) (hp : [.regs, .host, .mem, .twill] ⊆ ps := by decide) :
    Frame ps s (notOwner t c p seg e) :=
  h.trans hp <| by
    unfold Machine.notOwner
    split
    · exact .answer .refl
    · exact .answerData .refl

theorem Frame.serveGo {v : Serve} (h : Frame ps s t) (hp : [.regs, .host, .mem, .twill, .usnea] ⊆ ps := by decide) :
    Frame ps s (serveGo t v) :=
  h.trans hp <| by
    unfold Machine.serveGo
    dsimp only
    split
    · exact .answer .refl
    · exact .raiseEvent (.event (.answer .refl))
    · exact .answerData .refl
    · exact .ite (.answer (.event .refl)) (.mapTwill (.foldlFst (fun h => .sendRequest h) .refl))

theorem Frame.serveRemote {p : Packet} (h : Frame ps s t) (hp : [.regs, .host, .mem, .twill, .usnea] ⊆ ps := by decide) :
    Frame ps s (serveRemote t p) :=
  h.trans hp <| by
    unfold Machine.serveRemote
    exact .ite .refl (.serveGo .refl)

theorem Frame.serveData {r : Nat} {b : List Byte} (h : Frame ps s t) (hp : [.regs, .host, .mem, .twill, .usnea] ⊆ ps := by decide) :
    Frame ps s (serveData t r b) :=
  h.trans hp <| by
    unfold Machine.serveData
    dsimp only
    split
    · exact .refl
    · exact .ite (.serveGo (.mapTwill .refl)) (.mapTwill .refl)

theorem Frame.serveFails {r st : Nat} (h : Frame ps s t) (hp : [.regs, .host, .mem, .twill] ⊆ ps := by decide) :
    Frame ps s (serveFails t r st) :=
  h.trans hp <| by
    unfold Machine.serveFails
    dsimp only
    split
    · exact .refl
    · exact .answer (.mapTwill .refl)

theorem Frame.holdRequest {p : Packet} {forGen : Bool} (h : Frame ps s t) (hp : [.own] ⊆ ps := by decide) :
    Frame ps s (holdRequest t p forGen) :=
  h.trans hp <| by
    unfold Machine.holdRequest
    exact .mapOwn .refl

theorem Frame.answerStale {p : Packet} (h : Frame ps s t) (hp : [.regs, .host, .mem, .twill] ⊆ ps := by decide) :
    Frame ps s (answerStale t p) :=
  h.trans hp <| by
    unfold Machine.answerStale
    exact .event (.answer .refl)

theorem Frame.ownedRequest {p : Packet} (h : Frame ps s t) (hp : [.regs, .host, .mem, .twill, .own, .sec, .usnea] ⊆ ps := by decide) :
    Frame ps s (ownedRequest t p) :=
  h.trans hp <| by
    unfold Machine.ownedRequest
    dsimp only
    refine .ite (.refuse .refl) ?_
    split
    · refine .ite (.holdRequest .refl) ?_
      refine .ite ?_ (.answerStale .refl)
      split
      · exact .ite (.holdRequest .refl) (.serveRemote .refl)
      · exact .ite (.holdRequest .refl) (.serveRemote .refl)
      · exact .holdRequest .refl
      · exact .holdRequest .refl
      · exact .notOwner .refl
      · exact .notOwner .refl
    · exact .answer .refl
    · exact .event .refl

theorem Frame.releaseHeld (h : Frame ps s t) (hp : [.regs, .host, .mem, .twill, .own, .sec, .usnea] ⊆ ps := by decide) :
    Frame ps s (releaseHeld t) :=
  h.trans hp <| by
    unfold Machine.releaseHeld
    exact .foldl (fun h => .ownedRequest h) (.mapOwn .refl)

theorem Frame.ownStatus {result target : Nat} (h : Frame ps s t) (hp : [.own] ⊆ ps := by decide) : Frame ps s (ownStatus t result target) :=
  h.trans hp <| by
    unfold Machine.ownStatus
    exact .mapOwn .refl

theorem Frame.sendCtrl {dst part msg comp segWord tgen arg : Nat} (h : Frame ps s t) (hp : [.regs, .host, .mem, .twill] ⊆ ps := by decide) :
    Frame ps s (sendCtrl t dst part msg comp segWord tgen arg) :=
  h.trans hp <| by
    unfold Machine.sendCtrl
    exact .sendMsg .refl

theorem Frame.sendToken {key dst msg tgen arg : Nat} (h : Frame ps s t) (hp : [.regs, .host, .mem, .twill] ⊆ ps := by decide) :
    Frame ps s (sendToken t key dst msg tgen arg) :=
  h.trans hp <| by
    unfold Machine.sendToken
    split
    · exact .refl
    · exact .ite .refl (.sendCtrl .refl)

theorem Frame.ceased {key : Nat} {c : Ceasing} (h : Frame ps s t) (hp : [.regs, .host, .mem, .twill, .own] ⊆ ps := by decide) :
    Frame ps s (ceased t key c) :=
  h.trans hp <| by
    unfold Machine.ceased
    dsimp only
    split
    · exact .sendToken (.setToken .refl)
    · exact .sendToken (.setToken .refl)
    · exact .ownStatus (.setToken .refl)

theorem Frame.cease {key : Nat} {c : Ceasing} (h : Frame ps s t) (hp : [.regs, .host, .mem, .twill, .own] ⊆ ps := by decide) :
    Frame ps s (cease t key c) :=
  h.trans hp <| by
    unfold Machine.cease
    exact .ite (.setToken .refl) (.ceased .refl)

theorem Frame.ceaseCheck (h : Frame ps s t) (hp : [.regs, .host, .mem, .twill, .own, .sec, .usnea] ⊆ ps := by decide) :
    Frame ps s (ceaseCheck t) :=
  h.trans hp <| by
    unfold Machine.ceaseCheck
    exact .ite .refl (.releaseHeld (.foldl (fun h => .ceased h) .refl))

theorem Frame.dropReq {r : Nat} (h : Frame ps s t) (hp : [.twill] ⊆ ps := by decide) : Frame ps s (dropReq t r) :=
  h.trans hp <| by
    unfold Machine.dropReq
    exact .mapTwill .refl

theorem Frame.walkFailed {r : Nat} {o : OutReq} {st : Nat} (h : Frame ps s t) (hp : [.host, .twill] ⊆ ps := by decide) :
    Frame ps s (walkFailed t r o st) :=
  h.trans hp <| by
    unfold Machine.walkFailed
    exact .updQuery (.dropReq .refl)

theorem Frame.unreachable {r : Nat}
    (h : Frame ps s t) (hp : [.regs, .host, .lichen, .model, .mem, .twill, .own, .ras, .usnea] ⊆ ps := by decide) :
    Frame ps s (unreachable t r) :=
  h.trans hp <| by
    unfold Machine.unreachable
    dsimp only
    split
    · exact .refl
    · refine .event (.mapOwn ?_)
      split
      · exact .updQuery (.walkFailed (.ite (.event (.bump .refl)) (.faultRecord (.event (.bump .refl)))))
      · exact .updQuery (.walkFailed (.ite (.event (.bump .refl)) (.faultRecord (.event (.bump .refl)))))
      · exact .mergeList (.dropReq (.ite (.event (.bump .refl)) (.faultRecord (.event (.bump .refl)))))
      · exact .serveFails (.dropReq (.ite (.event (.bump .refl)) (.faultRecord (.event (.bump .refl)))))
      · exact .dropReq (.ite (.event (.bump .refl)) (.faultRecord (.event (.bump .refl))))

theorem Frame.resend {r : Nat} (h : Frame ps s t) (hp : [.regs, .host, .mem, .twill] ⊆ ps := by decide) : Frame ps s (resend t r) :=
  h.trans hp <| by
    unfold Machine.resend
    split
    · exact .refl
    · exact .ite .refl (.sendMsg (.mapTwill .refl))

theorem Frame.undelivered {p : Packet}
    (h : Frame ps s t) (hp : [.regs, .host, .lichen, .model, .mem, .twill, .own, .ras, .usnea] ⊆ ps := by decide) :
    Frame ps s (undelivered t p) :=
  h.trans hp <| by
    unfold Machine.undelivered
    dsimp only
    split
    · exact .refl
    · exact .ite .refl (.ite (.unreachable .refl) (.resend .refl))

theorem Frame.unreachableExpiry {node : Nat} (h : Frame ps s t) (hp : [.own] ⊆ ps := by decide) : Frame ps s (unreachableExpiry t node) :=
  h.trans hp <| by
    unfold Machine.unreachableExpiry
    exact .mapOwn .refl

theorem Frame.restartTimers {r : Nat} (h : Frame ps s t) (hp : [.twill] ⊆ ps := by decide) : Frame ps s (restartTimers t r) :=
  h.trans hp <| by
    unfold Machine.restartTimers
    exact .mapTwill .refl

theorem Frame.gather {r : Nat} {o : OutReq} {p : Packet} (h : Frame ps s t) (hp : [.twill] ⊆ ps := by decide) :
    Frame ps s (gather t r o p).1 :=
  h.trans hp <| by
    unfold Machine.gather
    extract_lets +onlyGivenNames got s₁
    have h₁ : Frame [.twill] t s₁ := .mapTwill .refl
    clear_value s₁ got
    split
    · split
      · exact h₁
      · exact .restartTimers h₁
    · exact h₁

theorem Frame.readRsp {p : Packet} (h : Frame ps s t) (hp : [.regs, .host, .mem, .twill, .usnea] ⊆ ps := by decide) :
    Frame ps s (readRsp t p) :=
  h.trans hp <| by
    unfold Machine.readRsp
    split
    · exact .refl
    · split
      · exact .serveFails (.dropReq .refl)
      · split
        · next v hv => exact .of_fst hv (.gather (.twillCharge .refl))
        · next v b hv => exact .serveData (.dropReq (.of_fst hv (.gather (.twillCharge .refl))))

theorem Frame.sendUnresolved {k : Nat} (h : Frame ps s t) (hp : [.regs, .host, .own, .usnea] ⊆ ps := by decide) :
    Frame ps s (sendUnresolved t k) :=
  h.trans hp <| by
    unfold Machine.sendUnresolved
    exact .mapOwn (.raiseEvent .refl)

theorem Frame.markUnresolved {k : Nat} (h : Frame ps s t) (hp : [.regs, .host, .own, .usnea] ⊆ ps := by decide) :
    Frame ps s (markUnresolved t k) :=
  h.trans hp <| by
    unfold Machine.markUnresolved
    exact .sendUnresolved (.event .refl)

theorem Frame.sendAgain {r : Nat} {o : OutReq} {dst mapgen forwards : Nat} {stale : Bool}
    (h : Frame ps s t) (hp : [.regs, .host, .mem, .twill] ⊆ ps := by decide) :
    Frame ps s (sendAgain t r o dst mapgen forwards stale) :=
  h.trans hp <| by
    unfold Machine.sendAgain
    exact .updQuery (.sendRequest (.dropReq .refl))

theorem Frame.notOwnerForward {r : Nat} {o : OutReq} {p : Packet}
    (h : Frame ps s t) (hp : [.regs, .host, .mem, .twill, .own, .usnea] ⊆ ps := by decide) :
    Frame ps s (notOwnerForward t r o p) :=
  h.trans hp <| by
    unfold Machine.notOwnerForward
    dsimp only
    refine .ite (.sendAgain .refl) ?_
    split
    · exact .event (.bump (.walkFailed .refl))
    · exact .markUnresolved (.mapOwn (.bump (.walkFailed .refl)))

theorem Frame.staleMap {r : Nat} {o : OutReq} {p : Packet} (h : Frame ps s t) (hp : [.regs, .host, .mem, .twill] ⊆ ps := by decide) :
    Frame ps s (staleMap t r o p) :=
  h.trans hp <| by
    unfold Machine.staleMap
    dsimp only
    split
    · exact .walkFailed .refl
    · exact .ite (.walkFailed .refl) (.sendAgain (.updQuery .refl))

theorem Frame.walkRsp {k : ReqKind} {p : Packet} {f : State → OutReq → List Byte → State} (h : Frame ps s t)
    (hf : ∀ {v : State} {o : OutReq} {b : List Byte}, Frame ps s v → Frame ps s (f v o b))
        (hp : [.regs, .host, .mem, .twill, .own, .usnea] ⊆ ps := by decide) :
    Frame ps s (walkRsp t k p f) := by
  unfold Machine.walkRsp
  split
  · exact h
  · refine .ite (h.trans hp (.restartTimers .refl)) (.ite (h.trans hp (.notOwnerForward .refl)) (.ite (h.trans hp (.staleMap .refl))
      (.ite (h.trans hp (.bump (.walkFailed .refl))) (.ite (h.trans hp (.walkFailed .refl)) ?_))))
    split
    · next v hv => exact h.trans hp (.of_fst hv (.gather (.twillCharge .refl)))
    · next v b hv => exact hf (h.trans hp (.updQuery (.dropReq (.of_fst hv (.gather (.twillCharge .refl))))))

theorem Frame.scoreData {o : OutReq} {b : List Byte} (h : Frame ps s t) (hp : [.host] ⊆ ps := by decide) : Frame ps s (scoreData t o b) :=
  h.trans hp <| by
    unfold Machine.scoreData
    exact .updQuery .refl

theorem Frame.expandData {o : OutReq} {b : List Byte}
    (h : Frame ps s t) (hp : [.regs, .host, .lichen, .model, .mem, .twill, .ras] ⊆ ps := by decide) :
    Frame ps s (expandData t o b) :=
  h.trans hp <| by
    unfold Machine.expandData
    dsimp only
    split
    · exact .refl
    · exact .queryTwill (.updQuery .refl) (fun h => .sendScores h)

theorem Frame.refuseQuery {p : Packet} {st : Nat} (h : Frame ps s t) (hp : [.regs, .host, .mem, .twill] ⊆ ps := by decide) :
    Frame ps s (refuseQuery t p st) :=
  h.trans hp <| by
    unfold Machine.refuseQuery
    exact .sendList .refl

theorem Frame.startQuery {l : List Packet} (h : Frame ps s t) (hp : [.regs, .host, .mem, .twill, .sec, .usnea] ⊆ ps := by decide) :
    Frame ps s (startQuery t l) :=
  h.trans hp <| by
    unfold Machine.startQuery
    dsimp only
    split
    · exact .refl
    · refine .ite .refl ?_
      refine .ite (.refuseQuery (.event (.fenceRefusal .refl))) ?_
      split
      · refine .ite (.raiseEvent (.event (.refuseQuery .refl))) ?_
        split
        · exact .ite (.mapTwill .refl) (.refuseQuery .refl)
        · refine .ite (.refuseQuery .refl) ?_
          refine .ite (.refuseQuery .refl) ?_
          exact .ite (.refuseQuery .refl) (.queryReady (.mapTwill (.bump (.addQuery .refl))))
      · exact .refuseQuery .refl

theorem Frame.queryPacket {p : Packet} (h : Frame ps s t) (hp : [.regs, .host, .mem, .twill, .sec, .usnea] ⊆ ps := by decide) :
    Frame ps s (queryPacket t p) :=
  h.trans hp <| by
    unfold Machine.queryPacket
    dsimp only
    split
    · exact .ite (.startQuery (.mapTwill .refl)) (.mapTwill .refl)
    · exact .refl

theorem Frame.listProgress {node reqId : Nat} (h : Frame ps s t) (hp : [.regs, .host, .mem, .twill] ⊆ ps := by decide) :
    Frame ps s (listProgress t node reqId) :=
  h.trans hp <| by
    unfold Machine.listProgress
    dsimp only
    split
    · exact .refl
    · split
      · exact .refl
      · exact .sendMsg .refl

theorem Frame.listPacket {p : Packet} (h : Frame ps s t) (hp : [.regs, .host, .lichen, .model, .mem, .twill] ⊆ ps := by decide) :
    Frame ps s (listPacket t p) :=
  h.trans hp <| by
    unfold Machine.listPacket
    split
    · exact .refl
    · split
      · exact .restartTimers .refl
      · split
        · next v hv => exact .of_fst hv (.gather (.twillCharge .refl))
        · next v b hv => exact .mergeList (.dropReq (.of_fst hv (.gather (.twillCharge .refl))))

theorem Frame.heldResponse {node reqId : Nat} (h : Frame ps s t) (hp : [.regs, .host, .mem, .twill] ⊆ ps := by decide) :
    Frame ps s (heldResponse t node reqId) :=
  h.trans hp <| by
    unfold Machine.heldResponse
    split
    · exact .refl
    · exact .answer .refl

theorem Frame.holdExpiry {node reqId : Nat} (h : Frame ps s t) (hp : [.regs, .host, .mem, .twill, .own] ⊆ ps := by decide) :
    Frame ps s (holdExpiry t node reqId) :=
  h.trans hp <| by
    unfold Machine.holdExpiry
    split
    · exact .refl
    · exact .ite .refl (.answerStale (.mapOwn .refl))

/-! ### Ownership -/

theorem Frame.mapApply {k : Nat} (h : Frame ps s t) (hp : [.regs, .host, .mem, .twill, .own, .sec, .usnea] ⊆ ps := by decide) :
    Frame ps s (mapApply t k) :=
  h.trans hp <| by
    unfold Machine.mapApply
    dsimp only
    refine .ite (.ownStatus (.event .refl)) ?_
    exact .ite (.ownStatus (.event .refl)) (.releaseHeld (.ownStatus (.event (.mapOwn .refl))))

theorem Frame.bindTo {k a : Nat} (h : Frame ps s t) (hp : [.own] ⊆ ps := by decide) : Frame ps s (bindTo t k a) :=
  h.trans hp <| by
    unfold Machine.bindTo
    exact .mapOwn .refl

theorem Frame.releaseQueries (h : Frame ps s t) (hp : [.regs, .host, .mem, .twill, .sec, .usnea] ⊆ ps := by decide) :
    Frame ps s (releaseQueries t) :=
  h.trans hp <| by
    unfold Machine.releaseQueries
    exact .foldl (fun h => .startQuery h) (.mapTwill .refl)

theorem Frame.anchorSilent {k : Nat} (h : Frame ps s t) (hp : [.regs, .host, .mem, .twill, .own, .sec, .usnea] ⊆ ps := by decide) :
    Frame ps s (anchorSilent t k) :=
  h.trans hp <| by
    unfold Machine.anchorSilent
    split
    · exact .refl
    · exact .ite .refl (.releaseQueries (.event (.bindTo .refl)))

theorem Frame.pruneBindings (h : Frame ps s t) (hp : [.own] ⊆ ps := by decide) : Frame ps s (pruneBindings t) :=
  h.trans hp <| by
    unfold Machine.pruneBindings
    exact .mapOwn .refl

theorem Frame.onToken {msg : Nat} {p : Packet} {f : State → Nat → LedgerEnt → Nat → Nat → State} (h : Frame ps s t)
    (hf : ∀ {v : State} {k : Nat} {e : LedgerEnt} {g a : Nat}, Frame ps s v → Frame ps s (f v k e g a))
        (hp : [.regs, .host, .twill] ⊆ ps := by decide) :
    Frame ps s (onToken t msg p f) :=
  .ite h (.onPacket h (fun h => by
    split
    · exact h.trans hp (.event .refl)
    · exact .ite (hf h) h) hp)

theorem Frame.offer {key : Nat} (h : Frame ps s t) (hp : [.regs, .host, .mem, .twill, .own] ⊆ ps := by decide) : Frame ps s (offer t key) :=
  h.trans hp <| by
    unfold Machine.offer
    dsimp only
    split
    · exact .refl
    · split
      · exact .refl
      · exact .ite .refl (.sendToken (.setToken .refl))

theorem Frame.enterHeld {key tgen : Nat} {peer : Option Nat}
    (h : Frame ps s t) (hp : [.regs, .host, .mem, .twill, .own, .sec, .usnea] ⊆ ps := by decide) :
    Frame ps s (enterHeld t key tgen peer) :=
  h.trans hp <| by
    unfold Machine.enterHeld
    exact .offer (.releaseHeld (.setToken .refl))

theorem Frame.onOffer {x key : Nat} {e : LedgerEnt} {g : Nat}
    (h : Frame ps s t) (hp : [.regs, .host, .mem, .twill, .own] ⊆ ps := by decide) :
    Frame ps s (onOffer t x key e g) :=
  h.trans hp <| by
    unfold Machine.onOffer
    exact .ite (.sendToken (.setToken .refl)) (.ite (.sendToken .refl) .refl)

theorem Frame.onAccept {y key : Nat} {e : LedgerEnt} {g : Nat}
    (h : Frame ps s t) (hp : [.regs, .host, .mem, .twill, .own] ⊆ ps := by decide) :
    Frame ps s (onAccept t y key e g) :=
  h.trans hp <| by
    unfold Machine.onAccept
    exact .ite (.cease .refl) (.ite (.sendToken .refl) (.ite (.sendToken .refl) .refl))

theorem Frame.onConfirm {x key : Nat} {e : LedgerEnt} {g : Nat}
    (h : Frame ps s t) (hp : [.regs, .host, .mem, .twill, .own, .sec, .usnea] ⊆ ps := by decide) :
    Frame ps s (onConfirm t x key e g) :=
  h.trans hp <| by
    unfold Machine.onConfirm
    exact .ite (.enterHeld (.sendToken .refl)) (.ite (.sendToken .refl) .refl)

theorem Frame.onTaken {y key : Nat} {e : LedgerEnt} {g : Nat} (h : Frame ps s t) (hp : [.regs, .host, .own] ⊆ ps := by decide) :
    Frame ps s (onTaken t y key e g) :=
  h.trans hp <| by
    unfold Machine.onTaken
    exact .ite (.event (.setToken .refl)) .refl

theorem Frame.onWithdraw {x key : Nat} {e : LedgerEnt} {g : Nat}
    (h : Frame ps s t) (hp : [.regs, .host, .mem, .twill, .own, .sec, .usnea] ⊆ ps := by decide) :
    Frame ps s (onWithdraw t x key e g) :=
  h.trans hp <| by
    unfold Machine.onWithdraw
    exact .ite (.releaseHeld (.setToken .refl)) .refl

theorem Frame.onRevoke {x key : Nat} {e : LedgerEnt} {g : Nat}
    (h : Frame ps s t) (hp : [.regs, .host, .mem, .twill, .own, .sec, .usnea] ⊆ ps := by decide) :
    Frame ps s (onRevoke t x key e g) :=
  h.trans hp <| by
    unfold Machine.onRevoke
    exact .ite (.releaseHeld (.cease .refl)) (.sendToken .refl)

theorem Frame.unclaim {key : Nat} {e : LedgerEnt}
    (h : Frame ps s t) (hp : [.regs, .host, .mem, .twill, .own, .sec, .usnea] ⊆ ps := by decide) :
    Frame ps s (unclaim t key e) :=
  h.trans hp <| by
    unfold Machine.unclaim
    exact .releaseHeld (.setToken .refl)

theorem Frame.claimDone {key : Nat} {e : LedgerEnt}
    (h : Frame ps s t) (hp : [.regs, .host, .mem, .twill, .own, .sec, .usnea] ⊆ ps := by decide) :
    Frame ps s (claimDone t key e) :=
  h.trans hp <| by
    unfold Machine.claimDone
    exact .event (.enterHeld (.mapOwn .refl))

theorem Frame.onRevokeAck {x key : Nat} {e : LedgerEnt} {g arg : Nat}
    (h : Frame ps s t) (hp : [.regs, .host, .mem, .twill, .own, .sec, .usnea] ⊆ ps := by decide) :
    Frame ps s (onRevokeAck t x key e g arg) :=
  h.trans hp <| by
    unfold Machine.onRevokeAck
    exact .ite .refl (.ite (.event (.unclaim (.mapOwn .refl))) (.ite (.claimDone (.setToken .refl)) (.setToken .refl)))

theorem Frame.onAnnounce {p : Packet} (h : Frame ps s t) (hp : [.regs, .host, .mem, .twill, .own, .sec, .usnea] ⊆ ps := by decide) :
    Frame ps s (onAnnounce t p) :=
  h.trans hp <| by
    unfold Machine.onAnnounce
    split
    · exact .event .refl
    · split
      · exact .refl
      · exact .ite .refl (.releaseQueries (.bindTo .refl))

theorem Frame.anchorBoundary (h : Frame ps s t) (hp : [.regs, .host, .mem, .twill, .own] ⊆ ps := by decide) :
    Frame ps s (anchorBoundary t) :=
  h.trans hp <| by
    unfold Machine.anchorBoundary
    exact .foldl (fun h => .ite (.foldl (fun h1 => .sendCtrl h1) (.bindTo h)) h) .refl

theorem Frame.claim {target : Nat} (h : Frame ps s t) (hp : [.regs, .host, .mem, .twill, .own, .sec, .usnea] ⊆ ps := by decide) :
    Frame ps s (claim t target) :=
  h.trans hp <| by
    unfold Machine.claim
    extract_lets +onlyGivenNames g a1 a2 named
    clear_value g a1 a2 named
    split
    · exact .ownStatus .refl
    · extract_lets +onlyGivenNames e
      clear_value e
      refine .ite (.ownStatus .refl) ?_
      refine .ite (.ownStatus .refl) ?_
      extract_lets +onlyGivenNames peer wait e s₁
      have h₁ : Frame [.regs, .host, .mem, .twill, .own, .sec, .usnea] t s₁ := .setToken .refl
      clear_value s₁
      exact .ite (.claimDone (.ownStatus h₁)) (.foldl (fun h => .sendToken h) (.ownStatus h₁))

theorem Frame.ownAbort {target : Nat} (h : Frame ps s t) (hp : [.regs, .host, .mem, .twill, .own, .sec, .usnea] ⊆ ps := by decide) :
    Frame ps s (ownAbort t target) :=
  h.trans hp <| by
    unfold Machine.ownAbort
    dsimp only
    split
    · exact .ownStatus .refl
    · exact .ite (.unclaim (.ownStatus .refl)) (.ownStatus .refl)

theorem Frame.tset {target : Nat} (h : Frame ps s t) (hp : [.regs, .host, .mem, .twill, .own, .sec, .usnea] ⊆ ps := by decide) :
    Frame ps s (tset t target) :=
  h.trans hp <| by
    unfold Machine.tset
    dsimp only
    split
    · refine .ite (.ownStatus .refl) ?_
      refine .ite (.ownStatus (.event .refl)) ?_
      refine .ite ?_ (.releaseHeld (.eventIf (.ownStatus (.setToken .refl))))
      exact .ite (.mapOwn (.cease .refl)) (.releaseHeld (.cease .refl))
    · exact .ownStatus .refl

theorem Frame.drainExpiry {k : Nat} (h : Frame ps s t) (hp : [.regs, .host, .mem, .twill, .own] ⊆ ps := by decide) :
    Frame ps s (drainExpiry t k) :=
  h.trans hp <| by
    unfold Machine.drainExpiry
    split
    · exact .refl
    · exact .ite .refl (.foldl (fun h => .offer h) (.mapOwn .refl))

theorem Frame.tokenResend {n : Nat} (h : Frame ps s t) (hp : [.regs, .host, .mem, .twill] ⊆ ps := by decide) :
    Frame ps s (tokenResend t n) :=
  h.trans hp <| by
    unfold Machine.tokenResend
    dsimp only
    split
    · exact .refl
    · refine .ite .refl ?_
      split
      · exact .sendToken .refl
      · exact .sendToken .refl
      · exact .sendToken .refl
      · exact .foldl (fun h => .sendToken h) .refl
      · exact .refl
      · exact .refl

theorem Frame.handoverTimeout {n : Nat} (h : Frame ps s t) (hp : [.regs, .host, .mem, .twill, .own, .sec, .usnea] ⊆ ps := by decide) :
    Frame ps s (handoverTimeout t n) :=
  h.trans hp <| by
    unfold Machine.handoverTimeout
    dsimp only
    split
    · exact .refl
    · split
      · exact .event (.setToken (.ite (.sendToken .refl) .refl))
      · exact .releaseHeld (.markUnresolved (.event (.setToken .refl)))
      · exact .markUnresolved .refl
      · exact .ite (.offer .refl) .refl
      · exact .refl
      · exact .refl

theorem Frame.unresolvedRepeat {n : Nat} (h : Frame ps s t) (hp : [.regs, .host, .own, .usnea] ⊆ ps := by decide) :
    Frame ps s (unresolvedRepeat t n) :=
  h.trans hp <| by
    unfold Machine.unresolvedRepeat
    split
    · exact .refl
    · exact .ite (.sendUnresolved .refl) .refl

/-! ### Security -/

theorem Frame.usneaServed {n : Nat} {f : State → State} (h : Frame ps s t)
    (hf : ∀ {v : State}, Frame ps s v → Frame ps s (f v)) (hp : [.usnea] ⊆ ps := by decide) : Frame ps s (usneaServed t n f) :=
  .ite (hf (h.mapUsnea hp)) (h.mapUsnea hp)

theorem Frame.keyProvision {n : Nat} {c : Cmd} (h : Frame ps s t) (hp : [.regs, .host, .lichen, .twill, .sec, .usnea] ⊆ ps := by decide) :
    Frame ps s (keyProvision t n c) :=
  h.trans hp <| by
    unfold Machine.keyProvision
    dsimp only
    refine .ite .refl ?_
    refine .usneaServed .refl (fun h => ?_)
    split
    · exact .endWith h
    · exact .endWith (.event (.extendMeas (.mapSec h)))

theorem Frame.fuseDone {n : Nat} {b : List Byte} (h : Frame ps s t) (hp : [.regs, .host, .lichen, .twill, .sec] ⊆ ps := by decide) :
    Frame ps s (fuseDone t n b) :=
  h.trans hp <| by
    unfold Machine.fuseDone
    exact .endWith (.event (.extendMeas .refl))

theorem Frame.fuseProvision {n : Nat} {b : List Byte} (h : Frame ps s t) (hp : [.regs, .host, .lichen, .twill, .sec] ⊆ ps := by decide) :
    Frame ps s (fuseProvision t n b) :=
  h.trans hp <| by
    unfold Machine.fuseProvision
    exact .ite (.fuseDone (.mapSec .refl)) (.endWith .refl)

theorem Frame.fuseRevoke {n : Nat} {b : List Byte} (h : Frame ps s t) (hp : [.regs, .host, .lichen, .twill, .sec] ⊆ ps := by decide) :
    Frame ps s (fuseRevoke t n b) :=
  h.trans hp <| by
    unfold Machine.fuseRevoke
    exact .ite (.fuseDone (.mapSec .refl)) (.endWith .refl)

theorem Frame.fuseRaise {n : Nat} {b : List Byte} (h : Frame ps s t) (hp : [.regs, .host, .lichen, .twill, .sec] ⊆ ps := by decide) :
    Frame ps s (fuseRaise t n b) :=
  h.trans hp <| by
    unfold Machine.fuseRaise
    exact .ite (.endWith .refl) (.ite (.endWith .refl) (.fuseDone (.mapSec .refl)))

theorem Frame.securityFuse {n op : Nat} {c : Cmd} {f : State → List Byte → State} (h : Frame ps s t)
    (hf : ∀ {v : State} {b : List Byte}, Frame ps s v → Frame ps s (f v b)) (hp : [.host, .lichen, .twill, .usnea] ⊆ ps := by decide) :
    Frame ps s (securityFuse t n op c f) := by
  unfold Machine.securityFuse
  exact .ite h (.ite h (.usneaServed h (fun h => .ite (hf h) (h.trans hp (.endWith .refl)))
      (List.Subset.trans (by decide : [Part.usnea] ⊆ [.host, .lichen, .twill, .usnea]) hp)))

theorem Frame.attest {n : Nat} {c : Cmd} (h : Frame ps s t) (hp : [.host, .lichen, .twill, .usnea] ⊆ ps := by decide) :
    Frame ps s (attest t n c) :=
  h.trans hp <| by
    unfold Machine.attest
    exact .usneaServed .refl (fun h => .ite (.endWith h) (.finish (.putResult h)))

theorem Frame.certificate {n : Nat} {c : Cmd} (h : Frame ps s t) (hp : [.host, .lichen, .twill, .usnea] ⊆ ps := by decide) :
    Frame ps s (certificate t n c) :=
  h.trans hp <| by
    unfold Machine.certificate
    exact .usneaServed .refl (fun h => .ite (.endWith h) (.finish (.putResult h)))

theorem Frame.rekeySwatch {p : Nat} (h : Frame ps s t) (hp : [.regs, .host, .mem, .sec] ⊆ ps := by decide) : Frame ps s (rekeySwatch t p) :=
  h.trans hp <| by
    unfold Machine.rekeySwatch
    dsimp only
    split
    · exact .refl
    · exact .ite .refl (.rekeyCheck (.mapSec (.charge (.charge .refl))))

theorem Frame.t5Rewrite {p l : Nat} (h : Frame ps s t) (hp : [.regs, .host, .mem, .felt, .sec, .free] ⊆ ps := by decide) :
    Frame ps s (t5Rewrite t p l) :=
  h.trans hp <| by
    unfold Machine.t5Rewrite
    dsimp only
    split
    · exact .refl
    · refine .ite .refl ?_
      refine .ite ?_ ?_
      · refine .rekeyCheck (.mapSec ?_)
        split
        · exact .refl
        · exact .ite (.writeCodeword (.freeBlock (.charge (.charge .refl)))) .refl
      · split
        · exact .refl
        · exact .ite (.writeCodeword (.freeBlock (.charge (.charge .refl)))) .refl

/-! ### Strobes -/

theorem Frame.lagBehind {missed : List Nat} {old : List (Nat × Option RegCopy)} (h : Frame ps s t) (hp : [.regs] ⊆ ps := by decide) :
    Frame ps s (lagBehind missed old t) :=
  h.trans hp <| by
    unfold Machine.lagBehind
    exact .mapRegs .refl

theorem Frame.catchUp {p : Nat → Bool} (h : Frame ps s t) (hp : [.regs] ⊆ ps := by decide) : Frame ps s (catchUp p t) :=
  h.trans hp <| by
    unfold Machine.catchUp
    exact .mapRegs .refl

theorem Frame.takeCopy {k : Nat} {c : RegCopy} (h : Frame ps s t) (hp : [.regs] ⊆ ps := by decide) : Frame ps s (takeCopy t k c) :=
  h.trans hp <| by
    unfold Machine.takeCopy
    exact .mapRegs .refl

theorem Frame.strobeCopies {l : Smap RegCopy} (h : Frame ps s t) (hp : [.regs, .host] ⊆ ps := by decide) : Frame ps s (strobeCopies t l) :=
  h.trans hp <| by
    unfold Machine.strobeCopies
    dsimp only
    refine .foldl (fun h => ?_) (.eventIf .refl)
    split
    · exact h
    · exact .ite (.mapRegs h) (.takeCopy h)

theorem Frame.stageShadows {apply : Bool} (h : Frame ps s t) (hp : [.regs] ⊆ ps := by decide) : Frame ps s (stageShadows t apply) :=
  h.trans hp <| by
    unfold Machine.stageShadows
    exact .mapRegs .refl

theorem Frame.issueUpdate {g : W32} (h : Frame ps s t) (hp : [.regs] ⊆ ps := by decide) : Frame ps s (issueUpdate t g) :=
  h.trans hp <| by
    unfold Machine.issueUpdate
    exact .ite (.mapRegs .refl) (.mapRegs .refl)

theorem Frame.issueNext (h : Frame ps s t) (hp : [.regs] ⊆ ps := by decide) : Frame ps s (issueNext t) :=
  h.trans hp <| by
    unfold Machine.issueNext
    split
    · exact .issueUpdate (.mapRegs .refl)
    · exact .refl

theorem Frame.reloadCopies {p : Reg → Nat → Bool} (h : Frame ps s t) (hp : [.regs] ⊆ ps := by decide) : Frame ps s (reloadCopies t p) :=
  h.trans hp <| by
    unfold Machine.reloadCopies
    dsimp only
    refine .foldl (fun h => ?_) (.mapRegs .refl)
    split
    · exact .takeCopy h
    · exact .mapRegs h

theorem Frame.reloadBlock {b : Nat} (h : Frame ps s t) (hp : [.regs] ⊆ ps := by decide) : Frame ps s (reloadBlock t b) :=
  h.trans hp <| by
    unfold Machine.reloadBlock
    exact .mapRegs (.reloadCopies .refl)

theorem Frame.reloadUnit {b n : Nat} (h : Frame ps s t) (hp : [.regs] ⊆ ps := by decide) : Frame ps s (reloadUnit t b n) :=
  h.trans hp <| by
    unfold Machine.reloadUnit
    exact .mapRegs (.reloadCopies .refl)

/-! ### Ras -/

theorem Frame.outWork {kind n : Nat} (h : Frame ps s t) (hp : [.regs, .host, .shards, .epoch, .felt, .twill, .free] ⊆ ps := by decide) :
    Frame ps s (outWork t kind n) :=
  h.trans hp <| by
    unfold Machine.outWork
    split
    · exact .foldl (fun h => .rewritePages h) .refl
    · exact .dieLost .refl
    · exact .enterDisabled .refl
    · exact .mapRegs .refl
    · exact .refl

theorem Frame.fenceOne {kind n cls addr : Nat} {auto : Bool} (h : Frame ps s t) (hp : fenceParts ⊆ ps := by decide) :
    Frame ps s (fenceOne t kind n cls addr auto) :=
  h.trans hp <| by
    unfold Machine.fenceOne
    dsimp only
    refine .ite ?_ (.ite (.outWork (.unitFault .refl)) (.unitFault .refl))
    refine .ite ?_ ?_
    · exact .outWork (.unitFault (.ite (.outWork (.unitFault .refl)) (.unitFault .refl)))
    · exact .unitFault (.ite (.outWork (.unitFault .refl)) (.unitFault .refl))

theorem Frame.fenceUnit {kind n cls addr : Nat} {auto : Bool} (h : Frame ps s t) (hp : fenceParts ⊆ ps := by decide) :
    Frame ps s (fenceUnit t kind n cls addr auto) :=
  h.trans hp <| by
    unfold Machine.fenceUnit
    exact .ite .refl (.foldl (fun h => .fenceOne h) (.fenceOne .refl))

theorem Frame.classFault {kind n cls addr : Nat} (h : Frame ps s t) (hp : fenceParts ⊆ ps := by decide) :
    Frame ps s (classFault t kind n cls addr) :=
  h.trans hp <| by
    unfold Machine.classFault
    exact .ite (.fenceUnit .refl) .refl

theorem Frame.setService {kind n : Nat} {f : UnitRec → UnitRec} (h : Frame ps s t) (hp : [.regs, .host, .ras, .usnea] ⊆ ps := by decide) :
    Frame ps s (setService t kind n f) :=
  h.trans hp <| by
    unfold Machine.setService
    exact .unitEvent (.setUnit .refl)

theorem Frame.takeOut {cmd kind n : Nat} (h : Frame ps s t) (hp : fenceParts ⊆ ps := by decide) :
    Frame ps s (takeOut t cmd kind n).1 :=
  h.trans hp <| by
    unfold Machine.takeOut
    dsimp only
    split
    · exact .refl
    · split
      · exact .refl
      · refine .ite ?_ ?_
        · refine .retireUnit (.ite (.setService .refl) ?_)
          exact .ite (.setUnit .refl) (.ite (.fenceUnit .refl) (.ite .refl (.enterOut .refl)))
        · refine .ite (.setService .refl) ?_
          exact .ite (.setUnit .refl) (.ite (.fenceUnit .refl) (.ite .refl (.enterOut .refl)))

theorem Frame.setPower {kind n : Nat} {off : Bool} (h : Frame ps s t) (hp : [.power] ⊆ ps := by decide) :
    Frame ps s (setPower t kind n off) :=
  h.trans hp <| by
    unfold Machine.setPower
    exact .mapPower .refl

theorem Frame.unitPower {kind n : Nat} {off : Bool} (h : Frame ps s t) (hp : [.power] ⊆ ps := by decide) :
    Frame ps s (unitPower t kind n off) :=
  h.trans hp <| by
    unfold Machine.unitPower
    exact .ite .refl (.setPower .refl)

theorem Frame.enterReturning {kind n : Nat} (h : Frame ps s t) (hp : [.regs, .host, .ras, .usnea, .power] ⊆ ps := by decide) :
    Frame ps s (enterReturning t kind n) :=
  h.trans hp <| by
    unfold Machine.enterReturning
    exact .unitPower (.setService .refl)

theorem Frame.restore {kind n : Nat} (h : Frame ps s t) (hp : [.regs, .host, .ras, .usnea, .power] ⊆ ps := by decide) :
    Frame ps s (restore t kind n).1 :=
  h.trans hp <| by
    unfold Machine.restore
    dsimp only
    split
    · exact .setUnit .refl
    · exact .enterReturning .refl
    · exact .enterReturning (.mapRas (.setUnit .refl))
    · exact .refl

theorem Frame.rasEffect {cmd kind n : Nat} (h : Frame ps s t) (hp : serviceParts ⊆ ps := by decide) :
    Frame ps s (rasEffect t cmd kind n).1 :=
  h.trans hp <| by
    unfold Machine.rasEffect
    split
    · exact .refl
    · split
      · exact .restore .refl
      · exact .takeOut .refl

theorem Frame.rasCmd {w : Nat} (h : Frame ps s t) (hp : serviceParts ⊆ ps := by decide) :
    Frame ps s (rasCmd t w) :=
  h.trans hp <| by
    unfold Machine.rasCmd
    exact .ite .refl (.mapRas (.rasEffect .refl))

theorem Frame.deepApply (h : Frame ps s t) (hp : serviceParts ⊆ ps := by decide) :
    Frame ps s (deepApply t) :=
  h.trans hp <| by
    unfold Machine.deepApply
    dsimp only
    refine .ite .refl ?_
    exact .foldl (fun h => .unitPower h) (.mapPower (.foldl (fun h => .restore h)
        (.foldl (fun h => .ite (.event (.takeOut h)) (.takeOut h)) .refl)))

theorem Frame.ungate (h : Frame ps s t) (hp : [.power] ⊆ ps := by decide) : Frame ps s (ungate t) :=
  h.trans hp <| by
    unfold Machine.ungate
    exact .mapPower .refl

theorem Frame.afterStrobe (h : Frame ps s t) (hp : serviceParts ⊆ ps := by decide) :
    Frame ps s (afterStrobe t) :=
  h.trans hp <| by
    unfold Machine.afterStrobe
    exact .ungate (.deepApply (.eventIf (.portsConfig .refl)))

theorem Frame.drainComplete {kind n : Nat} (h : Frame ps s t) (hp : serviceParts ⊆ ps := by decide) :
    Frame ps s (drainComplete t kind n) :=
  h.trans hp <| by
    unfold Machine.drainComplete
    dsimp only
    refine .ite .refl ?_
    refine .ite ?_ ?_
    · exact .enterReturning (.ite (.unitPower (.outWork (.fenceWork (.enterOut .refl)))) (.outWork (.fenceWork (.enterOut .refl))))
    · exact .ite (.unitPower (.outWork (.fenceWork (.enterOut .refl)))) (.outWork (.fenceWork (.enterOut .refl)))

theorem Frame.zeroStack {st : Nat} (h : Frame ps s t) (hp : [.lichen] ⊆ ps := by decide) : Frame ps s (zeroStack t st) :=
  h.trans hp <| by
    unfold Machine.zeroStack
    exact .mapLichen .refl fun hm => memWf_filter hm _

theorem Frame.returnWork {kind n : Nat} (h : Frame ps s t) (hp : [.regs, .lichen, .mem, .felt] ⊆ ps := by decide) :
    Frame ps s (returnWork t kind n) :=
  h.trans hp <| by
    unfold Machine.returnWork
    dsimp only
    split
    · exact .mapMem .refl fun hm => memWf_foldl_zeroSheet hm _
    · exact .reloadUnit (.mapLichen .refl)
    · exact .zeroStack .refl
    · exact .mapMem .refl fun hm => ⟨hm.1, memWf_filter hm.2 _⟩
    · exact .mapFelt .refl
    · exact .reloadUnit .refl
    · exact .reloadUnit .refl
    · exact .reloadBlock .refl
    · exact .refl

theorem Frame.returnDone {kind n : Nat} {ok : Bool}
    (h : Frame ps s t) (hp : [.regs, .host, .lichen, .mem, .felt, .ras, .usnea] ⊆ ps := by decide) :
    Frame ps s (returnDone t kind n ok) :=
  h.trans hp <| by
    unfold Machine.returnDone
    exact .ite .refl (.ite (.setService (.returnWork .refl)) (.enterOut .refl))

theorem Frame.d2dSwap {link lane : Nat} (h : Frame ps s t) (hp : fenceParts ⊆ ps := by decide) :
    Frame ps s (d2dSwap t link lane) :=
  h.trans hp <| by
    unfold Machine.d2dSwap
    exact .ite .refl (.ite .refl (.ite (.fenceUnit .refl) (.mapRas .refl)))

theorem Frame.skipSlot {n x : Nat} (h : Frame ps s t) (hp : [.host] ⊆ ps := by decide) : Frame ps s (skipSlot t n x) :=
  h.trans hp <| by
    unfold Machine.skipSlot
    exact .mapHost .refl

theorem Frame.markPartial {n : Nat} (h : Frame ps s t) (hp : [.host] ⊆ ps := by decide) : Frame ps s (markPartial t n) :=
  h.trans hp <| by
    unfold Machine.markPartial
    exact .mapHost .refl

theorem Frame.skipAttr {n x : Nat} (h : Frame ps s t) (hp : [.host] ⊆ ps := by decide) : Frame ps s (skipAttr t n x) :=
  h.trans hp <| by
    unfold Machine.skipAttr
    exact .mapHost (.markPartial .refl)

theorem Frame.skipAdj {n x : Nat} (h : Frame ps s t) (hp : [.host] ⊆ ps := by decide) : Frame ps s (skipAdj t n x) :=
  h.trans hp <| by
    unfold Machine.skipAdj
    exact .mapHost (.markPartial .refl)

theorem Frame.t2Poison {l : List (Nat × Nat)} (h : Frame ps s t) (hp : [.lichen] ⊆ ps := by decide) : Frame ps s (t2Poison t l) :=
  h.trans hp <| by
    unfold Machine.t2Poison
    exact .mapLichen .refl

theorem Frame.weightsPoisoned {i sw : Nat} (h : Frame ps s t) (hp : [.regs, .host, .lichen, .model, .ras, .usnea] ⊆ ps := by decide) :
    Frame ps s (weightsPoisoned t i sw) :=
  h.trans hp <| by
    unfold Machine.weightsPoisoned
    dsimp only
    split
    · exact .refl
    · exact .ite .refl (.mapModel (.t2Poison (.faultRecord .refl)))

theorem Frame.damagedRead {n : Nat} {d : DamagedData} (h : Frame ps s t) (hp : faultParts ⊆ ps := by decide) :
    Frame ps s (damagedRead t n d) :=
  h.trans hp <| by
    unfold Machine.damagedRead
    dsimp only
    split
    · exact .skipSlot (.faultRecord .refl)
    · exact .updShard (.skipAttr (.faultRecord .refl))
    · exact .updShard (.skipAdj (.faultRecord .refl))
    · exact .cutBatch (.faultRecord .refl)
    · exact .ite (.skipSlot (.faultRecord .refl)) (.markPartial (.faultRecord .refl))
    · split
      · exact .hotWrite (.faultRecord .refl)
      · exact .refl
    · exact .rgDamage .refl
    · exact .updShard (.t2Poison (.faultRecord .refl))
    · exact .weightsPoisoned .refl
    · exact .restartQuery (.faultRecord .refl)
    · exact .faultRecord .refl
    · exact .foldl (fun h => .faultCmd h) (.updShard (.faultRecord .refl))
    · exact .ite (.bump (.mapRas (.faultRecord .refl))) .refl

theorem Frame.ledgerReturned {p : Nat} {l : List LRec} (h : Frame ps s t) (hp : [.ras] ⊆ ps := by decide) :
    Frame ps s (ledgerReturned t p l) :=
  h.trans hp <| by
    unfold Machine.ledgerReturned
    exact .ledgerMap .refl

theorem Frame.ledgerRead {n : Nat} {c : Cmd} (h : Frame ps s t) (hp : [.host, .lichen, .twill, .ras] ⊆ ps := by decide) :
    Frame ps s (ledgerRead t n c) :=
  h.trans hp <| by
    unfold Machine.ledgerRead
    exact .ite (.endWith .refl) (.finish (.ledgerReturned (.putResult .refl)))

theorem Frame.healthLog {n : Nat} {c : Cmd} (h : Frame ps s t) (hp : [.host, .lichen, .twill, .usnea] ⊆ ps := by decide) :
    Frame ps s (healthLog t n c) :=
  h.trans hp <| by
    unfold Machine.healthLog
    exact .usneaServed .refl (fun h => .ite (.endWith h) (.finish (.putResult h)))

theorem Frame.logAdd {kind part qp : Nat} {body : List Byte} (h : Frame ps s t) (hp : [.regs, .host, .usnea] ⊆ ps := by decide) :
    Frame ps s (logAdd t kind part qp body) :=
  h.trans hp <| by
    unfold Machine.logAdd
    exact .eventIf (.mapUsnea .refl)

theorem Frame.logRecord {x : Nat × LRec} (h : Frame ps s t) (hp : [.regs, .host, .usnea] ⊆ ps := by decide) : Frame ps s (logRecord t x) :=
  h.trans hp <| by
    unfold Machine.logRecord
    exact .ite (.raiseEvent (.logAdd .refl)) (.logAdd .refl)

theorem Frame.logCopy (h : Frame ps s t) (hp : [.regs, .host, .ras, .usnea] ⊆ ps := by decide) : Frame ps s (logCopy t) :=
  h.trans hp <| by
    unfold Machine.logCopy
    exact .ite .refl (.eventIf (.mapRas (.foldl (fun h => .logRecord h) .refl)))

theorem Frame.adminTimeout {n : Nat} (h : Frame ps s t) (hp : [.regs, .host, .lichen, .twill, .ras, .usnea] ⊆ ps := by decide) :
    Frame ps s (adminTimeout t n) :=
  h.trans hp <| by
    unfold Machine.adminTimeout
    dsimp only
    split
    · exact .refl
    · exact .ite .refl (.endWith (.faultRecord (.mapUsnea .refl)))

/-! ### Firmware -/

theorem Frame.boxAdd {what : Nat} {data : List Byte} (h : Frame ps s t) (hp : [.usnea] ⊆ ps := by decide) :
    Frame ps s (boxAdd t what data) :=
  h.trans hp <| by
    unfold Machine.boxAdd
    exact .mapUsnea .refl

theorem Frame.boxSave (h : Frame ps s t) (hp : [.usnea] ⊆ ps := by decide) : Frame ps s (boxSave t) :=
  h.trans hp <| by
    unfold Machine.boxSave
    exact .mapUsnea .refl

theorem Frame.fwLoad {b : List Byte} {copyB net : Bool} (h : Frame ps s t) (hp : [.usnea] ⊆ ps := by decide) :
    Frame ps s (fwLoad t b copyB net) :=
  h.trans hp <| by
    unfold Machine.fwLoad
    exact .mapUsnea .refl

theorem Frame.fwStart {b : List Byte} {copyB net : Bool} (h : Frame ps s t) (hp : [.sec, .usnea] ⊆ ps := by decide) :
    Frame ps s (fwStart t b copyB net) :=
  h.trans hp <| by
    unfold Machine.fwStart
    exact .mapUsnea (.boxAdd (.boxSave (.extendMeas (.fwLoad .refl))))

theorem Frame.measureRuntime (h : Frame ps s t) (hp : [.sec] ⊆ ps := by decide) : Frame ps s (measureRuntime t) :=
  h.trans hp <| by
    unfold Machine.measureRuntime
    exact .foldl (fun h => .extendMeas h) .refl

theorem Frame.runtimeStart (h : Frame ps s t) (hp : [.usnea] ⊆ ps := by decide) : Frame ps s (runtimeStart t) :=
  h.trans hp <| by
    unfold Machine.runtimeStart
    exact .mapUsnea .refl

theorem Frame.fwToT3 (h : Frame ps s t) (hp : [.usnea] ⊆ ps := by decide) : Frame ps s (fwToT3 t) :=
  h.trans hp <| by
    unfold Machine.fwToT3
    exact .ite .refl (.mapUsnea .refl)

theorem Frame.norDirWrite {f : NorDir → NorDir} (h : Frame ps s t) (hp : [.usnea] ⊆ ps := by decide) : Frame ps s (norDirWrite t f) :=
  h.trans hp <| by
    unfold Machine.norDirWrite
    exact .mapUsnea .refl

theorem Frame.usneaHalt {cause : Nat} (h : Frame ps s t) (hp : [.regs, .ras, .usnea] ⊆ ps := by decide) : Frame ps s (usneaHalt t cause) :=
  h.trans hp <| by
    unfold Machine.usneaHalt
    exact .ite .refl (.mapRas (.mapRegs (.mapUsnea .refl)))

theorem Frame.usneaClose {cause : Nat} (h : Frame ps s t) (hp : [.regs, .ras, .usnea] ⊆ ps := by decide) :
    Frame ps s (usneaClose t cause) :=
  h.trans hp <| by
    unfold Machine.usneaClose
    exact .ite .refl (.mapUsnea (.usneaHalt .refl))

theorem Frame.usneaRestart (h : Frame ps s t) (hp : [.regs, .host, .ras, .usnea] ⊆ ps := by decide) : Frame ps s (usneaRestart t) :=
  h.trans hp <| by
    unfold Machine.usneaRestart
    refine .ite .refl ?_
    extract_lets +onlyGivenNames s₁ cause s₂ s₃
    have h₁ : Frame [.regs, .host, .ras, .usnea] t s₁ := .ite .refl (.usneaHalt .refl)
    clear_value s₁
    have h₂ : Frame [.regs, .host, .ras, .usnea] t s₂ := .boxAdd (.boxSave h₁)
    clear_value s₂
    have h₃ : Frame [.regs, .host, .ras, .usnea] t s₃ := .event (.mapUsnea h₂)
    clear_value s₃
    clear_value cause
    refine .ite h₃ ?_
    extract_lets +onlyGivenNames b s₄
    have h₄ : Frame [.regs, .host, .ras, .usnea] t s₄ := .event (.norDirWrite h₃)
    clear_value s₄
    exact .fwLoad h₄

theorem Frame.usneaRestarted (h : Frame ps s t) (hp : [.regs, .host, .usnea] ⊆ ps := by decide) : Frame ps s (usneaRestarted t) :=
  h.trans hp <| by
    unfold Machine.usneaRestarted
    exact .ite .refl (.ite (.event (.mapUsnea .refl)) (.event (.runtimeStart .refl)))

/-! ### HostQueues -/

theorem Frame.setQp {d : Nat} {q : Qp} (h : Frame ps s t) (hp : [.host] ⊆ ps := by decide) : Frame ps s (t.setQp d q) :=
  h.trans hp <| by
    unfold State.setQp
    exact .mapHost .refl

theorem Frame.updQp {d : Nat} {f : Qp → Qp} (h : Frame ps s t) (hp : [.host] ⊆ ps := by decide) : Frame ps s (t.updQp d f) :=
  h.trans hp <| by
    unfold State.updQp
    exact .setQp .refl

theorem Frame.failQp {d cause : Nat} (h : Frame ps s t) (hp : [.regs, .host] ⊆ ps := by decide) : Frame ps s (failQp t d cause) :=
  h.trans hp <| by
    unfold Machine.failQp
    exact .eventIf (.updQp .refl)

theorem Frame.enableQp {d : Nat} (h : Frame ps s t) (hp : [.regs, .host] ⊆ ps := by decide) : Frame ps s (enableQp t d) :=
  h.trans hp <| by
    unfold Machine.enableQp
    exact .ite (.updQp .refl) (.failQp (.updQp .refl))

theorem Frame.writeEnable {d : Nat} {on : Bool} (h : Frame ps s t) (hp : [.regs, .host] ⊆ ps := by decide) :
    Frame ps s (writeEnable t d on) :=
  h.trans hp <| by
    unfold Machine.writeEnable
    split
    · exact .enableQp .refl
    · exact .updQp .refl
    · exact .updQp .refl
    · exact .updQp .refl
    · exact .updQp .refl
    · exact .refl

theorem Frame.resetQpWindow {d : Nat} (h : Frame ps s t) (hp : [.regs, .host] ⊆ ps := by decide) : Frame ps s (resetQpWindow t d) :=
  h.trans hp <| by
    unfold Machine.resetQpWindow
    exact .mapRegs (.mapHost .refl)

theorem Frame.qpCtrl {req fn q : Nat} {on : Bool} (h : Frame ps s t) (hp : [.regs, .host] ⊆ ps := by decide) :
    Frame ps s (qpCtrl t req fn q on) :=
  h.trans hp <| by
    unfold Machine.qpCtrl
    refine .ite (.writeError .refl) ?_
    split
    · exact .writeError .refl
    · exact .ite (.writeError .refl) (.writeEnable (.setReg .refl))

theorem Frame.sqTailWrite {d : Nat} {v : W32} (h : Frame ps s t) (hp : [.regs, .host] ⊆ ps := by decide) : Frame ps s (sqTailWrite t d v) :=
  h.trans hp <| by
    unfold Machine.sqTailWrite
    exact .ite (.failQp .refl) (.ite (.updQp .refl) (.failQp .refl))

theorem Frame.cqHeadWrite {d : Nat} {v : W32} (h : Frame ps s t) (hp : [.regs, .host] ⊆ ps := by decide) : Frame ps s (cqHeadWrite t d v) :=
  h.trans hp <| by
    unfold Machine.cqHeadWrite
    exact .ite (.failQp .refl) (.ite (.updQp .refl) (.failQp .refl))

theorem Frame.doorbell {fn q : Nat} {cq : Bool} {v : W32} (h : Frame ps s t) (hp : [.regs, .host, .sec] ⊆ ps := by decide) :
    Frame ps s (doorbell t fn q cq v) :=
  h.trans hp <| by
    unfold Machine.doorbell
    refine .ite .refl ?_
    refine .ite (.mapHost .refl) ?_
    split
    · exact .event (.violation .refl)
    · exact .ite .refl (.ite (.cqHeadWrite .refl) (.sqTailWrite .refl))

theorem Frame.replayDoorbells (h : Frame ps s t) (hp : [.regs, .host, .sec] ⊆ ps := by decide) : Frame ps s (replayDoorbells t) :=
  h.trans hp <| by
    unfold Machine.replayDoorbells
    exact .foldl (fun h => .doorbell h) (.mapHost .refl)

theorem Frame.entryFetch {d : Nat} (h : Frame ps s t) (hp : [.regs, .host, .mem] ⊆ ps := by decide) : Frame ps s (entryFetch t d) :=
  h.trans hp <| by
    unfold Machine.entryFetch
    exact .ite .refl (.updQp (.charge .refl))

theorem Frame.admitEntry {qp : Option Nat} {fn part : Nat} {admin : Bool} {e : List Byte}
    (h : Frame ps s t) (hp : [.regs, .host, .lichen, .mem, .twill, .sec] ⊆ ps := by decide) :
    Frame ps s (admitEntry t qp fn part admin e) :=
  h.trans hp <| by
    unfold Machine.admitEntry
    split
    · extract_lets +onlyGivenNames n c chk s₁
      have h₁ : Frame [.regs, .host, .lichen, .mem, .twill, .sec] t s₁ := .mapHost .refl
      clear_value s₁
      clear_value n c chk
      split
      · exact .ite h₁ (.charge h₁)
      · extract_lets +onlyGivenNames s₂
        have h₂ : Frame [.regs, .host, .lichen, .mem, .twill, .sec] t s₂ := .endWith h₁
        clear_value s₂
        exact .ite (.violation h₂) h₂

theorem Frame.afterAdmit {d cost : Nat} (h : Frame ps s t) (hp : [.host] ⊆ ps := by decide) : Frame ps s (afterAdmit t d cost) :=
  h.trans hp <| by
    unfold Machine.afterAdmit
    exact .updQp .refl

theorem Frame.admissionSlot {p : Nat} (h : Frame ps s t) (hp : [.regs, .host, .lichen, .mem, .twill, .sec] ⊆ ps := by decide) :
    Frame ps s (admissionSlot t p) :=
  h.trans hp <| by
    unfold Machine.admissionSlot
    refine .ite .refl ?_
    extract_lets +onlyGivenNames ready s₁ cand k s₂
    have h₁ : Frame [.regs, .host, .lichen, .mem, .twill, .sec] t s₁ := .eventIf .refl
    clear_value s₁
    have h₂ : Frame [.regs, .host, .lichen, .mem, .twill, .sec] t s₂ := .ite h₁ (.foldl (fun h => .updQp h) h₁)
    clear_value s₂
    clear_value ready cand k
    split
    · exact h₂
    · split
      · exact h₂
      · exact .admitEntry (.afterAdmit h₂)

theorem Frame.creditTick (h : Frame ps s t) (hp : [.host] ⊆ ps := by decide) : Frame ps s (creditTick t) :=
  h.trans hp <| by
    unfold Machine.creditTick
    exact .foldl (fun h => .updQp h) .refl

theorem Frame.interruptDecision {fn d : Nat} {aged : Bool} (h : Frame ps s t) (hp : [.host] ⊆ ps := by decide) :
    Frame ps s (interruptDecision t fn d aged) :=
  h.trans hp <| by
    unfold Machine.interruptDecision
    exact .ite (.sendMsix (.updQp .refl)) .refl

theorem Frame.ledgerCommand {n : Nat} {c : Cmd} {cause status : Nat}
    (h : Frame ps s t) (hp : [.regs, .host, .ras, .usnea] ⊆ ps := by decide) :
    Frame ps s (ledgerCommand t n c cause status) :=
  h.trans hp <| by
    unfold Machine.ledgerCommand
    exact .ledgerAdd (.foldl (fun h => .ledgerAdd h) .refl)

theorem Frame.ringCompletion {d : Nat} {c : Cmd} {status : Nat} (h : Frame ps s t) (hp : [.regs, .host, .mem] ⊆ ps := by decide) :
    Frame ps s (ringCompletion t d c status) :=
  h.trans hp <| by
    unfold Machine.ringCompletion
    exact .interruptDecision (.updQp (.charge (.hostWrite .refl)))

theorem Frame.writeResults {c : Cmd} (h : Frame ps s t) (hp : [.regs, .host, .mem] ⊆ ps := by decide) : Frame ps s (writeResults t c) :=
  h.trans hp <| by
    unfold Machine.writeResults
    exact .foldl (fun h => .writeExtents (.charge h)) .refl

theorem Frame.completeQp {n d : Nat} {c : Cmd}
    (h : Frame ps s t) (hp : [.regs, .img, .host, .shards, .lichen, .epoch, .model, .mem, .felt, .twill, .ras, .usnea] ⊆ ps := by decide) :
    Frame ps s (completeQp t n d c) :=
  h.trans hp <| by
    unfold Machine.completeQp
    extract_lets +onlyGivenNames down cqBad zero status faulted s₁ s₂ s₃ s₄ s₅ s₆ s₇ s₈
    have h₁ : Frame [.regs, .img, .host, .shards, .lichen, .epoch, .model, .mem, .felt, .twill, .ras, .usnea] t s₁ := .eventIf .refl
    clear_value s₁
    have h₂ : Frame [.regs, .img, .host, .shards, .lichen, .epoch, .model, .mem, .felt, .twill, .ras, .usnea] t s₂ :=
      .ite (.countAffected (.bump h₁)) h₁
    clear_value s₂
    have h₃ : Frame [.regs, .img, .host, .shards, .lichen, .epoch, .model, .mem, .felt, .twill, .ras, .usnea] t s₃ :=
      .ite h₂ (.writeResults h₂)
    clear_value s₃
    clear_value down cqBad zero status faulted
    have h₄ : Frame [.regs, .img, .host, .shards, .lichen, .epoch, .model, .mem, .felt, .twill, .ras, .usnea] t s₄ :=
      .ite (.ledgerCommand h₃) (.ite (.ledgerCommand h₃) h₃)
    clear_value s₄
    have h₅ : Frame [.regs, .img, .host, .shards, .lichen, .epoch, .model, .mem, .felt, .twill, .ras, .usnea] t s₅ := by
      unfold s₅
      refine .ite (.ledgerCommand h₃) ?_
      refine .ite (.ledgerCommand h₃) ?_
      exact .ringCompletion h₄
    clear_value s₅
    have h₆ : Frame [.regs, .img, .host, .shards, .lichen, .epoch, .model, .mem, .felt, .twill, .ras, .usnea] t s₆ := .updQp h₅
    clear_value s₆
    have h₇ : Frame [.regs, .img, .host, .shards, .lichen, .epoch, .model, .mem, .felt, .twill, .ras, .usnea] t s₇ := .mapHost h₆
    clear_value s₇
    have h₈ : Frame [.regs, .img, .host, .shards, .lichen, .epoch, .model, .mem, .felt, .twill, .ras, .usnea] t s₈ := .mapRas h₇
    clear_value s₈
    exact .afterCompletion h₈

theorem Frame.eventGapExpiry {fn : Nat} (h : Frame ps s t) (hp : [.host] ⊆ ps := by decide) : Frame ps s (eventGapExpiry t fn) :=
  h.trans hp <| by
    unfold Machine.eventGapExpiry
    exact .ite .refl (.ite (.signalFn (.mapHost .refl)) (.mapHost .refl))

theorem Frame.vectorUnmask {fn v : Nat} (h : Frame ps s t) (hp : [.host] ⊆ ps := by decide) : Frame ps s (vectorUnmask t fn v) :=
  h.trans hp <| by
    unfold Machine.vectorUnmask
    exact .ite .refl (.ite (.sendMsix (.mapHost .refl)) (.mapHost .refl))

theorem Frame.flrEnd {fn : Nat} (h : Frame ps s t) (hp : [.regs, .host] ⊆ ps := by decide) : Frame ps s (flrEnd t fn) :=
  h.trans hp <| by
    unfold Machine.flrEnd
    exact .ite (.event (.mapHost (.foldl (fun h => .foldl (fun h1 => .resetQpWindow h1) (.mapRegs h)) .refl))) .refl

theorem Frame.drainEnd {d : Nat} (h : Frame ps s t) (hp : [.regs, .host] ⊆ ps := by decide) : Frame ps s (drainEnd t d) :=
  h.trans hp <| by
    unfold Machine.drainEnd
    exact .ite .refl (.ite (.enableQp (.updQp .refl)) (.flrEnd (.ite (.resetQpWindow (.updQp .refl)) (.updQp .refl))))

theorem Frame.fnRegReset {fn : Nat} (h : Frame ps s t) (hp : [.regs] ⊆ ps := by decide) : Frame ps s (fnRegReset t fn) :=
  h.trans hp <| by
    unfold Machine.fnRegReset
    exact .mapRegs .refl

theorem Frame.functionReset {fn : Nat} (h : Frame ps s t) (hp : [.regs, .host] ⊆ ps := by decide) : Frame ps s (functionReset t fn) :=
  h.trans hp <| by
    unfold Machine.functionReset
    exact .flrEnd (.mapHost (.foldl (fun h => .updQp h) (.fnRegReset .refl)))

theorem Frame.flr {fn : Nat} (h : Frame ps s t) (hp : [.regs, .img, .host] ⊆ ps := by decide) : Frame ps s (flr t fn) :=
  h.trans hp <| by
    unfold Machine.flr
    exact .ite .refl (.ite (.functionReset (.mapImg .refl)) (.functionReset .refl))

theorem Frame.hostPortReset (h : Frame ps s t) (hp : [.regs, .img, .host] ⊆ ps := by decide) : Frame ps s (hostPortReset t) :=
  h.trans hp <| by
    unfold Machine.hostPortReset
    exact .foldl (fun h => .flr h) .refl

theorem Frame.telemetrySample (h : Frame ps s t) (hp : [.regs, .host] ⊆ ps := by decide) : Frame ps s (telemetrySample t) :=
  h.trans hp <| by
    unfold Machine.telemetrySample
    exact .foldl (fun h => .ite (.setReg (.updQp h)) (.updQp h)) .refl

theorem Frame.linkChange {rate width : Nat} {flit cxl : Bool} (h : Frame ps s t) (hp : [.regs, .img, .host] ⊆ ps := by decide) :
    Frame ps s (linkChange t rate width flit cxl) :=
  h.trans hp <| by
    unfold Machine.linkChange
    exact .ite (.hostPortReset (.eventIf (.mapHost .refl))) (.eventIf (.mapHost .refl))

theorem Frame.t4Count {part : Nat} (h : Frame ps s t) (hp : [.regs, .host] ⊆ ps := by decide) : Frame ps s (t4Count t part) :=
  h.trans hp <| by
    unfold Machine.t4Count
    exact .event (.bump .refl)

theorem Frame.t4Failure {use : T4Use} (h : Frame ps s t) (hp : [.regs, .host, .lichen, .twill, .ras, .usnea] ⊆ ps := by decide) :
    Frame ps s (t4Failure t use) :=
  h.trans hp <| by
    unfold Machine.t4Failure
    split
    · exact .ite (.failQp (.t4Count .refl)) .refl
    · split
      · exact .refl
      · exact .ite .refl (.endWith (.faultRecord (.t4Count .refl)))
    · split
      · exact .refl
      · exact .updCmd (.faultRecord (.t4Count .refl))
    · split
      · exact .refl
      · split
        · exact .refl
        · exact .failQp (.t4Count .refl)

/-! ### Power -/

theorem Frame.rtcEdge (h : Frame ps s t) (hp : [.power] ⊆ ps := by decide) : Frame ps s (rtcEdge t) :=
  h.trans hp <| by
    unfold Machine.rtcEdge
    exact .ite .refl (.mapPower .refl)

theorem Frame.setDom {d : Nat} {f : Domain → Domain} (h : Frame ps s t) (hp : [.power] ⊆ ps := by decide) : Frame ps s (t.setDom d f) :=
  h.trans hp <| by
    unfold State.setDom
    exact .mapPower .refl

theorem Frame.domainGate {d : Nat} (h : Frame ps s t) (hp : [.power] ⊆ ps := by decide) : Frame ps s (domainGate t d) :=
  h.trans hp <| by
    unfold Machine.domainGate
    exact .ite (.setDom .refl) .refl

theorem Frame.domainWake {d : Nat} (h : Frame ps s t) (hp : [.power] ⊆ ps := by decide) : Frame ps s (domainWake t d) :=
  h.trans hp <| by
    unfold Machine.domainWake
    exact .ite (.setDom .refl) .refl

theorem Frame.cutTo {floor : Nat → Nat} {l : List Nat} (h : Frame ps s t) (hp : [.power] ⊆ ps := by decide) :
    Frame ps s (cutTo t floor l) :=
  h.trans hp <| by
    unfold Machine.cutTo
    exact .foldl (fun h => .ite (.setDom h) h) .refl

theorem Frame.lowerStep (h : Frame ps s t) (hp : [.power] ⊆ ps := by decide) : Frame ps s (lowerStep t) :=
  h.trans hp <| by
    unfold Machine.lowerStep
    split <;> exact .cutTo .refl

theorem Frame.raiseBy {l : List Nat} (h : Frame ps s t) (hp : [.power] ⊆ ps := by decide) : Frame ps s (raiseBy t l) :=
  h.trans hp <| by
    unfold Machine.raiseBy
    exact .foldl (fun h => .setDom h) .refl

theorem Frame.raiseStep (h : Frame ps s t) (hp : [.power] ⊆ ps := by decide) : Frame ps s (raiseStep t) :=
  h.trans hp <| by
    unfold Machine.raiseStep
    dsimp only
    refine .ite (.raiseBy .refl) ?_
    split <;> exact .raiseBy .refl

theorem Frame.throttle {f : State → State} (h : Frame ps s t) (hf : ∀ {v : State}, Frame ps s v → Frame ps s (f v))
    (hp : [.regs, .host] ⊆ ps := by decide) : Frame ps s (throttle t f) :=
  (hf h).eventIf hp

theorem Frame.powerEstimate {watts : List (Nat × Nat)} (h : Frame ps s t) (hp : [.regs, .host, .power] ⊆ ps := by decide) :
    Frame ps s (powerEstimate t watts) :=
  h.trans hp <| by
    unfold Machine.powerEstimate
    exact .throttle .refl (fun h => .ite (.lowerStep (.cutTo h)) (.cutTo h))

theorem Frame.powerCalibrate {meanW inputW : Nat} (h : Frame ps s t) (hp : [.regs, .host, .power] ⊆ ps := by decide) :
    Frame ps s (powerCalibrate t meanW inputW) :=
  h.trans hp <| by
    unfold Machine.powerCalibrate
    exact .throttle (.mapPower (.mapPower .refl)) (fun h => .ite (.lowerStep h) (.ite (.raiseStep h) h))

theorem Frame.trip (h : Frame ps s t) (hp : [.regs, .host, .ras, .usnea, .power] ⊆ ps := by decide) : Frame ps s (trip t) :=
  h.trans hp <| by
    unfold Machine.trip
    exact .logAdd (.faultRecord (.mapPower .refl))

theorem Frame.tempSample {temps : List ℤ} (h : Frame ps s t) (hp : [.regs, .host, .ras, .usnea, .power] ⊆ ps := by decide) :
    Frame ps s (tempSample t temps) :=
  h.trans hp <| by
    unfold Machine.tempSample
    extract_lets +onlyGivenNames temps was hot n s₁ s₂ over105 s₃ cold s₄
    have h₁ : Frame [.regs, .host, .ras, .usnea, .power] t s₁ := .mapPower .refl
    clear_value s₁
    have h₂ : Frame [.regs, .host, .ras, .usnea, .power] t s₂ := .eventIf h₁
    clear_value s₂
    have h₃ : Frame [.regs, .host, .ras, .usnea, .power] t s₃ := .ite (.foldl (fun h => .ite (.setDom h) h) h₂) h₂
    clear_value s₃
    have h₄ : Frame [.regs, .host, .ras, .usnea, .power] t s₄ := .ite (.foldl (fun h => .setDom h) h₃) h₃
    clear_value s₄
    exact .ite (.trip h₄) h₄

theorem Frame.overvoltage {m : Nat} {above : Bool} (h : Frame ps s t) (hp : [.regs, .host, .power] ⊆ ps := by decide) :
    Frame ps s (overvoltage t m above) :=
  h.trans hp <| by
    unfold Machine.overvoltage
    exact .ite .refl (.ite (.event (.mapPower .refl)) (.mapPower .refl))

theorem Frame.droop {d mhz : Nat} (h : Frame ps s t) (hp : [.power] ⊆ ps := by decide) : Frame ps s (droop t d mhz) :=
  h.trans hp <| by
    unfold Machine.droop
    exact .ite .refl (.setDom .refl)

theorem Frame.regulatorPoll {replies : List (Option (List Nat))} (h : Frame ps s t) (hp : [.regs, .host, .power] ⊆ ps := by decide) :
    Frame ps s (regulatorPoll t replies) :=
  h.trans hp <| by
    unfold Machine.regulatorPoll
    exact .ite .refl (.eventIf (.mapPower .refl))

theorem Frame.avsSet (h : Frame ps s t) (hp : [.power] ⊆ ps := by decide) : Frame ps s (avsSet t) :=
  h.trans hp <| by
    unfold Machine.avsSet
    exact .mapPower .refl

/-! ### Startup -/

theorem Frame.resetDevice {cold : Bool} {power : PowerState} (h : Frame ps s t) (hp : resetParts ⊆ ps := by decide) :
    Frame ps s (resetDevice t cold power) :=
  h.trans hp ⟨fun p hn => by cases p <;> simp_all [samePart, Machine.resetDevice, resetParts], fun hm => by
    obtain ⟨_, hhost⟩ := (memoryOk_iff t).1 hm
    exact (memoryOk_iff _).2 ⟨⟨⟨rfl, rfl⟩, rfl⟩, hhost⟩⟩

theorem Frame.tripReport {tripped : Bool} (h : Frame ps s t) (hp : [.regs, .host] ⊆ ps := by decide) : Frame ps s (tripReport t tripped) :=
  h.trans hp <| by
    unfold Machine.tripReport
    exact .eventIf .refl

theorem Frame.warmReset (h : Frame ps s t) (hp : resetParts ⊆ ps := by decide) :
    Frame ps s (warmReset t) :=
  h.trans hp <| by
    unfold Machine.warmReset
    exact .ite .refl (.tripReport (.extendMeas (.resetDevice .refl)))

theorem Frame.pwrReset {req al v : Nat} (h : Frame ps s t) (hp : resetParts ⊆ ps := by decide) :
    Frame ps s (pwrReset t req al v) :=
  h.trans hp <| by
    unfold Machine.pwrReset
    exact .ite .refl (.ite (.writeError .refl) (.ite (.warmReset .refl) .refl))

theorem Frame.failedBlock {kind n : Nat} (h : Frame ps s t) (hp : resetParts ⊆ ps := by decide) :
    Frame ps s (failedBlock t kind n) :=
  h.trans hp <| by
    unfold Machine.failedBlock
    exact .ite (.warmReset .refl) .refl

theorem Frame.coldReset {aonLow lost : Bool} (h : Frame ps s t) (hp : resetParts ⊆ ps := by decide) :
    Frame ps s (coldReset t aonLow lost) :=
  h.trans hp <| by
    unfold Machine.coldReset
    exact .tripReport (.resetDevice .refl)

theorem Frame.clockReturn (h : Frame ps s t) (hp : [.power] ⊆ ps := by decide) : Frame ps s (clockReturn t) :=
  h.trans hp <| by
    unfold Machine.clockReturn
    exact .ite (.mapPower .refl) .refl

theorem Frame.aonRise (h : Frame ps s t) (hp : [.power] ⊆ ps := by decide) : Frame ps s (aonRise t) :=
  h.trans hp <| by
    unfold Machine.aonRise
    exact .ite .refl (.mapPower .refl)

theorem Frame.mainRise (h : Frame ps s t) (hp : [.power] ⊆ ps := by decide) : Frame ps s (mainRise t) :=
  h.trans hp <| by
    unfold Machine.mainRise
    exact .ite (.mapPower .refl) .refl

theorem Frame.mainFall {aonToo : Bool} (h : Frame ps s t) (hp : resetParts ⊆ ps := by decide) :
    Frame ps s (mainFall t aonToo) :=
  h.trans hp <| by
    unfold Machine.mainFall
    exact .ite (.coldReset .refl) (.ite .refl (.raiseEvent (.logAdd (.event (.mapPower .refl)))))

theorem Frame.perstRise (h : Frame ps s t) (hp : [.power] ⊆ ps := by decide) : Frame ps s (perstRise t) :=
  h.trans hp <| by
    unfold Machine.perstRise
    exact .mapPower .refl

theorem Frame.haltStart {cause : Nat} (h : Frame ps s t) (hp : [.regs, .host, .usnea, .power] ⊆ ps := by decide) :
    Frame ps s (haltStart t cause) :=
  h.trans hp <| by
    unfold Machine.haltStart
    exact .raiseEvent (.boxAdd (.logAdd (.mapPower .refl)))

theorem Frame.ddrTrained {org : Nat} (h : Frame ps s t) (hp : [.regs, .mem, .usnea, .power] ⊆ ps := by decide) :
    Frame ps s (ddrTrained t org) :=
  h.trans hp <| by
    unfold Machine.ddrTrained
    exact .ite (.fwToT3 (.mapPower (.mapMem (.setRo .refl)))) .refl

theorem Frame.ddrTraining {ch : Nat} {ok : Bool} {org : Nat}
    (h : Frame ps s t) (hp : [.regs, .host, .mem, .usnea, .power] ⊆ ps := by decide) :
    Frame ps s (ddrTraining t ch ok org) :=
  h.trans hp <| by
    unfold Machine.ddrTraining
    exact .ite .refl (.ite (.ddrTrained (.setRo .refl)) (.ite (.haltStart (.event (.mapMem .refl))) (.mapMem .refl)))

theorem Frame.toStage {n : Stage} (h : Frame ps s t) (hp : [.power] ⊆ ps := by decide) : Frame ps s (toStage t n) :=
  h.trans hp <| by
    unfold Machine.toStage
    exact .mapPower .refl

theorem Frame.bootRom (h : Frame ps s t) (hp : [.regs, .host, .sec, .usnea, .power] ⊆ ps := by decide) : Frame ps s (bootRom t) :=
  h.trans hp <| by
    unfold Machine.bootRom
    exact .ite (.toStage (.fwStart .refl)) (.ite (.event (.toStage (.fwStart .refl))) (.mapUsnea .refl))

theorem Frame.stageRegion (h : Frame ps s t) (hp : [.regs, .img, .host, .usnea] ⊆ ps := by decide) : Frame ps s (stageRegion t) :=
  h.trans hp <| by
    unfold Machine.stageRegion
    dsimp only
    split
    · exact .refl
    · exact .ite (.imgStageBytes .refl) .refl

theorem Frame.takeStart (h : Frame ps s t) (hp : [.sec, .power] ⊆ ps := by decide) : Frame ps s (takeStart t) :=
  h.trans hp <| by
    unfold Machine.takeStart
    dsimp only
    split
    · exact .refl
    · exact .toStage (.mapPower (.mapSec .refl))

theorem Frame.stageDone (h : Frame ps s t) (hp : [.regs, .img, .host, .sec, .usnea, .power] ⊆ ps := by decide) : Frame ps s (stageDone t) :=
  h.trans hp <| by
    unfold Machine.stageDone
    split
    · exact .toStage (.extendMeas .refl)
    · exact .ite .refl (.bootRom .refl)
    · exact .toStage (.runtimeStart (.measureRuntime .refl))
    · exact .ite (.toStage (.mapPower (.avsSet .refl))) (.haltStart .refl)
    · exact .ite .refl (.ite (.haltStart .refl) (.toStage .refl))
    · exact .ite .refl (.ite (.haltStart .refl) (.stageRegion (.toStage .refl)))
    · exact .ite (.toStage .refl) .refl
    · exact .takeStart .refl
    · exact .refl
    · exact .refl
    · exact .refl

theorem Frame.startupStage {o : StageOutcome} (h : Frame ps s t) (hp : [.regs, .img, .host, .sec, .usnea, .power] ⊆ ps := by decide) :
    Frame ps s (startupStage t o) :=
  h.trans hp <| by
    unfold Machine.startupStage
    refine .ite .refl ?_
    split
    · exact .stageDone .refl
    · exact .ite (.haltStart .refl) .refl

/-! ### RegAccess -/

theorem Frame.advance {req : Nat} {a : Reg} {read : Bool} (h : Frame ps s t) (hp : [.regs] ⊆ ps := by decide) :
    Frame ps s (advance t req a read) :=
  h.trans hp <| by
    unfold Machine.advance
    exact .ite .refl (.setReg .refl)

theorem Frame.wakeFor {req : Nat} {a : Reg} (h : Frame ps s t) (hp : [.power] ⊆ ps := by decide) : Frame ps s (wakeFor t req a) :=
  h.trans hp <| by
    unfold Machine.wakeFor
    split
    · exact .domainWake .refl
    · exact .refl

theorem Frame.parityFault {k : Nat} (h : Frame ps s t) (hp : fenceParts ⊆ ps := by decide) :
    Frame ps s (parityFault t k) :=
  h.trans hp <| by
    unfold Machine.parityFault
    dsimp only
    split
    · exact .refl
    · split
      · exact .mapRegs (.fenceUnit (.event (.mapRegs .refl)))
      · split
        · exact .fenceUnit (.mapRegs (.event (.mapRegs .refl)))
        · exact .faultRecord (.mapRegs (.event (.mapRegs .refl)))

theorem Frame.parityCheck {k : Nat} (h : Frame ps s t) (hp : fenceParts ⊆ ps := by decide) :
    Frame ps s (parityCheck t k) :=
  h.trans hp <| by
    unfold Machine.parityCheck
    exact .ite (.parityFault .refl) .refl

theorem Frame.regRead {req : Nat} {r : Reg} {n al : Nat} (h : Frame ps s t) (hp : fenceParts ⊆ ps := by decide) :
    Frame ps s (regRead t req r n al).1 :=
  h.trans hp <| by
    unfold Machine.regRead
    extract_lets +onlyGivenNames shadow s₁ v s₂
    have h₁ : Frame fenceParts t s₁ := .ite (.parityCheck .refl) .refl
    clear_value s₁ shadow
    have h₂ : Frame fenceParts t s₂ := .ite h₁.drawn h₁
    clear_value s₂ v
    split
    · exact h₁
    · split
      · dsimp only; exact .mapRegs h₂
      · split
        · dsimp only; exact .mapRegs h₂
        · exact h₂

theorem Frame.indRange {req : Nat} {a : Reg} {al : Nat} (h : Frame ps s t) (hp : [.regs, .host] ⊆ ps := by decide) :
    Frame ps s (indRange t req a al) :=
  h.trans hp <| by
    unfold Machine.indRange
    exact .writeError .refl

theorem Frame.winFetch {req : Nat} {a : Reg} {al : Nat} (h : Frame ps s t) (hp : fenceParts ⊆ ps := by decide) :
    Frame ps s (winFetch t req a al).1 :=
  h.trans hp <| by
    unfold Machine.winFetch
    split
    · exact .indRange .refl
    · split
      · exact .refl
      · exact .regRead .refl
    · split
      · exact .refl
      · exact .indRange .refl
    all_goals exact .refl

theorem Frame.winRead {req : Nat} {a : Reg} {al : Nat} (h : Frame ps s t) (hp : serviceParts ⊆ ps := by decide) :
    Frame ps s (winRead t req a al).1 :=
  h.trans hp <| by
    unfold Machine.winRead
    exact .advance (.winFetch (.wakeFor .refl))

theorem Frame.wordRead {req addr : Nat} (h : Frame ps s t) (hp : serviceParts ⊆ ps := by decide) :
    Frame ps s (wordRead t req addr).1 :=
  h.trans hp <| by
    unfold Machine.wordRead
    dsimp only
    split
    · exact .refl
    · split
      · exact .refl
      · split
        · exact .refl
        · exact .refl
        · exact .regRead .refl
        · exact .winRead .refl
        · exact .parityCheck .refl
        · exact .refl

theorem Frame.readReg {req addr : Nat} (h : Frame ps s t) (hp : serviceParts ⊆ ps := by decide) :
    Frame ps s (readReg t req addr) :=
  h.trans hp <| by
    unfold Machine.readReg
    exact .ite .refl (.mapRegs (.wordRead .refl))

theorem Frame.readWide {req addr : Nat} (h : Frame ps s t) (hp : serviceParts ⊆ ps := by decide) :
    Frame ps s (readWide t req addr) :=
  h.trans hp <| by
    unfold Machine.readWide
    exact .ite .refl (.mapRegs (.wordRead (.wordRead .refl)))

/-! ### Registers -/

theorem Frame.werrIf {req block off al : Nat} {n : Option Nat} (h : Frame ps s t) (hp : [.regs, .host] ⊆ ps := by decide) :
    Frame ps s (werrIf t req block off al n) :=
  h.trans hp <| by
    unfold Machine.werrIf
    split
    · exact .writeError .refl
    · exact .refl

theorem Frame.copyWrite {req : Nat} {r : Reg} {n al x : Nat} {v : W32} (h : Frame ps s t) (hp : [.regs, .host] ⊆ ps := by decide) :
    Frame ps s (copyWrite t req r n al x v) :=
  h.trans hp <| by
    unfold Machine.copyWrite
    dsimp only
    refine .ite (.writeError .refl) ?_
    exact .ite (.writeError .refl) (.werrIf (.ite (.mapRegs .refl) (.ite (.setShadow .refl) (.setReg .refl))))

theorem Frame.sqcWrite {req : Nat} {r : Reg} {n x : Nat} {v : W32} (h : Frame ps s t) (hp : [.regs, .host] ⊆ ps := by decide) :
    Frame ps s (sqcWrite t req r n x v) :=
  h.trans hp <| by
    unfold Machine.sqcWrite
    exact .ite (.writeError .refl) (.eventIf (.mapRegs .refl))

theorem Frame.werrWrite {req b : Nat} {v : W32} (h : Frame ps s t) (hp : [.regs, .host] ⊆ ps := by decide) :
    Frame ps s (werrWrite t req b v) :=
  h.trans hp <| by
    unfold Machine.werrWrite
    exact .ite (.writeError .refl) (.mapRegs .refl)

theorem Frame.faultWrite {req b : Nat} {v : W32} (h : Frame ps s t) (hp : [.regs, .host] ⊆ ps := by decide) :
    Frame ps s (faultWrite t req b v) :=
  h.trans hp <| by
    unfold Machine.faultWrite
    exact .ite .refl (.ite (.writeError .refl) (.mapRegs .refl))

theorem Frame.updStrobe {req : Nat} {v : W32} (h : Frame ps s t) (hp : [.regs, .host, .sec] ⊆ ps := by decide) :
    Frame ps s (updStrobe t req v) :=
  h.trans hp <| by
    unfold Machine.updStrobe
    dsimp only
    refine .ite (.violation (.writeError .refl)) ?_
    refine .ite .refl ?_
    refine .ite (.ite (.writeError .refl) .refl) ?_
    exact .ite (.mapRegs (.ite (.writeError .refl) .refl)) (.issueUpdate (.ite (.writeError .refl) .refl))

theorem Frame.updStrobeDone {missed : List Nat} (h : Frame ps s t) (hp : serviceParts ⊆ ps := by decide) :
    Frame ps s (updStrobeDone t missed) :=
  h.trans hp <| by
    unfold Machine.updStrobeDone
    dsimp only
    split
    · exact .refl
    · exact .issueNext (.afterStrobe (.eventIf (.event (.mapRegs (.lagBehind (.strobeCopies .refl))))))

theorem Frame.ownCmdWrite {req x : Nat} {v : W32}
    (h : Frame ps s t) (hp : [.regs, .host, .mem, .twill, .own, .sec, .usnea] ⊆ ps := by decide) :
    Frame ps s (ownCmdWrite t req x v) :=
  h.trans hp <| by
    unfold Machine.ownCmdWrite
    dsimp only
    split
    · exact .ite .refl (.mapApply .refl)
    · exact .ite .refl (.claim .refl)
    · exact .ite .refl (.ite (.writeError .refl) (.tset .refl))
    · exact .ownAbort .refl
    · exact .writeError .refl

theorem Frame.portCmdWrite {req port x : Nat} {v : W32} (h : Frame ps s t) (hp : [.regs, .host, .twill, .ras, .usnea] ⊆ ps := by decide) :
    Frame ps s (portCmdWrite t req port x v) :=
  h.trans hp <| by
    unfold Machine.portCmdWrite
    split
    · exact .portRetrain .refl
    · exact .portRetarget .refl
    · exact .portDisable .refl
    · exact .ite (.laneFailing .refl) (.writeError .refl)
    · exact .writeError .refl

theorem Frame.doorbellWrite {req x : Nat} {v : W32} (h : Frame ps s t) (hp : [.regs, .host, .usnea] ⊆ ps := by decide) :
    Frame ps s (doorbellWrite t req x v) :=
  h.trans hp <| by
    unfold Machine.doorbellWrite
    exact .ite .refl (.ite (.writeError .refl) (.mapUsnea .refl))

theorem Frame.startAction {req : Nat} {r : Reg} {n x : Nat} {v : W32} (h : Frame ps s t) (hp : allButQueue ⊆ ps := by decide) :
    Frame ps s (startAction t req r n x v) :=
  h.trans hp <| by
    unfold Machine.startAction
    split
    · exact .updStrobe .refl
    · exact .ite (.writeError .refl) (.imgCtrl .refl)
    · exact .ownCmdWrite .refl
    · exact .ite (.rasCmd .refl) (.writeError .refl)
    · exact .pwrReset .refl
    · exact .doorbellWrite .refl
    · exact .portCmdWrite .refl
    · exact .refl

theorem Frame.noCopyWrite {req : Nat} {r : Reg} {al x : Nat} {v : W32} (h : Frame ps s t) (hb : Frame ps s u)
    (hp : [.regs, .host] ⊆ ps := by decide) : Frame ps s (noCopyWrite t req r al x v u) :=
  .ite (.ite (h.writeError hp) h) hb

theorem Frame.regWrite {req : Nat} {r : Reg} {n al x : Nat} {v : W32} (h : Frame ps s t) (hp : allButQueue ⊆ ps := by decide) :
    Frame ps s (regWrite t req r n al x v) :=
  h.trans hp <| by
    unfold Machine.regWrite
    split
    · exact .copyWrite .refl
    · exact .copyWrite .refl
    · exact .noCopyWrite .refl (.sqcWrite .refl)
    · exact .noCopyWrite .refl (.startAction .refl)
    · exact .noCopyWrite .refl (.ite (.writeError .refl) .refl)
    · exact .noCopyWrite .refl (.ite (.writeError .refl) .refl)

theorem Frame.qpWrite {req : Nat} {r : Reg} {d al x : Nat} {v : W32} (h : Frame ps s t) (hp : allButQueue ⊆ ps := by decide) :
    Frame ps s (qpWrite t req r d al x v) :=
  h.trans hp <| by
    unfold Machine.qpWrite
    exact .ite (.writeError .refl) (.ite (.writeEnable (.regWrite .refl)) (.regWrite .refl))

theorem Frame.stageWrite {req al x : Nat} {mask old v : W32} {put : W32 → OwnState → OwnState}
    (h : Frame ps s t) (hp : [.regs, .host, .own] ⊆ ps := by decide) :
    Frame ps s (stageWrite t req al x mask old v put) :=
  h.trans hp <| by
    unfold Machine.stageWrite
    exact .werrIf (.ite .refl (.mapOwn .refl))

theorem Frame.winStore {req : Nat} {a : Reg} {al : Nat} {v : W32} (h : Frame ps s t) (hp : allButQueue ⊆ ps := by decide) :
    Frame ps s (winStore t req a al v) :=
  h.trans hp <| by
    unfold Machine.winStore
    dsimp only
    split
    · exact .ite (.writeError .refl) (.indRange .refl)
    · refine .ite (.writeError .refl) ?_
      refine .ite ?_ (.regWrite .refl)
      split
      · exact .writeError .refl
      · exact .qpWrite .refl
    · split
      · exact .ite (.writeError .refl) .refl
      · exact .indRange .refl
    · exact .ite (.writeError .refl) .refl
    · exact .stageWrite .refl
    · exact .stageWrite .refl
    · exact .ite (.writeError .refl) .refl
    · exact .ite (.writeError .refl) .refl

theorem Frame.winPut {req : Nat} {a : Reg} {al : Nat} {v : W32} (h : Frame ps s t) (hp : allButQueue ⊆ ps := by decide) :
    Frame ps s (winPut t req a al v) :=
  h.trans hp <| by
    unfold Machine.winPut
    exact .advance (.winStore (.wakeFor .refl))

theorem Frame.mbxWrite {req i al x : Nat} {v : W32} (h : Frame ps s t) (hp : [.regs, .host, .usnea] ⊆ ps := by decide) :
    Frame ps s (mbxWrite t req i al x v) :=
  h.trans hp <| by
    unfold Machine.mbxWrite
    exact .ite (.writeError .refl) (.mapUsnea .refl)

theorem Frame.targetWrite {req b al x : Nat} {v : W32} {n : RegTgt} (h : Frame ps s t) (hp : allButQueue ⊆ ps := by decide) :
    Frame ps s (targetWrite t req b al x v n) :=
  h.trans hp <| by
    unfold Machine.targetWrite
    split
    · exact .writeError .refl
    · exact .ite .refl (.ite (.werrWrite .refl) (.ite (.faultWrite .refl) .refl))
    · exact .regWrite .refl
    · exact .winPut .refl
    · exact .mbxWrite .refl
    · exact .ite (.writeError .refl) .refl

theorem Frame.wordWrite {req addr : Nat} {full : Bool} {v : W32} (h : Frame ps s t) (hp : allButQueue ⊆ ps := by decide) :
    Frame ps s (wordWrite t req addr full v) :=
  h.trans hp <| by
    unfold Machine.wordWrite
    dsimp only
    refine .ite .refl ?_
    refine .ite (.writeError .refl) ?_
    refine .ite (.violation .refl) ?_
    refine .ite (.writeError .refl) ?_
    exact .ite .refl (.ite (.writeError .refl) (.ite (.writeError .refl) (.targetWrite .refl)))

/-- A word written to a register that an address leads to: the write itself, or one of the refusals before it. -/
theorem Frame.wordWriteReg {req addr n : Nat} {full : Bool} {v : W32} {r : Reg} (h : Frame ps s t)
    (hr : resolve req (addr / 2 ^ 20) (addr % 2 ^ 18) = .reg r n)
    (hw : Frame ps s (Machine.regWrite t req r n (addr / 2 ^ 18 % 4) (addr % 2 ^ 18) v)) (hp : [.regs, .host, .sec] ⊆ ps := by decide) :
    Frame ps s (Machine.wordWrite t req addr full v) := by
  unfold Machine.wordWrite
  dsimp only
  rw [hr]
  exact .ite h (.ite (h.trans hp (.writeError .refl)) (.ite (h.trans hp (.violation .refl)) (.ite (h.trans hp (.writeError .refl))
    (.ite h (.ite (h.trans hp (.writeError .refl)) (.ite (h.trans hp (.writeError .refl)) hw))))))

/-- A word written to RAS_CMD by Usnea. -/
theorem Frame.wordWriteRasCmd {v : W32} (h : Frame ps s t)
    (hp : [.regs, .host, .shards, .lichen, .epoch, .model, .mem, .felt, .twill, .sec, .ras, .usnea, .power, .free] ⊆ ps := by decide) :
    Frame ps s (Machine.wordWrite t 0x7F 0xF00008 true v) :=
  h.trans hp <| .wordWriteReg .refl (r := .rasCmd) (n := 0) (by decide +kernel) <| .noCopyWrite .refl <| .ite (.rasCmd .refl) (.writeError .refl)

/-- A word written by Usnea to a register that holds what was last written. -/
theorem Frame.wordWriteRw {addr : Nat} {v : W32} {r : Reg} (h : Frame ps s t)
    (hr : resolve 0x7F (addr / 2 ^ 20) (addr % 2 ^ 18) = .reg r 0) (hrw : r.row.acc = .rw) (hp : [.regs, .host, .sec] ⊆ ps := by decide) :
    Frame ps s (Machine.wordWrite t 0x7F addr true v) :=
  h.wordWriteReg hr (h.trans hp (by unfold Machine.regWrite; rw [hrw]; exact .copyWrite .refl)) hp

/-- A word written to IMG_CTRL by Usnea. -/
theorem Frame.wordWriteImgCtrl {v : W32} (h : Frame ps s t) (hp : [.regs, .img, .host, .shards, .sec, .usnea, .power] ⊆ ps := by decide) :
    Frame ps s (Machine.wordWrite t 0x7F 0x100000 true v) :=
  h.trans hp <| .wordWriteReg .refl (r := .imgCtrl) (n := 0) (by decide +kernel) <| .noCopyWrite .refl <| .ite
      (.writeError .refl) (.imgCtrl .refl)

theorem Frame.barWrite {req addr : Nat} {wide : Bool} {be : BitVec 8} {data : W64} (h : Frame ps s t) (hp : allButQueue ⊆ ps := by decide) :
    Frame ps s (barWrite t req addr wide be data) :=
  h.trans hp <| by
    unfold Machine.barWrite
    dsimp only
    refine .ite .refl ?_
    refine .ite ?_ (.ite .refl (.wordWrite .refl))
    exact .ite (.ite .refl (.wordWrite .refl)) (.wordWrite (.ite .refl (.wordWrite .refl)))

theorem Frame.ownCommand {cmd req : Nat} {v : W32} (h : Frame ps s t) (hp : allButQueue ⊆ ps := by decide) :
    Frame ps s (ownCommand t cmd req v) :=
  h.trans hp <| by
    unfold Machine.ownCommand
    exact .ite (.wordWrite .refl) .refl

theorem Frame.rasCommand {cmd req : Nat} {v : W32} (h : Frame ps s t) (hp : allButQueue ⊆ ps := by decide) :
    Frame ps s (rasCommand t cmd req v) :=
  h.trans hp <| by
    unfold Machine.rasCommand
    exact .ite (.wordWrite .refl) .refl

theorem Frame.portCommand {req port : Nat} {v : W32}
    (h : Frame ps s t) (hp : [.regs, .host, .twill, .sec, .ras, .usnea] ⊆ ps := by decide) :
    Frame ps s (portCommand t req port v) :=
  h.trans hp <| by
    unfold Machine.portCommand
    refine .ite .refl ?_
    exact .ite (.violation .refl) (.ite (.writeError .refl) (.ite (.writeError .refl) (.portCmdWrite .refl)))

theorem Frame.upset {k i : Nat} (h : Frame ps s t) (hp : [.regs, .usnea] ⊆ ps := by decide) : Frame ps s (upset t k i) :=
  h.trans hp <| by
    unfold Machine.upset
    dsimp only
    split
    · exact .mapUsnea (.mapRegs .refl)
    · exact .ite (.mapRegs (.mapRegs .refl)) (.mapRegs (.mapRegs .refl))

theorem Frame.parityScan {b : Nat} {upsets : List (Nat × Nat)} (h : Frame ps s t) (hp : fenceParts ⊆ ps := by decide) :
    Frame ps s (parityScan t b upsets) :=
  h.trans hp <| by
    unfold Machine.parityScan
    exact .ite .refl (.foldl (fun h => .parityCheck h) (.foldl (fun h => .upset h) .refl))

/-! ### Management -/

theorem Frame.netbootRetry {image : Option (List Byte)} (h : Frame ps s t) (hp : [.sec, .usnea, .power] ⊆ ps := by decide) :
    Frame ps s (netbootRetry t image) :=
  h.trans hp <| by
    unfold Machine.netbootRetry
    split
    · exact .refl
    · exact .ite (.toStage (.fwStart .refl)) .refl

theorem Frame.trialConfirm (h : Frame ps s t) (hp : [.regs, .host, .usnea] ⊆ ps := by decide) : Frame ps s (trialConfirm t) :=
  h.trans hp <| by
    unfold Machine.trialConfirm
    exact .ite (.raiseEvent (.mapUsnea (.norDirWrite .refl))) .refl

theorem Frame.mbxAnswer {b : List Byte} (h : Frame ps s t) (hp : [.regs, .host, .usnea] ⊆ ps := by decide) : Frame ps s (mbxAnswer t b) :=
  h.trans hp <| by
    unfold Machine.mbxAnswer
    exact .event (.mapUsnea .refl)

theorem Frame.mgmtReply {q : MgmtReq} {status : Nat} {payload : List Byte}
    (h : Frame ps s t) (hp : [.regs, .host, .usnea] ⊆ ps := by decide) :
    Frame ps s (mgmtReply t q status payload) :=
  h.trans hp <| by
    unfold Machine.mgmtReply
    dsimp only
    refine .ite .refl ?_
    refine .ite ?_ ?_
    · refine .mbxAnswer ?_
      split
      · exact .mapUsnea (.boxAdd .refl)
      · exact .boxAdd .refl
    · refine .mapUsnea ?_
      split
      · exact .mapUsnea (.boxAdd .refl)
      · exact .boxAdd .refl

theorem Frame.mgmtReplyOnce {q : MgmtReq} {status : Nat} {payload : List Byte}
    (h : Frame ps s t) (hp : [.regs, .host, .usnea] ⊆ ps := by decide) :
    Frame ps s (mgmtReplyOnce t q status payload) :=
  h.trans hp <| by
    unfold Machine.mgmtReplyOnce
    exact .mgmtReply (.ite .refl (.mapUsnea .refl))

theorem Frame.once {q : MgmtReq} {f : State → State} (h : Frame ps s t) (hf : ∀ {v : State}, Frame ps s v → Frame ps s (f v))
    (hp : [.regs, .host, .usnea] ⊆ ps := by decide) : Frame ps s (once t q f) := by
  unfold Machine.once
  split
  · exact h.mgmtReply hp
  · exact .ite h (hf h)

theorem Frame.dispatchMsg {q : MgmtReq} {typ : Nat} {payload : List Byte} {f : State → MgmtReq → List Byte → State} (h : Frame ps s t)
    (hf : ∀ {v : State} {q : MgmtReq} {p : List Byte}, Frame ps s v → Frame ps s (f v q p)) (hp : [.regs, .host, .usnea] ⊆ ps := by decide) :
    Frame ps s (dispatchMsg t q typ payload f) :=
  .ite (h.mgmtReply hp) (.ite h (.ite (h.trans hp (.mgmtReply (.event .refl))) (hf h)))

theorem Frame.onMessage {m : MgmtMsg} {typ : Nat} {f : State → MgmtReq → List Byte → State} (h : Frame ps s t)
    (hf : ∀ {v : State} {q : MgmtReq} {p : List Byte}, Frame ps s v → Frame ps s (f v q p)) (hp : [.regs, .host, .usnea] ⊆ ps := by decide) :
    Frame ps s (onMessage t m typ f) := by
  unfold Machine.onMessage
  dsimp only
  refine .ite h (.ite h ?_)
  split
  · split
    · exact h.trans hp (.event .refl)
    · exact (h.trans hp (.mapUsnea .refl)).dispatchMsg hf hp
  · exact h.dispatchMsg hf hp

theorem Frame.identify {q : MgmtReq} {p : List Byte} (h : Frame ps s t) (hp : [.regs, .host, .usnea] ⊆ ps := by decide) :
    Frame ps s (identify t q p) :=
  h.trans hp <| by
    unfold Machine.identify
    exact .ite (.mgmtReply .refl) (.mgmtReply .refl)

theorem Frame.sensorsMsg {q : MgmtReq} {p : List Byte} (h : Frame ps s t) (hp : [.regs, .host, .usnea] ⊆ ps := by decide) :
    Frame ps s (sensorsMsg t q p) :=
  h.trans hp <| by
    unfold Machine.sensorsMsg
    exact .ite (.mgmtReply .refl) (.mgmtReply .refl)

theorem Frame.logRead {q : MgmtReq} {p : List Byte} (h : Frame ps s t) (hp : [.regs, .host, .usnea] ⊆ ps := by decide) :
    Frame ps s (logRead t q p) :=
  h.trans hp <| by
    unfold Machine.logRead
    exact .ite (.mgmtReply .refl) (.mgmtReply .refl)

theorem Frame.attestMsg {q : MgmtReq} {p : List Byte} (h : Frame ps s t) (hp : [.regs, .host, .usnea] ⊆ ps := by decide) :
    Frame ps s (attestMsg t q p) :=
  h.trans hp <| by
    unfold Machine.attestMsg
    exact .ite (.mgmtReply .refl) (.mgmtReply .refl)

theorem Frame.certificateMsg {q : MgmtReq} {p : List Byte} (h : Frame ps s t) (hp : [.regs, .host, .usnea] ⊆ ps := by decide) :
    Frame ps s (certificateMsg t q p) :=
  h.trans hp <| by
    unfold Machine.certificateMsg
    exact .ite (.mgmtReply .refl) (.mgmtReply .refl)

theorem Frame.ptmInfo {q : MgmtReq} {p : List Byte} (h : Frame ps s t) (hp : [.regs, .host, .usnea] ⊆ ps := by decide) :
    Frame ps s (ptmInfo t q p) :=
  h.trans hp <| by
    unfold Machine.ptmInfo
    exact .ite (.mgmtReply .refl) (.mgmtReply .refl)

theorem Frame.ptmPublish {ns : W64} (h : Frame ps s t) (hp : [.usnea] ⊆ ps := by decide) : Frame ps s (ptmPublish t ns) :=
  h.trans hp <| by
    unfold Machine.ptmPublish
    exact .ite .refl (.mapUsnea .refl)

theorem Frame.sessionOpen {q : MgmtReq} {p : List Byte} (h : Frame ps s t) (hp : [.regs, .host, .usnea, .free] ⊆ ps := by decide) :
    Frame ps s (sessionOpen t q p) :=
  h.trans hp <| by
    unfold Machine.sessionOpen
    dsimp only
    refine .ite (.mgmtReply .refl) ?_
    refine .ite (.mgmtReply (.event .refl)) ?_
    split
    · exact .mgmtReply .refl
    · exact .mgmtReply (.drawn (.drawn (.mapUsnea .refl)))

theorem Frame.endSession {n : Nat} (h : Frame ps s t) (hp : [.usnea] ⊆ ps := by decide) : Frame ps s (endSession t n) :=
  h.trans hp <| by
    unfold Machine.endSession
    exact .mapUsnea .refl

theorem Frame.sessionClose {q : MgmtReq} {p : List Byte} (h : Frame ps s t) (hp : [.regs, .host, .usnea] ⊆ ps := by decide) :
    Frame ps s (sessionClose t q p) :=
  h.trans hp <| by
    unfold Machine.sessionClose
    split
    · exact .ite (.endSession (.mgmtReply .refl)) (.mgmtReply .refl)
    · exact .mgmtReply .refl

theorem Frame.blackboxRead {q : MgmtReq} {p : List Byte} (h : Frame ps s t) (hp : [.regs, .host, .usnea] ⊆ ps := by decide) :
    Frame ps s (blackboxRead t q p) :=
  h.trans hp <| by
    unfold Machine.blackboxRead
    dsimp only
    split
    · exact .mgmtReply .refl
    · exact .ite (.mgmtReply .refl) (.mgmtReply .refl)

theorem Frame.ledgerMsg {q : MgmtReq} {p : List Byte} (h : Frame ps s t) (hp : [.regs, .host, .ras, .usnea] ⊆ ps := by decide) :
    Frame ps s (ledgerMsg t q p) :=
  h.trans hp <| by
    unfold Machine.ledgerMsg
    exact .ite (.mgmtReply .refl) (.mgmtReply (.ledgerReturned .refl))

theorem Frame.rasMsg {q : MgmtReq} {p : List Byte} (h : Frame ps s t)
    (hp : [.regs, .host, .shards, .lichen, .epoch, .model, .mem, .felt, .twill, .sec, .ras, .usnea, .power, .free] ⊆ ps := by decide) :
    Frame ps s (rasMsg t q p) :=
  h.trans hp <| by
    unfold Machine.rasMsg
    exact .once .refl (fun h => .ite (.mgmtReplyOnce h) (.mgmtReplyOnce (.wordWriteRasCmd h)))

theorem Frame.regMsg {q : MgmtReq} {p : List Byte} (h : Frame ps s t) (hp : allButQueue ⊆ ps := by decide) :
    Frame ps s (regMsg t q p) :=
  h.trans hp <| by
    unfold Machine.regMsg
    exact .once .refl (fun h => .ite (.mgmtReplyOnce h) (.mgmtReplyOnce (.wordWrite h)))

theorem Frame.adminMsg {q : MgmtReq} {p : List Byte}
    (h : Frame ps s t) (hp : [.regs, .host, .lichen, .mem, .twill, .sec, .usnea] ⊆ ps := by decide) :
    Frame ps s (adminMsg t q p) :=
  h.trans hp <| by
    unfold Machine.adminMsg
    exact .once .refl (fun h => .ite (.mgmtReplyOnce h) (.mapUsnea (.admitEntry h)))

theorem Frame.recvWrite {use : RecvUse} {off : Nat} {b : List Byte} (h : Frame ps s t) (hp : [.usnea] ⊆ ps := by decide) :
    Frame ps s (recvWrite t use off b) :=
  h.trans hp <| by
    unfold Machine.recvWrite
    exact .mapUsnea .refl

theorem Frame.imageChunk {q : MgmtReq} {p : List Byte} (h : Frame ps s t) (hp : [.regs, .host, .usnea] ⊆ ps := by decide) :
    Frame ps s (imageChunk t q p) :=
  h.trans hp <| by
    unfold Machine.imageChunk
    dsimp only
    refine .ite (.mgmtReply .refl) ?_
    exact .ite (.mgmtReply .refl) (.mgmtReply (.ite (.recvWrite .refl) (.mapUsnea (.recvWrite .refl))))

theorem Frame.recvFree (h : Frame ps s t) (hp : [.usnea] ⊆ ps := by decide) : Frame ps s (recvFree t) :=
  h.trans hp <| by
    unfold Machine.recvFree
    exact .mapUsnea .refl

theorem Frame.stageFrom {src addr n : Nat} (h : Frame ps s t) (hp : [.regs, .img, .host, .shards, .sec, .usnea, .power] ⊆ ps := by decide) :
    Frame ps s (stageFrom t src addr n) :=
  h.trans hp <| by
    unfold Machine.stageFrom
    refine .wordWriteImgCtrl (.wordWriteRw (r := .imgStageLen) (.wordWriteRw (r := .imgStageAddrHi)
      (.wordWriteRw (r := .imgStageAddrLo) .refl ?_ rfl) ?_ rfl) ?_ rfl)
    · decide +kernel
    · decide +kernel
    · decide +kernel

theorem Frame.imageStage {q : MgmtReq} {p : List Byte}
    (h : Frame ps s t) (hp : [.regs, .img, .host, .shards, .sec, .usnea, .power] ⊆ ps := by decide) :
    Frame ps s (imageStage t q p) :=
  h.trans hp <| by
    unfold Machine.imageStage
    dsimp only
    refine .once .refl (fun h => .ite (.mgmtReplyOnce h) ?_)
    refine .ite (.mgmtReplyOnce h) ?_
    exact .ite (.mgmtReplyOnce (.recvFree (.stageFrom h))) (.mgmtReplyOnce (.recvFree (.stageFrom (.mapUsnea h))))

theorem Frame.fwChunk {q : MgmtReq} {p : List Byte} (h : Frame ps s t) (hp : [.regs, .host, .usnea] ⊆ ps := by decide) :
    Frame ps s (fwChunk t q p) :=
  h.trans hp <| by
    unfold Machine.fwChunk
    exact .ite (.mgmtReply .refl) (.ite (.mgmtReply .refl) (.mgmtReply (.recvWrite .refl)))

theorem Frame.activate {b : List Byte} (h : Frame ps s t) (hp : [.regs, .host, .sec, .ras, .usnea] ⊆ ps := by decide) :
    Frame ps s (activate t b) :=
  h.trans hp <| by
    unfold Machine.activate
    exact .event (.usneaHalt (.raiseEvent (.measureRuntime (.fwLoad (.recvFree (.ite .refl (.norDirWrite (.mapUsnea .refl))))))))

theorem Frame.fwActivate {q : MgmtReq} {p : List Byte} (h : Frame ps s t) (hp : [.regs, .host, .sec, .ras, .usnea] ⊆ ps := by decide) :
    Frame ps s (fwActivate t q p) :=
  h.trans hp <| by
    unfold Machine.fwActivate
    dsimp only
    refine .once .refl (fun h => .ite (.mgmtReplyOnce h) ?_)
    exact .ite (.mgmtReplyOnce h) (.ite (.activate (.mgmtReply h)) (.mgmtReplyOnce (.recvFree h)))

theorem Frame.norWrite {q : MgmtReq} {p : List Byte} (h : Frame ps s t) (hp : [.regs, .host, .usnea] ⊆ ps := by decide) :
    Frame ps s (norWrite t q p) :=
  h.trans hp <| by
    unfold Machine.norWrite
    exact .once .refl (fun h => .ite (.mgmtReplyOnce h) (.ite (.mgmtReplyOnce h) (.mgmtReplyOnce (.mapUsnea h))))

theorem Frame.subscribe {q : MgmtReq} {p : List Byte} (h : Frame ps s t) (hp : [.regs, .host, .usnea] ⊆ ps := by decide) :
    Frame ps s (subscribe t q p) :=
  h.trans hp <| by
    unfold Machine.subscribe
    exact .ite (.mgmtReply .refl) (.ite (.mgmtReply .refl) (.mgmtReply (.mapUsnea .refl)))

theorem Frame.eventAck {q : MgmtReq} {p : List Byte} (h : Frame ps s t) (hp : [.regs, .host, .usnea] ⊆ ps := by decide) :
    Frame ps s (eventAck t q p) :=
  h.trans hp <| by
    unfold Machine.eventAck
    exact .ite (.mgmtReply .refl) (.mgmtReply (.mapUsnea .refl))

theorem Frame.eventResend {sub seq : Nat} (h : Frame ps s t) (hp : [.regs, .host, .usnea] ⊆ ps := by decide) :
    Frame ps s (eventResend t sub seq) :=
  h.trans hp <| by
    unfold Machine.eventResend
    split
    · exact .refl
    · refine .ite .refl ?_
      extract_lets +onlyGivenNames put
      exact .ite (.event (.mapUsnea .refl)) (.mapUsnea .refl)

theorem Frame.sensorReading {x : Nat × BitVec 16} (h : Frame ps s t) (hp : [.regs, .host, .usnea] ⊆ ps := by decide) :
    Frame ps s (sensorReading t x) :=
  h.trans hp <| by
    unfold Machine.sensorReading
    refine .ite .refl ?_
    extract_lets +onlyGivenNames m more s₁ s₂
    have h₁ : Frame [.regs, .host, .usnea] t s₁ := .mapUsnea .refl
    clear_value s₁
    have h₂ : Frame [.regs, .host, .usnea] t s₂ := .ite (.setReg h₁) h₁
    clear_value s₂
    exact .ite (.raiseEvent (.event h₂)) h₂

theorem Frame.componentFault {c : Nat} (h : Frame ps s t) (hp : [.regs, .host, .ras, .usnea] ⊆ ps := by decide) :
    Frame ps s (componentFault t c) :=
  h.trans hp <| by
    unfold Machine.componentFault
    dsimp only
    refine .ite .refl ?_
    refine .ite ?_ ?_
    · exact .usneaHalt (.raiseEvent (.event (.logAdd (.boxAdd (.foldl (fun h => .mgmtReplyOnce h) (.mapUsnea .refl))))))
    · exact .raiseEvent (.event (.logAdd (.boxAdd (.foldl (fun h => .mgmtReplyOnce h) (.mapUsnea .refl)))))

theorem Frame.mctpControl {via : Transport} {b : List Byte} (h : Frame ps s t) (hp : [.usnea] ⊆ ps := by decide) :
    Frame ps s (mctpControl t via b) :=
  h.trans hp <| by
    unfold Machine.mctpControl
    exact .ite .refl (.mapUsnea .refl)

/-! ### Completion -/

theorem Frame.completeAdmin {n : Nat} {c : Cmd}
    (h : Frame ps s t) (hp : [.regs, .img, .host, .shards, .lichen, .epoch, .model, .mem, .felt, .twill, .ras, .usnea, .free] ⊆ ps := by decide) :
    Frame ps s (completeAdmin t n c) :=
  h.trans hp <| by
    unfold Machine.completeAdmin
    dsimp only
    refine .afterCompletion (.mapRas (.mapHost ?_))
    split
    · exact .mgmtReplyOnce (.drawn (.mapUsnea (.ite (.countAffected (.bump .refl)) .refl)))
    · exact .ite (.countAffected (.bump .refl)) .refl

theorem Frame.completionWrite {n : Nat}
    (h : Frame ps s t) (hp : [.regs, .img, .host, .shards, .lichen, .epoch, .model, .mem, .felt, .twill, .ras, .usnea, .free] ⊆ ps := by decide) :
    Frame ps s (completionWrite t n) :=
  h.trans hp <| by
    unfold Machine.completionWrite
    split
    · exact .refl
    · refine .ite .refl ?_
      split
      · exact .completeQp .refl
      · exact .completeAdmin .refl

/-! ### ImageApply -/

theorem Frame.scrubWindow {w o : Nat} (h : Frame ps s t) (hp : [.img, .model] ⊆ ps := by decide) : Frame ps s (scrubWindow t w o) :=
  h.trans hp <| by
    unfold Machine.scrubWindow
    exact .copiesLeave (.mapImg .refl)

theorem Frame.releasePart {was : ImgCfg} {p : Nat}
    (h : Frame ps s t) (hp : [.img, .shards, .epoch, .model, .felt, .sec] ⊆ ps := by decide) :
    Frame ps s (releasePart t was p) :=
  h.trans hp <| by
    unfold Machine.releasePart
    exact .mapImg (.mapModel (.mapEpoch (.mapFelt (.mapShards (.mapSec (.foldl (fun h => .eraseBlock h) (.unmapAll .refl)))))))

theorem Frame.partMove {was : ImgCfg} {p : Nat} (h : Frame ps s t) (hp : [.img, .shards, .epoch, .model, .felt, .sec] ⊆ ps := by decide) :
    Frame ps s (partMove was t p) :=
  h.trans hp <| by
    unfold Machine.partMove
    dsimp only
    split
    · exact .mapImg (.mapImg .refl)
    · exact .mapImg .refl
    · exact .mapImg .refl
    · exact .partitionDrained (.mapImg .refl)
    · exact .releasePart .refl
    · exact .refl

theorem Frame.windowsApply {was : ImgCfg} {before : Nat → PState} (h : Frame ps s t) (hp : [.img, .model] ⊆ ps := by decide) :
    Frame ps s (windowsApply was before t) :=
  h.trans hp <| by
    unfold Machine.windowsApply
    exact .foldl (fun h => .ite (.scrubWindow h) h) .refl

theorem Frame.queuesApply {was : ImgCfg} (h : Frame ps s t) (hp : [.regs, .host] ⊆ ps := by decide) : Frame ps s (queuesApply was t) :=
  h.trans hp <| by
    unfold Machine.queuesApply
    exact .mapHost (.mapRegs .refl)

theorem Frame.keysApply {keys : Smap KeySet} (h : Frame ps s t) (hp : [.regs, .host, .sec] ⊆ ps := by decide) :
    Frame ps s (keysApply t keys) :=
  h.trans hp <| by
    unfold Machine.keysApply
    dsimp only
    refine .foldl (fun h => ?_) .refl
    split
    · exact .ite (.mapSec h) (.rekeyCheck (.mapSec (.mapSec h)))
    · exact .mapSec h

theorem Frame.routesApply {full : Bool} {carried : List Nat} (h : Frame ps s t) (hp : [.regs] ⊆ ps := by decide) :
    Frame ps s (routesApply full carried t) :=
  h.trans hp <| by
    unfold Machine.routesApply
    dsimp only
    refine .ite ?_ (.foldl (fun h => .setReg h) (.mapRegs .refl))
    exact .mapRegs (.foldl (fun h => .setShadow h) (.foldl (fun h => .setShadow h) .refl))

theorem Frame.takeConfig {x : ImgSlot} (h : Frame ps s t) (hp : [.regs, .img, .host] ⊆ ps := by decide) : Frame ps s (takeConfig t x) :=
  h.trans hp <| by
    unfold Machine.takeConfig
    exact .eventIf (.mapRegs (.mapImg .refl))

theorem Frame.lenApply (h : Frame ps s t) (hp : [.regs, .host, .epoch] ⊆ ps := by decide) : Frame ps s (lenApply t) :=
  h.trans hp <| by
    unfold Machine.lenApply
    exact .ite .refl (.event (.mapEpoch .refl))

theorem Frame.modesApply {was : ImgCfg} (h : Frame ps s t) (hp : [.shards, .felt] ⊆ ps := by decide) : Frame ps s (modesApply was t) :=
  h.trans hp <| by
    unfold Machine.modesApply
    exact .mapShards (.foldl (fun h => .zoneModeApply h) .refl)

theorem Frame.powerApply {was : ImgCfg} (h : Frame ps s t) (hp : [.power] ⊆ ps := by decide) : Frame ps s (powerApply was t) :=
  h.trans hp <| by
    unfold Machine.powerApply
    exact .foldl (fun h => .ite (.setPower h) (.ite (.setPower h) h)) .refl

theorem Frame.applyImage {x : ImgSlot}
    (h : Frame ps s t) (hp : [.regs, .img, .host, .shards, .epoch, .model, .mem, .felt, .sec, .ras, .usnea, .power, .free] ⊆ ps := by decide) :
    Frame ps s (applyImage t x) :=
  h.trans hp <| by
    unfold Machine.applyImage
    dsimp only
    refine .raiseEvent (.imgShow (.event (.extendMeas (.mapRas (.mapMem ?_ fun hm => ?_)))))
    · refine .modesApply (.lenApply (.keysApply (.routesApply (.powerApply (.applyRates ?_)))))
      exact .sheetApply (.queuesApply (.windowsApply (.foldl (fun h => .partMove h) (.takeConfig .refl))))
    · split <;> exact hm

theorem Frame.zeroWindows {p : Nat} (h : Frame ps s t) (hp : [.lichen] ⊆ ps := by decide) : Frame ps s (zeroWindows t p) :=
  h.trans hp <| by
    unfold Machine.zeroWindows
    exact .foldl (fun h => .mapLichen (.clearWin h)) .refl

theorem Frame.scrubStepOf {p : Nat} (h : Frame ps s t) (hp : [.img, .lichen, .mem] ⊆ ps := by decide) : Frame ps s (scrubStepOf t p) :=
  h.trans hp <| by
    unfold Machine.scrubStepOf
    dsimp only
    split
    · exact .mapImg (.mapMem .refl fun hm => memWf_foldl_zeroSheet hm _)
    · exact .mapImg (.zeroWindows .refl)
    · exact .mapImg (.mapMem .refl fun hm => ⟨hm.1, memWf_filter hm.2 _⟩)
    · exact .refl

theorem Frame.scrubFree (h : Frame ps s t) (hp : [.regs, .img, .host] ⊆ ps := by decide) : Frame ps s (scrubFree t) :=
  h.trans hp <| by
    unfold Machine.scrubFree
    exact .foldl (fun h => .event (.mapImg h)) .refl

/-! ### EpochCtl -/

theorem Frame.prepare (h : Frame ps s t) (hp : [.regs, .shards, .epoch, .ras] ⊆ ps := by decide) : Frame ps s (prepare t) :=
  h.trans hp <| by
    unfold Machine.prepare
    refine .ite .refl ?_
    extract_lets +onlyGivenNames n s₁ due img drawn s₂ s₃
    have h₁ : Frame [.regs, .shards, .epoch, .ras] t s₁ := .mapRas .refl
    clear_value s₁
    have h₂ : Frame [.regs, .shards, .epoch, .ras] t s₂ := .mapRas (.stageShadows h₁)
    clear_value s₂
    have h₃ : Frame [.regs, .shards, .epoch, .ras] t s₃ := .mapShards h₂
    clear_value s₃
    exact .mapEpoch h₃

theorem Frame.freezeHist {hostAssisted : Bool} {sh : Shard} {n : Nat} (h : Frame ps s t) (hp : [.regs, .host, .shards] ⊆ ps := by decide) :
    Frame ps s (freezeHist t hostAssisted sh n) :=
  h.trans hp <| by
    unfold Machine.freezeHist
    exact .eventIf (.updShard .refl)

theorem Frame.ledgerLinked {sh : Shard} {lo hi : Nat} (h : Frame ps s t) (hp : [.ras] ⊆ ps := by decide) :
    Frame ps s (ledgerLinked t sh lo hi) :=
  h.trans hp <| by
    unfold Machine.ledgerLinked
    exact .ite .refl (.ledgerMap .refl)

theorem Frame.firstServing {sh : Shard} {n : Nat}
    (h : Frame ps s t) (hp : [.regs, .host, .shards, .lichen, .epoch, .mem, .felt, .twill, .sec, .free] ⊆ ps := by decide) :
    Frame ps s (firstServing t sh n) :=
  h.trans hp <| by
    unfold Machine.firstServing
    extract_lets +onlyGivenNames s₁ s₂ ls s₃ s₄
    have h₁ : Frame [.regs, .host, .shards, .lichen, .epoch, .mem, .felt, .twill, .sec, .free] t s₁ := .foldl (fun h => .winWrite? h) .refl
    clear_value s₁
    have h₂ : Frame [.regs, .host, .shards, .lichen, .epoch, .mem, .felt, .twill, .sec, .free] t s₂ := .updShard h₁
    clear_value s₂
    have h₃ : Frame [.regs, .host, .shards, .lichen, .epoch, .mem, .felt, .twill, .sec, .free] t s₃ := by
      unfold s₃
      cases hd : Machine.deviceWrite s₂ sh.part true 0 ls with
      | none => exact h₂
      | some w => exact .deviceWrite h₂ hd
    clear_value s₃ ls
    have h₄ : Frame [.regs, .host, .shards, .lichen, .epoch, .mem, .felt, .twill, .sec, .free] t s₄ := by
      unfold s₄
      split
      · exact .ckptComplete (.updShard (.pinDescriptor h₃))
      · exact h₃
    clear_value s₄
    split
    · exact .finish h₄
    · exact h₄

theorem Frame.relocSwitch {sh : Shard} (h : Frame ps s t) (hp : [.host, .shards, .lichen, .twill] ⊆ ps := by decide) :
    Frame ps s (relocSwitch t sh) :=
  h.trans hp <| by
    unfold Machine.relocSwitch
    dsimp only
    split
    · exact .refl
    · exact .endWith (.updShard .refl)

theorem Frame.enterRetiring {sh : Shard} {n : Nat} (h : Frame ps s t) (hp : [.host, .shards, .lichen, .twill] ⊆ ps := by decide) :
    Frame ps s (enterRetiring t sh n) :=
  h.trans hp <| by
    unfold Machine.enterRetiring
    dsimp only
    split
    · split
      · exact .endWith (.updShard .refl)
      · exact .updShard .refl
    · exact .refl

theorem Frame.shardBoundary {hosted : Nat → Bool} {n k : Nat}
    (h : Frame ps s t) (hp : [.regs, .host, .shards, .lichen, .epoch, .mem, .felt, .twill, .sec, .ras, .free] ⊆ ps := by decide) :
    Frame ps s (shardBoundary hosted n t k) :=
  h.trans hp <| by
    unfold Machine.shardBoundary
    split
    · exact .refl
    · extract_lets +onlyGivenNames s₁ late r s₂ s₃ s₄ s₅
      have h₁ : Frame [.regs, .host, .shards, .lichen, .epoch, .mem, .felt, .twill, .sec, .ras, .free] t s₁ := .relocSwitch .refl
      clear_value s₁
      clear_value late
      have h₂ : Frame [.regs, .host, .shards, .lichen, .epoch, .mem, .felt, .twill, .sec, .ras, .free] t s₂ := .updShard h₁
      clear_value s₂
      have h₃ : Frame [.regs, .host, .shards, .lichen, .epoch, .mem, .felt, .twill, .sec, .ras, .free] t s₃ := by
        unfold s₃
        refine .ite ?_ h₁
        exact .ledgerLinked (.ite h₂ (.bump h₂))
      clear_value s₃
      have h₄ : Frame [.regs, .host, .shards, .lichen, .epoch, .mem, .felt, .twill, .sec, .ras, .free] t s₄ := .enterRetiring h₃
      clear_value s₄
      have h₅ : Frame [.regs, .host, .shards, .lichen, .epoch, .mem, .felt, .twill, .sec, .ras, .free] t s₅ := .ite (.firstServing h₄) h₄
      clear_value s₅
      split
      · exact .ite (.freezeHist h₅) h₅
      · exact h₅

theorem Frame.readmit (h : Frame ps s t) (hp : [.regs, .host, .mem, .sec, .ras, .usnea, .free] ⊆ ps := by decide) :
    Frame ps s (readmit t) :=
  h.trans hp <| by
    unfold Machine.readmit
    refine .foldl (fun h => ?_) .refl
    extract_lets +onlyGivenNames kind u r s₁ s₂
    have h₁ : Frame [.regs, .host, .mem, .sec, .ras, .usnea, .free] t s₁ := .event (.setUnit h)
    clear_value s₁
    have h₂ : Frame [.regs, .host, .mem, .sec, .ras, .usnea, .free] t s₂ := .unitEvent h₁
    clear_value s₂
    exact .ite (.replayDoorbells h₂) (.ite (.applyRates (.sheetApply h₂)) h₂)

theorem Frame.reloadParts (h : Frame ps s t) (hp : [.regs] ⊆ ps := by decide) : Frame ps s (reloadParts t) :=
  h.trans hp <| by
    unfold Machine.reloadParts
    exact .foldl (fun h => .reloadUnit h) .refl

theorem Frame.autoReturn (h : Frame ps s t) (hp : [.regs, .host, .ras, .usnea, .power] ⊆ ps := by decide) : Frame ps s (autoReturn t) :=
  h.trans hp <| by
    unfold Machine.autoReturn
    exact .ite .refl (.foldl (fun h => .enterReturning h) .refl)

theorem Frame.spareServe (h : Frame ps s t) (hp : [.regs, .host, .ras] ⊆ ps := by decide) : Frame ps s (spareServe t) :=
  h.trans hp <| by
    unfold Machine.spareServe
    exact .foldl (fun h => .event (.setUnit h)) (.mapRas .refl)

theorem Frame.bindingsApply {e n : Nat} (h : Frame ps s t) (hp : [.host, .lichen, .model, .twill, .sec] ⊆ ps := by decide) :
    Frame ps s (bindingsApply t e n) :=
  h.trans hp <| by
    unfold Machine.bindingsApply
    exact .foldl (fun h => .extendMeas h) (.groupsAtBoundary (.mapModel .refl))

theorem Frame.keepPast (h : Frame ps s t) (hp : [.epoch] ⊆ ps := by decide) : Frame ps s (keepPast t) :=
  h.trans hp <| by
    unfold Machine.keepPast
    exact .mapEpoch .refl

theorem Frame.configStrobe {l : Smap RegCopy} {skip : List Nat} (h : Frame ps s t) (hp : serviceParts ⊆ ps := by decide) :
    Frame ps s (configStrobe t l skip) :=
  h.trans hp <| by
    unfold Machine.configStrobe
    dsimp only
    refine .ite ?_ ?_
    · exact .issueNext (.afterStrobe (.eventIf (.mapRegs (.lagBehind (.strobeCopies (.catchUp .refl))))))
    · exact .afterStrobe (.eventIf (.mapRegs (.lagBehind (.strobeCopies (.catchUp .refl)))))

theorem Frame.configBack {late : List Nat} (h : Frame ps s t) (hp : [.regs] ⊆ ps := by decide) : Frame ps s (configBack late t) :=
  h.trans hp <| by
    unfold Machine.configBack
    exact .mapRegs (.lagBehind (.foldl (fun h => .mapRegs h) .refl))

theorem Frame.epochMarks {lastRtc : Nat} (h : Frame ps s t) (hp : [.epoch, .free] ⊆ ps := by decide) : Frame ps s (epochMarks t lastRtc) :=
  h.trans hp <| .foldl (fun h => by
    split
    · next v hv => exact .mapEpoch (.journalPlace h hv)
    · exact .mapEpoch h) .refl

theorem Frame.acceptDeferred (h : Frame ps s t) (hp : [.regs, .host, .shards, .lichen, .epoch, .mem, .twill, .free] ⊆ ps := by decide) :
    Frame ps s (acceptDeferred t) :=
  h.trans hp <| by
    unfold Machine.acceptDeferred
    exact .foldl (fun h => .acceptRec h) (.mapEpoch .refl)

theorem Frame.counterMove {n : Nat} {skip : List Nat} {images : Bool} (h : Frame ps s t) (hp : [.regs, .epoch] ⊆ ps := by decide) :
    Frame ps s (counterMove t n skip images) :=
  h.trans hp <| by
    unfold Machine.counterMove
    exact .setRo (.setRo (.mapEpoch .refl))

theorem Frame.beginEpoch {n : Nat} {images : List ImgSlot} {skip : List Nat} (h : Frame ps s t) (hp : allButQueue ⊆ ps := by decide) :
    Frame ps s (beginEpoch t n images skip) :=
  h.trans hp <| by
    unfold Machine.beginEpoch
    dsimp only
    refine .checkFences (.mapHost (.unmapFreed (.pruneBindings (.anchorBoundary (.acceptDeferred ?_)))))
    refine .epochMarks (.autoReturn (.ite ?_ ?_))
    · refine .sheetApply (.freeRetired (.scrubFree (.placeModels (.releaseModels (.bindingsApply ?_)))))
      exact .foldl (fun h => .shardBoundary h) (.configStrobe
          (.reloadParts (.spareServe (.foldl (fun h => .applyImage h) (.readmit (.counterMove (.keepPast .refl)))))))
    · refine .freeRetired (.scrubFree (.placeModels (.releaseModels (.bindingsApply (.foldl (fun h => .shardBoundary h) ?_)))))
      exact .configStrobe (.reloadParts (.spareServe (.foldl (fun h => .applyImage h) (.readmit (.counterMove (.keepPast .refl))))))

theorem Frame.boundaryEnd (h : Frame ps s t) (hp : [.regs, .host, .epoch] ⊆ ps := by decide) : Frame ps s (boundaryEnd t) :=
  h.trans hp <| by
    unfold Machine.boundaryEnd
    exact .ite (.setRo (.event (.mapRegs (.mapEpoch .refl)))) .refl

theorem Frame.epochStrobe (h : Frame ps s t) (hp : allButQueue ⊆ ps := by decide) :
    Frame ps s (epochStrobe t) :=
  h.trans hp <| by
    unfold Machine.epochStrobe
    exact .ite .refl (.boundaryEnd (.beginEpoch .refl))

theorem Frame.strobeAck {d eb : Nat} (h : Frame ps s t) (hp : [.regs, .host, .epoch] ⊆ ps := by decide) : Frame ps s (strobeAck t d eb) :=
  h.trans hp <| by
    unfold Machine.strobeAck
    exact .ite .refl (.ite (.boundaryEnd (.mapEpoch .refl)) (.mapEpoch .refl))

theorem Frame.ackTimeout
    (h : Frame ps s t) (hp : [.regs, .img, .host, .shards, .lichen, .epoch, .model, .mem, .felt, .twill, .ras, .usnea, .free] ⊆ ps := by decide) :
    Frame ps s (ackTimeout t) :=
  h.trans hp <| by
    unfold Machine.ackTimeout
    dsimp only
    refine .ite .refl ?_
    refine .ite (.setRo (.configBack (.mapEpoch .refl))) ?_
    refine .foldl (fun h => .fenceUnit h) (.ite ?_ (.event (.event (.setRo (.configBack (.mapEpoch .refl))))))
    exact .event (.mapImg (.event (.event (.setRo (.configBack (.mapEpoch .refl))))))

theorem Frame.firstStrobe (h : Frame ps s t) (hp : allButQueue ⊆ ps := by decide) :
    Frame ps s (firstStrobe t) :=
  h.trans hp <| by
    unfold Machine.firstStrobe
    dsimp only
    refine .ite .refl ?_
    split
    · exact .refl
    · exact .boundaryEnd (.mapPower (.mapImg (.beginEpoch (.mapEpoch (.stageShadows .refl)))))

end Sys2Proof.Machine
end

section
/-! FRAMES of the commands. Each command answers a next state, and its lemma names the parts that its meaning can change. -/
namespace Sys2Proof.Machine
open Sys2Proof
set_option Elab.async false

variable {ps qs : List Part}

/-- A command answers a next state, which differs from the state before it in the listed parts only. -/
def Runs (ps : List Part) (c : Instr) : Prop := ∀ s : State, ∃ t, exec c s = .next t ∧ Frame ps s t

theorem Runs.changesOnly {c : Instr} (h : Runs qs c) (hp : qs ⊆ ps := by decide) : changesOnly c ps := by
  intro s t ht p hn
  obtain ⟨u, hu, hf⟩ := h s
  obtain rfl : u = t := Host.Outcome.next.inj (hu.symm.trans ht)
  exact hf.same p fun hq => hn (hp hq)

theorem Runs.mono {c : Instr} (h : Runs qs c) (hp : qs ⊆ ps := by decide) : Runs ps c := fun s =>
  let ⟨u, hu, hf⟩ := h s
  ⟨u, hu, Frame.refl.trans hp hf⟩

theorem Runs.sqDoorbell {fn q : Nat} {v : W32} {host : HostWrites} : Runs [.regs, .host, .sec] (.sqDoorbell fn q v host) :=
  fun _ => ⟨_, rfl, .doorbell (.hostWrites .refl)⟩

theorem Runs.cqDoorbell {fn q : Nat} {v : W32} : Runs [.regs, .host, .sec] (.cqDoorbell fn q v) :=
  fun _ => ⟨_, rfl, .doorbell .refl⟩

theorem Runs.entryFetch {qp : Nat} : Runs [.regs, .host, .mem] (.entryFetch qp) :=
  fun _ => ⟨_, rfl, .entryFetch .refl⟩

theorem Runs.admissionSlot : Runs [.regs, .host, .lichen, .mem, .twill, .sec] .admissionSlot :=
  fun _ => ⟨_, rfl, .admissionSlot (.mapHost .refl)⟩

theorem Runs.creditTick : Runs [.host] .creditTick :=
  fun _ => ⟨_, rfl, .creditTick .refl⟩

theorem Runs.completionWrite {cmd : Nat} :
    Runs [.regs, .img, .host, .shards, .lichen, .epoch, .model, .mem, .felt, .twill, .ras, .usnea, .free] (.completionWrite cmd) :=
  fun _ => ⟨_, rfl, .completionWrite .refl⟩

theorem Runs.aggTimeExpiry {qp : Nat} : Runs [.host] (.aggTimeExpiry qp) :=
  fun _ => ⟨_, rfl, .interruptDecision .refl⟩

theorem Runs.eventGapExpiry {fn : Nat} : Runs [.host] (.eventGapExpiry fn) :=
  fun _ => ⟨_, rfl, .eventGapExpiry .refl⟩

theorem Runs.qpEnable {req fn q : Nat} : Runs [.regs, .host] (.qpEnable req fn q) :=
  fun _ => ⟨_, rfl, .qpCtrl .refl⟩

theorem Runs.qpDisable {req fn q : Nat} : Runs [.regs, .host] (.qpDisable req fn q) :=
  fun _ => ⟨_, rfl, .qpCtrl .refl⟩

theorem Runs.qpDrainEnd {qp : Nat} : Runs [.regs, .host] (.qpDrainEnd qp) :=
  fun _ => ⟨_, rfl, .drainEnd .refl⟩

theorem Runs.telemetrySample : Runs [.regs, .host] .telemetrySample :=
  fun _ => ⟨_, rfl, .telemetrySample .refl⟩

theorem Runs.functionLevelReset {fn : Nat} : Runs [.regs, .img, .host] (.functionLevelReset fn) :=
  fun _ => ⟨_, rfl, .flr .refl⟩

theorem Runs.d3hotEntry {fn : Nat} : Runs [.regs, .img, .host] (.d3hotEntry fn) :=
  fun _ => ⟨_, rfl, .flr .refl⟩

theorem Runs.hostPortReset : Runs [.regs, .img, .host] .hostPortReset :=
  fun _ => ⟨_, rfl, .hostPortReset .refl⟩

theorem Runs.vfDisable {vf : Nat} : Runs [.img] (.vfDisable vf) :=
  fun _ => ⟨_, rfl, .ite (.mapImg .refl) .refl⟩

theorem Runs.t4ReadTimeout {use : T4Use} : Runs [.regs, .host, .lichen, .twill, .ras, .usnea] (.t4ReadTimeout use) := fun s => by
  refine ⟨_, rfl, ?_⟩
  split
  · exact .t4Failure .refl
  · exact .t4Failure .refl
  · exact .refl
  · exact .refl

theorem Runs.t4AccessError {use : T4Use} : Runs [.regs, .host, .lichen, .twill, .ras, .usnea] (.t4AccessError use) :=
  fun _ => ⟨_, rfl, .t4Failure .refl⟩

theorem Runs.linkChange {rate width : Nat} {flit cxl : Bool} : Runs [.regs, .img, .host] (.linkChange rate width flit cxl) :=
  fun _ => ⟨_, rfl, .linkChange .refl⟩

theorem Runs.perstNDeassert : Runs [.power] .perstNDeassert :=
  fun _ => ⟨_, rfl, .perstRise .refl⟩

theorem Runs.cxlMemRequest {hpa : W64} {data : Option (List Byte)} : Runs [.regs, .lichen, .mem] (.cxlMemRequest hpa data) :=
  fun _ => ⟨_, rfl, .cxlMem .refl⟩

theorem Runs.bar4Access {off len : Nat} {data : Option (List Byte)} : Runs [.regs, .lichen, .mem] (.bar4Access off len data) :=
  fun _ => ⟨_, rfl, .bar4 .refl⟩

theorem Runs.hdmDecoderCommit {base : W64} : Runs [.mem] (.hdmDecoderCommit base) :=
  fun _ => ⟨_, rfl, .hdmCommit .refl⟩

theorem Runs.search {cmd : Nat} : Runs [.regs, .host, .lichen, .model, .mem, .twill, .free] (.search cmd) :=
  fun _ => ⟨_, rfl, .onAdmitted .refl (.searchCmd .refl)⟩

theorem Runs.sweep {cmd : Nat} : Runs [.regs, .host, .lichen, .model, .mem, .twill, .free] (.sweep cmd) :=
  fun _ => ⟨_, rfl, .onAdmitted .refl (.searchCmd .refl)⟩

theorem Runs.insert {cmd : Nat} : Runs [.regs, .host, .shards, .lichen, .epoch, .twill, .free] (.insert cmd) :=
  fun _ => ⟨_, rfl, .updateCmd .refl⟩

theorem Runs.upsert {cmd : Nat} : Runs [.regs, .host, .shards, .lichen, .epoch, .twill, .free] (.upsert cmd) :=
  fun _ => ⟨_, rfl, .updateCmd .refl⟩

theorem Runs.delete {cmd : Nat} : Runs [.regs, .host, .shards, .lichen, .epoch, .twill, .free] (.delete cmd) :=
  fun _ => ⟨_, rfl, .updateCmd .refl⟩

theorem Runs.attrSet {cmd : Nat} : Runs [.regs, .host, .shards, .lichen, .epoch, .twill, .free] (.attrSet cmd) :=
  fun _ => ⟨_, rfl, .updateCmd .refl⟩

theorem Runs.embed {cmd : Nat} : Runs [.regs, .host, .lichen, .model, .mem, .twill] (.embed cmd) :=
  fun _ => ⟨_, rfl, .onAdmitted .refl (.embedCmd .refl)⟩

theorem Runs.embedInsert {cmd : Nat} : Runs [.regs, .host, .shards, .lichen, .epoch, .model, .mem, .twill, .free] (.embedInsert cmd) :=
  fun _ => ⟨_, rfl, .embedInsert .refl⟩

theorem Runs.rerank {cmd : Nat} : Runs [.regs, .host, .lichen, .model, .mem, .twill] (.rerank cmd) :=
  fun _ => ⟨_, rfl, .onAdmitted .refl (.rerankCmd .refl)⟩

theorem Runs.epochFence {cmd : Nat} : Runs [.host, .lichen, .epoch, .twill] (.epochFence cmd) :=
  fun _ => ⟨_, rfl, .onAdmitted .refl (.epochFence .refl)⟩

theorem Runs.epochPin {cmd : Nat} : Runs [.host, .lichen, .epoch, .twill] (.epochPin cmd) :=
  fun _ => ⟨_, rfl, .onAdmitted .refl (.epochPin .refl)⟩

theorem Runs.epochUnpin {cmd : Nat} : Runs [.host, .lichen, .epoch, .twill] (.epochUnpin cmd) :=
  fun _ => ⟨_, rfl, .onAdmitted .refl (.epochUnpin .refl)⟩

theorem Runs.indexCreate {cmd : Nat} : Runs [.regs, .host, .shards, .lichen, .felt, .twill, .free] (.indexCreate cmd) :=
  fun _ => ⟨_, rfl, .onAdmitted .refl (.onTiers .refl (fun h => .indexCreate h))⟩

theorem Runs.indexDescribe {cmd : Nat} : Runs [.regs, .host, .lichen, .twill] (.indexDescribe cmd) :=
  fun _ => ⟨_, rfl, .onAdmitted .refl (.onTiers .refl (fun h => .indexDescribe h))⟩

theorem Runs.indexRetire {cmd : Nat} : Runs [.host, .shards, .lichen, .twill] (.indexRetire cmd) :=
  fun _ => ⟨_, rfl, .onAdmitted .refl (.indexRetire .refl)⟩

theorem Runs.indexRelocate {cmd : Nat} : Runs [.regs, .host, .shards, .lichen, .twill] (.indexRelocate cmd) :=
  fun _ => ⟨_, rfl, .onAdmitted .refl (.onTiers .refl (fun h => .indexRelocate h))⟩

theorem Runs.bulkLoad {cmd : Nat} : Runs [.regs, .host, .shards, .lichen, .twill, .free] (.bulkLoad cmd) :=
  fun _ => ⟨_, rfl, .onAdmitted .refl (.onTiers .refl (fun h => .bulkLoad h))⟩

theorem Runs.seal {cmd : Nat} : Runs [.regs, .host, .shards, .lichen, .twill] (.seal cmd) :=
  fun _ => ⟨_, rfl, .onAdmitted .refl (.onTiers .refl (fun h => .sealShard h))⟩

theorem Runs.histLoad {cmd : Nat} : Runs [.regs, .host, .shards, .lichen, .twill] (.histLoad cmd) :=
  fun _ => ⟨_, rfl, .onAdmitted .refl (.onTiers .refl (fun h => .histLoad h))⟩

theorem Runs.linkSupply {cmd : Nat} : Runs [.regs, .host, .shards, .lichen, .mem, .twill, .free] (.linkSupply cmd) :=
  fun _ => ⟨_, rfl, .linkSupply .refl⟩

theorem Runs.zoneOpen {cmd : Nat} : Runs [.host, .lichen, .felt, .twill] (.zoneOpen cmd) :=
  fun _ => ⟨_, rfl, .onZone .refl (.zoneOpen .refl)⟩

theorem Runs.zoneAppend {cmd : Nat} : Runs [.regs, .host, .lichen, .mem, .felt, .twill] (.zoneAppend cmd) :=
  fun _ => ⟨_, rfl, .onZone .refl (.onTiers .refl (fun h => .zoneAppend h))⟩

theorem Runs.zoneFinish {cmd : Nat} : Runs [.host, .lichen, .felt, .twill] (.zoneFinish cmd) :=
  fun _ => ⟨_, rfl, .onZone .refl (.zoneFinish .refl)⟩

theorem Runs.zoneReset {cmd : Nat} : Runs [.host, .lichen, .felt, .twill] (.zoneReset cmd) :=
  fun _ => ⟨_, rfl, .onZone .refl (.zoneReset .refl)⟩

theorem Runs.zoneReport {cmd : Nat} : Runs [.regs, .host, .lichen, .felt, .twill] (.zoneReport cmd) :=
  fun _ => ⟨_, rfl, .onZone .refl (.onTiers .refl (fun h => .zoneReport h))⟩

theorem Runs.zoneResetErase {part zone : Nat} : Runs [.host, .lichen, .felt, .twill] (.zoneResetErase part zone) :=
  fun _ => ⟨_, rfl, .zoneErase .refl⟩

theorem Runs.modelStore {cmd : Nat} : Runs [.regs, .host, .lichen, .model, .twill] (.modelStore cmd) :=
  fun _ => ⟨_, rfl, .onAdmitted .refl (.ite .refl (.onTiers .refl (fun h => .modelStore h)))⟩

theorem Runs.modelRemove {cmd : Nat} : Runs [.host, .lichen, .model, .twill] (.modelRemove cmd) :=
  fun _ => ⟨_, rfl, .onAdmitted .refl (.ite (.modelRemove .refl) .refl)⟩

theorem Runs.modelGroup {cmd : Nat} : Runs [.host, .lichen, .model, .twill] (.modelGroup cmd) :=
  fun _ => ⟨_, rfl, .onAdmitted .refl (.modelGroup .refl)⟩

theorem Runs.keyProvision {cmd : Nat} : Runs [.regs, .host, .lichen, .twill, .sec, .usnea] (.keyProvision cmd) :=
  fun _ => ⟨_, rfl, .onAdmitted .refl (.keyProvision .refl)⟩

theorem Runs.fuseProvision {cmd : Nat} : Runs [.regs, .host, .lichen, .twill, .sec, .usnea] (.fuseProvision cmd) :=
  fun _ => ⟨_, rfl, .onAdmitted .refl (.securityFuse .refl (fun h => .fuseProvision h))⟩

theorem Runs.fuseRevoke {cmd : Nat} : Runs [.regs, .host, .lichen, .twill, .sec, .usnea] (.fuseRevoke cmd) :=
  fun _ => ⟨_, rfl, .onAdmitted .refl (.securityFuse .refl (fun h => .fuseRevoke h))⟩

theorem Runs.fuseRaiseSvn {cmd : Nat} : Runs [.regs, .host, .lichen, .twill, .sec, .usnea] (.fuseRaiseSvn cmd) :=
  fun _ => ⟨_, rfl, .onAdmitted .refl (.securityFuse .refl (fun h => .fuseRaise h))⟩

theorem Runs.attest {cmd : Nat} : Runs [.host, .lichen, .twill, .usnea] (.attest cmd) :=
  fun _ => ⟨_, rfl, .onAdmitted .refl (.attest .refl)⟩

theorem Runs.certificate {cmd : Nat} : Runs [.host, .lichen, .twill, .usnea] (.certificate cmd) :=
  fun _ => ⟨_, rfl, .onAdmitted .refl (.certificate .refl)⟩

theorem Runs.healthLog {cmd : Nat} : Runs [.host, .lichen, .twill, .usnea] (.healthLog cmd) :=
  fun _ => ⟨_, rfl, .onAdmitted .refl (.healthLog .refl)⟩

theorem Runs.ledgerRead {cmd : Nat} : Runs [.host, .lichen, .twill, .ras] (.ledgerRead cmd) :=
  fun _ => ⟨_, rfl, .onAdmitted .refl (.ledgerRead .refl)⟩

theorem Runs.walkStart {query tile : Nat} : Runs [.regs, .host, .lichen, .model, .mem, .twill, .ras] (.walkStart query tile) :=
  fun _ => ⟨_, rfl, .walkStart .refl⟩

theorem Runs.walkRoundReturn {query : Nat} :
    Runs [.regs, .host, .shards, .lichen, .model, .mem, .twill, .ras, .free] (.walkRoundReturn query) :=
  fun _ => ⟨_, rfl, .walkRoundReturn .refl⟩

theorem Runs.sweepBatchStart {part index : Nat} {fresh : Bool} : Runs sweepParts (.sweepBatchStart part index fresh) :=
  fun _ => ⟨_, rfl, .sweepBatchStart .refl⟩

theorem Runs.sweepResultRecord {bank : Nat} : Runs [.regs, .host, .lichen, .model, .mem, .twill, .ras, .free] (.sweepResultRecord bank) :=
  fun _ => ⟨_, rfl, .sweepRecord .refl⟩

theorem Runs.listEntryArrive {query : Nat} : Runs [.regs, .host, .lichen, .model, .mem, .twill, .ras] (.listEntryArrive query) :=
  fun _ => ⟨_, rfl, .listArrive .refl⟩

theorem Runs.rescoreReadDone {query : Nat} : Runs [.regs, .host, .lichen, .model, .mem, .twill, .ras] (.rescoreReadDone query) :=
  fun _ => ⟨_, rfl, .rescoreRead .refl⟩

theorem Runs.disagreeCrcCheck {win rg : Nat} : Runs faultParts (.disagreeCrcCheck win rg) :=
  fun _ => ⟨_, rfl, .disagreeCheck .refl⟩

theorem Runs.deadlineExpiry {query : Nat} : Runs [.regs, .host, .lichen, .model, .mem, .twill, .ras] (.deadlineExpiry query) :=
  fun _ => ⟨_, rfl, .deadline .refl⟩

theorem Runs.deadlineGraceExpiry {query : Nat} : Runs [.regs, .host, .lichen, .model, .mem, .twill, .ras] (.deadlineGraceExpiry query) :=
  fun _ => ⟨_, rfl, .deadlineGrace .refl⟩

theorem Runs.gather {stack : Nat} {hdr : W64} {payload : List Byte} {tag : Nat} :
    Runs [.regs, .host, .lichen, .sec] (.gather stack hdr payload tag) :=
  fun _ => ⟨_, rfl, .bankCmd .refl (.bankArrive .refl)⟩

theorem Runs.slotLoad {stack : Nat} {hdr : W64} {payload : List Byte} : Runs [.regs, .host, .lichen] (.slotLoad stack hdr payload) :=
  fun _ => ⟨_, rfl, .bankCmd .refl (.loadSlot .refl)⟩

theorem Runs.slotThresh {stack : Nat} {hdr : W64} {payload : List Byte} : Runs [.regs, .host, .lichen] (.slotThresh stack hdr payload) :=
  fun _ => ⟨_, rfl, .bankCmd .refl (.threshUpdate .refl)⟩

theorem Runs.slotFree {stack : Nat} {hdr : W64} {payload : List Byte} : Runs [.regs, .host, .lichen] (.slotFree stack hdr payload) :=
  fun _ => ⟨_, rfl, .bankCmd .refl (.freeQslot .refl)⟩

theorem Runs.sweepStep {stack : Nat} {hdr : W64} {payload : List Byte} {flips : List (Nat × Nat)} :
    Runs sweepParts (.sweepStep stack hdr payload flips) :=
  fun _ => ⟨_, rfl, .bankCmd (.flipT2 .refl) (.stackCmd (.flipT2 .refl))⟩

theorem Runs.fill {stack : Nat} {hdr : W64} {payload : List Byte} : Runs sweepParts (.fill stack hdr payload) :=
  fun _ => ⟨_, rfl, .bankCmd .refl (.stackCmd .refl)⟩

theorem Runs.scrub {stack : Nat} {hdr : W64} {payload : List Byte} {flips : List (Nat × Nat)} :
    Runs sweepParts (.scrub stack hdr payload flips) :=
  fun _ => ⟨_, rfl, .bankCmd (.flipT2 .refl) (.stackCmd (.flipT2 .refl))⟩

theorem Runs.repair {stack : Nat} {hdr : W64} {payload : List Byte} : Runs sweepParts (.repair stack hdr payload) :=
  fun _ => ⟨_, rfl, .bankCmd .refl (.stackCmd .refl)⟩

theorem Runs.sweepStepEnd {stack : Nat} : Runs sweepParts (.sweepStepEnd stack) :=
  fun _ => ⟨_, rfl, .sweepsOver (.stepEnd .refl)⟩

theorem Runs.gapMaxExpiry {stack bank : Nat} : Runs faultParts (.gapMaxExpiry stack bank) :=
  fun _ => ⟨_, rfl, .ite (.gapEnd .refl) .refl⟩

theorem Runs.bankRequest {bank tag addr len : Nat} {data : List Byte} :
    Runs [.regs, .host, .lichen, .sec] (.bankRequest bank tag addr len data) :=
  fun _ => ⟨_, rfl, .bankArrive .refl⟩

theorem Runs.scrubTick {stack : Nat} {late : Bool} : Runs sweepParts (.scrubTick stack late) :=
  fun _ => ⟨_, rfl, .scrubTick .refl⟩

theorem Runs.rowGroupRebuild {stack win rg : Nat} {ok : Bool} :
    Runs [.regs, .host, .lichen, .ras, .usnea, .free] (.rowGroupRebuild stack win rg ok) :=
  fun _ => ⟨_, rfl, .ite (.rgRebuild .refl) .refl⟩

theorem Runs.prepare : Runs [.regs, .shards, .epoch, .ras] .prepare :=
  fun _ => ⟨_, rfl, .prepare .refl⟩

theorem Runs.domainReady {domain : Nat} : Runs [.epoch] (.domainReady domain) :=
  fun _ => ⟨_, rfl, .ite (.mapEpoch .refl) .refl⟩

theorem Runs.epochStrobe : Runs allButQueue .epochStrobe :=
  fun _ => ⟨_, rfl, .epochStrobe .refl⟩

theorem Runs.strobeAck {domain epochBits : Nat} : Runs [.regs, .host, .epoch] (.strobeAck domain epochBits) :=
  fun _ => ⟨_, rfl, .strobeAck .refl⟩

theorem Runs.ackTimeout :
    Runs [.regs, .img, .host, .shards, .lichen, .epoch, .model, .mem, .felt, .twill, .ras, .usnea, .free] .ackTimeout :=
  fun _ => ⟨_, rfl, .ackTimeout .refl⟩

theorem Runs.partitionScrubStep {part : Nat} : Runs [.img, .lichen, .mem] (.partitionScrubStep part) :=
  fun _ => ⟨_, rfl, .scrubStepOf .refl⟩

theorem Runs.pinExpiry {part epoch : Nat} : Runs [.regs, .host, .epoch] (.pinExpiry part epoch) :=
  fun _ => ⟨_, rfl, .pinExpiry .refl⟩

theorem Runs.fullWaitExpiry {cmd : Nat} : Runs [.regs, .host, .lichen, .epoch, .twill] (.fullWaitExpiry cmd) :=
  fun _ => ⟨_, rfl, .fullWaitExpiry .refl⟩

theorem Runs.journalPageClose {part : Nat} : Runs [.regs, .epoch, .mem] (.journalPageClose part) :=
  fun _ => ⟨_, rfl, .pageClose .refl⟩

theorem Runs.journalProgramDone {part jseq copy : Nat} :
    Runs [.regs, .host, .shards, .lichen, .epoch, .mem, .twill, .free] (.journalProgramDone part jseq copy) :=
  fun _ => ⟨_, rfl, .checkFences (.programDone .refl)⟩

theorem Runs.insertWalkStart {part index tile : Nat} :
    Runs [.regs, .host, .shards, .lichen, .model, .mem, .twill, .ras, .free] (.insertWalkStart part index tile) :=
  fun _ => ⟨_, rfl, .insertWalkStart .refl⟩

theorem Runs.backLink {part index slot : Nat} : Runs [.regs, .host, .shards, .mem, .free] (.backLink part index slot) :=
  fun _ => ⟨_, rfl, .backLink .refl⟩

theorem Runs.vectorStoreWriteDone {part index slot : Nat} :
    Runs [.regs, .host, .shards, .mem, .felt, .free] (.vectorStoreWriteDone part index slot) :=
  fun _ => ⟨_, rfl, .vectorDone .refl⟩

theorem Runs.settlerSettle {part index : Nat} : Runs [.regs, .shards, .lichen, .mem, .free] (.settlerSettle part index) :=
  fun _ => ⟨_, rfl, .settle .refl⟩

theorem Runs.settlerFold {part index : Nat} : Runs [.regs, .shards, .lichen, .mem, .free] (.settlerFold part index) :=
  fun _ => ⟨_, rfl, .foldVersions .refl⟩

theorem Runs.repairWalk {part index : Nat} : Runs [.regs, .host, .shards, .lichen, .mem, .free] (.repairWalk part index) :=
  fun _ => ⟨_, rfl, .repairWalk .refl⟩

theorem Runs.checkpointStart {part index : Nat} : Runs [.regs, .host, .shards, .felt] (.checkpointStart part index) :=
  fun _ => ⟨_, rfl, .checkpointStart .refl⟩

theorem Runs.checkpointDone {part index : Nat} :
    Runs [.regs, .host, .shards, .epoch, .mem, .felt, .sec, .free] (.checkpointDone part index) :=
  fun _ => ⟨_, rfl, .checkpointDone .refl⟩

theorem Runs.shardRebuild {part index : Nat} : Runs [.shards, .lichen, .mem, .free] (.shardRebuild part index) :=
  fun _ => ⟨_, rfl, .shardRebuild .refl⟩

theorem Runs.imgStage {req : Nat} {v : W32} {host : HostWrites} : Runs allButQueue (.imgStage req v host) :=
  fun _ => ⟨_, rfl, .ite (.wordWrite (.hostWrites .refl)) .refl⟩

theorem Runs.imgAbort {req : Nat} {v : W32} : Runs allButQueue (.imgAbort req v) :=
  fun _ => ⟨_, rfl, .ite (.wordWrite .refl) .refl⟩

theorem Runs.imageVerifyDone {slot : Nat} : Runs [.regs, .img, .host, .usnea] (.imageVerifyDone slot) :=
  fun _ => ⟨_, rfl, .imageVerifyDone .refl⟩

theorem Runs.registerWrite {req addr : Nat} {wide : Bool} {be : BitVec 8} {data : W64} :
    Runs allButQueue (.registerWrite req addr wide be data) :=
  fun _ => ⟨_, rfl, .barWrite .refl⟩

theorem Runs.sqcWrite {req addr : Nat} {v : W32} : Runs allButQueue (.sqcWrite req addr v) :=
  fun _ => ⟨_, rfl, .ite (.wordWrite .refl) .refl⟩

theorem Runs.indDataAccess {req addr : Nat} {v : Option W32} : Runs allButQueue (.indDataAccess req addr v) := fun s => by
  refine ⟨_, rfl, ?_⟩
  refine .ite ?_ .refl
  split
  · exact .wordWrite .refl
  · exact .readReg .refl

theorem Runs.loRegisterRead {req : Nat} {addr : BarRead} : Runs serviceParts (.loRegisterRead req addr) :=
  fun _ => ⟨_, rfl, .ite (.readWide .refl) (.readReg .refl)⟩

theorem Runs.updStrobe {req : Nat} {v : W32} : Runs allButQueue (.updStrobe req v) :=
  fun _ => ⟨_, rfl, .wordWrite .refl⟩

theorem Runs.updateStrobeDone {missed : List Nat} : Runs serviceParts (.updateStrobeDone missed) :=
  fun _ => ⟨_, rfl, .updStrobeDone .refl⟩

theorem Runs.parityScan {block : Nat} {upsets : List (Nat × Nat)} : Runs fenceParts (.parityScan block upsets) :=
  fun _ => ⟨_, rfl, .parityScan .refl⟩

theorem Runs.trainingStateTimeout {port : Nat} : Runs [.regs, .host, .twill, .ras, .usnea] (.trainingStateTimeout port) :=
  fun _ => ⟨_, rfl, .trainingTimeout .refl⟩

theorem Runs.downRetry {port : Nat} : Runs [.twill] (.downRetry port) :=
  fun _ => ⟨_, rfl, .downRetry .refl⟩

theorem Runs.trainingFrame {port lane : Nat} {bytes : List Byte} :
    Runs [.regs, .host, .twill, .ras, .usnea] (.trainingFrame port lane bytes) :=
  fun _ => ⟨_, rfl, .trainingFrame .refl⟩

theorem Runs.flitReceive {port : Nat} {bytes : List Byte} : Runs [.regs, .host, .twill] (.flitReceive port bytes) :=
  fun _ => ⟨_, rfl, .flitReceive .refl⟩

theorem Runs.nakHoldExpiry {port : Nat} : Runs [.twill] (.nakHoldExpiry port) :=
  fun _ => ⟨_, rfl, .ite (.nakHoldExpiry .refl) .refl⟩

theorem Runs.laneFailing {port lane : Nat} : Runs [.regs, .host, .twill, .ras, .usnea] (.laneFailing port lane) :=
  fun _ => ⟨_, rfl, .laneFailing .refl⟩

theorem Runs.swapReq {port lane : Nat} : Runs [.twill] (.swapReq port lane) :=
  fun _ => ⟨_, rfl, .ite (.swapReq .refl) .refl⟩

theorem Runs.mirroredGroupsDecoded {port : Nat} : Runs [.regs, .host, .twill] (.mirroredGroupsDecoded port) :=
  fun _ => ⟨_, rfl, .ite (.mirroredDecoded .refl) .refl⟩

theorem Runs.swapDone {port : Nat} : Runs [.regs, .host, .twill] (.swapDone port) :=
  fun _ => ⟨_, rfl, .ite (.swapDone .refl) .refl⟩

theorem Runs.retrainReq {port : Nat} : Runs [.twill] (.retrainReq port) :=
  fun _ => ⟨_, rfl, .ite (.retrainReq .refl) .refl⟩

theorem Runs.portRetrain {req port : Nat} : Runs [.regs, .host, .twill, .sec, .ras, .usnea] (.portRetrain req port) :=
  fun _ => ⟨_, rfl, .portCommand .refl⟩

theorem Runs.portRetarget {req port : Nat} : Runs [.regs, .host, .twill, .sec, .ras, .usnea] (.portRetarget req port) :=
  fun _ => ⟨_, rfl, .portCommand .refl⟩

theorem Runs.portDisable {req port : Nat} : Runs [.regs, .host, .twill, .sec, .ras, .usnea] (.portDisable req port) :=
  fun _ => ⟨_, rfl, .portCommand .refl⟩

theorem Runs.portSwap {req port lane : Nat} : Runs [.regs, .host, .twill, .sec, .ras, .usnea] (.portSwap req port lane) :=
  fun _ => ⟨_, rfl, .portCommand .refl⟩

theorem Runs.retargetDrainEnd {port : Nat} : Runs [.regs, .host, .twill] (.retargetDrainEnd port) :=
  fun _ => ⟨_, rfl, .retargetEnd .refl⟩

theorem Runs.portDown {port : Nat} : Runs [.regs, .host, .twill, .ras, .usnea] (.portDown port) :=
  fun _ => ⟨_, rfl, .portDown .refl⟩

theorem Runs.packetForward {pkt : Packet} : Runs [.regs, .host, .twill] (.packetForward pkt) :=
  fun _ => ⟨_, rfl, .forwardPkt .refl⟩

theorem Runs.readRequest {pkt : Packet} : Runs [.regs, .host, .mem, .twill, .sec, .free] (.readRequest pkt) :=
  fun _ => ⟨_, rfl, .onPacket .refl (fun h => .readRequest h)⟩

theorem Runs.readRsp {pkt : Packet} : Runs [.regs, .host, .mem, .twill, .own, .sec, .usnea] (.readRsp pkt) :=
  fun _ => ⟨_, rfl, .onPacket .refl (fun h => .ceaseCheck (.readRsp h))⟩

theorem Runs.writeRequest {pkt : Packet} : Runs [.regs, .host, .shards, .lichen, .mem, .twill, .sec, .free] (.writeRequest pkt) :=
  fun _ => ⟨_, rfl, .onPacket .refl (fun h => .writeRequest h)⟩

theorem Runs.writeAck {pkt : Packet} : Runs [.regs, .host, .twill] (.writeAck pkt) :=
  fun _ => ⟨_, rfl, .onPacket .refl (fun h => .ite (.dropReq h) h)⟩

theorem Runs.scoreRequest {pkt : Packet} : Runs [.regs, .host, .mem, .twill, .own, .sec, .usnea] (.scoreRequest pkt) :=
  fun _ => ⟨_, rfl, .onPacket .refl (fun h => .ownedRequest h)⟩

theorem Runs.scoreRsp {pkt : Packet} : Runs [.regs, .host, .mem, .twill, .own, .usnea] (.scoreRsp pkt) :=
  fun _ => ⟨_, rfl, .onPacket .refl (fun h => .walkRsp h (fun h1 => .scoreData h1))⟩

theorem Runs.expandRequest {pkt : Packet} : Runs [.regs, .host, .mem, .twill, .own, .sec, .usnea] (.expandRequest pkt) :=
  fun _ => ⟨_, rfl, .onPacket .refl (fun h => .ownedRequest h)⟩

theorem Runs.expandRsp {pkt : Packet} : Runs [.regs, .host, .lichen, .model, .mem, .twill, .own, .ras, .usnea] (.expandRsp pkt) :=
  fun _ => ⟨_, rfl, .onPacket .refl (fun h => .walkRsp h (fun h1 => .expandData h1))⟩

theorem Runs.queryMessage {pkt : Packet} : Runs [.regs, .host, .mem, .twill, .sec, .usnea] (.queryMessage pkt) :=
  fun _ => ⟨_, rfl, .onPacket .refl (fun h => .queryPacket h)⟩

theorem Runs.listMessage {pkt : Packet} : Runs [.regs, .host, .lichen, .model, .mem, .twill] (.listMessage pkt) :=
  fun _ => ⟨_, rfl, .onPacket .refl (fun h => .listPacket h)⟩

theorem Runs.collective {pkt : Packet} : Runs [.regs, .host, .model, .mem, .twill] (.collective pkt) :=
  fun _ => ⟨_, rfl, .collective .refl⟩

theorem Runs.undelivered {pkt : Packet} : Runs [.regs, .host, .lichen, .model, .mem, .twill, .own, .sec, .ras, .usnea] (.undelivered pkt) :=
  fun _ => ⟨_, rfl, .onPacket .refl (fun h => .ceaseCheck (.undelivered h))⟩

theorem Runs.requestResendTimer {reqId : Nat} : Runs [.regs, .host, .mem, .twill] (.requestResendTimer reqId) :=
  fun _ => ⟨_, rfl, .resend .refl⟩

theorem Runs.requestTimeout {reqId : Nat} :
    Runs [.regs, .host, .lichen, .model, .mem, .twill, .own, .sec, .ras, .usnea] (.requestTimeout reqId) :=
  fun _ => ⟨_, rfl, .ceaseCheck (.unreachable .refl)⟩

theorem Runs.listProgressTimer {node reqId : Nat} : Runs [.regs, .host, .mem, .twill] (.listProgressTimer node reqId) :=
  fun _ => ⟨_, rfl, .listProgress .refl⟩

theorem Runs.mapApply {req : Nat} {v : W32} : Runs allButQueue (.mapApply req v) :=
  fun _ => ⟨_, rfl, .ownCommand .refl⟩

theorem Runs.claim {req : Nat} {v : W32} : Runs allButQueue (.claim req v) :=
  fun _ => ⟨_, rfl, .ownCommand .refl⟩

theorem Runs.tset {req : Nat} {v : W32} : Runs allButQueue (.tset req v) :=
  fun _ => ⟨_, rfl, .ownCommand .refl⟩

theorem Runs.ownAbort {req : Nat} {v : W32} : Runs allButQueue (.ownAbort req v) :=
  fun _ => ⟨_, rfl, .ownCommand .refl⟩

theorem Runs.offer {pkt : Packet} : Runs [.regs, .host, .mem, .twill, .own] (.offer pkt) :=
  fun _ => ⟨_, rfl, .onToken .refl (fun h => .onOffer h)⟩

theorem Runs.accept {pkt : Packet} : Runs [.regs, .host, .mem, .twill, .own] (.accept pkt) :=
  fun _ => ⟨_, rfl, .onToken .refl (fun h => .onAccept h)⟩

theorem Runs.confirm {pkt : Packet} : Runs [.regs, .host, .mem, .twill, .own, .sec, .usnea] (.confirm pkt) :=
  fun _ => ⟨_, rfl, .onToken .refl (fun h => .onConfirm h)⟩

theorem Runs.taken {pkt : Packet} : Runs [.regs, .host, .twill, .own] (.taken pkt) :=
  fun _ => ⟨_, rfl, .onToken .refl (fun h => .onTaken h)⟩

theorem Runs.withdraw {pkt : Packet} : Runs [.regs, .host, .mem, .twill, .own, .sec, .usnea] (.withdraw pkt) :=
  fun _ => ⟨_, rfl, .onToken .refl (fun h => .onWithdraw h)⟩

theorem Runs.revoke {pkt : Packet} : Runs [.regs, .host, .mem, .twill, .own, .sec, .usnea] (.revoke pkt) :=
  fun _ => ⟨_, rfl, .onToken .refl (fun h => .onRevoke h)⟩

theorem Runs.revokeAck {pkt : Packet} : Runs [.regs, .host, .mem, .twill, .own, .sec, .usnea] (.revokeAck pkt) :=
  fun _ => ⟨_, rfl, .onToken .refl (fun h => .onRevokeAck h)⟩

theorem Runs.announce {pkt : Packet} : Runs [.regs, .host, .mem, .twill, .own, .sec, .usnea] (.announce pkt) :=
  fun _ => ⟨_, rfl, .ite .refl (.onPacket .refl (fun h => .onAnnounce h))⟩

theorem Runs.drainTimerExpiry {comp : Nat} : Runs [.regs, .host, .mem, .twill, .own] (.drainTimerExpiry comp) :=
  fun _ => ⟨_, rfl, .drainExpiry .refl⟩

theorem Runs.tokenResend {seg : Nat} : Runs [.regs, .host, .mem, .twill] (.tokenResend seg) :=
  fun _ => ⟨_, rfl, .tokenResend .refl⟩

theorem Runs.handoverTimeout {seg : Nat} : Runs [.regs, .host, .mem, .twill, .own, .sec, .usnea] (.handoverTimeout seg) :=
  fun _ => ⟨_, rfl, .handoverTimeout .refl⟩

theorem Runs.anchorSilent {comp : Nat} : Runs [.regs, .host, .mem, .twill, .own, .sec, .usnea] (.anchorSilent comp) :=
  fun _ => ⟨_, rfl, .anchorSilent .refl⟩

theorem Runs.heldResponseTimer {node reqId : Nat} : Runs [.regs, .host, .mem, .twill] (.heldResponseTimer node reqId) :=
  fun _ => ⟨_, rfl, .heldResponse .refl⟩

theorem Runs.holdDrainExpiry {node reqId : Nat} : Runs [.regs, .host, .mem, .twill, .own] (.holdDrainExpiry node reqId) :=
  fun _ => ⟨_, rfl, .holdExpiry .refl⟩

theorem Runs.unreachableExpiry {node : Nat} : Runs [.own] (.unreachableExpiry node) :=
  fun _ => ⟨_, rfl, .unreachableExpiry .refl⟩

theorem Runs.rekeySwatch {part : Nat} : Runs [.regs, .host, .mem, .sec] (.rekeySwatch part) :=
  fun _ => ⟨_, rfl, .rekeySwatch .refl⟩

theorem Runs.rasDrain {req : Nat} {v : W32} : Runs allButQueue (.rasDrain req v) :=
  fun _ => ⟨_, rfl, .rasCommand .refl⟩

theorem Runs.rasFence {req : Nat} {v : W32} : Runs allButQueue (.rasFence req v) :=
  fun _ => ⟨_, rfl, .rasCommand .refl⟩

theorem Runs.rasRestore {req : Nat} {v : W32} : Runs allButQueue (.rasRestore req v) :=
  fun _ => ⟨_, rfl, .rasCommand .refl⟩

theorem Runs.rasRetire {req : Nat} {v : W32} : Runs allButQueue (.rasRetire req v) :=
  fun _ => ⟨_, rfl, .rasCommand .refl⟩

theorem Runs.unitFault {kind unit cls addr : Nat} : Runs allButQueue (.unitFault kind unit cls addr) :=
  fun _ => ⟨_, rfl, .failedBlock (.classFault .refl)⟩

theorem Runs.drainComplete {kind unit : Nat} : Runs serviceParts (.drainComplete kind unit) :=
  fun _ => ⟨_, rfl, .drainComplete .refl⟩

theorem Runs.returnWorkDone {kind unit : Nat} {ok : Bool} : Runs resetParts (.returnWorkDone kind unit ok) :=
  fun _ => ⟨_, rfl, .failedBlock (.returnDone .refl)⟩

theorem Runs.poisonedDataRead {reader : Nat} {data : DamagedData} : Runs faultParts (.poisonedDataRead reader data) :=
  fun _ => ⟨_, rfl, .damagedRead .refl⟩

theorem Runs.modelRefetchDone {model : Nat} {ok again : Bool} :
    Runs [.regs, .host, .shards, .lichen, .epoch, .model, .twill, .free] (.modelRefetchDone model ok again) :=
  fun _ => ⟨_, rfl, .refetchDone .refl⟩

theorem Runs.persistentLogCopy : Runs [.regs, .host, .ras, .usnea] .persistentLogCopy :=
  fun _ => ⟨_, rfl, .logCopy .refl⟩

theorem Runs.usneaRestart : Runs [.regs, .host, .ras, .usnea] .usneaRestart :=
  fun _ => ⟨_, rfl, .usneaRestart .refl⟩

theorem Runs.adminWaitTimeout {cmd : Nat} : Runs [.regs, .host, .lichen, .twill, .ras, .usnea] (.adminWaitTimeout cmd) :=
  fun _ => ⟨_, rfl, .adminTimeout .refl⟩

theorem Runs.swatchMove {src dst cmd : Nat} {crcOk : Bool} :
    Runs [.regs, .host, .shards, .lichen, .epoch, .mem, .twill, .sec, .ras, .usnea] (.swatchMove src dst cmd crcOk) :=
  fun _ => ⟨_, rfl, .swatchMove .refl⟩

theorem Runs.regulatorRefill : Runs [.regs, .lichen, .mem] .regulatorRefill :=
  fun _ => ⟨_, rfl, .refill .refl⟩

theorem Runs.ddrTraining {ch : Nat} {ok : Bool} {org : Nat} : Runs [.regs, .host, .mem, .usnea, .power] (.ddrTraining ch ok org) :=
  fun _ => ⟨_, rfl, .ddrTraining .refl⟩

theorem Runs.dqsOscTick {temps : List Nat} : Runs [.regs, .host] (.dqsOscTick temps) :=
  fun _ => ⟨_, rfl, .dqsTick .refl⟩

theorem Runs.ddrPatrolRead {ch line : Nat} {result : LineRead} : Runs [.regs, .host, .mem, .ras, .usnea] (.ddrPatrolRead ch line result) :=
  fun _ => ⟨_, rfl, .patrolRead .refl⟩

theorem Runs.nandTraining {ch : Nat} {ok : Bool} {ids : List (Nat × Nat × List Nat)} :
    Runs [.regs, .host, .felt, .sec, .ras, .power] (.nandTraining ch ok ids) :=
  fun _ => ⟨_, rfl, .nandTraining .refl⟩

theorem Runs.codewordRead {laddr : Nat} {step : LadderStep} :
    Runs [.regs, .host, .shards, .epoch, .felt, .ras, .usnea, .free] (.codewordRead laddr step) :=
  fun _ => ⟨_, rfl, .codewordRead .refl⟩

theorem Runs.nandProgramFail {block : Nat} : Runs [.regs, .host, .epoch, .felt, .free] (.nandProgramFail block) :=
  fun _ => ⟨_, rfl, .programFail .refl⟩

theorem Runs.nandEraseFail {block : Nat} : Runs [.regs, .host, .felt] (.nandEraseFail block) :=
  fun _ => ⟨_, rfl, .eraseFail .refl⟩

theorem Runs.dieFence {die : Nat} : Runs fenceParts (.dieFence die) :=
  fun _ => ⟨_, rfl, .dieFence .refl⟩

theorem Runs.garbageCollection {block dest : Nat} : Runs [.regs, .felt] (.garbageCollection block dest) :=
  fun _ => ⟨_, rfl, .garbageCollect .refl⟩

theorem Runs.wearLevelMove {block dest : Nat} : Runs [.regs, .felt] (.wearLevelMove block dest) :=
  fun _ => ⟨_, rfl, .wearLevel .refl⟩

theorem Runs.blockRefresh {block dest : Nat} : Runs [.regs, .felt] (.blockRefresh block dest) :=
  fun _ => ⟨_, rfl, .blockRefresh .refl⟩

theorem Runs.fastCellFold {block dest : Nat} : Runs [.regs, .felt] (.fastCellFold block dest) :=
  fun _ => ⟨_, rfl, .fastFold .refl⟩

theorem Runs.flashPatrol {block corrected : Nat} : Runs [.regs, .felt] (.flashPatrol block corrected) :=
  fun _ => ⟨_, rfl, .flashPatrol .refl⟩

theorem Runs.mapCheckpoint : Runs [.felt] .mapCheckpoint :=
  fun _ => ⟨_, rfl, .mapCheckpoint .refl⟩

theorem Runs.mapRebuild : Runs [.felt] .mapRebuild :=
  fun _ => ⟨_, rfl, .mapRebuild .refl⟩

theorem Runs.dieTempRead {temps : List (Nat × ℤ)} : Runs [.regs, .host, .felt] (.dieTempRead temps) :=
  fun _ => ⟨_, rfl, .foldl (fun h => .dieTemp h) .refl⟩

theorem Runs.healthRecordWrite : Runs [.felt] .healthRecordWrite :=
  fun _ => ⟨_, rfl, .healthWrite .refl⟩

theorem Runs.modelCopyDone {model : Nat} {ok : Bool} :
    Runs [.regs, .host, .shards, .lichen, .epoch, .model, .twill, .free] (.modelCopyDone model ok) :=
  fun _ => ⟨_, rfl, .modelCopyDone .refl⟩

theorem Runs.batchClose {batch : Nat} : Runs [.regs, .host, .model, .mem, .twill] (.batchClose batch) :=
  fun _ => ⟨_, rfl, .closeBatch .refl⟩

theorem Runs.streamRoundStart {lane : Nat} : Runs [.regs, .host, .model, .mem, .twill] (.streamRoundStart lane) :=
  fun _ => ⟨_, rfl, .roundStart .refl⟩

theorem Runs.laneHalfRefill {lane half : Nat} :
    Runs [.regs, .host, .shards, .lichen, .epoch, .model, .mem, .twill, .free] (.laneHalfRefill lane half) :=
  fun _ => ⟨_, rfl, .halfRefill .refl⟩

theorem Runs.collectiveTimeout {batch : Nat} :
    Runs [.regs, .host, .shards, .lichen, .epoch, .model, .twill, .ras, .usnea, .free] (.collectiveTimeout batch) :=
  fun _ => ⟨_, rfl, .collectiveTimeout .refl⟩

theorem Runs.domainIdleGate {domain : Nat} : Runs [.power] (.domainIdleGate domain) :=
  fun _ => ⟨_, rfl, .domainGate .refl⟩

theorem Runs.domainWake {domain : Nat} : Runs [.power] (.domainWake domain) :=
  fun _ => ⟨_, rfl, .domainWake .refl⟩

theorem Runs.powerEstimate {watts : List (Nat × Nat)} : Runs [.regs, .host, .power] (.powerEstimate watts) :=
  fun _ => ⟨_, rfl, .powerEstimate .refl⟩

theorem Runs.powerCalibrate {meanW inputW : Nat} : Runs [.regs, .host, .power] (.powerCalibrate meanW inputW) :=
  fun _ => ⟨_, rfl, .powerCalibrate .refl⟩

theorem Runs.tempSample {temps : List ℤ} : Runs [.regs, .host, .ras, .usnea, .power] (.tempSample temps) :=
  fun _ => ⟨_, rfl, .tempSample .refl⟩

theorem Runs.overvoltage {monitor : Nat} {above : Bool} : Runs [.regs, .host, .power] (.overvoltage monitor above) :=
  fun _ => ⟨_, rfl, .overvoltage .refl⟩

theorem Runs.voltageDroop {domain mhz : Nat} : Runs [.power] (.voltageDroop domain mhz) :=
  fun _ => ⟨_, rfl, .droop .refl⟩

theorem Runs.regulatorPoll {replies : List (Option (List Nat))} : Runs [.regs, .host, .power] (.regulatorPoll replies) :=
  fun _ => ⟨_, rfl, .regulatorPoll .refl⟩

theorem Runs.warmReset {req : Nat} {pin : Bool} : Runs resetParts (.warmReset req pin) :=
  fun _ => ⟨_, rfl, .ite (.warmReset .refl) (.pwrReset .refl)⟩

theorem Runs.coldReset {aonLow : Bool} : Runs resetParts (.coldReset aonLow) :=
  fun _ => ⟨_, rfl, .coldReset .refl⟩

theorem Runs.aonPwrokRise : Runs [.power] .aonPwrokRise :=
  fun _ => ⟨_, rfl, .aonRise .refl⟩

theorem Runs.mainPwrokRise : Runs [.power] .mainPwrokRise :=
  fun _ => ⟨_, rfl, .mainRise .refl⟩

theorem Runs.mainPwrokFall {aonToo : Bool} : Runs resetParts (.mainPwrokFall aonToo) :=
  fun _ => ⟨_, rfl, .mainFall .refl⟩

theorem Runs.clockLoss : Runs resetParts .clockLoss :=
  fun _ => ⟨_, rfl, .coldReset .refl⟩

theorem Runs.rtcOscStop : Runs [.regs, .host, .power] .rtcOscStop :=
  fun _ => ⟨_, rfl, .event (.mapPower .refl)⟩

theorem Runs.startupStage {outcome : StageOutcome} : Runs [.regs, .img, .host, .sec, .usnea, .power] (.startupStage outcome) :=
  fun _ => ⟨_, rfl, .startupStage .refl⟩

theorem Runs.firstStrobe : Runs allButQueue .firstStrobe :=
  fun _ => ⟨_, rfl, .firstStrobe .refl⟩

theorem Runs.lockstepMismatch : Runs [.regs, .ras, .usnea] .lockstepMismatch :=
  fun _ => ⟨_, rfl, .usneaClose .refl⟩

theorem Runs.usneaWatchdog : Runs [.regs, .ras, .usnea] .usneaWatchdog :=
  fun _ => ⟨_, rfl, .usneaClose .refl⟩

theorem Runs.componentFault {comp : Nat} : Runs [.regs, .host, .ras, .usnea] (.componentFault comp) :=
  fun _ => ⟨_, rfl, .componentFault .refl⟩

theorem Runs.netbootRetry {image : Option (List Byte)} : Runs [.sec, .usnea, .power] (.netbootRetry image) :=
  fun _ => ⟨_, rfl, .netbootRetry .refl⟩

theorem Runs.fwTrialConfirm : Runs [.regs, .host, .usnea] .fwTrialConfirm :=
  fun _ => ⟨_, rfl, .trialConfirm .refl⟩

theorem Runs.sensorRead {values : List (Nat × BitVec 16)} : Runs [.regs, .host, .usnea] (.sensorRead values) :=
  fun _ => ⟨_, rfl, .ite (.foldl (fun h => .sensorReading h) .refl) .refl⟩

theorem Runs.mbxDoorbell {req : Nat} {v : W32} : Runs allButQueue (.mbxDoorbell req v) :=
  fun _ => ⟨_, rfl, .wordWrite .refl⟩

theorem Runs.identify {msg : MgmtMsg} : Runs [.regs, .host, .usnea] (.identify msg) :=
  fun _ => ⟨_, rfl, .onMessage .refl (fun h => .identify h)⟩

theorem Runs.sensors {msg : MgmtMsg} : Runs [.regs, .host, .usnea] (.sensors msg) :=
  fun _ => ⟨_, rfl, .onMessage .refl (fun h => .sensorsMsg h)⟩

theorem Runs.logRead {msg : MgmtMsg} : Runs [.regs, .host, .usnea] (.logRead msg) :=
  fun _ => ⟨_, rfl, .onMessage .refl (fun h => .logRead h)⟩

theorem Runs.blackboxRead {msg : MgmtMsg} : Runs [.regs, .host, .usnea] (.blackboxRead msg) :=
  fun _ => ⟨_, rfl, .onMessage .refl (fun h => .blackboxRead h)⟩

theorem Runs.mgmtAttest {msg : MgmtMsg} : Runs [.regs, .host, .usnea] (.mgmtAttest msg) :=
  fun _ => ⟨_, rfl, .onMessage .refl (fun h => .attestMsg h)⟩

theorem Runs.mgmtCertificate {msg : MgmtMsg} : Runs [.regs, .host, .usnea] (.mgmtCertificate msg) :=
  fun _ => ⟨_, rfl, .onMessage .refl (fun h => .certificateMsg h)⟩

theorem Runs.mgmtLedgerRead {msg : MgmtMsg} : Runs [.regs, .host, .ras, .usnea] (.mgmtLedgerRead msg) :=
  fun _ => ⟨_, rfl, .onMessage .refl (fun h => .ledgerMsg h)⟩

theorem Runs.rasCommand {msg : MgmtMsg} :
    Runs [.regs, .host, .shards, .lichen, .epoch, .model, .mem, .felt, .twill, .sec, .ras, .usnea, .power, .free] (.rasCommand msg) :=
  fun _ => ⟨_, rfl, .onMessage .refl (fun h => .rasMsg h)⟩

theorem Runs.regWrite {msg : MgmtMsg} : Runs allButQueue (.regWrite msg) :=
  fun _ => ⟨_, rfl, .onMessage .refl (fun h => .regMsg h)⟩

theorem Runs.admin {msg : MgmtMsg} : Runs [.regs, .host, .lichen, .mem, .twill, .sec, .usnea] (.admin msg) :=
  fun _ => ⟨_, rfl, .onMessage .refl (fun h => .adminMsg h)⟩

theorem Runs.imageChunk {msg : MgmtMsg} : Runs [.regs, .host, .usnea] (.imageChunk msg) :=
  fun _ => ⟨_, rfl, .onMessage .refl (fun h => .imageChunk h)⟩

theorem Runs.imageStage {msg : MgmtMsg} : Runs [.regs, .img, .host, .shards, .sec, .usnea, .power] (.imageStage msg) :=
  fun _ => ⟨_, rfl, .onMessage .refl (fun h => .imageStage h)⟩

theorem Runs.fwChunk {msg : MgmtMsg} : Runs [.regs, .host, .usnea] (.fwChunk msg) :=
  fun _ => ⟨_, rfl, .onMessage .refl (fun h => .fwChunk h)⟩

theorem Runs.fwActivate {msg : MgmtMsg} : Runs [.regs, .host, .sec, .ras, .usnea] (.fwActivate msg) :=
  fun _ => ⟨_, rfl, .onMessage .refl (fun h => .fwActivate h)⟩

theorem Runs.norWrite {msg : MgmtMsg} : Runs [.regs, .host, .usnea] (.norWrite msg) :=
  fun _ => ⟨_, rfl, .onMessage .refl (fun h => .norWrite h)⟩

theorem Runs.sessionOpen {msg : MgmtMsg} : Runs [.regs, .host, .usnea, .free] (.sessionOpen msg) :=
  fun _ => ⟨_, rfl, .onMessage .refl (fun h => .sessionOpen h)⟩

theorem Runs.sessionClose {msg : MgmtMsg} : Runs [.regs, .host, .usnea] (.sessionClose msg) :=
  fun _ => ⟨_, rfl, .onMessage .refl (fun h => .sessionClose h)⟩

theorem Runs.subscribe {msg : MgmtMsg} : Runs [.regs, .host, .usnea] (.subscribe msg) :=
  fun _ => ⟨_, rfl, .onMessage .refl (fun h => .subscribe h)⟩

theorem Runs.eventAck {msg : MgmtMsg} : Runs [.regs, .host, .usnea] (.eventAck msg) :=
  fun _ => ⟨_, rfl, .onMessage .refl (fun h => .eventAck h)⟩

theorem Runs.eventResend {sub seq : Nat} : Runs [.regs, .host, .usnea] (.eventResend sub seq) :=
  fun _ => ⟨_, rfl, .eventResend .refl⟩

theorem Runs.unresolvedEventRepeat {seg : Nat} : Runs [.regs, .host, .own, .usnea] (.unresolvedEventRepeat seg) :=
  fun _ => ⟨_, rfl, .unresolvedRepeat .refl⟩

theorem Runs.ptmInfo {msg : MgmtMsg} : Runs [.regs, .host, .usnea] (.ptmInfo msg) :=
  fun _ => ⟨_, rfl, .onMessage .refl (fun h => .ptmInfo h)⟩

theorem Runs.ptmPublish {ns : W64} : Runs [.usnea] (.ptmPublish ns) :=
  fun _ => ⟨_, rfl, .ptmPublish .refl⟩

theorem Runs.sessionIdleExpiry {session : Nat} : Runs [.usnea] (.sessionIdleExpiry session) :=
  fun _ => ⟨_, rfl, .endSession .refl⟩

theorem Runs.receiveAreaTimeout : Runs [.usnea] .receiveAreaTimeout :=
  fun _ => ⟨_, rfl, .ite (.recvFree .refl) .refl⟩

theorem Runs.signalDetected {port : Nat} {lanes : List Nat} : Runs [.twill] (.signalDetected port lanes) :=
  fun _ => ⟨_, rfl, .signalDetected .refl⟩

theorem Runs.receiverAdaptationDone {port : Nat} : Runs [.twill] (.receiverAdaptationDone port) :=
  fun _ => ⟨_, rfl, .adaptationDone .refl⟩

theorem Runs.msixVectorUnmask {fn vector : Nat} : Runs [.host] (.msixVectorUnmask fn vector) :=
  fun _ => ⟨_, rfl, .vectorUnmask .refl⟩

theorem Runs.vfEnable {vf : Nat} : Runs [.img] (.vfEnable vf) :=
  fun _ => ⟨_, rfl, .mapImg .refl⟩

theorem Runs.rtcEdge : Runs [.power] .rtcEdge :=
  fun _ => ⟨_, rfl, .rtcEdge .refl⟩

theorem Runs.alwaysOnClockReturn : Runs [.power] .alwaysOnClockReturn :=
  fun _ => ⟨_, rfl, .clockReturn .refl⟩

theorem Runs.t5RekeyRewrite {part laddr : Nat} : Runs [.regs, .host, .mem, .felt, .sec, .free] (.t5RekeyRewrite part laddr) :=
  fun _ => ⟨_, rfl, .t5Rewrite .refl⟩

theorem Runs.writeRecordExpiry {node reqId : Nat} : Runs [.twill] (.writeRecordExpiry node reqId) :=
  fun _ => ⟨_, rfl, .writeExpiry .refl⟩

theorem Runs.d2dLaneSwap {link lane : Nat} : Runs fenceParts (.d2dLaneSwap link lane) :=
  fun _ => ⟨_, rfl, .d2dSwap .refl⟩

theorem Runs.usneaRestartComplete : Runs [.regs, .host, .usnea] .usneaRestartComplete :=
  fun _ => ⟨_, rfl, .usneaRestarted .refl⟩

theorem Runs.mgmtLinkChange {up : Bool} : Runs [.usnea] (.mgmtLinkChange up) :=
  fun _ => ⟨_, rfl, .mapUsnea .refl⟩

theorem Runs.mctpControlMessage {via : Transport} {bytes : List Byte} : Runs [.usnea] (.mctpControlMessage via bytes) :=
  fun _ => ⟨_, rfl, .mctpControl .refl⟩

theorem Runs.i3cDynamicAddress {addr : Nat} : Runs [.usnea] (.i3cDynamicAddress addr) :=
  fun _ => ⟨_, rfl, .ite (.mapUsnea .refl) .refl⟩

theorem Runs.jtagInstruction {instr : JtagInstr} : Runs [.usnea] (.jtagInstruction instr) :=
  fun _ => ⟨_, rfl, .ite (.mapUsnea .refl) .refl⟩

end Sys2Proof.Machine
end

section
/-! FRAMES by fields. O54 (refuted) to O59: for a command of few effects the clause names the fields, for the others the parts. -/
namespace Sys2Proof.Machine
open Sys2Proof
set_option Elab.async false

/-! ### Field by field

`Touches put s t`: where `put s t` is `s` with some fields of `t`, the two differ in those fields only. -/

def Touches (put : State → State → State) (s t : State) : Prop := t = put s t

/-- The fields of `put` hold those of `put'`. -/
def Covers (put put' : State → State → State) : Prop := ∀ a b c, put' (put a b) c = put a (put' (put a b) c)

variable {put put' : State → State → State} {s t u : State}

theorem Touches.refl (hp : ∀ a, a = put a a := by exact fun _ => rfl) : Touches put s s := hp s

theorem Touches.trans (h : Touches put s t) (hc : Covers put put') (g : Touches put' t u) : Touches put s u := by
  have hcov := hc s t u
  rw [← h, ← g] at hcov
  exact hcov

theorem Touches.ite {c : Prop} [Decidable c] (h : Touches put s t) (g : Touches put s u) : Touches put s (if c then t else u) := by
  split
  · exact h
  · exact g

theorem Touches.foldl {α : Type} {f : State → α → State} {l : List α} (hf : ∀ {v : State} {x : α}, Touches put s v → Touches put s (f v x))
    (h : Touches put s t) : Touches put s (l.foldl f t) := by
  induction l generalizing t with
  | nil => exact h
  | cons x l ih => exact ih (hf h)

/-- The next state of a command is the one that its meaning gives. -/
theorem Touches.next {c : Instr} (s t : State) (ht : exec c s = .next t) (hc : exec c s = .next u) (hu : Touches put s u) : t = put s t := by
  obtain rfl : u = t := Host.Outcome.next.inj (hc.symm.trans ht)
  exact hu

theorem Touches.mapRegs {f : RegFile → RegFile} (h : Touches put s t)
    (hf : ∀ a b, (put a b).mapRegs f = put a ((put a b).mapRegs f) := by exact fun _ _ => rfl) : Touches put s (t.mapRegs f) := by
  have hput := hf s t
  rwa [← h] at hput

theorem Touches.mapImg {f : ImgState → ImgState} (h : Touches put s t)
    (hf : ∀ a b, (put a b).mapImg f = put a ((put a b).mapImg f) := by exact fun _ _ => rfl) : Touches put s (t.mapImg f) := by
  have hput := hf s t
  rwa [← h] at hput

theorem Touches.mapHost {f : HostState → HostState} (h : Touches put s t)
    (hf : ∀ a b, (put a b).mapHost f = put a ((put a b).mapHost f) := by exact fun _ _ => rfl) : Touches put s (t.mapHost f) := by
  have hput := hf s t
  rwa [← h] at hput

theorem Touches.mapShards {f : Smap Shard → Smap Shard} (h : Touches put s t)
    (hf : ∀ a b, (put a b).mapShards f = put a ((put a b).mapShards f) := by exact fun _ _ => rfl) : Touches put s (t.mapShards f) := by
  have hput := hf s t
  rwa [← h] at hput

theorem Touches.mapLichen {f : Lichen → Lichen} (h : Touches put s t)
    (hf : ∀ a b, (put a b).mapLichen f = put a ((put a b).mapLichen f) := by exact fun _ _ => rfl) : Touches put s (t.mapLichen f) := by
  have hput := hf s t
  rwa [← h] at hput

theorem Touches.mapEpoch {f : EpochState → EpochState} (h : Touches put s t)
    (hf : ∀ a b, (put a b).mapEpoch f = put a ((put a b).mapEpoch f) := by exact fun _ _ => rfl) : Touches put s (t.mapEpoch f) := by
  have hput := hf s t
  rwa [← h] at hput

theorem Touches.mapMem {f : MemState → MemState} (h : Touches put s t)
    (hf : ∀ a b, (put a b).mapMem f = put a ((put a b).mapMem f) := by exact fun _ _ => rfl) : Touches put s (t.mapMem f) := by
  have hput := hf s t
  rwa [← h] at hput

theorem Touches.mapFelt {f : FeltState → FeltState} (h : Touches put s t)
    (hf : ∀ a b, (put a b).mapFelt f = put a ((put a b).mapFelt f) := by exact fun _ _ => rfl) : Touches put s (t.mapFelt f) := by
  have hput := hf s t
  rwa [← h] at hput

theorem Touches.mapTwill {f : Twill → Twill} (h : Touches put s t)
    (hf : ∀ a b, (put a b).mapTwill f = put a ((put a b).mapTwill f) := by exact fun _ _ => rfl) : Touches put s (t.mapTwill f) := by
  have hput := hf s t
  rwa [← h] at hput

theorem Touches.mapOwn {f : OwnState → OwnState} (h : Touches put s t)
    (hf : ∀ a b, (put a b).mapOwn f = put a ((put a b).mapOwn f) := by exact fun _ _ => rfl) : Touches put s (t.mapOwn f) := by
  have hput := hf s t
  rwa [← h] at hput

theorem Touches.mapSec {f : SecState → SecState} (h : Touches put s t)
    (hf : ∀ a b, (put a b).mapSec f = put a ((put a b).mapSec f) := by exact fun _ _ => rfl) : Touches put s (t.mapSec f) := by
  have hput := hf s t
  rwa [← h] at hput

theorem Touches.mapRas {f : RasState → RasState} (h : Touches put s t)
    (hf : ∀ a b, (put a b).mapRas f = put a ((put a b).mapRas f) := by exact fun _ _ => rfl) : Touches put s (t.mapRas f) := by
  have hput := hf s t
  rwa [← h] at hput

theorem Touches.mapUsnea {f : UsneaState → UsneaState} (h : Touches put s t)
    (hf : ∀ a b, (put a b).mapUsnea f = put a ((put a b).mapUsnea f) := by exact fun _ _ => rfl) : Touches put s (t.mapUsnea f) := by
  have hput := hf s t
  rwa [← h] at hput

/-! ### The operations that the rows share -/

/-- What a message to a function can change. -/
def putMsix (s t : State) : State := { s with host := { s.host with fns := t.host.fns, msix := t.host.msix } }

/-- What an event can change. -/
def putEvent (s t : State) : State :=
  { s with regs := { s.regs with sqc := t.regs.sqc }, host := { s.host with fns := t.host.fns, msix := t.host.msix } }

theorem Touches.sendMsix {fn v : Nat} (h : Touches put s t) (hc : Covers put putMsix := by exact fun _ _ _ => rfl) :
    Touches put s (sendMsix t fn v) := by
  obtain ⟨a, b, he⟩ := sendMsix_eq t fn v
  exact h.trans hc (by rw [he]; rfl)

theorem Touches.signalFn {fn : Nat} (h : Touches put s t) (hc : Covers put putMsix := by exact fun _ _ _ => rfl) :
    Touches put s (signalFn t fn) := by
  obtain ⟨a, b, he⟩ := signalFn_eq t fn
  exact h.trans hc (by rw [he]; rfl)

theorem Touches.event {r : Reg} {n b : Nat} (h : Touches put s t) (hc : Covers put putEvent := by exact fun _ _ _ => rfl) :
    Touches put s (t.event r n b) := by
  obtain ⟨a, c, he⟩ := event_eq t r n b
  exact h.trans hc (by rw [he]; rfl)

theorem Touches.eventIf {c : Bool} {r : Reg} {n b : Nat} (h : Touches put s t) (hc : Covers put putEvent := by exact fun _ _ _ => rfl) :
    Touches put s (t.eventIf c r n b) := .ite (h.event hc) h

/-- What a write error can change. -/
def putWriteError (s t : State) : State := { s with
  regs := { s.regs with werr := t.regs.werr, werrInfo := t.regs.werrInfo }, host := { s.host with fns := t.host.fns, msix := t.host.msix } }

theorem Touches.writeError {req block off al cause : Nat} (h : Touches put s t)
    (hc : Covers put putWriteError := by exact fun _ _ _ => rfl) : Touches put s (writeError t req block off al cause) := by
  obtain ⟨w, i, a, b, he⟩ := writeError_eq t req block off al cause
  exact h.trans hc (by rw [he]; rfl)

/-- What a charge to a partition's bucket can change. -/
def putCharge (s t : State) : State :=
  { s with regs := { s.regs with ro := t.regs.ro }, mem := { s.mem with bucket := t.mem.bucket, waiting := t.mem.waiting } }

theorem Touches.charge {part tier bytes : Nat} (h : Touches put s t) (hc : Covers put putCharge := by exact fun _ _ _ => rfl) :
    Touches put s (charge t part tier bytes) := h.trans hc (.ite .refl rfl)

/-- What an event to the subscribers can change. -/
def putRaised (s t : State) : State := { s with
  regs := { s.regs with sqc := t.regs.sqc }, host := { s.host with fns := t.host.fns, msix := t.host.msix }
  usnea := { s.usnea with sent := t.usnea.sent, subs := t.usnea.subs } }

theorem Touches.raiseEvent {b : Nat} {body : List Byte} (h : Touches put s t) (hc : Covers put putRaised := by exact fun _ _ _ => rfl) :
    Touches put s (raiseEvent t b body) := h.trans hc (.ite .refl (.eventIf (.mapUsnea .refl)))

theorem Touches.setReg {r : Reg} {n : Nat} {v : W32} (h : Touches put s t)
    (hf : ∀ a b, (put a b).setReg r n v = put a ((put a b).setReg r n v) := by exact fun _ _ => rfl) : Touches put s (t.setReg r n v) := by
  have hput := hf s t
  rwa [← h] at hput

theorem Touches.setRo {r : Reg} {n : Nat} {v : W32} (h : Touches put s t)
    (hf : ∀ a b, (put a b).setRo r n v = put a ((put a b).setRo r n v) := by exact fun _ _ => rfl) : Touches put s (t.setRo r n v) := by
  have hput := hf s t
  rwa [← h] at hput

/-! ### Queues and functions -/

def putQps (s t : State) : State := { s with host := { s.host with qps := t.host.qps } }

theorem Touches.updQp {d : Nat} {f : Qp → Qp} (h : Touches put s t) (hc : Covers put putQps := by exact fun _ _ _ => rfl) :
    Touches put s (t.updQp d f) := h.trans hc rfl

/-- What a queue pair that fails can change. -/
def putFailed (s t : State) : State := { s with
  regs := { s.regs with sqc := t.regs.sqc }, host := { s.host with fns := t.host.fns, msix := t.host.msix, qps := t.host.qps } }

theorem Touches.failQp {d cause : Nat} (h : Touches put s t) (hc : Covers put putFailed := by exact fun _ _ _ => rfl) :
    Touches put s (failQp t d cause) :=
  h.trans hc (.eventIf (.updQp .refl))

theorem Touches.enableQp {d : Nat} (h : Touches put s t) (hc : Covers put putFailed := by exact fun _ _ _ => rfl) :
    Touches put s (enableQp t d) :=
  h.trans hc (.ite (.updQp .refl) (.failQp (.updQp .refl)))

theorem Touches.writeEnable {d : Nat} {on : Bool} (h : Touches put s t) (hc : Covers put putFailed := by exact fun _ _ _ => rfl) :
    Touches put s (writeEnable t d on) :=
  h.trans hc <| by
    unfold Machine.writeEnable
    split
    · exact .enableQp .refl
    · exact .updQp .refl
    · exact .updQp .refl
    · exact .updQp .refl
    · exact .updQp .refl
    · exact .refl

/-- What a write of a queue pair's control register can change. -/
def putQpCtrl (s t : State) : State := { s with
  regs := { s.regs with force := t.regs.force, sqc := t.regs.sqc, werr := t.regs.werr, werrInfo := t.regs.werrInfo }
  host := { s.host with fns := t.host.fns, msix := t.host.msix, qps := t.host.qps } }

theorem Touches.qpCtrl {req fn q : Nat} {on : Bool} (h : Touches put s t) (hc : Covers put putQpCtrl := by exact fun _ _ _ => rfl) :
    Touches put s (qpCtrl t req fn q on) :=
  h.trans hc <| by
    unfold Machine.qpCtrl
    refine .ite (.writeError .refl) ?_
    split
    · exact .writeError .refl
    · exact .ite (.writeError .refl) (.writeEnable (.setReg .refl))

/-- What the end of a queue pair's drain, or of a function's reset, can change. -/
def putDrained (s t : State) : State := { s with
  regs := { s.regs with force := t.regs.force, sqc := t.regs.sqc }
  host := { s.host with fns := t.host.fns, msix := t.host.msix, qps := t.host.qps } }

theorem Touches.resetQpWindow {d : Nat} (h : Touches put s t) (hc : Covers put putDrained := by exact fun _ _ _ => rfl) :
    Touches put s (resetQpWindow t d) :=
  h.trans hc (.mapRegs (.mapHost .refl))

theorem Touches.flrEnd {fn : Nat} (h : Touches put s t) (hc : Covers put putDrained := by exact fun _ _ _ => rfl) :
    Touches put s (flrEnd t fn) :=
  h.trans hc (.ite (.event (.mapHost (.foldl (fun h => .foldl (fun h => .resetQpWindow h) (.mapRegs h)) .refl))) .refl)

theorem Touches.drainEnd {d : Nat} (h : Touches put s t) (hc : Covers put putDrained := by exact fun _ _ _ => rfl) :
    Touches put s (drainEnd t d) :=
  h.trans hc (.ite .refl (.ite (.enableQp (.updQp .refl)) (.flrEnd (.ite (.resetQpWindow (.updQp .refl)) (.updQp .refl)))))

theorem Touches.fnRegReset {fn : Nat} (h : Touches put s t) (hc : Covers put putQpCtrl := by exact fun _ _ _ => rfl) :
    Touches put s (fnRegReset t fn) := by
  obtain ⟨f, w, i, he⟩ : ∃ f w i, Machine.fnRegReset t fn = { t with regs := { t.regs with force := f, werr := w, werrInfo := i } } := ⟨_, _, _, rfl⟩
  exact h.trans hc (by rw [he]; rfl)

theorem Touches.functionReset {fn : Nat} (h : Touches put s t) (hc : Covers put putQpCtrl := by exact fun _ _ _ => rfl) :
    Touches put s (functionReset t fn) :=
  h.trans hc (.flrEnd (.mapHost (.foldl (fun h => .updQp h) (.fnRegReset .refl))))

/-! ### Flash -/

/-- What a move of a block's codewords can change. -/
def putMoved (s t : State) : State := { s with
  regs := { s.regs with ro := t.regs.ro }
  felt := { s.felt with blocks := t.felt.blocks, map := t.felt.map, parity := t.felt.parity, sinceCkpt := t.felt.sinceCkpt, wseq := t.felt.wseq } }

def putBlocks (s t : State) : State := { s with felt := { s.felt with blocks := t.felt.blocks } }

theorem Touches.updBlock {b : Nat} {f : Block → Block} (h : Touches put s t) (hc : Covers put putBlocks := by exact fun _ _ _ => rfl) :
    Touches put s (t.updBlock b f) := h.trans hc rfl

theorem Touches.stripeParity {g pos : Nat} (h : Touches put s t) (hc : Covers put putMoved := by exact fun _ _ _ => rfl) :
    Touches put s (stripeParity t g pos) :=
  h.trans hc <| by
    unfold Machine.stripeParity
    dsimp only
    split
    · exact .ite .refl (.mapFelt (.updBlock .refl))
    · exact .refl

theorem Touches.writeCodeword {l kind gen b : Nat} (h : Touches put s t) (hc : Covers put putMoved := by exact fun _ _ _ => rfl) :
    Touches put s (writeCodeword t l kind gen b) :=
  h.trans hc (.ite (.setRo (.stripeParity (.updBlock (.mapFelt .refl)))) (.stripeParity (.updBlock (.mapFelt .refl))))

theorem Touches.copyCodeword {l b : Nat} (h : Touches put s t) (hc : Covers put putMoved := by exact fun _ _ _ => rfl) :
    Touches put s (copyCodeword t l b) :=
  h.trans hc <| by
    unfold Machine.copyCodeword
    split
    · exact .refl
    · exact .writeCodeword .refl

theorem Touches.eraseBlock {b : Nat} (h : Touches put s t) (hc : Covers put putMoved := by exact fun _ _ _ => rfl) :
    Touches put s (eraseBlock t b) :=
  h.trans hc <| by
    unfold Machine.eraseBlock
    exact .mapFelt (.updBlock .refl)

theorem Touches.moveBlock {b dest : Nat} {fast : Bool} (h : Touches put s t) (hc : Covers put putMoved := by exact fun _ _ _ => rfl) :
    Touches put s (moveBlock t b dest fast) :=
  h.trans hc (.eraseBlock (.foldl (fun h => .copyCodeword h) (.updBlock .refl)))

/-! ### Rows that look something up before they change anything -/

theorem Touches.zoneNeeded {p : Nat} (h : Touches put s t)
    (hc : Covers put (fun s t => { s with
      regs := { s.regs with sqc := t.regs.sqc }, host := { s.host with fns := t.host.fns, msix := t.host.msix }
      felt := { s.felt with zoneWait := t.felt.zoneWait } }) := by exact fun _ _ _ => rfl) : Touches put s (zoneNeeded t p) :=
  h.trans hc (.ite (.event (.mapFelt .refl)) .refl)

theorem Touches.boundaryEnd (h : Touches put s t)
    (hc : Covers put (fun s t => { s with
      regs := { s.regs with replaced := t.regs.replaced, ro := t.regs.ro, sqc := t.regs.sqc }
      host := { s.host with fns := t.host.fns, msix := t.host.msix }, epoch := { s.epoch with awaiting := t.epoch.awaiting } }) := by
        exact fun _ _ _ => rfl) : Touches put s (boundaryEnd t) :=
  h.trans hc (.ite (.setRo (.event (.mapRegs (.mapEpoch .refl)))) .refl)

theorem Touches.rekeyCheck {p : Nat} (h : Touches put s t)
    (hc : Covers put (fun s t => { s with
      regs := { s.regs with sqc := t.regs.sqc }, host := { s.host with fns := t.host.fns, msix := t.host.msix }
      sec := { s.sec with oldKeys := t.sec.oldKeys } }) := by exact fun _ _ _ => rfl) : Touches put s (rekeyCheck t p) :=
  h.trans hc <| by
    unfold Machine.rekeyCheck
    split
    · exact .refl
    · exact .ite .refl (.event (.mapSec .refl))

theorem Touches.norDirWrite {f : NorDir → NorDir} (h : Touches put s t)
    (hc : Covers put (fun s t => { s with usnea := { s.usnea with dir0 := t.usnea.dir0, dir1 := t.usnea.dir1 } }) := by
      exact fun _ _ _ => rfl) : Touches put s (norDirWrite t f) :=
  h.trans hc <| by
    unfold Machine.norDirWrite State.mapUsnea
    dsimp only
    split
    · rfl
    · rfl

theorem Touches.sendUnresolved {k : Nat} (h : Touches put s t)
    (hc : Covers put (fun s t => { s with
      regs := { s.regs with sqc := t.regs.sqc }, host := { s.host with fns := t.host.fns, msix := t.host.msix }
      own := { s.own with unresolved := t.own.unresolved }, usnea := { s.usnea with sent := t.usnea.sent, subs := t.usnea.subs } }) := by
        exact fun _ _ _ => rfl) : Touches put s (sendUnresolved t k) :=
  h.trans hc <| by
    unfold Machine.sendUnresolved
    exact .mapOwn (.raiseEvent .refl)

theorem Touches.sensorReading {x : Nat × BitVec 16} (h : Touches put s t)
    (hc : Covers put (fun s t => { s with
      regs := { s.regs with force := t.regs.force, sqc := t.regs.sqc }, host := { s.host with fns := t.host.fns, msix := t.host.msix }
      usnea := { s.usnea with sensors := t.usnea.sensors, sent := t.usnea.sent, subs := t.usnea.subs } }) := by
        exact fun _ _ _ => rfl) : Touches put s (sensorReading t x) :=
  h.trans hc <| by
    unfold Machine.sensorReading
    exact .ite .refl (.ite (.raiseEvent (.event (.ite (.setReg (.mapUsnea .refl)) (.mapUsnea .refl))))
      (.ite (.setReg (.mapUsnea .refl)) (.mapUsnea .refl)))

theorem Touches.updPort {i : Nat} {f : Port → Port} (h : Touches put s t)
    (hc : Covers put (fun s t => { s with twill := { s.twill with ports := t.twill.ports } }) := by exact fun _ _ _ => rfl) :
    Touches put s (t.updPort i f) := h.trans hc rfl

/-- What a packet that is taken, and may be malformed, can change. -/
def putTaken (s t : State) : State := { s with
  regs := { s.regs with sqc := t.regs.sqc }, host := { s.host with fns := t.host.fns, msix := t.host.msix }
  twill := { s.twill with inbox := t.twill.inbox } }

theorem Touches.onPacket {typ : Nat} {p : Packet} {f : State → State} (h : Touches put s t)
    (hf : ∀ {v : State}, Touches put s v → Touches put s (f v)) (hc : Covers put putTaken := by exact fun _ _ _ => rfl) :
    Touches put s (onPacket t typ p f) :=
  .ite h (.ite (h.trans hc (.event (.mapTwill .refl))) (hf (h.trans hc (.mapTwill .refl))))

theorem Touches.onToken {msg : Nat} {p : Packet} {f : State → Nat → LedgerEnt → Nat → Nat → State} (h : Touches put s t)
    (hf : ∀ {v : State} {k : Nat} {e : LedgerEnt} {g a : Nat}, Touches put s v → Touches put s (f v k e g a))
    (hc : Covers put putTaken := by exact fun _ _ _ => rfl) : Touches put s (onToken t msg p f) :=
  .ite h (.onPacket h (fun h => by
    split
    · exact h.trans hc (.event .refl)
    · exact .ite (hf h) h) hc)

theorem Touches.pageClose {p : Nat} : Touches (fun s t => { s with
    regs := { s.regs with ro := t.regs.ro }, epoch := { s.epoch with journals := t.epoch.journals }
    mem := { s.mem with bucket := t.mem.bucket, waiting := t.mem.waiting } }) s (pageClose s p) := by
  unfold Machine.pageClose
  dsimp only
  split
  · exact .refl
  · exact .ite .refl (.charge (.mapEpoch .refl))

theorem Touches.checkpointStart {p index : Nat} : Touches (fun s t => { s with
    regs := { s.regs with sqc := t.regs.sqc }, host := { s.host with fns := t.host.fns, msix := t.host.msix }
    shards := t.shards, felt := { s.felt with zoneWait := t.felt.zoneWait } }) s (checkpointStart s p index) := by
  unfold Machine.checkpointStart
  split
  · exact .refl
  · exact .ite .refl (.ite (.zoneNeeded .refl) (.mapShards .refl))

theorem Touches.mirroredDecoded {i : Nat} : Touches (fun s t => { s with
    regs := { s.regs with ro := t.regs.ro, sqc := t.regs.sqc }, host := { s.host with fns := t.host.fns, msix := t.host.msix }
    twill := { s.twill with ports := t.twill.ports } }) s (mirroredDecoded s i) := by
  unfold Machine.mirroredDecoded
  dsimp only
  split
  · exact .eventIf (.event (.setRo (.updPort (.updPort .refl))))
  · exact .refl

theorem Touches.unresolvedRepeat {n : Nat} : Touches (fun s t => { s with
    regs := { s.regs with sqc := t.regs.sqc }, host := { s.host with fns := t.host.fns, msix := t.host.msix }
    own := { s.own with unresolved := t.own.unresolved }
    usnea := { s.usnea with sent := t.usnea.sent, subs := t.usnea.subs } }) s (unresolvedRepeat s n) := by
  unfold Machine.unresolvedRepeat
  split
  · exact .refl
  · exact .ite (.sendUnresolved .refl) .refl

theorem Touches.rekeySwatch {p : Nat} : Touches (fun s t => { s with
    regs := { s.regs with ro := t.regs.ro, sqc := t.regs.sqc }, host := { s.host with fns := t.host.fns, msix := t.host.msix }
    mem := { s.mem with bucket := t.mem.bucket, waiting := t.mem.waiting }
    sec := { s.sec with oldKeys := t.sec.oldKeys, rekey := t.sec.rekey } }) s (rekeySwatch s p) := by
  unfold Machine.rekeySwatch
  split
  · exact .refl
  · exact .ite .refl (.rekeyCheck (.mapSec (.charge (.charge .refl))))

theorem Touches.eventResend {sub seq : Nat} : Touches putRaised s (eventResend s sub seq) := by
  unfold Machine.eventResend
  split
  · exact .refl
  · exact .ite .refl (.ite (.event (.mapUsnea .refl)) (.mapUsnea .refl))

/-! ### The frames -/

/-- The oscillator's stack domain 96 has an idle limit whose parity is wrong, and a window of the power block stands on it. -/
def idleUpset : State := { State.reset with regs := { State.reset.regs with
  force := [(regKey .pwrDomIndAddr 0, regCopy 0x60003), (regKey .pwrDIdle 96, { regCopy 0 with par := ~~~ (regCopy 0).par })] } }

/-- Refutes O54: a read through the power window finds the parity error of `PWR_D_IDLE` of domain 96, and the domain's fault fences
Lichen stack 0 with it (R81, R593), which puts the stack idle: the row's clause does not list the Lichen part. -/
theorem not_powerAndRegisterFrames : ¬ Obligations.PowerAndRegisterFrames := by
  unfold Obligations.PowerAndRegisterFrames
  rintro ⟨-, -, -, -, -, -, -, hind, -⟩
  have hread : exec (.indDataAccess 0 0x1000038 none) idleUpset = .next (readReg idleUpset 0 0x1000038) :=
    congrArg Host.Outcome.next (if_pos (by decide +kernel))
  have hsame : (readReg idleUpset 0 0x1000038).lichen = idleUpset.lichen :=
    hind 0 0x1000038 none idleUpset _ hread .lichen (by decide)
  have hidle : ((readReg idleUpset 0 0x1000038).lichen.stk.get 0).isSome = true := by decide +kernel
  rw [hsame] at hidle
  exact absurd hidle (by decide)

/-- Settles O55: each command's parts by its `Runs` lemma, its fields by its `Touches` lemma. -/
theorem queueAndSearchFrames : Obligations.QueueAndSearchFrames :=
  ⟨fun _ _ _ _ => Runs.sqDoorbell.changesOnly,
   fun _ _ _ => Runs.cqDoorbell.changesOnly,
   fun s t _ h => by
    apply Touches.next s t h rfl
    exact .ite .refl (.updQp (.charge .refl)),
   Runs.admissionSlot.changesOnly,
   fun s t h => by
    apply Touches.next s t h rfl
    exact .foldl (fun h => .updQp h) .refl,
   fun _ => Runs.completionWrite.changesOnly,
   fun s t _ h => by
    apply Touches.next s t h rfl
    exact .ite (.sendMsix (.updQp .refl)) .refl,
   fun s t _ h => by
    apply Touches.next s t h rfl
    exact .ite .refl (.ite (.signalFn (.mapHost .refl)) (.mapHost .refl)),
   fun s t _ _ _ h => by
    apply Touches.next s t h rfl
    exact .qpCtrl .refl,
   fun s t _ _ _ h => by
    apply Touches.next s t h rfl
    exact .qpCtrl .refl,
   fun s t _ h => by
    apply Touches.next s t h rfl
    exact .drainEnd .refl,
   fun s t h => by
    apply Touches.next s t h rfl
    exact .foldl (fun h => .ite (.setReg (.updQp h)) (.updQp h)) .refl,
   fun s t _ h => by
    apply Touches.next s t h rfl
    exact .ite .refl (.ite (.functionReset (.mapImg .refl)) (.functionReset .refl)),
   fun s t _ h => by
    apply Touches.next s t h rfl
    exact .ite .refl (.ite (.functionReset (.mapImg .refl)) (.functionReset .refl)),
   Runs.hostPortReset.changesOnly,
   fun s t _ h => by
    apply Touches.next s t h rfl
    exact .ite (.mapImg .refl) .refl,
   fun _ => Runs.t4ReadTimeout.changesOnly,
   fun _ => Runs.t4AccessError.changesOnly,
   fun _ _ _ _ => Runs.linkChange.changesOnly,
   fun _ => Runs.search.changesOnly,
   fun _ => Runs.sweep.changesOnly,
   fun _ _ => Runs.walkStart.changesOnly,
   fun _ _ _ => Runs.sweepBatchStart.changesOnly,
   fun _ => Runs.sweepResultRecord.changesOnly,
   fun _ => Runs.listEntryArrive.changesOnly,
   fun _ => Runs.rescoreReadDone.changesOnly,
   fun _ _ => Runs.disagreeCrcCheck.changesOnly,
   fun _ => Runs.deadlineExpiry.changesOnly,
   fun _ => Runs.deadlineGraceExpiry.changesOnly,
   fun _ => Runs.sweepStepEnd.changesOnly,
   fun s t _ _ h => by
    apply Touches.next s t h rfl
    exact .ite .refl (.ite (.sendMsix (.mapHost .refl)) (.mapHost .refl)),
   fun s t _ h => by
    apply Touches.next s t h rfl
    exact .mapImg .refl⟩

/-- Settles O56: each command's parts by its `Runs` lemma, its fields by its `Touches` lemma. -/
theorem memoryAndFlashFrames : Obligations.MemoryAndFlashFrames :=
  ⟨fun _ _ => Runs.cxlMemRequest.changesOnly,
   fun _ _ _ => Runs.bar4Access.changesOnly,
   fun s t _ h => by
    apply Touches.next s t h rfl
    exact .ite .refl (.mapMem .refl),
   fun _ => Runs.zoneOpen.changesOnly,
   fun _ => Runs.zoneAppend.changesOnly,
   fun _ => Runs.zoneFinish.changesOnly,
   fun _ => Runs.zoneReset.changesOnly,
   fun _ => Runs.zoneReport.changesOnly,
   fun _ _ => Runs.zoneResetErase.changesOnly,
   fun _ _ _ _ => Runs.gather.changesOnly,
   fun s t _ _ _ h => by
    apply Touches.next s t h rfl
    exact .ite .refl (.ite (.mapLichen .refl) (.event .refl)),
   fun s t _ _ _ h => by
    apply Touches.next s t h rfl
    exact .ite .refl (.ite (.ite (.mapLichen .refl) (.ite (.mapLichen .refl) .refl)) (.event .refl)),
   fun s t _ _ _ h => by
    apply Touches.next s t h rfl
    exact .ite .refl (.ite (.mapLichen .refl) (.event .refl)),
   fun _ _ _ _ => Runs.sweepStep.changesOnly,
   fun _ _ _ => Runs.fill.changesOnly,
   fun _ _ _ _ => Runs.scrub.changesOnly,
   fun _ _ _ => Runs.repair.changesOnly,
   fun _ _ => Runs.gapMaxExpiry.changesOnly,
   fun _ _ _ _ _ => Runs.bankRequest.changesOnly,
   fun _ _ => Runs.scrubTick.changesOnly,
   fun _ _ _ _ => Runs.rowGroupRebuild.changesOnly,
   fun _ _ _ _ => Runs.swatchMove.changesOnly,
   Runs.regulatorRefill.changesOnly,
   fun s t _ h => by
    apply Touches.next s t h rfl
    exact .ite .refl (.foldl (fun h => .eventIf (.setRo h)) .refl),
   fun _ _ _ => Runs.ddrPatrolRead.changesOnly,
   fun _ _ _ => Runs.nandTraining.changesOnly,
   fun _ _ => Runs.codewordRead.changesOnly,
   fun _ => Runs.nandProgramFail.changesOnly,
   fun _ => Runs.nandEraseFail.changesOnly,
   fun _ => Runs.dieFence.changesOnly,
   fun s t _ _ h => by
    apply Touches.next s t h rfl
    exact .ite .refl (.moveBlock .refl),
   fun s t _ _ h => by
    apply Touches.next s t h rfl
    exact .ite .refl (.moveBlock .refl),
   fun s t _ _ h => by
    apply Touches.next s t h rfl
    exact .ite .refl (.moveBlock .refl),
   fun s t _ _ h => by
    apply Touches.next s t h rfl
    exact .ite .refl (.moveBlock .refl),
   fun s t _ _ h => by
    apply Touches.next s t h rfl
    exact .ite .refl (.mapFelt (.ite (.updBlock (.setRo .refl)) (.setRo .refl))),
   fun s t h => by
    apply Touches.next s t h rfl
    exact .ite (.mapFelt .refl) .refl,
   fun s t h => by
    apply Touches.next s t h rfl
    exact .ite .refl (.mapFelt .refl),
   fun s t _ h => by
    apply Touches.next s t h rfl
    exact .foldl (fun h => .ite h (.eventIf (.setRo (.mapFelt h)))) .refl,
   fun s t h => by
    apply Touches.next s t h rfl
    exact .ite .refl (.mapFelt .refl)⟩

/-- Settles O57: each command's parts by its `Runs` lemma, its fields by its `Touches` lemma. -/
theorem updateAndModelFrames : Obligations.UpdateAndModelFrames :=
  ⟨fun _ => Runs.insert.changesOnly,
   fun _ => Runs.upsert.changesOnly,
   fun _ => Runs.delete.changesOnly,
   fun _ => Runs.attrSet.changesOnly,
   fun _ => Runs.embed.changesOnly,
   fun _ => Runs.embedInsert.changesOnly,
   fun _ => Runs.rerank.changesOnly,
   fun _ => Runs.epochFence.changesOnly,
   fun _ => Runs.epochPin.changesOnly,
   fun _ => Runs.epochUnpin.changesOnly,
   fun _ => Runs.indexCreate.changesOnly,
   fun _ => Runs.indexDescribe.changesOnly,
   fun _ => Runs.indexRetire.changesOnly,
   fun _ => Runs.indexRelocate.changesOnly,
   fun _ => Runs.bulkLoad.changesOnly,
   fun _ => Runs.seal.changesOnly,
   fun _ => Runs.histLoad.changesOnly,
   fun _ => Runs.linkSupply.changesOnly,
   fun _ => Runs.modelStore.changesOnly,
   fun _ => Runs.modelRemove.changesOnly,
   fun _ => Runs.modelGroup.changesOnly,
   fun _ => Runs.walkRoundReturn.changesOnly,
   fun s t h => by
    apply Touches.next s t h rfl
    exact .ite .refl (.mapEpoch (.mapShards (.mapRas (.mapRegs (.mapRas .refl))))),
   fun s t _ h => by
    apply Touches.next s t h rfl
    exact .ite (.mapEpoch .refl) .refl,
   Runs.epochStrobe.changesOnly,
   fun s t _ _ h => by
    apply Touches.next s t h rfl
    exact .ite .refl (.ite (.boundaryEnd (.mapEpoch .refl)) (.mapEpoch .refl)),
   Runs.ackTimeout.changesOnly,
   fun s t _ _ h => by
    apply Touches.next s t h rfl
    exact .ite .refl (.event (.mapEpoch .refl)),
   fun _ => Runs.fullWaitExpiry.changesOnly,
   fun s t _ h => by
    apply Touches.next s t h rfl
    exact .pageClose,
   fun _ _ _ => Runs.journalProgramDone.changesOnly,
   fun _ _ _ => Runs.insertWalkStart.changesOnly,
   fun _ _ _ => Runs.backLink.changesOnly,
   fun _ _ _ => Runs.vectorStoreWriteDone.changesOnly,
   fun _ _ => Runs.settlerSettle.changesOnly,
   fun _ _ => Runs.settlerFold.changesOnly,
   fun _ _ => Runs.repairWalk.changesOnly,
   fun s t _ _ h => by
    apply Touches.next s t h rfl
    exact .checkpointStart,
   fun _ _ => Runs.checkpointDone.changesOnly,
   fun _ _ => Runs.shardRebuild.changesOnly,
   fun _ => Runs.collective.changesOnly,
   fun _ _ _ => Runs.modelRefetchDone.changesOnly,
   fun _ _ => Runs.modelCopyDone.changesOnly,
   fun _ => Runs.batchClose.changesOnly,
   fun _ => Runs.streamRoundStart.changesOnly,
   fun _ _ => Runs.laneHalfRefill.changesOnly,
   fun _ => Runs.collectiveTimeout.changesOnly,
   Runs.firstStrobe.changesOnly⟩

/-- Settles O58: each command's parts by its `Runs` lemma, its fields by its `Touches` lemma. -/
theorem fabricAndOwnershipFrames : Obligations.FabricAndOwnershipFrames :=
  ⟨fun _ => Runs.trainingStateTimeout.changesOnly,
   fun s t _ h => by
    apply Touches.next s t h rfl
    exact .ite (.updPort .refl) .refl,
   fun _ _ _ => Runs.trainingFrame.changesOnly,
   fun _ _ => Runs.flitReceive.changesOnly,
   fun s t _ h => by
    apply Touches.next s t h rfl
    exact .ite (.updPort .refl) .refl,
   fun _ _ => Runs.laneFailing.changesOnly,
   fun s t _ _ h => by
    apply Touches.next s t h rfl
    exact .ite (.ite (.updPort (.updPort .refl)) (.updPort .refl)) .refl,
   fun s t _ h => by
    apply Touches.next s t h rfl
    exact .ite .mirroredDecoded .refl,
   fun _ => Runs.swapDone.changesOnly,
   fun s t _ h => by
    apply Touches.next s t h rfl
    exact .ite (.ite (.updPort (.updPort .refl)) (.updPort .refl)) .refl,
   fun _ => Runs.retargetDrainEnd.changesOnly,
   fun _ => Runs.portDown.changesOnly,
   fun _ => Runs.packetForward.changesOnly,
   fun _ => Runs.readRequest.changesOnly,
   fun _ => Runs.readRsp.changesOnly,
   fun _ => Runs.writeRequest.changesOnly,
   fun s t _ h => by
    apply Touches.next s t h rfl
    exact .onPacket .refl fun h => .ite (.mapTwill h) h,
   fun _ => Runs.scoreRequest.changesOnly,
   fun _ => Runs.scoreRsp.changesOnly,
   fun _ => Runs.expandRequest.changesOnly,
   fun _ => Runs.expandRsp.changesOnly,
   fun _ => Runs.queryMessage.changesOnly,
   fun _ => Runs.listMessage.changesOnly,
   fun _ => Runs.undelivered.changesOnly,
   fun _ => Runs.requestResendTimer.changesOnly,
   fun _ => Runs.requestTimeout.changesOnly,
   fun _ _ => Runs.listProgressTimer.changesOnly,
   fun _ => Runs.offer.changesOnly,
   fun _ => Runs.accept.changesOnly,
   fun _ => Runs.confirm.changesOnly,
   fun s t _ h => by
    apply Touches.next s t h rfl
    exact .onToken .refl fun h => .ite (.event (.mapOwn h)) h,
   fun _ => Runs.withdraw.changesOnly,
   fun _ => Runs.revoke.changesOnly,
   fun _ => Runs.revokeAck.changesOnly,
   fun _ => Runs.announce.changesOnly,
   fun _ => Runs.drainTimerExpiry.changesOnly,
   fun _ => Runs.tokenResend.changesOnly,
   fun _ => Runs.handoverTimeout.changesOnly,
   fun _ => Runs.anchorSilent.changesOnly,
   fun _ _ => Runs.heldResponseTimer.changesOnly,
   fun _ _ => Runs.holdDrainExpiry.changesOnly,
   fun s t _ h => by
    apply Touches.next s t h rfl
    exact .mapOwn .refl,
   fun s t _ h => by
    apply Touches.next s t h rfl
    exact .unresolvedRepeat,
   fun s t _ _ h => by
    apply Touches.next s t h rfl
    exact .ite (.updPort .refl) .refl,
   fun s t _ h => by
    apply Touches.next s t h rfl
    exact .ite (.updPort .refl) .refl,
   fun s t _ _ h => by
    apply Touches.next s t h rfl
    exact .mapTwill .refl⟩

/-- Settles O59: each command's parts by its `Runs` lemma, its fields by its `Touches` lemma. -/
theorem managementAndRasFrames : Obligations.ManagementAndRasFrames :=
  ⟨fun _ => Runs.keyProvision.changesOnly,
   fun _ => Runs.fuseProvision.changesOnly,
   fun _ => Runs.fuseRevoke.changesOnly,
   fun _ => Runs.fuseRaiseSvn.changesOnly,
   fun _ => Runs.attest.changesOnly,
   fun _ => Runs.certificate.changesOnly,
   fun _ => Runs.healthLog.changesOnly,
   fun _ => Runs.ledgerRead.changesOnly,
   fun s t _ h => by
    apply Touches.next s t h rfl
    exact .rekeySwatch,
   fun _ _ => Runs.drainComplete.changesOnly,
   fun _ _ => Runs.poisonedDataRead.changesOnly,
   Runs.persistentLogCopy.changesOnly,
   Runs.usneaRestart.changesOnly,
   fun _ => Runs.adminWaitTimeout.changesOnly,
   Runs.lockstepMismatch.changesOnly,
   Runs.usneaWatchdog.changesOnly,
   fun _ => Runs.componentFault.changesOnly,
   fun _ => Runs.netbootRetry.changesOnly,
   fun s t h => by
    apply Touches.next s t h rfl
    exact .ite (.raiseEvent (.mapUsnea (.norDirWrite .refl))) .refl,
   fun s t _ h => by
    apply Touches.next s t h rfl
    exact .ite (.foldl (fun h => .sensorReading h) .refl) .refl,
   fun _ => Runs.identify.changesOnly,
   fun _ => Runs.sensors.changesOnly,
   fun _ => Runs.logRead.changesOnly,
   fun _ => Runs.blackboxRead.changesOnly,
   fun _ => Runs.mgmtAttest.changesOnly,
   fun _ => Runs.mgmtCertificate.changesOnly,
   fun _ => Runs.mgmtLedgerRead.changesOnly,
   fun _ => Runs.rasCommand.changesOnly,
   fun _ => Runs.regWrite.changesOnly,
   fun _ => Runs.admin.changesOnly,
   fun _ => Runs.imageChunk.changesOnly,
   fun _ => Runs.imageStage.changesOnly,
   fun _ => Runs.fwChunk.changesOnly,
   fun _ => Runs.fwActivate.changesOnly,
   fun _ => Runs.norWrite.changesOnly,
   fun _ => Runs.sessionOpen.changesOnly,
   fun _ => Runs.sessionClose.changesOnly,
   fun _ => Runs.subscribe.changesOnly,
   fun _ => Runs.eventAck.changesOnly,
   fun s t _ _ h => by
    apply Touches.next s t h rfl
    exact .eventResend,
   fun _ => Runs.ptmInfo.changesOnly,
   fun s t _ h => by
    apply Touches.next s t h rfl
    exact .ite .refl (.mapUsnea .refl),
   fun s t _ h => by
    apply Touches.next s t h rfl
    exact .mapUsnea .refl,
   fun s t h => by
    apply Touches.next s t h rfl
    exact .ite (.mapUsnea .refl) .refl,
   fun _ _ => Runs.t5RekeyRewrite.changesOnly,
   fun _ _ => Runs.d2dLaneSwap.changesOnly,
   fun s t h => by
    apply Touches.next s t h rfl
    exact .ite .refl (.ite (.event (.mapUsnea .refl)) (.event (.mapUsnea .refl))),
   fun s t _ h => by
    apply Touches.next s t h rfl
    exact .mapUsnea .refl,
   fun s t _ _ h => by
    apply Touches.next s t h rfl
    exact .ite .refl (.mapUsnea .refl),
   fun s t _ h => by
    apply Touches.next s t h rfl
    exact .ite (.mapUsnea .refl) .refl,
   fun s t _ h => by
    apply Touches.next s t h rfl
    exact .ite (.mapUsnea .refl) .refl⟩

end Sys2Proof.Machine
end

section
/-! MEMORIES AND THE STEP. O52: a memory of lines read byte by byte, and what a store makes of it; O48 to O51: the step runs the front
command, and every command answers a next state, leaves the queue and keeps the memories canonical. -/
namespace Sys2Proof

section
variable {α : Type}

theorem Smap.get_del_ne {m : Smap α} (h : m.wf = true) {i j : Nat} (hij : j ≠ i) : (m.del i).get j = m.get j := by
  induction m with
  | nil => rfl
  | cons e t ih =>
    obtain ⟨k, v⟩ := e
    rcases Nat.lt_trichotomy i k with hlt | rfl | hgt
    · simp [Smap.del, Nat.ne_of_lt hlt, hlt]
    · by_cases hj : j < i
      · have hnone : Smap.get t j = none := Smap.get_eq_none_of_lt fun e he => Nat.lt_trans hj (Smap.wf_lt h e he)
        simp [Smap.del, Smap.get, hij, hj, hnone]
      · simp [Smap.del, Smap.get, hij, hj]
    · have hdel : Smap.del ((k, v) :: t) i = (k, v) :: Smap.del t i := by simp [Smap.del, Nat.ne_of_gt hgt, Nat.not_lt_of_gt hgt]
      rw [hdel, Smap.get, Smap.get, ih (Smap.wf_tail h)]

theorem Smap.getD_store [DecidableEq α] {m : Smap α} (h : m.wf = true) (d : α) (i j : Nat) (x : α) :
    (m.store d i x).getD j d = if j = i then x else m.getD j d := by
  split
  · next hj => rw [hj, Smap.getD_store_same h]
  · next hj =>
    by_cases hx : x = d
    · rw [Smap.store, if_pos hx, Smap.getD, Smap.get_del_ne h hj, Smap.getD]
    · exact Smap.getD_store_other d m i j x hx hj

end
end Sys2Proof
namespace Sys2Proof.Machine
open Sys2Proof
set_option Elab.async false

/-! ### Stores -/

theorem memWf_wf {α : Type} [DecidableEq α] {d : α} {m : Smap α} (h : memWf d m = true) : m.wf = true := by
  simp only [memWf, Bool.and_eq_true] at h
  exact h.1

theorem memWrite_getD {m : Smap Byte} (h : memWf 0 m = true) (a i : Nat) (b : List Byte) :
    (memWrite m a b).getD i 0 = if a ≤ i ∧ i < a + b.length then b.getD (i - a) 0 else m.getD i 0 := by
  induction b generalizing m a with
  | nil => simp [memWrite, show ¬ (a ≤ i ∧ i < a) by omega]
  | cons x l ih =>
    rw [memWrite, ih (memWf_store h a x), Smap.getD_store (memWf_wf h)]
    rcases Nat.lt_trichotomy i a with hlt | rfl | hgt
    · simp [show ¬ a + 1 ≤ i by omega, show ¬ a ≤ i by omega, show i ≠ a by omega]
    · simp
    · have hk : i - a = (i - (a + 1)) + 1 := by omega
      rw [hk, List.getD_cons_succ]
      simp only [List.length_cons, show i ≠ a by omega, if_false]
      exact if_congr (by omega) rfl rfl

theorem length_natLe (n v : Nat) : (natLe n v).length = n := by
  induction n generalizing v with
  | zero => rfl
  | succ n ih => rw [natLe, List.length_cons, ih]

/-- The byte of an address in a memory of 64-byte lines. -/
def lineByte (m : Smap Nat) (i : Nat) : Byte := (natLe 64 (m.getD (i / 64) 0)).getD (i % 64) 0

theorem tierRead_one (m : Smap Nat) (i : Nat) : tierRead m i 1 = [lineByte m i] := by
  have hlen : i % 64 < (natLe 64 (m.getD (i / 64) 0)).length := by rw [length_natLe]; omega
  have hone : ceilDiv (i % 64 + 1) 64 = 1 := by unfold ceilDiv; omega
  rw [tierRead, hone, lineByte, List.getD_eq_getElem _ _ hlen]
  simp [List.take_one_drop_eq_of_lt_length, hlen]

theorem natLe_leNat (b : List Byte) : natLe b.length (leNat b) = b := by
  induction b with
  | nil => rfl
  | cons x l ih =>
    have hx : x.toNat < 256 := x.isLt
    rw [leNat, List.length_cons, natLe, show (x.toNat + 256 * leNat l) / 256 = leNat l by omega, ih]
    congr 1
    apply BitVec.eq_of_toNat_eq
    rw [BitVec.toNat_ofNat]
    omega

theorem tierLines_getD {m : Smap Nat} (h : memWf 0 m = true) (l j : Nat) (bs : List (List Byte)) :
    (tierLines m l bs).getD j 0 = if l ≤ j ∧ j < l + bs.length then leNat (bs.getD (j - l) []) else m.getD j 0 := by
  induction bs generalizing m l with
  | nil => simp [tierLines, show ¬ (l ≤ j ∧ j < l) by omega]
  | cons x t ih =>
    rw [tierLines, ih (memWf_store h l (leNat x)), Smap.getD_store (memWf_wf h)]
    rcases Nat.lt_trichotomy j l with hlt | rfl | hgt
    · simp [show ¬ l + 1 ≤ j by omega, show ¬ l ≤ j by omega, show j ≠ l by omega]
    · simp
    · have hk : j - l = (j - (l + 1)) + 1 := by omega
      rw [hk, List.getD_cons_succ]
      simp only [List.length_cons, show j ≠ l by omega, if_false]
      exact if_congr (by omega) rfl rfl

theorem chunks_length (w n : Nat) (b : List Byte) : (chunks w n b).length = n := by
  induction n generalizing b with
  | zero => rfl
  | succ n ih => rw [chunks, List.length_cons, ih]

theorem chunks_getD {w n k : Nat} (b : List Byte) (h : k < n) : (chunks w n b).getD k [] = (b.drop (w * k)).take w := by
  induction n generalizing b k with
  | zero => omega
  | succ n ih =>
    cases k with
    | zero => rfl
    | succ k =>
      rw [chunks, List.getD_cons_succ, ih _ (by omega), List.drop_drop]
      congr 2
      ring

/-- Whole lines of bytes stored from a line on: the bytes of those lines. -/
theorem lineByte_tierLines {m : Smap Nat} (h : memWf 0 m = true) (l i n : Nat) (b : List Byte) (hb : b.length = 64 * n) :
    lineByte (tierLines m l (chunks 64 n b)) i =
      if 64 * l ≤ i ∧ i < 64 * l + b.length then b.getD (i - 64 * l) 0 else lineByte m i := by
  rw [lineByte, tierLines_getD h, chunks_length]
  by_cases hin : l ≤ i / 64 ∧ i / 64 < l + n
  · have hlen : ((b.drop (64 * (i / 64 - l))).take 64).length = 64 := by simp; omega
    rw [if_pos hin, if_pos (by omega), chunks_getD b (by omega)]
    nth_rw 1 [← hlen]
    rw [natLe_leNat, List.getD_eq_getElem?_getD, List.getD_eq_getElem?_getD, List.getElem?_take_of_lt (by omega), List.getElem?_drop]
    congr 2
    omega
  · rw [if_neg hin, if_neg (by omega), lineByte]

/-- The line of a store's end, behind the store. -/
def lineRest (m : Smap Nat) (e : Nat) : List Byte := if e % 64 = 0 then [] else (natLe 64 (m.getD (e / 64) 0)).drop (e % 64)

theorem lineRest_length (m : Smap Nat) (e : Nat) : (lineRest m e).length = (64 - e % 64) % 64 := by
  unfold lineRest
  split
  · next h0 => simp [h0]
  · simp [length_natLe]
    omega

theorem lineRest_getD {m : Smap Nat} {e i : Nat} (h : e ≤ i) (hi : i < e + (64 - e % 64) % 64) :
    (lineRest m e).getD (i - e) 0 = lineByte m i := by
  have hline : i / 64 = e / 64 := by omega
  rw [lineRest, if_neg (by omega), lineByte, hline, List.getD_eq_getElem?_getD, List.getD_eq_getElem?_getD, List.getElem?_drop]
  congr 2
  omega

theorem tierWrite_lineByte {m : Smap Nat} (h : memWf 0 m = true) (a i : Nat) (b : List Byte) :
    lineByte (tierWrite m a b) i = if a ≤ i ∧ i < a + b.length then b.getD (i - a) 0 else lineByte m i := by
  rw [tierWrite]
  by_cases he : b.isEmpty = true
  · obtain rfl := List.isEmpty_iff.1 he
    simp [show ¬ (a ≤ i ∧ i < a) by omega]
  rw [if_neg he]
  dsimp only
  rw [← lineRest]
  have hpre : ((natLe 64 (m.getD (a / 64) 0)).take (a % 64)).length = a % 64 := by
    simp [length_natLe]
    omega
  have hpost := lineRest_length m (a + b.length)
  rw [lineByte_tierLines h _ _ _ _ (by simp only [List.length_append, hpre, hpost]; omega)]
  simp only [List.length_append, hpre, hpost]
  rcases Nat.lt_or_ge i a with hbefore | hfrom
  · rw [if_neg (show ¬ (a ≤ i ∧ i < a + b.length) by omega)]
    split
    · have hline : i / 64 = a / 64 := by omega
      rw [List.append_assoc, List.getD_append _ _ _ _ (by omega), lineByte, hline, List.getD_eq_getElem?_getD,
        List.getElem?_take_of_lt (by omega), List.getD_eq_getElem?_getD]
      congr 2
      omega
    · rfl
  rcases Nat.lt_or_ge i (a + b.length) with hin | hafter
  · rw [if_pos (show a ≤ i ∧ i < a + b.length from ⟨hfrom, hin⟩), if_pos
        (by omega), List.append_assoc, List.getD_append_right _ _ _ _ (by omega),
      List.getD_append _ _ _ _ (by omega), hpre]
    congr 1
    omega
  · rw [if_neg (show ¬ (a ≤ i ∧ i < a + b.length) by omega)]
    split
    · rw [List.getD_append_right _ _ _ _ (by rw [List.length_append]; omega), List.length_append, hpre,
        show i - 64 * (a / 64) - (a % 64 + b.length) = i - (a + b.length) by omega]
      exact lineRest_getD hafter (by omega)
    · rfl

/-- Settles O52: a memory of lines is read byte by byte (`lineByte`), and a store is cut into lines. -/
theorem storesChangeTheirBytesOnly : Obligations.StoresChangeTheirBytesOnly := by
  refine ⟨fun m a i b h => ?_, fun m a i b h => memWrite_getD h a i b⟩
  rw [tierRead_one, tierRead_one, tierWrite_lineByte h]
  split
  · rfl
  · rfl

/-! ### The step, its queue and its memories -/

/-- Settles O48: `step` takes the front command off the queue; `tick` answers a next state. -/
theorem stepRunsFrontCommand : Obligations.StepRunsFrontCommand := by
  refine ⟨fun s c q h => ?_, fun s h => ?_, fun s => ⟨?_, rfl⟩⟩
  · unfold step
    rw [h]
  · unfold step
    rw [h]
  · unfold tickAlwaysOn
    split
    · rfl
    · rfl

theorem natLe_zero (n : Nat) : natLe n 0 = List.replicate n 0 := by
  induction n with
  | zero => rfl
  | succ n ih => rw [natLe, Nat.zero_div, ih, List.replicate_succ]; rfl

theorem tierRead_nil (a : Nat) : tierRead [] a 1 = [0] := by
  have hzero : lineByte [] a = (natLe 64 0).getD (a % 64) 0 := rfl
  rw [tierRead_one, hzero, natLe_zero, List.getD_eq_getElem _ _ (by rw [List.length_replicate]; omega), List.getElem_replicate]

/-- Settles O50: the reset memories are empty maps. -/
theorem resetMemoriesCanonical : Obligations.ResetMemoriesCanonical :=
  ⟨rfl, rfl, rfl, rfl, rfl, tierRead_nil, tierRead_nil⟩

/-- Every command answers a next state, leaves the queue and keeps the memories canonical. -/
theorem runs : ∀ c : Instr, Runs allButQueue c
  | .sqDoorbell .. => Runs.sqDoorbell.mono
  | .cqDoorbell .. => Runs.cqDoorbell.mono
  | .entryFetch .. => Runs.entryFetch.mono
  | .admissionSlot .. => Runs.admissionSlot.mono
  | .creditTick .. => Runs.creditTick.mono
  | .completionWrite .. => Runs.completionWrite.mono
  | .aggTimeExpiry .. => Runs.aggTimeExpiry.mono
  | .eventGapExpiry .. => Runs.eventGapExpiry.mono
  | .qpEnable .. => Runs.qpEnable.mono
  | .qpDisable .. => Runs.qpDisable.mono
  | .qpDrainEnd .. => Runs.qpDrainEnd.mono
  | .telemetrySample .. => Runs.telemetrySample.mono
  | .functionLevelReset .. => Runs.functionLevelReset.mono
  | .d3hotEntry .. => Runs.d3hotEntry.mono
  | .hostPortReset .. => Runs.hostPortReset.mono
  | .vfDisable .. => Runs.vfDisable.mono
  | .t4ReadTimeout .. => Runs.t4ReadTimeout.mono
  | .t4AccessError .. => Runs.t4AccessError.mono
  | .linkChange .. => Runs.linkChange.mono
  | .perstNDeassert .. => Runs.perstNDeassert.mono
  | .cxlMemRequest .. => Runs.cxlMemRequest.mono
  | .bar4Access .. => Runs.bar4Access.mono
  | .hdmDecoderCommit .. => Runs.hdmDecoderCommit.mono
  | .search .. => Runs.search.mono
  | .sweep .. => Runs.sweep.mono
  | .insert .. => Runs.insert.mono
  | .upsert .. => Runs.upsert.mono
  | .delete .. => Runs.delete.mono
  | .attrSet .. => Runs.attrSet.mono
  | .embed .. => Runs.embed.mono
  | .embedInsert .. => Runs.embedInsert.mono
  | .rerank .. => Runs.rerank.mono
  | .epochFence .. => Runs.epochFence.mono
  | .epochPin .. => Runs.epochPin.mono
  | .epochUnpin .. => Runs.epochUnpin.mono
  | .indexCreate .. => Runs.indexCreate.mono
  | .indexDescribe .. => Runs.indexDescribe.mono
  | .indexRetire .. => Runs.indexRetire.mono
  | .indexRelocate .. => Runs.indexRelocate.mono
  | .bulkLoad .. => Runs.bulkLoad.mono
  | .seal .. => Runs.seal.mono
  | .histLoad .. => Runs.histLoad.mono
  | .linkSupply .. => Runs.linkSupply.mono
  | .zoneOpen .. => Runs.zoneOpen.mono
  | .zoneAppend .. => Runs.zoneAppend.mono
  | .zoneFinish .. => Runs.zoneFinish.mono
  | .zoneReset .. => Runs.zoneReset.mono
  | .zoneReport .. => Runs.zoneReport.mono
  | .zoneResetErase .. => Runs.zoneResetErase.mono
  | .modelStore .. => Runs.modelStore.mono
  | .modelRemove .. => Runs.modelRemove.mono
  | .modelGroup .. => Runs.modelGroup.mono
  | .keyProvision .. => Runs.keyProvision.mono
  | .fuseProvision .. => Runs.fuseProvision.mono
  | .fuseRevoke .. => Runs.fuseRevoke.mono
  | .fuseRaiseSvn .. => Runs.fuseRaiseSvn.mono
  | .attest .. => Runs.attest.mono
  | .certificate .. => Runs.certificate.mono
  | .healthLog .. => Runs.healthLog.mono
  | .ledgerRead .. => Runs.ledgerRead.mono
  | .walkStart .. => Runs.walkStart.mono
  | .walkRoundReturn .. => Runs.walkRoundReturn.mono
  | .sweepBatchStart .. => Runs.sweepBatchStart.mono
  | .sweepResultRecord .. => Runs.sweepResultRecord.mono
  | .listEntryArrive .. => Runs.listEntryArrive.mono
  | .rescoreReadDone .. => Runs.rescoreReadDone.mono
  | .disagreeCrcCheck .. => Runs.disagreeCrcCheck.mono
  | .deadlineExpiry .. => Runs.deadlineExpiry.mono
  | .deadlineGraceExpiry .. => Runs.deadlineGraceExpiry.mono
  | .gather .. => Runs.gather.mono
  | .slotLoad .. => Runs.slotLoad.mono
  | .slotThresh .. => Runs.slotThresh.mono
  | .slotFree .. => Runs.slotFree.mono
  | .sweepStep .. => Runs.sweepStep.mono
  | .fill .. => Runs.fill.mono
  | .scrub .. => Runs.scrub.mono
  | .repair .. => Runs.repair.mono
  | .sweepStepEnd .. => Runs.sweepStepEnd.mono
  | .gapMaxExpiry .. => Runs.gapMaxExpiry.mono
  | .bankRequest .. => Runs.bankRequest.mono
  | .scrubTick .. => Runs.scrubTick.mono
  | .rowGroupRebuild .. => Runs.rowGroupRebuild.mono
  | .prepare .. => Runs.prepare.mono
  | .domainReady .. => Runs.domainReady.mono
  | .epochStrobe .. => Runs.epochStrobe.mono
  | .strobeAck .. => Runs.strobeAck.mono
  | .ackTimeout .. => Runs.ackTimeout.mono
  | .partitionScrubStep .. => Runs.partitionScrubStep.mono
  | .pinExpiry .. => Runs.pinExpiry.mono
  | .fullWaitExpiry .. => Runs.fullWaitExpiry.mono
  | .journalPageClose .. => Runs.journalPageClose.mono
  | .journalProgramDone .. => Runs.journalProgramDone.mono
  | .insertWalkStart .. => Runs.insertWalkStart.mono
  | .backLink .. => Runs.backLink.mono
  | .vectorStoreWriteDone .. => Runs.vectorStoreWriteDone.mono
  | .settlerSettle .. => Runs.settlerSettle.mono
  | .settlerFold .. => Runs.settlerFold.mono
  | .repairWalk .. => Runs.repairWalk.mono
  | .checkpointStart .. => Runs.checkpointStart.mono
  | .checkpointDone .. => Runs.checkpointDone.mono
  | .shardRebuild .. => Runs.shardRebuild.mono
  | .imgStage .. => Runs.imgStage.mono
  | .imgAbort .. => Runs.imgAbort.mono
  | .imageVerifyDone .. => Runs.imageVerifyDone.mono
  | .registerWrite .. => Runs.registerWrite.mono
  | .sqcWrite .. => Runs.sqcWrite.mono
  | .indDataAccess .. => Runs.indDataAccess.mono
  | .loRegisterRead .. => Runs.loRegisterRead.mono
  | .updStrobe .. => Runs.updStrobe.mono
  | .updateStrobeDone .. => Runs.updateStrobeDone.mono
  | .parityScan .. => Runs.parityScan.mono
  | .trainingStateTimeout .. => Runs.trainingStateTimeout.mono
  | .downRetry .. => Runs.downRetry.mono
  | .trainingFrame .. => Runs.trainingFrame.mono
  | .flitReceive .. => Runs.flitReceive.mono
  | .nakHoldExpiry .. => Runs.nakHoldExpiry.mono
  | .laneFailing .. => Runs.laneFailing.mono
  | .swapReq .. => Runs.swapReq.mono
  | .mirroredGroupsDecoded .. => Runs.mirroredGroupsDecoded.mono
  | .swapDone .. => Runs.swapDone.mono
  | .retrainReq .. => Runs.retrainReq.mono
  | .portRetrain .. => Runs.portRetrain.mono
  | .portRetarget .. => Runs.portRetarget.mono
  | .portDisable .. => Runs.portDisable.mono
  | .portSwap .. => Runs.portSwap.mono
  | .retargetDrainEnd .. => Runs.retargetDrainEnd.mono
  | .portDown .. => Runs.portDown.mono
  | .packetForward .. => Runs.packetForward.mono
  | .readRequest .. => Runs.readRequest.mono
  | .readRsp .. => Runs.readRsp.mono
  | .writeRequest .. => Runs.writeRequest.mono
  | .writeAck .. => Runs.writeAck.mono
  | .scoreRequest .. => Runs.scoreRequest.mono
  | .scoreRsp .. => Runs.scoreRsp.mono
  | .expandRequest .. => Runs.expandRequest.mono
  | .expandRsp .. => Runs.expandRsp.mono
  | .queryMessage .. => Runs.queryMessage.mono
  | .listMessage .. => Runs.listMessage.mono
  | .collective .. => Runs.collective.mono
  | .undelivered .. => Runs.undelivered.mono
  | .requestResendTimer .. => Runs.requestResendTimer.mono
  | .requestTimeout .. => Runs.requestTimeout.mono
  | .listProgressTimer .. => Runs.listProgressTimer.mono
  | .mapApply .. => Runs.mapApply.mono
  | .claim .. => Runs.claim.mono
  | .tset .. => Runs.tset.mono
  | .ownAbort .. => Runs.ownAbort.mono
  | .offer .. => Runs.offer.mono
  | .accept .. => Runs.accept.mono
  | .confirm .. => Runs.confirm.mono
  | .taken .. => Runs.taken.mono
  | .withdraw .. => Runs.withdraw.mono
  | .revoke .. => Runs.revoke.mono
  | .revokeAck .. => Runs.revokeAck.mono
  | .announce .. => Runs.announce.mono
  | .drainTimerExpiry .. => Runs.drainTimerExpiry.mono
  | .tokenResend .. => Runs.tokenResend.mono
  | .handoverTimeout .. => Runs.handoverTimeout.mono
  | .anchorSilent .. => Runs.anchorSilent.mono
  | .heldResponseTimer .. => Runs.heldResponseTimer.mono
  | .holdDrainExpiry .. => Runs.holdDrainExpiry.mono
  | .unreachableExpiry .. => Runs.unreachableExpiry.mono
  | .rekeySwatch .. => Runs.rekeySwatch.mono
  | .rasDrain .. => Runs.rasDrain.mono
  | .rasFence .. => Runs.rasFence.mono
  | .rasRestore .. => Runs.rasRestore.mono
  | .rasRetire .. => Runs.rasRetire.mono
  | .unitFault .. => Runs.unitFault.mono
  | .drainComplete .. => Runs.drainComplete.mono
  | .returnWorkDone .. => Runs.returnWorkDone.mono
  | .poisonedDataRead .. => Runs.poisonedDataRead.mono
  | .modelRefetchDone .. => Runs.modelRefetchDone.mono
  | .persistentLogCopy .. => Runs.persistentLogCopy.mono
  | .usneaRestart .. => Runs.usneaRestart.mono
  | .adminWaitTimeout .. => Runs.adminWaitTimeout.mono
  | .swatchMove .. => Runs.swatchMove.mono
  | .regulatorRefill .. => Runs.regulatorRefill.mono
  | .ddrTraining .. => Runs.ddrTraining.mono
  | .dqsOscTick .. => Runs.dqsOscTick.mono
  | .ddrPatrolRead .. => Runs.ddrPatrolRead.mono
  | .nandTraining .. => Runs.nandTraining.mono
  | .codewordRead .. => Runs.codewordRead.mono
  | .nandProgramFail .. => Runs.nandProgramFail.mono
  | .nandEraseFail .. => Runs.nandEraseFail.mono
  | .dieFence .. => Runs.dieFence.mono
  | .garbageCollection .. => Runs.garbageCollection.mono
  | .wearLevelMove .. => Runs.wearLevelMove.mono
  | .blockRefresh .. => Runs.blockRefresh.mono
  | .fastCellFold .. => Runs.fastCellFold.mono
  | .flashPatrol .. => Runs.flashPatrol.mono
  | .mapCheckpoint .. => Runs.mapCheckpoint.mono
  | .mapRebuild .. => Runs.mapRebuild.mono
  | .dieTempRead .. => Runs.dieTempRead.mono
  | .healthRecordWrite .. => Runs.healthRecordWrite.mono
  | .modelCopyDone .. => Runs.modelCopyDone.mono
  | .batchClose .. => Runs.batchClose.mono
  | .streamRoundStart .. => Runs.streamRoundStart.mono
  | .laneHalfRefill .. => Runs.laneHalfRefill.mono
  | .collectiveTimeout .. => Runs.collectiveTimeout.mono
  | .domainIdleGate .. => Runs.domainIdleGate.mono
  | .domainWake .. => Runs.domainWake.mono
  | .powerEstimate .. => Runs.powerEstimate.mono
  | .powerCalibrate .. => Runs.powerCalibrate.mono
  | .tempSample .. => Runs.tempSample.mono
  | .overvoltage .. => Runs.overvoltage.mono
  | .voltageDroop .. => Runs.voltageDroop.mono
  | .regulatorPoll .. => Runs.regulatorPoll.mono
  | .warmReset .. => Runs.warmReset.mono
  | .coldReset .. => Runs.coldReset.mono
  | .aonPwrokRise .. => Runs.aonPwrokRise.mono
  | .mainPwrokRise .. => Runs.mainPwrokRise.mono
  | .mainPwrokFall .. => Runs.mainPwrokFall.mono
  | .clockLoss .. => Runs.clockLoss.mono
  | .rtcOscStop .. => Runs.rtcOscStop.mono
  | .startupStage .. => Runs.startupStage.mono
  | .firstStrobe .. => Runs.firstStrobe.mono
  | .lockstepMismatch .. => Runs.lockstepMismatch.mono
  | .usneaWatchdog .. => Runs.usneaWatchdog.mono
  | .componentFault .. => Runs.componentFault.mono
  | .netbootRetry .. => Runs.netbootRetry.mono
  | .fwTrialConfirm .. => Runs.fwTrialConfirm.mono
  | .sensorRead .. => Runs.sensorRead.mono
  | .mbxDoorbell .. => Runs.mbxDoorbell.mono
  | .identify .. => Runs.identify.mono
  | .sensors .. => Runs.sensors.mono
  | .logRead .. => Runs.logRead.mono
  | .blackboxRead .. => Runs.blackboxRead.mono
  | .mgmtAttest .. => Runs.mgmtAttest.mono
  | .mgmtCertificate .. => Runs.mgmtCertificate.mono
  | .mgmtLedgerRead .. => Runs.mgmtLedgerRead.mono
  | .rasCommand .. => Runs.rasCommand.mono
  | .regWrite .. => Runs.regWrite.mono
  | .admin .. => Runs.admin.mono
  | .imageChunk .. => Runs.imageChunk.mono
  | .imageStage .. => Runs.imageStage.mono
  | .fwChunk .. => Runs.fwChunk.mono
  | .fwActivate .. => Runs.fwActivate.mono
  | .norWrite .. => Runs.norWrite.mono
  | .sessionOpen .. => Runs.sessionOpen.mono
  | .sessionClose .. => Runs.sessionClose.mono
  | .subscribe .. => Runs.subscribe.mono
  | .eventAck .. => Runs.eventAck.mono
  | .eventResend .. => Runs.eventResend.mono
  | .unresolvedEventRepeat .. => Runs.unresolvedEventRepeat.mono
  | .ptmInfo .. => Runs.ptmInfo.mono
  | .ptmPublish .. => Runs.ptmPublish.mono
  | .sessionIdleExpiry .. => Runs.sessionIdleExpiry.mono
  | .receiveAreaTimeout .. => Runs.receiveAreaTimeout.mono
  | .signalDetected .. => Runs.signalDetected.mono
  | .receiverAdaptationDone .. => Runs.receiverAdaptationDone.mono
  | .msixVectorUnmask .. => Runs.msixVectorUnmask.mono
  | .vfEnable .. => Runs.vfEnable.mono
  | .rtcEdge .. => Runs.rtcEdge.mono
  | .alwaysOnClockReturn .. => Runs.alwaysOnClockReturn.mono
  | .t5RekeyRewrite .. => Runs.t5RekeyRewrite.mono
  | .writeRecordExpiry .. => Runs.writeRecordExpiry.mono
  | .d2dLaneSwap .. => Runs.d2dLaneSwap.mono
  | .usneaRestartComplete .. => Runs.usneaRestartComplete.mono
  | .mgmtLinkChange .. => Runs.mgmtLinkChange.mono
  | .mctpControlMessage .. => Runs.mctpControlMessage.mono
  | .i3cDynamicAddress .. => Runs.i3cDynamicAddress.mono
  | .jtagInstruction .. => Runs.jtagInstruction.mono

/-- Settles O49: every command's meaning runs within all parts but the queue (`runs`). -/
theorem execAnswersAndKeepsTheQueue : Obligations.ExecAnswersAndKeepsTheQueue := by
  intro c s
  obtain ⟨t, ht, hf⟩ := runs c s
  exact ⟨t, ht, hf.same .pending (by decide)⟩

/-- Settles O51: every meaning of a command writes its memories through the stores of `Smap`, which keep the canonical form. -/
theorem stepKeepsMemoriesCanonical : Obligations.StepKeepsMemoriesCanonical := by
  intro s t hs ht
  unfold step at ht
  split at ht
  · obtain rfl : tickAlwaysOn s = t := Host.Outcome.next.inj ht
    exact (Frame.tickAlwaysOn (ps := allButQueue) .refl).canon hs
  · next c rest _ =>
    obtain ⟨u, hu, hf⟩ := runs c { s with pending := rest }
    obtain rfl : u = t := Host.Outcome.next.inj (hu.symm.trans ht)
    exact hf.canon hs

end Sys2Proof.Machine
end

section
/-! PROOF. BATCHES, POWER AND START-UP. O47: the status of a batch; O1 to O4: the rows of the power unit, its policy, the resets and
the stages. -/
namespace Sys2Proof.Machine
open Sys2Proof
set_option Elab.async false

/-! ### The status of a batch (R555) -/

theorem batchStatus_of_find_none {outs : List EntryOut} (h : ∀ o ∈ outs, o.status = 0) : batchStatus outs = 0 := by
  have hnone : outs.find? (fun o => o.status != 0) = none := List.find?_eq_none.2 fun o ho => by simp [h o ho]
  rw [batchStatus, hnone]
  rfl

theorem find?_first_failure {a b : List EntryOut} {o : EntryOut} (ha : ∀ p ∈ a, p.status = 0) (ho : o.status ≠ 0) :
    (a ++ o :: b).find? (fun o => o.status != 0) = some o := by
  rw [List.find?_append, List.find?_eq_none.2 fun p hp => by simp [ha p hp], List.find?_cons_of_pos (by simp [ho])]
  rfl

theorem batchStatus_first_failure {a b : List EntryOut} {o : EntryOut} (ha : ∀ p ∈ a, p.status = 0) (ho : o.status ≠ 0) :
    batchStatus (a ++ o :: b) =
      if o.status = stFaultedNone ∧ ∃ p ∈ a ++ o :: b, p.status = 0 then stFaultedPartial else o.status := by
  rw [batchStatus, find?_first_failure ha ho]
  simp only [List.any_eq_true, beq_iff_eq]

theorem endBatch_done {s : State} {n : Nat} {c : Cmd} (hget : s.host.cmds.get n = some c) (hrun : c.phase = .running) (hnext : c.total ≤ c.next)
    (houts : c.total ≤ c.outs.length) (hopen : c.outs.any EntryOut.open_ = false) :
    ∃ d, (endBatch s n).host.cmds.get n = some d ∧ d.phase = .done ∧ d.outs = c.outs ∧ d.status = batchStatus c.outs := by
  have hput (b : List Byte) : (putResult s n 0 b).host.cmds.get n = some { c with result := c.result ++ [(0, b)] } := by
    rw [putResult, updCmd_get, hget]
    rfl
  simp only [endBatch, hget]
  rw [if_pos ⟨hrun, hnext, houts, by simp [hopen]⟩, finish_get _ _ _ _ _ _ (hput _) (by simp [hrun])]
  exact ⟨_, rfl, rfl, rfl, rfl⟩

/-- Settles O47: the last entry's end finishes the command with `batchStatus`, which finds the first entry that is not OK. -/
theorem batchStatusIsTheFirstFailure : Obligations.BatchStatusIsTheFirstFailure := by
  refine ⟨fun s n c hget hrun hnext houts hopen => endBatch_done hget hrun hnext houts hopen, fun outs => batchStatus_of_find_none, fun a b o ha ho => ?_⟩
  rw [batchStatus_first_failure ha ho]
  constructor
  · intro hfault hok
    exact if_pos ⟨hfault, hok⟩
  · rintro (hother | hnone)
    · exact if_neg fun h => hother h.1
    · exact if_neg fun ⟨_, p, hp, hzero⟩ => hnone p hp hzero

/-! ### The power unit (R640 to R642, R648, R649) -/

theorem dom_setDom_same {s : State} {d : Nat} {f : Domain → Domain} (hf : f (s.dom d) ≠ Domain.initial) :
    (s.setDom d f).dom d = f (s.dom d) :=
  Smap.getD_store_of_ne Domain.initial _ d _ hf

theorem dom_setDom_other {s : State} {d e : Nat} {f : Domain → Domain} (hf : f (s.dom d) ≠ Domain.initial) (hne : e ≠ d) :
    (s.setDom d f).dom e = s.dom e :=
  Smap.getD_store_other Domain.initial _ d e _ hf hne

theorem contains_addSet (l : List Nat) (x : Nat) : (addSet l x).contains x = true := by
  unfold addSet
  split
  · assumption
  · simp

theorem contains_delSet (l : List Nat) (x : Nat) : (delSet l x).contains x = false := by
  simp [delSet]

theorem domainGate_idle {s : State} {d : Nat} (hmay : mayGate d = true) (hrun : (s.dom d).st = .run) (hidle : s.fld .pwrDIdle d 0 16 ≠ 0)
    (hcfg : s.fld .pwrCfg 0 1 1 = 1) (hbusy : domBusy s d = false) (hblock : s.blockOut 16 = false) :
    domainGate s d = s.setDom d fun x => { x with st := .gated } :=
  if_pos ⟨hmay, hrun, hidle, hcfg, by simp [hbusy], by simp [hblock]⟩

theorem droop_capped {s : State} {d f : Nat} (hd : d < 235) (hf : f < domMax d) :
    droop s d f = s.setDom d fun x => { x with railCap := some f } := by
  rw [droop, if_neg (by omega), if_neg (by omega)]

theorem droop_uncapped {s : State} {d f : Nat} (hd : d < 235) (hf : f ≥ domMax d) :
    droop s d f = s.setDom d fun x => { x with railCap := none } := by
  rw [droop, if_neg (by omega), if_pos hf]

/-- Settles O1: each row's guard holds, and a domain is read back after its change. -/
theorem powerRowsComplete : Obligations.PowerRowsComplete := by
  refine ⟨fun s hheld => ?_, fun s => ?_, fun s d hmay hrun hidle hcfg hbusy hblock => ?_, fun s d hd hgated => ?_, fun s m hm => ?_,
    fun s m hm => ?_, fun s d f hd hf => ?_, fun s d f hd hf => ?_⟩
  · exact congrArg Host.Outcome.next (if_neg (by simp [hheld]))
  · exact ⟨_, rfl, by simp, hasEvent_event _ _ _ (by decide)⟩
  · have hgate : ({ s.dom d with st := .gated } : Domain) ≠ Domain.initial := fun h => by cases congrArg Domain.st h
    exact ⟨_, congrArg Host.Outcome.next (domainGate_idle hmay hrun hidle hcfg hbusy hblock), congrArg Domain.st (dom_setDom_same hgate),
      fun e hne => dom_setDom_other hgate hne⟩
  · exact congrArg Host.Outcome.next (if_pos ⟨hd, hgated⟩)
  · have hover : overvoltage s m true = (s.mapPower fun p => { p with overvolt := addSet p.overvolt m }).event .pwrEvent 0 2 := by
      rw [overvoltage, if_neg (by omega), if_pos rfl]
    exact ⟨_, congrArg Host.Outcome.next hover, by rw [event_power]; exact contains_addSet _ _, hasEvent_event _ _ _ (by decide)⟩
  · have hback : overvoltage s m false = s.mapPower fun p => { p with overvolt := delSet p.overvolt m } := by
      rw [overvoltage, if_neg (by omega), if_neg (by simp)]
    exact ⟨_, congrArg Host.Outcome.next hback, contains_delSet _ _, rfl⟩
  · have hcap : ({ s.dom d with railCap := some f } : Domain) ≠ Domain.initial := fun h => by cases congrArg Domain.railCap h
    exact ⟨_, congrArg Host.Outcome.next (droop_capped hd hf), congrArg Domain.railCap (dom_setDom_same hcap),
      fun e hne => dom_setDom_other hcap hne⟩
  · exact congrArg Host.Outcome.next (droop_uncapped hd hf)

/-! ### The power policy (R645, R646, R650, R651, R653) -/

theorem Frame.power_eq {ps : List Part} {s t : State} (h : Frame ps s t) (hn : Part.power ∉ ps := by decide) : t.power = s.power :=
  h.same .power hn

theorem powerEstimate_over {s : State} {w : List (Nat × Nat)} (hhost : hostPolicy s = false)
    (hover : 4 * (w.foldl (fun n e => n + e.2) 0 * s.power.scale / 1024) > 5 * limitHeld s) :
    powerEstimate s w = (lowerStep s).eventIf (!powerThrottled s && powerThrottled (lowerStep s)) .pwrEvent 0 0 := by
  have hnone : overBudget s w = [] := if_pos (by simp [hhost])
  simp only [powerEstimate, throttle, hnone, cutTo, List.foldl_nil, if_pos hover]

/-- What no step of a clock changes: the calibration, the temperatures as sampled and the trip. -/
def readings (s : State) : Nat × Nat × Nat × List Nat × Smap Nat × Bool :=
  (s.power.scale, s.power.powerW, s.power.samples, s.power.hot, s.power.tripCount, s.power.thermtrip)

@[simp] theorem readings_setDom (s : State) (d : Nat) (f : Domain → Domain) : readings (s.setDom d f) = readings s := (rfl)

@[simp] theorem readings_eventIf (s : State) (c : Bool) (r : Reg) (u b : Nat) : readings (s.eventIf c r u b) = readings s := by
  simp [readings]

@[simp] theorem readings_cutTo (s : State) (floor : Nat → Nat) (l : List Nat) : readings (cutTo s floor l) = readings s :=
  foldl_keeps readings (fun t d => by dsimp only; split <;> simp) l s

@[simp] theorem readings_raiseBy (s : State) (l : List Nat) : readings (raiseBy s l) = readings s :=
  foldl_keeps readings (fun t d => by simp) l s

@[simp] theorem readings_lowerStep (s : State) : readings (lowerStep s) = readings s := by
  unfold lowerStep
  split <;> simp

@[simp] theorem readings_raiseStep (s : State) : readings (raiseStep s) = readings s := by
  simp only [raiseStep]
  split
  · simp
  · split <;> simp

theorem readings_throttle {s : State} {f : State → State} (hf : readings (f s) = readings s) : readings (throttle s f) = readings s :=
  (readings_eventIf _ _ _ _ _).trans hf

/-- The state in which the calibration of a mean that is not zero lowers or raises the clocks. -/
def calibrated (s : State) (m i : Nat) : State :=
  s.mapPower fun p => { p with scale := i * 1024 / m, powerW := min 1023 (m * (i * 1024 / m) / 1024) }

theorem powerCalibrate_readings {m : Nat} (hm : m ≠ 0) (s : State) (i : Nat) :
    readings (powerCalibrate s m i) = readings (calibrated s m i) := by
  simp only [powerCalibrate, if_neg hm]
  refine (readings_throttle ?_).trans rfl
  split
  · exact readings_lowerStep _
  · split
    · exact readings_raiseStep _
    · rfl

/-- Sensors that are hot after a sample. -/
def hotSensors (temps : List Int) (was : List Nat) : List Nat :=
  ((temps.take 96).zipIdx.filter fun t => decide (t.1 ≥ 1680) || (was.contains t.2 && decide (t.1 ≥ 1648))).map (·.2)

/-- Samples in a row at 115 degrees or more, of each sensor. -/
def tripCounts (temps : List Int) (m : Smap Nat) : Smap Nat :=
  (temps.take 96).zipIdx.foldl (fun m t => m.store 0 t.2 (if t.1 ≥ 1840 then min 3 (m.getD t.2 0 + 1) else 0)) m

theorem trip_power (s : State) : (trip s).power =
    { s.power with thermtrip := true, mainEn := false, mainOk := false, stopped := true, tripAt := some (rtc s) } :=
  (Frame.logAdd (ps := [.regs, .host, .ras, .usnea]) (Frame.faultRecord .refl)).power_eq

theorem readings_trip (s : State) : readings (trip s) =
    (s.power.scale, s.power.powerW, s.power.samples, s.power.hot, s.power.tripCount, true) := by
  rw [readings, trip_power]

/-- A sample counts and lists the sensors; then the third hot sample in a row trips. -/
theorem tempSample_split (s : State) (temps : List Int) : ∃ t,
    readings t = (s.power.scale, s.power.powerW, s.power.samples + 1, hotSensors temps s.power.hot, tripCounts temps s.power.tripCount,
      s.power.thermtrip) ∧
    tempSample s temps = if !t.power.thermtrip ∧ (t.power.tripCount.any fun e => e.2 == 3) then trip t else t := by
  refine ⟨_, ?_, rfl⟩
  have hcool (c : Prop) [Decidable c] (l : List Nat) (t : State) :
      readings (if c then l.foldl (fun s d => s.setDom d fun x => { x with cutTemp := x.cutTemp - 25 }) t else t) = readings t := by
    split
    · exact foldl_keeps readings (fun t d => by simp) l t
    · rfl
  have hhold (c : Prop) [Decidable c] (l : List Nat) (t : State) :
      readings (if c then l.foldl (fun s d => if domMhz s d > 100 then
        s.setDom d fun x => { x with cutTemp := x.cutTemp + min 100 (domMhz s d - 100) } else s) t else t) = readings t := by
    split
    · exact foldl_keeps readings (fun t d => by split <;> simp) l t
    · rfl
  exact (hcool _ _ _).trans ((hhold _ _ _).trans (readings_eventIf _ _ _ _ _))

theorem tempSample_sampled (s : State) (temps : List Int) :
    (tempSample s temps).power.samples = s.power.samples + 1 ∧ (tempSample s temps).power.hot = hotSensors temps s.power.hot := by
  obtain ⟨t, hread, htemp⟩ := tempSample_split s temps
  simp only [readings, Prod.mk.injEq] at hread
  obtain ⟨-, -, hsamples, hhot, -⟩ := hread
  rw [htemp]
  split
  · rw [trip_power]
    exact ⟨hsamples, hhot⟩
  · exact ⟨hsamples, hhot⟩

theorem hotSensors_contains {temps : List Int} {was : List Nat} {k : Nat} {v : Int} (hv : (temps.take 96)[k]? = some v) :
    (hotSensors temps was).contains k = (decide (v ≥ 1680) || (was.contains k && decide (v ≥ 1648))) := by
  rw [Bool.eq_iff_iff, List.contains_iff_mem, hotSensors, List.mem_map]
  constructor
  · rintro ⟨⟨x, j⟩, hmem, rfl⟩
    obtain ⟨hin, hhot⟩ := List.mem_filter.1 hmem
    have hx : v = x := Option.some.inj (hv.symm.trans (List.mem_zipIdx_iff_getElem?.1 hin))
    exact hx ▸ hhot
  · exact fun hhot => ⟨(v, k), List.mem_filter.2 ⟨List.mem_zipIdx_iff_getElem?.2 hv, hhot⟩, rfl⟩

theorem tempSample_trips {s : State} {v : Int} (hfresh : s.power.thermtrip = false) (hcount : s.power.tripCount = [(0, 2)]) (hv : v ≥ 1840) :
    ∃ t, tempSample s [v] = trip t := by
  obtain ⟨t, hread, htemp⟩ := tempSample_split s [v]
  simp only [readings, Prod.mk.injEq] at hread
  obtain ⟨-, -, -, -, hcounts, htrip⟩ := hread
  have hthree : tripCounts [v] [(0, 2)] = [(0, 3)] := by
    simp [tripCounts, hv, Smap.getD, Smap.get, Smap.store, Smap.put]
  refine ⟨t, htemp.trans (if_pos ⟨by rw [htrip, hfresh]; rfl, ?_⟩)⟩
  rw [hcounts, hcount, hthree]
  rfl

theorem regulatorPoll_badRegs {s : State} (hup : usneaUp s = true) (r : List (Option (List Nat))) :
    (regulatorPoll s r).power.badRegs = ((r.take 8).zipIdx.filter fun x => regulatorBad x.1).map (·.2) := by
  rw [regulatorPoll, if_neg (by simp [hup]), eventIf_power]
  rfl

/-- Settles O2: no step of a clock changes the readings, and the trip follows the sample. -/
theorem powerPolicyCompletes : Obligations.PowerPolicyCompletes := by
  refine ⟨fun s w hhost hover => congrArg Host.Outcome.next (powerEstimate_over hhost hover), fun s m i hm => ?_, fun s l => ?_,
    fun s v hfresh hcount hv => ?_, fun s r hup => ⟨_, rfl, regulatorPoll_badRegs hup r⟩⟩
  · have hread := powerCalibrate_readings hm s i
    simp only [readings, Prod.mk.injEq] at hread
    obtain ⟨hscale, hpower, -⟩ := hread
    exact ⟨_, rfl, hscale, hpower⟩
  · obtain ⟨hsamples, hhot⟩ := tempSample_sampled s l
    refine ⟨_, rfl, hsamples, fun k v hk => ?_⟩
    rw [hhot, hotSensors_contains hk]
    constructor
    · intro hv
      simp [hv]
    · intro hv
      simp [show ¬ v ≥ 1680 by omega, show ¬ v ≥ 1648 by omega]
  · obtain ⟨t, ht⟩ := tempSample_trips hfresh hcount hv
    refine ⟨trip t, congrArg Host.Outcome.next ht, ?_⟩
    rw [trip_power]
    exact ⟨rfl, rfl, rfl⟩

/-! ### Resets (R640, R654, R670) -/

/-- The state's parts that a reset is judged by. -/
def resetView (s : State) : PowerState × Smap RegCopy × Smap RegCopy × MemState × Lichen × UsneaState × Smap Byte :=
  (s.power, s.regs.force, s.regs.shadow, s.mem, s.lichen, s.usnea, s.host.mem)

theorem resetView_event (s : State) (r : Reg) (u b : Nat) : resetView (s.event r u b) = resetView s := by
  obtain ⟨a, c, h⟩ := event_eq s r u b
  rw [h]
  rfl

theorem resetView_tripReport (s : State) (c : Bool) : resetView (tripReport s c) = resetView s := by
  cases c
  · rfl
  · exact resetView_event s _ _ _

/-- What a reset leaves: the memories and the register copies are lost, host memory stays. -/
def leftByReset (s t : State) (p : PowerState) (box : List (List Byte)) : Prop :=
  t.power = p ∧ t.regs.force = [] ∧ t.regs.shadow = [] ∧ t.mem.t1 = [] ∧ t.lichen.t2 = [] ∧ t.mem.t3 = [] ∧ t.usnea.blackbox = box ∧
    t.host.mem = s.host.mem

theorem leftByReset_of_view {s t u : State} {p : PowerState} {box : List (List Byte)} (hview : resetView t = resetView u)
    (h : leftByReset s u p box) : leftByReset s t p box := by
  simp only [resetView, Prod.mk.injEq] at hview
  obtain ⟨hpower, hforce, hshadow, hmem, hlichen, husnea, hhost⟩ := hview
  rw [leftByReset, hpower, hforce, hshadow, hmem, hlichen, husnea, hhost]
  exact h

theorem warmReset_leaves {s : State} (hheld : s.power.held = false) (hfresh : freshTrip s = false) :
    ∃ p, leftByReset s (warmReset s) p s.usnea.blackbox ∧ p.stage = .rom ∧ p.rtcBase = s.power.rtcBase ∧ p.rtcCycles = s.power.rtcCycles ∧
      p.oscStopped = s.power.oscStopped := by
  have hrun : ¬ (s.power.held = true ∨ freshTrip s = true) := by simp [hheld, hfresh]
  rw [warmReset, if_neg hrun]
  exact ⟨_, leftByReset_of_view (resetView_tripReport _ _) ⟨rfl, rfl, rfl, rfl, rfl, rfl, rfl, rfl⟩, rfl, rfl, rfl, rfl⟩

theorem coldReset_leaves (s : State) (low lost : Bool) :
    ∃ p, leftByReset s (coldReset s low lost) p [] ∧ p.stage = .aon ∧ p.rtcBase = 0 ∧ p.rtcCycles = 0 ∧
      p.held = (low || lost || !s.power.aonOk) ∧ p.clockLost = lost :=
  ⟨_, leftByReset_of_view (resetView_tripReport _ _) ⟨rfl, rfl, rfl, rfl, rfl, rfl, rfl, rfl⟩, rfl, rfl, rfl, rfl, rfl⟩

theorem rtc_eq_zero {s : State} (hbase : s.power.rtcBase = 0) (hcycles : s.power.rtcCycles = 0) : rtc s = 0 := by
  simp [rtc, hbase, hcycles]

theorem rtc_eq_of_power {s t : State} (hbase : t.power.rtcBase = s.power.rtcBase) (hcycles : t.power.rtcCycles = s.power.rtcCycles)
    (hosc : t.power.oscStopped = s.power.oscStopped) : rtc t = rtc s := by
  simp only [rtc, hbase, hcycles, hosc]

/-- Settles O3: what `resetDevice` leaves, which the report of a trip does not change. -/
theorem resetRowsComplete : Obligations.ResetRowsComplete := by
  refine ⟨fun s req hheld hfresh => ?_, fun s low => ?_, fun s => ?_, fun s hlost => congrArg Host.Outcome.next (if_pos hlost),
    fun s hlow => congrArg Host.Outcome.next (if_neg (by simp [hlow]))⟩
  · obtain ⟨p, ⟨rfl, hforce, hshadow, ht1, ht2, ht3, hbox, hhost⟩, hstage, hbase, hcycles, hosc⟩ := warmReset_leaves hheld hfresh
    exact ⟨_, rfl, hstage, rtc_eq_of_power hbase hcycles hosc, hforce, hshadow, ht1, ht2, ht3, hbox, hhost⟩
  · obtain ⟨p, ⟨rfl, hforce, hshadow, ht1, ht2, ht3, hbox, hhost⟩, hstage, hbase, hcycles, hheld, -⟩ := coldReset_leaves s low s.power.clockLost
    exact ⟨_, rfl, hstage, rtc_eq_zero hbase hcycles, hforce, hshadow, ht1, ht2, ht3, hbox, hhost, fun h => by rw [hheld, h]; rfl⟩
  · obtain ⟨p, ⟨rfl, -⟩, -, hbase, hcycles, hheld, hlost⟩ := coldReset_leaves s false true
    exact ⟨_, rfl, hheld, hlost, rtc_eq_zero hbase hcycles⟩

/-! ### Start-up (R356, R656, R657) -/

theorem mainFall_power {s : State} (hen : s.power.mainEn = true) : (mainFall s false).power =
    { s.power with mainEn := false, mainOk := false, linkTrains := false, stopped := true } := by
  rw [mainFall, if_neg (by simp), if_neg (by simp [hen])]
  exact (Frame.raiseEvent (ps := [.regs, .host, .usnea]) (.logAdd (.event .refl))).power_eq

theorem haltStart_power (s : State) (cause : Nat) : (haltStart s cause).power = { s.power with stage := .halted, halt := cause } :=
  (Frame.raiseEvent (ps := [.regs, .host, .usnea]) (.boxAdd (.logAdd .refl))).power_eq

theorem startupStage_failed {s : State} {c : Nat} (hheld : s.power.held = false) (hstopped : s.power.stopped = false)
    (hcause : (haltCauses s.power.stage).contains c = true) : startupStage s (.failed c) = haltStart s c := by
  rw [startupStage, if_neg (by simp [hheld, hstopped])]
  exact if_pos hcause

theorem startupStage_aon {s : State} (hheld : s.power.held = false) (hstopped : s.power.stopped = false) (haon : s.power.stage = .aon) :
    startupStage s .done = (extendMeas s 0 (Config.bootDigest (fuseBytes s))).mapPower fun p => { p with stage := .rom } := by
  rw [startupStage, if_neg (by simp [hheld, hstopped])]
  simp only [stageDone, haon, toStage]

theorem ddrTraining_in_stage {s : State} {ch : Nat} (hstage : s.power.stage = .memory) (hch : ch < 16)
    (hnew : bit (s.ro .ddrCState ch).toNat 0 = false) (ok : Bool) (org : Nat) : ddrTraining s ch ok org =
      if ok then ddrTrained (s.setRo .ddrCState ch (BitVec.ofNat 32 (setBits (s.ro .ddrCState ch).toNat 0 1 1))) org
      else
        let n := s.mem.trainTries.getD ch 0 + 1
        let s := s.mapMem fun m => { m with trainTries := m.trainTries.put ch n }
        if n > 3 then haltStart (s.event .ddrEvent 0 4) 6 else s :=
  if_neg (by simp [hstage, hnew, hch])

theorem ro_fwToT3 (s : State) (r : Reg) (u : Nat) : (fwToT3 s).ro r u = s.ro r u := by
  unfold fwToT3
  split <;> rfl

theorem ddrTrained_ro_state {ch : Nat} (hch : ch < 16) (s : State) (org : Nat) : (ddrTrained s org).ro .ddrCState ch = s.ro .ddrCState ch := by
  have hregs : Reg.ddrCState.ctorIdx < Reg.ddrOrg.ctorIdx ∨ Reg.ddrOrg.ctorIdx < Reg.ddrCState.ctorIdx := by decide +kernel
  have hne : regKey .ddrCState ch ≠ regKey .ddrOrg 0 := by
    unfold regKey
    omega
  unfold ddrTrained
  split
  · rw [ro_fwToT3]
    exact ro_setRo_other (BitVec.ofNat 32 (org % 2 ^ 14)) hne
  · rfl

theorem bit_setBits_zero (w : W32) : bit (BitVec.ofNat 32 (setBits w.toNat 0 1 1)).toNat 0 = true := by
  have hw := w.isLt
  simp only [bit, setBits, bits, BitVec.toNat_ofNat, beq_iff_eq]
  omega

/-- Settles O4: each pin's and stage's guard holds; the log and the events of a stage leave the power unit as it is. -/
theorem startupRowsComplete : Obligations.StartupRowsComplete := by
  refine ⟨fun s hen hheld => congrArg Host.Outcome.next (if_pos ⟨hen, by simp [hheld]⟩), fun s hen => ?_, fun s => rfl,
    fun s hheld hstopped haon => congrArg Host.Outcome.next (startupStage_aon hheld hstopped haon),
    fun s c hheld hstopped hcause => ?_, fun s ch org hstage hch hnew => ?_, fun s ch org hstage hch hnew htries => ?_⟩
  · refine ⟨_, rfl, ?_⟩
    rw [mainFall_power hen]
    exact ⟨rfl, rfl, rfl⟩
  · refine ⟨haltStart s c, congrArg Host.Outcome.next (startupStage_failed hheld hstopped hcause), ?_⟩
    rw [haltStart_power]
    exact ⟨rfl, rfl⟩
  · refine ⟨_, congrArg Host.Outcome.next ((ddrTraining_in_stage hstage hch hnew true org).trans (if_pos rfl)), ?_⟩
    rw [ddrTrained_ro_state hch, ro_setRo_same]
    exact bit_setBits_zero _
  · refine ⟨_, congrArg Host.Outcome.next ((ddrTraining_in_stage hstage hch hnew false org).trans (if_neg (by simp))), ?_⟩
    rw [htries]
    simp only [Nat.reduceAdd, Nat.reduceLT, gt_iff_lt, if_true]
    rw [haltStart_power]
    exact ⟨rfl, rfl⟩

end Sys2Proof.Machine
end

section
/-! PROOF. USNEA. O5 to O7: a management message reaches its row, whose work answers it; O8 and O9: Usnea's faults, restarts and
interfaces. -/
namespace Sys2Proof.Machine
open Sys2Proof
set_option Elab.async false

/-! ### Management messages reach their rows (R628 to R630) -/

theorem dispatchMsg_own {s : State} {q : MgmtReq} {typ : Nat} (htyp : q.typ = typ) (hknown : reservedType typ = false)
    (hright : classO typ = true ∨ privileged q = true) (p : List Byte) (f : State → MgmtReq → List Byte → State) :
    dispatchMsg s q typ p f = f s q p := by
  rw [dispatchMsg, htyp, if_neg (by simp [hknown]), if_neg (by simp)]
  exact if_neg (by obtain h | h := hright <;> simp [h])

theorem onMessage_arrived {s : State} {m : MgmtMsg} {typ : Nat} (h : msgArrives s m typ) (f : State → MgmtReq → List Byte → State) :
    onMessage s m typ f =
      if bit (field (msgBytes s m) 9 1) 1 then
        (match unsealMsg s (msgBytes s m) with
          | none => s.event .mgtEvent 0 8
          | some (n, x, p) =>
            dispatchMsg (s.mapUsnea fun u => { u with sessions := u.sessions.put n x }) { msgReq s m with session := some n } typ p f)
      else dispatchMsg s (msgReq s m) typ (msgPayload s m) f := by
  obtain ⟨hup, hbusy, hform, htyp⟩ := h
  have hreach : ¬ (!usneaUp s ∨ (m.via = .mailbox ∧ !s.usnea.mbxBusy) ∨ !msgForm (msgBytes s m)) := by
    rintro (h | ⟨h, hidle⟩ | h)
    · simp [hup] at h
    · simp [hbusy h] at hidle
    · simp [hform] at h
  simp only [onMessage, if_neg hreach]
  rw [if_neg fun h => h.1 htyp]
  rfl

theorem onMessage_open {s : State} {m : MgmtMsg} {typ : Nat} (h : msgOpenFor s m typ) (f : State → MgmtReq → List Byte → State)
    (hknown : reservedType typ = false := by decide) : onMessage s m typ f = f s (msgReq s m) (msgPayload s m) := by
  obtain ⟨harrives, hopen, hright⟩ := h
  rw [onMessage_arrived harrives, if_neg (by simp [hopen])]
  refine dispatchMsg_own harrives.2.2.2 hknown (hright.imp_right fun hvia => ?_) _ f
  simp [privileged, msgReq, hvia]

theorem onMessage_sealed {s : State} {m : MgmtMsg} {typ : Nat} (harrives : msgArrives s m typ) (hseal : bit (field (msgBytes s m) 9 1) 1 = true)
    (hknown : reservedType typ = false) (f : State → MgmtReq → List Byte → State) :
    onMessage s m typ f = match unsealMsg s (msgBytes s m) with
      | none => s.event .mgtEvent 0 8
      | some (n, x, p) => f (s.mapUsnea fun u => { u with sessions := u.sessions.put n x }) { msgReq s m with session := some n } p := by
  rw [onMessage_arrived harrives, if_pos hseal]
  split
  · rfl
  · exact dispatchMsg_own harrives.2.2.2 hknown (.inr (by simp [privileged])) _ f

theorem privileged_msgReq (s : State) (m : MgmtMsg) : privileged (msgReq s m) = (m.via == .mailbox) := by
  simp [privileged, msgReq]

/-! ### Answers -/

theorem mgmtReply_free (s : State) (q : MgmtReq) (st : Nat) (p : List Byte) : (mgmtReply s q st p).free = s.free :=
  (Frame.mgmtReply (ps := [.regs, .host, .usnea]) .refl).same .free (by decide)

theorem mbxAnswer_sessions (s : State) (b : List Byte) : (mbxAnswer s b).usnea.sessions = s.usnea.sessions := by
  rw [mbxAnswer, event_usnea]
  rfl

/-- The answer to a request that came in no session leaves the sessions. -/
theorem mgmtReply_sessions (s : State) {q : MgmtReq} (hq : q.session = none) (st : Nat) (p : List Byte) :
    (mgmtReply s q st p).usnea.sessions = s.usnea.sessions := by
  simp only [mgmtReply, hq, Option.bind_none]
  split
  · rfl
  · split
    · exact mbxAnswer_sessions _ _
    · rfl

/-! ### SESSION_OPEN (R630) -/

/-- The session, its answer's key material drawn, that a SESSION_OPEN under a good signature opens. -/
theorem sessionOpen_good {s : State} {q : MgmtReq} {p : List Byte} {n : Nat} (hlen : p.length = 324) (hzero : zeroAt p 1 3 = true)
    (hfree : freeSession s = some n) (hgood : openForm s p = true) :
    ∃ x b, sessionOpen s q p = mgmtReply (s.mapUsnea fun u => { u with sessions := u.sessions.put n x }).drawn.drawn q 0 b := by
  rw [sessionOpen, if_neg (by simp [hlen, hzero]), if_neg (by simp [hgood]), hfree]
  exact ⟨_, _, rfl⟩

theorem sessionOpen_bad {s : State} {q : MgmtReq} {p : List Byte} (hlen : p.length = 324) (hzero : zeroAt p 1 3 = true)
    (hbad : openForm s p = false) : sessionOpen s q p = mgmtReply (s.event .mgtEvent 0 8) q 2 [] := by
  rw [sessionOpen, if_neg (by simp [hlen, hzero])]
  exact if_pos (by simp [hbad])

theorem Smap.has_put_same {α : Type} (m : Smap α) (i : Nat) (x : α) : (m.put i x).has i = true := by
  simp [Smap.has]

theorem sessionOpen_opens {s : State} {q : MgmtReq} {p : List Byte} {n : Nat} (hq : q.session = none) (hlen : p.length = 324)
    (hzero : zeroAt p 1 3 = true) (hfree : freeSession s = some n) (hgood : openForm s p = true) :
    (sessionOpen s q p).usnea.sessions.has n = true ∧ (sessionOpen s q p).free = s.free + 2 := by
  obtain ⟨x, b, hopen⟩ := sessionOpen_good (q := q) hlen hzero hfree hgood
  rw [hopen, mgmtReply_sessions _ hq, mgmtReply_free]
  exact ⟨Smap.has_put_same _ _ _, rfl⟩

/-- Settles O5: each request of class O reaches its row (`onMessage_open`), whose form it has. -/
theorem openMessagesAnswered : Obligations.OpenMessagesAnswered := by
  refine ⟨fun s m h hp => ?_, fun s m h hlen hrange => ?_, fun s m h hlen => ?_, fun s m h hlen hzero hscope => ?_, fun s m h hlen => ?_,
    fun s m h hp => ?_, fun s m n h hlen hzero hfree => ?_⟩
  · exact congrArg Host.Outcome.next ((onMessage_open h identify).trans (if_pos (by simp [hp])))
  · exact congrArg Host.Outcome.next ((onMessage_open h sensorsMsg).trans (if_neg (by omega)))
  · refine congrArg Host.Outcome.next ((onMessage_open h logRead).trans ((if_neg (by omega)).trans ?_))
    rw [privileged_msgReq]
  · refine congrArg Host.Outcome.next ((onMessage_open h attestMsg).trans (if_neg ?_))
    rintro (hn | hn | ⟨hfirst, hsecond⟩)
    · exact hn hlen
    · simp [hzero] at hn
    · exact hscope.elim hfirst hsecond
  · exact congrArg Host.Outcome.next ((onMessage_open h certificateMsg).trans (if_neg (by omega)))
  · exact congrArg Host.Outcome.next ((onMessage_open h ptmInfo).trans (if_pos (by simp [hp])))
  · exact ⟨_, congrArg Host.Outcome.next (onMessage_open h sessionOpen), fun hgood => sessionOpen_opens rfl hlen hzero hfree hgood,
      fun hbad => sessionOpen_bad hlen hzero hbad⟩

/-! ### Class P messages (R623, R629, R631, R634, R635) -/

theorem once_fresh {s : State} {q : MgmtReq} (h : freshTag s q) (f : State → State) : once s q f = f s := by
  obtain ⟨hkept, hrunning⟩ := h
  rw [once, hkept]
  exact if_neg (by simp only [hrunning]; decide)

theorem blackboxRead_live {s : State} {q : MgmtReq} {p : List Byte} (hlen : p.length = 6) (hring : field p 0 1 = 0) (hzero : field p 1 1 = 0)
    (hplace : field p 2 2 < 8192) :
    blackboxRead s q p = mgmtReply s q 0 ((List.range (min 127 (field p 4 2))).flatMap fun i =>
      boxRecordAt s.usnea.bbNext s.usnea.blackbox ((field p 2 2 + i) % 8192)) := by
  simp only [blackboxRead, if_pos hring]
  exact if_neg (by omega)

theorem ledgerMsg_read {s : State} {q : MgmtReq} {p : List Byte} (hlen : p.length = 16) (hpart : field p 0 1 < 64) (hzero : zeroAt p 1 7 = true) :
    ledgerMsg s q p = mgmtReply (ledgerReturned s (field p 0 1) (ledgerFrom s (field p 0 1) (field p 8 8) 4080)) q 0
      ((ledgerFrom s (field p 0 1) (field p 8 8) 4080).flatMap lrecBytes) :=
  if_neg (by simp [hlen, hzero, hpart])

theorem regMsg_written {s : State} {q : MgmtReq} {p : List Byte} (hfresh : freshTag s q) (hlen : p.length = 12) (hzero : zeroAt p 2 2 = true)
    (hblock : field p 0 1 < 18) (halias : field p 1 1 < 4) (hoff : field p 4 4 < 2 ^ 18) (haligned : field p 4 4 % 4 = 0) :
    regMsg s q p = mgmtReplyOnce
      (wordWrite s 0x7F (2 ^ 20 * field p 0 1 + 2 ^ 18 * field p 1 1 + field p 4 4) true (BitVec.ofNat 32 (field p 8 4))) q 0 [] := by
  refine (once_fresh hfresh _).trans (if_neg ?_)
  rintro (h | h | h | h | h | h)
  · exact h hlen
  · simp [hzero] at h
  · omega
  · omega
  · omega
  · exact h haligned

theorem imageChunk_low {s : State} {q : MgmtReq} {p : List Byte} (hlen : 4 ≤ p.length) (hroom : field p 0 4 + p.length ≤ 2097156)
    (huse : s.usnea.recvUse = .free ∨ s.usnea.recvUse = .image) :
    imageChunk s q p = mgmtReply (recvWrite s .image (field p 0 4) (p.drop 4)) q 0 [] := by
  have hdrop : (p.drop 4).length = p.length - 4 := List.length_drop
  have hlow : (p.drop 4).take (2097152 - field p 0 4) = p.drop 4 := List.take_of_length_le (by omega)
  have hhigh : (p.drop 4).drop (2097152 - field p 0 4) = [] := List.drop_of_length_le (by omega)
  simp only [imageChunk]
  rw [if_neg (by omega), if_neg (by obtain h | h := huse <;> simp [h]), hlow, hhigh]
  rfl

theorem imageStage_low {s : State} {q : MgmtReq} {p : List Byte} (hfresh : freshTag s q) (hlen : p.length = 4) (huse : s.usnea.recvUse = .image)
    (hmem : s.power.memDone.contains 0 = true) (hblock : s.blockOut 1 = false) (hsize : field p 0 4 ≤ 2097152) :
    imageStage s q p = mgmtReplyOnce (recvFree (stageFrom s 2 0 (field p 0 4))) q 0 [] := by
  refine (once_fresh hfresh _).trans ((if_neg (by omega)).trans ((if_neg ?_).trans (if_pos hsize)))
  rw [huse, hmem, hblock]
  decide

theorem fwChunk_written {s : State} {q : MgmtReq} {p : List Byte} (hlen : 4 ≤ p.length) (hroom : field p 0 4 + p.length ≤ 1048580)
    (huse : s.usnea.recvUse = .free ∨ s.usnea.recvUse = .firmware) :
    fwChunk s q p = mgmtReply (recvWrite s .firmware (field p 0 4) (p.drop 4)) q 0 [] := by
  have hdrop : (p.drop 4).length = p.length - 4 := List.length_drop
  exact (if_neg (by omega)).trans (if_neg (by obtain h | h := huse <;> simp [h]))

theorem fwActivate_held {s : State} {q : MgmtReq} {p : List Byte} (hfresh : freshTag s q) (hp : p = []) (huse : s.usnea.recvUse = .firmware) :
    fwActivate s q p = if fwValid s (recvFirmware s) then activate (mgmtReply s q 0 []) (recvFirmware s)
      else mgmtReplyOnce (recvFree s) q 5 [] :=
  (once_fresh hfresh _).trans ((if_neg (by simp [hp])).trans (if_neg (by simp [huse])))

theorem norWrite_media {s : State} {q : MgmtReq} {p : List Byte} (hfresh : freshTag s q) (hlen : 8 ≤ p.length) (hregion : field p 0 1 = 4)
    (hzero : zeroAt p 1 3 = true) (hroom : field p 4 4 + p.length ≤ ((norRegion s 4).map (·.2)).getD 0 + 8) :
    norWrite s q p = mgmtReplyOnce (s.mapUsnea fun u => { u with
      media := (p.drop 8).zipIdx.foldl (fun l x => Smap.store 0xFF l (field p 4 4 + x.2) x.1) u.media }) q 0 [] := by
  have hdrop : (p.drop 8).length = p.length - 8 := List.length_drop
  refine (once_fresh hfresh _).trans ((if_neg ?_).trans (if_neg (by simp [hregion])))
  rintro (h | h | h)
  · omega
  · simp [hzero] at h
  · omega

theorem subscribe_added {s : State} {q : MgmtReq} {p : List Byte} (hlen : p.length = 24) (hvia : field p 0 1 ≤ 3) (hpad : field p 1 1 = 0)
    (hmask : field p 20 2 < 512) (hzero : zeroAt p 22 2 = true) (hroom : (s.usnea.subs.filter fun b => b.dest != p.take 20).length < 8) :
    subscribe s q p = mgmtReply (s.mapUsnea fun u => { u with
      subs := (u.subs.filter fun b => b.dest != p.take 20) ++
        [{ dest := p.take 20, mask := field p 20 2, next := 0, events := [], dropped := 0 }] }) q 0 [] := by
  refine (if_neg ?_).trans (if_neg (by omega))
  rintro (h | h | h | h | h)
  · exact h hlen
  · omega
  · exact h hpad
  · omega
  · simp [hzero] at h

theorem eventAck_held {s : State} {q : MgmtReq} {p : List Byte} (hlen : p.length = 4) (hsub : (s.usnea.subs.any fun b => b.dest == q.src) = true) :
    eventAck s q p = mgmtReply (s.mapUsnea fun u => { u with subs := u.subs.map fun b =>
      if b.dest == q.src then { b with events := b.events.filter fun e => decide (e.seq ≠ field p 0 4) } else b }) q 0 [] :=
  if_neg (by rw [hsub]; simp [hlen])

/-- Settles O6: each request of class P from the mailbox reaches its row (`onMessage_open`), whose form it has. -/
theorem privilegedMessagesRun : Obligations.PrivilegedMessagesRun := by
  refine ⟨fun s m h hlen hring hzero hplace => ?_, fun s m h hlen hpart hzero => ?_, fun s m h hfresh hlen => ?_,
    fun s m b al x h hfresh hlen hzero hb hal hx hblock halias hoff haligned => ?_, fun s m h hfresh hform => ?_, fun s m h hlen hroom huse => ?_,
    fun s m h hfresh hlen huse hmem hblock hsize => ?_, fun s m h hlen hroom huse => ?_, fun s m h hfresh hp huse => ?_,
    fun s m h hfresh hlen hregion hzero hroom => ?_, fun s m h hlen hvia hpad hmask hzero hroom => ?_, fun s m h hlen hsub => ?_⟩
  · exact congrArg Host.Outcome.next ((onMessage_open h blackboxRead).trans (blackboxRead_live hlen hring hzero hplace))
  · exact congrArg Host.Outcome.next ((onMessage_open h ledgerMsg).trans (ledgerMsg_read hlen hpart hzero))
  · exact congrArg Host.Outcome.next ((onMessage_open h rasMsg).trans ((once_fresh hfresh _).trans (if_neg (by omega))))
  · subst hb hal hx
    exact congrArg Host.Outcome.next ((onMessage_open h regMsg).trans (regMsg_written hfresh hlen hzero hblock halias hoff haligned))
  · exact congrArg Host.Outcome.next ((onMessage_open h adminMsg).trans ((once_fresh hfresh _).trans (if_neg (by simp [hform]))))
  · exact congrArg Host.Outcome.next ((onMessage_open h imageChunk).trans (imageChunk_low hlen hroom huse))
  · exact congrArg Host.Outcome.next ((onMessage_open h imageStage).trans (imageStage_low hfresh hlen huse hmem hblock hsize))
  · exact congrArg Host.Outcome.next ((onMessage_open h fwChunk).trans (fwChunk_written hlen hroom huse))
  · exact congrArg Host.Outcome.next ((onMessage_open h fwActivate).trans (fwActivate_held hfresh hp huse))
  · exact congrArg Host.Outcome.next ((onMessage_open h norWrite).trans (norWrite_media hfresh hlen hregion hzero hroom))
  · exact congrArg Host.Outcome.next ((onMessage_open h subscribe).trans (subscribe_added hlen hvia hpad hmask hzero hroom))
  · exact congrArg Host.Outcome.next ((onMessage_open h eventAck).trans (eventAck_held hlen hsub))

/-! ### Sealed messages (R630) -/

/-- Each message's command, its TYPE and the work of its row (`Instr` has more constructors than the code generator takes). -/
noncomputable def messageRows (m : MgmtMsg) : List (Instr × Nat × (State → MgmtReq → List Byte → State)) :=
  [(.identify m, 0x0001, identify), (.sensors m, 0x0002, sensorsMsg), (.logRead m, 0x0003, logRead),
    (.blackboxRead m, 0x0004, blackboxRead), (.mgmtAttest m, 0x0005, attestMsg), (.mgmtCertificate m, 0x0006, certificateMsg),
    (.mgmtLedgerRead m, 0x0007, ledgerMsg), (.rasCommand m, 0x0008, rasMsg), (.regWrite m, 0x0009, regMsg), (.admin m, 0x000A, adminMsg),
    (.imageChunk m, 0x000B, imageChunk), (.imageStage m, 0x000C, imageStage), (.fwChunk m, 0x000D, fwChunk),
    (.fwActivate m, 0x000E, fwActivate), (.norWrite m, 0x000F, norWrite), (.sessionOpen m, 0x0010, sessionOpen),
    (.sessionClose m, 0x0011, sessionClose), (.subscribe m, 0x0012, subscribe), (.eventAck m, 0x0014, eventAck), (.ptmInfo m, 0x0015, ptmInfo)]

/-- A row is the arrival of a message of its TYPE, which is not reserved. -/
def isMessageRow (m : MgmtMsg) (r : Instr × Nat × (State → MgmtReq → List Byte → State)) : Prop :=
  (∀ s, exec r.1 s = .next (onMessage s m r.2.1 r.2.2)) ∧ reservedType r.2.1 = false

theorem messageRows_arrive (m : MgmtMsg) : ∀ r ∈ messageRows m, isMessageRow m r := by
  simp only [messageRows, List.forall_mem_cons, List.not_mem_nil, false_imp_iff, implies_true, and_true]
  refine ⟨?_, ?_, ?_, ?_, ?_, ?_, ?_, ?_, ?_, ?_, ?_, ?_, ?_, ?_, ?_, ?_, ?_, ?_, ?_, ?_⟩ <;> exact ⟨fun _ => rfl, rfl⟩

theorem sessionClose_sealed (s : State) (q : MgmtReq) (n : Nat) :
    sessionClose s { q with session := some n } [] = endSession (mgmtReply s { q with session := some n } 0 []) n := rfl

/-- Settles O7: every row is the arrival of a message (`messageRows_arrive`), and a sealed one is opened on the way to its work. -/
theorem sealedMessagesReachTheirRows : Obligations.SealedMessagesReachTheirRows := by
  constructor
  · intro s m c typ f hrow harrives hseal
    obtain ⟨hexec, hknown⟩ := messageRows_arrive m (c, typ, f) hrow
    exact (hexec s).trans (congrArg Host.Outcome.next (onMessage_sealed harrives hseal hknown f))
  · intro s m harrives hseal
    refine ⟨_, congrArg Host.Outcome.next (onMessage_sealed harrives hseal (by decide) sessionClose), fun n x hopen => ?_, fun hshut => ?_⟩
    · rw [hopen]
      exact sessionClose_sealed _ _ _
    · rw [hshut]

/-! ### Faults and restarts of Usnea (R606 to R610, R616, R619) -/

theorem Frame.usnea_eq {ps : List Part} {s t : State} (h : Frame ps s t) (hn : Part.usnea ∉ ps := by decide) : t.usnea = s.usnea :=
  h.same .usnea hn

/-- What a halt with no more writes leaves of Usnea. -/
theorem usneaClose_usnea {s : State} (hfw : s.usnea.fwImage ≠ []) (cause : Nat) :
    (usneaClose s cause).usnea.closed = true ∧ (usneaClose s cause).usnea.restarting = true ∧ (usneaClose s cause).usnea.running = false ∧
      (usneaClose s cause).usnea.haltCause = some cause ∧ (usneaClose s cause).usnea.sessions = [] ∧
      (usneaClose s cause).usnea.subs = [] ∧ (usneaClose s cause).usnea.tags = [] := by
  have hsome : ¬ s.usnea.fwImage.isEmpty = true := by simpa using hfw
  rw [usneaClose, if_neg hsome, usneaHalt, if_neg hsome]
  exact ⟨rfl, rfl, rfl, rfl, rfl, rfl, rfl⟩

/-- A restart into the copy that ran. -/
theorem usneaRestart_same {s : State} (hfw : s.usnea.fwImage ≠ []) (hrestarting : s.usnea.restarting = true) (htrial : (norDir s).trial = false) :
    usneaRestart s = ((boxAdd (boxSave s) 2 (natLe 1 (s.usnea.haltCause.getD 5))).mapUsnea fun u =>
      { u with closed := false, haltCause := none, restarts := u.restarts + 1 }).event .rasEvent 0 10 := by
  have hsome : ¬ s.usnea.fwImage.isEmpty = true := by simpa using hfw
  simp only [usneaRestart, if_neg hsome, hrestarting, if_true]
  refine if_pos (.inl ?_)
  rw [norDir, event_usnea]
  exact congrArg (!·) htrial

theorem usneaRestarted_running {s : State} (hrestarting : s.usnea.restarting = true) (hcause : s.usnea.haltCause = none)
    (hstage : s.power.stage ≠ .firstStage) :
    usneaRestarted s = (s.mapUsnea fun u => { u with running := true, restarting := false, closed := false }).event .mgtEvent 0 1 := by
  rw [usneaRestarted, if_neg (by simp [hrestarting, hcause]), if_neg hstage]
  rfl

theorem netbootRetry_verified {s : State} {b : List Byte} (htrying : s.usnea.netTrying = true) (hheld : s.power.held = false)
    (hvalid : fwValid s b = true) : netbootRetry s (some b) = toStage (fwStart s b false true) .firstStage :=
  if_pos ⟨htrying, by simp [hheld], hvalid⟩

theorem netbootRetry_unverified {s : State} {b : List Byte} (hbad : fwValid s b = false) : netbootRetry s (some b) = s :=
  if_neg (by simp [hbad])

/-- The rewritten copy of the directory is the newer one. -/
theorem norDir_norDirWrite (s : State) {f : NorDir → NorDir} (hf : ∀ d, (f d).dseq = d.dseq) :
    norDir (norDirWrite s f) = f { norDir s with dseq := (norDir s).dseq + 1 } := by
  have hseq : (f { norDir s with dseq := (norDir s).dseq + 1 }).dseq = (norDir s).dseq + 1 := hf _
  by_cases hfirst : s.usnea.dir0.dseq ≥ s.usnea.dir1.dseq
  · have hnow : (norDir s).dseq = s.usnea.dir0.dseq := by rw [norDir, if_pos hfirst]
    simp only [norDirWrite, State.mapUsnea, if_pos hfirst]
    exact if_neg (by simp only [hseq]; omega)
  · have hnow : (norDir s).dseq = s.usnea.dir1.dseq := by rw [norDir, if_neg hfirst]
    simp only [norDirWrite, State.mapUsnea, if_neg hfirst]
    exact if_pos (by simp only [hseq]; omega)

/-- An event raised changes the subscriptions and what is sent, and nothing else of Usnea. -/
theorem raiseEvent_keeps {β : Type} {p : UsneaState → β} (hp : ∀ u x y, p { u with subs := x, sent := y } = p u) (s : State) (n : Nat)
    (b : List Byte) : p (raiseEvent s n b).usnea = p s.usnea := by
  unfold raiseEvent
  dsimp only
  split
  · rfl
  · rw [eventIf_usnea]
    exact hp _ _ _

theorem raiseEvent_norDir (s : State) (n : Nat) (b : List Byte) : norDir (raiseEvent s n b) = norDir s :=
  raiseEvent_keeps (p := fun u => if u.dir0.dseq ≥ u.dir1.dseq then u.dir0 else u.dir1) (fun _ _ _ => rfl) s n b

theorem trialConfirm_done {s : State} (hup : usneaUp s = true) (htrial : s.usnea.trialRun = true) :
    (trialConfirm s).usnea.trialRun = false ∧ norDir (trialConfirm s) = { norDir s with dseq := (norDir s).dseq + 1, trial := false } := by
  rw [trialConfirm, if_pos ⟨hup, htrial⟩, raiseEvent_keeps (p := UsneaState.trialRun) (fun _ _ _ => rfl), raiseEvent_norDir]
  exact ⟨rfl, norDir_norDirWrite s (f := fun d => { d with trial := false }) fun _ => rfl⟩

/-! ### A fault of a runtime component (R610) -/

/-- An answer leaves the record of component faults. -/
theorem mgmtReply_compFaults (s : State) (q : MgmtReq) (st : Nat) (p : List Byte) :
    (mgmtReply s q st p).usnea.compFaults = s.usnea.compFaults := by
  have hanswer (t : State) (b : List Byte) : (mbxAnswer t b).usnea.compFaults = t.usnea.compFaults := by
    rw [mbxAnswer, event_usnea]
    rfl
  simp only [mgmtReply]
  split
  · rfl
  · split
    · split <;> exact hanswer _ _
    · split <;> rfl

theorem mgmtReplyOnce_compFaults (s : State) (q : MgmtReq) (st : Nat) (p : List Byte) :
    (mgmtReplyOnce s q st p).usnea.compFaults = s.usnea.compFaults := by
  simp only [mgmtReplyOnce, mgmtReply_compFaults]
  split <;> rfl

theorem logAdd_compFaults (s : State) (kind part qp : Nat) (body : List Byte) :
    (logAdd s kind part qp body).usnea.compFaults = s.usnea.compFaults := by
  simp only [logAdd, eventIf_usnea]
  rfl

/-- The first fault of a component in 10 minutes: what holds requests answers them, and Usnea stays up. -/
theorem componentFault_first {s : State} {c : Nat} (hup : usneaUp s = true) (hpos : 0 < c) (hmax : c ≤ 8)
    (hfirst : s.usnea.compFaults.getD c [] = []) :
    ∃ t : State, t.usnea.compFaults = s.usnea.compFaults.put c [rtc s] ∧
      componentFault s c = raiseEvent (t.event .mgtEvent 0 4) 5 (natLe 1 4 ++ natLe 1 c) := by
  have hrun : ¬ (!usneaUp s ∨ c = 0 ∨ c > 8) := by
    rintro (h | h | h)
    · simp [hup] at h
    · omega
    · omega
  simp only [componentFault, if_neg hrun, hfirst, List.filter_nil, List.nil_append, List.length_singleton]
  refine ⟨_, ?_, if_neg (by omega)⟩
  rw [logAdd_compFaults]
  exact foldl_keeps (fun t : State => t.usnea.compFaults) (fun t a => mgmtReplyOnce_compFaults t _ _ _) _ _

/-- Settles O8: each halt, restart and fault, with the parts of Usnea that its records and answers leave. -/
theorem usneaFaultRowsComplete : Obligations.UsneaFaultRowsComplete := by
  refine ⟨fun s hfw => ⟨_, rfl, usneaClose_usnea hfw 1⟩, fun s hfw => ⟨_, rfl, usneaClose_usnea hfw 2⟩, fun s hfw hrestarting htrial => ?_,
    fun s hrestarting hcause hstage => congrArg Host.Outcome.next (usneaRestarted_running hrestarting hcause hstage),
    fun s b htrying hheld => ⟨_, rfl, fun hvalid => ?_, netbootRetry_unverified⟩, fun s hup htrial => ?_, fun s c hup hpos hmax hfirst => ?_⟩
  · refine ⟨_, congrArg Host.Outcome.next (usneaRestart_same hfw hrestarting htrial), ?_, ?_, ?_, hasEvent_event _ _ _ (by decide)⟩ <;>
      rw [event_usnea] <;> rfl
  · rw [netbootRetry_verified htrying hheld hvalid]
    exact ⟨rfl, rfl, rfl⟩
  · obtain ⟨hrun, hdir⟩ := trialConfirm_done hup htrial
    refine ⟨_, rfl, hrun, ?_⟩
    rw [hdir]
    exact ⟨rfl, rfl, rfl⟩
  · obtain ⟨t, hfaults, heq⟩ := componentFault_first hup hpos hmax hfirst
    refine ⟨_, congrArg Host.Outcome.next heq, ?_, (hasEvent_event t _ _ (by decide)).raiseEvent _ _⟩
    rw [raiseEvent_keeps (p := UsneaState.compFaults) (fun _ _ _ => rfl), event_usnea, hfaults]
    exact Smap.getD_put_same _ _ _ _

/-! ### Usnea's interfaces (R617, R620, R624, R625, R627, R630, R635, R637) -/

theorem rtc_lt (s : State) : rtc s < 2 ^ 64 := Nat.mod_lt _ (by decide)

theorem ptmPublish_up {s : State} (hup : usneaUp s = true) (ns : W64) : ptmPublish s ns =
    s.mapUsnea fun u => { u with ptmSeq := u.ptmSeq + 2, ptmRtc := BitVec.ofNat 64 (rtc s), ptmNs := ns } :=
  if_neg (by simp [hup])

theorem eventResend_sent {s : State} {k seq : Nat} {b : Sub} {e : Event} (hup : usneaUp s = true) (hsub : s.usnea.subs[k]? = some b)
    (hevent : (b.events.find? fun e => e.seq == seq) = some e) (hfew : e.sent < 10) :
    (eventResend s k seq).usnea.sent = (destVia b.dest, b.dest, eventBytes e b.dropped) :: s.usnea.sent := by
  simp only [eventResend, hsub, Option.bind_some, hevent, Option.map_some]
  rw [if_neg (by simp [hup]), if_neg (by omega)]
  rfl

theorem sensorReading_sensors {s : State} {i : Nat} (hi : i < 120) (v : BitVec 16) :
    (sensorReading s (i, v)).usnea.sensors = s.usnea.sensors.put i v := by
  have hshown (c : Prop) [Decidable c] (t : State) (b : List Byte) (ht : t.usnea.sensors = s.usnea.sensors.put i v) :
      (if c then raiseEvent (t.event .mgtEvent 0 5) 4 b else t).usnea.sensors = s.usnea.sensors.put i v := by
    split
    · rw [raiseEvent_keeps (p := UsneaState.sensors) (fun _ _ _ => rfl), event_usnea, ht]
    · exact ht
  have hstored (c : Prop) [Decidable c] (t : State) (w : W32) : (if c then t.setReg .mgtSMax i w else t).usnea.sensors = t.usnea.sensors := by
    split <;> rfl
  simp only [sensorReading]
  rw [if_neg (by omega)]
  exact hshown _ _ _ (hstored _ _ _)

theorem mctpControl_answered {s : State} {v : Transport} (hup : usneaUp s = true) (hvia : v = .i3c ∨ v = .smbus) (b : List Byte) :
    (mctpControl s v b).usnea.mctpSent = Config.mctpAnswer b :: s.usnea.mctpSent := by
  rw [mctpControl, if_neg (by obtain rfl | rfl := hvia <;> simp [hup])]
  rfl

/-- Settles O9: each row's guard holds, and an event raised leaves the rest of Usnea. -/
theorem usneaRowsComplete : Obligations.UsneaRowsComplete := by
  refine ⟨fun s ns hup => ⟨_, congrArg Host.Outcome.next (ptmPublish_up hup ns), rfl, ?_, rfl⟩, fun s n => rfl,
    fun s huse => congrArg Host.Outcome.next (if_pos huse), fun s k seq b e hup hsub hevent hfew => ⟨_, rfl, eventResend_sent hup hsub hevent hfew⟩,
    fun s i v hup hi => ⟨_, congrArg Host.Outcome.next (if_pos hup), ?_⟩, fun s up => rfl, fun s a ha => congrArg Host.Outcome.next (if_pos ha),
    fun s v b hup hvia => ⟨_, rfl, mctpControl_answered hup hvia b⟩, fun s i haccepts => congrArg Host.Outcome.next (if_pos haccepts),
    fun s i hoff hdebug => congrArg Host.Outcome.next (if_neg ?_)⟩
  · exact Nat.mod_eq_of_lt (rtc_lt s)
  · rw [List.foldl_cons, List.foldl_nil, sensorReading_sensors hi]
    exact Smap.get_put_same _ _ _
  · subst hdebug
    simp [jtagAccepts, hoff]

end Sys2Proof.Machine
end

section
/-! PROOF. HOST QUEUES. O19 to O21: the rows of the queue pairs, of admission and completion, and of the functions and the host link.
-/
namespace Sys2Proof.Machine
open Sys2Proof
set_option Elab.async false

/-! ### Queue pairs (R508) -/

/-- A table of queue pairs that lists number 0 twice: the first entry, DISABLED, holds a cause of its last enable; the second stands behind
it, STOPPING. Partition 0 has the one queue pair; no ring is configured. -/
def twiceListed : State :=
  (State.reset.mapImg fun i => { i with cfg := ⟨[(65536 * 6, 2 ^ 14 + 2 ^ 35)]⟩ }).mapHost fun h => { h with
    qps := [(0, { Qp.reset with cause := 5 }), (0, { Qp.reset with st := .stopping })] }

/-- An enable clears the cause, so the first entry leaves the table, and the second is the one that the failed configuration finds. -/
theorem twiceListed_enabled : ((writeEnable (twiceListed.setReg .hqQpCtrl 0 1) 0 true).qp 0).st = .stopping := by
  decide +kernel

/-- Refutes O19: an ENABLE without a ring configuration leaves a queue pair that its table lists twice STOPPING, not FAILED. -/
theorem not_queueRowsComplete : ¬ Obligations.QueueRowsComplete := by
  unfold Obligations.QueueRowsComplete
  rintro ⟨-, -, -, -, henable, -⟩
  obtain ⟨hwritten, -, hdisabled, -⟩ :=
    henable twiceListed 0 0 0 (by decide +kernel) (Prod.ext (by decide +kernel) (by decide +kernel)) (by decide +kernel)
  obtain ⟨t, hexec, -, hbad⟩ := hdisabled (by decide +kernel)
  obtain ⟨hfailed, -⟩ := hbad (by decide +kernel)
  rw [hwritten] at hexec
  injection hexec with ht
  rw [← ht, twiceListed_enabled] at hfailed
  exact absurd hfailed (by decide)

/-! ### Interrupts of a queue pair (R531) -/

/-- A table of queue pairs that lists number 0 twice, each entry with a pending completion; the pair's vector is enabled. -/
def twicePending : State :=
  (State.reset.setReg .hqQpInt 0 0x800).mapHost fun h => { h with
    qps := [(0, { Qp.reset with pendingInt := 1 }), (0, { Qp.reset with pendingInt := 1 })] }

/-- The signal takes the first entry off the table, as it then holds nothing; the second still has its completion pending. -/
theorem twicePending_signalled :
    ((sendMsix (twicePending.updQp 0 fun q => { q with pendingInt := 0, pendErr := false }) ((qpPart twicePending 0).getD 0)
      (twicePending.fld .hqQpInt 0 0 11)).qp 0).pendingInt = 1 := by
  decide +kernel

/-- Refutes O20: the expiry of AGG_TIME leaves a completion pending of a queue pair that its table lists twice. -/
theorem not_admissionAndCompletion : ¬ Obligations.AdmissionAndCompletion := by
  unfold Obligations.AdmissionAndCompletion
  rintro ⟨-, -, -, -, hexpiry, -⟩
  obtain ⟨hsent, hafter⟩ := hexpiry twicePending 0 (by decide +kernel) (by decide +kernel)
  obtain ⟨t, hexec, hpending, -⟩ := hafter _ rfl (by decide +kernel) (by decide +kernel)
  rw [hsent] at hexec
  injection hexec with ht
  rw [← ht, twicePending_signalled] at hpending
  exact absurd hpending (by decide)

/-! ### Function resets (R534) -/

/-- A queue pair that does not run. -/
def Qp.idle (q : Qp) : Prop := q.st = .disabled ∨ q.st = .stopping

/-- A step of a function reset: each queue pair stops or stays as it is, and the configuration and host memory stay. -/
structure Calms (s t : State) : Prop where
  wf : s.host.qps.wf = true → t.host.qps.wf = true
  pairs : s.host.qps.wf = true → ∀ d, (t.qp d).idle ∨ t.qp d = s.qp d
  cfg : t.img.cfg = s.img.cfg
  mem : t.host.mem = s.host.mem

section
variable {s t u : State} {d fn : Nat}

theorem Calms.of_same (hqps : t.host.qps = s.host.qps) (hcfg : t.img.cfg = s.img.cfg) (hmem : t.host.mem = s.host.mem) : Calms s t :=
  ⟨fun h => hqps ▸ h, fun _ d => .inr (by rw [State.qp, hqps, State.qp]), hcfg, hmem⟩

theorem Calms.refl : Calms s s := .of_same rfl rfl rfl

theorem Calms.trans (h : Calms s t) (g : Calms t u) : Calms s u := by
  refine ⟨fun hwf => g.wf (h.wf hwf), fun hwf d => ?_, g.cfg.trans h.cfg, g.mem.trans h.mem⟩
  obtain hidle | hsame := g.pairs (h.wf hwf) d
  · exact .inl hidle
  · rw [hsame]
    exact h.pairs hwf d

theorem Calms.foldl {α : Type} {f : State → α → State} (hf : ∀ t x, Calms t (f t x)) (l : List α) (s : State) : Calms s (l.foldl f s) :=
  List.foldlRecOn (motive := fun t => Calms s t) l f .refl fun t ht x _ => ht.trans (hf t x)

theorem Calms.idle (h : Calms s t) (hwf : s.host.qps.wf = true) (hidle : (s.qp d).idle) : (t.qp d).idle := by
  obtain hi | hsame := h.pairs hwf d
  · exact hi
  · rwa [hsame]

theorem calms_updQp (d : Nat) {f : Qp → Qp} (hf : ∀ q, (f q).idle) (s : State) : Calms s (s.updQp d f) := by
  refine ⟨fun hwf => Smap.wf_store hwf _ _ _, fun hwf e => ?_, rfl, rfl⟩
  have hget : (s.updQp d f).qp e = if e = d then f (s.qp d) else s.qp e := Smap.getD_store hwf Qp.reset d e (f (s.qp d))
  rw [hget]
  split
  · exact .inl (hf _)
  · exact .inr rfl

theorem calms_resetQpWindow (s : State) (d : Nat) : Calms s (resetQpWindow s d) := by
  refine ⟨fun hwf => Smap.wf_del hwf _, fun hwf e => ?_, rfl, rfl⟩
  by_cases he : e = d
  · have hnone : (s.host.qps.del d).get e = none := he ▸ Smap.get_del_same hwf d
    refine .inl (.inl ?_)
    show ((s.host.qps.del d).getD e Qp.reset).st = .disabled
    rw [Smap.getD, hnone]
    rfl
  · exact .inr (congrArg (·.getD Qp.reset) (Smap.get_del_ne hwf he))

theorem calms_event (s : State) (r : Reg) (u b : Nat) : Calms s (s.event r u b) :=
  .of_same (event_host_qps s r u b) (congrArg ImgState.cfg (event_img s r u b)) (event_host_mem s r u b)

theorem calms_mapRegs (f : RegFile → RegFile) (s : State) : Calms s (s.mapRegs f) := .of_same rfl rfl rfl

theorem calms_mapFns (f : Smap Fn → Smap Fn) (s : State) : Calms s (s.mapHost fun h => { h with fns := f h.fns }) := .of_same rfl rfl rfl

theorem calms_flrEnd (s : State) (fn : Nat) : Calms s (flrEnd s fn) := by
  unfold flrEnd
  dsimp only
  split
  · refine .trans (.trans ?_ (calms_mapFns (fun m => m.put fn Fn.reset) _)) (calms_event _ _ _ _)
    exact Calms.foldl (fun t r => (calms_mapRegs _ t).trans (Calms.foldl calms_resetQpWindow _ _)) _ _
  · exact .refl

/-- What a function reset makes of a queue pair. -/
def stopQp (q : Qp) : Qp :=
  if q.st = .disabled then q
  else { q with st := .stopping, reenable := false, fetched := [], exposedAt := [], deficit := 0, credit := 0 }

theorem stopQp_idle (q : Qp) : (stopQp q).idle := by
  unfold stopQp
  split
  · exact .inl ‹_›
  · exact .inr rfl

theorem calms_stop (l : List Nat) (s : State) : Calms s (l.foldl (fun s d => s.updQp d stopQp) s) :=
  Calms.foldl (fun t d => calms_updQp d stopQp_idle t) l s

theorem updQp_stops (hwf : s.host.qps.wf = true) : ((s.updQp d stopQp).qp d).idle := by
  have hget : (s.updQp d stopQp).qp d = stopQp (s.qp d) := Smap.getD_store_same hwf Qp.reset d (stopQp (s.qp d))
  rw [hget]
  exact stopQp_idle _

theorem stop_stops {l : List Nat} (hd : d ∈ l) (hwf : s.host.qps.wf = true) : ((l.foldl (fun s d => s.updQp d stopQp) s).qp d).idle := by
  induction l generalizing s with
  | nil => cases hd
  | cons e l ih =>
    have hwf' : (s.updQp e stopQp).host.qps.wf = true := (calms_updQp e stopQp_idle s).wf hwf
    obtain rfl | hd := List.mem_cons.1 hd
    · exact (calms_stop l _).idle hwf' (updQp_stops hwf)
    · exact ih hd hwf'

/-- The queue pairs of a function have stopped. -/
def stopped (s : State) (fn : Nat) : State := (fnQps (fnRegReset s fn) fn).foldl (fun s d => s.updQp d stopQp) (fnRegReset s fn)

theorem calms_fnRegReset (s : State) (fn : Nat) : Calms s (fnRegReset s fn) := by
  unfold fnRegReset
  exact calms_mapRegs _ s

theorem fnQps_of_same (hhost : t.host = s.host) (hcfg : t.img.cfg = s.img.cfg) : fnQps t fn = fnQps s fn := by
  simp only [fnQps, qpPart, hhost, hcfg]

theorem calms_stopped (s : State) (fn : Nat) : Calms s (stopped s fn) := (calms_fnRegReset s fn).trans (calms_stop _ _)

/-- The end of a function reset, behind the stop of its queue pairs. -/
theorem functionReset_split (s : State) (fn : Nat) : Calms (stopped s fn) (functionReset s fn) := by
  have hend : functionReset s fn = flrEnd ((stopped s fn).mapHost fun h => { h with
      fns := h.fns.put fn { (stopped s fn).host.fns.getD fn Fn.reset with quiet := true, flr := true, gap := false, inGap := false } }) fn := rfl
  rw [hend]
  exact (calms_mapFns (fun m => m.put fn _) _).trans (calms_flrEnd _ fn)

theorem calms_functionReset (s : State) (fn : Nat) : Calms s (functionReset s fn) := (calms_stopped s fn).trans (functionReset_split s fn)

theorem functionReset_stops (hwf : s.host.qps.wf = true) (hd : d ∈ fnQps s fn) : ((functionReset s fn).qp d).idle := by
  have hwf' : (fnRegReset s fn).host.qps.wf = true := (calms_fnRegReset s fn).wf hwf
  have hlist : d ∈ fnQps (fnRegReset s fn) fn := by
    have hhost : (fnRegReset s fn).host = s.host := (Frame.fnRegReset (ps := [.regs]) .refl).same .host (by decide)
    rwa [fnQps_of_same hhost (calms_fnRegReset s fn).cfg]
  have hstop : ((stopped s fn).qp d).idle := by
    unfold stopped
    exact stop_stops hlist hwf'
  exact (functionReset_split s fn).idle ((calms_stopped s fn).wf hwf) hstop

theorem calms_flr (s : State) (fn : Nat) : Calms s (flr s fn) := by
  unfold flr
  split
  · exact .refl
  · split
    · exact .trans (t := s.mapImg fun i => { i with vfOff := (List.range 64).drop 1 }) (.of_same rfl rfl rfl) (calms_functionReset _ _)
    · exact calms_functionReset s fn

theorem flr_stops (hwf : s.host.qps.wf = true) (hfn : fn < 64) (hd : d ∈ fnQps s fn) : ((flr s fn).qp d).idle := by
  rw [flr, if_neg (by omega)]
  split
  · next h0 =>
    subst h0
    exact functionReset_stops (s := s.mapImg fun i => { i with vfOff := (List.range 64).drop 1 }) hwf hd
  · exact functionReset_stops hwf hd

theorem flr_other (h0 : fn ≠ 0) (hfn : fn < 64) : flr s fn = functionReset s fn := by
  rw [flr, if_neg (by omega), if_neg h0]

theorem functionReset_img (s : State) (fn : Nat) : (functionReset s fn).img = s.img :=
  (Frame.functionReset (ps := [.regs, .host]) .refl).same .img (by decide)

theorem flr_zero_vfOff (s : State) : (flr s 0).img.vfOff = (List.range 64).drop 1 := by
  rw [flr, if_neg (by omega), if_pos rfl, functionReset_img]
  rfl

/-- A queue pair that runs is listed with the function to which it belongs. -/
theorem mem_fnQps (hpart : qpPart s d = some fn) (hrun : ¬ (s.qp d).idle) : d ∈ fnQps s fn := by
  cases hget : s.host.qps.get d with
  | none =>
    refine absurd (.inl ?_) hrun
    rw [State.qp, Smap.getD, hget]
    rfl
  | some q => exact List.mem_map.2 ⟨(d, q), List.mem_filter.2 ⟨Smap.mem_of_get hget, by simp [hpart]⟩, rfl⟩

/-- A reset of functions one after another, that of a queue pair's own among them, stops it. -/
theorem flrs_stop {p : Nat} (hp : p < 64) {l : List Nat} (hl : ∃ i ∈ l, 63 - i = p) (hwf : s.host.qps.wf = true) (hpart : qpPart s d = some p) :
    ((l.foldl (fun t i => flr t (63 - i)) s).qp d).idle := by
  induction l generalizing s with
  | nil => obtain ⟨i, hi, -⟩ := hl; cases hi
  | cons i l ih =>
    have hwf' : (flr s (63 - i)).host.qps.wf = true := (calms_flr s _).wf hwf
    by_cases hnow : ((flr s (63 - i)).qp d).idle
    · exact (Calms.foldl (fun t i => calms_flr t _) l _).idle hwf' hnow
    · have hsame : (flr s (63 - i)).qp d = s.qp d := ((calms_flr s _).pairs hwf d).resolve_left hnow
      have hother : 63 - i ≠ p := fun h => hnow (flr_stops hwf (by omega) (h ▸ mem_fnQps hpart (hsame ▸ hnow)))
      have hpart' : qpPart (flr s (63 - i)) d = some p := by
        have hqp : (flr s (63 - i)).host.qps.getD d Qp.reset = s.host.qps.getD d Qp.reset := hsame
        rw [qpPart, hqp, (calms_flr s _).cfg]
        exact hpart
      obtain ⟨j, hj, hjp⟩ := hl
      obtain rfl | hj := List.mem_cons.1 hj
      · exact absurd hjp hother
      · exact ih ⟨j, hj, hjp⟩ hwf' hpart'

/-- The physical function is reset last. -/
theorem hostPortReset_last (s : State) : hostPortReset s = flr ((List.range 63).foldl (fun t i => flr t (63 - i)) s) 0 := by
  have hlast : List.range 64 = List.range 63 ++ [63] := List.range_succ
  rw [hostPortReset, hlast, List.foldl_append, List.foldl_cons, List.foldl_nil, Nat.sub_self]

theorem hostPortReset_vfOff (s : State) : (hostPortReset s).img.vfOff = (List.range 64).drop 1 := by
  rw [hostPortReset_last]
  exact flr_zero_vfOff _

theorem calms_hostPortReset (s : State) : Calms s (hostPortReset s) := by
  unfold hostPortReset
  exact Calms.foldl (fun t i => calms_flr t (63 - i)) _ s

theorem hostPortReset_stops {p : Nat} (hp : p < 64) (hwf : s.host.qps.wf = true) (hpart : qpPart s d = some p) :
    ((hostPortReset s).qp d).idle := by
  unfold hostPortReset
  exact flrs_stop hp ⟨63 - p, List.mem_range.2 (by omega), by omega⟩ hwf hpart

/-! ### Failed host accesses and the link (R346, R501, R535) -/

theorem linkChange_up {rate : Nat} (hrate : 0 < rate) (s : State) (width : Nat) (flit cxl : Bool) :
    (linkChange s rate width flit cxl).host.link = BitVec.ofNat 32 (rate % 8 + width % 32 * 8 + b2n flit * 256 + b2n cxl * 512) := by
  have hlink (t : State) (c : Bool) : (t.eventIf c .hqEvent 0 4).host.link = t.host.link := by
    cases c
    · rfl
    · obtain ⟨a, b, h⟩ := event_eq t .hqEvent 0 4
      rw [State.eventIf, if_pos rfl, h]
      rfl
  have hup : rate ≠ 0 := by omega
  simp only [linkChange, if_neg hup, hlink]
  rfl

theorem t4Failure_entries (hactive : (s.qp d).st = .active) :
    t4Failure s (.entries d) = failQp (t4Count s ((qpPart s d).getD 0)) d 5 :=
  if_pos hactive

theorem t4Failure_input {n : Nat} {c : Cmd} (hget : s.host.cmds.get n = some c) (hphase : c.phase ≠ .done) :
    t4Failure s (.input n) = endWith (faultRecord (t4Count s c.part) 0x09 0 0 0 [c.part] [n]) n stFaultedNone := by
  simp only [t4Failure, hget, if_neg hphase]

end

/-- Settles O21: every step of a reset stops a queue pair or leaves it (`Calms`), and each failed access reaches what it served. -/
theorem functionRowsComplete : Obligations.FunctionRowsComplete := by
  refine ⟨fun s fn hpos hfn => ?_, fun s fn c hfn hwf hc => ?_, fun s => ⟨rfl, _, rfl, hostPortReset_vfOff s, ?_, fun d p hpart hp hwf _ => ?_⟩,
    fun s v hpos hv => ?_, fun s v => ⟨_, rfl, contains_delSet _ _, rfl⟩, fun s d hactive => ?_, fun s n c hget hphase => ?_,
    fun s n c hget => ?_, fun s n d c hget hqp => ?_, fun s rate width flit cxl hrate => ⟨_, rfl, linkChange_up hrate s width flit cxl⟩⟩
  · have hreset : flr s fn = functionReset s fn := flr_other (by omega) hfn
    exact ⟨congrArg Host.Outcome.next hreset, congrArg Host.Outcome.next hreset⟩
  · have hexec : exec c s = .next (flr s fn) := by obtain rfl | rfl := hc <;> rfl
    refine ⟨_, hexec, fun d hd => flr_stops hwf hfn hd, (calms_flr s fn).mem, fun h0 => ?_⟩
    rw [h0]
    exact flr_zero_vfOff s
  · exact (calms_hostPortReset s).mem
  · exact hostPortReset_stops hp hwf hpart
  · exact ⟨_, congrArg Host.Outcome.next (if_pos ⟨hpos, hv⟩), contains_addSet _ _, rfl, rfl⟩
  · exact ⟨congrArg Host.Outcome.next (t4Failure_entries hactive), congrArg Host.Outcome.next (t4Failure_entries hactive)⟩
  · exact ⟨congrArg Host.Outcome.next (t4Failure_input hget hphase), congrArg Host.Outcome.next (t4Failure_input hget hphase)⟩
  · refine congrArg Host.Outcome.next ?_
    simp only [t4Failure, hget]
  · refine congrArg Host.Outcome.next ?_
    simp only [t4Failure, hget, hqp]

end Sys2Proof.Machine
end

section
/-! PROOF. SEARCHES, UPDATES, INDEXES AND MODELS. O22, O26, O28 and O31: each command ends with its check's status or has its effect.
-/
namespace Sys2Proof.Machine
open Sys2Proof
set_option Elab.async false

/-! ### SEARCH and SWEEP (R182, R183, R541, R543, R544) -/

section
variable {s t : State} {n : Nat} {c : Cmd} {sweep : Bool}

theorem searchCmd_ends {st : Nat} (hcheck : searchCheck s c sweep = .error (.ends st)) : searchCmd s n c sweep = endWith s n st := by
  simp only [searchCmd, hcheck]

theorem searchCmd_planRejected (hcheck : searchCheck s c sweep = .error .planRejected) :
    searchCmd s n c sweep = endWith (s.event .plnPevent c.part 1) n stInvalid := by
  simp only [searchCmd, hcheck]

theorem searchCmd_profileDiffers (hcheck : searchCheck s c sweep = .error .profileDiffers) :
    searchCmd s n c sweep = endWith (s.event .brkEvent 0 4) n stInvalid := by
  simp only [searchCmd, hcheck]

/-- A vector search that passes its checks runs at once. -/
theorem searchCmd_runs (hcheck : searchCheck s c sweep = .ok ()) (hplanner : sweep = true ∨ plannerReady s c.part = true)
    (hunit : vectorUnit s c.part = true) (hrate : zeroRate s c.part tT4 = false) (htokens : (cmdParams s c).tokens = false) :
    searchCmd s n c sweep = searchVector (planOwn (markRunning s n) n c sweep) n c
      (inputVector (bits (eArg0 c.entry) 0 2) (eDataLen c.entry / vfmtBytes (bits (eArg0 c.entry) 0 2))
        (inputData (planOwn (markRunning s n) n c sweep) c.entry)) := by
  have hready : ¬ ((!sweep ∧ !plannerReady s c.part) ∨ (!(cmdParams s c).tokens ∧ !vectorUnit s c.part)) := by
    rintro (⟨hsweep, hout⟩ | ⟨-, hout⟩)
    · obtain h | h := hplanner <;> simp [h] at hsweep hout
    · simp [hunit] at hout
  simp only [searchCmd, hcheck]
  rw [if_neg hready, onTiers_of_rates (by simp [runTiers, htokens, hrate])]
  simp only [htokens]
  rfl

theorem hostRead_of_mem (h : t.host.mem = s.host.mem) (a k : Nat) : hostRead t a k = hostRead s a k := by
  rw [hostRead, h, hostRead]

theorem extents_of_mem (h : t.host.mem = s.host.mem) (a len k : Nat) : extents t a len k = extents s a len k := by
  induction k generalizing a len with
  | zero => rfl
  | succ k ih => simp only [extents, hostRead_of_mem h, ih]

theorem inputData_of_mem (h : t.host.mem = s.host.mem) (e : List Byte) : inputData t e = inputData s e := by
  simp only [inputData, dataExtents, extents_of_mem h, hostRead_of_mem h]

theorem cmdParams_of_mem (h : t.host.mem = s.host.mem) (c : Cmd) : cmdParams t c = cmdParams s c := by
  simp only [cmdParams, paramBlock, hostRead_of_mem h]

/-- A search's own part on this node. -/
def ownPart (s : State) (n : Nat) (c : Cmd) (sh : Shard) (sweep sw : Bool) : State :=
  (addQuery ((markRunning s n).updCmd n fun x => { x with cflags := if !sweep ∧ (histOf sh c.local_).reused then 2 ^ 8 else 0 })
    (newQuery .search n sh c.local_ c.mapgen (cmdParams s c) sw)).bump (if sw then .plnSweeps else .plnWalks) c.part 1

theorem ownPart_mem (s : State) (n : Nat) (c : Cmd) (sh : Shard) (sweep sw : Bool) : (ownPart s n c sh sweep sw).host.mem = s.host.mem := rfl

theorem planOwn_here {sh : Shard} (hshard : shardOf s c.part (eIndex c.entry) = some sh) (hhere : (holders s c).contains (nodeId s) = true)
    (hnew : queryOf s n = none) :
    planOwn (markRunning s n) n c sweep = ownPart s n c sh sweep
      (sweep || planSweep sh.desc.schema (histOf sh c.local_) (cmdParams s c) (bits c.pcfg.toNat 0 5)) := by
  have hshard' : shardOf (markRunning s n) c.part (eIndex c.entry) = some sh := hshard
  have hnew' (f : Cmd → Cmd) : queryOf ((markRunning s n).updCmd n f) n = none := hnew
  have hhere' : ¬ (!(holders (markRunning s n) c).contains (nodeId (markRunning s n))) = true := by
    rw [show (holders (markRunning s n) c).contains (nodeId (markRunning s n)) = true from hhere]
    decide
  have hparams : cmdParams (markRunning s n) c = cmdParams s c := cmdParams_of_mem rfl c
  simp only [planOwn, hshard', if_neg hhere', hnew', hparams]
  rfl

theorem updCmd_congr {f g : Cmd → Cmd} (h : ∀ x, s.host.cmds.get n = some x → f x = g x) : s.updCmd n f = s.updCmd n g := by
  have hupd : s.host.cmds.upd n f = s.host.cmds.upd n g := by
    unfold Smap.upd
    split
    · next x hx => rw [h x hx]
    · rfl
  rw [State.updCmd, State.mapHost, hupd, State.updCmd, State.mapHost]

/-- The command that runs is the one that was checked. -/
theorem markRunning_get (hget : s.host.cmds.get n = some c) : (markRunning s n).host.cmds.get n = some { c with phase := .running } := by
  rw [markRunning, updCmd_get, hget]
  rfl

/-- The flag of a histogram used again, for a SEARCH. -/
theorem ownPart_search (hget : s.host.cmds.get n = some c) (sh : Shard) (sw : Bool) : ownPart s n c sh false sw =
    (addQuery ((markRunning s n).updCmd n fun c => { c with cflags := if (histOf sh c.local_).reused then 2 ^ 8 else 0 })
      (newQuery .search n sh c.local_ c.mapgen (cmdParams s c) sw)).bump (if sw then .plnSweeps else .plnWalks) c.part 1 := by
  unfold ownPart
  rw [updCmd_congr (g := fun c => { c with cflags := if (histOf sh c.local_).reused then 2 ^ 8 else 0 }) fun x hx => ?_]
  obtain rfl : x = _ := Option.some.inj (hx.symm.trans (markRunning_get hget))
  simp

theorem ownPart_sweep (s : State) (n : Nat) (c : Cmd) (sh : Shard) : ownPart s n c sh true true =
    (addQuery ((markRunning s n).updCmd n fun c => { c with cflags := 0 })
      (newQuery .search n sh c.local_ c.mapgen (cmdParams s c) true)).bump .plnSweeps c.part 1 := by
  simp only [ownPart, Bool.not_true, Bool.false_eq_true, false_and, if_false, if_true]

/-- A vector search with a shard here: its own part stands, and its vector goes to it. -/
theorem searchCmd_vector {sh : Shard} (hcheck : searchCheck s c sweep = .ok ()) (hplanner : sweep = true ∨ plannerReady s c.part = true)
    (hunit : vectorUnit s c.part = true) (hnew : queryOf s n = none) (hrate : zeroRate s c.part tT4 = false)
    (hshard : shardOf s c.part (eIndex c.entry) = some sh) (hhere : (holders s c).contains (nodeId s) = true)
    (htokens : (cmdParams s c).tokens = false) :
    searchCmd s n c sweep = searchVector (ownPart s n c sh sweep
        (sweep || planSweep sh.desc.schema (histOf sh c.local_) (cmdParams s c) (bits c.pcfg.toNat 0 5))) n c
      (inputVector (bits (eArg0 c.entry) 0 2) (eDataLen c.entry / vfmtBytes (bits (eArg0 c.entry) 0 2)) (inputData s c.entry)) := by
  rw [searchCmd_runs hcheck hplanner hunit hrate htokens, planOwn_here hshard hhere hnew, inputData_of_mem (ownPart_mem s n c sh sweep _)]

end

/-- Settles O22: what each verdict of `searchCheck` leads to, and what stands before the vector is scored. -/
theorem searchCommandsComplete : Obligations.SearchCommandsComplete := by
  refine ⟨fun s n st c h hcheck => ?_, fun s n c h hcheck => ?_, fun s n c h hcheck => ?_, fun s n st c h hcheck => ?_,
    fun s n vf c sh sw h hcheck hplanner hunit hnew hrate hshard hhere htokens hvf hsw => ?_,
    fun s n vf c sh h hcheck hunit hnew hrate hshard hhere htokens hvf => ?_⟩
  · exact ⟨_, congrArg Host.Outcome.next ((onAdmitted_of h _).trans (searchCmd_ends hcheck)), h.endedWith_endWith rfl st⟩
  · refine ⟨_, congrArg Host.Outcome.next ((onAdmitted_of h _).trans (searchCmd_planRejected hcheck)),
      h.endedWith_endWith (event_host_cmds _ _ _ _) _, ?_⟩
    exact (hasEvent_event s _ _ (by decide)).finish _ _ _ _
  · refine ⟨_, congrArg Host.Outcome.next ((onAdmitted_of h _).trans (searchCmd_profileDiffers hcheck)),
      h.endedWith_endWith (event_host_cmds _ _ _ _) _, ?_⟩
    exact (hasEvent_event s _ _ (by decide)).finish _ _ _ _
  · exact ⟨_, congrArg Host.Outcome.next ((onAdmitted_of h _).trans (searchCmd_ends hcheck)), h.endedWith_endWith rfl st⟩
  · subst hvf hsw
    refine congrArg Host.Outcome.next ((onAdmitted_of h _).trans ?_)
    rw [searchCmd_vector hcheck (.inr hplanner) hunit hnew hrate hshard hhere htokens]
    rw [Bool.false_or, ownPart_search h.get]
  · subst hvf
    refine congrArg Host.Outcome.next ((onAdmitted_of h _).trans ?_)
    rw [searchCmd_vector hcheck (.inl rfl) hunit hnew hrate hshard hhere htokens]
    rw [Bool.true_or, ownPart_sweep]

/-! ### Update batches (R551, R553, R554, R268) -/

section
variable {s : State} {n op : Nat} {c : Cmd}

theorem updateCmd_fails {st : Nat} (h : admittedAs s n c op) (hturn : earlierUnplaced s n c = false) (hcheck : batchCheck s c = .error st) :
    updateCmd s n op = endWith s n st := by
  obtain ⟨hget, hphase, hop⟩ := h
  simp [updateCmd, hget, hphase, hop, hturn, hcheck]

theorem updateCmd_places {k : Nat} (h : admittedAs s n c op) (hturn : earlierUnplaced s n c = false) (hcheck : batchCheck s c = .ok k) :
    updateCmd s n op = checkFences (endBatch (placeAll (fun s c i => placeEntry s n c i) k (s.updCmd n fun c => { c with
      phase := .running, total := k, gids := (List.range k).map fun i => field (inputData s c.entry) (i * (eDataLen c.entry / k)) 8 }) n) n) := by
  obtain ⟨hget, hphase, hop⟩ := h
  have hsame : (s.updCmd n fun x => { x with
      phase := .running, total := k, gids := (List.range k).map fun i => field (inputData s c.entry) (i * (eDataLen c.entry / k)) 8 }) =
      s.updCmd n fun c => { c with
        phase := .running, total := k, gids := (List.range k).map fun i => field (inputData s c.entry) (i * (eDataLen c.entry / k)) 8 } :=
    updCmd_congr fun x hx => by rw [Option.some.inj (hx.symm.trans hget)]
  rw [← hsame]
  simp [updateCmd, hget, hphase, hop, hturn, hcheck]

/-- Each update command's row places its batch. -/
theorem exec_updateRow {i : Instr} (hi : (op, i) ∈ [(0x10, Instr.insert n), (0x11, .upsert n), (0x12, .delete n), (0x13, .attrSet n)]) :
    exec i s = .next (updateCmd s n op) := by
  simp only [List.mem_cons, List.not_mem_nil, or_false, Prod.mk.injEq] at hi
  obtain ⟨rfl, rfl⟩ | ⟨rfl, rfl⟩ | ⟨rfl, rfl⟩ | ⟨rfl, rfl⟩ := hi <;> rfl

theorem fullWaitExpiry_refuses {b : Nat} (hget : s.host.cmds.get n = some c) (hphase : c.phase ≠ .done) (hwait : c.fullWait = some b) :
    fullWaitExpiry s n = checkFences (refuseRest (s.event .epcPevent c.part b) n stQuota) := by
  simp only [fullWaitExpiry, hget, hwait, if_neg hphase]

/-- The outcomes of a batch of which the entries from the next on are refused. -/
def outsRefused (c : Cmd) (st : Nat) : List EntryOut :=
  c.outs ++ [refusedAt c c.outs.length (c.gids.getD c.outs.length 0) st] ++
    (List.range (c.total - (c.outs.length + 1))).map fun i => { refused (c.gids.getD (c.outs.length + 1 + i) 0) st with flags := 8 }

/-- Where no entry before is open, the refusal of the rest ends the batch. -/
theorem refuseRest_endedWith {st : Nat} (hst : st ≠ 0) (hget : s.host.cmds.get n = some c) (hrun : c.phase = .running)
    (hleft : c.outs.length < c.total) (hopen : c.outs.any EntryOut.open_ = false) :
    endedWith (refuseRest s n st) n (batchStatus (outsRefused c st)) := by
  have hstop : (stopBatch (s.addOut n (refusedAt c c.outs.length (c.gids.getD c.outs.length 0) st)) n st).host.cmds.get n =
      some { c with fullWait := none, next := c.total, outs := outsRefused c st } := by
    rw [stopBatch, updCmd_get, State.addOut, updCmd_get, hget]
    simp [outsRefused]
  have hall : c.total ≤ (outsRefused c st).length := by
    simp [outsRefused]
    omega
  have hshut : (outsRefused c st).any EntryOut.open_ = false := by
    simp [outsRefused, hopen, EntryOut.open_, refusedAt, refused, hst]
  obtain ⟨d, hd, hdone, houts, hstatus⟩ := endBatch_done hstop hrun Nat.le.refl hall hshut
  simp only [refuseRest, hget]
  exact ⟨d, hd, hdone, hstatus⟩

theorem checkFences_of_none (h : s.epoch.fences = []) : checkFences s = s := by
  rw [checkFences, h]
  rfl

theorem refuseRest_fences (s : State) (n st : Nat) : (refuseRest s n st).epoch.fences = s.epoch.fences :=
  congrArg EpochState.fences ((Frame.refuseRest (ps := [.host, .lichen, .twill]) .refl).same .epoch (by decide))

end

/-! ### Journal pages (R261, R278, R384) -/

section
variable {s : State} {p : Nat} {g : JPage}

theorem closeLast_append (l : List JPage) (g : JPage) : closeLast (l ++ [g]) = l ++ [{ g with closed := true }] := by
  simp [closeLast]

theorem pageClose_open {l : List JPage} (hpages : (journalOf s p).pages = l ++ [g]) (hopen : g.closed = false) (hrecs : g.recs ≠ [])
    (hfew : closedRunning (journalOf s p) < 8) (hrate : zeroRate s p tT5 = false) :
    pageClose s p = charge (setJournal s p { journalOf s p with pages := l ++ [{ g with closed := true }] }) p tT5 (2 * flashPage s) := by
  simp only [pageClose, hpages, List.getLast?_concat, closeLast_append]
  exact if_neg (by simp [hopen, hrecs, hrate, hfew])

/-- A page of which the first copy has programmed. -/
def copied (s : State) (p : Nat) (g : JPage) : JPage := { g with copy0 := true, image0 := pageImage s p 0 g }

theorem programDone_first (hpages : (journalOf s p).pages = [g]) (hclosed : g.closed = true) :
    programDone s p g.jseq 0 = takeDurable (setJournal s p { journalOf s p with
      pages := (donePages [copied s p g]).2, durable := (journalOf s p).durable ++ (donePages [copied s p g]).1 }) p
      ((donePages [copied s p g]).1.flatMap (·.recs)) := by
  simp [programDone, hpages, hclosed, copied]

theorem donePages_both (hclosed : g.closed = true) (hsecond : g.copy1 = true) : donePages [copied s p g] = ([copied s p g], []) := by
  simp [donePages, copied, hclosed, hsecond]

theorem donePages_one (hsecond : g.copy1 = false) : donePages [copied s p g] = ([], [copied s p g]) := by
  simp [donePages, copied, hsecond]

theorem takeDurable_now (hprepared : s.epoch.prepared = false) (j : Journal) (l : List JRec) :
    takeDurable (setJournal s p j) p l = l.foldl (fun t r => acceptRec t p r)
      ((setJournal s p j).mapEpoch fun e => { e with largest := l.foldl (fun m r => if r.typ = 5 then max m r.epoch else m) e.largest }) :=
  if_neg (show ¬ s.epoch.prepared = true by simp [hprepared])

end

/-- Settles O26: a batch's check, the entries that FULL_WAIT refuses, and the copies of a journal page. -/
theorem updateCommandsComplete : Obligations.UpdateCommandsComplete := by
  refine ⟨fun s n op st i c hi h hturn hcheck => ?_, fun s n op k i c hi h hturn hcheck => ?_, fun s n b c hget hphase hwait => ?_,
    fun s n b c hget hrun hwait hfences hleft hopen => ?_, fun s p g l hpages hopen hrecs hfew hrate => ?_,
    fun s p g hpages hclosed hfirst hprepared => ⟨fun hsecond => ?_, fun hsecond => ?_⟩⟩
  · exact ⟨_, (exec_updateRow hi).trans (congrArg Host.Outcome.next (updateCmd_fails h hturn hcheck)), h.endedWith_endWith rfl st⟩
  · exact (exec_updateRow hi).trans (congrArg Host.Outcome.next (updateCmd_places h hturn hcheck))
  · exact congrArg Host.Outcome.next (fullWaitExpiry_refuses hget hphase hwait)
  · refine ⟨_, congrArg Host.Outcome.next (fullWaitExpiry_refuses hget (by simp [hrun]) hwait), ?_⟩
    rw [checkFences_of_none (by rw [refuseRest_fences, event_epoch, hfences])]
    exact refuseRest_endedWith (by decide) (by rw [event_host_cmds, hget]) hrun hleft hopen
  · exact congrArg Host.Outcome.next (pageClose_open hpages hopen hrecs hfew hrate)
  · refine congrArg (fun t => Host.Outcome.next (checkFences t)) ?_
    rw [programDone_first hpages hclosed, donePages_both hclosed hsecond, takeDurable_now hprepared]
    simp only [List.flatMap_cons, List.flatMap_nil, List.append_nil]
    rfl
  · refine congrArg (fun t => Host.Outcome.next (checkFences t)) ?_
    rw [programDone_first hpages hclosed, donePages_one hsecond, takeDurable_now hprepared]
    simp only [List.append_nil, List.flatMap_nil]
    rfl

/-! ### Index administration (R563 to R570) -/

section
variable {s : State} {n : Nat} {c : Cmd} {sh : Shard}

theorem exec_onTiers {op : Nat} {tiers : List Nat} {f : State → Cmd → State} (h : admittedAs s n c op)
    (hrate : tiers.any (zeroRate s c.part) = false) :
    onAdmitted s n [op] (fun c => onTiers s n c.part tiers fun s => f s c) = f s c := by
  rw [onAdmitted_of h]
  exact onTiers_of_rates (by simpa using hrate) n _

/-! #### INDEX_CREATE -/

theorem indexCreate_checked {d : ShardDesc} (hd : d = createDesc (paramBlock s c.entry) (inputData s c.entry))
    (hfree : shardOf s c.part (eIndex c.entry) = none) (hlen : 192 ≤ (paramBlock s c.entry).length)
    (hrec : numrecOk (inputData s c.entry) = true) (hfields : createFieldsOk (paramBlock s c.entry) d = true)
    (hwins : (descWins d).all (winIs s c.part) = true) (hnodup : ((descWins d).map (·.1)).Nodup)
    (hheld : ((descWins d).map (·.1)).any (heldWins s c.part).contains = false) :
    indexCreate s n c = if !createRoom s c.part d then endWith s n stQuota
      else endWith (emptyWins ((s.mapShards fun m => Smap.put m (64 * c.part + eIndex c.entry)
        (newShard c.part (eIndex c.entry) d ((t3Home s c.part d).getD []))).mapFelt fun f =>
          { f with locators := addSet f.locators (64 * c.part + eIndex c.entry) })
        (newShard c.part (eIndex c.entry) d ((t3Home s c.part d).getD []))).drawn n stOk := by
  subst hd
  refine if_neg ?_
  rintro (h | h | h | h | h | h | h)
  · simp [hfree] at h
  · omega
  · simp [hrec] at h
  · simp [hfields] at h
  · simp [hwins] at h
  · simp [hnodup] at h
  · exact Bool.false_ne_true (hheld.symm.trans h)

theorem emptyWins_lichen (s : State) (sh : Shard) : Frame [.lichen] s (emptyWins s sh) := .emptyWins .refl

/-- The new shard, its windows emptied. -/
theorem createdShard_stands (hget : s.host.cmds.get n = some c) (hphase : c.phase ≠ .done) (sh : Shard) (k : Nat)
    (f : FeltState → FeltState) :
    endedWith (endWith (emptyWins ((s.mapShards fun m => Smap.put m k sh).mapFelt f) sh).drawn n stOk) n stOk ∧
      (endWith (emptyWins ((s.mapShards fun m => Smap.put m k sh).mapFelt f) sh).drawn n stOk).shards.get k = some sh := by
  have hframe := emptyWins_lichen ((s.mapShards fun m => Smap.put m k sh).mapFelt f) sh
  have hhost : (emptyWins ((s.mapShards fun m => Smap.put m k sh).mapFelt f) sh).drawn.host = s.host := hframe.same .host (by decide)
  have hshards : (emptyWins ((s.mapShards fun m => Smap.put m k sh).mapFelt f) sh).drawn.shards = s.shards.put k sh :=
    hframe.same .shards (by decide)
  refine ⟨finish_endedWith (by rw [hhost, hget]) hphase _ _ _, ?_⟩
  rw [endWith_shards, hshards]
  exact Smap.get_put_same _ _ _

/-! #### INDEX_DESCRIBE and INDEX_RETIRE -/

/-- The 1,024 bytes that INDEX_DESCRIBE returns. -/
def describedBytes (s : State) (c : Cmd) : List Byte :=
  match shardOf s c.part (eIndex c.entry) with
  | none => natLe 1024 0
  | some sh => slice (descriptorBytes sh) 0 1024

theorem indexDescribe_result (hroom : 1024 ≤ eResultLen c.entry) : ∃ pr,
    indexDescribe s n c = finish (putResult s n 0 (describedBytes s c)) n stOk pr 0 := by
  have hroom' : ¬ eResultLen c.entry < 1024 := by omega
  cases hshard : shardOf s c.part (eIndex c.entry) with
  | none => exact ⟨0, by simp only [indexDescribe, describedBytes, hshard, if_neg hroom']⟩
  | some sh => exact ⟨describeProgress s c, by simp only [indexDescribe, describedBytes, hshard, if_neg hroom']⟩

theorem indexRetire_marks (hshard : shardOf s c.part (eIndex c.entry) = some sh) (hnew : sh.retire = none)
    (halone : compOf s c.part sh.index = none) :
    indexRetire s n c = markRunning (s.updShard c.part sh.index fun h => { h with retire := some (n, 0) }) n := by
  simp [indexRetire, hshard, hnew, halone]

theorem indexRetire_missing (hnone : shardOf s c.part (eIndex c.entry) = none) : indexRetire s n c = endWith s n stInvalid := by
  simp only [indexRetire, hnone]

/-! #### INDEX_RELOCATE, BULK_LOAD, SEAL and HIST_LOAD -/

theorem indexRelocate_copies {src dst : Nat} {w : Nat × Bool × Nat} (hshard : shardOf s c.part (eIndex c.entry) = some sh)
    (hsrc : src = field (paramBlock s c.entry) 0 2) (hdst : dst = field (paramBlock s c.entry) 2 2)
    (hwin : ((descWins sh.desc).find? fun w => w.1 == src) = some w) (hlen : (paramBlock s c.entry).length = 64)
    (hzero : zeroAt (paramBlock s c.entry) 4 60 = true) (hphase : sh.phase ≠ .retiring) (hown : winIs s c.part (dst, w.2) = true)
    (hfree : (heldWins s c.part).contains dst = false) (hnew : sh.reloc = none) :
    indexRelocate s n c = (if winUp (markRunning s n) src then copyWin (markRunning s n) src dst else
      buildWin (markRunning s n) sh src dst).updShard c.part sh.index fun h => { h with reloc := some (n, src, dst) } := by
  subst hsrc hdst
  simp only [indexRelocate, hshard, hwin]
  rw [if_neg (by simp only [hlen, hzero, hphase, hown, hfree]; decide), if_neg (by simp [hnew])]

theorem bulkLoad_puts {t : State} {vf w k : Nat} {l : List BulkItem} (hshard : shardOf s c.part (eIndex c.entry) = some sh)
    (hphase : sh.phase = .building) (hnew : sh.loadQp = none) (hvf : vf = bits (eArg0 c.entry) 0 2) (hform : vf ≠ 3)
    (hw : w = 64 * ceilDiv (16 + nrDim sh.desc.numrec * vfmtBytes vf + (if bit (eArg0 c.entry) 2 then 4 * sh.desc.degree else 0)) 64)
    (hk : k = eDataLen c.entry / w) (hwhole : eDataLen c.entry % w = 0) (hpos : 0 < k) (hmax : k ≤ 4096)
    (hroom : sh.highWater + k ≤ sh.desc.slotLimit)
    (hitems : bulkItems sh vf w (bit (eArg0 c.entry) 2) sh.highWater (inputData s c.entry) k 0 = some l) (hnodup : (l.map (·.gid)).Nodup)
    (hids : ((l.map (·.gid)).any fun g => (idSlot s sh g).isSome) = false) (hputs : bulkPuts c.part sh.index l s = some t) :
    bulkLoad s n c = finish (t.updShard c.part sh.index fun h => { h with
      loadQp := some (c.qp.getD 16384), hostAdj := bit (eArg0 c.entry) 2 }) n stOk (sh.highWater + k) 0 := by
  have hform' : ¬ (sh.phase ≠ .building ∨ vf = 3 ∨ eDataLen c.entry % w ≠ 0 ∨ k = 0 ∨ k > 4096 ∨
      (sh.loadQp.isSome ∧ (sh.loadQp ≠ some (c.qp.getD 16384) ∨ sh.hostAdj ≠ bit (eArg0 c.entry) 2))) := by
    rintro (h | h | h | h | h | ⟨h, -⟩)
    · exact h hphase
    · exact hform h
    · exact h hwhole
    · omega
    · omega
    · simp [hnew] at h
  subst hk hw hvf
  simp only [bulkLoad, hshard]
  rw [if_neg hform', hitems]
  dsimp only
  rw [if_neg (by simp only [hids, hnodup]; decide), if_neg (by omega), hputs]

theorem sealShard_builds {k : Nat} {b : List Byte} {es : List Nat} {bt : Shard} (hshard : shardOf s c.part (eIndex c.entry) = some sh)
    (hphase : sh.phase = .building) (hb : b = paramBlock s c.entry) (hlen : b.length = 128) (hk : k = field b 0 1) (hmax : k ≤ 16)
    (hzero : zeroAt b 1 0x3F = true) (hes : es = (List.range 16).map fun i => field b (0x40 + 4 * i) 4)
    (hrest : (es.drop k).any (· != nullSlot) = false) (hslots : (es.take k).any (fun x => decide (x ≥ sh.highWater)) = false)
    (hbt : bt = if sh.hostAdj ∧ sh.loadQp.isSome then sh else buildGraph s sh (if k = 0 then [0] else es.take k)) :
    sealShard s n c = markRunning ((bt.adj.foldl (fun t e => hotWrite t sh e.1 e.2) s).updShard c.part sh.index fun h => { h with
      phase := .sealing, sealCmd := some n, adj := bt.adj, desc := { h.desc with entry := if k = 0 then [0] else es.take k } }) n := by
  have hform : ¬ (sh.phase ≠ .building ∨ b.length ≠ 128 ∨ k > 16 ∨ !zeroAt b 1 0x3F ∨ (es.drop k).any (· != nullSlot) ∨
      (es.take k).any (fun x => decide (x ≥ sh.highWater))) := by
    rintro (h | h | h | h | h | h)
    · exact h hphase
    · exact h hlen
    · omega
    · simp [hzero] at h
    · exact Bool.false_ne_true (hrest.symm.trans h)
    · exact Bool.false_ne_true (hslots.symm.trans h)
  subst hbt hes hk hb
  simp only [sealShard, hshard]
  rw [if_neg hform]

theorem histLoad_record {h : Hist} (hshard : shardOf s c.part (eIndex c.entry) = some sh) (hmode : c.mode 4 = true) (hphase : sh.phase ≠ .retiring)
    (hlen : eDataLen c.entry = 9232) (hhist : hostHistogram sh c.epoch (inputData s c.entry) = some h) :
    histLoad s n c = if c.epoch ≤ s.epoch.cur then endWith s n stEpochExpired
      else endWith (s.updShard c.part sh.index fun x => { x with hostHist := x.hostHist.put c.epoch h }) n stOk := by
  simp only [histLoad, hshard]
  rw [if_pos ⟨hmode, hphase, hlen⟩, hhist]

end

/-- Settles O28: the check that each command passes, and the state that it leaves. -/
theorem indexAdminCompletes : Obligations.IndexAdminCompletes := by
  refine ⟨fun s n c b r d h hrate hb hr hd hfree hlen hrec hfields hwins hnodup hheld => ?_, fun s n c h hrate hroom => ?_,
    fun s n c sh h hshard hnew halone => congrArg Host.Outcome.next ((onAdmitted_of h _).trans (indexRetire_marks hshard hnew halone)),
    fun s n c h hnone => ⟨_, congrArg Host.Outcome.next ((onAdmitted_of h _).trans (indexRetire_missing hnone)), h.endedWith_endWith rfl _⟩,
    fun s n src dst c sh w h hrate hshard hsrc hdst hwin hlen hzero hphase hown hfree hnew => ?_,
    fun s t n vf w k c sh l h hrate hshard hphase hnew hvf hform hw hk hwhole hpos hmax hroom hitems hnodup hids hputs => ?_,
    fun s n k c sh b es h hrate hshard hphase hb hlen hk hmax hzero hes hrest hslots bt hbt => ?_,
    fun s n c sh hist h hrate hshard hmode hphase hlen hhist => ⟨fun hahead => ?_, fun hpast => ?_⟩⟩
  · subst hb hr
    have hexec := (exec_onTiers (f := fun s c => indexCreate s n c) h hrate).trans
      (indexCreate_checked hd hfree hlen hrec hfields hwins hnodup hheld)
    refine ⟨fun hroom => ?_, fun hroom => ?_⟩
    · rw [if_neg (by simp [hroom])] at hexec
      exact ⟨_, congrArg Host.Outcome.next hexec, createdShard_stands h.get h.not_done _ _ _⟩
    · rw [if_pos (by simp [hroom])] at hexec
      exact ⟨_, congrArg Host.Outcome.next hexec, h.endedWith_endWith rfl _, endWith_shards _ _ _⟩
  · obtain ⟨pr, hdescribe⟩ := indexDescribe_result (s := s) (n := n) hroom
    have hput : (putResult s n 0 (describedBytes s c)).host.cmds.get n = some { c with result := c.result ++ [(0, describedBytes s c)] } := by
      rw [putResult, updCmd_get, h.get]
      rfl
    refine ⟨_, congrArg Host.Outcome.next ((exec_onTiers (f := fun s c => indexDescribe s n c) h (by simp [hrate])).trans hdescribe),
      finish_endedWith hput h.not_done _ _ _, finish_shards _ _ _ _ _, ?_⟩
    rw [finish_get _ _ _ _ _ _ hput h.not_done]
    rfl
  · exact congrArg Host.Outcome.next ((exec_onTiers (f := fun s c => indexRelocate s n c) h hrate).trans
      (indexRelocate_copies hshard hsrc hdst hwin hlen hzero hphase hown hfree hnew))
  · exact congrArg Host.Outcome.next ((exec_onTiers (f := fun s c => bulkLoad s n c) h hrate).trans
      (bulkLoad_puts hshard hphase hnew hvf hform hw hk hwhole hpos hmax hroom hitems hnodup hids hputs))
  · exact congrArg Host.Outcome.next ((exec_onTiers (f := fun s c => sealShard s n c) h hrate).trans
      (sealShard_builds hshard hphase hb hlen hk hmax hzero hes hrest hslots hbt))
  · exact congrArg Host.Outcome.next ((exec_onTiers (f := fun s c => histLoad s n c) h hrate).trans
      ((histLoad_record hshard hmode hphase hlen hhist).trans (if_neg (by omega))))
  · exact ⟨_, congrArg Host.Outcome.next ((exec_onTiers (f := fun s c => histLoad s n c) h hrate).trans
      ((histLoad_record hshard hmode hphase hlen hhist).trans (if_pos hpast))), h.endedWith_endWith rfl _⟩

/-! ### Model commands (R556 to R560, R573, R574, R696) -/

section
variable {s : State} {n : Nat} {c : Cmd} {b : List Byte} {docs : List DocRec} {sh : Shard}

/-! #### EMBED and EMBED_INSERT -/

/-- The outcomes with which an EMBED opens: a document that cannot run is refused, the others carry the status. -/
def openedOuts (c : Cmd) (docs : List DocRec) (st : Nat) (img : Option (List Byte)) : List EntryOut :=
  docs.map fun d => if img.isSome ∧ !docOk img c.prof false d then refused 0 stInvalid else { refused 0 st with status := st }

/-- An EMBED that has begun. -/
def embedStarted (s : State) (n k : Nat) (outs : List EntryOut) : State :=
  s.updCmd n fun c => { c with phase := .running, total := k, outs := outs, gids := List.replicate k 0 }

theorem embedCmd_begins (hdocs : cmdDocs s c = some docs) (hrole : bits (eArg0 c.entry) 0 2 = 1) (hindex : eIndex c.entry = 0)
    (hroom : 32 * docs.length + ((boundImage s c.part .doc c.local_).map embedStride).getD 0 * docs.length ≤ eResultLen c.entry)
    (hclash : profileClash s c .doc = false) (hrate : (runTiers (boundImage s c.part .doc c.local_)).any (zeroRate s c.part) = false) :
    embedCmd s n c = match modelAvail s c.part .doc c.local_ with
      | .copying => s
      | .missing => embedEnd (embedStarted s n docs.length (openedOuts c docs stModelUnavailable none)) n (boundImage s c.part .doc c.local_)
      | .ready b => embedEnd (submitDocs (embedStarted s n docs.length (openedOuts c docs stOk (some b))) n c .doc b false docs) n (some b) := by
  have hdoc : embedRole c = .doc := by
    rw [embedRole, hrole]
    rfl
  simp only [embedCmd, hdocs, hdoc]
  rw [if_neg (by omega), if_neg (by simp [hclash]), onTiers_of_rates (by simpa using hrate)]
  rfl

theorem openedOuts_ready (c : Cmd) (docs : List DocRec) (b : List Byte) : openedOuts c docs stOk (some b) =
    docs.map fun d => if docOk (some b) c.prof false d then { refused 0 stOk with status := stOk } else refused 0 stInvalid := by
  refine List.map_congr_left fun d _ => ?_
  cases docOk (some b) c.prof false d <;> simp

theorem openedOuts_missing (c : Cmd) (docs : List DocRec) :
    openedOuts c docs stModelUnavailable none = docs.map fun _ => { refused 0 stModelUnavailable with status := stModelUnavailable } := by
  simp [openedOuts]

/-- Where no document can run, the EMBED ends at once. -/
theorem embedEnd_missing (hget : s.host.cmds.get n = some c) (hdocs : docs ≠ []) :
    endedWith (embedEnd (embedStarted s n docs.length (openedOuts c docs stModelUnavailable none)) n none) n stModelUnavailable := by
  have hstart : (embedStarted s n docs.length (openedOuts c docs stModelUnavailable none)).host.cmds.get n = some { c with
      phase := .running, total := docs.length, outs := openedOuts c docs stModelUnavailable none, gids := List.replicate docs.length 0 } := by
    rw [embedStarted, updCmd_get, hget]
    rfl
  have hstatus : batchStatus (openedOuts c docs stModelUnavailable none) = stModelUnavailable := by
    obtain ⟨d, l, rfl⟩ := List.exists_cons_of_ne_nil hdocs
    rw [openedOuts_missing, List.map_cons]
    exact (batchStatus_first_failure (a := []) (fun p hp => by cases hp) (by decide)).trans (if_neg (by simp [stModelUnavailable, stFaultedNone]))
  have hnone : (openedOuts c docs stModelUnavailable none).any (fun o => o.status == 0 && o.state == 0) = false := by
    rw [openedOuts_missing]
    simp [stModelUnavailable]
  simp only [embedEnd, hstart]
  rw [if_neg (by simp [hnone]), hstatus]
  have hput (x : List Byte) : ((putResult (embedStarted s n docs.length (openedOuts c docs stModelUnavailable none)) n 0 x).host.cmds.get n).map
      (·.phase) = some .running := by
    rw [putResult, updCmd_get, hstart]
    rfl
  obtain ⟨d, hd, hphase⟩ := Option.map_eq_some_iff.1 (hput _)
  exact finish_endedWith hd (by rw [hphase]; decide) _ _ _

theorem embedInsert_begins (h : admittedAs s n c 0x21) (hturn : earlierUnplaced s n c = false) (hdocs : cmdDocs s c = some docs)
    (hshard : shardOf s c.part (eIndex c.entry) = some sh) (hserving : serving sh = true) (hkept : sh.lost = false)
    (hroom : 32 * docs.length ≤ eResultLen c.entry) (hclash : profileClash s c .doc = false)
    (hmodel : modelAvail s c.part .doc c.local_ = .ready b) (hrate : (runTiers (some b)).any (zeroRate s c.part) = false) :
    embedInsert s n = placeDocs (submitDocs (s.updCmd n fun x => { x with
      phase := .running, total := docs.length, gids := docs.map (·.gid), outputs := [] }) n c .doc b true docs) n := by
  obtain ⟨hget, hphase, hop⟩ := h
  have hroom' : ¬ eResultLen c.entry < 32 * docs.length := by omega
  simp only [embedInsert, hget, hdocs, hshard, hmodel]
  rw [if_neg (by simp [hop, hphase, hturn]), if_neg (by simp [hphase]), if_neg (by simp [hserving]), if_neg (by simp [hkept]), if_neg hroom',
    if_neg (by simp [hclash]), if_neg (by simp [hrate])]

/-! #### RERANK -/

/-- A RERANK of which the checks of R696 pass. -/
theorem rerankCmd_checked {nt nc : Nat} {d : List Byte} {ids : List Nat} (hshard : shardOf s c.part (eIndex c.entry) = some sh)
    (hserving : serving sh = true) (hkept : sh.lost = false) (hd : d = inputData s c.entry) (hnt : nt = field d 0 2) (hnc : nc = field d 2 2)
    (hpos : 0 < nc) (hmax : nc ≤ 1024) (hzero : zeroAt d 4 28 = true) (hlen : eDataLen c.entry = 32 + 32 * ceilDiv (4 * nt) 32 + 8 * nc)
    (hpad : zeroAt d (32 + 4 * nt) (32 * ceilDiv (4 * nt) 32 - 4 * nt) = true) (hroom : 16 * nc ≤ eResultLen c.entry)
    (hids : ids = ((List.range nc).map fun i => field d (32 + 32 * ceilDiv (4 * nt) 32 + 8 * i) 8)) (hnodup : ids.Nodup)
    (hepoch : c.local_ ≠ 0) (hretained : c.kept = true) (hfirst : sh.firstServing ≤ c.local_)
    (htokens : tokensOk (boundImage s c.part .rerank c.local_) c.prof (tokensOf (slice d 32 (4 * nt))) = true)
    (hclash : profileClash s c .rerank = false) :
    rerankCmd s n c = match modelAvail s c.part .rerank c.local_ with
      | .missing => endWith s n stModelUnavailable
      | .copying => s
      | .ready b => onTiers s n c.part (runTiers (some b)) fun s =>
          startRerank (markRunning s n) n c (ids.map (rerankCand s sh c.local_)) (tokensOf (slice d 32 (4 * nt))) := by
  have hpad' : zeroAt d (32 + 4 * nt) (32 + 32 * ceilDiv (4 * nt) 32 - 32 - 4 * nt) = true := by
    rwa [Nat.add_sub_cancel_left]
  have hform : ¬ (nc = 0 ∨ nc > 1024 ∨ !zeroAt d 4 28 ∨ eDataLen c.entry ≠ 32 + 32 * ceilDiv (4 * nt) 32 + 8 * nc ∨
      !zeroAt d (32 + 4 * nt) (32 + 32 * ceilDiv (4 * nt) 32 - 32 - 4 * nt) ∨ eResultLen c.entry < 16 * nc) := by
    rintro (h | h | h | h | h | h)
    · omega
    · omega
    · simp [hzero] at h
    · exact h hlen
    · rw [hpad'] at h
      exact absurd h (by decide)
    · omega
  have hlate : ¬ (c.local_ = 0 ∨ !c.kept ∨ c.local_ < sh.firstServing) := by
    rintro (h | h | h)
    · exact hepoch h
    · simp [hretained] at h
    · omega
  subst hids hnt hnc hd
  simp only [rerankCmd, hshard]
  rw [if_neg (by simp [hserving]), if_neg (by simp [hkept]), if_neg hform, if_neg (by simp only [hnodup]; decide), if_neg hlate,
    if_neg (by simp [htokens])]
  exact if_neg (by simp [hclash])

/-! #### MODEL_STORE and MODEL_GROUP -/

theorem modelRemove_unbound {b : List Byte}
    (hfind : (s.model.store.find? fun b => miModelId b == eArg1 c.entry && miRank b == bits (eArg0 c.entry) 8 8) = some b)
    (hfree : digestBound s (miDigest b) = false) :
    modelRemove s n c = endWith (s.mapModel fun m => { m with store := m.store.filter fun x => x != b }) n stOk := by
  simp [modelRemove, hfind, hfree]

theorem modelRemove_none
    (hfind : (s.model.store.find? fun b => miModelId b == eArg1 c.entry && miRank b == bits (eArg0 c.entry) 8 8) = none) :
    modelRemove s n c = endWith s n stInvalid := by
  simp only [modelRemove, hfind]

theorem modelGroup_checked {g : Nat} {nodes : List Nat} (hb : b = paramBlock s c.entry) (hlen : ePbLen c.entry = 64) (hpad : zeroAt b 5 3 = true)
    (hzero : zeroAt b 0x18 8 = true) (htarget : field b 0x10 8 < 2 ^ 48) (hg : g = field b 4 1) (hsize : g ∈ [1, 2, 4, 8])
    (hnodes : nodes = ((List.range (min g 8)).map fun i => field b (0x20 + 4 * i) 4)) (hknown : nodes.any (fun x => x ≥ noNode) = false)
    (hrest : zeroAt b (0x20 + 4 * g) (32 - 4 * g) = true) (hown : nodes.contains (nodeId s) = true) :
    modelGroup s n c = if field b 0x10 8 < s.epoch.cur + 2 then endWith s n stEpochExpired
      else (markRunning s n).mapModel fun m => { m with
        forming := m.forming ++ [(field b 0 4, { modelId := field b 8 8, nodes := nodes, target := field b 0x10 8, cmd := some n })] } := by
  subst hnodes hg hb
  refine if_neg ?_
  rintro (h | h | h | h | h | h | h | h)
  · exact h hlen
  · simp [hpad] at h
  · simp [hzero] at h
  · omega
  · rw [List.contains_iff_mem.2 hsize] at h
    exact absurd h (by decide)
  · exact Bool.false_ne_true (hknown.symm.trans h)
  · simp [hrest] at h
  · rw [hown] at h
    exact absurd h (by decide)

end

/-- Settles O31: the checks that each command passes, and what its model's presence lets it do. -/
theorem modelCommandsComplete : Obligations.ModelCommandsComplete := by
  refine ⟨fun s n k c docs b h hdocs hk hrole hindex hroom hclash hrate => ?_,
    fun s n c docs b sh h hturn hdocs hshard hserving hkept hroom hclash hmodel hrate =>
      congrArg Host.Outcome.next (embedInsert_begins h hturn hdocs hshard hserving hkept hroom hclash hmodel hrate),
    fun s n nt nc c sh d b ids h hshard hserving hkept hd hnt hnc hpos hmax hzero hlen hpad hroom hids hnodup hepoch hretained hfirst htokens
      hclash => ?_,
    fun s n r c b h hstore hrate hb hr => ?_, fun s n c h hremove => ⟨fun b hfind hfree => ?_, fun hnone => ?_⟩,
    fun s n g c b nodes h hb hlen hpad hzero htarget hg hsize hnodes hknown hrest hown => ?_⟩
  · subst hk
    have hbegins := (onAdmitted_of h fun c => embedCmd s n c).trans (embedCmd_begins hdocs hrole hindex hroom hclash hrate)
    refine ⟨fun hmodel => ?_, fun hmodel himage hdoc => ?_⟩
    · rw [hmodel] at hbegins
      dsimp only at hbegins
      rw [openedOuts_ready] at hbegins
      exact congrArg Host.Outcome.next hbegins
    · rw [hmodel, himage] at hbegins
      exact ⟨_, congrArg Host.Outcome.next hbegins, embedEnd_missing h.get fun h => hdoc (by rw [h]; rfl)⟩
  · have hchecked := (onAdmitted_of h fun c => rerankCmd s n c).trans (rerankCmd_checked hshard hserving hkept hd hnt hnc hpos hmax hzero hlen
      hpad hroom hids hnodup hepoch hretained hfirst htokens hclash)
    refine ⟨fun hmodel => ?_, fun hmodel hrate => ?_⟩
    · rw [hmodel] at hchecked
      exact ⟨_, congrArg Host.Outcome.next hchecked, h.endedWith_endWith rfl _⟩
    · rw [hmodel] at hchecked
      exact congrArg Host.Outcome.next (hchecked.trans (onTiers_of_rates (by simpa using hrate) n _))
  · subst hr hb
    refine congrArg Host.Outcome.next ((onAdmitted_of h _).trans ?_)
    rw [if_neg (by simp [hstore]), onTiers_of_rates (by simpa using hrate)]
    rfl
  · refine congrArg Host.Outcome.next ((onAdmitted_of h _).trans ?_)
    rw [if_pos hremove, modelRemove_unbound hfind hfree]
  · refine ⟨_, congrArg Host.Outcome.next ((onAdmitted_of h _).trans ?_), h.endedWith_endWith rfl stInvalid⟩
    rw [if_pos hremove, modelRemove_none hnone]
  · have hchecked := (onAdmitted_of h fun c => modelGroup s n c).trans
      (modelGroup_checked hb hlen hpad hzero htarget hg hsize hnodes hknown hrest hown)
    refine ⟨fun hahead => ?_, fun hnear => ?_⟩
    · rw [if_neg (by omega)] at hchecked
      exact congrArg Host.Outcome.next hchecked
    · rw [if_pos hnear] at hchecked
      exact ⟨_, congrArg Host.Outcome.next hchecked, h.endedWith_endWith rfl _⟩

end Sys2Proof.Machine
end

section
/-! PROOF. FAULTS AND DAMAGE. O34 and O35: units that fail, drain and return, damaged data, the ledger and the logs. -/
namespace Sys2Proof.Machine
open Sys2Proof
set_option Elab.async false

/-! ### Faults, drains, returns and lanes of units (R581 to R587) -/

section
variable {s : State} {kind u cls addr : Nat}

/-- The record of a unit that goes OUT. -/
def UnitRec.outOf (r : UnitRec) (auto tried : Bool) : UnitRec :=
  { r with st := .out, reenable := false, auto := auto, tries := r.tries + b2n tried, joins := false }

/-- A unit that goes OUT with tries left stays OUT, under the record of its way out; a register block is never retired. -/
theorem enterOut_keepsTrying {auto tried : Bool} (h : (s.unit kind u).tries + b2n tried < 3 ∨ kind = 0x13) :
    enterOut s kind u auto tried = (unitParts (unitEvent (s.setUnit kind u ((s.unit kind u).outOf auto tried)) kind u) kind u).foldl
      (fun t p => t.event .rasPevent p 2) ((unitEvent (s.setUnit kind u ((s.unit kind u).outOf auto tried)) kind u).event .rasEvent 0 1) :=
  if_neg fun hretired => h.elim (by omega) hretired.2

theorem enterOut_unit {auto tried : Bool} (h : (s.unit kind u).tries + b2n tried < 3 ∨ kind = 0x13) :
    (enterOut s kind u auto tried).unit kind u = (s.unit kind u).outOf auto tried := by
  rw [enterOut_keepsTrying h]
  have hreports := (unitEvent_onlyReports (s.setUnit kind u ((s.unit kind u).outOf auto tried)) kind u).trans (event_onlyReports _ .rasEvent 0 1)
  have hparts := hreports.trans (OnlyReports.foldl (fun t p => event_onlyReports t .rasPevent p 2)
    (unitParts (unitEvent (s.setUnit kind u ((s.unit kind u).outOf auto tried)) kind u) kind u) _)
  exact (hparts.unit kind u).trans (setUnit_unit_same s kind u (unitRec_ne_initial (by simp [UnitRec.outOf])))

theorem enterOut_hasEvent {auto tried : Bool} (h : (s.unit kind u).tries + b2n tried < 3 ∨ kind = 0x13) :
    (enterOut s kind u auto tried).HasEvent .rasEvent 0 1 := by
  rw [enterOut_keepsTrying h]
  exact (hasEvent_event _ .rasEvent 0 (by decide)).foldl (fun t p ht => ht.event .rasPevent p 2) _

theorem raiseEvent_usneaUp (s : State) (n : Nat) (b : List Byte) : usneaUp (raiseEvent s n b) = usneaUp s :=
  raiseEvent_keeps (p := fun x => x.running && !x.closed && !x.restarting) (fun _ _ _ => rfl) s n b

theorem event_usneaUp (s : State) (r : Reg) (v b : Nat) : usneaUp (s.event r v b) = usneaUp s := by simp [usneaUp]

theorem enterOut_usneaUp {auto tried : Bool} (h : (s.unit kind u).tries + b2n tried < 3 ∨ kind = 0x13) :
    usneaUp (enterOut s kind u auto tried) = usneaUp s := by
  rw [enterOut_keepsTrying h]
  exact ((foldl_keeps usneaUp (fun t p => event_usneaUp t .rasPevent p 2) _ _).trans (event_usneaUp _ _ _ _)).trans (raiseEvent_usneaUp _ _ _)

/-- A crypto engine in service has no work to move: its fault takes it OUT at once (R582). -/
theorem fenceOne_crypto (hserving : (s.unit 0x0D u).st = .inService) (hunit : u < 8) (auto : Bool) :
    fenceOne s 0x0D u cls addr auto = enterOut ((faultRecord s cls 0x0D u addr (unitParts s 0x0D u) []).setUnit 0x0D u
      ((s.unit 0x0D u).faulted cls)) 0x0D u auto false := by
  have hfault : unitFault s 0x0D u cls addr auto = enterOut ((faultRecord s cls 0x0D u addr (unitParts s 0x0D u) []).setUnit 0x0D u
      ((s.unit 0x0D u).faulted cls)) 0x0D u auto false := by
    rw [unitFault, if_neg (show ¬ u ≥ unitCount 0x0D from Nat.not_le.2 hunit)]
    simp only [hserving]
    rfl
  rw [← hfault, fenceOne]
  simp only [show ¬ (0x0D = 3 ∧ _) from fun h => absurd h.1 (by decide), if_false]
  exact ite_self _

theorem cryptoFault_out (hserving : (s.unit 0x0D u).st = .inService) (hunit : u < 8) (htries : (s.unit 0x0D u).tries < 3) :
    (fenceOne s 0x0D u cls addr true).unit 0x0D u = ((s.unit 0x0D u).faulted cls).outOf true false := by
  have hset : ((faultRecord s cls 0x0D u addr (unitParts s 0x0D u) []).setUnit 0x0D u ((s.unit 0x0D u).faulted cls)).unit 0x0D u =
      (s.unit 0x0D u).faulted cls := setUnit_unit_same _ _ _ (faulted_ne_initial _ _)
  rw [fenceOne_crypto hserving hunit, enterOut_unit (.inl (by rw [hset]; exact htries)), hset]

/-- A fault of a known class of a unit that is no register block fences the unit. -/
theorem exec_unitFault (hcls : 1 ≤ cls ∧ cls ≤ 0x12) (hblock : kind ≠ 0x13) :
    exec (.unitFault kind u cls addr) s = .next (fenceUnit s kind u cls addr true) :=
  congrArg Host.Outcome.next ((if_neg fun h => hblock h.1).trans (if_pos hcls))

theorem fenceUnit_single (hunit : u < unitCount kind) (hlink : kind ≠ 0x10) (hdomain : kind ≠ 0x12) (auto : Bool) :
    fenceUnit s kind u cls addr auto = fenceOne s kind u cls addr auto := by
  refine (if_neg (Nat.not_le.2 hunit)).trans ?_
  split
  · exact absurd rfl hlink
  · exact absurd rfl hdomain
  · rfl

theorem fenceUnit_link (hunit : u < 2) (auto : Bool) : fenceUnit s 0x10 u cls addr auto =
    (dieUnits u).foldl (fun t x => fenceOne t x.1 x.2 cls 0 auto) (fenceOne s 0x10 u cls addr auto) :=
  if_neg (Nat.not_le.2 hunit)

/-- A DRAINING unit with no work left goes OUT (R583). -/
theorem drainComplete_out (hdraining : (s.unit kind u).st = .draining) (hidle : holdsWork s kind u = false)
    (hstay : (s.unit kind u).reenable = false) (hshallow : s.power.deep.contains (unitKey kind u) = false) :
    drainComplete s kind u = outWork (fenceWork (enterOut s kind u false false) kind u) kind u := by
  have hpower : (outWork (fenceWork (enterOut s kind u false false) kind u) kind u).power = s.power :=
    Frame.power_eq (Frame.refl (ps := fenceParts)).enterOut.fenceWork.outWork
  rw [drainComplete, if_neg (by simp [hdraining, hidle])]
  simp only [hstay, hpower, hshallow, Bool.false_eq_true, if_false]

theorem setService_unit {f : UnitRec → UnitRec} (h : f (s.unit kind u) ≠ UnitRec.initial) :
    (setService s kind u f).unit kind u = f (s.unit kind u) :=
  ((unitEvent_onlyReports _ kind u).unit kind u).trans (setUnit_unit_same s kind u h)

/-- Return work that passes leaves the unit WAITING (R584). -/
theorem returnWorkDone_passes (hreturning : (s.unit kind u).st = .returning) (hcores : kind = 2 → noCores s u = false) :
    exec (.returnWorkDone kind u true) s =
      .next (setService (returnWork s kind u) kind u fun x => { x with st := .waiting, joins := false }) ∧
    ((setService (returnWork s kind u) kind u fun x => { x with st := .waiting, joins := false }).unit kind u).st = .waiting := by
  have hwaiting : ((setService (returnWork s kind u) kind u fun x => { x with st := .waiting, joins := false }).unit kind u).st = .waiting :=
    congrArg UnitRec.st (setService_unit (unitRec_ne_initial (by simp)))
  have hdone : returnDone s kind u true = setService (returnWork s kind u) kind u fun x => { x with st := .waiting, joins := false } := by
    rw [returnDone, if_neg (by simp [hreturning]), if_pos (by simpa [← imp_iff_not_or] using hcores)]
  refine ⟨congrArg Host.Outcome.next ?_, hwaiting⟩
  rw [hdone, failedBlock, if_neg fun h => by rw [hwaiting] at h; exact absurd h.2.1 (by decide)]

theorem returnDone_fails (hreturning : (s.unit kind u).st = .returning) : returnDone s kind u false = enterOut s kind u true true := by
  rw [returnDone, if_neg (by simp [hreturning]), if_neg (by simp)]

/-- A register block's third failed return resets the device (R593, R654). -/
theorem thirdFailure_resets (hreturning : (s.unit 0x13 u).st = .returning) (htries : (s.unit 0x13 u).tries = 2) (hup : usneaUp s = true) :
    exec (.returnWorkDone 0x13 u false) s = .next (warmReset (enterOut s 0x13 u true true)) := by
  have hunit : (enterOut s 0x13 u true true).unit 0x13 u = (s.unit 0x13 u).outOf true true := enterOut_unit (.inr rfl)
  refine congrArg Host.Outcome.next ?_
  rw [returnDone_fails hreturning]
  exact if_pos ⟨rfl, by rw [hunit]; rfl, by rw [hunit]; exact Nat.le_of_eq (congrArg (· + 1) htries.symm), (enterOut_usneaUp (.inr rfl)).trans hup⟩

end

/-- Settles O34, from what a unit that goes OUT keeps of its record and from the row of each kind of fault, drain and return. -/
theorem unitRowsComplete : Obligations.UnitRowsComplete := by
  unfold Obligations.UnitRowsComplete
  refine ⟨fun s u cls hu hlo hhi hserving htries => ?_, fun s kind u cls addr hu hlo hhi hlink hdomain hblock => ?_,
    fun s u cls addr hu hlo hhi => ?_, fun s kind u hdraining hidle hstay hshallow => ?_,
    fun s u hdraining hidle hstay hshallow htries => ?_, fun s kind u hreturning => ⟨fun hcores => ?_, fun hblock => ?_,
      fun hblock htries hup => thirdFailure_resets hblock htries hup⟩, fun s link lane l hlink hl hnew => ⟨fun hroom => ?_, fun hfull => ?_⟩⟩
  · have hunit := cryptoFault_out (cls := cls) (addr := 0) hserving hu htries
    refine ⟨_, exec_unitFault ⟨hlo, hhi⟩ (by decide), ?_⟩
    rw [fenceUnit_single hu (by decide) (by decide), hunit]
    exact ⟨rfl, rfl, rfl⟩
  · rw [exec_unitFault ⟨hlo, hhi⟩ hblock, fenceUnit_single hu hlink hdomain]
  · rw [exec_unitFault ⟨hlo, hhi⟩ (by decide), fenceUnit_link hu]
  · exact congrArg Host.Outcome.next (drainComplete_out hdraining hidle hstay hshallow)
  · have hunit : (enterOut s 7 u false false).unit 7 u = (s.unit 7 u).outOf false false := enterOut_unit (.inl htries)
    refine ⟨enterOut s 7 u false false, congrArg Host.Outcome.next (drainComplete_out hdraining hidle hstay hshallow), ?_, ?_,
      enterOut_hasEvent (.inl htries)⟩ <;> rw [hunit] <;> rfl
  · obtain ⟨hexec, hwaiting⟩ := returnWorkDone_passes hreturning hcores
    exact ⟨hexec, _, hexec, hwaiting⟩
  · exact congrArg Host.Outcome.next ((if_neg fun h => hblock h.1).trans (returnDone_fails hreturning))
  · refine congrArg Host.Outcome.next ?_
    rw [d2dSwap, if_neg (Nat.not_le.2 hlink)]
    simp only [hl, hnew, Bool.false_eq_true, if_false]
    rw [if_neg (Nat.not_le.2 hroom)]
  · refine congrArg Host.Outcome.next ?_
    rw [d2dSwap, if_neg (Nat.not_le.2 hlink)]
    simp only [hl, hnew, Bool.false_eq_true, if_false]
    rw [if_pos hfull]

/-! ### A damaged record of a full ledger (R600, R604) -/

section
variable {s : State} {p : Nat} {o : LRec} {l : List LRec}

/-- A record added to a full ledger displaces the oldest one, which is lost and counted where nothing has read it. -/
theorem ledgerAdd_displaces (hrecs : (s.ledger p).recs = o :: l) (hfull : 16384 ≤ (o :: l).length) (hunread : o.read = false) (x : LRec) :
    (ledgerAdd s p x).ro .rasPLedgerLost p = s.ro .rasPLedgerLost p + 1 := by
  unfold ledgerAdd
  simp only [hrecs, hfull, hunread, decide_true, Bool.not_false, Bool.and_self, if_true,
    apply_ite (fun t : State => t.ro .rasPLedgerLost p), queueLog_ro, event_ro, raiseEvent_ro, ro_bump_same, ite_self]
  rfl

/-- The fault record that a damaged read of the tiers gives to one partition. -/
theorem faultRecord_displaces (hrecs : (s.ledger p).recs = o :: l) (hfull : 16384 ≤ (o :: l).length) (hunread : o.read = false)
    (cls kind u addr : Nat) : (faultRecord s cls kind u addr [p] []).ro .rasPLedgerLost p = s.ro .rasPLedgerLost p + 1 := by
  unfold faultRecord
  dsimp only
  refine (ledgerAdd_displaces (o := o) (l := l) ?_ hfull hunread _).trans (congrArg (· + 1) (event_ro _ _ _ _ _ _))
  rw [State.ledger, event_ras]
  exact hrecs

/-- In a full ledger with an unread oldest record, a damaged record counts two: itself, and the one its fault record displaces. -/
theorem damagedLedger_full {n k : Nat} (hrecs : (s.ledger p).recs = o :: l) (hfull : 16384 ≤ (o :: l).length) (hunread : o.read = false)
    (hk : ((s.ledger p).recs.any fun r => r.lseq == k) = true) :
    (damagedRead s n (.ledger p k)).ro .rasPLedgerLost p = s.ro .rasPLedgerLost p + 1 + 1 := by
  simp only [damagedRead]
  rw [if_pos hk, ro_bump_same]
  exact congrArg (· + 1) (faultRecord_displaces hrecs hfull hunread 0x07 0 0 0)

end

/-- A fault record of partition 0 that nothing has read. -/
def unreadRec (lseq : Nat) : LRec := { faultRec 0 [] with lseq := lseq }

/-- The device after its reset, with partition 0's ledger full of unread records. -/
def fullLedger : State :=
  State.reset.mapRas fun x => { x with
    ledgers := [(0, { next := 16384, recs := unreadRec 0 :: (List.range 16383).map fun i => unreadRec (i + 1) })] }

theorem fullLedger_recs : (fullLedger.ledger 0).recs = unreadRec 0 :: (List.range 16383).map fun i => unreadRec (i + 1) := rfl

/-- Refutes O35: where the ledger is full of unread records, a damaged record's fault record displaces another, and two are counted. -/
theorem not_damageAndLedgerComplete : ¬ Obligations.DamageAndLedgerComplete := by
  unfold Obligations.DamageAndLedgerComplete
  rintro ⟨-, -, -, -, -, -, -, -, -, -, -, -, hledger, -⟩
  have hlisted : ((fullLedger.ledger 0).recs.any fun r => r.lseq == 0) = true := by
    rw [fullLedger_recs]
    rfl
  obtain ⟨t, hexec, -, hcount⟩ := hledger fullLedger 0 0 0 hlisted
  injection hexec with ht
  rw [← ht, damagedLedger_full fullLedger_recs (by simp) rfl hlisted] at hcount
  have hone : (1 : W32) = 0 := left_eq_add.1 hcount.symm
  exact absurd hone (by decide)

end Sys2Proof.Machine
end
